-- ==== Sys2Proof/Word.lean ====
section
/-! DEFINITION. The word types of the DV-7200 and their plainest arithmetic: nothing here interprets a field
of the manual. Bit ranges of the manual, [msb:lsb], are read with `bitsOf w lsb width`. -/
namespace Sys2Proof

/-- One byte. -/
abbrev Byte := BitVec 8

/-- A 32-bit register word (R9). -/
abbrev Word := BitVec 32

/-- A 64-bit data word: a VC0 word, a queue word, a bank word. -/
abbrev DWord := BitVec 64

/-- Bits [lo + w - 1 : lo] of a word, as a number. -/
def bitsOf {n : Nat} (x : BitVec n) (lo w : Nat) : Nat := x.toNat >>> lo % 2 ^ w

end Sys2Proof
end

