-- ==== Sys2Proof/Syntax.lean ====
section
/-! DEFINITION. The commands the block takes, one constructor per row of spec/opcode_table.json, in the table's
order. The table gives a row no bits and no operands: an operand stands here only for what the outside supplies
(a written value, a byte stream, a received symbol unit, a measured level) or to say which of the like units the
event is in. What the device itself holds is read from the state. -/
namespace Sys2Proof

/-- Who makes an access: the host through PCI Express or Lighthouse firmware through its own map (R194, R317). -/
inductive Party where
  | host
  | lighthouse
  deriving DecidableEq, Repr

/-- A read, or a write of one 32-bit value. -/
inductive Access where
  | read
  | write (value : Word)
  deriving DecidableEq, Repr

/-- Capabilities of a PCI Express function that Table 16.1 names. -/
inductive PcieCapability where
  | powerManagement
  | pciExpress
  | msix
  | aer
  | serialNumber
  | msi
  | sriov
  | ats
  | pri
  | pasid
  | tph
  | ltr
  | acs
  | resizableBar
  | l1Substates
  deriving DecidableEq, Repr

/-- A register of configuration space, by its name in PCI Express Base 3.0 (R386): where the capabilities lie the manual does
not say. `capability c` is the identifier in a capability's header, 0 where it is absent; `headerType` and `interrupt` are the
words that hold the header type and the interrupt pin; `command` holds the status register too, `deviceControl` the device
status, `linkStatus` the link control, and `aerControl` the First Error Pointer. -/
inductive ConfigReg where
  | identity
  | command
  | classRevision
  | headerType
  | interrupt
  | powerCapabilities
  | bar (k : Fin 6)
  | subsystem
  | expansionRom
  | capability (c : PcieCapability)
  | powerControl
  | msixControl
  | msixTable
  | msixPba
  | deviceCapabilities
  | deviceControl
  | linkCapabilities
  | linkStatus
  | deviceCapabilities2
  | deviceControl2
  | linkCapabilities2
  | linkControl2
  | uncorrectableStatus
  | uncorrectableMask
  | uncorrectableSeverity
  | correctableStatus
  | correctableMask
  | aerControl
  | headerLog (k : Fin 4)
  | serialLow
  | serialHigh
  deriving DecidableEq, Repr

/-- What a request names: a register BAR (R388), a register of configuration space (R387), or the window onto DDR4 in the
address map of Lighthouse (Table 13.1). -/
inductive Bar where
  | bar0
  | bar2
  | config (r : ConfigReg)
  | ddrWin
  deriving DecidableEq, Repr

/-- A register access of the host or firmware: byte offset in the BAR or register, size in bytes (R9), who makes it, whether
a write of the host came poisoned (R389), and whether the ECRC of the host's request is wrong (R386). -/
structure Ref where
  party : Party
  bar : Bar
  addr : Nat
  size : Nat
  poisoned : Bool := false
  ecrcBad : Bool := false
  deriving DecidableEq, Repr

/-- A BAR4 access (R393): a read with the byte enables of its bytes, or a write with the bytes, none where one is not enabled;
a write may come poisoned (R389), and the ECRC of a request may be wrong (R386). -/
inductive Bar4Data where
  | read (enabled : List Bool)
  | write (bytes : List (Option Byte)) (poisoned : Bool)
  | ecrcBad (request : Bar4Data)
  deriving DecidableEq, Repr

/-- A write of cause bits by the host, and the causes whose event comes in the same cycle (Table 16.7). -/
structure CauseClear where
  value : Word
  meets : Word
  deriving DecidableEq, Repr

/-- A 16-symbol training set as received (Table 7.3); `good` says the layout, the CRC, the code groups and the
distance from the last set are right (R168), `errors` at which of its symbols a code error came (R162). -/
structure TrainingSet where
  good : Bool
  errors : List Nat
  state : Nat
  lane : Nat
  ordinal : Nat
  width : Nat
  index : Nat
  fresh : Bool
  deriving DecidableEq, Repr

/-- What a lane has received with a unit: the idle symbols since the lane's last unit, and the places of the code errors among
those and the unit's symbols, from 0 on, a K symbol out of place among them (R162, R163). -/
structure LaneIn where
  idles : Nat
  errors : List Nat
  deriving DecidableEq, Repr

/-- A received frame: its four header bytes, its 32 payload bytes (bit 0 of byte 0 lowest), what came with it, and
whether K23.7 ended it (R163, R164). -/
structure FrameIn where
  header : BitVec 32
  payload : BitVec 256
  rx : LaneIn
  aborted : Bool
  deriving DecidableEq, Repr

/-- An alignment marker as received on one lane: width, index and the symbols it lags the earliest (R175). -/
structure MarkerIn where
  lane : Fin 80
  width : Nat
  index : Nat
  lag : Nat
  crcOk : Bool
  rx : LaneIn
  deriving DecidableEq, Repr

/-- A filler as received (R173): its lane, the fill of the elastic buffer as the clocks' drift has left it, and what came
with it. -/
structure FillerIn where
  lane : Fin 80
  fill : Fin 17
  rx : LaneIn
  deriving DecidableEq, Repr

/-- The end of a resend window of a link: the transmitter's, or the receiver's since its nak (R180, R181). -/
structure WindowEnd where
  link : Fin 20
  receiver : Bool
  deriving DecidableEq, Repr

/-- A POKE frame: its CRC holds, and its write does not complete within 50 µs (R324). -/
structure PokeIn where
  crcOk : Bool
  slow : Bool
  deriving DecidableEq, Repr

/-- A Lighthouse core and the program counter of the instruction it executes. -/
structure CoreAt where
  core : Fin 2
  pc : Word
  deriving DecidableEq, Repr

/-- A token set or hold marker as received on one lane (R185): its count and whether its CRC holds. -/
structure TokenIn where
  count : Byte
  crcOk : Bool
  rx : LaneIn
  deriving DecidableEq, Repr

/-- A delay measurement frame as it arrives on a lane of the link (R187): `symbols` have passed since the last unit boundary of
a lane of the link; an answer carries t2, t3 and B_B of the far end. -/
inductive Exchange where
  | request (lane : Fin 80) (symbols : Nat)
  | answer (lane : Fin 80) (symbols t2 t3 holdB : Nat)
  deriving DecidableEq, Repr

/-- The shore balls at the end of a tide phase as the outside holds them (R410): which balls the target drives, which the
board pulls, and the level of each. -/
structure ShoreIn where
  driven : BitVec 512
  pulled : BitVec 512
  levels : BitVec 512
  deriving DecidableEq, Repr

/-- A time-exchange frame (Table 12.2) as received: the ns and fraction of a timestamp are one number in units
of 2^-32 ns. `symbols` counts symbols since the time-clock edge at its arrival on `lane` (R307, R310). -/
structure TimeFrame where
  messageType : Nat
  domain : Nat
  sequence : Nat
  stamp : Nat
  symbols : Nat
  lane : Fin 80
  deriving DecidableEq, Repr

/-- Where a failed DMA read belongs (R398); an operand fetch has read its descriptor, whose irq bit comes with it. -/
inductive DmaPurpose where
  | loader
  | ringOperand (ring : Fin 32) (irq : Bool)
  | ringDescriptor (ring : Fin 32)
  deriving DecidableEq, Repr

/-- What a BIST run found (R356, R358). -/
structure BistResult where
  clusterFail : BitVec 136
  bankFail : BitVec 256
  svcFail : BitVec 16
  quadFail : BitVec 20
  ddrFail : BitVec 4
  harbourFail : Bool
  observationFail : Bool
  traceFail : Bool
  meshFail : Bool
  fuseFail : Bool
  deriving DecidableEq, Repr

/-- What begins a warm reset (Table 15.6). -/
inductive WarmSource where
  | pcie
  | severity7
  | register
  deriving DecidableEq, Repr

/-- What begins a cold reset (Table 15.6). -/
inductive ColdSource where
  | powerOn
  | footpath
  | register
  deriving DecidableEq, Repr

/-- A reference clock (Table 15.3). -/
inductive RefClock where
  | cw (k : Fin 4)
  | sys
  | pcie
  deriving DecidableEq, Repr

/-- A fuse-write outcome: of a key slot or of a life-cycle transition; `ok = false` is a fuse error (R328, R336). -/
structure FuseOutcome where
  ok : Bool
  deriving DecidableEq, Repr

/-- A data access of a Lighthouse core (R317, R333). -/
inductive DataKind where
  | load
  | store
  | loadReserved
  | storeConditional
  deriving DecidableEq, Repr

/-- A memory that has a set and a clear window (R207). -/
inductive AliasTarget where
  | view
  | service (bank : Fin 16)
  deriving DecidableEq, Repr

/-- The commands of spec/opcode_table.json, in its order. -/
inductive Instr where
  -- clusters (chapters 2, 3)
  | clusterStep (n : Fin 128)
  | mrdLanding (n : Fin 128)
  | vc0WordArrival (n : Fin 128)
  | queueAppend (n : Fin 128)
  | wmTimeout (n : Fin 128)
  | niRequestSend (n : Fin 128)
  | acceptanceReceive (n : Fin 128)
  | domainAsleepReceive (i : Fin 136)
  | niSourceHoldExpiry (i : Fin 136)
  -- Wayfabric (chapter 6)
  | routerOutputSelect (r : Fin 144)
  | probeTraceWrite (p : Fin 32)
  | niPacketReceive (i : Fin 136)
  | mgmtWrite (i : Fin 136) (party : Party) (addr : Nat) (value : Word)
  | mgmtRead (i : Fin 136) (addr : Nat)
  | reservationProbe (n : Fin 128)
  -- legs and milestones (chapter 4)
  | legDecision
  | milestone
  | milestoneLeave
  | tokenReceive (lane : Fin 80) (x : TokenIn)
  | holdMarkerReceive (lane : Fin 80) (x : TokenIn)
  | msTokenTimeout
  | tokenRepeat (l : Fin 20)
  -- register accesses (R9 to R11)
  | registerWrite (r : Ref) (data : List Word)
  | readClear (r : Ref)
  | captureRead (r : Ref)
  | hazardLogRead (party : Party)
  | forceWrite (n : Fin 128) (f : Fin 64) (value : Word)
  | swellFlagsWrite (n : Fin 128) (value : Word)
  | swellAll
  | vsViewAccess (n : Fin 128) (word : Fin 16384) (access : Access)
  | routeEntryWrite (i : Fin 136) (e : Fin 256) (value : Word)
  | quiesce (i : Fin 136)
  | niQuiet (i : Fin 136)
  | routerReset (r : Fin 144)
  | routerDrainDone (r : Fin 144)
  | routerReopen (r : Fin 144)
  | switchReq
  | ptraceEnable (value : Word)
  -- Causeway (chapter 7)
  | linkConfig (l : Fin 20) (value : Word)
  | retrain (lane : Fin 80)
  | loopChange (lane : Fin 80) (loop : Bool)
  | patternMode (lane : Fin 80)
  | prbsLock (lane : Fin 80) (bits : List Bool)
  | inject (lane : Fin 80) (value : Word)
  | laneLock (lane : Fin 80)
  | laneAlign (lane : Fin 80) (inverted : Bool)
  | trainingSetReceive (lane : Fin 80) (set : TrainingSet)
  | laneDown (lane : Fin 80)
  | alignmentMarkerDue (l : Fin 20)
  | alignmentMarkerReceive (l : Fin 20) (markers : List MarkerIn)
  | linkUp (l : Fin 20)
  | delayExchange (l : Fin 20) (x : Exchange)
  | delayMeasured (l : Fin 20)
  | fillerDue (lane : Fin 80)
  | fillerReceive (lane : FillerIn)
  | cwEbSlip (lane : Fin 80) (full : Bool)
  | unitBoundary (lane : Fin 80)
  | frameReceive (lane : Fin 80) (f : FrameIn)
  | vc0FrameReceive (l : Fin 20)
  | flitFrameReceive (l : Fin 20)
  | linkControlReceive (l : Fin 20)
  | linkVc0Enter (l : Fin 20)
  | nakReceive (l : Fin 20)
  | resendWindowExpiry (l : WindowEnd)
  | cwLinkTimeout (l : Fin 20)
  -- memories (chapter 8)
  | ownerHandover (party : Party) (b : Fin 256) (value : Word)
  | handoverDone (b : Fin 256)
  | bankPowerRequest (party : Party) (b : Fin 256) (value : Word)
  | bankPowerDone (b : Fin 256)
  | controlViewAccess (party : Party) (word : Fin 65536) (access : Access)
  | setAliasWrite (party : Party) (target : AliasTarget) (word : Fin 65536) (value : Word)
  | clearAliasWrite (party : Party) (target : AliasTarget) (word : Fin 65536) (value : Word)
  | serviceBankAccess (party : Party) (k : Fin 16) (word : Fin 65536) (access : Access)
  | marchGo (value : Word)
  | marchDone (failures : List (Fin 6 × Fin 32768 × Fin 64))
  | ddrTrain (c : Fin 4) (step : Nat) (ok : Bool) (lanes : Byte)
  | ddrRefresh (c : Fin 4)
  | ddrRequest (c : Fin 4)
  | ddrRequestDone (c : Fin 4)
  | bar4Access (offset : Nat) (length : Nat) (write : Bar4Data)
  | bar4WinWrite (value : Word)
  -- Harbour (chapter 9)
  | harbourCycle
  | dlistTick (list : Fin 4)
  | hostMessage (buffer : DWord)
  | blockMover
  | reloadFeed
  | loopBack
  | reservationAnswer
  | parkReprobe
  | hbParkTimeout
  | actionEnd
  | harbourEnable (on : Bool)
  | flush
  | ringTailWrite (k : Fin 32) (value : Word)
  | txDescriptorFetch (k : Fin 16) (irq : Bool) (words : List DWord)
  | txWriteBack (k : Fin 16)
  | ringEnable (k : Fin 32) (value : Word)
  | dmaError (purpose : DmaPurpose) (cause : Fin 8)
  | messageWindowWrite (low high : Option Word)
  -- loading (chapter 10)
  | loadArm
  | loadGo
  | loadAbort
  | loadStart
  | releaseStep
  | streamFetch (bytes : List Byte)
  | sectionReceived
  | fetchFailure (sourceError : Bool)
  | backoffExpiry
  | retry (message : DWord)
  | rewind (message : DWord)
  | rewound (l : Fin 20)
  | endMessage (message : DWord)
  | abort (l : Fin 20)
  | report (l : Fin 20) (message : DWord)
  | start
  | enterHold
  | loadWrite
  | loadComplete
  | shoreWordTransfer (word : DWord) (last : Bool)
  | scrubRead (n : Fin 128)
  | scrubPassEnd (n : Fin 128)
  | reloadGo
  | reloadLeaveRun
  | reloadReceiving
  | breakwaterLaunch (n : Fin 128) (w : Fin 32)
  | reloadWindowWrite (source : Fin 3) (value : Word)
  | reloadEnd
  | reloadReady
  | reloadJoin
  | reloadAbort
  | slotPlan
  -- observing and steering (chapter 11)
  | freeze
  | run
  | step
  | stop
  | freezeAt (value : Word)
  | arm
  | disarm
  | forceTrigger
  | acqStop
  | captureDrain
  | pauseResume
  | segmentRearm
  -- system time (chapter 12)
  | timeTick
  | timeSet
  | servoReset
  | timeCfgWrite (sync : Bool) (value : Word)
  | syncSend (l : Fin 20)
  | syncReceive (l : Fin 20) (f : TimeFrame)
  | followUpReceive (l : Fin 20) (f : TimeFrame)
  | delayReqReceive (l : Fin 20) (f : TimeFrame)
  | delayRespReceive (l : Fin 20) (f : TimeFrame)
  | timeSyncLost
  -- Lighthouse, Footpath, security, trace (chapter 13)
  | boot
  | firmwareVerified
  | restart
  | kick (c : Fin 2)
  | lhWatchdog (c : Fin 2)
  | peek (addr : Nat) (crcOk : Bool)
  | poke (addr : Nat) (value : Word) (frame : PokeIn)
  | burstPeek (addr : Nat) (count : Nat) (crcOk : Bool)
  | reservedOp (op : Fin 8) (crcOk : Bool)
  | footpathReply
  | footpathFrameTimeout
  | get
  | go (slot : Fin 8)
  | challengeExpiry
  | lockoutExpiry
  | sessionEnd
  | sessionTimeout
  | halt
  | haltComplete
  | resume
  | feedReadRegister (core : Fin 2) (g : Fin 32)
  | feedWriteRegister (core : Fin 2) (g : Fin 32)
  | feedReadPc (core : Fin 2)
  | feedWritePc (core : Fin 2)
  | feedLoad (core : Fin 2) (inc : Bool)
  | feedStore (core : Fin 2) (inc : Bool)
  | feedCompleteStores (core : Fin 2)
  | lcTransition (footpath : Bool) (value : Word)
  | keyProgram (footpath : Bool) (slot : Fin 8)
  | fuseWriteDone (outcome : FuseOutcome)
  | coreBranch (core : CoreAt) (exception : Bool) (notTaken : Nat) (target : Word)
  | coreDataAccess (core : CoreAt) (kind : DataKind) (addr : Word)
  | coreSleep (core : CoreAt)
  | coreWake (core : Fin 2)
  | traceMsg (writer : Fin 4) (value : Word)
  | traceRoom (source : Fin 4)
  | trig
  -- faults, BIST, Cairn (chapter 14)
  | faultEvent
  | severity7Reset
  | faultInject (footpath : Bool) (value : Word)
  | safeRelease
  | sevLock
  | cairnCommit (readBackOk : Bool)
  | cairnWrite
  | erase (footpath : Bool)
  | eraseDone
  | bistRun
  | bistDone (result : BistResult)
  | testEngineGo (footpath : Bool) (value : Word)
  | testEngineDone
  -- power, clocks, reset (chapter 15)
  | domainRequest (d : Fin 28) (on : Bool)
  | domainClose (d : Fin 28)
  | domainDrainDone (d : Fin 28)
  | domainOff (d : Fin 28)
  | domainOpen (d : Fin 28)
  | railInRange (d : Fin 28)
  | railTimeout (d : Fin 28)
  | domainOn (d : Fin 28)
  | railOutOfRange (d : Fin 28)
  | fllCalibrate (island : Fin 144)
  | thermalDecision
  | sensorSample (sensor : Fin 20) (celsius : Nat)
  | refclkLoss (clock : RefClock)
  | refclkReturn (clock : RefClock)
  | coldReset (source : ColdSource) (straps : BitVec 8)
  | warmReset (source : WarmSource)
  | reachReset (r : Fin 16)
  -- host interface (chapter 16)
  | flr
  | irqCauseClear (high : Bool) (value : CauseClear)
  | msixSend (v : Fin 64)
  | msixPendingSend (v : Fin 64)
  | lhDoorbell (value : Word)
  | powerStateChange (d3hot : Bool)
  | busMasterEnable (on memorySpace msix functionMask : Bool)
  | pcieLinkDown
  -- shore (chapter 17)
  | tideStart
  | tidePhaseEnd (x : ShoreIn)
  | shoreWordArrival (n : Fin 128)
  -- rows added later to the table
  | reloadChecked
  | pcieLinkUp (speed : Nat) (width : Nat)
  | framingError
  | phaseStrobeRise
  deriving DecidableEq, Repr

end Sys2Proof
end

