-- ==== Sys2Proof/Decode.lean ====
section
/-! DEFINITION. Words of spec/opcode_table.json. The table gives none of its rows any bits: commands reach the block
as register accesses, packets, frames and pin events, not as encoded words. -/
namespace Sys2Proof

/-- The command that a word of the table spells: no row has bits, so none. -/
def decodeTableWord (_nbits _w : Nat) : Option Instr := none

end Sys2Proof
end

