-- ==== Sys2Proof/Config.lean ====
section
/-! DEFINITION. What the manual leaves to the part, to an external standard it only names, or open: constants
without a body. Nothing in Lean can evaluate one, so a claim that mentions one holds whatever it is. -/
namespace Sys2Proof.Config

/-- Log entry 2. A byte of a memory whose contents are undefined or lost (R202, R212, Table 15.7): the epoch
counts the losses of that memory, the address is the byte's. Free value. -/
opaque freeByte (epoch address : Nat) : Byte

/-- Log entry 2. A fresh value of the given width for a value the manual does not define; the step reads the
counter `State.free` and advances it. Free value. -/
opaque freeBits (width counter : Nat) : BitVec width

/-- Log entry 2. The Causeway symbols elapsed since an edge of the time clock (R307): the edge is told by the ticks counted,
the moment after it by `State.free`. Free value. -/
opaque symbolsSince (ticks counter : Nat) : Nat

/-- Log entry 3. The boot ROM's firmware-signing public key (R318), fixed in the part and not given. -/
opaque firmwareKey : List Byte

/-- Log entry 3. The word at an address of the boot ROM (Table 13.1), whose contents the manual does not give. -/
opaque bootRom (address : Nat) : BitVec 32

/-- Log entry 4. The part of e(f, h) of R147 that hop h adds, in periods: fixed for the route (its source router and its
hop codes) and the stepping, and not given. R115 bounds the sum over the route. -/
opaque hopDelay (b0 : Bool) (sourceRouter : Nat) (route : List Nat) (hop : Nat) : Nat

/-- Log entry 71. The code group outside the 8b/10b table that replaces a data octet under a running disparity (R189). -/
opaque invalidGroup (positive : Bool) (octet : Nat) : BitVec 10

/-- Log entry 72. The payload of a delay measurement frame (R187), whose layout the manual does not give: the request of an
end, or the answer with t2, t3 and B_B. -/
opaque delayPayload (answer : Bool) (t2 t3 hold : Nat) : BitVec 256

/-- Log entry 5. Which way a rounding the manual does not settle goes (ties of R312, timestamps of R307). -/
opaque roundUp (numerator denominator : Nat) : Bool

/-- Log entry 5. The order in which a controller that may reorder requests serves them (R219): the position
chosen among the eligible ones. -/
opaque pick (counter : Nat) : Nat

/-- Log entry 3. The LBIST or march signature of a physical cluster for a seed and a pattern count (R360). -/
opaque misr (cluster kind seed patterns : Nat) : DWord

end Sys2Proof.Config
end

