-- ==== Sys2Proof/Machine/Regs.lean ====
section
/-! DEFINITION. The register map: every register description of the manual with its BAR0 offset (Table 16.4
gives the block bases), its array dimensions, its reset value and its access masks (Table 0.4). Reset values
that vary by index or come from the part (fuses, straps, Table 14.1) are completed by `resetWord`. -/
namespace Sys2Proof.Machine

/-- One register description: `dims` are the index strides and counts, widest first; the masks hold the bits of
each access type of Table 0.4. -/
structure RegGroup where
  base : Nat
  dims : List (Nat × Nat)
  reset : Nat
  rw : Nat
  w1c : Nat
  w1s : Nat
  rc : Nat
  wo : Nat
  deriving DecidableEq, Repr

/-- The indices of `off` in an array of the given dimensions; none when no element starts there. -/
def regIndex : List (Nat × Nat) → Nat → Option (List Nat)
  | [], off => if off = 0 then some [] else none
  | (stride, count) :: rest, off =>
    if off / stride < count then (regIndex rest (off % stride)).map (off / stride :: ·) else none

namespace R

/-- CLU_STATUS (chapter 2). -/
abbrev cluStatus (i : Nat) : Nat := 0x01000000 + 0x20000 * i
/-- CLU_STALL_CNT (chapter 2). -/
abbrev cluStallCnt (i : Nat) : Nat := 0x01000004 + 0x20000 * i
/-- CLU_WM_TIMEOUT (chapter 2). -/
abbrev cluWmTimeout (i : Nat) : Nat := 0x01000008 + 0x20000 * i
/-- CLU_VS_SEL (chapter 2). -/
abbrev cluVsSel (i : Nat) : Nat := 0x0100000C + 0x20000 * i
/-- CLU_ARR_ENTRY (chapter 2). -/
abbrev cluArrEntry (i j : Nat) : Nat := 0x01001000 + 0x20000 * i + 0x4 * j
/-- CLU_OBUF_CFG (chapter 2). -/
abbrev cluObufCfg (i j : Nat) : Nat := 0x01002000 + 0x20000 * i + 0x4 * j
/-- CLU_LANE_CFG (chapter 2). -/
abbrev cluLaneCfg (i j : Nat) : Nat := 0x01002100 + 0x20000 * i + 0x4 * j
/-- CLU_Q_CFG (chapter 2). -/
abbrev cluQCfg (i j : Nat) : Nat := 0x01002200 + 0x20000 * i + 0x4 * j
/-- CLU_Q_STATUS (chapter 2). -/
abbrev cluQStatus (i j : Nat) : Nat := 0x01002240 + 0x20000 * i + 0x4 * j
/-- CLU_WM_CFG (chapter 2). -/
abbrev cluWmCfg (i j : Nat) : Nat := 0x01002300 + 0x20000 * i + 0x4 * j
/-- CLU_WM_STATE_LO (chapter 2). -/
abbrev cluWmStateLo (i : Nat) : Nat := 0x01002400 + 0x20000 * i
/-- CLU_WM_STATE_HI (chapter 2). -/
abbrev cluWmStateHi (i : Nat) : Nat := 0x01002404 + 0x20000 * i
/-- CLU_FORCE (chapter 2). -/
abbrev cluForce (i j : Nat) : Nat := 0x01003000 + 0x20000 * i + 0x4 * j
/-- GLB_SCHED_DEPTH (chapter 4). -/
abbrev glbSchedDepth : Nat := 0x00001000
/-- GLB_SCHED_CFG (chapter 4). -/
abbrev glbSchedCfg : Nat := 0x00001004
/-- GLB_SCHED_STATUS (chapter 4). -/
abbrev glbSchedStatus : Nat := 0x00001008
/-- GLB_EC_COUNT_LO (chapter 4). -/
abbrev glbEcCountLo : Nat := 0x00001010
/-- GLB_EC_COUNT_HI (chapter 4). -/
abbrev glbEcCountHi : Nat := 0x00001014
/-- GLB_MS_LINKS (chapter 4). -/
abbrev glbMsLinks : Nat := 0x00001020
/-- GLB_MS_TOKEN_TIMEOUT (chapter 4). -/
abbrev glbMsTokenTimeout : Nat := 0x00001024
/-- GLB_MS_STATUS (chapter 4). -/
abbrev glbMsStatus : Nat := 0x00001028
/-- GLB_LEG (chapter 4). -/
abbrev glbLeg (i : Nat) : Nat := 0x00001100 + 0x4 * i
/-- GLB_WHEEL_CFG (chapter 4). -/
abbrev glbWheelCfg (i : Nat) : Nat := 0x00001200 + 0x4 * i
/-- GLB_WHEEL_PAT (chapter 4). -/
abbrev glbWheelPat (i j : Nat) : Nat := 0x00002000 + 0x200 * i + 0x4 * j
/-- CLU_SWELL_STEP (chapter 4). -/
abbrev cluSwellStep (i j : Nat) : Nat := 0x01004000 + 0x20000 * i + 0x4 * j
/-- CLU_SWELL_IN (chapter 4). -/
abbrev cluSwellIn (i j : Nat) : Nat := 0x01005000 + 0x20000 * i + 0x4 * j
/-- CLU_SWELL_FLAGS (chapter 4). -/
abbrev cluSwellFlags (i : Nat) : Nat := 0x01005400 + 0x20000 * i
/-- GLB_CONTRACT_REV (chapter 5). -/
abbrev glbContractRev : Nat := 0x00004000
/-- GLB_HAZARD_CFG (chapter 5). -/
abbrev glbHazardCfg : Nat := 0x00004004
/-- GLB_HAZARD_STATUS (chapter 5). -/
abbrev glbHazardStatus : Nat := 0x00004008
/-- GLB_HAZARD_COUNT (chapter 5). -/
abbrev glbHazardCount : Nat := 0x0000400C
/-- GLB_HAZARD_LOG_LO (chapter 5). -/
abbrev glbHazardLogLo : Nat := 0x00004010
/-- GLB_HAZARD_LOG_HI (chapter 5). -/
abbrev glbHazardLogHi : Nat := 0x00004014
/-- WF_STATUS (chapter 6). -/
abbrev wfStatus : Nat := 0x00200000
/-- WF_SLOT_CTRL (chapter 6). -/
abbrev wfSlotCtrl : Nat := 0x00200004
/-- WF_SLOT_LATE (chapter 6). -/
abbrev wfSlotLate : Nat := 0x00200008
/-- WF_HDR_ERR (chapter 6). -/
abbrev wfHdrErr : Nat := 0x0020000C
/-- WF_ASLEEP_LOG (chapter 6). -/
abbrev wfAsleepLog : Nat := 0x00200010
/-- WF_PTRACE_CTRL (chapter 6). -/
abbrev wfPtraceCtrl : Nat := 0x00200020
/-- WF_PTRACE_PTR (chapter 6). -/
abbrev wfPtracePtr : Nat := 0x00200024
/-- WF_PROBE_CFG (chapter 6). -/
abbrev wfProbeCfg (i : Nat) : Nat := 0x00200100 + 0x10 * i
/-- WF_PROBE_MATCH (chapter 6). -/
abbrev wfProbeMatch (i : Nat) : Nat := 0x00200104 + 0x10 * i
/-- WF_PROBE_CNT (chapter 6). -/
abbrev wfProbeCnt (i : Nat) : Nat := 0x00200108 + 0x10 * i
/-- WF_RTR_CTRL (chapter 6). -/
abbrev wfRtrCtrl (i : Nat) : Nat := 0x00201000 + 0x4 * i
/-- WF_RTR_STATUS (chapter 6). -/
abbrev wfRtrStatus (i : Nat) : Nat := 0x00201400 + 0x4 * i
/-- WF_NI_CTRL (chapter 6). -/
abbrev wfNiCtrl (i : Nat) : Nat := 0x00202000 + 0x4 * i
/-- WF_NI_STATUS (chapter 6). -/
abbrev wfNiStatus (i : Nat) : Nat := 0x00202400 + 0x4 * i
/-- WF_RT0 (chapter 6). -/
abbrev wfRt0 (i j : Nat) : Nat := 0x00210000 + 0x1000 * i + 0x10 * j
/-- WF_RT1 (chapter 6). -/
abbrev wfRt1 (i j : Nat) : Nat := 0x00210004 + 0x1000 * i + 0x10 * j
/-- WF_RT2 (chapter 6). -/
abbrev wfRt2 (i j : Nat) : Nat := 0x00210008 + 0x1000 * i + 0x10 * j
/-- WF_RT3 (chapter 6). -/
abbrev wfRt3 (i j : Nat) : Nat := 0x0021000C + 0x1000 * i + 0x10 * j
/-- WF_SLOT (chapter 6). -/
abbrev wfSlot (i j k l : Nat) : Nat := 0x002A0000 + 0x200 * i + 0x40 * j + 0x20 * k + 0x4 * l
/-- CW_LANE_CTRL (chapter 7). -/
abbrev cwLaneCtrl (i : Nat) : Nat := 0x00300000 + 0x1000 * i
/-- CW_LANE_STATUS (chapter 7). -/
abbrev cwLaneStatus (i : Nat) : Nat := 0x00300004 + 0x1000 * i
/-- CW_LANE_FAR (chapter 7). -/
abbrev cwLaneFar (i : Nat) : Nat := 0x00300008 + 0x1000 * i
/-- CW_LANE_ERR (chapter 7). -/
abbrev cwLaneErr (i : Nat) : Nat := 0x0030000C + 0x1000 * i
/-- CW_LANE_ANALOG (chapter 7). -/
abbrev cwLaneAnalog (i : Nat) : Nat := 0x00300010 + 0x1000 * i
/-- CW_PRBS_CTRL (chapter 7). -/
abbrev cwPrbsCtrl (i : Nat) : Nat := 0x00300020 + 0x1000 * i
/-- CW_PRBS_ERR (chapter 7). -/
abbrev cwPrbsErr (i : Nat) : Nat := 0x00300024 + 0x1000 * i
/-- CW_INJECT (chapter 7). -/
abbrev cwInject (i : Nat) : Nat := 0x00300028 + 0x1000 * i
/-- CW_LINK_CFG (chapter 7). -/
abbrev cwLinkCfg (i : Nat) : Nat := 0x00350000 + 0x1000 * i
/-- CW_LINK_STATUS (chapter 7). -/
abbrev cwLinkStatus (i : Nat) : Nat := 0x00350004 + 0x1000 * i
/-- CW_LINK_DELAY (chapter 7). -/
abbrev cwLinkDelay (i : Nat) : Nat := 0x00350008 + 0x1000 * i
/-- CW_LINK_WINDOW (chapter 7). -/
abbrev cwLinkWindow (i : Nat) : Nat := 0x0035000C + 0x1000 * i
/-- CW_LINK_TIMEOUT (chapter 7). -/
abbrev cwLinkTimeout (i : Nat) : Nat := 0x00350010 + 0x1000 * i
/-- CW_LINK_RESEND (chapter 7). -/
abbrev cwLinkResend (i : Nat) : Nat := 0x00350014 + 0x1000 * i
/-- CW_VC0_MAP (chapter 7). -/
abbrev cwVc0Map (i j : Nat) : Nat := 0x00350400 + 0x1000 * i + 0x4 * j
/-- BANK_STATUS (chapter 8). -/
abbrev bankStatus : Nat := 0x00500000
/-- BANK_VIEW_SEL (chapter 8). -/
abbrev bankViewSel : Nat := 0x00500004
/-- BANK_MARCH_CTRL (chapter 8). -/
abbrev bankMarchCtrl : Nat := 0x00500010
/-- BANK_MARCH_STATUS (chapter 8). -/
abbrev bankMarchStatus : Nat := 0x00500014
/-- BANK_MARCH_FAIL (chapter 8). -/
abbrev bankMarchFail : Nat := 0x00500018
/-- BANK_SVC_MARCH_INT (chapter 8). -/
abbrev bankSvcMarchInt : Nat := 0x0050001C
/-- BANK_PRESENT (chapter 8). -/
abbrev bankPresent (i : Nat) : Nat := 0x00500020 + 0x4 * i
/-- BANK_CFG (chapter 8). -/
abbrev bankCfg (i : Nat) : Nat := 0x00501000 + 0x4 * i
/-- BANK_OWNER (chapter 8). -/
abbrev bankOwner (i : Nat) : Nat := 0x00501400 + 0x4 * i
/-- DDR_CH_CFG (chapter 8). -/
abbrev ddrChCfg (i : Nat) : Nat := 0x00400000 + 0x10000 * i
/-- DDR_CH_STATUS (chapter 8). -/
abbrev ddrChStatus (i : Nat) : Nat := 0x00400004 + 0x10000 * i
/-- DDR_TRAIN_STATUS (chapter 8). -/
abbrev ddrTrainStatus (i : Nat) : Nat := 0x00400008 + 0x10000 * i
/-- DDR_ARB (chapter 8). -/
abbrev ddrArb (i : Nat) : Nat := 0x0040000C + 0x10000 * i
/-- DDR_TIM_A (chapter 8). -/
abbrev ddrTimA (i : Nat) : Nat := 0x00400010 + 0x10000 * i
/-- DDR_TIM_B (chapter 8). -/
abbrev ddrTimB (i : Nat) : Nat := 0x00400014 + 0x10000 * i
/-- DDR_ERR (chapter 8). -/
abbrev ddrErr (i : Nat) : Nat := 0x00400018 + 0x10000 * i
/-- DDR_REGION_BASE (chapter 8). -/
abbrev ddrRegionBase (i j : Nat) : Nat := 0x00400100 + 0x10000 * i + 0x8 * j
/-- DDR_REGION_SIZE (chapter 8). -/
abbrev ddrRegionSize (i j : Nat) : Nat := 0x00400104 + 0x10000 * i + 0x8 * j
/-- HB_CTRL (chapter 9). -/
abbrev hbCtrl : Nat := 0x00600000
/-- HB_STATUS (chapter 9). -/
abbrev hbStatus : Nat := 0x00600004
/-- HB_STORE_USE (chapter 9). -/
abbrev hbStoreUse : Nat := 0x00600008
/-- HB_POOL_USE (chapter 9). -/
abbrev hbPoolUse : Nat := 0x0060000C
/-- HB_QUOTA (chapter 9). -/
abbrev hbQuota : Nat := 0x00600010
/-- HB_ERR (chapter 9). -/
abbrev hbErr : Nat := 0x00600014
/-- HB_PARK_TIMEOUT (chapter 9). -/
abbrev hbParkTimeout : Nat := 0x00600018
/-- HB_TRACE_CTRL (chapter 9). -/
abbrev hbTraceCtrl : Nat := 0x0060001C
/-- HB_WIN_CREDIT (chapter 9). -/
abbrev hbWinCredit : Nat := 0x00600020
/-- HB_DLIST_CFG (chapter 9). -/
abbrev hbDlistCfg (i : Nat) : Nat := 0x00600030 + 0x4 * i
/-- HB_DLIST_STATUS (chapter 9). -/
abbrev hbDlistStatus (i : Nat) : Nat := 0x00600040 + 0x4 * i
/-- HB_CLASS_A (chapter 9). -/
abbrev hbClassA (i : Nat) : Nat := 0x00601000 + 0x10 * i
/-- HB_CLASS_B (chapter 9). -/
abbrev hbClassB (i : Nat) : Nat := 0x00601004 + 0x10 * i
/-- HB_CLASS_C (chapter 9). -/
abbrev hbClassC (i : Nat) : Nat := 0x00601008 + 0x10 * i
/-- HB_RING_BASE_LO (chapter 9). -/
abbrev hbRingBaseLo (i : Nat) : Nat := 0x00602000 + 0x20 * i
/-- HB_RING_BASE_HI (chapter 9). -/
abbrev hbRingBaseHi (i : Nat) : Nat := 0x00602004 + 0x20 * i
/-- HB_RING_CFG (chapter 9). -/
abbrev hbRingCfg (i : Nat) : Nat := 0x00602008 + 0x20 * i
/-- HB_RING_TAIL (chapter 9). -/
abbrev hbRingTail (i : Nat) : Nat := 0x0060200C + 0x20 * i
/-- HB_RING_HEAD (chapter 9). -/
abbrev hbRingHead (i : Nat) : Nat := 0x00602010 + 0x20 * i
/-- LD_CTRL (chapter 10). -/
abbrev ldCtrl : Nat := 0x00800000
/-- LD_STATUS (chapter 10). -/
abbrev ldStatus : Nat := 0x00800004
/-- LD_CFG (chapter 10). -/
abbrev ldCfg : Nat := 0x00800008
/-- LD_SRC_LO (chapter 10). -/
abbrev ldSrcLo : Nat := 0x00800010
/-- LD_SRC_HI (chapter 10). -/
abbrev ldSrcHi : Nat := 0x00800014
/-- LD_SYSTEM_ID (chapter 10). -/
abbrev ldSystemId (i : Nat) : Nat := 0x00800020 + 0x4 * i
/-- LD_PROGRESS_LO (chapter 10). -/
abbrev ldProgressLo : Nat := 0x00800030
/-- LD_PROGRESS_HI (chapter 10). -/
abbrev ldProgressHi : Nat := 0x00800034
/-- LD_RETRY (chapter 10). -/
abbrev ldRetry : Nat := 0x00800038
/-- LD_FAIL (chapter 10). -/
abbrev ldFail : Nat := 0x0080003C
/-- LD_REACH (chapter 10). -/
abbrev ldReach : Nat := 0x00800040
/-- LD_REL_CFG (chapter 10). -/
abbrev ldRelCfg : Nat := 0x00800044
/-- LD_REL_STATUS (chapter 10). -/
abbrev ldRelStatus : Nat := 0x00800048
/-- LD_SCRUB_CTRL (chapter 10). -/
abbrev ldScrubCtrl : Nat := 0x00800050
/-- LD_SCRUB_STATUS (chapter 10). -/
abbrev ldScrubStatus : Nat := 0x00800054
/-- LD_SCRUB_SIG_LO (chapter 10). -/
abbrev ldScrubSigLo : Nat := 0x00800058
/-- LD_SCRUB_SIG_HI (chapter 10). -/
abbrev ldScrubSigHi : Nat := 0x0080005C
/-- LD_BW_CFG (chapter 10). -/
abbrev ldBwCfg (i : Nat) : Nat := 0x00800100 + 0x10 * i
/-- LD_BW_CONST_LO (chapter 10). -/
abbrev ldBwConstLo (i : Nat) : Nat := 0x00800104 + 0x10 * i
/-- LD_BW_CONST_HI (chapter 10). -/
abbrev ldBwConstHi (i : Nat) : Nat := 0x00800108 + 0x10 * i
/-- LD_RELOAD_CFG (chapter 10). -/
abbrev ldReloadCfg : Nat := 0x00800200
/-- LD_RELOAD_CTRL (chapter 10). -/
abbrev ldReloadCtrl : Nat := 0x00800204
/-- LD_RELOAD_STATUS (chapter 10). -/
abbrev ldReloadStatus : Nat := 0x00800208
/-- LD_RELOAD_FREE (chapter 10). -/
abbrev ldReloadFree : Nat := 0x0080020C
/-- TRG_RUN_CTRL (chapter 11). -/
abbrev trgRunCtrl : Nat := 0x00700000
/-- TRG_RUN_STATUS (chapter 11). -/
abbrev trgRunStatus : Nat := 0x00700004
/-- TRG_STEP_COUNT (chapter 11). -/
abbrev trgStepCount : Nat := 0x00700008
/-- TRG_FREEZE_AT_LO (chapter 11). -/
abbrev trgFreezeAtLo : Nat := 0x00700010
/-- TRG_FREEZE_AT_HI (chapter 11). -/
abbrev trgFreezeAtHi : Nat := 0x00700014
/-- TRG_CTRL (chapter 11). -/
abbrev trgCtrl : Nat := 0x00700020
/-- TRG_MASK (chapter 11). -/
abbrev trgMask : Nat := 0x00700024
/-- TRG_BRK_CFG (chapter 11). -/
abbrev trgBrkCfg : Nat := 0x00700028
/-- TRG_STATUS (chapter 11). -/
abbrev trgStatus : Nat := 0x0070002C
/-- TRG_EC_LO (chapter 11). -/
abbrev trgEcLo : Nat := 0x00700030
/-- TRG_EC_HI (chapter 11). -/
abbrev trgEcHi : Nat := 0x00700034
/-- TRG_CH_CFG (chapter 11). -/
abbrev trgChCfg (i : Nat) : Nat := 0x00701000 + 0x100 * i
/-- TRG_CH_STATUS (chapter 11). -/
abbrev trgChStatus (i : Nat) : Nat := 0x00701004 + 0x100 * i
/-- TRG_CH_UPPER_LO (chapter 11). -/
abbrev trgChUpperLo (i : Nat) : Nat := 0x00701008 + 0x100 * i
/-- TRG_CH_UPPER_HI (chapter 11). -/
abbrev trgChUpperHi (i : Nat) : Nat := 0x0070100C + 0x100 * i
/-- TRG_CH_LOWER_LO (chapter 11). -/
abbrev trgChLowerLo (i : Nat) : Nat := 0x00701010 + 0x100 * i
/-- TRG_CH_LOWER_HI (chapter 11). -/
abbrev trgChLowerHi (i : Nat) : Nat := 0x00701014 + 0x100 * i
/-- TRG_CH_VALUE_LO (chapter 11). -/
abbrev trgChValueLo (i : Nat) : Nat := 0x00701018 + 0x100 * i
/-- TRG_CH_VALUE_HI (chapter 11). -/
abbrev trgChValueHi (i : Nat) : Nat := 0x0070101C + 0x100 * i
/-- TRG_ROUTE (chapter 11). -/
abbrev trgRoute (i j : Nat) : Nat := 0x00701080 + 0x100 * i + 0x4 * j
/-- ACQ_CTRL (chapter 11). -/
abbrev acqCtrl : Nat := 0x00710000
/-- ACQ_STATUS (chapter 11). -/
abbrev acqStatus : Nat := 0x00710004
/-- ACQ_CFG (chapter 11). -/
abbrev acqCfg : Nat := 0x00710008
/-- ACQ_PRE (chapter 11). -/
abbrev acqPre : Nat := 0x0071000C
/-- ACQ_POST (chapter 11). -/
abbrev acqPost : Nat := 0x00710010
/-- ACQ_SEL (chapter 11). -/
abbrev acqSel (i : Nat) : Nat := 0x00710020 + 0x4 * i
/-- ACQ_WR_LO (chapter 11). -/
abbrev acqWrLo : Nat := 0x00710030
/-- ACQ_WR_HI (chapter 11). -/
abbrev acqWrHi : Nat := 0x00710034
/-- ACQ_START_LO (chapter 11). -/
abbrev acqStartLo : Nat := 0x00710038
/-- ACQ_START_HI (chapter 11). -/
abbrev acqStartHi : Nat := 0x0071003C
/-- ACQ_SEG_DONE (chapter 11). -/
abbrev acqSegDone : Nat := 0x00710040
/-- ACQ_SEG_MAX (chapter 11). -/
abbrev acqSegMax : Nat := 0x00710044
/-- ACQ_LOST (chapter 11). -/
abbrev acqLost : Nat := 0x00710048
/-- ACQ_FIFO (chapter 11). -/
abbrev acqFifo : Nat := 0x0071004C
/-- TIME_CTRL (chapter 12). -/
abbrev timeCtrl : Nat := 0x007C0000
/-- TIME_STATUS (chapter 12). -/
abbrev timeStatus : Nat := 0x007C0004
/-- TIME_CFG (chapter 12). -/
abbrev timeCfg : Nat := 0x007C0008
/-- TIME_SYNC_CFG (chapter 12). -/
abbrev timeSyncCfg : Nat := 0x007C000C
/-- TIME_NOW_LO (chapter 12). -/
abbrev timeNowLo : Nat := 0x007C0010
/-- TIME_NOW_HI (chapter 12). -/
abbrev timeNowHi : Nat := 0x007C0014
/-- TIME_NOW_FRAC (chapter 12). -/
abbrev timeNowFrac : Nat := 0x007C0018
/-- TIME_INC_LO (chapter 12). -/
abbrev timeIncLo : Nat := 0x007C0020
/-- TIME_INC_HI (chapter 12). -/
abbrev timeIncHi : Nat := 0x007C0024
/-- TIME_SET_LO (chapter 12). -/
abbrev timeSetLo : Nat := 0x007C0028
/-- TIME_SET_HI (chapter 12). -/
abbrev timeSetHi : Nat := 0x007C002C
/-- TIME_SERVO_CFG (chapter 12). -/
abbrev timeServoCfg : Nat := 0x007C0030
/-- TIME_SERVO_GAIN (chapter 12). -/
abbrev timeServoGain : Nat := 0x007C0034
/-- TIME_OFFSET (chapter 12). -/
abbrev timeOffset : Nat := 0x007C0038
/-- TIME_PATH (chapter 12). -/
abbrev timePath : Nat := 0x007C003C
/-- TIME_RATE (chapter 12). -/
abbrev timeRate : Nat := 0x007C0040
/-- TIME_EXCH (chapter 12). -/
abbrev timeExch : Nat := 0x007C0044
/-- LH_CTRL (chapter 13). -/
abbrev lhCtrl : Nat := 0x00900000
/-- LH_STATUS (chapter 13). -/
abbrev lhStatus : Nat := 0x00900004
/-- LH_FW_LEN (chapter 13). -/
abbrev lhFwLen : Nat := 0x00900008
/-- LH_DDR_WIN (chapter 13). -/
abbrev lhDdrWin : Nat := 0x0090000C
/-- LH_WDT_CFG (chapter 13). -/
abbrev lhWdtCfg (i : Nat) : Nat := 0x00900010 + 0x8 * i
/-- LH_WDT_COUNT (chapter 13). -/
abbrev lhWdtCount (i : Nat) : Nat := 0x00900014 + 0x8 * i
/-- DBG_CTRL (chapter 13). -/
abbrev dbgCtrl : Nat := 0x00910000
/-- DBG_STATUS (chapter 13). -/
abbrev dbgStatus : Nat := 0x00910004
/-- DBG_SESSION (chapter 13). -/
abbrev dbgSession : Nat := 0x00910008
/-- DBG_FEED (chapter 13). -/
abbrev dbgFeed : Nat := 0x0091000C
/-- DBG_DATA (chapter 13). -/
abbrev dbgData : Nat := 0x00910010
/-- DBG_ADDR (chapter 13). -/
abbrev dbgAddr : Nat := 0x00910014
/-- DBG_AUTH_CTRL (chapter 13). -/
abbrev dbgAuthCtrl : Nat := 0x00910020
/-- DBG_AUTH_STATUS (chapter 13). -/
abbrev dbgAuthStatus : Nat := 0x00910024
/-- DBG_AUTH_CHAL (chapter 13). -/
abbrev dbgAuthChal (i : Nat) : Nat := 0x00910040 + 0x4 * i
/-- DBG_AUTH_RESP (chapter 13). -/
abbrev dbgAuthResp (i : Nat) : Nat := 0x00910060 + 0x4 * i
/-- SEC_LC_STATE (chapter 13). -/
abbrev secLcState : Nat := 0x00920000
/-- SEC_LC_CTRL (chapter 13). -/
abbrev secLcCtrl : Nat := 0x00920004
/-- SEC_UID (chapter 13). -/
abbrev secUid (i : Nat) : Nat := 0x00920010 + 0x4 * i
/-- SEC_KEY_STATUS (chapter 13). -/
abbrev secKeyStatus : Nat := 0x00920020
/-- SEC_KEY_CTRL (chapter 13). -/
abbrev secKeyCtrl : Nat := 0x00920024
/-- SEC_KEY_DATA (chapter 13). -/
abbrev secKeyData (i : Nat) : Nat := 0x00920040 + 0x4 * i
/-- SEC_KEY_ID (chapter 13). -/
abbrev secKeyId (i : Nat) : Nat := 0x00920080 + 0x4 * i
/-- TRC_CTRL (chapter 13). -/
abbrev trcCtrl : Nat := 0x00780000
/-- TRC_STATUS (chapter 13). -/
abbrev trcStatus : Nat := 0x00780004
/-- TRC_POST (chapter 13). -/
abbrev trcPost : Nat := 0x00780008
/-- TRC_WR (chapter 13). -/
abbrev trcWr : Nat := 0x0078000C
/-- TRC_LOST (chapter 13). -/
abbrev trcLost : Nat := 0x00780010
/-- TRC_SM (chapter 13). -/
abbrev trcSm (i : Nat) : Nat := 0x00780020 + 0x4 * i
/-- TRC_CMP (chapter 13). -/
abbrev trcCmp (i : Nat) : Nat := 0x00780030 + 0x4 * i
/-- TRACE_MSG (chapter 13). -/
abbrev traceMsg : Nat := 0x00780040
/-- FLT_CTRL (chapter 14). -/
abbrev fltCtrl : Nat := 0x00100000
/-- FLT_STATUS (chapter 14). -/
abbrev fltStatus : Nat := 0x00100004
/-- FLT_LAST_LO (chapter 14). -/
abbrev fltLastLo : Nat := 0x00100008
/-- FLT_FIRST_LO (chapter 14). -/
abbrev fltFirstLo : Nat := 0x00100010
/-- FLT_LAST_HI (chapter 14). -/
abbrev fltLastHi : Nat := 0x0010000C
/-- FLT_FIRST_HI (chapter 14). -/
abbrev fltFirstHi : Nat := 0x00100014
/-- FLT_INJECT (chapter 14). -/
abbrev fltInject : Nat := 0x00100018
/-- FLT_PEND (chapter 14). -/
abbrev fltPend (i : Nat) : Nat := 0x00100020 + 0x4 * i
/-- FLT_SEV (chapter 14). -/
abbrev fltSev (i : Nat) : Nat := 0x00100100 + 0x4 * i
/-- FLT_COUNT (chapter 14). -/
abbrev fltCount (i : Nat) : Nat := 0x00100200 + 0x4 * i
/-- FLT_SAFE (chapter 14). -/
abbrev fltSafe (i : Nat) : Nat := 0x00100400 + 0x4 * i
/-- BIST_CTRL (chapter 14). -/
abbrev bistCtrl : Nat := 0x00A00000
/-- BIST_STATUS (chapter 14). -/
abbrev bistStatus : Nat := 0x00A00004
/-- BIST_CLUSTER_FAIL (chapter 14). -/
abbrev bistClusterFail (i : Nat) : Nat := 0x00A00010 + 0x4 * i
/-- BIST_UNIT_FAIL (chapter 14). -/
abbrev bistUnitFail : Nat := 0x00A00024
/-- BIST_QUAD_FAIL (chapter 14). -/
abbrev bistQuadFail : Nat := 0x00A00028
/-- BIST_CLUSTER_MAP (chapter 14). -/
abbrev bistClusterMap (i : Nat) : Nat := 0x00A00100 + 0x4 * i
/-- BIST_SPARE_MAP (chapter 14). -/
abbrev bistSpareMap (i : Nat) : Nat := 0x00A00300 + 0x4 * i
/-- BIST_TE_CTRL (chapter 14). -/
abbrev bistTeCtrl : Nat := 0x00A00400
/-- BIST_TE_SEED (chapter 14). -/
abbrev bistTeSeed : Nat := 0x00A00404
/-- BIST_TE_MISR_LO (chapter 14). -/
abbrev bistTeMisrLo : Nat := 0x00A00408
/-- BIST_TE_MISR_HI (chapter 14). -/
abbrev bistTeMisrHi : Nat := 0x00A0040C
/-- CAIRN_CTRL (chapter 14). -/
abbrev cairnCtrl : Nat := 0x00A01000
/-- CAIRN_STATUS (chapter 14). -/
abbrev cairnStatus : Nat := 0x00A01004
/-- CAIRN_HEAD (chapter 14). -/
abbrev cairnHead : Nat := 0x00A01008
/-- CAIRN_READ_IDX (chapter 14). -/
abbrev cairnReadIdx : Nat := 0x00A0100C
/-- CAIRN_READ_DATA (chapter 14). -/
abbrev cairnReadData (i : Nat) : Nat := 0x00A01040 + 0x4 * i
/-- CAIRN_SW_DATA (chapter 14). -/
abbrev cairnSwData (i : Nat) : Nat := 0x00A01080 + 0x4 * i
/-- PWR_DOMAIN_CTRL (chapter 15). -/
abbrev pwrDomainCtrl (i : Nat) : Nat := 0x00008000 + 0x4 * i
/-- PWR_DOMAIN_STATUS (chapter 15). -/
abbrev pwrDomainStatus (i : Nat) : Nat := 0x00008080 + 0x4 * i
/-- PWR_RESET_CTRL (chapter 15). -/
abbrev pwrResetCtrl : Nat := 0x00008100
/-- PWR_RESET_STATUS (chapter 15). -/
abbrev pwrResetStatus : Nat := 0x00008104
/-- PWR_REACH_CLK (chapter 15). -/
abbrev pwrReachClk (i : Nat) : Nat := 0x00008200 + 0x4 * i
/-- PWR_THERM_CFG (chapter 15). -/
abbrev pwrThermCfg : Nat := 0x00008300
/-- PWR_CLK_CFG (chapter 15). -/
abbrev pwrClkCfg : Nat := 0x00008304
/-- PWR_CLK_STATUS (chapter 15). -/
abbrev pwrClkStatus : Nat := 0x00008308
/-- PWR_THERM_TEMP (chapter 15). -/
abbrev pwrThermTemp (i : Nat) : Nat := 0x00008400 + 0x4 * i
/-- GLB_DEVICE_ID (chapter 16). -/
abbrev glbDeviceId : Nat := 0x00000000
/-- GLB_DEVICE_GRADE (chapter 16). -/
abbrev glbDeviceGrade : Nat := 0x00000004
/-- GLB_UNIT_PRESENT0 (chapter 16). -/
abbrev glbUnitPresent0 : Nat := 0x00000008
/-- GLB_UNIT_PRESENT1 (chapter 16). -/
abbrev glbUnitPresent1 : Nat := 0x0000000C
/-- GLB_DEVICE_ORDINAL (chapter 16). -/
abbrev glbDeviceOrdinal : Nat := 0x00000010
/-- GLB_STATUS (chapter 16). -/
abbrev glbStatus : Nat := 0x00000014
/-- GLB_PCIE_STATUS (chapter 16). -/
abbrev glbPcieStatus : Nat := 0x00000018
/-- GLB_BAR4_WIN (chapter 16). -/
abbrev glbBar4Win : Nat := 0x00000020
/-- GLB_IRQ_CAUSE_LO (chapter 16). -/
abbrev glbIrqCauseLo : Nat := 0x00000030
/-- GLB_IRQ_CAUSE_HI (chapter 16). -/
abbrev glbIrqCauseHi : Nat := 0x00000034
/-- GLB_DMA_ERR (chapter 16). -/
abbrev glbDmaErr : Nat := 0x00000040
/-- GLB_LH_DOORBELL (chapter 16). -/
abbrev glbLhDoorbell : Nat := 0x00000044

end R

/-- The registers of chapter 2. -/
def regTable2 : List RegGroup := [
  ⟨0x01000000, [(0x20000, 128)], 0x00000001, 0x0, 0x38, 0x0, 0x0, 0x0⟩,  -- CLU_STATUS
  ⟨0x01000004, [(0x20000, 128)], 0x00000000, 0x0, 0x0, 0x0, 0xFFFFFFFF, 0x0⟩,  -- CLU_STALL_CNT
  ⟨0x01000008, [(0x20000, 128)], 0x00100000, 0xFFFFFFFF, 0x0, 0x0, 0x0, 0x0⟩,  -- CLU_WM_TIMEOUT
  ⟨0x0100000C, [(0x20000, 128)], 0x00000000, 0x1, 0x0, 0x0, 0x0, 0x0⟩,  -- CLU_VS_SEL
  ⟨0x01001000, [(0x20000, 128), (0x4, 256)], 0x00000000, 0xC1FF03FF, 0x0, 0x0, 0x0, 0x0⟩,  -- CLU_ARR_ENTRY
  ⟨0x01002000, [(0x20000, 128), (0x4, 32)], 0x00000000, 0x83FFFF00, 0x0, 0x0, 0x0, 0x0⟩,  -- CLU_OBUF_CFG
  ⟨0x01002100, [(0x20000, 128), (0x4, 8)], 0x00000000, 0x80FF1000, 0x0, 0x0, 0x0, 0x0⟩,  -- CLU_LANE_CFG
  ⟨0x01002200, [(0x20000, 128), (0x4, 16)], 0x00000000, 0xC0FFF000, 0x0, 0x0, 0x0, 0x0⟩,  -- CLU_Q_CFG
  ⟨0x01002240, [(0x20000, 128), (0x4, 16)], 0x00000000, 0x0, 0x1, 0x0, 0x0, 0x0⟩,  -- CLU_Q_STATUS
  ⟨0x01002300, [(0x20000, 128), (0x4, 64)], 0x00000000, 0x800F003F, 0x0, 0x0, 0x0, 0x0⟩,  -- CLU_WM_CFG
  ⟨0x01002400, [(0x20000, 128)], 0x00000000, 0x0, 0x0, 0x0, 0x0, 0x0⟩,  -- CLU_WM_STATE_LO
  ⟨0x01002404, [(0x20000, 128)], 0x00000000, 0x0, 0x0, 0x0, 0x0, 0x0⟩,  -- CLU_WM_STATE_HI
  ⟨0x01003000, [(0x20000, 128), (0x4, 64)], 0x00000000, 0xC007FFFF, 0x0, 0x0, 0x0, 0x0⟩]  -- CLU_FORCE

/-- The registers of chapter 4. -/
def regTable4 : List RegGroup := [
  ⟨0x00001000, [], 0x00000000, 0x7FF, 0x0, 0x0, 0x0, 0x0⟩,  -- GLB_SCHED_DEPTH
  ⟨0x00001004, [], 0x00000000, 0x1, 0x0, 0x0, 0x0, 0x2⟩,  -- GLB_SCHED_CFG
  ⟨0x00001008, [], 0x00000000, 0x0, 0x2, 0x0, 0x0, 0x0⟩,  -- GLB_SCHED_STATUS
  ⟨0x00001010, [], 0x00000000, 0x0, 0x0, 0x0, 0x0, 0x0⟩,  -- GLB_EC_COUNT_LO
  ⟨0x00001014, [], 0x00000000, 0x0, 0x0, 0x0, 0x0, 0x0⟩,  -- GLB_EC_COUNT_HI
  ⟨0x00001020, [], 0x00000000, 0xFFFFF, 0x0, 0x0, 0x0, 0x0⟩,  -- GLB_MS_LINKS
  ⟨0x00001024, [], 0x000003E8, 0xFFFFFFFF, 0x0, 0x0, 0x0, 0x0⟩,  -- GLB_MS_TOKEN_TIMEOUT
  ⟨0x00001028, [], 0x00000000, 0x0, 0x30000000, 0x0, 0x0, 0x0⟩,  -- GLB_MS_STATUS
  ⟨0x00001100, [(0x4, 32)], 0x00000000, 0xC0F003FF, 0x0, 0x0, 0x0, 0x0⟩,  -- GLB_LEG
  ⟨0x00001200, [(0x4, 16)], 0x00000000, 0xFFF0FFF, 0x0, 0x0, 0x0, 0x0⟩,  -- GLB_WHEEL_CFG
  ⟨0x00002000, [(0x200, 16), (0x4, 128)], 0x00000000, 0xFFFFFFFF, 0x0, 0x0, 0x0, 0x0⟩,  -- GLB_WHEEL_PAT
  ⟨0x01004000, [(0x20000, 128), (0x4, 1024)], 0x00000000, 0xFFFFFFFF, 0x0, 0x0, 0x0, 0x0⟩,  -- CLU_SWELL_STEP
  ⟨0x01005000, [(0x20000, 128), (0x4, 256)], 0x00000000, 0xFFFFFFFF, 0x0, 0x0, 0x0, 0x0⟩,  -- CLU_SWELL_IN
  ⟨0x01005400, [(0x20000, 128)], 0x00000000, 0x0, 0x0, 0xFFFFFFFF, 0x0, 0x0⟩]  -- CLU_SWELL_FLAGS

/-- The registers of chapter 5. -/
def regTable5 : List RegGroup := [
  ⟨0x00004000, [], 0x00A10202, 0x0, 0x0, 0x0, 0x0, 0x0⟩,  -- GLB_CONTRACT_REV
  ⟨0x00004004, [], 0x00000000, 0x3F, 0x0, 0x0, 0x0, 0x0⟩,  -- GLB_HAZARD_CFG
  ⟨0x00004008, [], 0x00000000, 0x0, 0x3, 0x0, 0x0, 0x0⟩,  -- GLB_HAZARD_STATUS
  ⟨0x0000400C, [], 0x00000000, 0x0, 0x0, 0x0, 0xFFFFFFFF, 0x0⟩,  -- GLB_HAZARD_COUNT
  ⟨0x00004010, [], 0x00000000, 0x0, 0x0, 0x0, 0xFFFFFFF8, 0x0⟩,  -- GLB_HAZARD_LOG_LO
  ⟨0x00004014, [], 0x00000000, 0x0, 0x0, 0x0, 0x0, 0x0⟩]  -- GLB_HAZARD_LOG_HI

/-- The registers of chapter 6. -/
def regTable6 : List RegGroup := [
  ⟨0x00200000, [], 0x00000000, 0x0, 0x5E, 0x0, 0x0, 0x0⟩,  -- WF_STATUS
  ⟨0x00200004, [], 0x00000000, 0x0, 0x0, 0x1, 0x0, 0x0⟩,  -- WF_SLOT_CTRL
  ⟨0x00200008, [], 0x00000000, 0xFFFF, 0x0, 0x0, 0x0, 0x0⟩,  -- WF_SLOT_LATE
  ⟨0x0020000C, [], 0x00000000, 0x0, 0x0, 0x0, 0xFFFF, 0x0⟩,  -- WF_HDR_ERR
  ⟨0x00200010, [], 0x00000000, 0x0, 0x0, 0x0, 0xFFFF, 0x0⟩,  -- WF_ASLEEP_LOG
  ⟨0x00200020, [], 0x00000000, 0xC0000000, 0x0, 0x0, 0xFFFF, 0x0⟩,  -- WF_PTRACE_CTRL
  ⟨0x00200024, [], 0x00000000, 0x0, 0x0, 0x0, 0x0, 0x0⟩,  -- WF_PTRACE_PTR
  ⟨0x00200100, [(0x10, 32)], 0x00000000, 0xFCFFFF80, 0x0, 0x0, 0x0, 0x0⟩,  -- WF_PROBE_CFG
  ⟨0x00200104, [(0x10, 32)], 0x00000000, 0xFFFFFFFF, 0x0, 0x0, 0x0, 0x0⟩,  -- WF_PROBE_MATCH
  ⟨0x00200108, [(0x10, 32)], 0x00000000, 0x0, 0x0, 0x0, 0xFFFFFFFF, 0x0⟩,  -- WF_PROBE_CNT
  ⟨0x00201000, [(0x4, 144)], 0x00000000, 0x0, 0x0, 0x1, 0x0, 0x0⟩,  -- WF_RTR_CTRL
  ⟨0x00201400, [(0x4, 144)], 0x00000000, 0x0, 0x0, 0x0, 0x0, 0x0⟩,  -- WF_RTR_STATUS
  ⟨0x00202000, [(0x4, 136)], 0x00000000, 0x1, 0x0, 0x0, 0x0, 0x0⟩,  -- WF_NI_CTRL
  ⟨0x00202400, [(0x4, 136)], 0x00000000, 0x0, 0x18000000, 0x0, 0x0, 0x0⟩,  -- WF_NI_STATUS
  ⟨0x00210000, [(0x1000, 136), (0x10, 256)], 0x00000000, 0xFFFFFF00, 0x0, 0x0, 0x0, 0x0⟩,  -- WF_RT0
  ⟨0x00210004, [(0x1000, 136), (0x10, 256)], 0x00000000, 0x3FFFFFFF, 0x0, 0x0, 0x0, 0x0⟩,  -- WF_RT1
  ⟨0x00210008, [(0x1000, 136), (0x10, 256)], 0x00000000, 0x3FFFFFFF, 0x0, 0x0, 0x0, 0x0⟩,  -- WF_RT2
  ⟨0x0021000C, [(0x1000, 136), (0x10, 256)], 0x00000000, 0x1F1F3F, 0x0, 0x0, 0x0, 0x0⟩,  -- WF_RT3
  ⟨0x002A0000, [(0x200, 144), (0x40, 5), (0x20, 2), (0x4, 8)], 0x00000000, 0xFFFFFFFF, 0x0, 0x0, 0x0, 0x0⟩]  -- WF_SLOT

/-- The registers of chapter 7. -/
def regTable7 : List RegGroup := [
  ⟨0x00300000, [(0x1000, 80)], 0x80000000, 0xBC000000, 0x0, 0x0, 0x0, 0x40000000⟩,  -- CW_LANE_CTRL
  ⟨0x00300004, [(0x1000, 80)], 0x20080000, 0x0, 0x3000000, 0x0, 0x0, 0x0⟩,  -- CW_LANE_STATUS
  ⟨0x00300008, [(0x1000, 80)], 0x00000000, 0x0, 0x0, 0x0, 0x0, 0x0⟩,  -- CW_LANE_FAR
  ⟨0x0030000C, [(0x1000, 80)], 0x00000000, 0x0, 0x0, 0x0, 0xFFFFFFFF, 0x0⟩,  -- CW_LANE_ERR
  ⟨0x00300010, [(0x1000, 80)], 0x00860880, 0xFF7F80, 0x0, 0x0, 0x0, 0x0⟩,  -- CW_LANE_ANALOG
  ⟨0x00300020, [(0x1000, 80)], 0x00000000, 0xF8000000, 0x0, 0x0, 0x0, 0x0⟩,  -- CW_PRBS_CTRL
  ⟨0x00300024, [(0x1000, 80)], 0x00000000, 0x0, 0x0, 0x0, 0xFFFFFFFF, 0x0⟩,  -- CW_PRBS_ERR
  ⟨0x00300028, [(0x1000, 80)], 0x00000000, 0x7F000000, 0x0, 0x0, 0x0, 0x80000000⟩,  -- CW_INJECT
  ⟨0x00350000, [(0x1000, 20)], 0x00400000, 0xFFF00000, 0x0, 0x0, 0x0, 0x0⟩,  -- CW_LINK_CFG
  ⟨0x00350004, [(0x1000, 20)], 0x00000000, 0x0, 0x2B000000, 0x0, 0x0, 0x0⟩,  -- CW_LINK_STATUS
  ⟨0x00350008, [(0x1000, 20)], 0x00000000, 0x0, 0x0, 0x0, 0x0, 0x0⟩,  -- CW_LINK_DELAY
  ⟨0x0035000C, [(0x1000, 20)], 0x00000000, 0x0, 0x0, 0x0, 0x0, 0x0⟩,  -- CW_LINK_WINDOW
  ⟨0x00350010, [(0x1000, 20)], 0x000186A0, 0xFFFFFFFF, 0x0, 0x0, 0x0, 0x0⟩,  -- CW_LINK_TIMEOUT
  ⟨0x00350014, [(0x1000, 20)], 0x00000000, 0x0, 0x0, 0x0, 0xFFFFFFFF, 0x0⟩,  -- CW_LINK_RESEND
  ⟨0x00350400, [(0x1000, 20), (0x4, 256)], 0x00000000, 0x807F00FF, 0x0, 0x0, 0x0, 0x0⟩]  -- CW_VC0_MAP

/-- The registers of chapter 8. -/
def regTable8 : List RegGroup := [
  ⟨0x00500000, [], 0x00000000, 0x0, 0x17, 0x0, 0x0, 0x0⟩,  -- BANK_STATUS
  ⟨0x00500004, [], 0x00000000, 0xFF, 0x0, 0x0, 0x0, 0x0⟩,  -- BANK_VIEW_SEL
  ⟨0x00500010, [], 0x00000000, 0x400001FF, 0x0, 0x0, 0x0, 0x80000000⟩,  -- BANK_MARCH_CTRL
  ⟨0x00500014, [], 0x00000000, 0x0, 0x60000000, 0x0, 0x0, 0x0⟩,  -- BANK_MARCH_STATUS
  ⟨0x00500018, [], 0x00000000, 0x0, 0x0, 0x0, 0xFF, 0x0⟩,  -- BANK_MARCH_FAIL
  ⟨0x0050001C, [], 0x00000000, 0x0, 0x0, 0x0, 0x0, 0x0⟩,  -- BANK_SVC_MARCH_INT
  ⟨0x00500020, [(0x4, 8)], 0xFFFFFFFF, 0x0, 0x0, 0x0, 0x0, 0x0⟩,  -- BANK_PRESENT
  ⟨0x00501000, [(0x4, 256)], 0x02000006, 0xE000007, 0x0, 0x0, 0x0, 0x0⟩,  -- BANK_CFG
  ⟨0x00501400, [(0x4, 256)], 0x80800080, 0xFF00FF, 0x0, 0x0, 0x0, 0x0⟩,  -- BANK_OWNER
  ⟨0x00400000, [(0x10000, 4)], 0x00000000, 0xFFFC0000, 0x0, 0x0, 0x0, 0x0⟩,  -- DDR_CH_CFG
  ⟨0x00400004, [(0x10000, 4)], 0x00000000, 0x80000000, 0x20000000, 0x0, 0x0, 0x0⟩,  -- DDR_CH_STATUS
  ⟨0x00400008, [(0x10000, 4)], 0x00000000, 0xF80000FF, 0x0, 0x0, 0x0, 0x0⟩,  -- DDR_TRAIN_STATUS
  ⟨0x0040000C, [(0x10000, 4)], 0x84221000, 0xFFFFF000, 0x0, 0x0, 0x0, 0x0⟩,  -- DDR_ARB
  ⟨0x00400010, [(0x10000, 4)], 0x00000000, 0xFFFFFFFF, 0x0, 0x0, 0x0, 0x0⟩,  -- DDR_TIM_A
  ⟨0x00400014, [(0x10000, 4)], 0x00000000, 0xFFFFFFFF, 0x0, 0x0, 0x0, 0x0⟩,  -- DDR_TIM_B
  ⟨0x00400018, [(0x10000, 4)], 0x00000000, 0x0, 0x0, 0x0, 0xFFFF, 0x0⟩,  -- DDR_ERR
  ⟨0x00400100, [(0x10000, 4), (0x8, 16)], 0x00000000, 0xF000FFFF, 0x0, 0x0, 0x0, 0x0⟩,  -- DDR_REGION_BASE
  ⟨0x00400104, [(0x10000, 4), (0x8, 16)], 0x00000000, 0x1FFFF, 0x0, 0x0, 0x0, 0x0⟩]  -- DDR_REGION_SIZE

/-- The registers of chapter 9. -/
def regTable9 : List RegGroup := [
  ⟨0x00600000, [], 0x00000000, 0x1, 0x0, 0x0, 0x0, 0x2⟩,  -- HB_CTRL
  ⟨0x00600004, [], 0x00000001, 0x0, 0x6, 0x0, 0x0, 0x0⟩,  -- HB_STATUS
  ⟨0x00600008, [], 0x00000000, 0x0, 0x0, 0x0, 0xFFFF0000, 0x0⟩,  -- HB_STORE_USE
  ⟨0x0060000C, [], 0x00000000, 0x0, 0x0, 0x0, 0x0, 0x0⟩,  -- HB_POOL_USE
  ⟨0x00600010, [], 0x0FF000E0, 0xFFFFFFFF, 0x0, 0x0, 0x0, 0x0⟩,  -- HB_QUOTA
  ⟨0x00600014, [], 0x00000000, 0x0, 0x0, 0x0, 0xFF, 0x0⟩,  -- HB_ERR
  ⟨0x00600018, [], 0x00002710, 0xFFFFFFFF, 0x0, 0x0, 0x0, 0x0⟩,  -- HB_PARK_TIMEOUT
  ⟨0x0060001C, [], 0x00000000, 0x83FF0000, 0x0, 0x0, 0xFFFF, 0x0⟩,  -- HB_TRACE_CTRL
  ⟨0x00600020, [], 0x00000000, 0x0, 0x0, 0x0, 0xFFFF0000, 0x0⟩,  -- HB_WIN_CREDIT
  ⟨0x00600030, [(0x4, 4)], 0x00000000, 0x1, 0x0, 0x0, 0x0, 0x0⟩,  -- HB_DLIST_CFG
  ⟨0x00600040, [(0x4, 4)], 0x00000000, 0x0, 0x0, 0x0, 0x0, 0x0⟩,  -- HB_DLIST_STATUS
  ⟨0x00601000, [(0x10, 64)], 0x00000000, 0xFFFC0000, 0x0, 0x0, 0x0, 0x0⟩,  -- HB_CLASS_A
  ⟨0x00601004, [(0x10, 64)], 0x00000000, 0xFFFF7FFF, 0x0, 0x0, 0x0, 0x0⟩,  -- HB_CLASS_B
  ⟨0x00601008, [(0x10, 64)], 0x00000000, 0x8007FFFF, 0x0, 0x0, 0x0, 0x0⟩,  -- HB_CLASS_C
  ⟨0x00602000, [(0x20, 32)], 0x00000000, 0xFFFFFFFF, 0x0, 0x0, 0x0, 0x0⟩,  -- HB_RING_BASE_LO
  ⟨0x00602004, [(0x20, 32)], 0x00000000, 0xFFFFFFFF, 0x0, 0x0, 0x0, 0x0⟩,  -- HB_RING_BASE_HI
  ⟨0x00602008, [(0x20, 32)], 0x00000004, 0xC000000F, 0x0, 0x0, 0x0, 0x0⟩,  -- HB_RING_CFG
  ⟨0x0060200C, [(0x20, 32)], 0x00000000, 0xFFF, 0x0, 0x0, 0x0, 0x0⟩,  -- HB_RING_TAIL
  ⟨0x00602010, [(0x20, 32)], 0x00000000, 0x0, 0x0, 0x0, 0x0, 0x0⟩]  -- HB_RING_HEAD

/-- The registers of chapter 10. -/
def regTable10 : List RegGroup := [
  ⟨0x00800000, [], 0x00000000, 0x0, 0x0, 0x0, 0x0, 0xF8000000⟩,  -- LD_CTRL
  ⟨0x00800004, [], 0x00000000, 0x0, 0x2000000, 0x0, 0x0, 0x0⟩,  -- LD_STATUS
  ⟨0x00800008, [], 0x00000000, 0xDF0FFFFF, 0x0, 0x0, 0x0, 0x0⟩,  -- LD_CFG
  ⟨0x00800010, [], 0x00000000, 0xFFFFFFFF, 0x0, 0x0, 0x0, 0x0⟩,  -- LD_SRC_LO
  ⟨0x00800014, [], 0x00000000, 0xFFFFFFFF, 0x0, 0x0, 0x0, 0x0⟩,  -- LD_SRC_HI
  ⟨0x00800020, [(0x4, 4)], 0x00000000, 0xFFFFFFFF, 0x0, 0x0, 0x0, 0x0⟩,  -- LD_SYSTEM_ID
  ⟨0x00800030, [], 0x00000000, 0x0, 0x0, 0x0, 0x0, 0x0⟩,  -- LD_PROGRESS_LO
  ⟨0x00800034, [], 0x00000000, 0x0, 0x0, 0x0, 0x0, 0x0⟩,  -- LD_PROGRESS_HI
  ⟨0x00800038, [], 0x00000000, 0x0, 0x0, 0x0, 0x0, 0x0⟩,  -- LD_RETRY
  ⟨0x0080003C, [], 0x00000000, 0x0, 0x0, 0x0, 0x0, 0x0⟩,  -- LD_FAIL
  ⟨0x00800040, [], 0xFFFF0000, 0x0, 0x0, 0x0, 0x0, 0x0⟩,  -- LD_REACH
  ⟨0x00800044, [], 0x00000000, 0xFFFFFFFF, 0x0, 0x0, 0x0, 0x0⟩,  -- LD_REL_CFG
  ⟨0x00800048, [], 0x00000000, 0x0, 0x0, 0x0, 0x0, 0x0⟩,  -- LD_REL_STATUS
  ⟨0x00800050, [], 0x80000000, 0x8000007F, 0x0, 0x0, 0x0, 0x0⟩,  -- LD_SCRUB_CTRL
  ⟨0x00800054, [], 0x00000000, 0x0, 0xFFFF, 0x0, 0x0, 0x0⟩,  -- LD_SCRUB_STATUS
  ⟨0x00800058, [], 0x00000000, 0x0, 0x0, 0x0, 0x0, 0x0⟩,  -- LD_SCRUB_SIG_LO
  ⟨0x0080005C, [], 0x00000000, 0x0, 0x0, 0x0, 0x0, 0x0⟩,  -- LD_SCRUB_SIG_HI
  ⟨0x00800100, [(0x10, 16)], 0x00000000, 0xE0000000, 0x0, 0x0, 0x0, 0x0⟩,  -- LD_BW_CFG
  ⟨0x00800104, [(0x10, 16)], 0x00000000, 0xFFFFFFFF, 0x0, 0x0, 0x0, 0x0⟩,  -- LD_BW_CONST_LO
  ⟨0x00800108, [(0x10, 16)], 0x00000000, 0xFFFFFFFF, 0x0, 0x0, 0x0, 0x0⟩,  -- LD_BW_CONST_HI
  ⟨0x00800200, [], 0xC0000000, 0xE000000F, 0x0, 0x0, 0x0, 0x0⟩,  -- LD_RELOAD_CFG
  ⟨0x00800204, [], 0x00000000, 0x0, 0x0, 0x0, 0x0, 0xF0000000⟩,  -- LD_RELOAD_CTRL
  ⟨0x00800208, [], 0x00000000, 0x0, 0x8000000, 0x0, 0x0, 0x0⟩,  -- LD_RELOAD_STATUS
  ⟨0x0080020C, [], 0x00001000, 0x0, 0x0, 0x0, 0xFFFF0000, 0x0⟩]  -- LD_RELOAD_FREE

/-- The registers of chapter 11. -/
def regTable11 : List RegGroup := [
  ⟨0x00700000, [], 0x00000000, 0x0, 0x0, 0x0, 0x0, 0xF0000000⟩,  -- TRG_RUN_CTRL
  ⟨0x00700004, [], 0x00000000, 0x0, 0x20000000, 0x0, 0x0, 0x0⟩,  -- TRG_RUN_STATUS
  ⟨0x00700008, [], 0x00000001, 0xFFFFFFFF, 0x0, 0x0, 0x0, 0x0⟩,  -- TRG_STEP_COUNT
  ⟨0x00700010, [], 0x00000000, 0xFFFFFFFF, 0x0, 0x0, 0x0, 0x0⟩,  -- TRG_FREEZE_AT_LO
  ⟨0x00700014, [], 0x00000000, 0x8000FFFF, 0x40000000, 0x0, 0x0, 0x0⟩,  -- TRG_FREEZE_AT_HI
  ⟨0x00700020, [], 0x00000000, 0x10000000, 0x0, 0x0, 0x0, 0xE0000000⟩,  -- TRG_CTRL
  ⟨0x00700024, [], 0x00000000, 0xFFFFFFFF, 0x0, 0x0, 0x0, 0x0⟩,  -- TRG_MASK
  ⟨0x00700028, [], 0x00000000, 0xFFFFFFFF, 0x0, 0x0, 0x0, 0x0⟩,  -- TRG_BRK_CFG
  ⟨0x0070002C, [], 0x00000000, 0x0, 0x38000000, 0x0, 0x0, 0x0⟩,  -- TRG_STATUS
  ⟨0x00700030, [], 0x00000000, 0x0, 0x0, 0x0, 0x0, 0x0⟩,  -- TRG_EC_LO
  ⟨0x00700034, [], 0x00000000, 0x0, 0x0, 0x0, 0x0, 0x0⟩,  -- TRG_EC_HI
  ⟨0x00701000, [(0x100, 16)], 0x00000000, 0xF87F0000, 0x0, 0x0, 0x0, 0x0⟩,  -- TRG_CH_CFG
  ⟨0x00701004, [(0x100, 16)], 0x00000000, 0x0, 0x0, 0x0, 0xFFFF, 0x0⟩,  -- TRG_CH_STATUS
  ⟨0x00701008, [(0x100, 16)], 0x00000000, 0xFFFFFFFF, 0x0, 0x0, 0x0, 0x0⟩,  -- TRG_CH_UPPER_LO
  ⟨0x0070100C, [(0x100, 16)], 0x00000000, 0xFFFFFFFF, 0x0, 0x0, 0x0, 0x0⟩,  -- TRG_CH_UPPER_HI
  ⟨0x00701010, [(0x100, 16)], 0x00000000, 0xFFFFFFFF, 0x0, 0x0, 0x0, 0x0⟩,  -- TRG_CH_LOWER_LO
  ⟨0x00701014, [(0x100, 16)], 0x00000000, 0xFFFFFFFF, 0x0, 0x0, 0x0, 0x0⟩,  -- TRG_CH_LOWER_HI
  ⟨0x00701018, [(0x100, 16)], 0x00000000, 0x0, 0x0, 0x0, 0x0, 0x0⟩,  -- TRG_CH_VALUE_LO
  ⟨0x0070101C, [(0x100, 16)], 0x00000000, 0x0, 0x0, 0x0, 0x0, 0x0⟩,  -- TRG_CH_VALUE_HI
  ⟨0x00701080, [(0x100, 16), (0x4, 32)], 0x00000000, 0x1FFF1FFF, 0x0, 0x0, 0x0, 0x0⟩,  -- TRG_ROUTE
  ⟨0x00710000, [], 0x00000000, 0xC0000000, 0x0, 0x0, 0x0, 0x20000000⟩,  -- ACQ_CTRL
  ⟨0x00710004, [], 0x00000000, 0x0, 0x58000000, 0x0, 0x0, 0x0⟩,  -- ACQ_STATUS
  ⟨0x00710008, [], 0x000A0000, 0xFFFF800F, 0x0, 0x0, 0x0, 0x0⟩,  -- ACQ_CFG
  ⟨0x0071000C, [], 0x00000000, 0xFFFFFF, 0x0, 0x0, 0x0, 0x0⟩,  -- ACQ_PRE
  ⟨0x00710010, [], 0x00000000, 0xFFFFFF, 0x0, 0x0, 0x0, 0x0⟩,  -- ACQ_POST
  ⟨0x00710020, [(0x4, 4)], 0x00000000, 0xFFFFFFFF, 0x0, 0x0, 0x0, 0x0⟩,  -- ACQ_SEL
  ⟨0x00710030, [], 0x00000000, 0x0, 0x0, 0x0, 0x0, 0x0⟩,  -- ACQ_WR_LO
  ⟨0x00710034, [], 0x00000000, 0x0, 0x0, 0x0, 0x0, 0x0⟩,  -- ACQ_WR_HI
  ⟨0x00710038, [], 0x00000000, 0x0, 0x0, 0x0, 0x0, 0x0⟩,  -- ACQ_START_LO
  ⟨0x0071003C, [], 0x00000000, 0x0, 0x0, 0x0, 0x0, 0x0⟩,  -- ACQ_START_HI
  ⟨0x00710040, [], 0x00000000, 0x0, 0x0, 0x0, 0x0, 0x0⟩,  -- ACQ_SEG_DONE
  ⟨0x00710044, [], 0x00010000, 0x1FFFF, 0x0, 0x0, 0x0, 0x0⟩,  -- ACQ_SEG_MAX
  ⟨0x00710048, [], 0x00000000, 0x0, 0x0, 0x0, 0xFFFFFFFF, 0x0⟩,  -- ACQ_LOST
  ⟨0x0071004C, [], 0x00000000, 0x0, 0x0, 0x0, 0x0, 0x0⟩]  -- ACQ_FIFO

/-- The registers of chapter 12. -/
def regTable12 : List RegGroup := [
  ⟨0x007C0000, [], 0x00000000, 0x0, 0x0, 0x0, 0x0, 0xC0000000⟩,  -- TIME_CTRL
  ⟨0x007C0004, [], 0x00000000, 0x0, 0x1C000000, 0x0, 0xFF, 0x0⟩,  -- TIME_STATUS
  ⟨0x007C0008, [], 0x00000000, 0xDF0FFFFF, 0x0, 0x0, 0x0, 0x0⟩,  -- TIME_CFG
  ⟨0x007C000C, [], 0x00000007, 0xFF00000F, 0x0, 0x0, 0x0, 0x0⟩,  -- TIME_SYNC_CFG
  ⟨0x007C0010, [], 0x00000000, 0x0, 0x0, 0x0, 0x0, 0x0⟩,  -- TIME_NOW_LO
  ⟨0x007C0014, [], 0x00000000, 0x0, 0x0, 0x0, 0x0, 0x0⟩,  -- TIME_NOW_HI
  ⟨0x007C0018, [], 0x00000000, 0x0, 0x0, 0x0, 0x0, 0x0⟩,  -- TIME_NOW_FRAC
  ⟨0x007C0020, [], 0x00000000, 0xFFFFFFFF, 0x0, 0x0, 0x0, 0x0⟩,  -- TIME_INC_LO
  ⟨0x007C0024, [], 0x00000004, 0xFF, 0x0, 0x0, 0x0, 0x0⟩,  -- TIME_INC_HI
  ⟨0x007C0028, [], 0x00000000, 0xFFFFFFFF, 0x0, 0x0, 0x0, 0x0⟩,  -- TIME_SET_LO
  ⟨0x007C002C, [], 0x00000000, 0xFFFFFFFF, 0x0, 0x0, 0x0, 0x0⟩,  -- TIME_SET_HI
  ⟨0x007C0030, [], 0x800003E8, 0x8000FFFF, 0x0, 0x0, 0x0, 0x0⟩,  -- TIME_SERVO_CFG
  ⟨0x007C0034, [], 0x08000080, 0xFFFFFFFF, 0x0, 0x0, 0x0, 0x0⟩,  -- TIME_SERVO_GAIN
  ⟨0x007C0038, [], 0x00000000, 0x0, 0x0, 0x0, 0x0, 0x0⟩,  -- TIME_OFFSET
  ⟨0x007C003C, [], 0x00000000, 0x0, 0x0, 0x0, 0x0, 0x0⟩,  -- TIME_PATH
  ⟨0x007C0040, [], 0x00000000, 0x0, 0x0, 0x0, 0x0, 0x0⟩,  -- TIME_RATE
  ⟨0x007C0044, [], 0x00000000, 0x0, 0x0, 0x0, 0xFFFFFF00, 0x0⟩]  -- TIME_EXCH

/-- The registers of chapter 13. -/
def regTable13 : List RegGroup := [
  ⟨0x00900000, [], 0x00000000, 0x0, 0x0, 0x0, 0x0, 0xC0000000⟩,  -- LH_CTRL
  ⟨0x00900004, [], 0x00000000, 0x0, 0x0, 0x0, 0x0, 0x0⟩,  -- LH_STATUS
  ⟨0x00900008, [], 0x00000000, 0x1FFFFF, 0x0, 0x0, 0x0, 0x0⟩,  -- LH_FW_LEN
  ⟨0x0090000C, [], 0x00000000, 0xC000003F, 0x0, 0x0, 0x0, 0x0⟩,  -- LH_DDR_WIN
  ⟨0x00900010, [(0x8, 2)], 0x00000000, 0x80FFFFFF, 0x0, 0x0, 0x0, 0x0⟩,  -- LH_WDT_CFG
  ⟨0x00900014, [(0x8, 2)], 0x00000000, 0x0, 0x0, 0x0, 0x0, 0x80000000⟩,  -- LH_WDT_COUNT
  ⟨0x00910000, [], 0x00000000, 0x0, 0x0, 0x0, 0x0, 0xC0000000⟩,  -- DBG_CTRL
  ⟨0x00910004, [], 0x00000000, 0x0, 0x3000000, 0x0, 0x0, 0x0⟩,  -- DBG_STATUS
  ⟨0x00910008, [], 0x00000000, 0x40000000, 0x0, 0x0, 0x0, 0x80000000⟩,  -- DBG_SESSION
  ⟨0x0091000C, [], 0x00000000, 0x0, 0x0, 0x0, 0x0, 0xFC1F0000⟩,  -- DBG_FEED
  ⟨0x00910010, [], 0x00000000, 0xFFFFFFFF, 0x0, 0x0, 0x0, 0x0⟩,  -- DBG_DATA
  ⟨0x00910014, [], 0x00000000, 0xFFFFFFFF, 0x0, 0x0, 0x0, 0x0⟩,  -- DBG_ADDR
  ⟨0x00910020, [], 0x00000000, 0x7, 0x0, 0x0, 0x0, 0xC0000000⟩,  -- DBG_AUTH_CTRL
  ⟨0x00910024, [], 0x00000000, 0x0, 0x0, 0x0, 0x0, 0x0⟩,  -- DBG_AUTH_STATUS
  ⟨0x00910040, [(0x4, 8)], 0x00000000, 0x0, 0x0, 0x0, 0x0, 0x0⟩,  -- DBG_AUTH_CHAL
  ⟨0x00910060, [(0x4, 8)], 0x00000000, 0x0, 0x0, 0x0, 0x0, 0xFFFFFFFF⟩,  -- DBG_AUTH_RESP
  ⟨0x00920000, [], 0x00000000, 0x0, 0x0, 0x0, 0x0, 0x0⟩,  -- SEC_LC_STATE
  ⟨0x00920004, [], 0x00000000, 0x0, 0x0, 0x0, 0x0, 0x8000FF07⟩,  -- SEC_LC_CTRL
  ⟨0x00920010, [(0x4, 4)], 0x00000000, 0x0, 0x0, 0x0, 0x0, 0x0⟩,  -- SEC_UID
  ⟨0x00920020, [], 0x00000000, 0x0, 0x0, 0x0, 0x0, 0x0⟩,  -- SEC_KEY_STATUS
  ⟨0x00920024, [], 0x00000000, 0x7, 0x0, 0x0, 0x0, 0x80000000⟩,  -- SEC_KEY_CTRL
  ⟨0x00920040, [(0x4, 24)], 0x00000000, 0x0, 0x0, 0x0, 0x0, 0xFFFFFFFF⟩,  -- SEC_KEY_DATA
  ⟨0x00920080, [(0x4, 5)], 0x00000000, 0x0, 0x0, 0x0, 0x0, 0x0⟩,  -- SEC_KEY_ID
  ⟨0x00780000, [], 0xE0000005, 0xEC00000F, 0x0, 0x0, 0x0, 0x10000000⟩,  -- TRC_CTRL
  ⟨0x00780004, [], 0x00000000, 0x0, 0x20000000, 0x0, 0x0, 0x0⟩,  -- TRC_STATUS
  ⟨0x00780008, [], 0x00001000, 0xFFFFFFFF, 0x0, 0x0, 0x0, 0x0⟩,  -- TRC_POST
  ⟨0x0078000C, [], 0x00000000, 0x0, 0x0, 0x0, 0x0, 0x0⟩,  -- TRC_WR
  ⟨0x00780010, [], 0x00000000, 0x0, 0x0, 0x0, 0xFFFFFFFF, 0x0⟩,  -- TRC_LOST
  ⟨0x00780020, [(0x4, 4)], 0x0, 0x8000F3F3, 0x0, 0x0, 0x0, 0x0⟩,  -- TRC_SM
  ⟨0x00780030, [(0x4, 2)], 0x00000000, 0xFFFFFFFF, 0x0, 0x0, 0x0, 0x0⟩,  -- TRC_CMP
  ⟨0x00780040, [], 0x00000000, 0x0, 0x0, 0x0, 0x0, 0xFFFFFFFF⟩]  -- TRACE_MSG

/-- The registers of chapter 14. -/
def regTable14 : List RegGroup := [
  ⟨0x00100000, [], 0x00000000, 0x0, 0x0, 0x80000000, 0x0, 0x40000000⟩,  -- FLT_CTRL
  ⟨0x00100004, [], 0x00000000, 0x0, 0x5C000000, 0x0, 0x0, 0x0⟩,  -- FLT_STATUS
  ⟨0x00100008, [], 0x00000000, 0x0, 0x0, 0x0, 0x0, 0x0⟩,  -- FLT_LAST_LO
  ⟨0x00100010, [], 0x00000000, 0x0, 0x0, 0x0, 0x0, 0x0⟩,  -- FLT_FIRST_LO
  ⟨0x0010000C, [], 0x00000000, 0x0, 0x0, 0x0, 0x0, 0x0⟩,  -- FLT_LAST_HI
  ⟨0x00100014, [], 0x00000000, 0x0, 0x0, 0x0, 0x0, 0x0⟩,  -- FLT_FIRST_HI
  ⟨0x00100018, [], 0x00000000, 0xFFFFFF, 0x0, 0x0, 0x0, 0x80000000⟩,  -- FLT_INJECT
  ⟨0x00100020, [(0x4, 8)], 0x00000000, 0x0, 0xFFFFFFFF, 0x0, 0x0, 0x0⟩,  -- FLT_PEND
  ⟨0x00100100, [(0x4, 30)], 0x00000000, 0x77777777, 0x0, 0x0, 0x0, 0x0⟩,  -- FLT_SEV
  ⟨0x00100200, [(0x4, 120)], 0x00000000, 0x0, 0x0, 0x0, 0xFFFFFFFF, 0x0⟩,  -- FLT_COUNT
  ⟨0x00100400, [(0x4, 32)], 0x00000000, 0xFFFFFFFF, 0x0, 0x0, 0x0, 0x0⟩,  -- FLT_SAFE
  ⟨0x00A00000, [], 0x00000000, 0x40000000, 0x0, 0x0, 0x0, 0x80000000⟩,  -- BIST_CTRL
  ⟨0x00A00004, [], 0x10000000, 0x0, 0x200000, 0x0, 0x0, 0x0⟩,  -- BIST_STATUS
  ⟨0x00A00010, [(0x4, 5)], 0x00000000, 0x0, 0x0, 0x0, 0x0, 0x0⟩,  -- BIST_CLUSTER_FAIL
  ⟨0x00A00024, [], 0x00000000, 0x0, 0x0, 0x0, 0x0, 0x0⟩,  -- BIST_UNIT_FAIL
  ⟨0x00A00028, [], 0x00000000, 0x0, 0x0, 0x0, 0x0, 0x0⟩,  -- BIST_QUAD_FAIL
  ⟨0x00A00100, [(0x4, 128)], 0x00000000, 0x0, 0x0, 0x0, 0x0, 0x0⟩,  -- BIST_CLUSTER_MAP
  ⟨0x00A00300, [(0x4, 8)], 0x00000000, 0x0, 0x0, 0x0, 0x0, 0x0⟩,  -- BIST_SPARE_MAP
  ⟨0x00A00400, [], 0x00000000, 0x30FFFFFF, 0x0, 0x0, 0x0, 0x80000000⟩,  -- BIST_TE_CTRL
  ⟨0x00A00404, [], 0x00000000, 0xFFFFFFFF, 0x0, 0x0, 0x0, 0x0⟩,  -- BIST_TE_SEED
  ⟨0x00A00408, [], 0x00000000, 0x0, 0x0, 0x0, 0x0, 0x0⟩,  -- BIST_TE_MISR_LO
  ⟨0x00A0040C, [], 0x00000000, 0x0, 0x0, 0x0, 0x0, 0x0⟩,  -- BIST_TE_MISR_HI
  ⟨0x00A01000, [], 0x00000000, 0x0, 0x0, 0x0, 0x0, 0xC0000000⟩,  -- CAIRN_CTRL
  ⟨0x00A01004, [], 0x00000000, 0x0, 0x38000000, 0x0, 0x0, 0x0⟩,  -- CAIRN_STATUS
  ⟨0x00A01008, [], 0x00000000, 0x0, 0x0, 0x0, 0x0, 0x0⟩,  -- CAIRN_HEAD
  ⟨0x00A0100C, [], 0x00000000, 0x1FFF, 0x0, 0x0, 0x0, 0x0⟩,  -- CAIRN_READ_IDX
  ⟨0x00A01040, [(0x4, 16)], 0x00000000, 0x0, 0x0, 0x0, 0x0, 0x0⟩,  -- CAIRN_READ_DATA
  ⟨0x00A01080, [(0x4, 7)], 0x00000000, 0xFFFFFFFF, 0x0, 0x0, 0x0, 0x0⟩]  -- CAIRN_SW_DATA

/-- The registers of chapter 15. -/
def regTable15 : List RegGroup := [
  ⟨0x00008000, [(0x4, 28)], 0x80000000, 0x80000000, 0x0, 0x0, 0x0, 0x0⟩,  -- PWR_DOMAIN_CTRL
  ⟨0x00008080, [(0x4, 28)], 0x00000000, 0x0, 0xC000000, 0x0, 0x0, 0x0⟩,  -- PWR_DOMAIN_STATUS
  ⟨0x00008100, [], 0x00000000, 0x0, 0x0, 0x0, 0x0, 0xE000FF0F⟩,  -- PWR_RESET_CTRL
  ⟨0x00008104, [], 0x00000000, 0x0, 0x0, 0x0, 0x0, 0x0⟩,  -- PWR_RESET_STATUS
  ⟨0x00008200, [(0x4, 16)], 0x80008000, 0xFFF00000, 0x0, 0x0, 0x0, 0x0⟩,  -- PWR_REACH_CLK
  ⟨0x00008300, [], 0x5F643064, 0xFFFFFFFF, 0x0, 0x0, 0x0, 0x0⟩,  -- PWR_THERM_CFG
  ⟨0x00008304, [], 0x00000000, 0x80000000, 0x0, 0x0, 0x0, 0x0⟩,  -- PWR_CLK_CFG
  ⟨0x00008308, [], 0x00000000, 0x0, 0x0, 0x0, 0x0, 0x0⟩,  -- PWR_CLK_STATUS
  ⟨0x00008400, [(0x4, 20)], 0x00000000, 0x0, 0x0, 0x0, 0xFF00, 0x0⟩]  -- PWR_THERM_TEMP

/-- The registers of chapter 16. -/
def regTable16 : List RegGroup := [
  ⟨0x00000000, [], 0x4B5A7200, 0x0, 0x0, 0x0, 0x0, 0x0⟩,  -- GLB_DEVICE_ID
  ⟨0x00000004, [], 0x00000000, 0x0, 0x0, 0x0, 0x0, 0x0⟩,  -- GLB_DEVICE_GRADE
  ⟨0x00000008, [], 0x00000000, 0x0, 0x0, 0x0, 0x0, 0x0⟩,  -- GLB_UNIT_PRESENT0
  ⟨0x0000000C, [], 0x00000000, 0x0, 0x0, 0x0, 0x0, 0x0⟩,  -- GLB_UNIT_PRESENT1
  ⟨0x00000010, [], 0x00000000, 0x7F, 0x0, 0x0, 0x0, 0x0⟩,  -- GLB_DEVICE_ORDINAL
  ⟨0x00000014, [], 0x00000000, 0x0, 0xF, 0x0, 0x0, 0x0⟩,  -- GLB_STATUS
  ⟨0x00000018, [], 0x00000000, 0x0, 0x0, 0x0, 0x0, 0x0⟩,  -- GLB_PCIE_STATUS
  ⟨0x00000020, [], 0x00000000, 0xB000003F, 0x0, 0x0, 0x0, 0x0⟩,  -- GLB_BAR4_WIN
  ⟨0x00000030, [], 0x00000000, 0x0, 0xFFFFFFFF, 0x0, 0x0, 0x0⟩,  -- GLB_IRQ_CAUSE_LO
  ⟨0x00000034, [], 0x00000000, 0x0, 0xFFFFFFFF, 0x0, 0x0, 0x0⟩,  -- GLB_IRQ_CAUSE_HI
  ⟨0x00000040, [], 0x00000000, 0x0, 0x0, 0x0, 0xFFFF, 0x0⟩,  -- GLB_DMA_ERR
  ⟨0x00000044, [], 0x00000000, 0x0, 0x0, 0x0, 0x0, 0x0⟩]  -- GLB_LH_DOORBELL

/-- Every register of the manual. -/
def regTable : List RegGroup :=
  regTable2 ++ regTable4 ++ regTable5 ++ regTable6 ++ regTable7 ++ regTable8 ++ regTable9 ++ regTable10 ++ regTable11 ++ regTable12 ++ regTable13 ++ regTable14 ++ regTable15 ++ regTable16
end Sys2Proof.Machine
end

