-- ==== Sys2Proof/Machine/State.lean ====
section
/-! DEFINITION. The state of the DV-7200: plain data, every piece of it named by the manual or listed in
INVENTORY.md as the model's own. A sparse map is a list of (key, value) pairs with strictly rising keys that lists
no value equal to what an unlisted key reads as, so that equal contents are equal data. -/
namespace Sys2Proof.Machine

/-- A sparse map from numbers. -/
abbrev Sparse (α : Type) := List (Nat × α)

/-- A byte memory (R202, R206, R213): `cells` lists what differs from an unwritten byte. `epoch` counts the times
the memory lost its contents. In epoch 0 an unwritten byte is 0, later it is the free value
`Config.freeByte epoch address` (log entry 2). -/
structure Mem where
  cells : List Host.Cell := []
  epoch : Nat := 0
  deriving DecidableEq, Repr

/-- Where a cluster stands (R20, R97, R102, R103): in HOLD or before its first ec, in the 4 sc of a leg transition
with `sc` of them counted, at a step of the running leg that it has not executed yet, or past its walk with
`periods` of the 48 milestone periods counted. -/
inductive Walk where
  | idle
  | transition (sc : Nat)
  | inLeg (step : Nat)
  | atEnd
  | milestone (periods : Nat)
  deriving DecidableEq, Repr

/-- An MRD issued and not yet landed (R77): its lane, the step it was issued at, and the data read. -/
structure Mrd where
  lane : Nat
  step : Nat
  data : DWord
  deriving DecidableEq, Repr

/-- A reserved place of an inbound queue (R47, R154): the tag of its request, and the word once it has come. -/
structure Place where
  tag : Nat
  word : Option DWord
  deriving DecidableEq, Repr

/-- One queue of a cluster (R47 to R50, R79, R154). `words` are visible, oldest first; `places` are reserved,
in request order; `assembly` is QPUT's word; `lastRemoved` answers a read of an empty queue (R50). -/
structure Queue where
  words : List DWord := []
  places : List Place := []
  assembly : DWord := 0
  lastRemoved : DWord := 0
  deriving DecidableEq, Repr

/-- One waymark (R51 to R53): set or clear, and while armed the words still to come. -/
structure Waymark where
  isSet : Bool := false
  left : Option Nat := none
  deriving DecidableEq, Repr

/-- A hazard found in the present ec (R128): kind, step and cluster of the first of its kind. -/
structure Hazard where
  kind : Nat
  cluster : Nat
  bp : Nat
  step : Nat
  ec : Nat
  deriving DecidableEq, Repr

/-- One cluster (Table 2.1). Keys: instruction memory and value stores 1,024 × BP + step; dictionary by entry;
buffers, slots, lanes, queues and waymarks by number. -/
structure Cluster where
  /-- Instruction words of the 512 BPs (R59); an unlisted word is 0, a NOP. -/
  imem : Sparse (BitVec 96) := []
  /-- Function dictionary (R23, R27). -/
  dict : Sparse DWord := []
  /-- Current bank (R15, R29). -/
  cur : Sparse Bool := []
  /-- Previous bank (R16). -/
  prev : Sparse Bool := []
  /-- Way tracks in the executed steps of the present leg, newest first, at most 8 (R35, R36). -/
  way : List (BitVec 128) := []
  /-- The step executed last in this ec, and the entries of that step as they stood before it, for NBR (R29). -/
  lastStep : Option Nat := none
  /-- Entry `lastStep` of every BP before that step wrote it (R29). -/
  nbrOld : BitVec 512 := 0
  /-- Outbound word buffers (R37). -/
  obuf : Sparse DWord := []
  /-- The word that each outbound buffer launched last (R274). -/
  lastLaunch : Sparse DWord := []
  /-- Inbound arrival slots (R40). -/
  slots : Sparse DWord := []
  /-- Pending words of arrival entries (R40): listed while one waits. -/
  pending : Sparse DWord := []
  /-- Last delivered word of each arrival entry (R41). -/
  lastWord : Sparse DWord := []
  /-- Entries whose word has been delivered in this ec (R40, R43). -/
  delivered : List Nat := []
  /-- Entries that have written their slot in this ec (R40). -/
  wrote : List Nat := []
  /-- Lane address registers (R75). -/
  laneAddr : Sparse DWord := []
  /-- Lane write data registers (R76). -/
  laneWdata : Sparse DWord := []
  /-- Lane read data registers (R77). -/
  laneRdata : Sparse DWord := []
  /-- Reads in flight (R77, R78). -/
  mrds : List Mrd := []
  /-- The first step of this ec at which a MEM read of a lane is no hazard (Table 5.6, kind 3): key lane. -/
  mrdReady : Sparse Nat := []
  /-- The 16 queues. -/
  queues : Sparse Queue := []
  /-- The 64 waymarks. -/
  waymarks : Sparse Waymark := []
  /-- Harbour staging words (R73). -/
  staging : Sparse DWord := []
  /-- Harbour send FIFO, oldest first, at most 8 (R74). -/
  sendFifo : List DWord := []
  /-- Force entries as applied at the last milestone (R55); CLU_FORCE holds them as last written. -/
  forces : Sparse (BitVec 32) := []
  /-- Swell flags (R93 to R95), register CLU_SWELL_FLAGS. -/
  swell : BitVec 32 := 0
  /-- Legs that have run since the load or reach reload, for the leg-first flags (R33). -/
  legRan : BitVec 32 := 0
  /-- Leg-first flags of this ec (R33). -/
  legFirst : BitVec 32 := 0
  /-- Where the cluster stands in its walk. -/
  walk : Walk := .idle
  /-- The cluster stalled at the last edge (CLU_STATUS.stalled). -/
  stalled : Bool := false
  /-- Step-clock edges still owed for a bank conflict (R198). -/
  bankDebt : Nat := 0
  /-- Transition periods that had passed when the last word of this transition came: the walk was not over before (R102). -/
  walkLate : Nat := 0
  /-- The result each WSET of the present step computed when it armed, while the step stalls (R65). -/
  armed : Option (List (Nat × Bool)) := none
  /-- Periods the present waymark wait has stalled (R52, R110), and whether WM_TIMEOUT has been raised for it. -/
  waitPeriods : Nat := 0
  waitRaised : Bool := false
  /-- The waymark that the cluster waits for at present. -/
  waitFor : Option Nat := none
  /-- BAD_OPCODE has been raised since the load or reach reload (R61). -/
  badOpcode : Bool := false
  deriving DecidableEq, Repr

/-- Run states (Table 11.1). -/
inductive RunState where
  | notStarted
  | running
  | frozen
  | stopped
  deriving DecidableEq, Repr

/-- Where the device stands in its ec (R96, R103, R106). -/
inductive Phase where
  /-- Deciding the next leg: legs below `considered` have been run or passed over. -/
  | deciding (considered : Nat)
  /-- A leg runs. -/
  | leg (k : Nat)
  /-- Every leg has been considered; the walk of the ec ends. -/
  | walked
  /-- The milestone sequence has completed; the device waits to leave (R106). -/
  | milestone
  deriving DecidableEq, Repr

/-- The device-wide schedule (chapter 4). -/
structure Sched where
  run : RunState := .notStarted
  phase : Phase := .deciding 0
  /-- Ec count (R91). -/
  ec : BitVec 64 := 0
  /-- Legs decided to run in this ec. -/
  ranLegs : List Nat := []
  /-- Ec whose token is awaited next, per link (R106, R107). -/
  awaited : Sparse Nat := []
  /-- Links that have sent a hold marker and not yet its token (R108). -/
  holds : List Nat := []
  /-- MS_TOKEN_TIMEOUT has been raised for this milestone (R107). -/
  tokenRaised : Bool := false
  /-- A hold marker of this device stands in place of the token of that ec (R108, R283). -/
  held : Option Nat := none
  /-- Pending action requests (R104): freeze and the TRG_RUN_STATUS.cause bits it is to set. -/
  freezeReq : Bool := false
  freezeCause : BitVec 9 := 0
  /-- Step command: ec still to run before the freeze (R280). -/
  stepsLeft : Option Nat := none
  /-- Release stages passed (R267): 0 to 3, and requests for further ones not yet applied. -/
  stage : Nat := 0
  stageReqs : Nat := 0
  /-- Emulated SYS values of this ec: edge flags of the 16 wheels (R33, R91). -/
  edges : BitVec 16 := 0
  /-- Stage shown by SYS 0x020 to 0x023 in this ec (R33). -/
  stageShown : Nat := 0
  /-- Probe words of the last milestone, by cluster, and break channels raised at it (R83, R84). -/
  probes : Sparse DWord := []
  breaks : BitVec 16 := 0
  /-- Hazards found first of their kind in this ec (R128), and the log, oldest first, at most 16. -/
  hazardFirst : List Hazard := []
  hazardLog : List Hazard := []
  /-- TRG_FREEZE_AT_LO as the last write of TRG_FREEZE_AT_HI found it (R281). -/
  freezeLow : Word := 0
  /-- The milestone sequence is in progress, and the cause bit of a stop that has met it (R282). -/
  inSequence : Bool := false
  stopMet : Option Nat := none
  deriving DecidableEq, Repr

/-- A flit with its sideband bits (chapter 6, "Flits and headers"). `late` marks a VC0 flit whose own slot has
passed (R146). -/
structure Flit where
  data : BitVec 256
  vc : Nat
  head : Bool
  tail : Bool
  parity : Bool
  late : Bool := false
  /-- The count of its router's periods from which a VC0 head is at its output (R147). -/
  ready : Nat := 0
  deriving DecidableEq, Repr

/-- An outstanding request of a network interface (R153): its tag and what the answer is for. `queue` is the inbound
queue of a cluster's request, `words` the response words still awaited. -/
structure Outstanding where
  tag : Nat
  dst : Nat
  queue : Option Nat
  words : Nat
  deriving DecidableEq, Repr

/-- A packet at an endpoint: its head flit and its payload words (R133). -/
structure Packet where
  head : BitVec 256
  payload : List DWord
  deriving DecidableEq, Repr

/-- A VC0 word that a network interface holds until its router has counted `due` periods (R145). -/
structure Held where
  packet : Packet
  due : Nat
  deriving DecidableEq, Repr

/-- One network interface (chapter 6). -/
structure Ni where
  /-- VC0 words held for pad_src before they enter the local input (R145). -/
  sourceHold : List Held := []
  /-- Body flits collected per virtual channel until the tail (R133). -/
  partialIn : Sparse (List Flit) := []
  /-- Complete packets received and not yet taken (NI_PACKET_RECEIVE). -/
  arrived : List Packet := []
  /-- VC0 words for this NI's cluster, held for dst_hold and then presented (R145). -/
  words : List Held := []
  /-- Responses, acceptances and notices sorted by kind, oldest first. -/
  responses : List Packet := []
  acceptances : List Packet := []
  notices : List Packet := []
  /-- VC1 requests and VC3 packets for this NI's units. -/
  requests : List Packet := []
  management : List Packet := []
  /-- Outstanding requests (R153). -/
  outstanding : List Outstanding := []
  /-- Source served last in the round robin of R427: 0 to 15 a queue, 16 the send FIFO. -/
  lastSource : Nat := 16
  deriving DecidableEq, Repr

/-- A probe trace record (Table 6.6). -/
structure ProbeRecord where
  w0 : Word
  w1 : Word
  w2 : Word
  w3 : Word
  deriving DecidableEq, Repr

/-- Wayfabric (chapter 6). Keys: router input buffers and output locks (router × 5 + port) × 4 + vc, output pointers
router × 5 + port. -/
structure Net where
  /-- Flits in router input buffers, oldest first. -/
  buffers : Sparse (List Flit) := []
  /-- Inputs that discard flits as far as the tail (R135). -/
  discarding : List Nat := []
  /-- Input that holds an output for a packet in progress, plus 1 (R142). -/
  locks : Sparse Nat := []
  /-- Input chosen last at an output and virtual channel (round robin, R142). -/
  lastInput : Sparse Nat := []
  /-- Whether VC1 was the last of VC1 and VC3 sent at an output (R142). -/
  lastBest : Sparse Bool := []
  /-- Wheel position per router (R144), and whether the wheels stand still. -/
  wheel : Sparse Nat := []
  wheelsStopped : Bool := true
  /-- Active bank of every wheel (R149). -/
  activeBank : Bool := false
  /-- Periods each router has counted: calls of ROUTER_OUTPUT_SELECT. -/
  periods : Sparse Nat := []
  /-- Network interfaces by number. -/
  nis : Sparse Ni := []
  /-- Records held by each probe, at most 4 (R156). -/
  probeHold : Sparse (List ProbeRecord) := []
  /-- Probe trace buffer of 1,024 records (R156): by index. -/
  traceBuf : Sparse ProbeRecord := []
  /-- Probe trace buffer: records written since it was enabled. -/
  traceCount : Nat := 0
  deriving DecidableEq, Repr

/-- A fault signalled to the collector and not yet registered (R345): source, info, injected by FLT_INJECT. -/
structure Signal where
  source : Nat
  info : Nat
  injected : Bool
  deriving DecidableEq, Repr

/-- The fault collector (chapter 14). Severities, pending bits and counts are the registers FLT_SEV, FLT_PEND and
FLT_COUNT. -/
structure Collector where
  /-- Signals of the present collector cycle, in the order they came (R345). -/
  signals : List Signal := []
  /-- Sources that have written a Cairn record since the last reset: tick of the last record (R348). -/
  lastLogged : Sparse Nat := []
  /-- Suppressed count per source (R348). -/
  suppressed : Sparse Nat := []
  /-- The safe state holds (R349). -/
  safe : Bool := false
  /-- The safe state has been released and the shore stays safe until the next milestone (R349). -/
  releasing : Bool := false
  /-- Severity 7 resets since the cold reset (R351). -/
  sev7Resets : Nat := 0
  /-- A severity 7 reaction waits for its record and its reset (R351). -/
  sev7Pending : Bool := false
  /-- Lighthouse fault interrupt (R346): pending until a core wakes or enters an exception. -/
  lhInterrupt : Bool := false
  /-- FLT_SEV words, by offset, that were written while events of the present collector cycle wait: as they stood (R352). -/
  cycleSev : Sparse Word := []
  deriving DecidableEq, Repr

/-- A Cairn record queued for commit (Table 14.7): all but the sequence, the CRC and what the commit adds. -/
structure CairnRecord where
  kind : Nat
  injected : Bool := false
  source : Nat := 0xFFFF
  coldResets : Nat
  time : Nat
  ec : Nat
  payload : List Byte
  deriving DecidableEq, Repr

/-- The Cairn record (R361 to R365). -/
structure Cairn where
  /-- The ring of 8,192 slots: the NVM bytes, key 64 × slot + byte. -/
  nvm : Mem := {}
  /-- Records waiting for commit, at most 16 (R362). -/
  queue : List CairnRecord := []
  /-- Newest slot and its sequence; sequence 0 when no slot is valid (R363). -/
  newest : Nat := 0
  sequence : Nat := 0
  /-- Number of valid slots, and slots found bad by the last scan (R363). -/
  valid : Nat := 0
  badSlots : Nat := 0
  /-- Slot after a failed read-back that the record is written to once more (R362). -/
  retrySlot : Option Nat := none
  /-- Cold resets since the last erase (Table 14.7). -/
  coldResets : Nat := 0
  erasing : Bool := false
  deriving DecidableEq, Repr

/-- What is fixed in the part or read from its fuses and straps. The manual gives no values for one part: State.reset
takes those of log entry 6. -/
structure Die where
  /-- Grade A, else Grade C (R2, R3). -/
  gradeA : Bool
  /-- Stepping B0, else A1 (R8). -/
  b0 : Bool
  /-- Router index of each physical cluster 0 to 135 (R356). -/
  routerOf : List Nat
  /-- SEC_UID, 16 bytes (R327). -/
  uid : BitVec 128
  /-- Key slots 0 to 4: bytes of the key, none while empty (R327). -/
  keys : List (Option (List Byte))
  /-- Slots destroyed by a life-cycle transition (R336, Table 13.5). -/
  destroyed : List Nat
  /-- Slots whose programming failed (R328). -/
  keyErrors : List Nat
  /-- Life-cycle state (R336). -/
  lifeCycle : Nat
  /-- Test-mode strap (FLT_STATUS.test_strap). -/
  testStrap : Bool
  /-- Boot straps as sampled at the last cold reset (R413). -/
  straps : BitVec 8
  /-- A fuse check failed at the last cold reset: fuse group (source FUSE_ERR). -/
  fuseErr : Option Nat
  /-- Subsystem Vendor ID in [15:0] and Subsystem ID in [31:16] (Table 16.2). -/
  subsystem : Word
  deriving DecidableEq, Repr

/-- A march in progress (R209, R210): on which bank and in which form. -/
structure March where
  service : Bool
  bank : Nat
  preserving : Bool
  deriving DecidableEq, Repr

/-- A handover in progress (R196): the port, and the owner it is moved to. -/
structure Handover where
  bank : Nat
  portA : Bool
  portB : Bool
  deriving DecidableEq, Repr

/-- Design banks and service banks (chapter 8). Owners, aspects and power states are the registers BANK_OWNER and
BANK_CFG. -/
structure Banks where
  /-- Flat bits of each design bank as bytes (R192, R206). -/
  design : Sparse Mem := []
  /-- The 16 service banks (R206 to R208). -/
  service : Sparse Mem := []
  march : Option March := none
  handovers : List Handover := []
  deriving DecidableEq, Repr

/-- Self-test (R355 to R360): the mapping that BIST chose, and what runs. -/
structure Bist where
  /-- Physical cluster of each logical cluster, where it is not the reference one (R357). -/
  remap : Sparse Nat := []
  /-- Good spares, and the logical cluster each assigned spare serves. -/
  goodSpares : BitVec 8 := 0
  assigned : Sparse Nat := []
  /-- Absent service banks (Table 14.6). -/
  svcAbsent : BitVec 16 := 0
  /-- Resets that restarted BIST (record type 0x02). -/
  restarts : Nat := 0
  /-- The run under way was asked for by BIST_CTRL.go or by a warm reset. -/
  onRequest : Bool := false
  /-- The seed of the test that runs in a Test Engine, as it stood when the test began (R360). -/
  testSeed : Word := 0
  deriving DecidableEq, Repr

/-- A time-exchange frame that waits ahead of the transmit reference point (R309, R310); a stamp is in units of
2^-32 ns. -/
inductive TimeTx where
  | sync (seq : Nat)
  | followUp (seq stamp : Nat)
  | delayReq (seq : Nat)
  | delayResp (seq stamp : Nat)
  /-- A delay measurement frame of this end (R187). -/
  | delayRequest
  /-- The answer to the far end's: t2 and B_B; t3 is the time at which it goes. -/
  | delayAnswer (t2 hold : Nat)
  deriving DecidableEq, Repr

/-- The exchange in progress in the slave role (R309): its sequenceId, t2, then t1 and t3. -/
structure InExchange where
  seq : Nat
  t2 : Nat
  t1 : Option Nat := none
  t3 : Option Nat := none
  deriving DecidableEq, Repr

/-- The time unit (chapter 12). -/
structure TimeUnit where
  /-- The 96-bit counter, in units of 2^-32 ns (R304). -/
  now : BitVec 96 := 0
  /-- The present increment in units of 2^-32 ns (R304). -/
  increment : Nat := 0x400000000
  /-- TIME_INC has been written and takes effect at the next edge (R316). -/
  incPending : Bool := false
  /-- Value latched by TIME_CTRL.set for the next edge (R306). -/
  setValue : Option (BitVec 64) := none
  /-- Offset in units of 2^-33 ns that the next edge subtracts (R312). -/
  stepBy : Option Int := none
  /-- Servo state: i and r in units of 2^-45 ppm, and the offset count (R312). -/
  servoI : Int := 0
  servoR : Int := 0
  count : Nat := 0
  /-- The last offset (2^-33 ns) and path delay (2^-33 ns). -/
  lastOffset : Int := 0
  lastPath : Int := 0
  exchange : Option InExchange := none
  /-- Next sequenceId of this device as a master, and the ns at which its next Sync is due, per link (R309). -/
  sequence : Sparse Nat := []
  syncDue : Sparse Nat := []
  /-- Edge of the time clock at which the last offset came, or the role was written (R313). -/
  offsetTick : Nat := 0
  /-- Edges of the time clock since power-on (the model's own count, for R348 and R364). -/
  ticks : Nat := 0
  /-- Tick at which the last software Cairn record was queued (R364). -/
  softwareAt : Option Nat := none
  deriving DecidableEq, Repr

/-- A frame as the transmitter keeps it (R164, R180): header fields without ack and nak, and its 32 payload bytes. A delay
measurement frame, whose payload layout the manual does not give, keeps what it carries: t2, t3 and B_B in an answer. -/
structure Frame where
  type : Nat
  vc : Nat
  last : Bool
  seq : Nat
  payload : BitVec 256
  delay : Option (Option (Nat × Nat × Nat)) := none
  deriving DecidableEq, Repr

/-- A unit that a lane has sent (Table 7.2). A frame that K23.7 ended has sent only `cut` of its data symbols. -/
inductive LaneUnit where
  | idle
  | filler
  | trainingSet (state lane ordinal width index : Nat) (fresh : Bool)
  | marker (width index : Nat)
  | token (hold : Bool) (count : Nat)
  | frame (f : Frame) (nak : Bool) (ack : Nat) (badCode : Bool) (cut : Option Nat := none)
  deriving DecidableEq, Repr

/-- One lane (R168 to R174, R188 to R190). Its state, fill and flags are in CW_LANE_STATUS. -/
structure Lane where
  /-- Consecutive good training sets in TRAIN, and with state 1 received and sent in CONFIRM (Table 7.6). -/
  goodSets : Nat := 0
  confirmGood : Nat := 0
  confirmSent : Nat := 0
  /-- Symbols sent since the last filler, and a filler due (R172). -/
  sinceFiller : Nat := 0
  fillerDue : Bool := false
  /-- An alignment marker due, and the lane at a unit boundary waits for the other lanes of its link (R175). -/
  markerDue : Bool := false
  atMarker : Bool := false
  /-- Token sets not yet sent on this lane, oldest first: hold marker or token, and its count (Table 7.8). -/
  tokenDue : List (Bool × Nat) := []
  /-- Deskew hold in symbols, and the lane's place in the order of its link (R175). -/
  hold : Nat := 0
  place : Nat := 0
  /-- Symbols received in OPER, and where among them the last code errors fell, newest first (Table 7.6). -/
  received : Nat := 0
  codeErrors : List Nat := []
  /-- Pattern generator and checker: the last bits, newest lowest; bits checked without error; bits seen (R188). -/
  generator : Nat := 1
  checker : Nat := 0
  checkRun : Nat := 0
  checkSeen : Nat := 0
  /-- Transmitted bits still to invert in pattern mode, and a bad code group for the next frame (R189). -/
  flipBits : Nat := 0
  badCode : Bool := false
  /-- Units sent, oldest first, and the bits on the transmit pair: what the far end sees. -/
  sent : List LaneUnit := []
  line : List Bool := []
  /-- Where the unit in progress ends, by the symbol clock of the lane's link (R187, R310, log entry 87). -/
  due : Nat := 0
  /-- Running disparity of the transmitter, positive if true, and as it stood before the unit sent last (R161). -/
  disparity : Bool := false
  before : Bool := false
  /-- Units of a looped lane on the way to its own receiver, oldest first (R190). -/
  looped : List LaneUnit := []
  deriving DecidableEq, Repr

/-- One link (R165 to R187). Lists are oldest first; classes are VC1, VC2, VC3 and the load stream. -/
structure Link where
  /-- The link has come up since its last reset, so that it is not fresh (Table 7.3), and it holds sequence state of an up
  period (R184). -/
  everUp : Bool := false
  holdsState : Bool := false
  /-- Number of the next sequenced frame, and of the next one expected (R164, R180). -/
  nextSeq : Nat := 0
  expectedSeq : Nat := 0
  /-- Unacknowledged sequenced frames, at most 64 (R180). -/
  replay : List Frame := []
  /-- A resend in progress: frames sent again so far, and frames unacknowledged at its start still to be acknowledged
  (R181). -/
  resend : Option (Nat × Nat) := none
  /-- A nak to send, one sent and not yet answered; an ack and a credit unreported and the symbols they have waited. -/
  nakDue : Bool := false
  nakSent : Bool := false
  ackWait : Option Nat := none
  creditWait : Option Nat := none
  /-- Sequence numbers accepted before this up period whose frames, sent again, return their credit (log entry 73). -/
  oldSeqs : List Nat := []
  /-- Cumulative credits received and frames sent per class, and credits returned per class (R178). -/
  creditIn : Sparse Nat := []
  sentFrames : Sparse Nat := []
  creditOut : Sparse Nat := []
  /-- VC0 words that wait: word, receiving cluster, arrival entry (R165, R179). -/
  vc0 : List (DWord × Nat × Nat) := []
  /-- Flits and load-stream blocks that wait per class, and time or delay frames (Table 7.8). -/
  flits : Sparse (List Flit) := []
  load : List (BitVec 256) := []
  exchanges : List TimeTx := []
  /-- Class sent last of VC1, VC3 and the load stream (Table 7.8, rotation). -/
  lastClass : Nat := 3
  /-- Accepted frames that wait to be delivered (R167). -/
  rxVc0 : List (BitVec 256) := []
  rxFlits : List Frame := []
  rxLoad : List (BitVec 256) := []
  rxControl : List (BitVec 256) := []
  rxNaks : List Nat := []
  /-- Flits of packets not yet complete per virtual channel. -/
  rxPartial : Sparse (List Flit) := []
  /-- Requests that came over the link and whose response returns over it: source endpoint, tag (R178). -/
  recorded : List (Nat × Nat) := []
  /-- Counts of the last tokens and of the last hold markers taken, newest first, at most 2 each; a hold marker is forgotten
  with the token of another ec (R185, log entry 113). -/
  tokensIn : List Nat := []
  holdsIn : List Nat := []
  /-- Last token set sent (R185). -/
  lastTokenOut : Option (Bool × Nat) := none
  /-- Delay exchanges made in this up period, and the sum of their symbol counts (R187). -/
  exchangeCount : Nat := 0
  exchangeSum : Int := 0
  /-- The T_sym clock of this end, as it stood at the last unit boundary of a lane of the link; t1 of a delay request that
  waits for its answer (R187). -/
  clock : Nat := 0
  requestAt : Option Nat := none
  /-- Time and delay frames that a looped link has received from itself and not yet taken, with their lanes (R190). -/
  rxTimes : List (Nat × Frame) := []
  /-- D_req as measured last, whole; CW_LINK_DELAY shows its low 11 bits (R119, log entry 69). -/
  dReq : Nat := 0
  /-- CW_LINK_TIMEOUT has been raised since the last acknowledgement (R183). -/
  timeoutRaised : Bool := false
  /-- Link deadline that governs the receiving direction, and the one of the sending direction, as the image declares
  them (R118). -/
  deadlineIn : Option Nat := none
  deadlineOut : Option Nat := none
  deriving DecidableEq, Repr

/-- Causeway (chapter 7). -/
structure Causeway where
  lanes : Sparse Lane := []
  links : Sparse Link := []
  /-- Lanes that have left OPER in the present collector cycle only because another lane of their link, which raised
  CW_LANE_DOWN, left it (R169). -/
  takenAlong : List Nat := []
  deriving DecidableEq, Repr

/-- One DDR4 channel (R213 to R221): its contents, the requests accepted and not yet executed with the NI they came to,
oldest first, and the REF commands issued. Its contents at reset are undefined (log entry 2). -/
structure DdrChannel where
  mem : Mem := { epoch := 1 }
  queue : List Packet := []
  refreshes : Nat := 0
  /-- Bursts of each class in the present round of the arbiter (R221), by the class's number. -/
  round : Sparse Nat := []
  deriving DecidableEq, Repr

/-- An operand in Harbour (R222, R227): source 0 to 127 a cluster, 128 the host, 129 a notify operand. -/
structure HbOperand where
  word : DWord
  source : Nat
  deriving DecidableEq, Repr

/-- A task record (R226, R228): tag, operand words from slot 0 on, and system time at dispatch. -/
structure HbTask where
  tag : Nat
  words : List DWord
  dispatched : Nat := 0
  deriving DecidableEq, Repr

/-- What an action in flight does: it waits, its reservation probe of that tag is out (R237), it moves its range word by word
with `k` words moved (R235, R236), or it ends with a status of Table 9.5. A mover or feed is between two words (`moving`), waits
for the answer to a read (`reading`), holds the word read (`holding`) or waits for the answer to a write (`writing`). -/
inductive HbPhase where
  | waiting
  | probed (tag : Nat)
  | moving (k : Nat)
  | reading (k tag : Nat)
  | holding (k : Nat) (w : DWord)
  | writing (k tag : Nat)
  | ended (status : Nat)
  deriving DecidableEq, Repr

/-- An action in flight (Table 9.3). -/
structure HbAction where
  task : HbTask
  action : Nat
  phase : HbPhase := .waiting
  deriving DecidableEq, Repr

/-- A parked task (R238, R242): its action, whether a probe is out for it, and whether its timeout was raised. -/
structure HbParked where
  task : HbTask
  action : Nat
  probe : Option Nat := none
  raised : Bool := false
  deriving DecidableEq, Repr

/-- A delay list (R232): its tick count, the ticks that are due and not yet made, how many tasks at its front the last tick
released and no cycle has moved yet, and its tasks with due counts. -/
structure DelayList where
  ticks : Nat := 0
  owed : Nat := 0
  going : Nat := 0
  tasks : List (Nat × HbTask) := []
  deriving DecidableEq, Repr

/-- A transmit descriptor in work (R242): irq, operand count, words still to accept, words accepted, and the system time
of the last acceptance. -/
structure TxDescriptor where
  irq : Bool
  count : Nat
  words : List DWord
  accepted : Nat := 0
  time : Nat := 0
  deriving DecidableEq, Repr

/-- The Harbour engine (chapter 9). -/
structure Harbour where
  /-- The matching store in arrival order (R226). -/
  store : List HbOperand := []
  /-- Ready lists by priority (R230). -/
  ready : Sparse (List HbTask) := []
  delays : Sparse DelayList := []
  parked : List HbParked := []
  actions : List HbAction := []
  /-- Notify operands and window operands that wait for acceptance (R229, R240, R247). -/
  notifies : List HbOperand := []
  window : List HbOperand := []
  /-- Low half of the message window (R392). -/
  windowLow : Word := 0
  /-- Descriptors in work per transmit ring, the rings that are halted (R398), and the ring served last (R242). -/
  tx : Sparse TxDescriptor := []
  halted : List Nat := []
  lastRing : Nat := 15
  /-- The host was served last in the alternation of R229. -/
  hostLast : Bool := false
  deriving DecidableEq, Repr

/-- The trace unit (R339 to R343). Sources: 0 and 1 the cores, 2 messages, 3 Harbour. -/
structure TraceUnit where
  /-- Packets in the 64-byte FIFO of each source, oldest first. -/
  fifos : Sparse (List (List Byte)) := []
  /-- Packets lost per source since its last OVERFLOW packet. -/
  lost : Sparse Nat := []
  /-- The 128 KiB buffer. -/
  buffer : Mem := {}
  /-- Cores that have had a SYNC with reason 0 since trace started, and those that have had any; the domain has powered up and no
  packet has come since (Table 13.12); last target, last data address, bytes since the last SYNC. -/
  synced : List Nat := []
  dated : List Nat := []
  fresh : Bool := false
  lastTarget : Sparse Nat := []
  lastData : Sparse Nat := []
  sinceSync : Sparse Nat := []
  /-- Packets still to write after the trigger (mode 0). -/
  postLeft : Option Nat := none
  deriving DecidableEq, Repr

/-- Configuration space beside the fields that GLB_PCIE_STATUS shows (R386, R388): the bases of the BARs, the other bits of the
command register, and the status and control registers of the function, the device and the link. The reset values are those of PCI Express Base 3.0: PRESUMED (log
entry 97). -/
structure PcieConfig where
  bar0 : DWord := 0
  bar2 : DWord := 0
  bar4 : DWord := 0
  command : Word := 0
  cacheLine : Byte := 0
  deviceControl : Word := 0x2000
  deviceControl2 : Word := 0
  /-- The status register. -/
  status : BitVec 16 := 0
  /-- The device status register: correctable, non-fatal, fatal error and Unsupported Request detected. -/
  deviceStatus : BitVec 4 := 0
  /-- The link control and the link control 2 register. -/
  linkControl : BitVec 16 := 0
  linkControl2 : BitVec 16 := 3
  deriving DecidableEq, Repr

/-- The sticky registers of Advanced Error Reporting, which an FLR keeps (R400). The reset values are those of PCI Express Base
3.0: PRESUMED (log entry 97). -/
structure PcieAer where
  uncorrectable : Word := 0
  uncorrectableMask : Word := 0x400000
  severity : Word := 0x462030
  correctable : Word := 0
  correctableMask : Word := 0xE000
  control : Word := 0
  /-- The Header Log, word 0 lowest. -/
  headerLog : BitVec 128 := 0
  /-- The First Error Pointer. -/
  firstError : BitVec 5 := 0
  deriving DecidableEq, Repr

/-- The PCI Express side (chapter 16). -/
structure Pcie where
  config : PcieConfig := {}
  aer : PcieAer := {}
  /-- Vectors whose cause bit has risen and whose message or pending bit is still to come (R396). -/
  rising : List Nat := []
  /-- The pending-bit array. -/
  pendingBits : BitVec 64 := 0
  /-- The MSI-X table: word 4 × v + k. An unlisted control word is 1 (Mask), any other is 0. -/
  table : Sparse Word := []
  /-- MSI-X messages sent: address and data. -/
  messages : List (DWord × Word) := []
  /-- Memory writes sent to host memory: bus address and bytes. -/
  writes : List (Nat × List Byte) := []
  /-- Completions of requests issued before the last reset are discarded (R400, R428). -/
  resets : Nat := 0
  deriving DecidableEq, Repr
/-- What a cluster router latches for one outbound buffer at the moment its reach leaves the run (R274). -/
structure LatchedBuffer where
  cluster : Nat
  buffer : Nat
  cfg : Word
  route : List Word
  word : DWord
  deriving DecidableEq, Repr

/-- The breakwater of a reach that has left the run (R274): what its cells launch, and which have launched in this ec. -/
structure Breakwater where
  buffers : List LatchedBuffer := []
  launched : List (Nat × Nat) := []
  /-- The shore mode is forced to the safe value (R350). -/
  safe : Bool := false
  deriving DecidableEq, Repr

/-- A reach reload (R273 to R277). Its state, source and reach are the registers LD_RELOAD_STATUS and LD_RELOAD_CFG. -/
structure Reload where
  /-- Go has been accepted and the reach is to leave the run at the next milestone point. -/
  leaving : Bool := false
  /-- The reach has left the run and is not in HOLD yet. -/
  left : Bool := false
  /-- Bytes in the reload window, oldest first (R276). -/
  window : List Byte := []
  /-- Bytes of the stream consumed so far. -/
  data : List Byte := []
  /-- The checks of header and table have passed; those on the BANKS section have passed. -/
  tableOk : Bool := false
  stagedOk : Bool := false
  /-- Sections received with a correct hash, and sections written, by descriptor index. -/
  good : List Nat := []
  written : List Nat := []
  /-- The checks after writing have passed. -/
  checked : Bool := false
  /-- Firmware has written the new plan to the standby banks (R277). -/
  planned : Bool := false
  joinReq : Bool := false
  /-- Effective anchor bits, GOLDEN signatures, VC0 flows that apply at the join (R277). -/
  anchors : BitVec 32 := 0
  golden : Sparse DWord := []
  flows : List (Word × Word) := []
  /-- Breakwaters by reach. -/
  cells : Sparse Breakwater := []
  deriving DecidableEq, Repr

/-- One Lighthouse core (R317). What its firmware leaves in registers and local memory is no command of this block: it
is a free value once the core halts (log entry 21). -/
structure LhCore where
  /-- General registers g0 to g31. -/
  regs : Sparse Word := []
  pc : Word := 0
  /-- The reserved word of a load-reserved (R333), by `wordPlace`. -/
  reserved : Option Nat := none
  /-- Local memory of 256 KiB (Table 13.1). -/
  local_ : Mem := {}
  deriving DecidableEq, Repr

/-- A fuse write in progress (R328, R336): of a key slot, or of a life-cycle transition. -/
inductive FuseWrite where
  | key (slot : Nat) (bytes : List Byte)
  | lifeCycle (target : Nat)
  deriving DecidableEq, Repr

/-- A Footpath reply that waits to be sent (R324). -/
structure Reply where
  status : Nat
  data : List Word
  /-- A POKE that completes after this reply: offset and value (status 0x05). -/
  late : Option (Nat × Word) := none
  deriving DecidableEq, Repr

/-- Lighthouse, Footpath and the security unit (chapter 13). Level, consume, challenge and failure count are the DBG_
registers. -/
structure Debug where
  cores : Sparse LhCore := []
  /-- Replies waiting and the frames sent, as bytes (R323, R324). -/
  replies : List Reply := []
  sent : List (List Byte) := []
  /-- Key bytes written to SEC_KEY_DATA, by word (R328), and DBG_AUTH_RESP (R329). -/
  keyData : Sparse Word := []
  response : Sparse Word := []
  fuse : Option FuseWrite := none
  /-- The word of DBG_FEED that a core still executes (R335). -/
  feeding : Option Word := none
  /-- A life-cycle state that applies at the next cold reset (R336). -/
  nextState : Option Nat := none
  deriving DecidableEq, Repr

/-- A tide that waits or runs (R408, R409): its ec, the shore signals sampled for it by cluster (values in [31:0], enables
in [63:32]), and whether release stage 1 has passed for it. -/
structure Tide where
  ec : Nat
  drive : Sparse DWord
  open_ : Bool
  deriving DecidableEq, Repr

/-- The shore (chapter 17). -/
structure Shore where
  /-- Tides not yet started, oldest first, and the signals sampled at the last milestone for the next one. -/
  waiting : List Tide := []
  sampled : Sparse DWord := []
  /-- The tide in progress and its phase. -/
  tide : Option (Tide × Nat) := none
  /-- The state of each ball in the last phase of the last tide, but for a safe state and the load bus (R409): 0 its FLT_SAFE
  value, 1 low, 2 high, 3 Z. -/
  kept : Sparse Nat := []
  /-- The words being formed by cluster, and the words of the last tide with its ec that wait to be delivered. -/
  forming : Sparse DWord := []
  words : Sparse DWord := []
  wordsEc : Nat := 0
  /-- What a ball last carried in a phase under the design's drive since the load (Table 10.11): key 8 × ball + phase; 0
  never, 1 low, 2 high, 3 Z. -/
  carried : Sparse Nat := []
  /-- Phase strobes (R412). -/
  strobes : BitVec 4 := 0
  deriving DecidableEq, Repr

/-- The coder of capture units (Table 11.3): the sample coded last, and a repeat run in progress with the ec of its
first sample. -/
structure Coder where
  last : Option (List DWord) := none
  run : Nat := 0
  runEc : Nat := 0
  deriving DecidableEq, Repr

/-- One sample with the measured channel's evaluation (R294, R301): index since the arm, ec, words, bus value, a rising
event (or a match), and the state above (or a match). -/
structure Sample where
  index : Nat
  ec : Nat
  words : List DWord
  value : Int
  rising : Bool
  above : Bool
  deriving DecidableEq, Repr

/-- The statistics of a window (Table 11.4). -/
structure Window where
  samples : Nat := 0
  low : Int := 0
  high : Int := 0
  lastRise : Option Nat := none
  period : Nat := 0
  edges : Nat := 0
  duty : Nat := 0
  gap : Bool := false
  deriving DecidableEq, Repr

/-- Trigger and acquisition (chapter 11) beside its registers. Positions count 64-bit units since the arm. -/
structure Acq where
  /-- Ec evaluated since the arm, ec of the post part left, TRG_CTRL.force waits for the next milestone. -/
  count : Nat := 0
  post : Option Nat := none
  force : Bool := false
  /-- System time and ec of the trigger (Table 11.4). -/
  trigger : Option (Nat × Nat) := none
  coder : Coder := {}
  window : Window := {}
  /-- A gap is open: the ec of the first sample lost since the last one captured (R298). -/
  lost : Option Nat := none
  /-- The pre-trigger store (R299) and the segment in progress: its first unit's position. -/
  store : List Sample := []
  segment : Option Nat := none
  /-- The unit waits to be armed again (R299). -/
  rearm : Bool := false
  /-- The capture FIFO, oldest first, the units drained and the units made so far. -/
  fifo : List DWord := []
  drained : Nat := 0
  made : Nat := 0
  /-- Raw headers not overwritten, oldest first: position and ec. -/
  heads : List (Nat × Nat) := []
  /-- Records to be written once a position has drained: position, index, bytes. -/
  records : List (Nat × Nat × List Byte) := []
  /-- Where the samples of segments end among the units, for those that the FIFO does not hold yet (R299). -/
  tails : List Nat := []
  /-- The capture ends when the FIFO is empty. -/
  ending : Bool := false
  deriving DecidableEq, Repr

/-- The loader (chapter 10) beside its registers. -/
structure Loader where
  /-- LD_STATUS.state before the arm (R260). -/
  prior : Nat := 0
  /-- LD_CTRL.arm has come and waits for go (mode 0); the device takes the stream. -/
  armed : Bool := false
  going : Bool := false
  /-- What LD_PROGRESS showed of a load that an FLR ended: the register lies in the always-on domain (R381). -/
  taken : Nat := 0
  /-- Stream bytes taken so far, from byte 0, and those not yet forwarded, fewer than a load frame holds. -/
  data : List Byte := []
  tail : List Byte := []
  /-- Bytes of `data` that a rewind sends again: the header and table whose checks have passed (R258, R269). -/
  skip : Nat := 0
  /-- Bytes between those taken and the offset at which a rewind resumes the stream, and the ranges of `data` that a rewind has
  passed over in this way: they have never come (R258, log entry 114). -/
  gap : Nat := 0
  missing : List (Nat × Nat) := []
  /-- The checks of the header have passed, those of the table, and those on LINKS and BANKS. -/
  headerOk : Bool := false
  tableOk : Bool := false
  stagedOk : Bool := false
  /-- The device has entered HOLD for this load; the first write has been made (R263, R429). -/
  held : Bool := false
  cleared : Bool := false
  /-- Kept sections with a correct hash, by descriptor index, and those written. -/
  good : Sparse (List Byte) := []
  written : List Nat := []
  /-- Offset at which the source has ended. -/
  endAt : Option Nat := none
  /-- Failed sections (ordinal, descriptor) that wait for a retry, the one retried last, a back-off in progress, and the
  links whose REWOUND a rewind awaits. -/
  failed : List (Nat × Nat) := []
  retry : Option (Nat × Nat) := none
  backing : Bool := false
  rewinding : List Nat := []
  /-- Tree messages that wait while NI 135 is quiesced (R150), by link. -/
  outbox : List (Nat × DWord) := []
  /-- Consecutive fetch failures; failures of this load that have been counted; one not yet counted: cause, ordinal, index
  (R259). -/
  consecutive : Nat := 0
  failures : Nat := 0
  failing : Option (Nat × Nat × Nat) := none
  /-- Final statuses in the order they came: link, or 20 for the device itself, status and ordinal. -/
  reports : List (Nat × Nat × Nat) := []
  /-- GOLDEN signatures by cluster (R255), VC0 flows (Table 10.6) for firmware. -/
  golden : Sparse DWord := []
  flows : List (Word × Word) := []
  /-- Where the planner placed each flow, by NI, entry and base step: planned late or not, and the periods that each hop stands
  past its nominal step-time, 64 for a hop without position (R147, R149). -/
  flowSlots : Sparse (Bool × List Nat) := []
  /-- Contract and directory entry (reaches, units, quads) of the image that the device runs or writes (R275). -/
  contract : Nat := 0
  reaches : Nat := 0
  units : Nat := 0
  /-- Shore load outputs (R268). -/
  rewindBall : Bool := false
  doneBall : Bool := false
  failBall : Bool := false
  /-- Scrubber per cluster (R271): bytes read in this pass, the CRC so far, the last signature, passes completed. -/
  scrubPos : Sparse Nat := []
  scrubCrc : Sparse DWord := []
  scrubSig : Sparse DWord := []
  scrubPasses : Sparse Nat := []
  deriving DecidableEq, Repr

/-- Power and clocks (chapter 15) beside the registers. -/
structure Power where
  /-- Thermal settings in steps of 25 MHz above 800 MHz, by reach (R376). -/
  thermal : Sparse Nat := []
  /-- Sensors that have raised THERMAL_TRIP and not cooled (R377). -/
  tripped : List Nat := []
  /-- The domain in transition has drained, or its rail is in range (R368, R369). -/
  ready : Bool := false
  /-- A warm reset or FLR opens the domains again (R382). -/
  reopening : Bool := false
  /-- Calibrations of each island: the model's own count (R372). -/
  calibrations : Sparse Nat := []
  /-- Physical cluster that the test engine tests (R360). -/
  test : Option Nat := none
  deriving DecidableEq, Repr

/-- The whole device. -/
structure State where
  /-- Commands that wait, first in first out (log entry 1). -/
  pending : List Instr := []
  /-- Registers by BAR0 offset (R9): stored words that differ from their reset value. -/
  regs : Sparse Word := []
  /-- High halves captured by a read of a low half (R11), by the offset of the _HI register. -/
  halves : Sparse Word := []
  /-- Data of the last register, view, window or memory read, as returned to its reader. -/
  readData : List Word := []
  /-- Counter of free values taken (log entry 2): the model's own, not the manual's. -/
  free : Nat := 0
  die : Die
  clusters : Sparse Cluster := []
  sched : Sched := {}
  net : Net := {}
  flt : Collector := {}
  cairn : Cairn := {}
  banks : Banks := {}
  time : TimeUnit := {}
  cw : Causeway := {}
  bist : Bist := {}
  ddr : Sparse DdrChannel := []
  hb : Harbour := {}
  trc : TraceUnit := {}
  pcie : Pcie := {}
  rl : Reload := {}
  dbg : Debug := {}
  shore : Shore := {}
  acq : Acq := {}
  ld : Loader := {}
  pwr : Power := {}
  deriving DecidableEq, Repr

/-- Why the block stops. No meaning of this model stops: the type is here for the host's interface. -/
inductive Fault where
  /-- Raised by no command. Safe: it never happens. -/
  | unused
  deriving DecidableEq, Repr

/-- Why a command has no meaning. -/
inductive Refusal where
  /-- Raised by the arm of a command that has no meaning yet. Safe: the machine stops. -/
  | notModelled (mnemonic : String)
  deriving DecidableEq, Repr

/-- What a command answers. -/
abbrev Out := Host.Outcome State Fault Refusal

/-- The part of log entry 6: Grade A, stepping A1, physical cluster p at the p-th router position that Table 6.2
does not give to a service router. -/
def Die.part : Die where
  gradeA := true
  b0 := false
  routerOf := (List.range 144).filter fun r => !([24, 96, 35, 107, 4, 7, 136, 139].contains r)
  uid := 0
  keys := [none, none, none, none, none]
  destroyed := []
  keyErrors := []
  lifeCycle := 0
  testStrap := false
  straps := 0
  fuseErr := none
  subsystem := 0

/-- The device right after the cold reset of power-up (R380, Table 15.6): every register at its reset value but
PWR_RESET_STATUS (offset 0x8104), which shows that reset (type 1, cause 1); its record of type 0x04 waits for commit
(R382); BIST running; the contents of every bank undefined until BIST has run (Table 15.7). Log entry 7. -/
def State.reset : State where
  die := Die.part
  regs := [(0x8104, 0x24000000)]
  banks :=
    { design := (List.range 256).map fun b => (b, { epoch := 1 })
      service := (List.range 16).map fun k => (k, { epoch := 1 }) }
  cairn := { coldResets := 1, queue := [{ kind := 4, coldResets := 1, time := 0, ec := 0, payload := [1, 1] }] }

end Sys2Proof.Machine
end

