-- ==== Sys2Proof/Machine/Ops.lean ====
section
/-! DEFINITION. The named operations over sparse maps, registers, byte memories and clusters that every meaning
uses, the CRCs of the manual, and fault signalling (R345). -/
namespace Sys2Proof.Machine

/-! ## Sparse maps -/

/-- What key `k` reads as; an unlisted key reads `d k`. -/
def look {α : Type} (d : Nat → α) : Sparse α → Nat → α
  | [], k => d k
  | (a, v) :: rest, k => if k = a then v else look d rest k

/-- Write key `k`; the value an unlisted key reads as removes the entry. -/
def put {α : Type} [DecidableEq α] (d : Nat → α) : Sparse α → Nat → α → Sparse α
  | [], k, v => if v = d k then [] else [(k, v)]
  | (a, u) :: rest, k, v =>
    if v = d k then (if k = a then put d rest k v else (a, u) :: put d rest k v)
    else if k < a then (k, v) :: (a, u) :: rest
    else if k = a then (k, v) :: rest
    else (a, u) :: put d rest k v

/-- Keys rise strictly and no entry equals what an unlisted key reads as. -/
def sparseWf {α : Type} [DecidableEq α] (d : Nat → α) (m : Sparse α) : Bool :=
  m.Pairwise (fun x y => x.1 < y.1) && m.all (fun x => decide (x.2 ≠ d x.1))

/-- The value listed for key `k`, if any. -/
def find {α : Type} : Sparse α → Nat → Option α
  | [], _ => none
  | (a, v) :: rest, k => if k = a then some v else find rest k

/-- List `v` at key `k`. -/
def enter {α : Type} : Sparse α → Nat → α → Sparse α
  | [], k, v => [(k, v)]
  | (a, u) :: rest, k, v =>
    if k < a then (k, v) :: (a, u) :: rest
    else if k = a then (k, v) :: rest
    else (a, u) :: enter rest k v

/-- Unlist key `k`. -/
def drop {α : Type} (m : Sparse α) (k : Nat) : Sparse α := m.filter fun x => x.1 ≠ k

/-- Fold a function over the numbers below `n`, rising. -/
def forUpTo {σ : Type} (n : Nat) (f : Nat → σ → σ) (s : σ) : σ := (List.range n).foldl (fun acc k => f k acc) s

/-- A number enters a list that rises strictly, once. -/
def insertRising (k : Nat) : List Nat → List Nat
  | [] => [k]
  | x :: rest => if k < x then k :: x :: rest else if k = x then x :: rest else x :: insertRising k rest

/-- The numbers of a list, each once, rising. -/
def inOrder (l : List Nat) : List Nat := l.foldr insertRising []

/-! ## Words -/

/-- Word `w` with the `n` bits from `lo` replaced by the low bits of `v`. -/
def withBits {m : Nat} (w : BitVec m) (lo n v : Nat) : BitVec m :=
  (w &&& ~~~ (BitVec.ofNat m ((2 ^ n - 1) <<< lo))) ||| BitVec.ofNat m ((v % 2 ^ n) <<< lo)

/-- Word `w` with bit `i` set to `b`. -/
def withBit {m : Nat} (w : BitVec m) (i : Nat) (b : Bool) : BitVec m := withBits w i 1 b.toNat

/-- The 32-bit halves of a 64-bit word. -/
def lowHalf (w : DWord) : Word := w.setWidth 32
def highHalf (w : DWord) : Word := (w >>> 32).setWidth 32

/-- A 64-bit word of two halves. -/
def ofHalves (lo hi : Word) : DWord := hi ++ lo

/-- The little-endian bytes of the low `n` bytes of a number. -/
def bytesLE : Nat → Nat → List Byte
  | 0, _ => []
  | n + 1, v => BitVec.ofNat 8 v :: bytesLE n (v / 256)

/-- The number whose little-endian bytes are given. -/
def ofBytesLE : List Byte → Nat
  | [] => 0
  | b :: rest => b.toNat + 256 * ofBytesLE rest

/-- Saturating addition below `2 ^ w`. -/
def satAdd (w a b : Nat) : Nat := min (a + b) (2 ^ w - 1)

/-- a / b rounded up. -/
def ceilDiv (a b : Nat) : Nat := (a + b - 1) / b

/-! ## CRCs -/

/-- One bit of an MSB-first CRC of width `w`. -/
def crcBit (w poly : Nat) (crc : Nat) (bit : Bool) : Nat :=
  let top := (crc >>> (w - 1)) % 2 == 1
  let sh := (crc <<< 1) % 2 ^ w
  if top != bit then sh ^^^ poly else sh

/-- An MSB-first CRC over bytes. -/
def crcMsb (w poly init : Nat) (bytes : List Byte) : Nat :=
  bytes.foldl (fun c b => [7, 6, 5, 4, 3, 2, 1, 0].foldl (fun c i => crcBit w poly c (b.getLsbD i)) c) init

/-- CRC-8 of head flits (R134): polynomial 0x07, initial value 0. -/
def crc8 (bytes : List Byte) : Byte := BitVec.ofNat 8 (crcMsb 8 0x07 0 bytes)

/-- CRC-64 of the scrubber (R271): polynomial 0x42F0_E1EB_A9EA_3693, initial value 0. -/
def crc64 (bytes : List Byte) : DWord := BitVec.ofNat 64 (crcMsb 64 0x42F0E1EBA9EA3693 0 bytes)

/-- One bit of a reflected CRC-32. -/
def crc32Bit (crc : Nat) (bit : Bool) : Nat :=
  if (crc % 2 == 1) != bit then (crc >>> 1) ^^^ 0xEDB88320 else crc >>> 1

/-- CRC-32 of IEEE 802.3 (R361): reflected, initial value all ones, final inversion. -/
def crc32 (bytes : List Byte) : Word :=
  ~~~ BitVec.ofNat 32 (bytes.foldl
    (fun c b => [0, 1, 2, 3, 4, 5, 6, 7].foldl (fun c i => crc32Bit c (b.getLsbD i)) c) 0xFFFFFFFF)

/-! ## Registers -/

/-- The register description and the indices that an offset belongs to. -/
def regAt (a : Nat) : Option (RegGroup × List Nat) :=
  regTable.findSome? fun g => if a < g.base then none else (regIndex g.dims (a - g.base)).map fun ix => (g, ix)

/-- Default severities of the fault sources (Table 14.1). -/
def defaultSeverity (source : Nat) : Nat :=
  if source < 32 then 4
  else if source < 120 then 2
  else if source < 140 then 3
  else if source < 160 then 1
  else if source < 176 then 6
  else if source < 187 then 2
  else if source = 187 then 6
  else if source < 200 then 2
  else if source < 202 then 5
  else if source < 205 then 2
  else if source = 205 then 1
  else if source < 210 then 2
  else if source = 210 then 1
  else if source < 219 then 2
  else if source < 222 then 4
  else if source < 224 then 2
  else if source = 224 then 0
  else if source = 225 then 2
  else if source = 226 then 1
  else if source = 227 then 2
  else if source = 228 then 0
  else if source = 229 then 1
  else if source < 234 then 2
  else if source = 234 then 0
  else if source = 235 then 2
  else if source = 236 then 1
  else if source = 237 then 0
  else if source = 238 then 2
  else if source = 239 then 1
  else 0

/-- The reset word of a register: that of its description, completed where it varies by index (Table 14.1 for
FLT_SEV, R191 for BANK_CFG, the link number for CW_LINK_CFG, service routers for WF_RTR_STATUS, the reference
mapping for BIST_CLUSTER_MAP). An offset that is no register reads 0. -/
def resetWord (a : Nat) : Word :=
  match regAt a with
  | none => 0
  | some (g, ix) =>
    let i := ix.headD 0
    let extra :=
      if g.base = R.fltSev 0 then
        (List.range 8).foldl (fun acc j => acc + (if 8 * i + j < 240 then defaultSeverity (8 * i + j) else 0) <<< (4 * j)) 0
      else if g.base = R.bankCfg 0 then (if i % 16 = 14 ∨ i % 16 = 15 then 0x80000000 else 0)
      else if g.base = R.cwLinkCfg 0 then i * 0x04000000
      else if g.base = R.wfRtrStatus 0 then
        (if [24, 96, 35, 107, 4, 7, 136, 139].contains i then 0x20000000 else 0)
      else if g.base = R.trcSm 0 then (if i = 0 then 0x80000000 else 0)
      else 0
    BitVec.ofNat 32 (g.reset + extra)

/-- The stored word of a register. -/
def reg (s : State) (a : Nat) : Word := look resetWord s.regs a

/-- Store a register's word. -/
def setReg (s : State) (a : Nat) (w : Word) : State := { s with regs := put resetWord s.regs a w }

/-- Field [lo + n - 1 : lo] of a register. -/
def bits (s : State) (a lo n : Nat) : Nat := bitsOf (reg s a) lo n

/-- Bit `i` of a register. -/
def bit (s : State) (a i : Nat) : Bool := (reg s a).getLsbD i

/-- Replace a field of a register. -/
def setBits (s : State) (a lo n v : Nat) : State := setReg s a (withBits (reg s a) lo n v)

/-- Set or clear bit `i` of a register. -/
def setBit (s : State) (a i : Nat) (b : Bool) : State := setBits s a i 1 b.toNat

/-- Add to a field, saturating. -/
def bumpBits (s : State) (a lo n by_ : Nat) : State := setBits s a lo n (satAdd n (bits s a lo n) by_)

/-- A write of `v` as the access codes of Table 0.4 give it: RW fields take the value, ones clear W1C bits and set W1S
bits, every other field stays (R10). -/
def writtenWord (g : RegGroup) (old v : Word) : Word :=
  let m := fun (n : Nat) => BitVec.ofNat 32 n
  ((((old &&& ~~~ (m g.rw)) ||| (v &&& m g.rw)) &&& ~~~ (v &&& m g.w1c)) ||| (v &&& m g.w1s))

/-- A write of a register's fields without side effects. -/
def writeFields (a : Nat) (v : Word) (s : State) : State :=
  match regAt a with
  | some (g, _) => setReg s a (writtenWord g (reg s a) v)
  | none => s

/-- A fresh free value of width `w` (log entry 2). -/
def takeFree (w : Nat) (s : State) : BitVec w × State := (Config.freeBits w s.free, { s with free := s.free + 1 })

/-! ## Byte memories -/

/-- What an unwritten byte of a memory reads as (log entry 2). -/
def unwritten (epoch a : Nat) : Byte := if epoch = 0 then 0 else Config.freeByte epoch a

/-- Read one byte. -/
def readByte (m : Mem) (a : Nat) : Byte := look (unwritten m.epoch) m.cells a

/-- Write one byte. -/
def writeByte (m : Mem) (a : Nat) (b : Byte) : Mem :=
  { m with cells := put (unwritten m.epoch) m.cells a b }

/-- The memory's contents are lost (R202, Table 15.7). -/
def loseContents (m : Mem) : Mem := { cells := [], epoch := m.epoch + 1 }

/-- The memory holds zeros. -/
def zeroContents : Mem := {}

/-- The canonical form of a byte memory: addresses rise strictly, and in epoch 0 no listed byte is 0. Of a later
epoch the entries equal to the free value have been left out when they were written. -/
abbrev Mem.wf (m : Mem) : Prop :=
  m.cells.Pairwise (fun x y => x.1 < y.1) ∧ ∀ x ∈ m.cells, x.2 ≠ unwritten m.epoch x.1

/-- `n` bytes from address `a`. -/
def readBytes (m : Mem) (a n : Nat) : List Byte := (List.range n).map fun i => readByte m (a + i)

/-- Write bytes from address `a` on. -/
def writeBytes (m : Mem) (a : Nat) : List Byte → Mem
  | [] => m
  | b :: rest => writeBytes (writeByte m a b) (a + 1) rest

/-- Write the bytes that are enabled, from address `a` on. -/
def writeEnabled (m : Mem) (a : Nat) : List (Option Byte) → Mem
  | [] => m
  | none :: rest => writeEnabled m (a + 1) rest
  | some b :: rest => writeEnabled (writeByte m a b) (a + 1) rest

/-- The 32-bit word at byte address `a`, little-endian. -/
def readWord (m : Mem) (a : Nat) : Word := BitVec.ofNat 32 (ofBytesLE (readBytes m a 4))

/-- Write a 32-bit word. -/
def writeWord (m : Mem) (a : Nat) (w : Word) : Mem := writeBytes m a (bytesLE 4 w.toNat)

/-- The 64-bit word at byte address `a`. -/
def readDWord (m : Mem) (a : Nat) : DWord := BitVec.ofNat 64 (ofBytesLE (readBytes m a 8))

/-- Write a 64-bit word. -/
def writeDWord (m : Mem) (a : Nat) (w : DWord) : Mem := writeBytes m a (bytesLE 8 w.toNat)

/-! ## Time -/

/-- num / den with a rounding that the manual does not settle (log entry 5). -/
def roundFree (num : Int) (den : Nat) : Int :=
  let r := (num % den).toNat
  num / den + (if r ≠ 0 ∧ Config.roundUp r den then 1 else 0)

/-- The time of an event `symbols` symbols after the time-clock edge, less `hold` symbols of fill and deskew hold, in
units of 2^-32 ns (R307, R310). -/
def stampAt (s : State) (symbols hold : Nat) : Nat :=
  (s.time.now.toNat + roundFree (((symbols : Int) - hold) * s.time.increment * 4) 45).toNat

/-- The symbols elapsed since the last time-clock edge, at most 11: a free value (R307, log entry 2). -/
def symbolsNow (s : State) : Nat := Config.symbolsSince s.time.ticks s.free % 12

/-- A timestamp of a descriptor or record: the ns part of the time now, its fraction truncated (R307), and its low word. -/
def timeNs (s : State) : Nat := stampAt s (symbolsNow s) 0 / 2 ^ 32 % 2 ^ 64
def timeLow (s : State) : Word := BitVec.ofNat 32 (timeNs s)

/-! ## Units -/

/-- Cluster `n`. -/
def clu (s : State) (n : Nat) : Cluster := look (fun _ => {}) s.clusters n

/-- Replace cluster `n`. -/
def setClu (s : State) (n : Nat) (c : Cluster) : State := { s with clusters := put (fun _ => {}) s.clusters n c }

/-- Every listed cluster takes the value that `f` gives it; `f` leaves a cluster at reset as it is. -/
def mapClusters (f : Cluster → Cluster) (s : State) : State :=
  (s.clusters.map (·.1)).foldl (fun acc n => setClu acc n (f (clu acc n))) s

/-- Network interface `i`. -/
def ni (s : State) (i : Nat) : Ni := look (fun _ => {}) s.net.nis i

/-- Replace network interface `i`. -/
def setNi (s : State) (i : Nat) (x : Ni) : State :=
  { s with net := { s.net with nis := put (fun _ => {}) s.net.nis i x } }

/-- Link `l`. -/
def link (s : State) (l : Nat) : Link := look (fun _ => {}) s.cw.links l

/-- Replace link `l`. -/
def setLink (s : State) (l : Nat) (x : Link) : State :=
  { s with cw := { s.cw with links := put (fun _ => {}) s.cw.links l x } }

/-- Lane `a`. -/
def lane (s : State) (a : Nat) : Lane := look (fun _ => {}) s.cw.lanes a

/-- Replace lane `a`. -/
def setLane (s : State) (a : Nat) (x : Lane) : State :=
  { s with cw := { s.cw with lanes := put (fun _ => {}) s.cw.lanes a x } }

/-- Queue `q` of a cluster. -/
def queue (c : Cluster) (q : Nat) : Queue := look (fun _ => {}) c.queues q

/-- Replace queue `q` of a cluster. -/
def setQueue (c : Cluster) (q : Nat) (x : Queue) : Cluster := { c with queues := put (fun _ => {}) c.queues q x }

/-- Waymark `k` of a cluster. -/
def waymark (c : Cluster) (k : Nat) : Waymark := look (fun _ => {}) c.waymarks k

/-- Replace waymark `k` of a cluster. -/
def setWaymark (c : Cluster) (k : Nat) (x : Waymark) : Cluster :=
  { c with waymarks := put (fun _ => {}) c.waymarks k x }

/-- A 64-bit entry of one of a cluster's small memories. -/
def dword (m : Sparse DWord) (k : Nat) : DWord := look (fun _ => 0) m k

/-- Write a 64-bit entry. -/
def setDword (m : Sparse DWord) (k : Nat) (v : DWord) : Sparse DWord := put (fun _ => 0) m k v

/-- An entry of a value store: key 1,024 × BP + step. -/
def entry (m : Sparse Bool) (b t : Nat) : Bool := look (fun _ => false) m (1024 * b + t)

/-- Write an entry of a value store. -/
def setEntry (m : Sparse Bool) (b t : Nat) (v : Bool) : Sparse Bool := put (fun _ => false) m (1024 * b + t) v

/-- Reach `r` is in HOLD (LD_REACH.hold). -/
def inHold (s : State) (r : Nat) : Bool := bit s R.ldReach (16 + r)

/-- The instruction memories of reach `r` are valid (LD_REACH.valid). -/
def reachValid (s : State) (r : Nat) : Bool := bit s R.ldReach r

/-- Every reach is in HOLD. -/
def allHold (s : State) : Bool := bits s R.ldReach 16 16 == 0xFFFF

/-- Reach `r` has left the run for a reload and is not in HOLD yet (R273). -/
def reachLeft (s : State) (r : Nat) : Bool := s.rl.left && bits s R.ldReloadCfg 0 4 == r

/-- Reach `r` runs: it is not in HOLD and has not left the run. -/
def reachRuns (s : State) (r : Nat) : Bool := !inHold s r && !reachLeft s r

/-- A reload of reach `r` is in progress and its breakwater cells act (R274): from the moment it left the run. -/
def underReload (s : State) (r : Nat) : Bool :=
  [1, 2, 3, 4].contains (bits s R.ldReloadStatus 28 4) && bits s R.ldReloadCfg 0 4 == r && !reachRuns s r

/-- The breakwater cells of reach `r` act (R274, R350, R383): it has left the run and its cells have not released. -/
def cellsAct (s : State) (r : Nat) : Bool := (find s.rl.cells r).isSome && !reachRuns s r

/-- Cluster `n` belongs to a running reach. -/
def clusterRuns (s : State) (n : Nat) : Bool := reachRuns s (n / 8)

/-- The clusters of the running reaches, ascending. -/
def runningClusters (s : State) : List Nat := (List.range 128).filter fun n => clusterRuns s n

/-- The design is frozen in the sense of R279. -/
def designFrozen (s : State) : Bool := s.sched.run == .frozen || s.sched.run == .stopped

/-- Domain `d` is on (PWR_DOMAIN_STATUS.state = 2, R369). -/
def domainOn (s : State) (d : Nat) : Bool := bits s (R.pwrDomainStatus d) 29 3 == 2

/-- Physical cluster of logical cluster `n` (CLUSTER_MAP, R357), and the domain that powers it (Table 15.1). -/
def physicalOf (s : State) (n : Nat) : Nat := look id s.bist.remap n
def domainOfCluster (s : State) (n : Nat) : Nat := if 128 ≤ physicalOf s n then 27 else n / 8

/-- Every cluster of reach `r` is powered: its own domain is on, and that of the spares where one serves it (R357, R368). -/
def reachPowered (s : State) (r : Nat) : Bool :=
  domainOn s r && (List.range 8).all fun k => domainOn s (domainOfCluster s (8 * r + k))

/-- The units of domain `d` still work: it is on, or closing and not past its drain (Table 6.5, R368). -/
def domainWorks (s : State) (d : Nat) : Bool := [2, 3].contains (bits s (R.pwrDomainStatus d) 29 3)

/-! ## Faults -/

/-- A domain whose fault sources are unmasked and whose endpoints are not asleep: it is on, or closes and its drain has not
ended (R368, Tables 6.5 and 14.3). -/
def domainSignals (s : State) (d : Nat) : Bool := domainOn s d || (domainWorks s d && !s.pwr.ready)

/-- The quad of lane `a` is absent or its domain is off. -/
def laneGone (s : State) (a : Nat) : Bool := !domainSignals s (20 + a / 16) || !bit s R.glbUnitPresent1 (a / 4)

/-- The lowest lane of link `l`. -/
def linkBase (s : State) (l : Nat) : Nat := bits s (R.cwLinkCfg l) 24 7

/-- The unit behind a source is absent or its domain is off (R345, R368); never for a unit of the always-on domain and for
PWR_DOMAIN_FAIL. The domain of an absent unit is off. -/
def sourceGone (s : State) (source info : Nat) : Bool :=
  if source < 80 then !domainSignals s (source % 16)
  else if source < 100 then laneGone s info
  else if source < 140 then laneGone s (linkBase s ((source - 100) % 20))
  else if source < 188 then false
  else if source < 196 then !domainSignals s (16 + (source - 188) % 4)
  else if 211 ≤ source ∧ source < 216 then !domainSignals s (info / 8 % 16)
  else if source = 224 ∨ source = 226 then laneGone s info
  else if source = 225 ∨ source = 227 ∨ source = 228 then laneGone s (linkBase s info)
  else if 230 ≤ source ∧ source < 234 then !domainSignals s 26
  else if source = 236 then !domainSignals s 25 || !bit s R.glbUnitPresent0 21
  else false

/-- A unit signals its fault source (R345). A source of a unit that is absent or whose domain is off raises nothing, and a
source from 240 on does not exist. -/
def signal (source info : Nat) (s : State) : State :=
  if sourceGone s source info || decide (source ≥ 240) then s
  else { s with flt := { s.flt with signals := s.flt.signals ++ [⟨source, info % 65536, false⟩] } }

/-- Signal several sources. -/
def signals (l : List (Nat × Nat)) (s : State) : State := l.foldl (fun acc x => signal x.1 x.2 acc) s

end Sys2Proof.Machine
end

