-- ==== Sys2Proof/Machine/Blocks.lean ====
section
/-! DEFINITION. Which blocks answer (R4, R5), who may act (R389), interrupts and the PCI Express function (chapter 16). -/
namespace Sys2Proof.Machine

/-! ## Presence and power -/

/-- Bits of GLB_UNIT_PRESENT[0] (R4). -/
def reachPresent (s : State) (r : Nat) : Bool := bit s R.glbUnitPresent0 r
def ddrPresent (s : State) (c : Nat) : Bool := bit s R.glbUnitPresent0 (16 + c)
def harbourPresent (s : State) : Bool := bit s R.glbUnitPresent0 20
def observationPresent (s : State) : Bool := bit s R.glbUnitPresent0 21
def tracePresent (s : State) : Bool := bit s R.glbUnitPresent0 22

/-- A present unit whose domain is on. -/
def clusterOn (s : State) (n : Nat) : Bool := reachPresent s (n / 8) && domainOn s (domainOfCluster s n)
def ddrOn (s : State) (c : Nat) : Bool := ddrPresent s c && domainOn s (16 + c)
def harbourOn (s : State) : Bool := harbourPresent s && domainOn s 26
def observationOn (s : State) : Bool := observationPresent s && domainOn s 25
def traceOn (s : State) : Bool := tracePresent s && domainOn s 25

/-- Service bank `k` is present and powered (R204, Table 14.6, Table 15.1). -/
def serviceOn (s : State) (k : Nat) : Bool := !s.bist.svcAbsent.getLsbD k && (decide (k < 8) || harbourOn s)

/-- The block that a BAR0 offset belongs to is powered and present (R5, Table 16.4). The run registers of the trigger block
work at all times (chapter 11). -/
def blockOn (s : State) (a : Nat) : Bool :=
  if 0x300000 ≤ a ∧ a < 0x350000 then
    bit s R.glbUnitPresent1 ((a - 0x300000) / 0x4000) && domainOn s (20 + (a - 0x300000) / 0x10000)
  else if 0x400000 ≤ a ∧ a < 0x440000 then ddrOn s ((a - 0x400000) / 0x10000)
  else if 0x600000 ≤ a ∧ a < 0x700000 then harbourOn s
  else if 0x700000 ≤ a ∧ a < 0x700020 then true
  else if 0x700020 ≤ a ∧ a < 0x780000 then observationOn s
  else if 0x780000 ≤ a ∧ a < 0x7C0000 then traceOn s
  else if 0x1000000 ≤ a ∧ a < 0x2000000 then clusterOn s ((a - 0x1000000) / 0x20000)
  else if 0x2000000 ≤ a ∧ a < 0x2C00000 then serviceOn s ((a - 0x2000000) / 0x40000 % 16)
  else true

/-- An access reached an unpowered or absent block (R5). -/
def offAccess (s : State) : State := setBit s R.glbStatus 0 true

/-! ## Accesses -/

/-- Lighthouse is halted (R332). -/
def lhHalted (s : State) : Bool := bit s R.dbgStatus 28

/-- The party's accesses reach the device: the host's while Memory Space Enable is 1 and the function is in D0 (R389),
Lighthouse's while its cores are not halted (R332). -/
def partyActs (s : State) (p : Party) : Bool :=
  match p with
  | .host => bit s R.glbPcieStatus 22 && bits s R.glbPcieStatus 16 2 == 0
  | .lighthouse => !lhHalted s

/-- AER bits of a poisoned TLP, of a wrong ECRC and of a request answered Unsupported Request. -/
def aerPoisoned : Nat := 12
def aerEcrc : Nat := 19
def aerUnsupported : Nat := 20

/-- Replace the sticky AER registers, and the rest of configuration space. -/
def setAer (x : PcieAer) (s : State) : State := { s with pcie := { s.pcie with aer := x } }
def setConfig (x : PcieConfig) (s : State) : State := { s with pcie := { s.pcie with config := x } }

/-- Bits of the status register and of the device status register become 1. -/
def pcieStatus (status : BitVec 16) (device : BitVec 4) (s : State) : State :=
  let c := s.pcie.config
  setConfig { c with status := c.status ||| status, deviceStatus := c.deviceStatus ||| device } s

/-- The sticky bit of an uncorrectable error is set. Where its mask bit is 0 and the First Error Pointer names no bit that is
set, the pointer names it and the header log takes the header of the packet, which is free: no command carries one (log
entry 97). -/
def aerRecord (b : Nat) (s : State) : State :=
  let a := s.pcie.aer
  let x := takeFree 128 s
  let a' := { a with uncorrectable := withBit a.uncorrectable b true }
  if a.uncorrectableMask.getLsbD b || a.uncorrectable.getLsbD a.firstError.toNat then setAer a' s
  else setAer { a' with firstError := BitVec.ofNat 5 b, headerLog := x.1 } x.2

/-- The status bits of an uncorrectable error (log entry 97): a poisoned packet is a detected parity error; the device status
takes the severity and an Unsupported Request; an error message sent with SERR Enable signals a system error. -/
def errorStatus (b : Nat) (s : State) : State :=
  let a := s.pcie.aer
  let sent := s.pcie.config.command.getLsbD 8 && !a.uncorrectableMask.getLsbD b
  pcieStatus ((if b = aerPoisoned then 0x8000 else 0) ||| (if sent then 0x4000 else 0))
    ((if a.severity.getLsbD b then 4 else 2) ||| (if b = aerUnsupported then 8 else 0)) s

/-- PCIE_ERR with the AER bit of its cause, which the sticky status takes (R398, R400). -/
def pcieError (b : Nat) (s : State) : State := signal 207 b (aerRecord b (errorStatus b s))

/-- PCIE_ERR of a read that the endpoint answers Unsupported Request. Where that error is not fatal it is advisory: the
function logs it as correctable, and as uncorrectable too unless bit 13 of the correctable mask is 1 (log entry 97). -/
def advisoryError (s : State) : State :=
  if s.pcie.aer.severity.getLsbD aerUnsupported then pcieError aerUnsupported s
  else
    let s := pcieStatus 0 9 s
    let s := setAer { s.pcie.aer with correctable := withBit s.pcie.aer.correctable 13 true } s
    signal 207 aerUnsupported (if s.pcie.aer.correctableMask.getLsbD 13 then s else aerRecord aerUnsupported s)

/-- The endpoint checks the ECRC of a request (bit 8 of the AER control register), and discards one whose ECRC is wrong (R386;
PRESUMED, log entry 97). -/
def ecrcChecked (s : State) : Bool := s.pcie.aer.control.getLsbD 8

/-- A write of the host that does not reach the device is answered Unsupported Request, which the endpoint logs (R389; log
entry 97); none comes while the link is down. A halted core makes none. -/
def unsupportedRequest (p : Party) (s : State) : State :=
  if p = .host ∧ bits s R.glbPcieStatus 28 4 ≠ 0 then pcieError aerUnsupported s else s

/-- The same of a read, which the answer completes (log entry 97). -/
def unsupportedRead (p : Party) (s : State) : State :=
  if p = .host ∧ bits s R.glbPcieStatus 28 4 ≠ 0 then advisoryError s else s

/-- What a write, and a read, of a party does to the device, where the party's accesses reach it. -/
def performed (p : Party) (s t : State) : State := if partyActs s p then t else unsupportedRequest p s
def performedRead (p : Party) (s t : State) : State := if partyActs s p then t else unsupportedRead p s

/-- What a read returned to its reader. -/
def answer (ws : List Word) (s : State) : State := { s with readData := ws }

/-- Firmware runs: LH_STATUS.state is 4 and Lighthouse is not halted (R318, R332). -/
def firmwareRuns (s : State) : Bool := bits s R.lhStatus 28 4 == 4 && !lhHalted s

/-! ## Interrupts (R395 to R397) -/

/-- Cause bit `v`. -/
def causeBit (s : State) (v : Nat) : Bool := bit s (if v < 32 then R.glbIrqCauseLo else R.glbIrqCauseHi) (v % 32)

/-- Set or clear cause bit `v`. -/
def setCause (v : Nat) (b : Bool) (s : State) : State :=
  setBit s (if v < 32 then R.glbIrqCauseLo else R.glbIrqCauseHi) (v % 32) b

/-- An event sets cause bit `v`; a change from 0 to 1 is to be signalled (R396). -/
def raiseCause (v : Nat) (s : State) : State :=
  if causeBit s v then s
  else
    let s := setCause v true s
    { s with pcie := { s.pcie with rising := s.pcie.rising ++ [v] } }

/-- Word `k` of MSI-X table entry `v`. -/
def msixWord (s : State) (v k : Nat) : Word := look (fun i => if i % 4 = 3 then 1 else 0) s.pcie.table (4 * v + k)

/-- Write a word of the MSI-X table. -/
def setMsixWord (v k : Nat) (w : Word) (s : State) : State :=
  { s with pcie := { s.pcie with table := put (fun i => if i % 4 = 3 then 1 else 0) s.pcie.table (4 * v + k) w } }

/-- The device issues requests: Bus Master Enable is 1 and the function is in D0 (R399, R401). -/
def busMaster (s : State) : Bool := bit s R.glbPcieStatus 23 && bits s R.glbPcieStatus 16 2 == 0

/-- Vector `v` can send (R396). -/
def canSend (s : State) (v : Nat) : Bool :=
  bit s R.glbPcieStatus 21 && !bit s R.glbPcieStatus 20 && !(msixWord s v 3).getLsbD 0 && busMaster s

/-- The MSI-X message of vector `v`. -/
def sendMsix (v : Nat) (s : State) : State :=
  { s with pcie := { s.pcie with messages := s.pcie.messages ++ [(ofHalves (msixWord s v 0) (msixWord s v 1), msixWord s v 2)] } }

/-- Pending bit `v`. -/
def setPendingBit (v : Nat) (b : Bool) (s : State) : State :=
  { s with pcie := { s.pcie with pendingBits := withBit s.pcie.pendingBits v b } }

/-- MSIX_SEND (R396): the oldest change of cause bit `v` from 0 to 1 sends the message, or sets the pending bit. -/
def msixSend (v : Nat) (s : State) : State :=
  if s.pcie.rising.contains v then
    let s := { s with pcie := { s.pcie with rising := s.pcie.rising.erase v } }
    if canSend s v then sendMsix v s else setPendingBit v true s
  else s

/-- MSIX_SEND (R396). -/
def execMsixSend (v : Fin 64) (s : State) : Out := .next (msixSend v.val s)

/-- MSIX_PENDING_SEND (R396): a vector that can send again sends its pending message. -/
def msixPendingSend (v : Nat) (s : State) : State :=
  if s.pcie.pendingBits.getLsbD v ∧ canSend s v then sendMsix v (setPendingBit v false s) else s

/-- MSIX_PENDING_SEND (R396). -/
def execMsixPendingSend (v : Fin 64) (s : State) : Out := .next (msixPendingSend v.val s)

/-- IRQ_CAUSE_CLEAR: the host clears cause bits by writing 1 to them (R396). The write of _HI clears the live bits. A bit whose
event comes in the same cycle stays 1, and sends no new message (Table 16.7). -/
def irqCauseClear (high : Bool) (x : CauseClear) (s : State) : State :=
  performed .host s (writeFields (if high then R.glbIrqCauseHi else R.glbIrqCauseLo) (x.value &&& ~~~ x.meets) s)

/-- IRQ_CAUSE_CLEAR (R396). -/
def execIrqCauseClear (high : Bool) (value : CauseClear) (s : State) : Out := .next (irqCauseClear high value s)

/-- LH_DOORBELL: firmware writes GLB_LH_DOORBELL, which sets cause bit 63 (Table 16.6). -/
def lhDoorbell (v : Word) (s : State) : State := raiseCause 63 (setReg s R.glbLhDoorbell v)

/-- LH_DOORBELL (R395). -/
def execLhDoorbell (value : Word) (s : State) : Out := .next (if lhHalted s then s else lhDoorbell value s)

/-! ## The function -/

/-- POWER_STATE_CHANGE (R401): the function enters D3hot or returns to D0 with all state kept. -/
def powerStateChange (d3 : Bool) (s : State) : State := setBits s R.glbPcieStatus 16 2 (if d3 then 3 else 0)

/-- POWER_STATE_CHANGE (R401). -/
def execPowerStateChange (d3hot : Bool) (s : State) : Out := .next (powerStateChange d3hot s)

/-- BUS_MASTER_ENABLE: a configuration write of the enables that R389, R396 and R399 read. -/
def busMasterEnable (on memorySpace msix functionMask : Bool) (s : State) : State :=
  setBit (setBit (setBit (setBit s R.glbPcieStatus 23 on) R.glbPcieStatus 22 memorySpace) R.glbPcieStatus 21 msix)
    R.glbPcieStatus 20 functionMask

/-- BUS_MASTER_ENABLE (R399). -/
def execBusMasterEnable (on memorySpace msix functionMask : Bool) (s : State) : Out :=
  .next (busMasterEnable on memorySpace msix functionMask s)

/-- PCIE_LINK_DOWN (Table 16.7): the link leaves L0 for Detect without a reset. -/
def pcieLinkDown (s : State) : State :=
  if bits s R.glbPcieStatus 28 4 = 0 then s
  else signal 206 0 (bumpBits (setBits (setBits s R.glbPcieStatus 28 4 0) R.glbPcieStatus 24 4 0) R.glbPcieStatus 8 8 1)

/-- PCIE_LINK_DOWN (R403). -/
def execPcieLinkDown (s : State) : Out := .next (pcieLinkDown s)

/-- PCIE_LINK_UP (R387): training ends at a rate and a width of Table 16.1. -/
def pcieLinkUp (speed width : Nat) (s : State) : State :=
  if bits s R.glbPcieStatus 28 4 = 0 ∧ [1, 2, 3].contains speed ∧ [1, 2, 4, 8].contains width then
    setBits (setBits s R.glbPcieStatus 28 4 speed) R.glbPcieStatus 24 4 width
  else s

/-- PCIE_LINK_UP (R387). -/
def execPcieLinkUp (speed width : Nat) (s : State) : Out := .next (pcieLinkUp speed width s)

end Sys2Proof.Machine
end

