-- ==== Sys2Proof/Machine/Endpoint.lean ====
section
/-! DEFINITION. The endpoint's configuration space (R386 to R388, R400, R401): what a configuration request of the host reads
and writes. The manual gives the features and not the layout: the registers stand under their names in PCI Express Base 3.0,
with the fields that document gives them (PRESUMED, log entry 97). -/
namespace Sys2Proof.Machine

/-! ## What the function is -/

/-- What the endpoint's configuration space identifies the part by (Table 16.2). -/
structure PcieIdentity where
  vendorId : BitVec 16
  deviceId : BitVec 16
  revisionId : Byte
  classCode : BitVec 24
  subsystemVendorId : BitVec 16
  subsystemId : BitVec 16
  serialNumber : DWord
  deriving DecidableEq, Repr

/-- The identification of Table 16.2. The Revision ID differs by stepping (R8); the serial number is bytes 0 to 7 of SEC_UID,
byte 0 lowest. -/
def pcieIdentity (s : State) : PcieIdentity where
  vendorId := 0x1E97
  deviceId := 0x7200
  revisionId := if s.die.b0 then 0xB0 else 0xA1
  classCode := 0x120000
  subsystemVendorId := s.die.subsystem.setWidth 16
  subsystemId := (s.die.subsystem >>> 16).setWidth 16
  serialNumber := BitVec.ofNat 64 (ofBytesLE ((bytesLE 16 s.die.uid.toNat).reverse.take 8))

/-- The identifier that a capability's header reads (Table 16.1); 0 where the endpoint does not have it (R386). -/
def capabilityId : PcieCapability → Nat
  | .powerManagement => 0x01
  | .pciExpress => 0x10
  | .msix => 0x11
  | .aer => 0x0001
  | .serialNumber => 0x0003
  | .msi | .sriov | .ats | .pri | .pasid | .tph | .ltr | .acs | .resizableBar | .l1Substates => 0

/-! ## Base address registers (R388) -/

/-- Base, size and low bits of the BAR that register `k` belongs to (Table 16.3): all are 64-bit, BAR4 prefetchable. -/
def barBase (s : State) (k : Nat) : DWord :=
  match k / 2 with
  | 0 => s.pcie.config.bar0
  | 1 => s.pcie.config.bar2
  | _ => s.pcie.config.bar4
def barBytes (k : Nat) : Nat :=
  match k / 2 with
  | 0 => 2 ^ 26
  | 1 => 2 ^ 17
  | _ => 2 ^ 32
def barType (k : Nat) : DWord := if k / 2 = 2 then 0xC else 0x4

/-- Replace a base: the address bits below the size stay 0. -/
def setBarBase (k : Nat) (v : DWord) (s : State) : State :=
  let v := BitVec.ofNat 64 (v.toNat / barBytes k * barBytes k)
  let c := s.pcie.config
  { s with pcie := { s.pcie with config :=
      match k / 2 with
      | 0 => { c with bar0 := v }
      | 1 => { c with bar2 := v }
      | _ => { c with bar4 := v } } }

/-! ## Reading -/

/-- A 32-bit word of fields (lowest bit, value). -/
def fieldWord (l : List (Nat × Nat)) : Word := BitVec.ofNat 32 (l.map fun x => x.2 <<< x.1).sum

/-- What a register of configuration space reads. One function with a type 0 header, no interrupt pin, and of the power states
and events D0 and D3hot alone (Table 16.1): the fields of what it does not have read 0. -/
def configValue (s : State) : ConfigReg → Word
  | .identity => BitVec.ofNat 32 ((pcieIdentity s).deviceId.toNat <<< 16 + (pcieIdentity s).vendorId.toNat)
  | .command =>
    fieldWord [(1, (bit s R.glbPcieStatus 22).toNat), (2, (bit s R.glbPcieStatus 23).toNat),
      (16, s.pcie.config.status.toNat), (20, 1)] ||| s.pcie.config.command
  | .classRevision => BitVec.ofNat 32 ((pcieIdentity s).classCode.toNat <<< 8 + (pcieIdentity s).revisionId.toNat)
  | .headerType => fieldWord [(0, s.pcie.config.cacheLine.toNat)]
  | .interrupt => 0
  | .powerCapabilities => 3
  | .bar k => if k.val % 2 = 0 then lowHalf (barBase s k.val ||| barType k.val) else highHalf (barBase s k.val)
  | .subsystem => BitVec.ofNat 32 ((pcieIdentity s).subsystemId.toNat <<< 16 + (pcieIdentity s).subsystemVendorId.toNat)
  | .expansionRom => 0
  | .capability c => BitVec.ofNat 32 (capabilityId c)
  | .powerControl => fieldWord [(0, bits s R.glbPcieStatus 16 2), (3, 1)]
  | .msixControl => fieldWord [(0, 63), (14, (bit s R.glbPcieStatus 20).toNat), (15, (bit s R.glbPcieStatus 21).toNat)]
  | .msixTable => 0x3FF0000
  | .msixPba => 0x3FF0800
  | .deviceCapabilities => fieldWord [(0, 1), (5, 1), (15, 1), (28, 1)]
  | .deviceControl => fieldWord [(16, s.pcie.config.deviceStatus.toNat)] ||| s.pcie.config.deviceControl
  | .linkCapabilities => fieldWord [(0, 3), (4, 8), (22, 1)]
  | .linkStatus =>
    fieldWord [(0, s.pcie.config.linkControl.toNat), (16, bits s R.glbPcieStatus 28 4), (20, bits s R.glbPcieStatus 24 4)]
  | .deviceCapabilities2 => fieldWord [(0, 0xF), (4, 1)]
  | .deviceControl2 => s.pcie.config.deviceControl2
  | .linkCapabilities2 => fieldWord [(1, 7)]
  | .linkControl2 => fieldWord [(0, s.pcie.config.linkControl2.toNat)]
  | .uncorrectableStatus => s.pcie.aer.uncorrectable
  | .uncorrectableMask => s.pcie.aer.uncorrectableMask
  | .uncorrectableSeverity => s.pcie.aer.severity
  | .correctableStatus => s.pcie.aer.correctable
  | .correctableMask => s.pcie.aer.correctableMask
  | .aerControl => fieldWord [(0, s.pcie.aer.firstError.toNat), (5, 1), (7, 1)] ||| s.pcie.aer.control
  | .headerLog k => (s.pcie.aer.headerLog >>> (32 * k.val)).setWidth 32
  | .serialLow => lowHalf (pcieIdentity s).serialNumber
  | .serialHigh => highHalf (pcieIdentity s).serialNumber

/-- The function answers configuration requests: the link is up (R387). -/
def configActs (s : State) (p : Party) : Bool := p == .host && bits s R.glbPcieStatus 28 4 != 0

/-! ## Writing -/

/-- Bits of the first `n` bytes from byte `o` of a word on. -/
def byteMask (o n : Nat) : Word := BitVec.ofNat 32 ((2 ^ (8 * n) - 1) <<< (8 * o))

/-- `v` where `mask` is 1, `old` elsewhere. -/
def merge (mask v old : Word) : Word := (old &&& ~~~ mask) ||| (v &&& mask)

/-- A write of the device control register: a payload size above 256 bytes and a read request size that the field does not
code are not taken, Relaxed Ordering and No Snoop stay 0 (Table 16.1). -/
def deviceControlWrite (v old : Word) : Word :=
  let v := if 1 < bitsOf v 5 3 then withBits v 5 3 (bitsOf old 5 3) else v
  let v := if 5 < bitsOf v 12 3 then withBits v 12 3 (bitsOf old 12 3) else v
  v &&& 0x71EF

/-- A write of the link control 2 register: the target link speed is one of 1 to 3 (Table 16.1). -/
def linkControl2Write (v old : BitVec 16) : BitVec 16 :=
  if bitsOf (v.setWidth 32) 0 4 = 0 ∨ 3 < bitsOf (v.setWidth 32) 0 4 then (v &&& 0xFFB0) ||| (old &&& 0xF) else v &&& 0xFFBF

/-- A write of `v` where `mask` is 1 to a register of configuration space. Writing 1 clears a status bit; a power state that the
endpoint does not have is not taken, nor is a target link speed. -/
def configWrite (mask v : Word) (r : ConfigReg) (s : State) : State :=
  let w := merge mask v (configValue s r)
  let a := s.pcie.aer
  let c := s.pcie.config
  match r with
  | .command =>
    setConfig { c with command := w &&& 0x540, status := c.status &&& ~~~ ((v &&& mask) >>> 16).setWidth 16 }
      (setBit (setBit s R.glbPcieStatus 22 (w.getLsbD 1)) R.glbPcieStatus 23 (w.getLsbD 2))
  | .headerType => setConfig { c with cacheLine := w.setWidth 8 } s
  | .bar k =>
    let b := barBase s k.val
    setBarBase k.val (if k.val % 2 = 0 then ofHalves w (highHalf b) else ofHalves (lowHalf b) w) s
  | .powerControl =>
    if bitsOf w 0 2 = 0 ∨ bitsOf w 0 2 = 3 then powerStateChange (bitsOf w 0 2 == 3) s else s
  | .msixControl => setBit (setBit s R.glbPcieStatus 20 (w.getLsbD 14)) R.glbPcieStatus 21 (w.getLsbD 15)
  | .deviceControl =>
    setConfig { c with
      deviceControl := deviceControlWrite w c.deviceControl
      deviceStatus := c.deviceStatus &&& ~~~ ((v &&& mask) >>> 16).setWidth 4 } s
  | .deviceControl2 => setConfig { c with deviceControl2 := w &&& 0x1F } s
  | .linkStatus => setConfig { c with linkControl := (w &&& 0x2C8).setWidth 16 } s
  | .linkControl2 => setConfig { c with linkControl2 := linkControl2Write (w.setWidth 16) c.linkControl2 } s
  | .uncorrectableStatus => setAer { a with uncorrectable := a.uncorrectable &&& ~~~ (v &&& mask) } s
  | .uncorrectableMask => setAer { a with uncorrectableMask := w } s
  | .uncorrectableSeverity => setAer { a with severity := w } s
  | .correctableStatus => setAer { a with correctable := a.correctable &&& ~~~ (v &&& mask) } s
  | .correctableMask => setAer { a with correctableMask := w } s
  | .aerControl => setAer { a with control := w &&& 0x140 } s
  | .identity | .classRevision | .interrupt | .powerCapabilities | .subsystem | .expansionRom | .capability _
  | .deviceCapabilities | .linkCapabilities | .deviceCapabilities2 | .linkCapabilities2 | .msixTable | .msixPba
  | .headerLog _ | .serialLow | .serialHigh => s

/-- The write begins a function-level reset: bit 15 of the device control register. -/
def beginsFlr (mask v : Word) (r : ConfigReg) : Bool := r == .deviceControl && (v &&& mask).getLsbD 15

end Sys2Proof.Machine
end

