-- ==== Sys2Proof/Machine/Code.lean ====
section
/-! DEFINITION. What a Causeway lane puts on its pair (R161 to R164, Tables 7.1 to 7.4): the symbols of every unit, and the
8b/10b code groups of IEEE 802.3 clause 36 with their running disparity. The tables of that code are taken from the
standard, which R161 names: PRESUMED, safe (log entry 71). -/
namespace Sys2Proof.Machine

/-- A symbol: a control or a data octet, or in place of data octet `o` a code group outside the table (R189). -/
inductive Symbol where
  | control (o : Nat)
  | data (o : Nat)
  | invalid (o : Nat)
  deriving DecidableEq, Repr

/-- The control symbols of Table 7.1. -/
def comma : Symbol := .control 0xBC
def fillerSymbol : Symbol := .control 0x1C
def tokenStart : Symbol := .control 0x7C
def frameStart : Symbol := .control 0xFB
def frameEnd : Symbol := .control 0xFD
def frameAbort : Symbol := .control 0xF7

/-! ## Code groups (R161) -/

/-- Ones among the low `w` bits of a number. -/
def onesOf (w n : Nat) : Nat := ((List.range w).filter fun i => n.testBit i).length

/-- The six bits abcdei of the low five bits `x` of an octet, for negative running disparity. -/
def sixBits (k : Bool) (x : Nat) : Nat :=
  if k && x == 28 then 0b001111
  else [0b100111, 0b011101, 0b101101, 0b110001, 0b110101, 0b101001, 0b011001, 0b111000,
    0b111001, 0b100101, 0b010101, 0b110100, 0b001101, 0b101100, 0b011100, 0b010111,
    0b011011, 0b100011, 0b010011, 0b110010, 0b001011, 0b101010, 0b011010, 0b111010,
    0b110011, 0b100110, 0b010110, 0b110110, 0b001110, 0b101110, 0b011110, 0b101011].getD x 0

/-- The four bits fghj of the high three bits `y` of an octet, for negative running disparity. -/
def fourBits (k : Bool) (y : Nat) : Nat :=
  if k then [0b1011, 0b0110, 0b1010, 0b1100, 0b1101, 0b0101, 0b1001, 0b0111].getD y 0
  else [0b1011, 0b1001, 0b0101, 0b1100, 0b1101, 0b1010, 0b0110, 0b1110].getD y 0

/-- The running disparity after `w` bits: positive after more ones than zeros, negative after fewer. -/
def disparityAfter (w n : Nat) (rd : Bool) : Bool :=
  if w < 2 * onesOf w n then true else if 2 * onesOf w n < w then false else rd

/-- The alternate form of D.x.7 is used where the primary would give five like bits in a row. -/
def alternate7 (x : Nat) (rd : Bool) : Bool := if rd then [11, 13, 14].contains x else [17, 18, 20].contains x

/-- The code group abcdei fghj of an octet under a running disparity (`true` positive), bit a highest. -/
def codeGroup (k : Bool) (o : Nat) (rd : Bool) : Nat :=
  let x := o % 32
  let y := o / 32 % 8
  let six := sixBits k x
  let six := if rd && (onesOf 6 six != 3 || (x == 7 && !k)) then 63 - six else six
  let mid := disparityAfter 6 six rd
  let four := if !k && y == 7 && alternate7 x mid then 0b0111 else fourBits k y
  let four := if mid && (k || onesOf 4 four != 2 || y == 3) then 15 - four else four
  16 * six + four

/-- The code group of a symbol. Which group outside the table an injection sends the manual does not say: a free value of
the part. -/
def symbolGroup (x : Symbol) (rd : Bool) : Nat :=
  match x with
  | .control o => codeGroup true o rd
  | .data o => codeGroup false o rd
  | .invalid o => (Config.invalidGroup rd o).toNat

/-- The bits of a code group in the order sent, a first (R161). -/
def groupBits (g : Nat) : List Bool := (List.range 10).map fun i => g.testBit (9 - i)

/-- The bits that symbols give on the pair, and the running disparity after them. -/
def serialise (xs : List Symbol) (rd : Bool) : List Bool × Bool :=
  xs.foldl (fun acc x => let g := symbolGroup x acc.2; (acc.1 ++ groupBits g, disparityAfter 10 g acc.2)) ([], rd)

/-! ## Units (Tables 7.2 to 7.4) -/

/-- Data symbols of bytes. -/
def dataSymbols (bs : List Nat) : List Symbol := bs.map .data

/-- The CRC-8 of bytes (R134). -/
def crcByte (bs : List Nat) : Nat := (crc8 (bs.map (BitVec.ofNat 8))).toNat

/-- A K symbol, bytes, and the CRC-8 over them. -/
def checkedUnit (k : Symbol) (bs : List Nat) : List Symbol := k :: dataSymbols (bs ++ [crcByte bs])

/-- Bytes H0 to H2 of a frame (Table 7.4). -/
def headerBytes (f : Frame) (nak : Bool) (ack : Nat) : List Nat :=
  [f.type % 16 * 16 + f.vc % 4 * 4 + nak.toNat * 2 + f.last.toNat, f.seq % 256, ack % 256]

/-- The header of a frame, H0 lowest, with its CRC-8. -/
def frameHeader (f : Frame) (nak : Bool) (ack : Nat) : BitVec 32 :=
  let h := headerBytes f nak ack
  BitVec.ofNat 32 (h.getD 0 0 + h.getD 1 0 * 2 ^ 8 + h.getD 2 0 * 2 ^ 16 + crcByte h * 2 ^ 24)

/-- The data symbols of a frame: header and payload; an injection of kind 2 replaces the first (R189). -/
def frameData (f : Frame) (nak : Bool) (ack : Nat) (badCode : Bool) : List Symbol :=
  let h := headerBytes f nak ack
  let bs := h ++ [crcByte h] ++ (List.range 32).map fun i => bitsOf f.payload (8 * i) 8
  if badCode then .invalid (h.headD 0) :: dataSymbols (bs.drop 1) else dataSymbols bs

/-- The symbols of a unit (Table 7.2). -/
def unitSymbols : LaneUnit → List Symbol
  | .idle => [comma]
  | .filler => [fillerSymbol]
  | .trainingSet state lane ordinal width index fresh =>
    checkedUnit comma ([0xB5, state, lane, ordinal, width, index, fresh.toNat] ++ List.replicate 7 0x4A)
  | .marker width index => checkedUnit comma [0xA3, width * 16 + index]
  | .token hold count => checkedUnit tokenStart [if hold then 2 else 1, count]
  | .frame f nak ack badCode cut =>
    match cut with
    | none => frameStart :: frameData f nak ack badCode ++ [frameEnd]
    | some n => frameStart :: (frameData f nak ack badCode).take n ++ [frameAbort]

end Sys2Proof.Machine
end

