-- ==== Sys2Proof/Machine/Operands.lean ====
section
/-! DEFINITION. The instruction word, every operand class and every control field of a BP instruction (chapters 2
and 3), and the schedule tables that they refer to (chapter 4). -/
namespace Sys2Proof.Machine

/-! ## Schedule tables -/

/-- Entries of a register array of `n` words from offset `base` that are stored, as (index, word), rising. -/
def listed (s : State) (base n : Nat) : List (Nat × Word) :=
  s.regs.filterMap fun x => if base ≤ x.1 ∧ x.1 < base + 4 * n then some ((x.1 - base) / 4, x.2) else none

/-- Schedule depth (R88). -/
def depth (s : State) : Nat := bits s R.glbSchedDepth 0 11

/-- Number of valid legs K (R87). -/
def legCount (s : State) : Nat := bits s R.glbSchedStatus 8 6

/-- First step of leg `k`; the schedule depth for k = K. No step at or above the depth executes (R88), so a leg that a
lowered depth cuts off has none. -/
def legStart (s : State) (k : Nat) : Nat := if k < legCount s then min (bits s (R.glbLeg k) 0 10) (depth s) else depth s

/-- The leg that holds step `t` (R87). -/
def legOf (s : State) (t : Nat) : Option Nat :=
  ((List.range (legCount s)).filter fun k => legStart s k ≤ t && t < legStart s (k + 1)).head?

/-- Wheel `w` has an edge in the ec whose count is `e` (R91). -/
def wheelEdge (s : State) (w e : Nat) : Bool :=
  let cfg := reg s (R.glbWheelCfg w)
  let p := (bitsOf cfg 16 12 + e) % (bitsOf cfg 0 12 + 1)
  bit s (R.glbWheelPat w (p / 32)) (p % 32)

/-- Edge flags of the 16 wheels in the ec whose count is `e`. -/
def wheelEdges (s : State) (e : Nat) : BitVec 16 :=
  (List.range 16).foldl (fun acc w => withBit acc w (wheelEdge s w e)) 0

/-! ## Arrival entries (R39 to R44) -/

/-- Entries of the arrival table that are valid, as (index, word). -/
def arrivals (s : State) (n : Nat) : List (Nat × Word) :=
  (listed s (R.cluArrEntry n 0) 256).filter fun x => x.2.getLsbD 31

/-- Deadline step, slot, ext and source of an arrival entry. -/
def deadlineOf (w : Word) : Nat := bitsOf w 0 10
def slotOf (w : Word) : Nat := bitsOf w 16 4
def extOf (w : Word) : Bool := w.getLsbD 30
def srcOf (w : Word) : Nat := bitsOf w 20 5

/-- A valid entry is expected in this ec (R39). -/
def expected (s : State) (w : Word) : Bool :=
  if extOf w then s.sched.edges.getLsbD (srcOf w % 16) else s.sched.ranLegs.contains (srcOf w)

/-- The deadline step `t` of an entry has gone by for a cluster without the word (R40, R98): the cluster has reached
a later step, stalls at that step, or the legs up to that step have been run or passed over. -/
def deadlinePassed (s : State) (c : Cluster) (t : Nat) : Bool :=
  match c.walk with
  | .idle => false
  | .inLeg st => t < st || (t == st && c.stalled)
  | _ =>
    match s.sched.phase with
    | .deciding k => t < legStart s k
    | .leg k => t < legStart s (k + 1)
    | .walked => true
    | .milestone => false

/-- The entries of slot `z` that an operand read at step `t` waits for (R40): expected, due, not delivered. -/
def awaited (s : State) (n : Nat) (c : Cluster) (z t : Nat) : List Nat :=
  (arrivals s n).filterMap fun x =>
    if slotOf x.2 = z ∧ deadlineOf x.2 ≤ t ∧ expected s x.2 ∧ x.1 ∉ c.delivered then some x.1 else none

/-! ## The instruction word (Table 3.1) -/

abbrev Insn := BitVec 96

def opcode (i : Insn) : Nat := bitsOf i 90 6
def fidx (i : Insn) : Nat := bitsOf i 80 10
/-- Operand selector k, 0 to 5; selector 5 is the control field of a form C5 opcode. -/
def opSel (i : Insn) (k : Nat) : Nat := bitsOf i (2 + 13 * k) 13
def wdBit (i : Insn) : Bool := i.getLsbD 1
def swBit (i : Insn) : Bool := i.getLsbD 0

/-- Opcodes of Table 3.2. -/
inductive Op where
  | nop | eval | evalx | copy | send | hsend | madr | mwd | mrd | qput | qget | wset | wwait | probe | brk
  deriving DecidableEq, Repr

/-- The operation of an opcode value; none when it is reserved (R60). -/
def opOf (v : Nat) : Option Op :=
  match v with
  | 0x00 => some .nop | 0x01 => some .eval | 0x02 => some .evalx | 0x03 => some .copy
  | 0x08 => some .send | 0x09 => some .hsend
  | 0x10 => some .madr | 0x11 => some .mwd | 0x12 => some .mrd
  | 0x18 => some .qput | 0x19 => some .qget | 0x1A => some .wset | 0x1B => some .wwait
  | 0x20 => some .probe | 0x21 => some .brk
  | _ => none

/-- Operation of an instruction word; a reserved opcode executes as NOP (R61). -/
def insnOp (i : Insn) : Op := (opOf (opcode i)).getD .nop

/-- Control fields of form C5 opcodes (Table 3.3). -/
def ctlCommit (i : Insn) : Bool := i.getLsbD 79
def ctlBit (i : Insn) : Nat := bitsOf i 67 6
def ctlSendBuffer (i : Insn) : Nat := bitsOf i 73 5
def ctlStaging (i : Insn) : Nat := bitsOf i 77 2
def ctlQueue (i : Insn) : Nat := bitsOf i 73 4
def ctlWaymark (i : Insn) : Nat := bitsOf i 67 6
def ctlBreak (i : Insn) : Nat := bitsOf i 67 4

/-- The operand selectors an opcode reads (R62, R69 to R71): six for E6 and X, five for C5, one for COPY. -/
def readsOf (op : Op) : List Nat :=
  match op with
  | .nop => []
  | .copy => [0]
  | .eval | .evalx | .madr | .mrd => [0, 1, 2, 3, 4, 5]
  | _ => [0, 1, 2, 3, 4]

/-- The instruction word of BP `b` at step `t`. -/
def insnAt (c : Cluster) (b t : Nat) : Insn := look (fun _ => 0) c.imem (1024 * b + t)

/-- The BPs with a word other than 0 at step `t`, rising. -/
def bpsAt (c : Cluster) (t : Nat) : List Nat :=
  c.imem.filterMap fun x => if x.1 % 1024 = t then some (x.1 / 1024) else none

/-! ## Operand classes (Table 2.2) -/

/-- SYS values (Table 2.3). -/
def sysValue (s : State) (c : Cluster) (k : Nat) : Bool :=
  if k = 1 then true
  else if 0x010 ≤ k ∧ k < 0x020 then s.sched.edges.getLsbD (k - 0x010)
  else if k = 0x020 then decide (1 ≤ s.sched.stageShown)
  else if k = 0x021 then decide (2 ≤ s.sched.stageShown)
  else if k = 0x022 then decide (3 ≤ s.sched.stageShown)
  else if k = 0x023 then decide (s.sched.stageShown < 3)
  else if 0x040 ≤ k ∧ k < 0x060 then c.legFirst.getLsbD (k - 0x040)
  else if 0x080 ≤ k ∧ k < 0x0C0 then s.sched.ec.getLsbD (k - 0x080)
  else false

/-- An enabled inbound queue (R82). -/
def inboundQueue (s : State) (n q : Nat) : Bool := bits s (R.cluQCfg n q) 30 2 == 2

/-- An enabled outbound queue (R82). -/
def outboundQueue (s : State) (n q : Nat) : Bool := bits s (R.cluQCfg n q) 30 2 == 3

/-- Places of a queue whose word has not come: a reservation is released as its word arrives (R47). -/
def openPlaces (q : Queue) : Nat := (q.places.filter fun x => x.word.isNone).length

/-- Words that a queue holds: the visible ones, and those that wait for an earlier place (R154). -/
def heldWords (q : Queue) : Nat := q.words.length + (q.places.length - openPlaces q)

/-- The head word of a queue as class Q reads it (R50). -/
def queueHead (q : Queue) : DWord := q.words.headD q.lastRemoved

/-- Entry t of BP b′ as class NBR reads it at step `st` (R29): an entry written by the step just executed, st − 1,
still reads its earlier value. -/
def nbrEntry (c : Cluster) (st b t : Nat) : Bool :=
  if st = t + 1 ∧ c.lastStep = some t then c.nbrOld.getLsbD b else entry c.cur b t

/-- The bit that operand selector `sel` reads for BP `b` of cluster `n` at step `st` (R32). Reserved index bits are
ignored. -/
def readOperand (s : State) (n : Nat) (c : Cluster) (b st sel : Nat) : Bool :=
  let ix := sel % 1024
  match sel / 1024 % 8 with
  | 0 => entry c.cur b ix
  | 1 => entry c.prev b ix
  | 2 => (c.way.getD (ix % 8) 0).getLsbD (ix / 8)
  | 3 => (dword c.slots (ix / 64)).getLsbD (ix % 64)
  | 4 => (dword c.laneRdata (ix / 128)).getLsbD (ix % 64)
  | 5 => inboundQueue s n (ix / 64) && (queueHead (queue c (ix / 64))).getLsbD (ix % 64)
  | 6 => sysValue s c ix
  | _ => nbrEntry c st (4 * (b / 4) + ix / 256) ((st + 1024 - 1 - ix % 256) % 1024)

/-- The lookup index over the first `m` selectors (R27, R62). -/
def lookupIndex (s : State) (n : Nat) (c : Cluster) (b st : Nat) (i : Insn) (m : Nat) : Nat :=
  (List.range m).foldl (fun acc k => acc + (readOperand s n c b st (opSel i k)).toNat <<< k) 0

/-- A truth-table lookup over `m` operands (R27, R62). -/
def tableResult (s : State) (n : Nat) (c : Cluster) (b st : Nat) (i : Insn) (m : Nat) : Bool :=
  (dword c.dict (fidx i)).getLsbD (lookupIndex s n c b st i m)

/-- The enabled force entry that names (b, st) with the lowest index (R54): its value. -/
def forced (c : Cluster) (b st : Nat) : Option Bool :=
  ((c.forces.filter fun x => x.2.getLsbD 31 && bitsOf x.2 10 9 == b && bitsOf x.2 0 10 == st).head?).map
    fun x => x.2.getLsbD 30

/-- The BPs that an enabled force entry names at step `st`. -/
def forcedBps (c : Cluster) (st : Nat) : List Nat :=
  (c.forces.filter fun x => x.2.getLsbD 31 && bitsOf x.2 0 10 == st).map fun x => bitsOf x.2 10 9

/-- The computed result of an instruction before any force entry (R69 to R71, R62). -/
def computed (s : State) (n : Nat) (c : Cluster) (b st : Nat) (i : Insn) : Bool :=
  match insnOp i with
  | .nop => false
  | .copy => readOperand s n c b st (opSel i 0) != (fidx i % 2 == 1)
  | .eval | .madr | .mrd => tableResult s n c b st i 6
  | .evalx =>
    if readOperand s n c b st (opSel i 5) then tableResult s n c b st i 5 else entry c.cur b st
  | _ => tableResult s n c b st i 5

/-- The result of an instruction, force entry applied (R54, R67). -/
def resultOf (s : State) (n : Nat) (c : Cluster) (b st : Nat) (i : Insn) : Bool :=
  (forced c b st).getD (computed s n c b st i)

/-- The operands an instruction reads, as (class, index). -/
def operandsOf (i : Insn) : List (Nat × Nat) :=
  (readsOf (insnOp i)).map fun k => (opSel i k / 1024 % 8, opSel i k % 1024)

end Sys2Proof.Machine
end

