-- ==== Sys2Proof/Machine/Banks.lean ====
section
/-! DEFINITION. The flat bits of a design bank, who owns its ports, and the accesses of memory lanes in one step
(R45, R46, R75 to R78, R191 to R201). -/
namespace Sys2Proof.Machine

/-- Aspect ratio of a bank; 7 acts as 6 (Table 8.1). -/
def bankAspect (s : State) (b : Nat) : Nat := min (bits s (R.bankCfg b) 0 3) 6

/-- Data width and address bits of a bank (Table 8.1). -/
def bankWidth (s : State) (b : Nat) : Nat := 2 ^ bankAspect s b
def bankAddrBits (s : State) (b : Nat) : Nat := 21 - bankAspect s b

/-- A true dual-port bank (R191). -/
def dualPort (b : Nat) : Bool := b % 16 == 14 || b % 16 == 15

/-- The bank exists and passed BIST (BANK_PRESENT). -/
def bankPresent (s : State) (b : Nat) : Bool := bit s (R.bankPresent (b / 32)) (b % 32)

/-- The bank is present and on (BANK_CFG.pwr_state), and so is the domain of its reach (R206). -/
def bankUsable (s : State) (b : Nat) : Bool :=
  bankPresent s b && domainOn s (b / 16) && bits s (R.bankCfg b) 28 2 == 0

/-- Contents of design bank `b`. -/
def designMem (s : State) (b : Nat) : Mem := look (fun _ => {}) s.banks.design b

/-- Replace the contents of design bank `b`. -/
def setDesignMem (s : State) (b : Nat) (m : Mem) : State :=
  { s with banks := { s.banks with design := put (fun _ => {}) s.banks.design b m } }

/-- `w` flat bits from bit `start` on (R192); `w` is a power of two up to 64 and `start` a multiple of it. -/
def readFlat (m : Mem) (start w : Nat) : Nat :=
  ofBytesLE (readBytes m (start / 8) (max 1 (w / 8))) >>> (start % 8) % 2 ^ w

/-- Write `w` flat bits. -/
def writeFlat (m : Mem) (start w v : Nat) : Mem :=
  let n := max 1 (w / 8)
  let old : BitVec 64 := BitVec.ofNat 64 (ofBytesLE (readBytes m (start / 8) n))
  writeBytes m (start / 8) (bytesLE n (withBits old (start % 8) w v).toNat)

/-- Owner code of port A (`false`) or B (`true`) of a bank (Table 8.2). -/
def ownerOf (s : State) (b : Nat) (port : Bool) : Nat := bits s (R.bankOwner b) (if port then 16 else 0) 8

/-- No handover of the port is in progress (R196). -/
def portOpen (s : State) (b : Nat) (port : Bool) : Bool :=
  !(s.banks.handovers.any fun h => h.bank == b && (if port then h.portB else h.portA))

/-- The party with an owner code accesses the bank through the port (R194, R197). -/
def ownsPort (s : State) (code b : Nat) (port : Bool) : Bool :=
  ownerOf s b port == code && portOpen s b port && (!port || dualPort b)

/-- The party owns a port of the bank through which it may access it now. -/
def ownsBank (s : State) (code b : Nat) : Bool := ownsPort s code b false || ownsPort s code b true

/-- Bank and port of lane `m` of cluster `n` (CLU_LANE_CFG). -/
def laneBank (s : State) (n m : Nat) : Nat := bits s (R.cluLaneCfg n m) 16 8
def lanePort (s : State) (n m : Nat) : Bool := bit s (R.cluLaneCfg n m) 12

/-- The lane is enabled and its cluster owns the port of a usable bank (R46). -/
def laneUsable (s : State) (n m : Nat) : Bool :=
  bit s (R.cluLaneCfg n m) 31 && bankUsable s (laneBank s n m) && ownsPort s n (laneBank s n m) (lanePort s n m)

/-- First flat bit that a lane's address register names; address bits above the bank's are ignored (R45). -/
def laneStart (s : State) (n : Nat) (c : Cluster) (m : Nat) : Nat :=
  let b := laneBank s n m
  (dword c.laneAddr m).toNat % 2 ^ bankAddrBits s b * bankWidth s b

/-- What a lane's read returns; bits at or above the width read 0 (R45), and so does an unusable lane (R46). -/
def laneRead (s : State) (n : Nat) (c : Cluster) (m : Nat) : DWord :=
  if laneUsable s n m then
    BitVec.ofNat 64 (readFlat (designMem s (laneBank s n m)) (laneStart s n c m) (bankWidth s (laneBank s n m)))
  else 0

/-- A lane's write of its write data register. -/
def laneWrite (n : Nat) (c : Cluster) (m : Nat) (s : State) : State :=
  let b := laneBank s n m
  setDesignMem s b (writeFlat (designMem s b) (laneStart s n c m) (bankWidth s b) (dword c.laneWdata m).toNat)

/-- An access that a party makes to a port it does not own: BANK_STATUS.not_owned and BANK_NOT_OWNED (R197). -/
def notOwned (b : Nat) (s : State) : State := signal (64 + b / 16) b (setBit s R.bankStatus 2 true)

/-- Number of usable lanes below `m` among `ls` that use the port of lane `m`: its place in the order of R198. -/
def servedAt (s : State) (n : Nat) (ls : List Nat) (m : Nat) : Nat :=
  (ls.filter fun x => x < m && laneBank s n x == laneBank s n m && lanePort s n x == lanePort s n m).length

/-- The periods a step owes for its bank conflicts: one less than the accesses of the busiest port (R198). -/
def conflictDebt (s : State) (n : Nat) (ls : List Nat) : Nat := ls.foldl (fun acc m => max acc (servedAt s n ls m)) 0

/-- The lane accesses of one step (R76 to R78, R198, R199, R201): `ws` the lanes with an enabled write, `rs` those
with an enabled read. A lane with both performs the write. Reads take the banks as they stood before the writes.
Writes take effect cycle by cycle, port B before port A, so that port A's data stand. Until release stage 2 writes
are suppressed and raise no fault. -/
def laneAccesses (n st : Nat) (ws rs : List Nat) (c : Cluster) (s : State) : Cluster × State :=
  let reads := (List.range 8).filter fun m => rs.contains m && !ws.contains m
  let all := (List.range 8).filter fun m => ws.contains m || rs.contains m
  let good := all.filter fun m => laneUsable s n m
  let mrds := reads.map fun m => (⟨m, st, laneRead s n c m⟩ : Mrd)
  let faulty := all.filter fun m => !laneUsable s n m && (decide (2 ≤ s.sched.stage) || !ws.contains m)
  let s1 := faulty.foldl (fun acc m => notOwned (laneBank s n m) acc) s
  let order := (List.range 8).flatMap fun k =>
    (good.filter fun m => ws.contains m && servedAt s n good m == k && lanePort s n m) ++
    (good.filter fun m => ws.contains m && servedAt s n good m == k && !lanePort s n m)
  let s2 := if 2 ≤ s.sched.stage then order.foldl (fun acc m => laneWrite n c m acc) s1 else s1
  let ready := reads.foldl (fun acc m => put (fun _ => 0) acc m (st + 6)) c.mrdReady
  ({ c with mrds := c.mrds ++ mrds, mrdReady := ready, bankDebt := conflictDebt s n good }, s2)

end Sys2Proof.Machine
end

