-- ==== Sys2Proof/Machine/Net.lean ====
section
/-! DEFINITION. The mesh: endpoints, head flits, packets, routers and packet probes (chapter 6). -/
namespace Sys2Proof.Machine

/-! ## Endpoints (Table 6.2) -/

/-- Router index of service router `k`. -/
def serviceRouter (k : Nat) : Nat := [24, 96, 35, 107, 4, 7, 136, 139].getD k 0

/-- Router of the physical cluster that serves logical cluster `n` (CLUSTER_MAP). -/
def routerOfCluster (s : State) (n : Nat) : Nat := s.die.routerOf.getD (physicalOf s n) 0

/-- Router of NI `i` (chapter 6, "Routers, endpoints and network interfaces"). -/
def routerOfNi (s : State) (i : Nat) : Nat := if i < 128 then routerOfCluster s i else serviceRouter (i - 128)

/-- The NI that router `r` joins; none for a cluster router that serves no logical cluster. -/
def niOfRouter (s : State) (r : Nat) : Option Nat := ((List.range 136).filter fun i => routerOfNi s i == r).head?

/-- Lowest lane and width of a link (CW_LINK_CFG). -/
def linkWidth (s : State) (l : Nat) : Nat := bits s (R.cwLinkCfg l) 20 4

/-- The NI that serves an endpoint (R132, Table 6.2); none for a reserved endpoint. -/
def niOfEndpoint (s : State) (e : Nat) : Option Nat :=
  if e < 128 then some e
  else if e < 148 then some (128 + linkBase s (e - 128) / 4 / 5)
  else if e < 150 then some 132
  else if e < 152 then some 133
  else if e < 154 then some 134
  else if e < 157 then some 135
  else none

/-- The unit domain behind an endpoint (R152); none when it lies in the always-on domain. -/
def endpointDomain (s : State) (e : Nat) : Option Nat :=
  if e < 128 then some (domainOfCluster s e)
  else if e < 148 then some (20 + linkBase s (e - 128) / 16)
  else if e < 152 then some (16 + (e - 148))
  else if e = 152 then some 26
  else if e = 156 then some 25
  else none

/-! ## Head flits (Table 6.3) -/

/-- CRC-8 of bits [255:136] (R134). -/
def headCrc (h : BitVec 256) : Byte := crc8 ((List.range 15).map fun i => BitVec.ofNat 8 (bitsOf h (248 - 8 * i) 8))

/-- The head flit with its CRC written. -/
def sealHead (h : BitVec 256) : BitVec 256 := withBits h 128 8 (headCrc (withBits h 128 8 0)).toNat

def headVc (h : BitVec 256) : Nat := bitsOf h 254 2
def headKind (h : BitVec 256) : Nat := bitsOf h 250 4
def headHops (h : BitVec 256) : Nat := bitsOf h 245 5
def headHopIdx (h : BitVec 256) : Nat := bitsOf h 240 5
def headCode (h : BitVec 256) (i : Nat) : Nat := bitsOf h (174 + 3 * i) 3
def headSrc (h : BitVec 256) : Nat := bitsOf h 166 8
def headDst (h : BitVec 256) : Nat := bitsOf h 158 8
def headTag (h : BitVec 256) : Nat := bitsOf h 150 8
def headRespQ (h : BitVec 256) : Nat := bitsOf h 146 4
def headLen (h : BitVec 256) : Nat := bitsOf h 141 5
def headDstHold (h : BitVec 256) : Nat := bitsOf h 136 5

/-- Body flits that `words` payload words need beyond the two of the head flit (R133). -/
def bodyFlits (words : Nat) : Nat := ceilDiv (words - 2) 4

/-- A packet: head fields and payload words. -/
def mkPacket (vc kind : Nat) (codes : List Nat) (src dst tag respQ dstHold : Nat) (payload : List DWord) : Packet :=
  let route := (codes.zipIdx).foldl (fun acc x => acc + x.1 <<< (3 * x.2)) 0
  let h : BitVec 256 := BitVec.ofNat 256
    (vc <<< 254 + kind <<< 250 + codes.length <<< 245 + route <<< 174 + src <<< 166 + dst <<< 158 + tag <<< 150 +
      respQ <<< 146 + bodyFlits payload.length <<< 141 + dstHold <<< 136 + (payload.getD 1 0).toNat <<< 64 +
      (payload.getD 0 0).toNat)
  ⟨sealHead h, payload⟩

/-- The sideband parity bit makes vc, head, tail and parity even. -/
def sideParity (vc : Nat) (head tail : Bool) : Bool := (vc / 2 % 2 + vc % 2 + head.toNat + tail.toNat) % 2 == 1

/-- The flits of a packet (R133). -/
def packetFlits (p : Packet) : List Flit :=
  let vc := headVc p.head
  let n := headLen p.head
  let first : Flit := ⟨p.head, vc, true, n == 0, sideParity vc true (n == 0), false, 0⟩
  first :: (List.range n).map fun i =>
    let w := fun k => (p.payload.getD (2 + 4 * i + k) 0).toNat
    ⟨BitVec.ofNat 256 (w 0 + w 1 <<< 64 + w 2 <<< 128 + w 3 <<< 192), vc, false, i + 1 == n,
      sideParity vc false (i + 1 == n), false, 0⟩

/-- The payload words of collected flits: 2 of the head flit and 4 of each body flit. -/
def payloadOf (fs : List Flit) : List DWord :=
  fs.flatMap fun f => (List.range (if f.head then 2 else 4)).map fun k => BitVec.ofNat 64 (bitsOf f.data (64 * k) 64)

/-- The route of a response: the request's in reverse order, each code replaced by its opposite (R138). -/
def reverseRoute (h : BitVec 256) : List Nat :=
  ((List.range (headHops h)).map fun i => headCode h i ^^^ 1).reverse

/-- Hop codes in the order of R138: x hops first, on VC2 y hops first. -/
def orderCodes (vc : Nat) (codes : List Nat) : List Nat :=
  let xs := codes.filter fun c => decide (c < 2)
  let ys := codes.filter fun c => decide (2 ≤ c)
  if vc = 2 then ys ++ xs else xs ++ ys

/-- Hop codes from router `a` to router `b` (R138). -/
def hopCodes (vc a b : Nat) : List Nat :=
  orderCodes vc (List.replicate (b % 12 - a % 12) 0 ++ List.replicate (a % 12 - b % 12) 1 ++
    List.replicate (b / 12 - a / 12) 2 ++ List.replicate (a / 12 - b / 12) 3)

/-! ## Route tables (R137 to R141, R425) -/

/-- Hop code `i` of entry `e` of NI `n`'s table. -/
def routeCode (s : State) (n e i : Nat) : Nat :=
  if i < 10 then bits s (R.wfRt1 n e) (3 * i) 3
  else if i < 20 then bits s (R.wfRt2 n e) (3 * (i - 10)) 3
  else bits s (R.wfRt3 n e) (3 * (i - 20)) 3

/-- The hop codes of an entry. -/
def routeCodes (s : State) (n e : Nat) : List Nat :=
  (List.range (bits s (R.wfRt0 n e) 24 5)).map fun i => routeCode s n e i

def routeValid (s : State) (n e : Nat) : Bool := bit s (R.wfRt0 n e) 31
def routeVc (s : State) (n e : Nat) : Nat := bits s (R.wfRt0 n e) 29 2
def routeDst (s : State) (n e : Nat) : Nat := bits s (R.wfRt0 n e) 16 8
def routeTag (s : State) (n e : Nat) : Nat := bits s (R.wfRt0 n e) 8 8
def routePad (s : State) (n e : Nat) : Nat := bits s (R.wfRt3 n e) 16 5
def routePadSrc (s : State) (n e : Nat) : Nat := bits s (R.wfRt3 n e) 8 5

/-- An entry that a buffer may use: valid, VC0, dst at most 147 (R425). -/
def bufferRouteOk (s : State) (n e : Nat) : Bool := routeValid s n e && routeVc s n e == 0 && decide (routeDst s n e ≤ 147)

/-- An entry that an outbound queue may use: valid, VC1 (R425). -/
def queueRouteOk (s : State) (n e : Nat) : Bool := routeValid s n e && routeVc s n e == 1

/-- Next mesh position in direction `code`; none when the route leaves the mesh. -/
def hopFrom (r code : Nat) : Option Nat :=
  let x := r % 12
  let y := r / 12
  match code with
  | 0 => if x + 1 < 12 then some (r + 1) else none
  | 1 => if 0 < x then some (r - 1) else none
  | 2 => if y + 1 < 12 then some (r + 12) else none
  | 3 => if 0 < y then some (r - 12) else none
  | _ => none

/-- Where a route ends; none when it leaves the mesh or holds a reserved code. -/
def routeEnd : List Nat → Nat → Option Nat
  | [], r => some r
  | c :: rest, r => (hopFrom r c).bind (routeEnd rest)

/-- The order of R138: x before y, on VC2 y before x. -/
def routeOrdered (vc : Nat) (codes : List Nat) : Bool :=
  let first := fun c => if vc = 2 then 2 ≤ c else decide (c < 2)
  (codes.dropWhile first).all fun c => !first c

/-- The check of R140 on an entry whose word 0 is `w0`. -/
def routeCheck (s : State) (n e : Nat) (w0 : Word) : Bool :=
  let hops := bitsOf w0 24 5
  let vc := bitsOf w0 29 2
  let dst := bitsOf w0 16 8
  let codes := (List.range (min hops 22)).map fun i => routeCode s n e i
  decide (hops ≤ 22) && codes.all (fun c => decide (c < 4)) &&
    ((List.range 22).all fun i => decide (i < hops) || routeCode s n e i == 0) &&
    routeOrdered vc codes &&
    (match niOfEndpoint s dst with
      | some d => routeEnd codes (routerOfNi s n) == some (routerOfNi s d)
      | none => false) &&
    decide (routePad s n e ≤ 16) && decide (routePadSrc s n e ≤ routePad s n e) &&
    (vc != 0 || decide (dst ≤ 147))

/-! ## Delays of VC0 words (R113, R115, R117, R147) -/

/-- Logical Manhattan distance of two clusters: cluster n stands at (n mod 16, n div 16). -/
def distance (a b : Nat) : Nat := (a % 16 - b % 16) + (b % 16 - a % 16) + (a / 16 - b / 16) + (b / 16 - a / 16)

/-- Attachment point of a link as if it were a cluster (R117, Table 5.3). -/
def attachPoint (s : State) (l : Nat) : Nat :=
  let q := linkBase s l / 4
  16 * (q % 10 * 8 / 10) + (if q < 10 then 0 else 15)

/-- Padded delay of a distance (Table 5.2). -/
def paddedDelay (s : State) (d : Nat) : Nat := 2 + (if s.die.b0 then 2 else 3) * d

/-- Logical place of an endpoint that a VC0 word goes to. -/
def placeOf (s : State) (e : Nat) : Nat := if e < 128 then e else attachPoint s (e - 128)

/-- Logical place where the words of NI `i` start: its cluster, or the attachment point of its lowest link. -/
def placeOfNi (s : State) (i : Nat) : Nat :=
  if i < 128 then i
  else (((List.range 20).find? fun l => niOfEndpoint s (128 + l) == some i).map (attachPoint s)).getD 0

/-- e(f, h) of R147 for a word of NI `i` to endpoint `dst`: periods from its entry into the local input to its arrival at the
output of hop `h`. At the last output, that of the local port, it is the unpadded delay of the route, which lies within 16
periods of the padded one (R115). -/
def hopTime (s : State) (i dst : Nat) (codes : List Nat) (h : Nat) : Nat :=
  let free := ((List.range (h + 1)).map fun k => Config.hopDelay s.die.b0 (routerOfNi s i) codes k).sum
  let d := paddedDelay s (distance (placeOfNi s i) (placeOf s dst))
  if h < codes.length then min free d else max (d - 16) (min free d)

/-- The periods that a VC0 head takes from the input of a router to its output there (R115, R147). -/
def hopPeriods (s : State) (h : BitVec 256) : Nat :=
  let t := hopTime s ((niOfEndpoint s (headSrc h)).getD 0) (headDst h) ((List.range (headHops h)).map (headCode h))
  if headHopIdx h = 0 then t 0 else t (headHopIdx h) - t (headHopIdx h - 1)

/-! ## Sending -/

/-- Key of an input buffer or an output lock. -/
def vcKey (r port vc : Nat) : Nat := (r * 5 + port) * 4 + vc

/-- Flits in an input buffer. -/
def bufferAt (s : State) (k : Nat) : List Flit := look (fun _ => []) s.net.buffers k

/-- Replace an input buffer. -/
def setBuffer (s : State) (k : Nat) (fs : List Flit) : State :=
  { s with net := { s.net with buffers := put (fun _ => []) s.net.buffers k fs } }

/-- Periods that router `r` has counted. -/
def routerPeriods (s : State) (r : Nat) : Nat := look (fun _ => 0) s.net.periods r

/-- A packet probe's match (R155). -/
def probeMatches (s : State) (p : Nat) (h : BitVec 256) : Bool :=
  let m := reg s (R.wfProbeMatch p)
  bit s (R.wfProbeCfg p) (12 + headVc h) &&
    (bit s (R.wfProbeCfg p) 7 || headKind h == bits s (R.wfProbeCfg p) 8 4) &&
    ((headSrc h ^^^ bitsOf m 24 8) &&& bitsOf m 8 8 == 0) &&
    ((headDst h ^^^ bitsOf m 16 8) &&& bitsOf m 0 8 == 0)

/-- The trace record of a head flit (Table 6.6). -/
def probeRecord (s : State) (p : Nat) (h : BitVec 256) : ProbeRecord :=
  ⟨BitVec.ofNat 32 (p <<< 27 + headVc h <<< 25 + headKind h <<< 21 + headLen h <<< 16 + headSrc h <<< 8 + headDst h),
   BitVec.ofNat 32 (headTag h <<< 24), timeLow s, s.sched.ec.setWidth 32⟩

/-- Probe `p` makes a trace record: held, or lost when four are held (R156). -/
def holdRecord (p : Nat) (h : BitVec 256) (s : State) : State :=
  let held := look (fun _ => []) s.net.probeHold p
  if !bit s R.wfPtraceCtrl 31 then s
  else if held.length < 4 then
    { s with net := { s.net with probeHold := put (fun _ => []) s.net.probeHold p (held ++ [probeRecord s p h]) } }
  else bumpBits s R.wfPtraceCtrl 0 16 1

/-- Probe `p` sees a head flit at one side of a port of router `r` (R155). -/
def probeSees (r port : Nat) (input : Bool) (h : BitVec 256) (p : Nat) (s : State) : State :=
  let cfg := reg s (R.wfProbeCfg p)
  if bitsOf cfg 16 8 = r ∧ bitsOf cfg 26 3 = port ∧ cfg.getLsbD 29 = input then
    match bitsOf cfg 30 2 with
    | 0 => s
    | 1 => bumpBits s (R.wfProbeCnt p) 0 32 1
    | 2 => if probeMatches s p h then bumpBits s (R.wfProbeCnt p) 0 32 1 else s
    | _ => if probeMatches s p h then holdRecord p h (bumpBits s (R.wfProbeCnt p) 0 32 1) else s
  else s

/-- Every probe that watches the port sees the flit, when it is a head flit. -/
def probesSee (r port : Nat) (input : Bool) (f : Flit) (s : State) : State :=
  if f.head then
    ((listed s (R.wfProbeCfg 0) 128).filterMap fun x => if x.1 % 4 = 0 then some (x.1 / 4) else none).foldl
      (fun acc p => probeSees r port input f.data p acc) s
  else s

/-! ## Routers -/

/-- WF_HDR_ERR records an error (R135, R136). -/
def headerError (r port vc cause : Nat) (s : State) : State :=
  setReg s R.wfHdrErr (BitVec.ofNat 32
    (r <<< 24 + port <<< 21 + vc <<< 19 + cause <<< 16 + satAdd 16 (bits s R.wfHdrErr 0 16) 1))

/-- A flit as it stands at an input of router `r`: the head of a VC0 word is at its output after the periods that its route
gives this hop (R115, R147). -/
def timedFlit (s : State) (r : Nat) (f : Flit) : Flit :=
  if f.head ∧ f.vc = 0 then { f with ready := routerPeriods s r + hopPeriods s f.data } else f

/-- A flit reaches an input of router `r` (R135): parity and head CRC are checked, and a bad one is discarded, with a
head flit the whole packet. -/
def arriveAt (r port : Nat) (f : Flit) (s : State) : State :=
  let k := vcKey r port f.vc
  let dis := s.net.discarding.contains k
  let setDis := fun (on : Bool) (s : State) =>
    { s with net := { s.net with discarding :=
        if on then (if s.net.discarding.contains k then s.net.discarding else k :: s.net.discarding)
        else s.net.discarding.filter (· ≠ k) } }
  let timed := timedFlit s r f
  let s := probesSee r port true f s
  if sideParity f.vc f.head f.tail != f.parity then
    setDis ((f.head || dis) && !f.tail) (headerError r port f.vc 2 (signal 220 r (setBit s R.wfStatus 2 true)))
  else if f.head ∧ sealHead f.data ≠ f.data then
    setDis (!f.tail) (headerError r port f.vc 1 (signal 219 r (setBit s R.wfStatus 1 true)))
  else if dis ∧ ¬ f.head then setDis (!f.tail) s
  else setDis false (setBuffer s k (bufferAt s k ++ [timed]))

/-- An NI enters a packet into the local input of its router, which checks its flits as any input does (R135). -/
def inject (i : Nat) (p : Packet) (s : State) : State :=
  (packetFlits p).foldl (fun acc f => arriveAt (routerOfNi s i) 0 f acc) s

/-- NI `i` sends the answer to a request packet on VC2 (R138): kind 2 with data, 3 or 4; resp_q and tag bits [7:6] are 0
(Table 6.3). -/
def respond (i : Nat) (request : Packet) (kind : Nat) (payload : List DWord) (s : State) : State :=
  inject i (mkPacket 2 kind (reverseRoute request.head) (headDst request.head) (headSrc request.head)
    (headTag request.head % 64) 0 0 payload) s

/-- A launch of buffer word `w` by NI `n` through route entry `e` (R38, R145, R425). -/
def launch (n e : Nat) (w : DWord) (s : State) : State :=
  if bufferRouteOk s n e then
    let p := mkPacket 0 0 (routeCodes s n e) n (routeDst s n e) (routeTag s n e) 0 (routePad s n e - routePadSrc s n e) [w]
    let x := ni s n
    setNi s n { x with sourceHold := x.sourceHold ++ [⟨p, routerPeriods s (routerOfNi s n) + routePadSrc s n e⟩] }
  else signal 221 n s

/-- A flit leaves the local port of router `r` to its NI, which collects packets as far as the tail. -/
def ejectAt (r : Nat) (f : Flit) (s : State) : State :=
  match niOfRouter s r with
  | none => s
  | some i =>
    let x := ni s i
    let got := look (fun _ => []) x.partialIn f.vc ++ [f]
    if f.tail then
      match got with
      | [] => s
      | h :: _ =>
        setNi s i { x with
          partialIn := put (fun _ => []) x.partialIn f.vc []
          arrived := x.arrived ++ [⟨h.data, payloadOf got⟩] }
    else setNi s i { x with partialIn := put (fun _ => []) x.partialIn f.vc got }

/-- The output that a head flit asks for: the local port at the end of its route, else its next hop code plus 1. A reserved code
4 to 7 is taken modulo 4: DESIGN CHOICE, unsafe (log entry 117). -/
def outputOf (h : BitVec 256) : Nat := if headHopIdx h = headHops h then 0 else headCode h (headHopIdx h) % 4 + 1

/-- Router and input port at the far end of an output. -/
def neighbour (r o : Nat) : Option (Nat × Nat) :=
  (hopFrom r (o - 1)).map fun r' => (r', [0, 2, 1, 4, 3].getD o 0)

/-- WF_RTR_STATUS: router in drain or in reset (R151). -/
def routerDraining (s : State) (r : Nat) : Bool := bit s (R.wfRtrStatus r) 30
def routerInReset (s : State) (r : Nat) : Bool := bit s (R.wfRtrStatus r) 31

/-- The output has a credit for a flit of `vc`, and its router accepts it (R142, R151). -/
def outputReady (s : State) (r o : Nat) (f : Flit) : Bool :=
  if o = 0 then true
  else match neighbour r o with
    | none => false
    | some (r', p') =>
      decide ((bufferAt s (vcKey r' p' f.vc)).length < (if f.vc = 0 then 4 else 8)) && !routerInReset s r' &&
        !(f.head && routerDraining s r')

/-- The input that holds an output on a virtual channel (R142). -/
def lockedBy (s : State) (r o vc : Nat) : Option Nat :=
  match look (fun _ => 0) s.net.locks (vcKey r o vc) with
  | 0 => none
  | i + 1 => some i

/-- The flit that input `i` offers to output `o` on `vc`: a body flit of the packet in progress, else a head flit that
asks for the output while no packet is in progress. A router in drain takes no new head from its NI (R151). -/
def offers (s : State) (r o vc i : Nat) : Option Flit :=
  match bufferAt s (vcKey r i vc) with
  | [] => none
  | f :: _ =>
    match lockedBy s r o vc with
    | some j => if i = j ∧ ¬ f.head ∧ outputReady s r o f then some f else none
    | none =>
      if f.head ∧ f.ready ≤ routerPeriods s r ∧ outputOf f.data = o ∧ outputReady s r o f ∧ ¬ (i = 0 ∧ routerDraining s r) then some f else none

/-- The inputs in round-robin order after the one chosen last (R142). -/
def inputOrder (s : State) (r o vc : Nat) : List Nat :=
  (List.range 5).map fun k => (look (fun _ => 4) s.net.lastInput (vcKey r o vc) + 1 + k) % 5

/-- Wheel position of router `r` (R144). -/
def wheelAt (s : State) (r : Nat) : Nat := look (fun _ => 0) s.net.wheel r

/-- Owner of position `q` of an output's active wheel; none when it is free (R144; values 5 to 7 act as free). -/
def slotOwner (s : State) (r o q : Nat) : Option Nat :=
  let w := bits s (R.wfSlot r o s.net.activeBank.toNat (q / 8)) (4 * (q % 8)) 4
  if 8 ≤ w ∧ w % 8 < 5 then some (w % 8) else none

/-- No position from `q` to the end of this turn of the wheel is owned by input `i` (R146). -/
def slotsPassed (s : State) (r o i q : Nat) : Bool :=
  (List.range 64).all fun p => decide (p < q) || slotOwner s r o p != some i

/-- A VC0 flit that input `i` offers and whose own slot has passed (R146). -/
def lateFlit (s : State) (r o i q : Nat) : Bool :=
  match offers s r o 0 i with
  | none => false
  | some f => f.late || slotsPassed s r o i q

/-- The input and virtual channel that output `o` serves in this period (R142, R146, R147). -/
def chooseFlit (s : State) (r o : Nat) : Option (Nat × Nat) :=
  let q := wheelAt s r
  let own := slotOwner s r o q
  let vc0 : Option Nat :=
    match own with
    | some i => if (offers s r o 0 i).isSome then some i else none
    | none => ((inputOrder s r o 0).filter fun i => lateFlit s r o i q).head?
  match vc0 with
  | some i => some (i, 0)
  | none =>
    let best := fun vc => (((inputOrder s r o vc).filter fun i => (offers s r o vc i).isSome).head?).map fun i => (i, vc)
    let pair := if look (fun _ => false) s.net.lastBest (r * 5 + o) then [2, 3, 1] else [2, 1, 3]
    (pair.filterMap best).head?

/-- Mark the VC0 flits that wait at an input after their own slots have passed (R146). One refused at position 63, the last
of the turn, is not marked: the next turn gives its own positions again: DESIGN CHOICE, unsafe (log entry 105). -/
def markLate (r i : Nat) (s : State) : State :=
  match bufferAt s (vcKey r i 0) with
  | [] => s
  | f :: rest =>
    if f.head ∧ f.ready ≤ routerPeriods s r ∧ slotsPassed s r (outputOf f.data) i (wheelAt s r) then
      setBuffer s (vcKey r i 0) ({ f with late := true } :: rest)
    else s

/-- A head flit after its hop code has been used: hop_idx rises and the CRC is new (R135). -/
def usedHop (f : Flit) : Flit :=
  if f.head then { f with data := sealHead (withBits f.data 240 5 (headHopIdx f.data + 1)), late := false } else f

/-- Output `o` of router `r` sends the front flit of an input. -/
def sendFlit (r o i vc : Nat) (s : State) : State :=
  match bufferAt s (vcKey r i vc) with
  | [] => s
  | f :: rest =>
    let s := setBuffer s (vcKey r i vc) rest
    let s := { s with net := { s.net with
      locks := put (fun _ => 0) s.net.locks (vcKey r o vc) (if f.tail then 0 else i + 1)
      lastInput := put (fun _ => 4) s.net.lastInput (vcKey r o vc) i
      lastBest := if vc = 1 ∨ vc = 3 then put (fun _ => false) s.net.lastBest (r * 5 + o) (vc == 1) else s.net.lastBest } }
    let s := probesSee r o false f s
    if o = 0 then ejectAt r f s
    else match neighbour r o with
      | none => s
      | some (r', p') => arriveAt r' p' (usedHop f) s

/-- One period of router `r`: every output chooses by the state at its start and sends, then the wheel advances
(R142, R144). A router in reset sends nothing (R151). -/
def routerPeriod (r : Nat) (s : State) : State :=
  let choices := (List.range 5).filterMap fun o => (chooseFlit s r o).map fun x => (o, x.1, x.2)
  let s1 := if routerInReset s r then s else choices.foldl (fun acc x => sendFlit r x.1 x.2.1 x.2.2 acc) s
  let s2 := (List.range 5).foldl (fun acc i => markLate r i acc) s1
  { s2 with net := { s2.net with
      periods := put (fun _ => 0) s2.net.periods r (routerPeriods s2 r + 1)
      wheel := if s2.net.wheelsStopped then s2.net.wheel
        else put (fun _ => 0) s2.net.wheel r ((wheelAt s2 r + 1) % 64) } }

/-- Every wheel takes position start mod 64 at a leg decision and runs (R144). -/
def setWheels (start : Nat) (s : State) : State :=
  let wheel := (List.range 144).foldl (fun acc r => put (fun _ => 0) acc r (start % 64)) s.net.wheel
  { s with net := { s.net with wheelsStopped := false, wheel := wheel } }

end Sys2Proof.Machine
end

