-- ==== Sys2Proof/Machine/Flags.lean ====
section
/-! DEFINITION. The flag computations of a cluster's step: swell reports (R30, R64, R93), stall conditions (Table
5.5), resource misuse (R82), hazards (Table 5.6), and the flags that registers show. -/
namespace Sys2Proof.Machine

/-- The words of step `st`: every BP with a word other than 0, and every BP that an enabled force names. -/
def stepWords (c : Cluster) (st : Nat) : List (Nat × Insn) :=
  (inOrder (bpsAt c st ++ forcedBps c st)).map fun b => (b, insnAt c b st)

/-! ## Swell -/

/-- Legs below K, as a mask: a map bit of a leg at or above K has no effect (R93). -/
def legMask (s : State) : BitVec 32 := BitVec.ofNat 32 (2 ^ legCount s - 1)

/-- Set swell flags. -/
def addSwell (s : State) (flags : BitVec 32) (c : Cluster) : Cluster := { c with swell := c.swell ||| (flags &&& legMask s) }

/-- At least one BP of the step reports a difference (R64, R93): a result with sw = 1 that differs from entry `st` of
the previous bank (R30). A forced NOP makes no comparison (R54). -/
def swellReport (c : Cluster) (st : Nat) (results : List (Nat × Insn × Bool)) : Bool :=
  results.any fun x => insnOp x.2.1 != .nop && swBit x.2.1 && x.2.2 != entry c.prev x.1 st

/-- Swell flag `k` is set in at least one cluster of a running reach (R96). -/
def swellAny (s : State) (k : Nat) : Bool := (runningClusters s).any fun n => (clu s n).swell.getLsbD k

/-! ## Stalls (Table 5.5) -/

/-- Why a step does not execute at an edge. -/
inductive StallCause where
  | inbound
  | waymark (k : Nat)
  | queueFull
  | requestBound
  | fifoFull
  deriving DecidableEq, Repr

/-- An operand of the instruction reads an inbound slot that awaits a word (R40). -/
def readsLate (s : State) (n : Nat) (c : Cluster) (st : Nat) (i : Insn) : Bool :=
  (operandsOf i).any fun x => x.1 == 3 && !(awaited s n c (x.2 / 64) st).isEmpty

/-- The result of an instruction of the present step; that of a WSET was fixed when it armed (R65). -/
def presentResult (s : State) (n : Nat) (c : Cluster) (st b : Nat) (i : Insn) : Bool :=
  match (c.armed.getD []).lookup b with
  | some r => if insnOp i = .wset then r else resultOf s n c b st i
  | none => resultOf s n c b st i

/-- A waymark is in use (CLU_WM_CFG.en). -/
def waymarkEnabled (s : State) (n k : Nat) : Bool := bit s (R.cluWmCfg n k) 31

/-- The NI has 64 outstanding requests and a request waits at the head of a source (R48, R153). -/
def requestBound (s : State) (n : Nat) (c : Cluster) : Bool :=
  decide (64 ≤ (ni s n).outstanding.length) &&
    (!c.sendFifo.isEmpty || (List.range 16).any fun q => outboundQueue s n q && !(queue c q).words.isEmpty)

/-- The stall conditions of step `st`, evaluated on the state at this edge (R65, R424). A step with several HSEND commits
waits until the send FIFO has room for all of its messages: DESIGN CHOICE, unsafe (log entry 65), since R74 speaks of
one commit and a full FIFO. The bound of 512 queue words stalls a step whose QPUT finds its queue full, and no other step: R48
and R124 name no steps (DESIGN CHOICE, unsafe, log entry 103). -/
def stallCauses (s : State) (n : Nat) (c : Cluster) (st : Nat) (ws : List (Nat × Insn)) : List StallCause :=
  let late := if ws.any fun x => readsLate s n c st x.2 then [.inbound] else []
  let on := fun (x : Nat × Insn) => presentResult s n c st x.1 x.2
  let waits := ws.filterMap fun x =>
    if insnOp x.2 = .wwait ∧ waymarkEnabled s n (ctlWaymark x.2) ∧ !(waymark c (ctlWaymark x.2)).isSet ∧ on x
    then some (.waymark (ctlWaymark x.2)) else none
  let full := if ws.any fun x => insnOp x.2 == .qput && ctlCommit x.2 && outboundQueue s n (ctlQueue x.2) &&
      decide (32 ≤ (queue c (ctlQueue x.2)).words.length) && on x then [.queueFull] else []
  let sends := ((ws.filter fun x => insnOp x.2 == .hsend && ctlCommit x.2 && on x).map fun x => ctlStaging x.2).dedup
  let fifo := if sends ≠ [] ∧ 8 < c.sendFifo.length + sends.length then [.fifoFull] else []
  let bound := if requestBound s n c then [.requestBound] else []
  late ++ waits ++ full ++ fifo ++ bound

/-! ## Resource misuse (R82) -/

/-- The instruction names a queue or waymark that is not configured for its use. -/
def misuses (s : State) (n : Nat) (i : Insn) : Bool :=
  (match insnOp i with
    | .qput => !outboundQueue s n (ctlQueue i)
    | .qget => !inboundQueue s n (ctlQueue i)
    | .wset | .wwait => !waymarkEnabled s n (ctlWaymark i)
    | _ => false) || (operandsOf i).any fun x => x.1 == 5 && !inboundQueue s n (x.2 / 64)

/-! ## Hazards (Table 5.6) -/

/-- Hazards of one operand read: kind, if any. -/
def operandHazard (s : State) (n : Nat) (c : Cluster) (st : Nat) (x : Nat × Nat) : Option Nat :=
  match x.1 with
  | 0 => if st ≤ x.2 then some 2 else none
  | 3 => if (arrivals s n).all fun a => slotOf a.2 != x.2 / 64 || decide (st < deadlineOf a.2) then some 4 else none
  | 4 => if decide (st < look (fun _ => 0) c.mrdReady (x.2 / 128)) then some 3 else none
  | 5 => if inboundQueue s n (x.2 / 64) && (queue c (x.2 / 64)).words.isEmpty then some 5 else none
  | 7 => if x.2 % 256 = 0 then some 2 else none
  | _ => none

/-- The hazards of an executed step as (kind, BP): reads and QGETs by BP, then way tracks with two or more drivers,
each with its highest driver (R127, R128). The order of the hazards of one step, by which a log that fills takes them, is a
DESIGN CHOICE (log entry 90). -/
def hazardsOf (s : State) (n : Nat) (c : Cluster) (st : Nat) (results : List (Nat × Insn × Bool)) : List (Nat × Nat) :=
  let reads := results.flatMap fun x =>
    ((operandsOf x.2.1).filterMap fun o => operandHazard s n c st o).map (·, x.1) ++
    (if insnOp x.2.1 = .qget ∧ x.2.2 ∧ inboundQueue s n (ctlQueue x.2.1) ∧ (queue c (ctlQueue x.2.1)).words.isEmpty
     then [(5, x.1)] else [])
  let drivers := (results.filter fun x => insnOp x.2.1 != .nop && wdBit x.2.1).map (·.1)
  let way := (List.range 128).filterMap fun t =>
    let ds := drivers.filter fun b => b % 128 == t
    if 2 ≤ ds.length then some (1, ds.foldl max 0) else none
  (reads ++ way).filter fun h => bit s R.glbHazardCfg h.1

/-- The device counts and logs one hazard (R128). -/
def recordHazard (n st : Nat) (h : Nat × Nat) (s : State) : State :=
  let r : Hazard := ⟨h.1, n, h.2, st, s.sched.ec.toNat⟩
  let s := bumpBits s R.glbHazardCount 0 32 1
  let first := match s.sched.hazardFirst.find? (·.kind == h.1) with
    | none => r :: s.sched.hazardFirst
    | some f => if st < f.step ∨ (st = f.step ∧ n < f.cluster)
        then r :: s.sched.hazardFirst.filter (·.kind != h.1) else s.sched.hazardFirst
  let s := { s with sched := { s.sched with hazardFirst := first } }
  if s.sched.hazardLog.length < 16 then { s with sched := { s.sched with hazardLog := s.sched.hazardLog ++ [r] } }
  else setBit s R.glbHazardStatus 1 true

/-- Debug mode is in force (R126). -/
def debugMode (s : State) : Bool := bit s R.glbHazardCfg 0

/-! ## Walk flags -/

/-- The cluster has finished its walk (R102): every expected entry delivered and every issued MRD landed. -/
def walkDone (s : State) (n : Nat) (c : Cluster) : Bool :=
  c.mrds.isEmpty && (arrivals s n).all fun x => !expected s x.2 || c.delivered.contains x.1

end Sys2Proof.Machine
end

