-- ==== Sys2Proof/Machine/Cluster.lean ====
section
/-! DEFINITION. The commands of a cluster (chapters 2 and 3): a step-clock edge, landings, word arrivals, queue
appends and the waymark timeout. -/
namespace Sys2Proof.Machine

/-! ## Landings and slot writes -/

/-- A read's data lands in its lane's read data register (R77). -/
def landMrd (c : Cluster) (m : Mrd) : Cluster := { c with laneRdata := setDword c.laneRdata m.lane m.data }

/-- The reads due at step `t` land, in issue order (R65, R77). -/
def landDue (t : Nat) (c : Cluster) : Cluster :=
  let due := c.mrds.filter fun m => decide (m.step + 6 ≤ t)
  due.foldl landMrd { c with mrds := c.mrds.filter fun m => decide (t < m.step + 6) }

/-- Entry `e` writes `w` into its slot. -/
def writeSlot (e z : Nat) (w : DWord) (c : Cluster) : Cluster :=
  { c with slots := setDword c.slots z w, wrote := e :: c.wrote }

/-- The slot write of one entry at its deadline step (R40, R41). -/
def deadlineWrite (s : State) (x : Nat × Word) (c : Cluster) : Cluster :=
  if expected s x.2 then
    if c.delivered.contains x.1 then c
    else match find c.pending x.1 with
      | some w => writeSlot x.1 (slotOf x.2) w
          { c with pending := drop c.pending x.1, delivered := x.1 :: c.delivered }
      | none => c
  else if c.wrote.contains x.1 then c
  else writeSlot x.1 (slotOf x.2) (dword c.lastWord x.1) c

/-- Every read in flight lands, in issue order: before the first step of the next running leg (chapter 3, after R78). -/
def landAll (c : Cluster) : Cluster := c.mrds.foldl landMrd { c with mrds := [] }

/-- Landings and slot writes of step `t`, in the order of R65; entries in ascending index (R44). -/
def arriveStep (s : State) (n t : Nat) (c : Cluster) : Cluster :=
  ((arrivals s n).filter fun x => deadlineOf x.2 == t).foldl (fun acc x => deadlineWrite s x acc) (landDue t c)

/-! ## Bit writes -/

/-- The bits written in one step to one word take the OR of their writers (R66). -/
def orBits (w : DWord) (ws : List (Nat × Bool)) : DWord :=
  let cleared := ws.foldl (fun acc x => withBit acc x.1 false) w
  ws.foldl (fun acc x => if x.2 then withBit acc x.1 true else acc) cleared

/-- Apply the bit writes (target, bit, value) of one step to a small memory. -/
def applyBits (m : Sparse DWord) (ws : List (Nat × Nat × Bool)) : Sparse DWord :=
  ((ws.map (·.1)).dedup).foldl
    (fun acc k => setDword acc k (orBits (dword m k) ((ws.filter (·.1 == k)).map (·.2)))) m

/-- Results of a step: BP, word, result. -/
abbrev Results := List (Nat × Insn × Bool)

/-- The writes of the form C5 opcode `op` with commit 0, or of MADR, as (target, bit, value). -/
def bitWrites (s : State) (n : Nat) (op : Op) (rs : Results) : List (Nat × Nat × Bool) :=
  rs.filterMap fun x =>
    let i := x.2.1
    if insnOp i ≠ op then none
    else match op with
      | .send => some (ctlSendBuffer i, ctlBit i, x.2.2)
      | .hsend => if ctlCommit i then none else some (ctlStaging i, ctlBit i, x.2.2)
      | .madr => if x.1 % 64 ≤ 20 then some (x.1 / 64, x.1 % 64, x.2.2) else none
      | .mwd => if ctlCommit i then none else some (x.1 / 64, x.1 % 64, x.2.2)
      | .qput => if ctlCommit i ∨ ¬ outboundQueue s n (ctlQueue i) then none else some (ctlQueue i, ctlBit i, x.2.2)
      | _ => none

/-- The targets of the enabled commits or enables of opcode `op`, each once (R66). -/
def enabledTargets (op : Op) (commit : Bool) (target : Nat → Insn → Nat) (rs : Results) : List Nat :=
  inOrder ((rs.filter fun x => insnOp x.2.1 == op && (!commit || ctlCommit x.2.1) && x.2.2).map
    fun x => target x.1 x.2.1)

/-- Apply the bit writes of a step: SEND, HSEND, MADR, MWD and QPUT (R65). -/
def applyBitWrites (s : State) (n : Nat) (rs : Results) (c : Cluster) : Cluster :=
  let c := { c with
    obuf := applyBits c.obuf (bitWrites s n .send rs)
    staging := applyBits c.staging (bitWrites s n .hsend rs)
    laneAddr := applyBits c.laneAddr (bitWrites s n .madr rs)
    laneWdata := applyBits c.laneWdata (bitWrites s n .mwd rs) }
  let qs := bitWrites s n .qput rs
  ((qs.map (·.1)).dedup).foldl (fun acc q =>
    setQueue acc q { queue acc q with assembly := orBits (queue acc q).assembly ((qs.filter (·.1 == q)).map (·.2)) }) c

/-- QPUT commits append the assembly word of their queue (R79), HSEND commits their staging word to the send FIFO
(R73). Several HSEND commits of one step append in ascending number of their staging words: DESIGN CHOICE, unsafe (log
entry 65), since R73 gives them no order. -/
def applyCommits (s : State) (n : Nat) (rs : Results) (c : Cluster) : Cluster :=
  let c := (enabledTargets .qput true (fun _ i => ctlQueue i) rs).foldl (fun acc q =>
    if outboundQueue s n q then setQueue acc q { queue acc q with words := (queue acc q).words ++ [(queue acc q).assembly] }
    else acc) c
  (enabledTargets .hsend true (fun _ i => ctlStaging i) rs).foldl
    (fun acc h => { acc with sendFifo := acc.sendFifo ++ [dword acc.staging h] }) c

/-- QGET removes the head of inbound queue `q`; of an empty queue it removes nothing and sets underflow (R50, R80). -/
def popQueue (n q : Nat) (c : Cluster) (s : State) : Cluster × State :=
  match (queue c q).words with
  | [] => (c, setBit s (R.cluQStatus n q) 0 true)
  | w :: rest => (setQueue c q { queue c q with words := rest, lastRemoved := w }, s)

/-- The enabled QGETs of a step (R66, R80, R82). -/
def applyGets (n : Nat) (rs : Results) (c : Cluster) (s : State) : Cluster × State :=
  (enabledTargets .qget false (fun _ i => ctlQueue i) rs).foldl
    (fun acc q => if inboundQueue acc.2 n q then popQueue n q acc.1 acc.2 else acc) (c, s)

/-- An EVALX whose enable reads 0 and that no force names keeps its entry (R70): its result is that entry already. The
writes of the current bank, and the way tracks driven (R64, R35). Entry `st` of every BP is kept as it stood before (R29).
A misusing instruction drives and reports too, as R64 has it; R82 leaves it only the write: DESIGN CHOICE (log entry 100). -/
def writeResults (st : Nat) (rs : Results) (c : Cluster) : Cluster :=
  let old := c.cur.foldl (fun (acc : BitVec 512) x =>
    if x.1 % 1024 = st then withBit acc (x.1 / 1024) (entry c.cur (x.1 / 1024) st) else acc) 0
  let kept := fun (x : Nat × Insn × Bool) => insnOp x.2.1 == .nop && (forced c x.1 st).isNone
  let cur := rs.foldl (fun acc x => if kept x then acc else setEntry acc x.1 st x.2.2) c.cur
  let way := rs.foldl (fun (acc : BitVec 128) x =>
    if insnOp x.2.1 != .nop && wdBit x.2.1 && x.2.2 then withBit acc (x.1 % 128) true else acc) 0
  { c with cur := cur, way := (way :: c.way).take 8, lastStep := some st, nbrOld := old }

/-! ## Waymarks -/

/-- Words that set waymark `k`; values above 32 act as 32 (CLU_WM_CFG.count). -/
def waymarkCount (s : State) (n k : Nat) : Nat := min (bits s (R.cluWmCfg n k) 0 6) 32

/-- WSET arms waymark `k` (R51): it is cleared and counts from now on; a count of 0 sets it at once. -/
def armWaymark (s : State) (n k : Nat) (c : Cluster) : Cluster :=
  if waymarkEnabled s n k then
    setWaymark c k (if waymarkCount s n k = 0 then { isSet := true, left := none }
      else { isSet := false, left := some (waymarkCount s n k) })
  else c

/-- A word appended to inbound queue `q` counts toward every armed waymark bound to it (R51). -/
def countWord (s : State) (n q : Nat) (c : Cluster) : Cluster :=
  forUpTo 64 (fun k acc =>
    if waymarkEnabled s n k ∧ bits s (R.cluWmCfg n k) 16 4 = q then
      match (waymark acc k).left with
      | some 1 => setWaymark acc k { isSet := true, left := none }
      | some (m + 2) => setWaymark acc k { isSet := false, left := some (m + 1) }
      | _ => acc
    else acc) c

/-- A word is appended to an inbound queue and becomes visible (R49, R51, R154). -/
def appendWord (s : State) (n q : Nat) (w : DWord) (c : Cluster) : Cluster :=
  countWord s n q (setQueue c q { queue c q with words := (queue c q).words ++ [w] })

/-- Filled places at the front of a queue's reservations become visible (R154). -/
def showPlaces (s : State) (n q : Nat) : Nat → Cluster → Cluster
  | 0, c => c
  | m + 1, c =>
    match (queue c q).places with
    | ⟨_, some w⟩ :: rest => showPlaces s n q m (appendWord s n q w (setQueue c q { queue c q with places := rest }))
    | _ => c

/-! ## A step-clock edge -/

/-- A period in which the cluster stalls: CLU_STALL_CNT counts it (R124, R424). -/
def stallPeriod (n : Nat) (c : Cluster) (s : State) : State :=
  bumpBits (setClu s n { c with stalled := true }) (R.cluStallCnt n) 0 32 1

/-- The WSETs of the step arm, once every inbound word that they read has been written (R65): none while one waits. -/
def armWsets (s : State) (n st : Nat) (ws : List (Nat × Insn)) (c : Cluster) : Option Cluster :=
  if c.armed.isSome then some c
  else
    let sets := ws.filter fun x => insnOp x.2 == .wset
    if sets.any fun x => readsLate s n c st x.2 then none
    else
      let rs := sets.map fun x => (x.1, resultOf s n c x.1 st x.2)
      let arm := sets.filterMap fun x => if (rs.lookup x.1).getD false then some (ctlWaymark x.2) else none
      some (arm.foldl (fun acc k => armWaymark s n k acc) { c with armed := some rs })

/-- Faults of the instruction words of an executed step: RESOURCE_MISUSE per BP (R82), BAD_OPCODE once per cluster
(R61). -/
def stepFaults (n : Nat) (ws : List (Nat × Insn)) (c : Cluster) (s : State) : Cluster × State :=
  let s := (ws.filter fun x => misuses s n x.2).foldl
    (fun acc x => signal (48 + n / 8) (n <<< 8 + x.1 / 4 % 128) acc) s
  if (ws.any fun x => (opOf (opcode x.2)).isNone) ∧ ¬ c.badOpcode then
    ({ c with badOpcode := true }, signal (16 + n / 8) n s)
  else (c, s)

/-- A leg above `k` has an edge in this ec, so that a decision is still to come (R92, R96). -/
def laterEdge (s : State) (k : Nat) : Bool :=
  (List.range (legCount s)).any fun j => decide (k < j) && s.sched.edges.getLsbD (bits s (R.glbLeg j) 20 4)

/-- The steps from `a` below `b` at which a slot write or a landing is due, rising. -/
def dueSteps (s : State) (n a b : Nat) (c : Cluster) : List Nat :=
  let ts := (arrivals s n).map (fun x => deadlineOf x.2) ++ c.mrds.map fun m => m.step + 6
  inOrder (ts.filter fun t => decide (a ≤ t ∧ t < b))

/-- The slot writes and landings of the steps from `a` below `b`, which do not execute (R98). -/
def passSteps (s : State) (n a b : Nat) (c : Cluster) : Cluster :=
  (dueSteps s n a b c).foldl (fun acc t => arriveStep s n t acc) c

/-- Where the cluster goes after step `st` of leg `k`: the next step; after the leg's last step the transition, or,
when no later leg has an edge, over the remaining steps to the end of its walk (R96, R98). -/
def afterStep (s : State) (n st : Nat) (c : Cluster) : Cluster :=
  match legOf s st with
  | none => { c with walk := .atEnd }
  | some k =>
    if st + 1 < legStart s (k + 1) then { c with walk := .inLeg (st + 1) }
    else if laterEdge s k then { c with walk := .transition 0 }
    else { passSteps s n (st + 1) (depth s) c with walk := .atEnd }

/-- The outbound buffers that launch at step `st` (R38). -/
def launches (s : State) (n st : Nat) : List (Nat × Nat) :=
  (listed s (R.cluObufCfg n 0) 32).filterMap fun x =>
    if x.2.getLsbD 31 ∧ bitsOf x.2 16 10 = st then some (x.1, bitsOf x.2 8 8) else none

/-- Step `st` executes (R65): every result from the state at this edge, then the effects in their fixed order. An instruction
other than SEND whose class Q operand is misused keeps its own effect, computed with that operand as 0: DESIGN CHOICE, unsafe
(log entry 100). -/
def executeStep (n st : Nat) (ws : List (Nat × Insn)) (c : Cluster) (s : State) : State :=
  let rs : Results := ws.map fun x => (x.1, x.2, presentResult s n c st x.1 x.2)
  let hz := if debugMode s then hazardsOf s n c st rs else []
  let (c1, s1) := stepFaults n ws c s
  let c2 := applyBitWrites s n rs c1
  let wl := enabledTargets .mwd true (fun b _ => b / 64) rs
  let rl := enabledTargets .mrd false (fun b _ => b / 64) rs
  let (c3, s3) := laneAccesses n st wl rl c2 s1
  let c4 := applyCommits s n rs c3
  let (c5, s5) := applyGets n rs c4 s3
  let c6 := if swellReport c5 st rs then addSwell s (reg s (R.cluSwellStep n st)) c5 else c5
  let c7 := writeResults st rs c6
  let c8 := { c7 with stalled := false, armed := none, waitPeriods := 0, waitRaised := false, waitFor := none }
  let c9 := afterStep s n st c8
  let ls := launches s n st
  let c10 := { c9 with lastLaunch := ls.foldl (fun acc x => setDword acc x.1 (dword c9.obuf x.1)) c9.lastLaunch }
  let s6 := ls.foldl (fun acc x => launch n x.2 (dword c9.obuf x.1) acc) (setClu s5 n c10)
  hz.foldl (fun acc h => recordHazard n st h acc) s6

/-- The lowest waymark that a step waits for: which of several WM_TIMEOUT names is a DESIGN CHOICE, unsafe (log entry 116). -/
def waitedWaymark (l : List StallCause) : Option Nat :=
  l.foldl (fun acc x => match x, acc with
    | .waymark k, none => some k
    | .waymark k, some j => some (min j k)
    | _, a => a) none

/-- A period owed for a bank conflict goes by (R198). -/
def payBank (c : Cluster) : Cluster := { c with bankDebt := c.bankDebt - 1 }

/-- The waymark wait of a stalled step goes on, or there is none (R52, R110). One count serves the step, also where the waymark
awaited changes: DESIGN CHOICE, unsafe (log entry 116). -/
def waitOn (causes : List StallCause) (c : Cluster) : Cluster :=
  match waitedWaymark causes with
  | some k => { c with waitFor := some k, waitPeriods := c.waitPeriods + 1 }
  | none => { c with waitFor := none, waitPeriods := 0, waitRaised := false }

/-- The edge at which step `st` may execute (R65, R424): the WSETs arm before any other stall condition is looked at, a
bank conflict included. -/
def stepEdge (n st : Nat) (s : State) : State :=
  let c := arriveStep s n st (clu s n)
  let ws := stepWords c st
  match armWsets s n st ws c with
  | none => stallPeriod n (payBank c) s
  | some c =>
    match stallCauses s n c st ws with
    | [] => if 0 < c.bankDebt then stallPeriod n (payBank (waitOn [] c)) s else executeStep n st ws c s
    | causes => stallPeriod n (payBank (waitOn causes c)) s

/-- A period of a transition after `sc` of them (R20, R97). The periods owed for a conflict in the leg's last step go by
first (R21, R198). -/
def transitionEdge (n sc : Nat) (c : Cluster) (s : State) : State :=
  if 0 < c.bankDebt then stallPeriod n (payBank c) s
  else if sc < 4 then setClu s n { c with walk := .transition (sc + 1), stalled := false }
  else stallPeriod n c s

/-- A period of a transition while the device is STOPPED: the decision completes, and CLU_STALL_CNT counts no period (R282). -/
def stoppedTransition (n sc : Nat) (c : Cluster) (s : State) : State :=
  if 0 < c.bankDebt then setClu s n { payBank c with stalled := true }
  else if sc < 4 then transitionEdge n sc c s
  else s

/-- A period of a cluster that has no step left (R102): it finishes its walk, or stalls, for a conflict in its last step
too (R21). -/
def endEdge (n : Nat) (c : Cluster) (s : State) : State :=
  if 0 < c.bankDebt then stallPeriod n (payBank c) s
  else if walkDone s n c then setClu s n { c with walk := .milestone 1, stalled := false }
  else stallPeriod n c s

/-- One step-clock edge of cluster `n` (R20, R65, R97, R102, R103): a step of the running leg, a period of a
transition, of the end of the walk or of the milestone. Nothing happens while the device is not running, or when the
cluster's reach is in HOLD; the milestone of a FROZEN device and the leg decision of a STOPPED one complete (R279, R282). -/
def clusterEdge (n : Nat) (s : State) : State :=
  let c := clu s n
  if !clusterRuns s n then s
  else if s.sched.run = .frozen then
    match c.walk with
    | .milestone p => if p < 48 then setClu s n { c with walk := .milestone (p + 1) } else s
    | _ => s
  else if s.sched.run = .stopped then
    match c.walk with
    | .transition sc => stoppedTransition n sc c s
    | _ => s
  else if s.sched.run = .running then
    match c.walk with
    | .idle => s
    | .transition sc => transitionEdge n sc c s
    | .inLeg st => stepEdge n st s
    | .atEnd => endEdge n c s
    | .milestone p => if p < 48 then setClu s n { c with walk := .milestone (p + 1), stalled := false } else s
  else s

/-- CLUSTER_STEP (R65). -/
def execClusterStep (n : Fin 128) (s : State) : Host.Outcome State Fault Refusal := .next (clusterEdge n.val s)

/-! ## Landings -/

/-- The oldest read in flight lands when the cluster stands at step s + 6 or later, in a transition, which comes before the
first step of the next running leg (R77), or at the end of the walk, which waits for it (R98, R102). -/
def mrdLanding (n : Nat) (s : State) : State :=
  let c := clu s n
  match c.mrds with
  | [] => s
  | m :: rest =>
    let due := match c.walk with
      | .inLeg st => decide (m.step + 6 ≤ st)
      | .transition _ => true
      | .atEnd => true
      | _ => false
    if due then setClu s n (landMrd { c with mrds := rest } m) else s

/-- MRD_LANDING (R77). -/
def execMrdLanding (n : Fin 128) (s : State) : Host.Outcome State Fault Refusal := .next (mrdLanding n.val s)

/-! ## Word arrivals -/

/-- Another valid entry of the slot with a later deadline that the cluster has reached (R40), or with the same deadline
and a higher index (R44), has written the slot in this ec. -/
def superseded (s : State) (n e : Nat) (c : Cluster) (x : Word) : Bool :=
  (arrivals s n).any fun f => slotOf f.2 == slotOf x && c.wrote.contains f.1 &&
    (decide (deadlineOf x < deadlineOf f.2) || (deadlineOf x == deadlineOf f.2 && decide (e < f.1)))

/-- A word that differs from the last one of its entry sets the swell flags of the entry's map, and becomes the last one
(R42, R93). A word of a valid entry that is not expected is compared as well: DESIGN CHOICE, unsafe (log entry 101), since
R42 and R93 speak of expected entries only. -/
def compareWord (s : State) (n e : Nat) (w : DWord) (c : Cluster) : Cluster :=
  if bit s (R.cluArrEntry n e) 31 ∧ w ≠ dword c.lastWord e then
    addSwell s (reg s (R.cluSwellIn n e)) { c with lastWord := setDword c.lastWord e w } else c

/-- The first word of an expected entry in this ec puts the end of a walk off until then: the transition periods before it
do not count toward the milestone (R102). -/
def noteLate (s : State) (e : Nat) (x : Word) (c : Cluster) : Cluster :=
  match c.walk with
  | .transition sc =>
    if x.getLsbD 31 ∧ expected s x ∧ ¬ c.delivered.contains e ∧ find c.pending e = none then { c with walkLate := sc } else c
  | _ => c

/-- A word of entry `e` reaches its cluster (R40, R42, R93): compared, then pending, or written late. -/
def deliverWord (s : State) (n e : Nat) (w : DWord) (c : Cluster) : Cluster :=
  let x := reg s (R.cluArrEntry n e)
  let c := compareWord s n e w (noteLate s e x c)
  if x.getLsbD 31 ∧ expected s x ∧ ¬ c.delivered.contains e ∧ deadlinePassed s c (deadlineOf x) then
    let c := { c with delivered := e :: c.delivered }
    if superseded s n e c x then c else writeSlot e (slotOf x) w c
  else { c with pending := enter c.pending e w }

/-- What a VC0 word finds at a reach in HOLD (R426): it waits when the reach is validly loaded and not under reload,
else its breakwater cell discards it. -/
def wordWaits (s : State) (n : Nat) : Bool :=
  reachValid s (n / 8) && !underReload s (n / 8)

/-- VC0_WORD_ARRIVAL (R40): the oldest word whose destination hold at NI `n` is over is presented (R145). A word that waits
in HOLD changes the pending register only (R426). -/
def vc0WordArrival (n : Nat) (s : State) : State :=
  let x := ni s n
  match x.words.find? fun h => decide (h.due ≤ routerPeriods s (routerOfNi s n)) with
  | none => s
  | some h =>
    let s := setNi s n { x with words := x.words.erase h }
    let w := h.packet.payload.headD 0
    let e := headTag h.packet.head
    if !reachRuns s (n / 8) then
      if wordWaits s n then setClu s n { clu s n with pending := enter (clu s n).pending e w } else s
    else setClu s n (deliverWord s n e w (clu s n))

/-- The words that wait in the pending registers of a cluster at the start of an ec, and that the ec expects, are compared
(R42): those that came in HOLD have not been yet (R426), and for any other word nothing changes. -/
def admitWords (s : State) (n : Nat) (c : Cluster) : Cluster :=
  c.pending.foldl (fun acc p => if expected s (reg s (R.cluArrEntry n p.1)) then compareWord s n p.1 p.2 acc else acc) c

/-- The waiting words of every running cluster are admitted to the ec that starts (R42, R426). -/
def admitAll (s : State) : State :=
  (runningClusters s).foldl (fun acc n => setClu acc n (admitWords s n (clu acc n))) s

/-- VC0_WORD_ARRIVAL (R40). -/
def execVc0WordArrival (n : Fin 128) (s : State) : Host.Outcome State Fault Refusal := .next (vc0WordArrival n.val s)

/-! ## Waymark timeout -/

/-- WM_TIMEOUT (R52): the wait has lasted longer than CLU_WM_TIMEOUT, which is not 0; raised once for the wait. -/
def wmTimeout (n : Nat) (s : State) : State :=
  let c := clu s n
  let limit := (reg s (R.cluWmTimeout n)).toNat
  match c.waitFor with
  | some k =>
    if limit ≠ 0 ∧ limit < c.waitPeriods ∧ ¬ c.waitRaised then
      signal (32 + n / 8) (n <<< 8 + k) (setBit (setClu s n { c with waitRaised := true }) (R.cluStatus n) 3 true)
    else s
  | none => s

/-- WM_TIMEOUT (R52). -/
def execWmTimeout (n : Fin 128) (s : State) : Host.Outcome State Fault Refusal := .next (wmTimeout n.val s)

end Sys2Proof.Machine
end

