-- ==== Sys2Proof/Machine/Legs.lean ====
section
/-! DEFINITION. The leg decision and the tokens of the milestone (chapter 4). -/
namespace Sys2Proof.Machine

/-- Effective anchor bit of leg `k` (R68). -/
def effAnchor (s : State) (k : Nat) : Bool := bit s (R.glbLeg k) 29

/-- The wheel of leg `k` has an edge in this ec (R92). -/
def legEdge (s : State) (k : Nat) : Bool := s.sched.edges.getLsbD (bits s (R.glbLeg k) 20 4)

/-- Leg `k` is to run: its wheel has an edge, and it is anchored, or skipping is off, or a swell flag is set (R96). -/
def legRuns (s : State) (k : Nat) : Bool := legEdge s k && (effAnchor s k || bit s R.glbSchedCfg 0 || swellAny s k)

/-- Entry `e` of cluster `n` holds up the decision on leg `k` (R97): expected, naming `k` in its inbound swell map,
from another device or a leg below `k`, and not yet come. -/
def holdsUp (s : State) (n k : Nat) (c : Cluster) (x : Nat × Word) : Bool :=
  expected s x.2 && bit s (R.cluSwellIn n x.1) k && (extOf x.2 || decide (srcOf x.2 < k)) &&
    !c.delivered.contains x.1 && (find c.pending x.1).isNone

/-- The decision on leg `k` may read the swell flags (R97). -/
def decisionReady (s : State) (k : Nat) : Bool :=
  (runningClusters s).all fun n =>
    let c := clu s n
    c.walk == .transition 4 && (arrivals s n).all fun x => !holdsUp s n k c x

/-- What a decision came to. -/
inductive Decision where
  | run (k : Nat)
  | wait (k : Nat)
  | none
  deriving DecidableEq, Repr

/-- The decision from leg `k` on (R96, R97): legs without an edge are passed over, a leg with an edge waits for R97. -/
def decide_ (s : State) : Nat → Nat → Decision
  | 0, _ => .none
  | fuel + 1, k =>
    if legCount s ≤ k then .none
    else if ¬ legEdge s k then decide_ s fuel (k + 1)
    else if ¬ decisionReady s k then .wait k
    else if legRuns s k then .run k
    else decide_ s fuel (k + 1)

/-- Carry out the slot writes and landings of the legs from `a` below `b` in every running cluster (R98). -/
def passLegs (a b : Nat) (s : State) : State :=
  (runningClusters s).foldl (fun acc n =>
    setClu acc n (passSteps s n (legStart s a) (legStart s b) (clu s n))) s

/-- Where a cluster stands that starts leg `k`: at its first step; past it, where the depth leaves the leg no step (R88). -/
def legEntry (s : State) (k : Nat) : Walk :=
  if legStart s k < legStart s (k + 1) then .inLeg (legStart s k) else if laterEdge s k then .transition 0 else .atEnd

/-- A running cluster starts leg `k` (R33, R36, R95); reads in flight have landed before its first step (R77). -/
def startLeg (s : State) (k : Nat) (c : Cluster) : Cluster :=
  { landAll c with
    walk := legEntry s k, way := [], stalled := false, walkLate := 0
    legFirst := if c.legRan.getLsbD k then c.legFirst else withBit c.legFirst k true
    legRan := withBit c.legRan k true }

/-- Leg `k` runs: its swell flag is cleared in every cluster (R95), every wheel takes its start (R144). -/
def runLeg (k : Nat) (s : State) : State :=
  let s1 := mapClusters (fun c => { c with swell := withBit c.swell k false }) s
  let s2 := (runningClusters s1).foldl (fun acc n => setClu acc n (startLeg s k (clu s1 n))) s1
  setWheels (legStart s k)
    { s2 with sched := { s2.sched with ranLegs := s2.sched.ranLegs ++ [k], phase := if laterEdge s k then .leg k else .walked } }

/-- No leg is left: a cluster whose walk is done has counted its transition periods toward the milestone, since a
transition that starts no leg costs nothing (chapter 4, "The leg decision"; log entry 12). The periods before the last word
came, and those owed for a bank conflict, are no milestone periods (R21, R102). -/
def endWalk (s : State) (n : Nat) (c : Cluster) : Cluster :=
  match c.walk with
  | .transition sc =>
    if walkDone s n c ∧ c.bankDebt = 0 ∧ c.walkLate < sc then { c with walk := .milestone (sc - c.walkLate) }
    else { c with walk := .atEnd }
  | _ => c

/-- The decision after the milestone or after a leg (R96 to R98), once every running cluster has executed every step
of the running legs (R97). A decision in progress completes in a STOPPED device (R282). -/
def legDecision (s : State) : State :=
  let from_ := match s.sched.phase with
    | .deciding k => some k
    | .leg k => some (k + 1)
    | _ => none
  match from_ with
  | none => s
  | some a =>
    let arrived := (runningClusters s).all fun n => match (clu s n).walk with
      | .transition _ => true
      | _ => false
    if (s.sched.run = .running ∨ s.sched.run = .stopped) ∧ arrived then
      match decide_ s 33 a with
      | .wait k => let s1 := passLegs a k s; { s1 with sched := { s1.sched with phase := .deciding k } }
      | .run k => runLeg k (passLegs a k s)
      | .none =>
        let s1 := passLegs a (legCount s) s
        let s2 := (runningClusters s1).foldl (fun acc n => setClu acc n (endWalk s n (clu s1 n))) s1
        { s2 with sched := { s2.sched with phase := .walked } }
    else s

/-- LEG_DECISION (R96). -/
def execLegDecision (s : State) : Host.Outcome State Fault Refusal := .next (legDecision s)

/-! ## Tokens (R106 to R108) -/

/-- The links of GLB_MS_LINKS. -/
def msLinks (s : State) : List Nat := (List.range 20).filter fun l => bit s R.glbMsLinks l

/-- The ec whose token the device awaits on link `l` (R107). -/
def awaitedEc (s : State) (l : Nat) : Nat := look (fun _ => 0) s.sched.awaited l

/-- The device holds the token of ec `e` from link `l`. -/
def holdsToken (s : State) (l e : Nat) : Bool := decide (e < awaitedEc s l)

/-- The sets taken last, with one more: a further copy of one of the last two is known as such (R185, log entry 113). -/
def takenSets (sets : List Nat) (count : Nat) : List Nat := (count :: sets).take 2

/-- A token whose count is the awaited one is held; another count raises MS_TOKEN_SEQ (R106, R107). Tokens of links
outside GLB_MS_LINKS are discarded, and so are further copies of tokens taken (R185). A hold marker of another ec is no
further copy any more (log entry 113). -/
def takeToken (l : Nat) (count : Byte) (s : State) : State :=
  if ¬ bit s R.glbMsLinks l ∨ (link s l).tokensIn.contains count.toNat then s
  else
    let s := setLink s l { link s l with
      tokensIn := takenSets (link s l).tokensIn count.toNat, holdsIn := (link s l).holdsIn.filter (· = count.toNat) }
    if count.toNat = awaitedEc s l % 256 then
      let awaited := put (fun _ => 0) s.sched.awaited l (awaitedEc s l + 1)
      { s with sched := { s.sched with awaited := awaited, holds := s.sched.holds.filter (· ≠ l) } }
    else signal 216 l (setBit s R.glbMsStatus 28 true)

/-- A hold marker: the device waits for that link's token without timeout (R107, R108). Its ec count is not compared with
the awaited one: DESIGN CHOICE, unsafe (log entry 66). -/
def takeHoldMarker (l : Nat) (count : Byte) (s : State) : State :=
  if ¬ bit s R.glbMsLinks l ∨ (link s l).holdsIn.contains count.toNat then s
  else
    let s := setLink s l { link s l with holdsIn := takenSets (link s l).holdsIn count.toNat }
    let holds := if s.sched.holds.contains l then s.sched.holds else l :: s.sched.holds
    { s with sched := { s.sched with holds := holds } }

/-- The ec whose token the device awaits: the one it is in, or at its milestone the one that the milestone closed. -/
def milestoneEc (s : State) : Nat := if s.sched.phase = .milestone then s.sched.ec.toNat - 1 else s.sched.ec.toNat

/-- The links whose token of the awaited milestone has not come, ascending (GLB_MS_STATUS.pending). -/
def pendingTokens (s : State) : List Nat := (msLinks s).filter fun l => !holdsToken s l (milestoneEc s)

/-- Every running cluster has counted its 48 milestone periods (R106). -/
def periodsCounted (s : State) : Bool := (runningClusters s).all fun n => (clu s n).walk == .milestone 48

/-- The device waits for tokens at present: its own 48 periods have passed (R106, Example 4.1 step 8). -/
def waitsForTokens (s : State) : Bool :=
  s.sched.phase == .milestone && s.sched.run == .running && periodsCounted s && !(pendingTokens s).isEmpty

/-- MS_TOKEN_TIMEOUT (R107, R108): the device waits for a token without hold marker, the limit is not 0, and the fault
has not been raised at this milestone. -/
def msTokenTimeout (s : State) : State :=
  let waiting := (pendingTokens s).filter fun l => !s.sched.holds.contains l
  match waiting with
  | [] => s
  | _ :: _ =>
    if waitsForTokens s ∧ reg s R.glbMsTokenTimeout ≠ 0 ∧ ¬ s.sched.tokenRaised then
      signal 217 ((pendingTokens s).headD 0) (setBit { s with sched := { s.sched with tokenRaised := true } } R.glbMsStatus 29 true)
    else s

/-- MS_TOKEN_TIMEOUT (R107). -/
def execMsTokenTimeout (s : State) : Host.Outcome State Fault Refusal := .next (msTokenTimeout s)

end Sys2Proof.Machine
end

