-- ==== Sys2Proof/Machine/Time.lean ====
section
/-! DEFINITION. System time (chapter 12): the counter, the exchanges with linked devices and the servo. -/
namespace Sys2Proof.Machine

/-! ## Exact arithmetic -/

/-- num / den to the nearest integer; a tie goes as the part decides (log entry 5). -/
def roundNearest (num : Int) (den : Nat) : Int :=
  let r := (num % den).toNat
  num / den + (if den < 2 * r ∨ (2 * r = den ∧ Config.roundUp r den) then 1 else 0)

/-- The number limited to [-m, m]. -/
def clampTo (m x : Int) : Int := max (-m) (min m x)

/-! ## The counter -/

/-- Role of the device: 0 off, 1 grandmaster, 2 slave; 3 acts as 0 (TIME_CFG). -/
def timeRole (s : State) : Nat := bits s R.timeCfg 30 2 % 3

/-- The parent link. -/
def timeParent (s : State) : Nat := bits s R.timeCfg 24 5

/-- The nominal increment of 4.0 ns. -/
def nominalInc : Nat := 0x400000000

/-- Set the present increment; TIME_INC shows it. -/
def setIncrement (n : Nat) (s : State) : State :=
  let s := setReg (setReg s R.timeIncLo (BitVec.ofNat 32 n)) R.timeIncHi (BitVec.ofNat 32 (n / 2 ^ 32 % 256))
  { s with time := { s.time with increment := n } }

/-- The delay lists of a kind, ticked by milestones (`true`) or by µs, owe one tick (R233). -/
def oweTicks (milestone : Bool) (s : State) : State :=
  if !domainOn s 26 then s
  else forUpTo 4 (fun l acc =>
    if bit acc (R.hbDlistCfg l) 0 = milestone then
      let d := look (fun _ => {}) acc.hb.delays l
      { acc with hb := { acc.hb with delays := put (fun _ => {}) acc.hb.delays l { d with owed := d.owed + 1 } } }
    else acc) s

/-- The watchdogs count down once per µs, that is, at every 250th edge, unless Lighthouse is halted (R320, R332). -/
def countWatchdogs (s : State) : State :=
  if s.time.ticks % 250 ≠ 0 ∨ bit s R.dbgStatus 28 then s
  else forUpTo 2 (fun c acc =>
    if bit acc (R.lhWdtCfg c) 31 then setBits acc (R.lhWdtCount c) 0 24 (bits acc (R.lhWdtCount c) 0 24 - 1) else acc) s

/-- TIME_TICK (R304, R306, R312, R316): a rising edge of the time clock. -/
def timeTick (s : State) : State :=
  let t := s.time
  let inc := if t.incPending then (reg s R.timeIncLo).toNat + (bits s R.timeIncHi 0 8) * 2 ^ 32 else t.increment
  let t := { t with ticks := t.ticks + 1, increment := inc, incPending := false }
  let next := match t.setValue with
    | some v => BitVec.ofNat 96 (v.toNat * 2 ^ 32)
    | none =>
      let back := match t.stepBy with
        | some o => roundFree o 2
        | none => 0
      t.now + BitVec.ofNat 96 inc - BitVec.ofInt 96 back
  let t := if t.setValue.isSome then { t with setValue := none } else { t with stepBy := none }
  let crossed := decide (s.time.now.toNat / 2 ^ 32 / 1000 < next.toNat / 2 ^ 32 / 1000)
  let s := countWatchdogs { s with time := { t with now := next } }
  if crossed then oweTicks false s else s

/-- TIME_TICK (R304). -/
def execTimeTick (s : State) : Host.Outcome State Fault Refusal := .next (timeTick s)

/-- TIME_CTRL.set (R306): accepted outside the slave role, else TIME_STATUS.wr_locked. -/
def timeSet (s : State) : State :=
  if timeRole s = 2 then setBit s R.timeStatus 26 true
  else { s with time := { s.time with setValue := some (reg s R.timeSetHi ++ reg s R.timeSetLo) } }

/-- TIME_SET (R306). -/
def execTimeSet (s : State) : Host.Outcome State Fault Refusal := .next (timeSet s)

/-! ## The servo (R312) -/

/-- Show the servo's state in TIME_STATUS, TIME_RATE and TIME_EXCH.count. -/
def showServo (s : State) : State :=
  let t := s.time
  let limit : Int := 500 * 2 ^ 45
  let s := setBit s R.timeStatus 31 (decide (4 ≤ t.count) && timeRole s == 2)
  let s := setBit s R.timeStatus 29 (t.servoR == limit || t.servoR == -limit)
  let s := setReg s R.timeRate (BitVec.ofInt 32 (roundFree t.servoR (2 ^ 29)))
  setBits s R.timeExch 0 8 t.count

/-- The servo's initial state: i = 0, r = 0, count = 0, nominal increment (R312). -/
def servoInit (s : State) : State :=
  showServo (setIncrement nominalInc
    { s with time := { s.time with servoI := 0, servoR := 0, count := 0 } })

/-- SERVO_RESET (R312). -/
def execServoReset (s : State) : Host.Outcome State Fault Refusal := .next (servoInit s)

/-- The servo takes an offset `o`, in units of 2^-33 ns (R312, R313). -/
def servoUpdate (o : Int) (s : State) : State :=
  let t := { s.time with count := min 255 (s.time.count + 1) }
  let stepNs := if bits s R.timeServoCfg 0 16 = 0 then 1000 else bits s R.timeServoCfg 0 16
  let limit : Int := 500 * 2 ^ 45
  if stepNs * 2 ^ 33 < o.natAbs then
    let s := { s with time := { t with stepBy := some o } }
    let s := setBit (bumpBits (servoInit s) R.timeStatus 0 8 1) R.timeStatus 28 true
    signal 239 0 s
  else if 4 ≤ t.count then
    let i := clampTo limit (t.servoI + bits s R.timeServoGain 0 16 * o)
    let r := clampTo limit (-(bits s R.timeServoGain 16 16 * o + i))
    let atLimit := fun (x : Int) => x == limit || x == -limit
    let first := atLimit r && !atLimit t.servoR
    let s := { s with time := { t with servoI := i, servoR := r } }
    let s := showServo (setIncrement (2 ^ 34 + roundNearest r (2048 * 1000000)).toNat s)
    if first then signal 237 0 s else s
  else showServo { s with time := t }

/-! ## Exchanges (R307 to R310) -/

/-- The link is up (CW_LINK_STATUS.up). -/
def linkUp (s : State) (l : Nat) : Bool := bit s (R.cwLinkStatus l) 31

/-- The elastic-buffer fill plus the deskew hold of a receiving lane, in symbols (R187, R310). -/
def fillAndHold (s : State) (a : Nat) : Nat := bits s (R.cwLaneStatus a) 16 5 + (lane s a).hold

/-- The arrival of a time-exchange frame (R307, R310). -/
def arrivalStamp (s : State) (f : TimeFrame) : Nat := stampAt s f.symbols (fillAndHold s f.lane)

/-- A Sync interval in ns: 2^log_interval µs (R309). -/
def syncInterval (s : State) : Nat := 1000 * 2 ^ bits s R.timeSyncCfg 0 4

/-- A frame discarded or an exchange abandoned (TIME_EXCH.lost). -/
def timeLost (s : State) : State := bumpBits s R.timeExch 8 8 1

/-- A frame whose domain differs or that is of another message type is discarded and counted (R308). -/
def timeFrameOk (s : State) (type : Nat) (f : TimeFrame) : Bool := f.messageType == type && f.domain == bits s R.timeSyncCfg 24 8

/-- The device acts as a master on link `l` (Table 12.1). -/
def timeMaster (s : State) (l : Nat) : Bool := timeRole s != 0 && bit s R.timeCfg l

/-- Queue a time-exchange frame ahead of the transmit reference point of link `l` (R310). -/
def queueTime (l : Nat) (x : TimeTx) (s : State) : State :=
  setLink s l { link s l with exchanges := (link s l).exchanges ++ [x] }

/-- The next Sync of link `l` is due: an interval of the device's own system time has passed since the last (R309). A counter
that has gone back by a set makes it due at once. -/
def syncIsDue (s : State) (l : Nat) : Bool :=
  let due := look (fun _ => 0) s.time.syncDue l
  decide (due ≤ timeNs s) || decide (timeNs s + syncInterval s < due)

/-- SYNC_SEND (R309, R315): the Sync; its Follow_Up is queued when the Sync passes the transmit reference point. -/
def syncSend (l : Nat) (s : State) : State :=
  if timeMaster s l && linkUp s l && syncIsDue s l then
    let n := look (fun _ => 0) s.time.sequence l
    let due := timeNs s + syncInterval s
    let s := queueTime l (.sync n) s
    { s with time := { s.time with
      sequence := put (fun _ => 0) s.time.sequence l ((n + 1) % 65536), syncDue := put (fun _ => 0) s.time.syncDue l due } }
  else s

/-- SYNC_SEND (R309). -/
def execSyncSend (l : Fin 20) (s : State) : Host.Outcome State Fault Refusal := .next (syncSend l.val s)

/-- The exchange in progress is abandoned and counted (R309). -/
def abandonExchange (s : State) : State :=
  if s.time.exchange.isSome then timeLost { s with time := { s.time with exchange := none } } else s

/-- The device runs the exchange of R309 on link `l`: the slave role, its parent link, and that link up (R315). -/
def timeSlave (s : State) (l : Nat) : Bool := timeRole s == 2 && l == timeParent s && linkUp s l

/-- The link is looped (R190): its lanes receive their own transmitter. -/
def linkLooped (s : State) (l : Nat) : Bool := bit s (R.cwLaneCtrl (bits s (R.cwLinkCfg l) 24 7)) 27

/-- A time-exchange frame of this device's own transmitter, as it comes back on lane `a` (Table 12.2). -/
def ownTimeFrame (a symbols : Nat) (p : BitVec 256) : TimeFrame :=
  ⟨bitsOf p 0 8, bitsOf p 8 8, bitsOf p 16 16, bitsOf p 32 64 * 2 ^ 32 + bitsOf p 96 32, symbols, Fin.ofNat 80 a⟩

/-- A command that receives a time-exchange frame of type `type`: a looped link takes its own oldest frame, if it is of that
type, and ignores the receive pair (R190); any other link takes the frame of the command. -/
def receiveTime (l type : Nat) (f : TimeFrame) (take : TimeFrame → State → State) (s : State) : State :=
  if linkLooped s l then
    match (link s l).rxTimes with
    | (a, g) :: rest =>
      if g.type = 4 ∧ bitsOf g.payload 0 8 = type then
        take (ownTimeFrame a f.symbols g.payload) (setLink s l { link s l with rxTimes := rest })
      else s
    | [] => s
  else take f s

/-- SYNC_RECEIVE (R308, R309): on the parent link in the slave role the arrival is t2. -/
def syncReceive (l : Nat) (f : TimeFrame) (s : State) : State :=
  if ¬ timeFrameOk s 0 f then timeLost s
  else if timeSlave s l then
    let s := abandonExchange s
    { s with time := { s.time with exchange := some { seq := f.sequence, t2 := arrivalStamp s f } } }
  else s

/-- SYNC_RECEIVE (R309). -/
def execSyncReceive (l : Fin 20) (f : TimeFrame) (s : State) : Host.Outcome State Fault Refusal :=
  .next (receiveTime l.val 0 f (syncReceive l.val) s)

/-- FOLLOW_UP_RECEIVE (R309): t1 is taken and the Delay_Req is sent with the same sequenceId. -/
def followUpReceive (l : Nat) (f : TimeFrame) (s : State) : State :=
  if ¬ timeFrameOk s 8 f then timeLost s
  else if timeSlave s l then
    match s.time.exchange with
    | some x =>
      if x.seq = f.sequence ∧ x.t1.isNone then
        queueTime l (.delayReq f.sequence) { s with time := { s.time with exchange := some { x with t1 := some f.stamp } } }
      else s
    | none => s
  else s

/-- FOLLOW_UP_RECEIVE (R309). -/
def execFollowUpReceive (l : Fin 20) (f : TimeFrame) (s : State) : Host.Outcome State Fault Refusal :=
  .next (receiveTime l.val 8 f (followUpReceive l.val) s)

/-- DELAY_REQ_RECEIVE (R308, R309): a master answers with the arrival as t4. -/
def delayReqReceive (l : Nat) (f : TimeFrame) (s : State) : State :=
  if ¬ timeFrameOk s 1 f then timeLost s
  else if timeMaster s l then queueTime l (.delayResp f.sequence (arrivalStamp s f)) s
  else s

/-- DELAY_REQ_RECEIVE (R309). -/
def execDelayReqReceive (l : Fin 20) (f : TimeFrame) (s : State) : Host.Outcome State Fault Refusal :=
  .next (receiveTime l.val 1 f (delayReqReceive l.val) s)

/-- Offset and path of a completed exchange, in units of 2^-33 ns (R309), shown and handed to the servo. -/
def takeOffset (o p : Int) (s : State) : State :=
  let s := { s with time := { s.time with lastOffset := o, lastPath := p, exchange := none, offsetTick := s.time.ticks } }
  let shown := clampTo (2 ^ 31 - 1) (Int.tdiv o (2 ^ 25))
  let s := setReg s R.timeOffset (BitVec.ofInt 32 (if Int.tdiv o (2 ^ 25) < -(2 ^ 31 - 1) then -(2 ^ 31) else shown))
  let s := setReg s R.timePath (BitVec.ofInt 32 (roundFree (p * 1000) (2 ^ 33)))
  let s := bumpBits (setBit s R.timeStatus 30 false) R.timeExch 16 16 1
  if bit s R.timeServoCfg 31 then servoUpdate o s else s

/-- DELAY_RESP_RECEIVE (R309): the slave computes o and p. -/
def delayRespReceive (l : Nat) (f : TimeFrame) (s : State) : State :=
  if ¬ timeFrameOk s 9 f then timeLost s
  else if timeSlave s l then
    match s.time.exchange with
    | some x =>
      match x.t1, x.t3 with
      | some t1, some t3 =>
        if x.seq = f.sequence then
          takeOffset (((x.t2 : Int) - t1) - ((f.stamp : Int) - t3)) (((x.t2 : Int) - t1) + ((f.stamp : Int) - t3)) s
        else s
      | _, _ => s
    | none => s
  else s

/-- DELAY_RESP_RECEIVE (R309). -/
def execDelayRespReceive (l : Fin 20) (f : TimeFrame) (s : State) : Host.Outcome State Fault Refusal :=
  .next (receiveTime l.val 9 f (delayRespReceive l.val) s)

/-- A time-exchange frame passes the transmit reference point of link `l` (R307, R309, R310): a Sync has its Follow_Up
queued with t1, a Delay_Req gives t3, and the request of a delay measurement its t1 by the link's symbol clock (R187, log
entry 87). The symbols since the time-clock edge are a free value (log entry 2). -/
def timeFrameSent (l : Nat) (x : TimeTx) (s : State) : State :=
  let now := stampAt s (symbolsNow s) 0
  match x with
  | .sync n => queueTime l (.followUp n now) s
  | .delayReq n =>
    match s.time.exchange with
    | some e => if e.seq = n then { s with time := { s.time with exchange := some { e with t3 := some now } } } else s
    | none => s
  | .delayRequest => setLink s l { link s l with requestAt := some (link s l).clock }
  | _ => s

/-- Payload of a time-exchange frame (Table 12.2), or of a delay measurement frame that leaves at `now` of the link's symbol
clock (R187). -/
def timePayload (domain now : Nat) (x : TimeTx) : BitVec 256 :=
  let mk := fun (type seq stamp : Nat) => BitVec.ofNat 256
    (type + domain <<< 8 + seq <<< 16 + (stamp / 2 ^ 32) <<< 32 + (stamp % 2 ^ 32) <<< 96)
  match x with
  | .sync n => mk 0 n 0
  | .followUp n t => mk 8 n t
  | .delayReq n => mk 1 n 0
  | .delayResp n t => mk 9 n t
  | .delayRequest => Config.delayPayload false 0 0 0
  | .delayAnswer t2 hold => Config.delayPayload true t2 now hold

/-- What a delay measurement frame carries: an answer t2, t3 and B_B, a request no times. -/
def delayContent (now : Nat) : TimeTx → Option (Option (Nat × Nat × Nat))
  | .delayRequest => some none
  | .delayAnswer t2 hold => some (some (t2, now, hold))
  | _ => none

/-- Type of the frame that carries it (Table 7.5). -/
def timeFrameType : TimeTx → Nat
  | .delayRequest => 5
  | .delayAnswer .. => 5
  | _ => 4

/-- The time-exchange frames that wait on link `l` are dropped; delay measurement frames stay. -/
def dropTimeFrames (l : Nat) (s : State) : State :=
  setLink s l { link s l with exchanges := (link s l).exchanges.filter fun x => timeFrameType x == 5 }

/-- 16 Sync intervals have passed since the last offset (R313), told by the edges of the 250 MHz time clock. -/
def offsetMissing (s : State) : Bool := decide (s.time.offsetTick + 4 * syncInterval s ≤ s.time.ticks)

/-- TIME_SYNC_LOST (R313): 16 Sync intervals without an offset in the slave role. -/
def timeSyncLost (s : State) : State :=
  if timeRole s = 2 ∧ offsetMissing s ∧ ¬ bit s R.timeStatus 30 then
    signal 238 (timeParent s) (setBit (setBit s R.timeStatus 30 true) R.timeStatus 27 true)
  else s

/-- TIME_SYNC_LOST (R313). -/
def execTimeSyncLost (s : State) : Host.Outcome State Fault Refusal := .next (timeSyncLost s)

/-- A write of TIME_CFG, or of TIME_SYNC_CFG (R315): any exchange in progress is abandoned with its frames, and the servo,
a step not yet made with it (R306), is in its initial state. -/
def timeCfgWrite (sync : Bool) (v : Word) (s : State) : State :=
  let s := forUpTo 20 dropTimeFrames (writeFields (if sync then R.timeSyncCfg else R.timeCfg) v s)
  servoInit { s with time := { s.time with exchange := none, stepBy := none, syncDue := [], offsetTick := s.time.ticks } }

/-- TIME_CFG_WRITE (R315). -/
def execTimeCfgWrite (sync : Bool) (value : Word) (s : State) : Host.Outcome State Fault Refusal :=
  .next (timeCfgWrite sync value s)

/-- A write of TIME_INC (R316). -/
def timeIncWrite (a : Nat) (v : Word) (s : State) : State :=
  if timeRole s = 2 then setBit s R.timeStatus 26 true
  else
    let s := writeFields a v s
    if a = R.timeIncHi then { s with time := { s.time with incPending := true } } else s

/-- A link leaves up: its exchanges stop, and the slave's with its parent link (R315). -/
def timeLinkDown (l : Nat) (s : State) : State :=
  let s := setLink s l { link s l with exchanges := [] }
  if l = timeParent s then { s with time := { s.time with exchange := none } } else s

end Sys2Proof.Machine
end

