-- ==== Sys2Proof/Machine/Links.lean ====
section
/-! DEFINITION. Causeway lanes and links (chapter 7): bring-up, frames and resend, deskew, credits, delay
measurement, pattern tests and error injection. -/
namespace Sys2Proof.Machine

/-! ## Lanes and links -/

/-- Lane states (Table 7.6, CW_LANE_STATUS.state). -/
abbrev laneOff : Nat := 0
abbrev laneLock : Nat := 1
abbrev laneAlign : Nat := 2
abbrev laneTrain : Nat := 3
abbrev laneConfirm : Nat := 4
abbrev laneOper : Nat := 5
abbrev lanePattern : Nat := 6

def laneState (s : State) (a : Nat) : Nat := bits s (R.cwLaneStatus a) 29 3
def setLaneState (a v : Nat) (s : State) : State := setBits s (R.cwLaneStatus a) 29 3 v

/-- Quad `q` exists and passed BIST (GLB_UNIT_PRESENT[1]). -/
def quadPresent (s : State) (q : Nat) : Bool := bit s R.glbUnitPresent1 q

/-- The link is enabled (CW_LINK_CFG.en). -/
def linkEnabled (s : State) (l : Nat) : Bool := bit s (R.cwLinkCfg l) 31

/-- The lanes of a link, of those that exist. -/
def linkLanes (s : State) (l : Nat) : List Nat :=
  ((List.range (linkWidth s l)).map fun k => linkBase s l + k).filter fun a => decide (a < 80)

/-- The enabled link that a lane belongs to. -/
def linkOfLane (s : State) (a : Nat) : Option Nat :=
  ((List.range 20).filter fun l => linkEnabled s l && (linkLanes s l).contains a).head?

/-- The lane is outside every enabled link. -/
def laneFree (s : State) (a : Nat) : Bool := (linkOfLane s a).isNone

/-- BIST runs (BIST_STATUS.state = 1). -/
def bistRuns (s : State) : Bool := bits s R.bistStatus 28 4 == 1

/-- The part has quad `q`. -/
def gradeQuad (s : State) (q : Nat) : Bool := s.die.gradeA || decide (q < 10)

/-- The lane is enabled, its domain is on, and it is present; while BIST runs, and GLB_UNIT_PRESENT reads 0 (R404), it trains
in any quad that the part has (Table 7.6, R379; DEDUCED, log entry 106). -/
def laneActive (s : State) (a : Nat) : Bool :=
  bit s (R.cwLaneCtrl a) 31 && domainOn s (20 + a / 16) && (if bistRuns s then gradeQuad s (a / 4) else quadPresent s (a / 4))

/-- The logic of a lane is reset (R369): what has been sent stays sent. -/
def resetLane (a : Nat) (s : State) : State := setLane s a { sent := (lane s a).sent, line := (lane s a).line }

/-- A lane in pattern mode stays in it (R188). -/
def patternHolds (s : State) (a : Nat) : Bool :=
  laneState s a == lanePattern && bits s (R.cwLaneCtrl a) 28 2 == 1 && laneActive s a && laneFree s a

/-- The near-end loopback of a lane (R190). -/
def laneLooped (s : State) (a : Nat) : Bool := bit s (R.cwLaneCtrl a) 27

/-- A transmitter that leaves OPER in the middle of a frame ends it with K23.7 (R169). The frame is the unit of the last
unit boundary; how many of its data symbols have gone is a free value (log entry 2). -/
def cutFrame (a : Nat) (s : State) : State :=
  let x := lane s a
  match x.sent.getLast? with
  | some (.frame f nak ack bad none) =>
    let free := takeFree 6 s
    let u := LaneUnit.frame f nak ack bad (some (min 36 free.1.toNat))
    let whole := 10 * (unitSymbols (.frame f nak ack bad none)).length
    let cut := serialise (unitSymbols u) x.before
    let cutBits := cut.1.map fun b => b != bit s (R.cwLaneCtrl a) 26
    setLane free.2 a { x with
      sent := x.sent.dropLast ++ [u], line := x.line.take (x.line.length - whole) ++ cutBits, disparity := cut.2 }
  | _ => s

/-- A lane goes back to LOCK, or to OFF while it is disabled or its domain is off (Table 7.6): its elastic buffer is
filled to the centre at the start of LOCK, its running disparity is negative (R161), and its training sets begin at the last
unit boundary of its link (log entry 87). A lane in pattern mode does not
train (R188): one in that mode whose loop is changed, or that is told to retrain, stays in it: DESIGN CHOICE, unsafe (log entry
88). -/
def laneToLock (a : Nat) (s : State) : State :=
  if patternHolds s a then s
  else
    let s := if laneState s a = laneOper then cutFrame a s else s
    let s := setLaneState a (if laneActive s a then laneLock else laneOff) s
    let s := setBits (setBit (setBit s (R.cwLaneStatus a) 28 false) (R.cwLaneStatus a) 26 false) (R.cwLaneStatus a) 16 5 8
    let due := ((linkOfLane s a).map fun l => (link s l).clock).getD 0
    setLane s a { lane s a with
      due := due, goodSets := 0, confirmGood := 0, confirmSent := 0, fillerDue := false, markerDue := false, atMarker := false
      sinceFiller := 0, tokenDue := [], disparity := false, looped := [] }

/-- The link leaves up: the count of retrains rises, M is not measured any more, exchanges stop (R187, R315). -/
def linkLeavesUp (l : Nat) (s : State) : State :=
  let wasUp := linkUp s l
  let s := setBit (setBit s (R.cwLinkStatus l) 31 false) (R.cwLinkStatus l) 30 false
  let s := setBit s (R.cwLinkDelay l) 31 false
  let s := setLink s l { link s l with exchangeCount := 0, exchangeSum := 0, requestAt := none, rxTimes := [] }
  if wasUp then timeLinkDown l (bumpBits s (R.cwLinkStatus l) 0 8 1) else s

/-- Every lane of a link returns to LOCK; those in OPER leave it (R169). -/
def linkToLock (l : Nat) (s : State) : State :=
  let s := (linkLanes s l).foldl (fun acc a =>
    laneToLock a (if laneState acc a = laneOper then setBit acc (R.cwLaneStatus a) 25 true else acc)) s
  linkLeavesUp l s

/-- The lanes in OPER of link `l` that lane `a` takes along as it leaves by its own condition (R169). -/
def takeAlong (l a : Nat) (s : State) : State :=
  let as := (linkLanes s l).filter fun b => b != a && laneState s b == laneOper
  { s with cw := { s.cw with takenAlong := as ++ s.cw.takenAlong } }

/-- The link logic and replay buffer of a link are lost with its domain; the deadlines that the image declares stay (R366). -/
def resetLink (l : Nat) (s : State) : State :=
  setLink (linkLeavesUp l s) l { deadlineIn := (link s l).deadlineIn, deadlineOut := (link s l).deadlineOut }

/-- A lane goes back to training for a reason that is no leave condition: its link goes with it, and no CW_LANE_DOWN is
raised (R169). -/
def laneTrains (a : Nat) (s : State) : State :=
  match linkOfLane s a with
  | some l => if laneState s a = laneOper then linkToLock l s else laneToLock a s
  | none => laneToLock a s

/-- In this collector cycle the lane has left OPER only because another lane of its link left it (R169). -/
def takenAlong (s : State) (a : Nat) : Bool := s.cw.takenAlong.contains a

/-- The lane leaves OPER by its own condition, and is no longer one that was taken along. -/
def notTaken (a : Nat) (s : State) : State :=
  { s with cw := { s.cw with takenAlong := s.cw.takenAlong.filter (· ≠ a) } }

/-- A lane leaves its state by its own condition (R168, R169): from OPER it raises CW_LANE_DOWN and takes its link
along; from any other state it only starts again. A lane that its link took along in the same collector cycle has left OPER
in that cycle by a condition of its own, too, and is one of those that the event may name. -/
def laneLeaves (a : Nat) (s : State) : State :=
  if laneState s a = laneOper then
    let s := setBit s (R.cwLaneStatus a) 25 true
    match linkOfLane s a with
    | some l => linkToLock l (takeAlong l a (signal (80 + l) a s))
    | none => laneToLock a s
  else
    match linkOfLane s a with
    | some l => laneToLock a (if takenAlong s a then notTaken a (signal (80 + l) a s) else s)
    | none => laneToLock a s

/-- The lane has been up since reset (R171). -/
def laneWasUp (s : State) (a : Nat) : Bool := bits s (R.cwLaneStatus a) 0 8 != 0

/-- A code error on a lane (R162): counted, CW_CODE_ERR once the lane has been up (R171); 16 of them within 256 symbols make
a lane leave OPER. -/
def codeError (a : Nat) (s : State) : State :=
  let s := bumpBits s (R.cwLaneErr a) 16 16 1
  let s := if laneWasUp s a then signal 224 a s else s
  let x := lane s a
  let errs := (x.received :: x.codeErrors).filter fun p => decide (x.received < p + 256)
  let s := setLane s a { x with codeErrors := errs }
  if (laneState s a = laneOper ∨ takenAlong s a) ∧ 16 ≤ errs.length then laneLeaves a s else s

/-- The reference clock of the lane's quad is there (R374, R375). -/
def laneClocked (s : State) (a : Nat) : Bool := !bit s R.pwrClkCfg (26 + a / 20)

/-- The lane's receiver takes units: in TRAIN, CONFIRM and OPER, while its reference clock is there (R171). -/
def laneHears (s : State) (a : Nat) : Bool :=
  [laneTrain, laneConfirm, laneOper].contains (laneState s a) && laneClocked s a

/-- `n` symbols arrive, those at the places `errors` with a code error (R162, R168). -/
def symbolsArrive (a n : Nat) (errors : List Nat) (s : State) : State :=
  let first := (lane s a).received
  let s := (inOrder (errors.filter (· < n))).foldl (fun acc p =>
    if laneHears acc a || takenAlong acc a then codeError a (setLane acc a { lane acc a with received := first + p }) else acc) s
  setLane s a { lane s a with received := first + n }

/-- A code error lies in the unit itself, not in the idle symbols before it. -/
def unitHit (rx : LaneIn) : Bool := rx.errors.any fun p => decide (rx.idles ≤ p)

/-- A unit of `n` symbols other than a training set arrives with what came with it (R162, R168): its symbols and its code
errors are counted, and in TRAIN the count of good sets starts again. -/
def unitArrives (a n : Nat) (rx : LaneIn) (s : State) : State :=
  if ¬ laneHears s a ∧ ¬ takenAlong s a then s
  else
    let s := symbolsArrive a (rx.idles + n) rx.errors s
    if laneState s a = laneTrain then setLane s a { lane s a with goodSets := 0 } else s

/-! ## Loopback (R190) -/

/-- The next unit that is not idle at a looped lane's own receiver, when it is of the kind wanted: the idles before it, the
unit, and those after it. -/
def loopNext (want : LaneUnit → Bool) (us : List LaneUnit) : Option (Nat × LaneUnit × List LaneUnit) :=
  let n := (us.takeWhile fun u => u == LaneUnit.idle).length
  match us.drop n with
  | u :: rest => if want u then some (n, u, rest) else none
  | [] => none

/-- A command that receives a unit: a looped lane takes the unit from its own transmitter, and the receive pair is ignored;
any other lane takes the one of the command. -/
def receiveUnit (a : Nat) (want : LaneUnit → Bool) (own : Nat → LaneUnit → State → State) (pair : State → State)
    (s : State) : State :=
  if laneLooped s a then
    match loopNext want (lane s a).looped with
    | some (n, u, rest) => own n u (setLane s a { lane s a with looped := rest })
    | none => s
  else pair s

/-- Some lanes of the link are looped and others are not (R190). -/
def loopsMixed (s : State) (l : Nat) : Bool :=
  let loops := (linkLanes s l).map (laneLooped s)
  loops.contains true && loops.contains false

/-- An enabled link in which some lanes are looped and others are not sets CW_LINK_STATUS.cfg_mismatch, whatever its lanes have
reached (R190). -/
def checkLoops (l : Nat) (s : State) : State :=
  if linkEnabled s l ∧ loopsMixed s l = true then setBit s (R.cwLinkStatus l) 28 true else s

/-- The link of a lane whose loop has changed is checked. -/
def checkLoopsOf (a : Nat) (s : State) : State :=
  match linkOfLane s a with
  | some l => checkLoops l s
  | none => s

/-! ## Register writes -/

/-- CW_LINK_CFG is accepted (R158). -/
def linkConfigOk (s : State) (l : Nat) (v : Word) : Bool :=
  let base := bitsOf v 24 7
  let w := bitsOf v 20 4
  [1, 2, 4, 8].contains w && (w != 2 || base % 2 == 0) && (w < 4 || base % 4 == 0) &&
    decide (base + w ≤ 80) && base / 20 == (base + w - 1) / 20 &&
    ((List.range w).all fun k => quadPresent s ((base + k) / 4)) &&
    ((List.range 20).all fun m => m == l || !linkEnabled s m ||
      (List.range w).all fun k => !(linkLanes s m).contains (base + k))

/-- A load is in progress: LD_STATUS.state is 1 to 5 (R257). -/
def loadInProgress (s : State) : Bool := [1, 2, 3, 4, 5].contains (bits s R.ldStatus 28 4)

/-- LINK_CONFIG (R158, R160). Every lane of the old and the new configuration goes back to training, and another link that
such a lane belongs to goes down with it (R169). A configuration that fails a check leaves the link disabled; its base and
width are stored and its lanes train again all the same: DESIGN CHOICE, unsafe (log entry 70). -/
def linkConfig (l : Nat) (v : Word) (s : State) : State :=
  if ¬ allHold s ∨ loadInProgress s then setBit s (R.cwLinkStatus l) 27 true
  else
    let accepted := !v.getLsbD 31 || linkConfigOk s l v
    let s := linkLeavesUp l ((linkLanes s l).foldl (fun acc a => laneTrains a acc) s)
    let s := setReg s (R.cwLinkCfg l) (withBit (writtenWord ⟨0, [], 0, 0xFFF00000, 0, 0, 0, 0⟩ 0 v) 31 (v.getLsbD 31 && accepted))
    let s := if accepted then s else signal 223 l (setBit s (R.cwLinkStatus l) 29 true)
    let s := checkLoops l (setBit s (R.cwLinkStatus l) 28 false)
    (linkLanes s l).foldl (fun acc a => laneTrains a acc) s

/-- LINK_CONFIG (R158). -/
def execLinkConfig (l : Fin 20) (value : Word) (s : State) : Host.Outcome State Fault Refusal := .next (linkConfig l.val value s)

/-- A write of a lane's block: that of an absent quad or of a domain that is off discards it (R5). -/
def onLane (a : Nat) (f : State → State) (s : State) : State :=
  if blockOn s (R.cwLaneCtrl a) then f s else offAccess s

/-- RETRAIN (R168): a write of CW_LANE_CTRL.retrain. -/
def execRetrain (a : Fin 80) (s : State) : Host.Outcome State Fault Refusal := .next (onLane a (laneLeaves a) s)

/-- LOOP_CHANGE (R190): a write that changes loop takes the lane back to LOCK, and may leave its link with a mixture. -/
def loopChange (a : Nat) (loop : Bool) (s : State) : State :=
  if laneLooped s a = loop then s else laneLeaves a (checkLoopsOf a (setBit s (R.cwLaneCtrl a) 27 loop))

/-- LOOP_CHANGE (R190). -/
def execLoopChange (a : Fin 80) (loop : Bool) (s : State) : Host.Outcome State Fault Refusal :=
  .next (onLane a (loopChange a loop) s)

/-- A write of CW_LANE_CTRL: en, mode, loop, tx_invert and retrain. A write of en = 0 to a lane in OPER counts as its own
leaving, so that it raises CW_LANE_DOWN and takes its link along: DESIGN CHOICE, unsafe (log entry 70). -/
def laneCtrlWrite (a : Nat) (v : Word) (s : State) : State :=
  let wasOn := bit s (R.cwLaneCtrl a) 31
  let s := loopChange a (v.getLsbD 27) s
  let s := writeFields (R.cwLaneCtrl a) v s
  if wasOn ≠ v.getLsbD 31 ∨ v.getLsbD 30 then laneLeaves a s
  else if laneState s a = lanePattern ∧ bitsOf v 28 2 ≠ 1 then laneToLock a s
  else s

/-! ## Pattern mode (R188, R189) -/

/-- PATTERN_MODE (R188). -/
def patternMode (a : Nat) (s : State) : State :=
  if bits s (R.cwLaneCtrl a) 28 2 = 1 ∧ laneActive s a ∧ laneFree s a then
    let s := setBit (setLaneState a lanePattern s) (R.cwPrbsCtrl a) 26 false
    setLane s a { lane s a with checker := 0, checkRun := 0, checkSeen := 0, flipBits := 0 }
  else s

/-- PATTERN_MODE (R188). -/
def execPatternMode (a : Fin 80) (s : State) : Host.Outcome State Fault Refusal := .next (onLane a (patternMode a) s)

/-- The two taps of a pattern (R188): PRBS-7, PRBS-15, PRBS-23, PRBS-31. -/
def prbsTaps (p : Nat) : Nat × Nat := [(7, 6), (15, 14), (23, 18), (31, 28)].getD p (7, 6)

/-- The bit that follows a history of bits, newest in bit 0. -/
def prbsNext (p history : Nat) : Bool :=
  (history.testBit ((prbsTaps p).1 - 1)) != (history.testBit ((prbsTaps p).2 - 1))

/-- A history with one more bit. -/
def pushBit (history : Nat) (b : Bool) : Nat := (2 * history + b.toNat) % 2 ^ 31

/-- The history that the generator works on: one that is all 0 in the pattern's length has no successor but 0, and starts
from a single 1: DESIGN CHOICE, unsafe (log entry 72). -/
def generatorSeed (p history : Nat) : Nat := if history % 2 ^ (prbsTaps p).1 = 0 then 1 else history

/-- The generator sends one bit, inverted while an injection lasts (R189). -/
def generateBit (p : Nat) (x : Lane) : Bool × Lane :=
  let b := prbsNext p (generatorSeed p x.generator)
  (b != decide (0 < x.flipBits),
    { x with generator := pushBit (generatorSeed p x.generator) b, flipBits := x.flipBits - 1 })

/-- The checker takes one received bit: it seeds itself, counts error-free bits, locks at 1,024, and then counts wrong
bits (R188). -/
def checkBit (a : Nat) (b : Bool) (s : State) : State :=
  let ctrl := reg s (R.cwPrbsCtrl a)
  let p := bitsOf ctrl 28 2
  let b := b != ctrl.getLsbD 27
  let x := lane s a
  let want := prbsNext p x.checker
  if ctrl.getLsbD 26 then
    let s := setLane s a { x with checker := pushBit x.checker want }
    if b = want then s else bumpBits s (R.cwPrbsErr a) 0 32 1
  else if x.checkSeen < (prbsTaps p).1 then
    setLane s a { x with checker := pushBit x.checker b, checkSeen := x.checkSeen + 1, checkRun := 0 }
  else
    let run := if b = want then x.checkRun + 1 else 0
    let s := setLane s a { x with checker := pushBit x.checker b, checkRun := run, checkSeen := if b = want then x.checkSeen else 0 }
    if 1024 ≤ run then setBit s (R.cwPrbsCtrl a) 26 true else s

/-- Bits go out on the transmit pair, inverted under tx_invert; that of a looped lane idles (R190). -/
def driveLine (a : Nat) (bs : List Bool) (s : State) : State :=
  if laneLooped s a then s
  else setLane s a { lane s a with line := (lane s a).line ++ bs.map fun b => b != bit s (R.cwLaneCtrl a) 26 }

/-- One bit period of a lane in pattern mode: the generator sends, and the checker takes the received bit, which for a
looped lane is its own generator's (R190). -/
def patternBit (a : Nat) (b : Bool) (s : State) : State :=
  let p := bits s (R.cwPrbsCtrl a) 28 2
  let gen := bit s (R.cwPrbsCtrl a) 31
  let (g, x) := if gen then generateBit p (lane s a) else (false, lane s a)
  let s := setLane s a x
  let s := if gen then driveLine a [g] s else s
  if bit s (R.cwPrbsCtrl a) 30 then checkBit a (if laneLooped s a then g else b) s else s

/-- PRBS_LOCK (R188): the checker works through received bits and declares lock after 1,024 error-free ones. -/
def prbsLock (a : Nat) (bs : List Bool) (s : State) : State :=
  if laneState s a = lanePattern then bs.foldl (fun acc b => patternBit a b acc) s else s

/-- PRBS_LOCK (R188). -/
def execPrbsLock (a : Fin 80) (bits : List Bool) (s : State) : Host.Outcome State Fault Refusal := .next (prbsLock a.val bits s)

/-- INJECT (R189). -/
def inject_ (a : Nat) (v : Word) (s : State) : State :=
  let s := writeFields (R.cwInject a) v s
  let kind := bitsOf v 29 2
  let burst := max 2 (bitsOf v 24 5)
  if ¬ v.getLsbD 31 then s
  else if kind = 2 then
    if laneState s a = laneOper then setLane s a { lane s a with badCode := true } else setBit s (R.cwLaneStatus a) 24 true
  else if laneState s a = lanePattern then setLane s a { lane s a with flipBits := if kind = 1 then burst else 1 }
  else setBit s (R.cwLaneStatus a) 24 true

/-- INJECT (R189). -/
def execInject (a : Fin 80) (value : Word) (s : State) : Host.Outcome State Fault Refusal :=
  .next (onLane a (inject_ a value) s)

/-! ## Bring-up (R168 to R171) -/

/-- LANE_LOCK (R168): bit lock has held for 1 µs. A lane whose reference clock is lost does not train (R375). -/
def execLaneLock (a : Fin 80) (s : State) : Host.Outcome State Fault Refusal :=
  .next (if laneState s a = laneLock ∧ laneActive s a ∧ laneClocked s a then setLaneState a laneAlign s else s)

/-- LANE_ALIGN (R168): two K28.5 found 16 symbols apart; an inverted pair is corrected. -/
def laneAligned (a : Nat) (inverted : Bool) (s : State) : State :=
  if laneState s a = laneAlign ∧ laneClocked s a then
    setLane (setBit (setLaneState a laneTrain s) (R.cwLaneStatus a) 27 inverted) a { lane s a with goodSets := 0 }
  else s

/-- LANE_ALIGN (R168). -/
def execLaneAlign (a : Fin 80) (inverted : Bool) (s : State) : Host.Outcome State Fault Refusal :=
  .next (laneAligned a.val inverted s)

/-- The lane enters OPER when 8 consecutive good sets with state 1 have come and 8 have been sent (Table 7.6). -/
def confirmDone (a : Nat) (s : State) : State :=
  let x := lane s a
  if laneState s a = laneConfirm ∧ laneClocked s a ∧ 8 ≤ x.confirmGood ∧ 8 ≤ x.confirmSent then
    let s := setLane s a { x with sinceFiller := 0, received := 0, codeErrors := [] }
    bumpBits (setLaneState a laneOper s) (R.cwLaneStatus a) 0 8 1
  else s

/-- The far device has been reset while this one holds sequence state (R184). -/
def peerReset (l ordinal : Nat) (s : State) : State :=
  let k := link s l
  let s := setBit (setLink s l { k with
    holdsState := false, nextSeq := 0, expectedSeq := 0, replay := [], resend := none, nakDue := false, nakSent := false
    rxNaks := [], creditIn := [], sentFrames := [], creditOut := [], oldSeqs := [] }) (R.cwLinkStatus l) 26 false
  signal (120 + l) ordinal s

/-- The last good training set, as CW_LANE_FAR shows it. -/
def showFar (a : Nat) (t : TrainingSet) (s : State) : State :=
  setReg s (R.cwLaneFar a) (BitVec.ofNat 32
    ((t.ordinal % 256) <<< 24 + (t.lane % 128) <<< 17 + 1 <<< 16 + (t.width % 16) <<< 12 + (t.index % 8) <<< 9 +
      t.fresh.toNat <<< 8))

/-- TRAINING_SET_RECEIVE (R168, R184). -/
def trainingSet (a : Nat) (t : TrainingSet) (s : State) : State :=
  let st := laneState s a
  if takenAlong s a then
    let s := symbolsArrive a 16 t.errors s
    if t.good ∧ t.errors = [] ∧ t.state = 0 then laneLeaves a s else s
  else if ¬ laneHears s a then s
  else
    let s := symbolsArrive a 16 t.errors s
    let x := lane s a
    if ¬ t.good ∨ t.errors ≠ [] then
      if st = laneTrain then setLane s a { x with goodSets := 0 }
      else if st = laneConfirm then
        setBit (setLaneState a laneTrain (setLane s a { x with goodSets := 0, confirmGood := 0, confirmSent := 0 })) (R.cwLaneStatus a) 28 false
      else s
    else
      let s := showFar a t s
      let s := match linkOfLane s a with
        | some l => if t.fresh ∧ (link s l).holdsState ∧ ¬ linkUp s l then peerReset l t.ordinal s else s
        | none => s
      let s := if t.state = 1 then setBit s (R.cwLaneStatus a) 26 true else s
      if st = laneTrain then
        let s := setLane s a { x with goodSets := x.goodSets + 1 }
        if 64 ≤ x.goodSets + 1 then setBit (setLaneState a laneConfirm s) (R.cwLaneStatus a) 28 true else s
      else if st = laneConfirm then
        confirmDone a (setLane s a { x with confirmGood := if t.state = 1 then x.confirmGood + 1 else 0 })
      else if t.state = 0 ∧ laneState s a = laneOper then laneLeaves a s
      else s

/-- A training set among the units of a looped lane, and that set as its own receiver sees it (R190). -/
def isTrainingSet : LaneUnit → Bool
  | .trainingSet .. => true
  | _ => false
def ownSet : LaneUnit → TrainingSet
  | .trainingSet state lane ordinal width index fresh => ⟨true, [], state, lane, ordinal, width, index, fresh⟩
  | _ => ⟨false, [], 0, 0, 0, 0, 0, false⟩

/-- TRAINING_SET_RECEIVE (R168). -/
def execTrainingSetReceive (a : Fin 80) (set : TrainingSet) (s : State) : Host.Outcome State Fault Refusal :=
  .next (receiveUnit a isTrainingSet (fun _ u acc => trainingSet a (ownSet u) acc) (trainingSet a set) s)

/-- LANE_DOWN (R169): a lane leaves OPER by a leave condition. -/
def execLaneDown (a : Fin 80) (s : State) : Host.Outcome State Fault Refusal :=
  .next (if laneState s a = laneOper ∨ takenAlong s a then laneLeaves a s else s)

/-! ## Rate matching and deskew (R172 to R175) -/

/-- FILLER_DUE (R172): the lane has sent 1,216 symbols since its last filler. -/
def fillerDue (a : Nat) (s : State) : State :=
  if laneState s a = laneOper ∧ 1216 ≤ (lane s a).sinceFiller then setLane s a { lane s a with fillerDue := true } else s

/-- FILLER_DUE (R172). -/
def execFillerDue (a : Fin 80) (s : State) : Host.Outcome State Fault Refusal := .next (fillerDue a.val s)

/-- CW_EB_SLIP (R174): a fill that reaches 0 or 16. -/
def ebSlip (a : Nat) (full : Bool) (s : State) : State :=
  if laneState s a = laneOper ∨ takenAlong s a then
    signal 226 a (laneLeaves a (setBits s (R.cwLaneStatus a) 16 5 (if full then 16 else 0)))
  else s

/-- CW_EB_SLIP (R174). -/
def execCwEbSlip (a : Fin 80) (full : Bool) (s : State) : Host.Outcome State Fault Refusal := .next (ebSlip a.val full s)

/-- The elastic buffer's fill as measured when a filler arrives (R173): the filler is dropped when it is 9 or more, written
twice when it is 7 or less; 0 and 16 are slips (R174). -/
def correctFill (a fill : Nat) (s : State) : State :=
  if fill = 0 ∨ 16 ≤ fill then ebSlip a (decide (0 < fill)) s
  else if 9 ≤ fill then bumpBits (setBits s (R.cwLaneStatus a) 16 5 (fill - 1)) (R.cwLaneErr a) 0 8 1
  else if fill ≤ 7 then bumpBits (setBits s (R.cwLaneStatus a) 16 5 (fill + 1)) (R.cwLaneErr a) 8 8 1
  else setBits s (R.cwLaneStatus a) 16 5 fill

/-- FILLER_RECEIVE (R173). -/
def fillerReceive (a fill : Nat) (rx : LaneIn) (s : State) : State :=
  let s := unitArrives a 1 rx s
  if laneState s a = laneOper then correctFill a fill s else s

/-- FILLER_RECEIVE (R173). -/
def execFillerReceive (x : FillerIn) (s : State) : Host.Outcome State Fault Refusal :=
  .next (receiveUnit x.lane (fun u => u == .filler) (fun n _ acc => fillerReceive x.lane x.fill ⟨n, []⟩ acc)
    (fillerReceive x.lane x.fill x.rx) s)

/-- ALIGNMENT_MARKER_DUE (R175): every 16,384 symbols a marker on every lane of the link. -/
def markerDue (l : Nat) (s : State) : State :=
  if linkEnabled s l then
    (linkLanes s l).foldl (fun acc a =>
      if laneState acc a = laneOper then setLane acc a { lane acc a with markerDue := true } else acc) s
  else s

/-- ALIGNMENT_MARKER_DUE (R175). -/
def execAlignmentMarkerDue (l : Fin 20) (s : State) : Host.Outcome State Fault Refusal := .next (markerDue l.val s)

/-- The indices are distinct and run from 0 to width - 1 (R170). -/
def indicesOk (w : Nat) (ix : List Nat) : Bool := ix.length == w && (List.range w).all fun k => ix.contains k

/-- A marker among the units of a looped lane. -/
def isMarker : LaneUnit → Bool
  | .marker .. => true
  | _ => false

/-- The marker that the receiver of its lane sees: of a looped lane its own, with the lag measured (R190). -/
def seenMarker (s : State) (m : MarkerIn) : Option MarkerIn :=
  if laneLooped s m.lane then
    match loopNext isMarker (lane s m.lane).looped with
    | some (n, .marker w i, _) => some { m with width := w, index := i, crcOk := true, rx := ⟨n, []⟩ }
    | _ => none
  else some m

/-- A marker arrives on its lane; one with a failed CRC counts as a code error, as R185 says of a token copy: DESIGN CHOICE,
unsafe (log entry 89). -/
def markerArrives (m : MarkerIn) (s : State) : State :=
  let s := if laneLooped s m.lane then
      match loopNext isMarker (lane s m.lane).looped with
      | some (_, _, rest) => setLane s m.lane { lane s m.lane with looped := rest }
      | none => s
    else s
  let s := unitArrives m.lane 4 m.rx s
  if ¬ m.crcOk ∧ ¬ unitHit m.rx ∧ laneHears s m.lane then codeError m.lane s else s

/-- Far widths or indices in the markers that do not match keep the link down (R170). -/
def markerMismatch (l : Nat) (s : State) : State := linkLeavesUp l (setBit s (R.cwLinkStatus l) 28 true)

/-- The lanes are aligned on the markers of all of them: each is held for its lead over the last, and they are ordered by
the index in the marker; a skew above 32 symbols keeps the link down (R175). -/
def deskew (l : Nat) (good : List MarkerIn) (s : State) : State :=
  let top := (good.map (·.lag)).foldl max 0
  let low := (good.map (·.lag)).foldl min top
  let s := setBits s (R.cwLinkStatus l) 8 8 (min 255 (top - low))
  if 32 < top - low then signal 227 l (linkLeavesUp l s)
  else
    let s := good.foldl (fun acc m => setLane acc m.lane { lane acc m.lane with hold := top - m.lag, place := m.index }) s
    setBit (setBit s (R.cwLinkStatus l) 28 false) (R.cwLinkStatus l) 30 true

/-- ALIGNMENT_MARKER_RECEIVE (R170, R175): the markers of all lanes of the link, each with the symbols it lags. -/
def markerReceive (l : Nat) (ms : List MarkerIn) (s : State) : State :=
  let lanes := linkLanes s l
  let seen := ms.filterMap (seenMarker s)
  let s := seen.foldl (fun acc m => markerArrives m acc) s
  let good := seen.filter fun m => m.crcOk && !unitHit m.rx && lanes.contains m.lane.val
  if ¬ linkEnabled s l ∨ ¬ (lanes.all fun a => laneState s a == laneOper) ∨ good.length ≠ lanes.length then s
  else if ¬ (good.all fun m => m.width == linkWidth s l) ∨ ¬ indicesOk (linkWidth s l) (good.map (·.index)) ∨ loopsMixed s l then
    markerMismatch l s
  else deskew l good s

/-- ALIGNMENT_MARKER_RECEIVE (R175). -/
def execAlignmentMarkerReceive (l : Fin 20) (markers : List MarkerIn) (s : State) : Host.Outcome State Fault Refusal :=
  .next (markerReceive l.val markers s)

/-- Start a resend: every unacknowledged frame is sent again, the first first (R181). A nak during a resend restarts it. -/
def startResend (l : Nat) (s : State) : State :=
  let k := link s l
  if k.replay = [] then s
  else
    let s := setBit (setLink s l { k with resend := some (0, k.replay.length) }) (R.cwLinkStatus l) 26 true
    if k.resend.isNone then signal 228 l (bumpBits s (R.cwLinkResend l) 16 16 1) else s

/-- Credit class of a frame (R178): 0 VC1, 1 VC2, 2 VC3, 3 the load stream; none for VC0 words. -/
def creditClass (type vc : Nat) : Option Nat := if type = 2 then some (vc - 1) else if type = 3 then some 3 else none

/-- The frames of a list that are of a credit class. -/
def framesOf (fs : List Frame) (c : Nat) : Nat := (fs.filter fun f => creditClass f.type f.vc == some c).length

/-- The frames sent by class at the start of an up period: those to be sent again take their credits (log entry 73). -/
def carriedFrames (k : Link) : Sparse Nat :=
  (List.range 4).foldl (fun acc c => put (fun _ => 0) acc c (framesOf k.replay c)) []

/-- LINK_UP (R170, R178, R183): every lane in OPER, the far widths and indices match, the lanes deskewed, and no mixture
of looped and other lanes (R190). Each credit class starts with 32 credits, what was not acknowledged is sent again, and the
first delay exchange begins (R187). Sending again counts as a resend, with CW_RESEND: DESIGN CHOICE, unsafe (log entry
112). -/
def linkComesUp (l : Nat) (s : State) : State :=
  let lanes := linkLanes s l
  if ¬ linkEnabled s l ∨ linkUp s l ∨ ¬ (lanes.all fun a => laneState s a == laneOper) then s
  else
    let far := lanes.map fun a => reg s (R.cwLaneFar a)
    if ¬ (far.all fun w => w.getLsbD 16 && bitsOf w 12 4 == linkWidth s l) ∨
        ¬ indicesOk (linkWidth s l) (far.map fun w => bitsOf w 9 3) ∨ loopsMixed s l then
      setBit s (R.cwLinkStatus l) 28 true
    else if ¬ bit s (R.cwLinkStatus l) 30 then s
    else
      let k := link s l
      let s := setLink s l { k with
        everUp := true, holdsState := true, creditIn := [], sentFrames := carriedFrames k, creditOut := [], resend := none
        nakDue := false, nakSent := false, exchangeCount := 0, exchangeSum := 0, requestAt := none, rxTimes := []
        exchanges := [.delayRequest]
        oldSeqs := (List.range 64).map fun i => (k.expectedSeq + 255 - i) % 256 }
      let s := setBit (setBit (setBit s (R.cwLinkStatus l) 31 true) (R.cwLinkStatus l) 28 false) (R.cwLinkStatus l) 26 false
      startResend l s

/-! ## Delay measurement (R119, R120, R182, R187) -/

/-- The time of an arrival by the link's symbol clock, `symbols` after the last unit boundary (R187, log entry 87). -/
def arrivedAt (s : State) (l symbols : Nat) : Nat := (link s l).clock + symbols

/-- DELAY_EXCHANGE (R187): the far end's request is answered with t2, t3 and B_B, the fill plus hold of the lane it came
on; an answer completes one of the 16 exchanges of this up period, with t1 as recorded, t4 and B_A of its lane, and begins the
next. A request or an answer that is lost is not sent again in this up period, whose measurement then does not end: DESIGN
CHOICE, unsafe (log entry 118). -/
def delayExchange (l : Nat) (x : Exchange) (s : State) : State :=
  if ¬ linkUp s l then s
  else match x with
    | .request a symbols => queueTime l (.delayAnswer (arrivedAt s l symbols) (fillAndHold s a)) s
    | .answer a symbols t2 t3 holdB =>
      let k := link s l
      match k.requestAt with
      | some t1 =>
        if k.exchangeCount < 16 then
          let t4 := arrivedAt s l symbols
          let s := setLink s l { k with
            requestAt := none, exchangeCount := k.exchangeCount + 1
            exchangeSum := k.exchangeSum + (((t4 : Int) - t1) - ((t3 : Int) - t2) + fillAndHold s a - holdB) }
          if k.exchangeCount < 15 then queueTime l .delayRequest s else s
        else s
      | none => s

/-- Symbols of a delay frame's arrival. -/
def exchangeSymbols : Exchange → Nat
  | .request _ n => n
  | .answer _ n _ _ _ => n

/-- A delay frame of this device's own transmitter, as it comes back on lane `a` (R190): a request carries no times. -/
def ownExchange (a symbols : Nat) : Option (Nat × Nat × Nat) → Exchange
  | none => .request (Fin.ofNat 80 a) symbols
  | some (t2, t3, hold) => .answer (Fin.ofNat 80 a) symbols t2 t3 hold

/-- A looped link takes its own oldest frame, if that is a delay measurement frame; any other link the one of the command. -/
def exchangeHeard (l : Nat) (x : Exchange) (s : State) : State :=
  if linkLooped s l then
    match (link s l).rxTimes with
    | (a, { delay := some c, .. }) :: rest =>
      delayExchange l (ownExchange a (exchangeSymbols x) c) (setLink s l { link s l with rxTimes := rest })
    | _ => s
  else delayExchange l x s

/-- DELAY_EXCHANGE (R187). -/
def execDelayExchange (l : Fin 20) (x : Exchange) (s : State) : Host.Outcome State Fault Refusal := .next (exchangeHeard l.val x s)

/-- M in ps, D_req in steps and W in ns of a sum over 16 exchanges, all rounded up (R119, R182, R187): M is sum / 32
symbols of 16/45 ns. -/
def delayPs (sum : Nat) : Nat := ceilDiv (sum * 16000) (32 * 45)
def delayReqSteps (sum : Nat) : Nat := ceilDiv (sum * 16 * 18) (32 * 45 * 10) + 6
def resendWindow (sum w : Nat) : Nat := ceilDiv ((2 * sum * w + 32 * 64 * 38) * 16) (32 * w * 45)

/-- DELAY_MEASURED (R120, R182, R187). A D_req or M above the width of its field of CW_LINK_DELAY is shown modulo that width:
DESIGN CHOICE, unsafe (log entry 69). -/
def delayMeasured (l : Nat) (s : State) : State :=
  let k := link s l
  if linkUp s l ∧ k.exchangeCount = 16 ∧ ¬ bit s (R.cwLinkDelay l) 31 then
    let sum := k.exchangeSum.toNat
    let req := delayReqSteps sum
    let s := setReg s (R.cwLinkDelay l) (BitVec.ofNat 32 (2 ^ 31 + req % 2048 * 2 ^ 20 + delayPs sum % 2 ^ 20))
    let s := setBits s (R.cwLinkWindow l) 0 16 (resendWindow sum (linkWidth s l))
    let s := setLink s l { k with dReq := req }
    match k.deadlineIn with
    | some d => if d < req then signal 218 l s else s
    | none => s
  else s

/-- DELAY_MEASURED (R120). -/
def execDelayMeasured (l : Fin 20) (s : State) : Host.Outcome State Fault Refusal := .next (delayMeasured l.val s)

/-! ## The transmit scheduler (R177) -/

/-- A credit is available for a class: 0 VC1, 1 VC2, 2 VC3, 3 the load stream (R178). -/
def creditLeft (k : Link) (c : Nat) : Bool :=
  decide (look (fun _ => 0) k.sentFrames c < 32 + look (fun _ => 0) k.creditIn c)

/-- Room for one more unacknowledged frame (R177). -/
def replayRoom (k : Link) : Bool := decide (k.replay.length < 64)

/-- The number of the last sequenced frame accepted in order. -/
def ackOf (k : Link) : Nat := (k.expectedSeq + 255) % 256

/-- The ack and the credit that wait have waited `n` more symbols; the lowest lane of the link counts them. -/
def ageReports (l n : Nat) (s : State) : State :=
  let k := link s l
  setLink s l { k with ackWait := k.ackWait.map (· + n), creditWait := k.creditWait.map (· + n) }

/-- A lane sends a unit, which starts at the present time of its link's symbol clock: its bits go out on the pair (R161), or its
symbols to its own receiver while it is looped (R190). -/
def sendUnit (a : Nat) (u : LaneUnit) (s : State) : State :=
  let x := lane s a
  let symbols := unitSymbols u
  let code := serialise symbols x.disparity
  let x := { x with
    before := x.disparity, disparity := code.2
    due := ((linkOfLane s a).map fun l => (link s l).clock).getD 0 + symbols.length
    sinceFiller := if u = LaneUnit.filler then 0 else x.sinceFiller + symbols.length }
  let s := if laneLooped s a then setLane s a { x with looped := x.looped ++ [u] }
    else driveLine a code.1 (setLane s a { x with sent := x.sent ++ [u] })
  match linkOfLane s a with
  | some l => if laneState s a = laneOper ∧ linkBase s l = a then ageReports l symbols.length s else s
  | none => s

/-- A lane sends a frame: every frame reports the ack, and a nak that is due; a link control frame reports the credits
(R164, R180). -/
def sendFrame (l a : Nat) (f : Frame) (s : State) : State :=
  let k := link s l
  let x := lane s a
  let s := setLane s a { x with badCode := false }
  let s := sendUnit a (.frame f k.nakDue (ackOf k) x.badCode) s
  setLink s l { link s l with
    nakSent := k.nakSent || k.nakDue, nakDue := false, ackWait := none
    creditWait := if f.type = 0 then none else (link s l).creditWait }

/-- A new sequenced frame takes the next number and stays in the replay buffer (R180). -/
def sendSequenced (l a type vc : Nat) (last : Bool) (payload : BitVec 256) (s : State) : State :=
  let k := link s l
  let f : Frame := { type := type, vc := vc, last := last, seq := k.nextSeq, payload := payload }
  sendFrame l a f (setLink s l { k with nextSeq := (k.nextSeq + 1) % 256, replay := k.replay ++ [f] })

/-- Payload of a VC0 frame of up to three words (R164). -/
def vc0Payload (ws : List (DWord × Nat × Nat)) : BitVec 256 :=
  BitVec.ofNat 256 (ws.length + (ws.zipIdx).foldl (fun acc x =>
    acc + (x.1.1.toNat + x.1.2.1 * 2 ^ 64 + x.1.2.2 * 2 ^ 72) <<< (80 * x.2 + 16)) 0)

/-- Payload of a link control frame: cumulative credits mod 256 of the four classes. -/
def controlPayload (k : Link) : BitVec 256 :=
  let c := fun i => look (fun _ => 0) k.creditOut i % 256
  BitVec.ofNat 256 (c 0 + c 1 <<< 8 + c 2 <<< 16 + c 3 <<< 24)

/-- The flit that waits first for virtual channel `vc`. -/
def flitsFor (k : Link) (vc : Nat) : List Flit := look (fun _ => []) k.flits vc

/-- A Wayfabric flit goes on the link, for a credit of its class. -/
def sendLinkFlit (l a vc : Nat) (s : State) : State :=
  let k := link s l
  match flitsFor k vc with
  | [] => s
  | f :: rest =>
    sendSequenced l a 2 vc f.tail f.data (setLink s l { k with
      flits := put (fun _ => []) k.flits vc rest
      sentFrames := put (fun _ => 0) k.sentFrames (vc - 1) (look (fun _ => 0) k.sentFrames (vc - 1) + 1)
      lastClass := if vc = 2 then k.lastClass else if vc = 1 then 1 else 2 })

/-- A load-stream frame goes on the link. -/
def sendLoadFrame (l a : Nat) (s : State) : State :=
  let k := link s l
  match k.load with
  | [] => s
  | b :: rest =>
    sendSequenced l a 3 0 false b (setLink s l { k with
      load := rest, sentFrames := put (fun _ => 0) k.sentFrames 3 (look (fun _ => 0) k.sentFrames 3 + 1), lastClass := 3 })

/-- The rotation of VC1, VC3 and the load stream after the class sent last (Table 7.8, order 9). -/
def rotation (last : Nat) : List Nat := match last with
  | 1 => [2, 3, 1]
  | 2 => [3, 1, 2]
  | _ => [1, 2, 3]

/-- The class of order 9 that has something to send and a credit: 1 VC1, 2 VC3, 3 the load stream. -/
def rotationNext (k : Link) : Option Nat :=
  ((rotation k.lastClass).filter fun c =>
    if c = 1 then !(flitsFor k 1).isEmpty && creditLeft k 0
    else if c = 2 then !(flitsFor k 3).isEmpty && creditLeft k 2
    else !k.load.isEmpty && creditLeft k 3).head?

/-- An ack or a credit has waited 256 symbols unreported (Table 7.8, order 5), or a nak is due: Table 7.8 gives the nak no
place, and a link control frame carries it at once: DESIGN CHOICE, unsafe (log entry 111). -/
def reportDue (k : Link) : Bool := k.nakDue || decide (256 ≤ k.ackWait.getD 0) || decide (256 ≤ k.creditWait.getD 0)

/-- An unsequenced frame carries the number of the next sequenced one (Table 7.4). -/
def unsequenced (k : Link) (type : Nat) (p : BitVec 256) : Frame := { type := type, vc := 0, last := false, seq := k.nextSeq, payload := p }

/-- A time exchange or delay measurement frame. -/
def timeFrame (s : State) (k : Link) (x : TimeTx) : Frame :=
  { unsequenced k (timeFrameType x) (timePayload (bits s R.timeSyncCfg 24 8) k.clock x) with delay := delayContent k.clock x }

/-- Orders 5 to 10 of Table 7.8 at a boundary of lane `a` of an up link. -/
def scheduleNew (l a : Nat) (s : State) : State :=
  let k := link s l
  if reportDue k then sendFrame l a (unsequenced k 0 (controlPayload k)) s
  else if k.vc0 ≠ [] ∧ replayRoom k then
    sendSequenced l a 1 0 false (vc0Payload (k.vc0.take 3)) (setLink s l { k with vc0 := k.vc0.drop 3 })
  else match k.exchanges with
    | x :: rest =>
      timeFrameSent l x (sendFrame l a (timeFrame s k x) (setLink s l { k with exchanges := rest }))
    | [] =>
      if ¬ replayRoom k then sendUnit a .idle s
      else if flitsFor k 2 ≠ [] ∧ creditLeft k 1 then sendLinkFlit l a 2 s
      else match rotationNext k with
        | some 1 => sendLinkFlit l a 1 s
        | some 2 => sendLinkFlit l a 3 s
        | some _ => sendLoadFrame l a s
        | none => sendUnit a .idle s

/-- The frame that a resend sends next (Table 7.8, order 4): one that was unacknowledged at its start. -/
def resendNext (k : Link) : Option Frame :=
  match k.resend with
  | some (i, n) => if i < n then k.replay[i]? else none
  | none => none

/-- The first frame of Table 7.8, orders 4 to 10, of an up link that applies at a boundary of lane `a`. -/
def scheduleFrame (l a : Nat) (s : State) : State :=
  let k := link s l
  match resendNext k with
  | some f =>
    let s := setLink s l { k with resend := k.resend.map fun x => (x.1 + 1, x.2) }
    sendFrame l a f (bumpBits s (R.cwLinkResend l) 0 16 1)
  | none => scheduleNew l a s

/-- The training set that a lane sends (Table 7.3). -/
def ownTrainingSet (s : State) (a : Nat) : LaneUnit :=
  let st := if laneState s a = laneConfirm then 1 else 0
  let ord := bits s R.glbDeviceOrdinal 0 8
  match linkOfLane s a with
  | some l => .trainingSet st a ord (linkWidth s l) (a - linkBase s l) (!(link s l).everUp)
  | none => .trainingSet st a ord 0 0 false

/-- A lane whose marker is due has come to a unit boundary: it sends K28.5 until every lane of its link that has one due has,
and then each sends its marker in the same symbol period (R175). A lane that is not in OPER sends training sets, and is not
waited for. -/
def markerBoundary (l a : Nat) (s : State) : State :=
  let s := setLane s a { lane s a with atMarker := true }
  let due := (linkLanes s l).filter fun b => (lane s b).markerDue
  if due.all fun b => (lane s b).atMarker then
    due.foldl (fun acc b =>
      sendUnit b (.marker (linkWidth acc l) (b - linkBase acc l))
        (setLane acc b { lane acc b with markerDue := false, atMarker := false })) s
  else sendUnit a .idle s

/-- A lane of a link comes to a unit boundary: the link's symbol clock stands where the lane's unit ends, which is the symbol
period in which its next unit starts (R187, R310). The clock does not run back (log entry 87). -/
def endUnit (a : Nat) (s : State) : State :=
  match linkOfLane s a with
  | some l => setLink s l { link s l with clock := max (link s l).clock (lane s a).due }
  | none => s

/-- The unit of a lane in OPER (Table 7.8). A lane that sends a token set does not wait for its marker in the meantime (R175). -/
def operUnit (a : Nat) (s : State) : State :=
  let x := lane s a
  match x.tokenDue, linkOfLane s a with
  | (h, c) :: rest, _ => sendUnit a (.token h c) (setLane s a { x with tokenDue := rest, atMarker := false })
  | [], some l =>
    if x.markerDue then markerBoundary l a s
    else if x.fillerDue then sendUnit a .filler (setLane s a { x with fillerDue := false })
    else if linkUp s l then scheduleFrame l a s
    else sendUnit a .idle s
  | [], none =>
    if x.fillerDue then sendUnit a .filler (setLane s a { x with fillerDue := false }) else sendUnit a .idle s

/-- UNIT_BOUNDARY (R163, R177): the lane sends the first unit that applies. CW_LANE_STATUS resets to LOCK, while Table 7.6 keeps a
lane of a domain that is off in OFF: until its domain comes on such a lane stays in LOCK and sends training sets, a DESIGN
CHOICE, unsafe (log entry 120). -/
def unitBoundary (a : Nat) (s : State) : State :=
  let st := laneState s a
  if st = laneOff ∨ st = lanePattern then s
  else if st = laneOper then operUnit a (endUnit a s)
  else
    let s := endUnit a s
    let s := sendUnit a (ownTrainingSet s a) s
    if st = laneConfirm then confirmDone a (setLane s a { lane s a with confirmSent := (lane s a).confirmSent + 1 }) else s

/-- UNIT_BOUNDARY (R177). -/
def execUnitBoundary (a : Fin 80) (s : State) : Host.Outcome State Fault Refusal := .next (unitBoundary a.val s)

/-! ## Receiving frames (R163 to R167, R180, R181) -/

/-- Frames of the replay buffer that an acknowledgement of `ack` covers. -/
def ackedCount (k : Link) (ack : Nat) : Nat :=
  match k.replay with
  | [] => 0
  | f :: _ => let d := (ack + 256 - f.seq + 1) % 256; if d ≤ k.replay.length then d else 0

/-- Acknowledged frames leave the replay buffer; a resend ends when every frame that was unacknowledged at its start
has been acknowledged (R180, R181, R183). -/
def takeAck (l ack : Nat) (s : State) : State :=
  let k := link s l
  let n := ackedCount k ack
  let resend := match k.resend with
    | some (i, m) => if m ≤ n then none else some (i - n, m - n)
    | none => none
  let s := setLink s l { k with
    replay := k.replay.drop n, resend := resend, timeoutRaised := k.timeoutRaised && n == 0 }
  setBit s (R.cwLinkStatus l) 26 resend.isSome

/-- The header CRC holds (R164). -/
def headerOk (h : BitVec 32) : Bool :=
  crc8 [BitVec.ofNat 8 (bitsOf h 0 8), BitVec.ofNat 8 (bitsOf h 8 8), BitVec.ofNat 8 (bitsOf h 16 8)] ==
    BitVec.ofNat 8 (bitsOf h 24 8)

/-- A sequenced frame is discarded: one nak, and no other until the expected frame arrives or a resend window has passed
(R180). -/
def discardFrame (l : Nat) (s : State) : State :=
  let k := link s l
  if k.nakSent then s else setLink s l { k with nakDue := true }

/-- An ack, or a credit, waits to be reported. -/
def ackWaits (k : Link) : Link := { k with ackWait := some (k.ackWait.getD 0) }
def creditWaits (k : Link) : Link := { k with creditWait := some (k.creditWait.getD 0) }

/-- A sequenced frame is accepted in order and waits to be delivered (R166, R167, R180). A nak that is due still goes out. -/
def acceptFrame (l type vc : Nat) (last : Bool) (payload : BitVec 256) (s : State) : State :=
  let k := ackWaits { link s l with expectedSeq := ((link s l).expectedSeq + 1) % 256, nakSent := false }
  match type with
  | 1 => setLink s l { k with rxVc0 := k.rxVc0 ++ [payload] }
  | 2 => setLink s l { k with rxFlits := k.rxFlits ++ [{ type := 2, vc := vc, last := last, seq := 0, payload := payload }] }
  | 3 => setLink s l { k with rxLoad := k.rxLoad ++ [payload] }
  | _ => signal 225 l (setLink s l k)

/-- A frame leaves its receive buffer: its credit is returned (R178). -/
def returnCredit (l c : Nat) (s : State) : State :=
  let k := link s l
  setLink s l (creditWaits { k with creditOut := put (fun _ => 0) k.creditOut c ((look (fun _ => 0) k.creditOut c + 1) % 256) })

/-- A frame accepted before is acknowledged again; one accepted in an earlier up period, and sent again in this one, returns
its credit: DESIGN CHOICE, unsafe (log entry 73). -/
def acceptedBefore (l seq type vc : Nat) (s : State) : State :=
  let s := setLink s l (ackWaits (link s l))
  if (link s l).oldSeqs.contains seq then
    let s := setLink s l { link s l with oldSeqs := (link s l).oldSeqs.filter (· ≠ seq) }
    match creditClass type vc with
    | some c => returnCredit l c s
    | none => s
  else s

/-- A frame whose symbols and header are right, on an up link (R164, R180). A time exchange or delay frame gives only its
header here: its content comes with the commands of those exchanges (log entry 15). -/
def goodFrame (l : Nat) (header : BitVec 32) (payload : BitVec 256) (s : State) : State :=
  let type := bitsOf header 4 4
  let s := takeAck l (bitsOf header 16 8) s
  let s := if header.getLsbD 1 then
    setLink s l { link s l with rxNaks := (link s l).rxNaks ++ [bitsOf header 16 8] } else s
  if type = 0 then setLink s l { link s l with rxControl := (link s l).rxControl ++ [payload] }
  else if type = 4 ∨ type = 5 then s
  else
    let ahead := (bitsOf header 8 8 + 256 - (link s l).expectedSeq) % 256
    if ahead = 0 then acceptFrame l type (bitsOf header 2 2) (header.getLsbD 0) payload s
    else if ahead < 128 then discardFrame l s
    else acceptedBefore l (bitsOf header 8 8) type (bitsOf header 2 2) s

/-- FRAME_RECEIVE (R163, R164, R180). Bytes H0 to H3 are the header's bits from 0 on. -/
def frameReceive (a : Nat) (f : FrameIn) (s : State) : State :=
  let s := unitArrives a 38 f.rx s
  if laneState s a ≠ laneOper then s
  else match linkOfLane s a with
    | none => s
    | some l =>
      if ¬ linkUp s l ∨ f.aborted then s
      else if unitHit f.rx ∨ ¬ headerOk f.header then discardFrame l s
      else goodFrame l f.header f.payload s

/-- A frame among the units of a looped lane, and that frame as its own receiver sees it (R190). -/
def isFrame : LaneUnit → Bool
  | .frame .. => true
  | _ => false
def ownFrame (idles : Nat) : LaneUnit → FrameIn
  | .frame f nak ack bad cut => ⟨frameHeader f nak ack, f.payload, ⟨idles, if bad then [idles + 1] else []⟩, cut.isSome⟩
  | _ => ⟨0, 0, ⟨idles, []⟩, true⟩

/-- A whole time or delay frame that a looped lane has received from itself is kept for the command of its exchange (R190). -/
def keepTimeFrame (a : Nat) (u : LaneUnit) (s : State) : State :=
  match u, linkOfLane s a with
  | .frame f _ _ false none, some l =>
    if (f.type = 4 ∨ f.type = 5) ∧ linkUp s l then setLink s l { link s l with rxTimes := (link s l).rxTimes ++ [(a, f)] } else s
  | _, _ => s

/-- The frame that a lane receives: of its own units while it is looped (R190). -/
def frameHeard (a : Nat) (f : FrameIn) (s : State) : State :=
  receiveUnit a isFrame (fun n u acc => keepTimeFrame a u (frameReceive a (ownFrame n u) acc)) (frameReceive a f) s

/-- The NI that serves a link. -/
def niOfLink (s : State) (l : Nat) : Nat := (niOfEndpoint s (128 + l)).getD 128

/-- The link's service NI sends a VC0 word to the named cluster and entry (R165), by its route-table entry for that
cluster (R139). -/
def deliverLinkWord (l : Nat) (w : DWord) (cluster e : Nat) (s : State) : State :=
  let i := niOfLink s l
  if routeValid s i cluster ∧ routeVc s i cluster = 0 then
    let p := mkPacket 0 0 (routeCodes s i cluster) (128 + l) cluster e 0 (routePad s i cluster - routePadSrc s i cluster) [w]
    let x := ni s i
    setNi s i { x with sourceHold := x.sourceHold ++ [⟨p, routerPeriods s (routerOfNi s i) + routePadSrc s i cluster⟩] }
  else signal 221 i s

/-- VC0_FRAME_RECEIVE (R165, R167): the oldest accepted VC0 frame of the link is delivered word by word. -/
def vc0FrameReceive (l : Nat) (s : State) : State :=
  match (link s l).rxVc0 with
  | [] => s
  | p :: rest =>
    let s := setLink s l { link s l with rxVc0 := rest }
    forUpTo (min 3 (bitsOf p 0 8)) (fun k acc =>
      deliverLinkWord l (BitVec.ofNat 64 (bitsOf p (80 * k + 16) 64)) (bitsOf p (80 * k + 80) 8) (bitsOf p (80 * k + 88) 8) acc) s

/-- VC0_FRAME_RECEIVE (R165). -/
def execVc0FrameReceive (l : Fin 20) (s : State) : Host.Outcome State Fault Refusal := .next (vc0FrameReceive l.val s)

/-- The NI is stopped from sending new VC1 and VC3 packets (R150). -/
def niQuiesced (s : State) (i : Nat) : Bool := bit s (R.wfNiCtrl i) 0

/-- A packet that is answered: a VC1 packet or a VC3 read (R153). -/
def awaitsAnswer (h : BitVec 256) : Bool := headKind h == 1 || headKind h == 6

/-- NI `i` may send a packet now: VC1 and VC3 not while it is quiesced, and a request only below the bound of 64 outstanding
ones (R150, R153). -/
def niMaySend (s : State) (i : Nat) (h : BitVec 256) : Bool :=
  headVc h == 2 || (!niQuiesced s i && (!awaitsAnswer h || decide ((ni s i).outstanding.length < 64)))

/-- A packet that came over a link goes on at the service NI with the route of its table entry for the destination, on VC2 in
the order of R138, and a new CRC; the tag of a request is recorded, and the request is outstanding until its answer passes (R153, R178). -/
def forwardPacket (l : Nat) (p : Packet) (s : State) : State :=
  let i := niOfLink s l
  let e := headDst p.head
  if routeValid s i e then
    let codes := if headVc p.head = 2 then orderCodes 2 (routeCodes s i e) else routeCodes s i e
    let route := (codes.zipIdx).foldl (fun acc x => acc + x.1 <<< (3 * x.2)) 0
    let h := sealHead (withBits (withBits (withBits p.head 245 5 codes.length) 240 5 0) 174 66 route)
    let s := if awaitsAnswer h then
        let s := setLink s l { link s l with recorded := (link s l).recorded ++ [(headSrc h, headTag h)] }
        setNi s i { ni s i with outstanding := (ni s i).outstanding ++ [⟨headTag h, e, none, 0⟩] }
      else s
    inject i ⟨h, p.payload⟩ s
  else signal 221 i s

/-- The flits of a virtual channel collected on a link with one more. -/
def withFlit (k : Link) (f : Frame) : List Flit :=
  let sofar := look (fun _ => []) k.rxPartial f.vc
  sofar ++ [⟨f.payload, f.vc, sofar.isEmpty, f.last, sideParity f.vc sofar.isEmpty f.last, false, 0⟩]

/-- The oldest flit of the link that can go on: a tail waits with its channel while the service NI may not send its packet
(R178). -/
def nextRxFlit (s : State) (l : Nat) : Option Frame :=
  let k := link s l
  let waits := fun (f : Frame) =>
    f.last && !niMaySend s (niOfLink s l) (((withFlit k f).head?.map (·.data)).getD 0)
  let blocked := fun (vc : Nat) => ((k.rxFlits.find? fun f => f.vc == vc).map waits).getD false
  k.rxFlits.find? fun f => !blocked f.vc

/-- FLIT_FRAME_RECEIVE (R178): the oldest accepted flit of the link that can go on; a packet enters the Wayfabric when its
tail has come, and its frames' credits are returned then. -/
def flitFrameReceive (l : Nat) (s : State) : State :=
  match nextRxFlit s l with
  | none => s
  | some f =>
    let k := link s l
    let got := withFlit k f
    let s := setLink s l { k with
      rxFlits := k.rxFlits.erase f, rxPartial := put (fun _ => []) k.rxPartial f.vc (if f.last then [] else got) }
    if f.last then
      forwardPacket l ⟨((got.head?.map (·.data)).getD 0), payloadOf got⟩
        (forUpTo got.length (fun _ acc => returnCredit l (f.vc - 1) acc) s)
    else s

/-- FLIT_FRAME_RECEIVE (R178). -/
def execFlitFrameReceive (l : Fin 20) (s : State) : Host.Outcome State Fault Refusal := .next (flitFrameReceive l.val s)

/-- A cumulative count mod 256 read as the total it continues. -/
def continueCount (total mod256 : Nat) : Nat := total + (mod256 + 256 - total % 256) % 256

/-- LINK_CONTROL_RECEIVE (R178): the oldest link control frame returns credits. -/
def linkControlReceive (l : Nat) (s : State) : State :=
  match (link s l).rxControl with
  | [] => s
  | p :: rest =>
    let k := { link s l with rxControl := rest }
    setLink s l { k with creditIn := (List.range 4).foldl (fun acc c =>
      put (fun _ => 0) acc c (continueCount (look (fun _ => 0) acc c) (bitsOf p (8 * c) 8))) k.creditIn }

/-- NAK_RECEIVE (R181): a nak starts a resend, or restarts it from the frame that the nak names. -/
def nakReceive (l : Nat) (s : State) : State :=
  match (link s l).rxNaks with
  | [] => s
  | _ :: rest => startResend l (setLink s l { link s l with rxNaks := rest })

/-- NAK_RECEIVE (R181). -/
def execNakReceive (l : Fin 20) (s : State) : Host.Outcome State Fault Refusal := .next (nakReceive l.val s)

/-- RESEND_WINDOW_EXPIRY: of the transmitter, whose oldest unacknowledged frame is older than W (R181), or of the receiver,
W after its nak, so that it may send one again (R180). -/
def resendWindowExpiry (l : Nat) (receiver : Bool) (s : State) : State :=
  if receiver then setLink s l { link s l with nakSent := false }
  else if linkUp s l ∧ (link s l).resend.isNone then startResend l s
  else s

/-- RESEND_WINDOW_EXPIRY (R181). -/
def execResendWindowExpiry (x : WindowEnd) (s : State) : Host.Outcome State Fault Refusal :=
  .next (resendWindowExpiry x.link.val x.receiver s)

/-- CW_LINK_TIMEOUT (R183): a frame has stayed unacknowledged too long. The fault is raised once until a frame has been
acknowledged. -/
def linkTimeout (l : Nat) (s : State) : State :=
  let k := link s l
  if k.replay = [] then s
  else
    let retry := k.resend.isSome
    let s := setLink s l { k with resend := none, timeoutRaised := true }
    let s := linkToLock l (setBit s (R.cwLinkStatus l) 26 false)
    let s := setBit s (R.cwLinkStatus l) 25 true
    let s := if retry then setBit s (R.cwLinkStatus l) 24 true else s
    if k.timeoutRaised then s else signal (100 + l) retry.toNat s

/-- CW_LINK_TIMEOUT (R183). -/
def execCwLinkTimeout (l : Fin 20) (s : State) : Host.Outcome State Fault Refusal := .next (linkTimeout l.val s)

/-! ## Tokens on a link (R185) -/

/-- The sets that wait on a lane with one more, unless that one waits already. -/
def queueSet (sets : List (Bool × Nat)) (x : Bool × Nat) : List (Bool × Nat) := if sets.contains x then sets else sets ++ [x]

/-- A token set or hold marker is to be sent on every lane of link `l`, after those not yet sent there. -/
def sendTokenOn (l : Nat) (hold : Bool) (count : Nat) (s : State) : State :=
  let s := setLink s l { link s l with lastTokenOut := some (hold, count % 256) }
  (linkLanes s l).foldl (fun acc a =>
    setLane acc a { lane acc a with tokenDue := queueSet (lane acc a).tokenDue (hold, count % 256) }) s

/-- A token set or hold marker for ec `e` goes out on every lane of every link of GLB_MS_LINKS (R185). -/
def sendTokens (hold : Bool) (e : Nat) (s : State) : State := (msLinks s).foldl (fun acc l => sendTokenOn l hold e acc) s

/-- TOKEN_REPEAT (R185): the last set is sent again on every lane of the link. -/
def tokenRepeat (l : Nat) (s : State) : State :=
  match (link s l).lastTokenOut with
  | some (h, c) => sendTokenOn l h c s
  | none => s

/-- TOKEN_REPEAT (R185). -/
def execTokenRepeat (l : Fin 20) (s : State) : Host.Outcome State Fault Refusal := .next (tokenRepeat l.val s)

/-- A token set or hold marker among the units of a looped lane, and that set as its own receiver sees it (R190). -/
def isToken (hold : Bool) : LaneUnit → Bool
  | .token h _ => h == hold
  | _ => false
def ownToken (idles : Nat) : LaneUnit → TokenIn
  | .token _ c => ⟨BitVec.ofNat 8 c, true, ⟨idles, []⟩⟩
  | _ => ⟨0, false, ⟨idles, []⟩⟩

/-- A token set or hold marker arrives on a lane (R163, R185): a copy with a failed CRC is a code error and is discarded; a
good one goes to the milestone logic. -/
def setArrives (take : Nat → Byte → State → State) (a : Nat) (x : TokenIn) (s : State) : State :=
  let s := unitArrives a 4 x.rx s
  if laneState s a ≠ laneOper ∨ unitHit x.rx then s
  else if ¬ x.crcOk then codeError a s
  else match linkOfLane s a with
    | some l => take l x.count s
    | none => s

/-- TOKEN_RECEIVE (R107, R185). -/
def tokenReceive (a : Nat) (x : TokenIn) (s : State) : State :=
  receiveUnit a (isToken false) (fun n u acc => setArrives takeToken a (ownToken n u) acc) (setArrives takeToken a x) s

/-- TOKEN_RECEIVE (R107). -/
def execTokenReceive (a : Fin 80) (x : TokenIn) (s : State) : Host.Outcome State Fault Refusal := .next (tokenReceive a x s)

/-- HOLD_MARKER_RECEIVE (R108, R185). -/
def holdMarkerReceive (a : Nat) (x : TokenIn) (s : State) : State :=
  receiveUnit a (isToken true) (fun n u acc => setArrives takeHoldMarker a (ownToken n u) acc)
    (setArrives takeHoldMarker a x) s

/-- HOLD_MARKER_RECEIVE (R108). -/
def execHoldMarkerReceive (a : Fin 80) (x : TokenIn) (s : State) : Host.Outcome State Fault Refusal :=
  .next (holdMarkerReceive a x s)

end Sys2Proof.Machine
end

