-- ==== Sys2Proof/Machine/Interfaces.lean ====
section
/-! DEFINITION. Network interfaces (chapter 6 and R427): sending requests, receiving packets, responses and reserved
queue places, quiescing, router resets, route entries, slot switches and the probe trace buffer. -/
namespace Sys2Proof.Machine

/-! ## Requests (R47, R153, R217, R425, R427) -/

/-- Lowest free request tag of an interface (R154); none when all 64 are in use. -/
def freeTag (x : Ni) : Option Nat :=
  ((List.range 64).filter fun t => x.outstanding.all fun o => o.tag != t).head?

/-- The places of a queue not held by words or reservations. -/
def queueRoom (c : Cluster) (q : Nat) : Nat := 32 - (queue c q).words.length - (queue c q).places.length

/-- Words that a queue request takes, and words that answer it: an operand for Harbour is one word answered by one
(R223), any other request is a header of Table 8.10 with its data words (R217, R218). -/
def requestShape (dst : Nat) (header : DWord) : Nat × Nat :=
  let n := 2 ^ bitsOf header 60 2
  if dst = 152 then (1, 1)
  else match bitsOf header 62 2 with
    | 1 => (1 + n, 0)
    | 2 => (1 + n, 1)
    | _ => (1, n)

/-- Route-table index and response queue of an outbound queue (CLU_Q_CFG). -/
def queueRoute (s : State) (n q : Nat) : Nat := bits s (R.cluQCfg n q) 16 8
def responseQueue (s : State) (n q : Nat) : Nat := bits s (R.cluQCfg n q) 12 4

/-- Queue `q` has a request ready: all its words are present, and its response room can be reserved (R427). -/
def queueReady (s : State) (n : Nat) (c : Cluster) (q : Nat) : Bool :=
  outboundQueue s n q &&
    match (queue c q).words with
    | [] => false
    | h :: _ =>
      let shape := requestShape (routeDst s n (queueRoute s n q)) h
      decide (shape.1 ≤ (queue c q).words.length) && decide (shape.2 ≤ queueRoom c (responseQueue s n q))

/-- A source has a request ready: 0 to 15 a queue, 16 the send FIFO. -/
def sourceReady (s : State) (n : Nat) (c : Cluster) (src : Nat) : Bool :=
  if src < 16 then queueReady s n c src else !c.sendFifo.isEmpty

/-- The next source in the order of R427 that has a request ready. -/
def nextSource (s : State) (n : Nat) (c : Cluster) : Option Nat :=
  ((List.range 17).map fun k => ((ni s n).lastSource + 1 + k) % 17).find? fun src => sourceReady s n c src

/-- Reserve `k` places of an inbound queue for tag `t` (R154), holding `w`. -/
def reservePlaces (c : Cluster) (q t k : Nat) (w : Option DWord) : Cluster :=
  setQueue c q { queue c q with places := (queue c q).places ++ List.replicate k ⟨t, w⟩ }

/-- A route-table entry that leads from a cluster NI to an endpoint on a virtual channel, the lowest one. -/
def entryTo (s : State) (n dst vc : Nat) : Option Nat :=
  (((listed s (R.wfRt0 n 0) 1024).filter fun x => x.1 % 4 == 0 && x.2.getLsbD 31 && bitsOf x.2 29 2 == vc &&
    bitsOf x.2 16 8 == dst).map fun x => x.1 / 4).head?

/-- The NI sends the request at the head of queue `q` (R217, R223, R427), or treats an unusable route under R425. -/
def sendQueueRequest (n q t : Nat) (s : State) : State :=
  let c := clu s n
  let e := queueRoute s n q
  let rq := responseQueue s n q
  let ws := (queue c q).words
  let shape := requestShape (routeDst s n e) (ws.headD 0)
  let c := setQueue c q { queue c q with words := ws.drop shape.1 }
  if queueRouteOk s n e then
    let s := setClu s n (reservePlaces c rq t shape.2 none)
    let payload := if routeDst s n e = 152 then [ws.headD 0, 1] else ws.take shape.1
    let x := ni s n
    let s := setNi s n { x with
      outstanding := x.outstanding ++ [⟨t, routeDst s n e, some rq, shape.2⟩], lastSource := q }
    inject n (mkPacket 1 1 (routeCodes s n e) n (routeDst s n e) t rq 0 payload) s
  else
    let c := reservePlaces c rq t shape.2 (some 0)
    let s := setClu s n (showPlaces s n rq 32 c)
    signal 221 n (setNi s n { ni s n with lastSource := q })

/-- The NI sends the oldest message of the send FIFO to Harbour (R74, R223). The lowest valid VC1 entry that names
endpoint 152 gives its route (log entry 16); without one it is treated as a request whose route is not usable. -/
def sendMessage (n t : Nat) (s : State) : State :=
  let c := clu s n
  let s := setClu s n { c with sendFifo := c.sendFifo.drop 1 }
  let x := ni s n
  match entryTo s n 152 1 with
  | some e =>
    let s := setNi s n { x with outstanding := x.outstanding ++ [⟨t, 152, none, 0⟩], lastSource := 16 }
    inject n (mkPacket 1 1 (routeCodes s n e) n 152 t 0 0 [c.sendFifo.headD 0]) s
  | none => signal 221 n (setNi s n { x with lastSource := 16 })

/-- NI_REQUEST_SEND (R427): the next ready source in round robin sends one request. -/
def niRequestSend (n : Nat) (s : State) : State :=
  if niQuiesced s n then s
  else match freeTag (ni s n), nextSource s n (clu s n) with
    | some t, some src => if src < 16 then sendQueueRequest n src t s else sendMessage n t s
    | _, _ => s

/-- NI_REQUEST_SEND (R427). -/
def execNiRequestSend (n : Fin 128) (s : State) : Host.Outcome State Fault Refusal := .next (niRequestSend n.val s)

/-! ## Answers -/

/-- Release the outstanding request of a tag. -/
def releaseTag (n t : Nat) (s : State) : State :=
  setNi s n { ni s n with outstanding := (ni s n).outstanding.filter fun o => o.tag ≠ t }

/-- Fill the reserved places of tag `t` in order (R154). -/
def fillPlaces (t : Nat) : List Place → List DWord → List Place
  | [], _ => []
  | ps, [] => ps
  | p :: ps, w :: ws => if p.tag = t ∧ p.word.isNone then ⟨t, some w⟩ :: fillPlaces t ps ws else p :: fillPlaces t ps (w :: ws)

/-- QUEUE_APPEND (R154): the oldest response fills its reserved places; the words that have no unfilled place before
them become visible, and the request's tag is free again. -/
def queueAppend (n : Nat) (s : State) : State :=
  let x := ni s n
  match x.responses with
  | [] => s
  | p :: rest =>
    let s := setNi s n { x with responses := rest }
    let t := headTag p.head % 64
    match x.outstanding.find? fun o => o.tag == t with
    | some ⟨_, _, some q, k⟩ =>
      let c := clu s n
      let c := setQueue c q { queue c q with places := fillPlaces t (queue c q).places (p.payload.take k) }
      releaseTag n t (setClu s n (showPlaces s n q 32 c))
    | _ => releaseTag n t s

/-- QUEUE_APPEND (R154). -/
def execQueueAppend (n : Fin 128) (s : State) : Host.Outcome State Fault Refusal := .next (queueAppend n.val s)

/-- ACCEPTANCE_RECEIVE (R153): the tag of the oldest acceptance is free again. -/
def acceptanceReceive (n : Nat) (s : State) : State :=
  let x := ni s n
  match x.acceptances with
  | [] => s
  | p :: rest => releaseTag n (headTag p.head % 64) (setNi s n { x with acceptances := rest })

/-- ACCEPTANCE_RECEIVE (R153). -/
def execAcceptanceReceive (n : Fin 128) (s : State) : Host.Outcome State Fault Refusal := .next (acceptanceReceive n.val s)

/-- WF_ASLEEP_LOG records a kind-4 packet: the endpoint it returned to, and the endpoint that sent it. -/
def logAsleep (src dst : Nat) (s : State) : State :=
  setReg s R.wfAsleepLog (BitVec.ofNat 32 ((src % 256) <<< 24 + (dst % 256) <<< 16 + satAdd 16 (bits s R.wfAsleepLog 0 16) 1))

/-- The reserved words of the tag's request are appended as 0 and its tag is free again (R152). -/
def answerZeros (n t : Nat) (s : State) : State :=
  match (ni s n).outstanding.find? fun o => o.tag == t with
  | some ⟨_, _, some q, k⟩ =>
    let c := clu s n
    let c := setQueue c q { queue c q with places := fillPlaces t (queue c q).places (List.replicate k 0) }
    releaseTag n t (setClu s n (showPlaces s n q 32 c))
  | _ => releaseTag n t s

/-- DOMAIN_ASLEEP_RECEIVE (R152). Bit 0 of the payload tells the answer to a request from a notice (log
entry 17). Harbour's probes take it as their answer (Table 9.5). -/
def domainAsleepReceive (i : Nat) (s : State) : State :=
  let x := ni s i
  match x.notices with
  | [] => s
  | p :: rest =>
    let s := setBit (logAsleep (headDst p.head) (headSrc p.head) (setNi s i { x with notices := rest })) R.wfStatus 4 true
    let s := signal 222 (headSrc p.head) s
    if ¬ (p.payload.headD 0).getLsbD 0 then s
    else if i = 134 then setNi s i { ni s i with responses := (ni s i).responses ++ [p] }
    else answerZeros i (headTag p.head % 64) s

/-- DOMAIN_ASLEEP_RECEIVE (R152). -/
def execDomainAsleepReceive (i : Fin 136) (s : State) : Host.Outcome State Fault Refusal := .next (domainAsleepReceive i.val s)

/-! ## Hold at the source (R145) -/

/-- The held word with the smallest due count, the oldest of them, if its time has come. -/
def dueWord (now : Nat) (hs : List Held) : Option Held :=
  let ready := hs.filter fun h => decide (h.due ≤ now)
  let first := ready.foldl (fun m h => min m h.due) now
  ready.find? fun h => h.due == first

/-- NI_SOURCE_HOLD_EXPIRY (R145): the word enters the local input. -/
def niSourceHoldExpiry (i : Nat) (s : State) : State :=
  match dueWord (routerPeriods s (routerOfNi s i)) (ni s i).sourceHold with
  | some h => inject i h.packet (setNi s i { ni s i with sourceHold := (ni s i).sourceHold.erase h })
  | none => s

/-- NI_SOURCE_HOLD_EXPIRY (R145). -/
def execNiSourceHoldExpiry (i : Fin 136) (s : State) : Host.Outcome State Fault Refusal := .next (niSourceHoldExpiry i.val s)

/-- ROUTER_OUTPUT_SELECT (R142). -/
def execRouterOutputSelect (r : Fin 144) (s : State) : Host.Outcome State Fault Refusal := .next (routerPeriod r.val s)

/-! ## Receiving (R132, R136, R152) -/

/-- A unit is absent behind an endpoint of a domain that it shares with others (R132): the quad of a link's lowest lane, the
observation unit. -/
def unitAbsent (s : State) (e : Nat) : Bool :=
  if 128 ≤ e ∧ e < 148 then !bit s R.glbUnitPresent1 (linkBase s (e - 128) / 4)
  else e == 156 && !bit s R.glbUnitPresent0 21

/-- The domain behind an endpoint does not take traffic: it is closed, asleep or its unit is absent (R132, R152). -/
def endpointClosed (s : State) (e : Nat) : Bool :=
  match endpointDomain s e with
  | some d => !domainOn s d || unitAbsent s e
  | none => false

/-- The domain behind an endpoint is past its drain (phase 3 of Table 6.5), or its unit is absent. -/
def endpointAsleep (s : State) (e : Nat) : Bool :=
  match endpointDomain s e with
  | some d => !domainSignals s d || unitAbsent s e
  | none => false

/-- A packet of the mesh enters the link's transmit queue of its virtual channel (R178). Its head goes out as it is, so that it
still names endpoint 128 + l when the far device routes by it; who makes it name the endpoint there the manual does not
say: DESIGN CHOICE, unsafe (log entry 119). -/
def enterLink (l vc : Nat) (p : Packet) (s : State) : State :=
  let k := link s l
  setLink s l { k with flits := put (fun _ => []) k.flits vc (flitsFor k vc ++ packetFlits p) }

/-- The link of NI `i` over which the request came that an answer belongs to (R178). -/
def answerLink (s : State) (i : Nat) (p : Packet) : Option Nat :=
  (List.range 20).find? fun l => niOfLink s l == i && (link s l).recorded.contains (headDst p.head, headTag p.head)

/-- A discarded word or posted write is announced to its source (R152, log entry 17). That the notice takes the packet's own
route reversed, and its tag modulo 64, is a DESIGN CHOICE (log entry 96): R138 reverses the route of a kind 1 or 6 packet. -/
def announceAsleep (i : Nat) (p : Packet) (s : State) : State := respond i p 4 [0] s

/-- A packet for an endpoint of NI `i` whose domain takes no traffic (R152). A packet of a reserved kind is dropped as it is
for an open one (log entry 47). A late response that is discarded leaves its request outstanding: DESIGN CHOICE, unsafe (log
entry 109). -/
def receiveClosed (i : Nat) (p : Packet) (s : State) : State :=
  let kind := headKind p.head
  let x := ni s i
  if kind = 1 ∨ kind = 6 then respond i p 4 [1] s
  else if kind = 4 then setNi s i { x with notices := x.notices ++ [p] }
  else if kind = 2 ∨ kind = 3 then
    if endpointAsleep s (headDst p.head) then bumpBits s R.wfAsleepLog 0 16 1
    else if kind = 2 then setNi s i { x with responses := x.responses ++ [p] }
    else setNi s i { x with acceptances := x.acceptances ++ [p] }
  else if kind < 9 then announceAsleep i p s
  else s

/-- Harbour's access to a design bank takes effect on it (R197, Table 10.11). -/
def hbBankOpen (s : State) (b : Nat) : Bool := bankUsable s b && ownsBank s 0x83 b && !cellsAct s (b / 16)

/-- The bank of a VC1 request to endpoint 8 × (b div 16) serves it (R197, R235): a read is answered with its words, a write with
an acceptance. An access that Harbour may not make reads 0 or is discarded, and is reported but under breakwater cells. Ops 2
and 3 are served as reads, and word offsets run round at the end of the bank: DESIGN CHOICE (log entry 75); the mover sends
neither. A VC1 request of a source other than Harbour is served with Harbour's ownership, too: DESIGN CHOICE, unsafe (log entry
122). -/
def bankServe (n : Nat) (p : Packet) (s : State) : State :=
  let h := p.payload.headD 0
  let b := bitsOf h 48 8
  let ks := List.range (2 ^ bitsOf h 60 2)
  let place := fun k => 8 * ((bitsOf h 0 15 + k) % 32768)
  let s := if hbBankOpen s b ∨ cellsAct s (b / 16) then s else notOwned b s
  if bitsOf h 62 2 = 1 then
    respond n p 3 [] (if hbBankOpen s b then
      setDesignMem s b (ks.foldl (fun m k => writeDWord m (place k) (p.payload.getD (1 + k) 0)) (designMem s b)) else s)
  else respond n p 2 (ks.map fun k => if hbBankOpen s b then readDWord (designMem s b) (place k) else 0) s

/-- A packet for an open endpoint of NI `i`, by its kind (Table 6.4): words are held for their destination hold
(R145), a request for a link goes to the link, and one for a cluster's endpoint to the bank it names. -/
def receiveOpen (i : Nat) (p : Packet) (s : State) : State :=
  let x := ni s i
  let e := headDst p.head
  match headKind p.head with
  | 0 => setNi s i { x with words := x.words ++ [⟨p, routerPeriods s (routerOfNi s i) + headDstHold p.head⟩] }
  | 1 =>
    if e < 128 then bankServe i p s
    else if e < 148 then enterLink (e - 128) 1 p s
    else setNi s i { x with requests := x.requests ++ [p] }
  | 2 => setNi s i { x with responses := x.responses ++ [p] }
  | 3 => setNi s i { x with acceptances := x.acceptances ++ [p] }
  | 4 => setNi s i { x with notices := x.notices ++ [p] }
  | 5 | 6 | 7 | 8 =>
    if 128 ≤ e ∧ e < 148 then enterLink (e - 128) 3 p s else setNi s i { x with management := x.management ++ [p] }
  | _ => s

/-- A packet for no endpoint of NI `i` (R136). -/
def misrouted (i : Nat) (p : Packet) (s : State) : State :=
  headerError (routerOfNi s i) 0 (headVc p.head) 3 (signal 221 i (setBit s R.wfStatus 3 true))

/-- The outstanding request of NI `i` that came over a link and that an answer belongs to (R153, R178). -/
def forwardedFor (p : Packet) : Outstanding := ⟨headTag p.head, headSrc p.head, none, 0⟩

/-- The answer to a request that came over link `l` goes back over it (R178); while the link's domain is asleep it is late, and
is discarded and counted (R152). -/
def answerOver (i l : Nat) (p : Packet) (s : State) : State :=
  let k := link s l
  let s := setLink s l { k with recorded := k.recorded.erase (headDst p.head, headTag p.head) }
  let s := setNi s i { ni s i with outstanding := (ni s i).outstanding.erase (forwardedFor p) }
  if endpointAsleep s (128 + l) then bumpBits s R.wfAsleepLog 0 16 1 else enterLink l 2 p s

/-- The answer belongs to a request that came over a link whose record went with its domain. -/
def answerOrphaned (s : State) (i : Nat) (p : Packet) : Bool :=
  decide (128 ≤ i ∧ i < 132) && (ni s i).outstanding.contains (forwardedFor p)

/-- NI_PACKET_RECEIVE (R136). The notice of a posted write that came over a link has no record to go back by, since R178
records requests only, and is treated as any packet of this NI, mostly as a misroute: DESIGN CHOICE, unsafe (log entry 108). -/
def niPacketReceive (i : Nat) (s : State) : State :=
  match (ni s i).arrived with
  | [] => s
  | p :: rest =>
    let s := setNi s i { ni s i with arrived := rest }
    let kind := headKind p.head
    let answers := decide (kind = 2 ∨ kind = 3 ∨ kind = 4)
    match (if answers then answerLink s i p else none) with
    | some l => answerOver i l p s
    | none =>
      if answers && answerOrphaned s i p then
        bumpBits (setNi s i { ni s i with outstanding := (ni s i).outstanding.erase (forwardedFor p) }) R.wfAsleepLog 0 16 1
      else if niOfEndpoint s (headDst p.head) ≠ some i then misrouted i p s
      else if endpointClosed s (headDst p.head) then receiveClosed i p s
      else receiveOpen i p s

/-- NI_PACKET_RECEIVE (R136). -/
def execNiPacketReceive (i : Fin 136) (s : State) : Host.Outcome State Fault Refusal := .next (niPacketReceive i.val s)

/-- LINK_VC0_ENTER (R165, R179): the oldest word held for the link enters it under CW_VC0_MAP of its tag. -/
def linkVc0Enter (l : Nat) (s : State) : State :=
  let i := niOfLink s l
  let x := ni s i
  match x.words.find? fun h => headDst h.packet.head == 128 + l && decide (h.due ≤ routerPeriods s (routerOfNi s i)) with
  | none => s
  | some h =>
    let s := setNi s i { x with words := x.words.erase h }
    let m := reg s (R.cwVc0Map l (headTag h.packet.head))
    if m.getLsbD 31 then
      let k := link s l
      setLink s l { k with vc0 := k.vc0 ++ [(h.packet.payload.headD 0, bitsOf m 16 7, bitsOf m 0 8)] }
    else signal 221 i s

/-- LINK_VC0_ENTER (R165). -/
def execLinkVc0Enter (l : Fin 20) (s : State) : Host.Outcome State Fault Refusal := .next (linkVc0Enter l.val s)

/-! ## Reservation probes (R237) -/

/-- The oldest packet of a kind among the management packets of an NI, and the rest. -/
def takeManagement (x : Ni) (kind : Nat) : Option (Packet × Ni) :=
  (x.management.find? fun p => headKind p.head == kind).map fun p => (p, { x with management := x.management.erase p })

/-- RESERVATION_PROBE (R237): a grant reserves the places under the lowest free tag; a refusal gives its reason. No
free tag counts as no room (log entry 18). -/
def reservationProbe (n : Nat) (s : State) : State :=
  match takeManagement (ni s n) 6 with
  | none => s
  | some (p, x) =>
    let s := setNi s n x
    let w := p.payload.headD 0
    let q := bitsOf w 0 4
    let k := bitsOf w 4 6
    let refuse := fun (reason : Nat) => respond n p 2 [BitVec.ofNat 64 (reason <<< 14)] s
    if !reachRuns s (n / 8) then refuse 2
    else if ¬ inboundQueue s n q then refuse 1
    else match freeTag x with
      | none => refuse 0
      | some t =>
        if queueRoom (clu s n) q < k then refuse 0
        else
          let s1 := setClu s n (reservePlaces (clu s n) q t k none)
          let s2 := setNi s1 n { ni s1 n with outstanding := (ni s1 n).outstanding ++ [⟨t, headSrc p.head, some q, k⟩] }
          respond n p 2 [BitVec.ofNat 64 (1 + t <<< 8)] s2

/-- RESERVATION_PROBE (R237). -/
def execReservationProbe (n : Fin 128) (s : State) : Host.Outcome State Fault Refusal := .next (reservationProbe n.val s)

/-! ## Quiescing and routers (R150, R151) -/

/-- A tree message goes out on a link, as a posted VC3 write of NI 135 to endpoint 155 of the neighbour (R258); while that NI
is quiesced it waits (R150). -/
def sendTree (l : Nat) (w : DWord) (s : State) : State :=
  if 20 ≤ l then s
  else if niQuiesced s 135 then { s with ld := { s.ld with outbox := s.ld.outbox ++ [(l, w)] } }
  else enterLink l 3 (mkPacket 3 5 [] 155 155 0 0 0 [w]) s

/-- The tree messages that waited go out. -/
def sendWaiting (s : State) : State :=
  s.ld.outbox.foldl (fun acc x => sendTree x.1 x.2 acc) { s with ld := { s.ld with outbox := [] } }

/-- A write of WF_NI_CTRL (R150). -/
def niCtrlWrite (i : Nat) (on : Bool) (s : State) : State :=
  if ¬ on then
    let s := setBit (setBit s (R.wfNiCtrl i) 0 false) (R.wfNiStatus i) 31 false
    if i = 135 then sendWaiting s else s
  else if 128 ≤ i ∨ inHold s (i / 8) ∨ designFrozen s then setBit s (R.wfNiCtrl i) 0 true
  else setBit s (R.wfNiStatus i) 27 true

/-- QUIESCE (R150). -/
def execQuiesce (i : Fin 136) (s : State) : Host.Outcome State Fault Refusal := .next (niCtrlWrite i.val true s)

/-- NI_QUIET (R150): quiet is set once no request is outstanding. -/
def niQuiet (i : Nat) (s : State) : State :=
  if niQuiesced s i ∧ (ni s i).outstanding = [] then setBit s (R.wfNiStatus i) 31 true else s

/-- NI_QUIET (R150). -/
def execNiQuiet (i : Fin 136) (s : State) : Host.Outcome State Fault Refusal := .next (niQuiet i.val s)

/-- ROUTER_RESET (R151): the drain begins. -/
def routerReset (r : Nat) (s : State) : State :=
  if bit s (R.wfRtrCtrl r) 0 then s else setBit (setBit s (R.wfRtrCtrl r) 0 true) (R.wfRtrStatus r) 30 true

/-- ROUTER_RESET (R151). -/
def execRouterReset (r : Fin 144) (s : State) : Host.Outcome State Fault Refusal := .next (routerReset r.val s)

/-- Nothing is in progress in the router: its mesh inputs are empty and no output carries a packet. -/
def routerDrained (s : State) (r : Nat) : Bool :=
  (List.range 5).all fun o => (List.range 4).all fun vc =>
    (lockedBy s r o vc).isNone && (o == 0 || (bufferAt s (vcKey r o vc)).isEmpty)

/-- ROUTER_DRAIN_DONE (R151): the router clears its buffers, credits and arbitration state for 256 sc. The NI's own
packets wait in the NI. -/
def routerDrainDone (r : Nat) (s : State) : State :=
  if routerDraining s r ∧ routerDrained s r then
    let keys := (List.range 5).flatMap fun o => (List.range 4).map fun vc => vcKey r o vc
    let s := keys.foldl (fun acc k => { acc with net := { acc.net with
      locks := put (fun _ => 0) acc.net.locks k 0, lastInput := put (fun _ => 4) acc.net.lastInput k 4 } }) s
    let s := (List.range 5).foldl (fun acc o =>
      { acc with net := { acc.net with lastBest := put (fun _ => false) acc.net.lastBest (r * 5 + o) false } }) s
    setBit (setBit s (R.wfRtrStatus r) 30 false) (R.wfRtrStatus r) 31 true
  else s

/-- ROUTER_DRAIN_DONE (R151). -/
def execRouterDrainDone (r : Fin 144) (s : State) : Host.Outcome State Fault Refusal := .next (routerDrainDone r.val s)

/-- ROUTER_REOPEN (R151). -/
def routerReopen (r : Nat) (s : State) : State :=
  if routerInReset s r then setBit (setBit s (R.wfRtrStatus r) 31 false) (R.wfRtrCtrl r) 0 false else s

/-- ROUTER_REOPEN (R151). -/
def execRouterReopen (r : Fin 144) (s : State) : Host.Outcome State Fault Refusal := .next (routerReopen r.val s)

/-! ## Route entries and slot tables (R140, R141, R149) -/

/-- A write of word `w` of a route entry: discarded unless the NI is quiet (R141), and word 0 is checked when it sets
valid (R140). -/
def routeWordWrite (i e w : Nat) (v : Word) (s : State) : State :=
  if ¬ bit s (R.wfNiStatus i) 31 then setBit s (R.wfNiStatus i) 27 true
  else if w ≠ 0 then writeFields (R.wfRt0 i e + 4 * w) v s
  else if ¬ v.getLsbD 31 ∨ routeCheck s i e v then writeFields (R.wfRt0 i e) v s
  else setBit (setBit (writeFields (R.wfRt0 i e) v s) (R.wfRt0 i e) 31 false) (R.wfNiStatus i) 28 true

/-- ROUTE_ENTRY_WRITE (R140). -/
def execRouteEntryWrite (i : Fin 136) (e : Fin 256) (value : Word) (s : State) : Host.Outcome State Fault Refusal :=
  .next (routeWordWrite i.val e.val 0 value s)

/-- A write of a slot word of a bank (R149). That the standby bank is written in HOLD while switch_req is 1 is a DESIGN CHOICE (log
entry 95): the rule's two sentences differ there. -/
def slotWrite (a : Nat) (bank : Bool) (v : Word) (s : State) : State :=
  if allHold s ∨ (bank ≠ s.net.activeBank ∧ ¬ bit s R.wfSlotCtrl 0) then writeFields a v s
  else setBit s R.wfStatus 6 true

/-- SWITCH_REQ (R149): applied at a milestone. -/
def execSwitchReq (s : State) : Host.Outcome State Fault Refusal := .next (setBit s R.wfSlotCtrl 0 true)

/-- The banks of every wheel are swapped and the request cleared (R149, Table 4.3). -/
def switchSlots (s : State) : State :=
  if bit s R.wfSlotCtrl 0 then
    let s := setBit s R.wfSlotCtrl 0 false
    { s with net := { s.net with activeBank := !s.net.activeBank } }
  else s

/-! ## Probe trace (R156) -/

/-- WF_PTRACE_CTRL.full: the buffer holds 1,024 records and wrap is 0. -/
def showFull (s : State) : State :=
  setBit s R.wfPtraceCtrl 29 (decide (1024 ≤ s.net.traceCount) && !bit s R.wfPtraceCtrl 30)

/-- A write of WF_PTRACE_CTRL: en from 0 to 1 empties the buffer's pointer and flags. -/
def ptraceWrite (v : Word) (s : State) : State :=
  let was := bit s R.wfPtraceCtrl 31
  let s := writeFields R.wfPtraceCtrl v s
  if v.getLsbD 31 ∧ ¬ was then
    let s := setReg (setBit s R.wfPtraceCtrl 29 false) R.wfPtracePtr 0
    { s with net := { s.net with traceCount := 0 } }
  else showFull s

/-- PTRACE_ENABLE (R156). -/
def execPtraceEnable (value : Word) (s : State) : Host.Outcome State Fault Refusal := .next (ptraceWrite value s)

/-- A posted VC3 write to endpoint 156 that a probe at router `r` made is discarded, and the kind-4 notice reaches the NI of
that router (R152), though the record's source is 156, and crosses no router: DESIGN CHOICE, unsafe (log entry 110); a router whose NI carries no number has none to notify. -/
def traceRefused (r : Nat) (s : State) : State :=
  match niOfRouter s r with
  | some i => setNi s i { ni s i with notices := (ni s i).notices ++ [mkPacket 2 4 [] 156 (if i < 128 then i else 156) 0 0 0 [0]] }
  | none => s

/-- The NI of the probe's router sends no new VC3 packet (R150). -/
def probeQuiesced (s : State) (p : Nat) : Bool :=
  match niOfRouter s (bits s (R.wfProbeCfg p) 16 8) with
  | some i => niQuiesced s i
  | none => false

/-- Router of a probe, and the packet of a record on its way to endpoint 156 (Table 6.4): its route takes the x hops first, and
its source endpoint is 156. The source is a DESIGN CHOICE (log entry 68). -/
def probeRouter (s : State) (p : Nat) : Nat := bits s (R.wfProbeCfg p) 16 8
def recordRoute (s : State) (p : Nat) : List Nat := hopCodes 3 (probeRouter s p) (routerOfNi s 135)
def recordPacket (s : State) (p : Nat) (r : ProbeRecord) : Packet :=
  mkPacket 3 8 (recordRoute s p) 156 156 0 0 0 [ofHalves r.w0 r.w1, ofHalves r.w2 r.w3]

/-- The routers that a route passes, from the first to the last. -/
def routersOn : List Nat → Nat → List Nat
  | [], r => [r]
  | c :: rest, r => r :: ((hopFrom r c).map (routersOn rest)).getD []

/-- A head flit crosses the mesh from the output of router `r` to the local port of the last router; the probes on the way see
it (R155). -/
def crossMesh : List Nat → Nat → Flit → State → State
  | [], r, f, s => probesSee r 0 false f s
  | c :: rest, r, f, s =>
    let s := probesSee r (c + 1) false f s
    match neighbour r (c + 1) with
    | some (r', port) => crossMesh rest r' (usedHop f) (probesSee r' port true (usedHop f) s)
    | none => s

/-- The record's packet can leave (R150, R151): its NI is not quiesced, and no router of its route is in drain or reset. -/
def recordMayGo (s : State) (p : Nat) : Bool :=
  !probeQuiesced s p && (routersOn (recordRoute s p) (probeRouter s p)).all fun r => !routerInReset s r && !routerDraining s r

/-- The packet of a record goes its way to NI 135. -/
def sendRecord (p : Nat) (r : ProbeRecord) (s : State) : State :=
  (packetFlits (recordPacket s p r)).foldl (fun acc f =>
    crossMesh (recordRoute s p) (probeRouter s p) f (probesSee (probeRouter s p) 0 true f acc)) s

/-- PROBE_TRACE_WRITE (R156): the oldest record of the probe goes over VC3 as a packet of kind 8 into the buffer, or is lost when
it is full. The command stands for the packet's whole way: DESIGN CHOICE, unsafe (log entry 68). A record for a closed
observation domain is discarded and announced (R152). The pointer counts as wrapped when it passes 1,023, whatever wrap holds:
DESIGN CHOICE, unsafe (log entry 68). -/
def probeTraceWrite (p : Nat) (s : State) : State :=
  match (if recordMayGo s p then look (fun _ => []) s.net.probeHold p else []) with
  | [] => s
  | r :: rest =>
    let s := sendRecord p r { s with net := { s.net with probeHold := put (fun _ => []) s.net.probeHold p rest } }
    let next := bits s R.wfPtracePtr 0 10
    if endpointClosed s 156 then traceRefused (probeRouter s p) s
    else if 1024 ≤ s.net.traceCount ∧ ¬ bit s R.wfPtraceCtrl 30 then bumpBits s R.wfPtraceCtrl 0 16 1
    else
      let s := setReg s R.wfPtracePtr (BitVec.ofNat 32
        ((if next = 1023 ∨ bit s R.wfPtracePtr 31 then 2 ^ 31 else 0) + (next + 1) % 1024))
      let s := { s with net := { s.net with
        traceBuf := enter s.net.traceBuf next r, traceCount := s.net.traceCount + 1 } }
      showFull s

/-- PROBE_TRACE_WRITE (R156). -/
def execProbeTraceWrite (p : Fin 32) (s : State) : Host.Outcome State Fault Refusal := .next (probeTraceWrite p.val s)

end Sys2Proof.Machine
end

