-- ==== Sys2Proof/Machine/Memory.lean ====
section
/-! DEFINITION. Bank ownership, power and march, the control view, service banks, and DDR4 channels (chapter 8). -/
namespace Sys2Proof.Machine

/-! ## Ownership (R194 to R197) -/

/-- A reach is neither in HOLD nor part of a frozen design (R195, R203). -/
def reachLive (s : State) (r : Nat) : Bool := !inHold s r && !designFrozen s

/-- Owner codes that BANK_OWNER[b] refuses (R195). -/
def ownerRefused (b a o : Nat) : Bool :=
  [a, o].any (fun c => decide (0x84 ≤ c) || (decide (c < 0x80) && c / 8 != b / 16)) || (!dualPort b && o != 0x80)

/-- A port moves to or from a cluster of a live reach (R195). -/
def ownerLocked (s : State) (old new : Nat) : Bool :=
  old != new && [old, new].any fun c => decide (c < 0x80) && reachLive s (c / 8)

/-- A write of BANK_OWNER[b] (R195, R196): accepted, it closes every port whose owner changes. -/
def ownerWrite (b : Nat) (v : Word) (s : State) : State :=
  let a := bitsOf v 0 8
  let o := bitsOf v 16 8
  if ownerRefused b a o then setBit s R.bankStatus 1 true
  else if !bit s (R.bankOwner b) 31 || ownerLocked s (ownerOf s b false) a || ownerLocked s (ownerOf s b true) o then
    setBit s R.bankStatus 0 true
  else if ownerOf s b false = a ∧ ownerOf s b true = o then s
  else
    let h : Handover := ⟨b, ownerOf s b false != a, ownerOf s b true != o⟩
    let s := setBit (setBits (setBits s (R.bankOwner b) 0 8 a) (R.bankOwner b) 16 8 o) (R.bankOwner b) 31 false
    { s with banks := { s.banks with handovers := s.banks.handovers ++ [h] } }

/-- OWNER_HANDOVER (R195, R196). -/
def execOwnerHandover (party : Party) (b : Fin 256) (value : Word) (s : State) : Out :=
  .next (performed party s (ownerWrite b.val value s))

/-- HANDOVER_DONE (Table 8.3): the port opens to its new owner. -/
def handoverDone (b : Nat) (s : State) : State :=
  if s.banks.handovers.any fun h => h.bank == b then
    let s := setBit s (R.bankOwner b) 31 true
    { s with banks := { s.banks with handovers := s.banks.handovers.filter fun h => h.bank ≠ b } }
  else s

/-- HANDOVER_DONE (R196). -/
def execHandoverDone (b : Fin 256) (s : State) : Out := .next (handoverDone b.val s)

/-! ## Power (R202, R203) -/

/-- A march runs on design bank `b`. -/
def marchOn (s : State) (service : Bool) (b : Nat) : Bool :=
  match s.banks.march with
  | some m => m.service == service && m.bank == b
  | none => false

/-- The power state that BANK_CFG[b].pwr_req names; 3 acts as 0. -/
def powerRequest (s : State) (b : Nat) : Nat := bits s (R.bankCfg b) 26 2 % 3

/-- A cluster of a live reach owns a port of the bank. -/
def liveOwner (s : State) (b : Nat) : Bool :=
  [ownerOf s b false, ownerOf s b true].any fun c => decide (c < 0x80) && reachLive s (c / 8)

/-- A write of BANK_CFG[b]: pwr_req and aspect are locked under R203, and retention is refused to a bank that is off
(Table 8.5); keep takes its value in every case. -/
def bankCfgWrite (b : Nat) (v : Word) (s : State) : State :=
  let kept := setBit s (R.bankCfg b) 25 (v.getLsbD 25)
  if liveOwner s b || marchOn s false b then setBit kept R.bankStatus 0 true
  else
    let s := setBits kept (R.bankCfg b) 0 3 (bitsOf v 0 3)
    if bits s (R.bankCfg b) 28 2 = 2 ∧ bitsOf v 26 2 = 1 then setBit s R.bankStatus 1 true
    else setBits s (R.bankCfg b) 26 2 (bitsOf v 26 2)

/-- BANK_POWER_REQUEST (R202, R203). -/
def execBankPowerRequest (party : Party) (b : Fin 256) (value : Word) (s : State) : Out :=
  .next (performed party s (bankCfgWrite b.val value s))

/-- The bank's contents are lost (Table 8.5). -/
def loseBank (b : Nat) (s : State) : State := setDesignMem s b (loseContents (designMem s b))

/-- A bank reaches power state `p`. -/
def bankPower (b p : Nat) (s : State) : State :=
  let s := if p = 2 ∧ bits s (R.bankCfg b) 28 2 ≠ 2 then loseBank b s else s
  setBits s (R.bankCfg b) 28 2 p

/-- BANK_POWER_DONE (Table 8.5): the bank of a powered reach reaches the state requested. -/
def bankPowerDone (b : Nat) (s : State) : State := if domainOn s (b / 16) then bankPower b (powerRequest s b) s else s

/-- BANK_POWER_DONE (R202). -/
def execBankPowerDone (b : Fin 256) (s : State) : Out := .next (bankPowerDone b.val s)

/-! ## Control view and service banks (R206 to R208) -/

/-- A march refuses a view or alias access (R210). -/
def busyAccess (s : State) : State := setBit s R.bankStatus 4 true

/-- Owner code of a party (Table 8.2). -/
def partyCode (p : Party) : Nat :=
  match p with
  | .host => 0x81
  | .lighthouse => 0x82

/-- How a view access to the bank ends. -/
inductive ViewCheck where
  | ok
  | off
  | cell
  | busy
  | foreign
  deriving DecidableEq, Repr

/-- How a view access of a party to bank `b` ends (R197, R206, R210, Table 10.11): a party that owns no port is refused for
that, march or no march. -/
def viewCheck (s : State) (p : Party) (b : Nat) : ViewCheck :=
  if !bankUsable s b then .off
  else if cellsAct s (b / 16) then .cell
  else if !ownsBank s (partyCode p) b then .foreign
  else if marchOn s false b then .busy
  else .ok

/-- The flags and faults of a refused view access, those of R197 and of R210 when both refuse it; `x` for an access that is
allowed. -/
def viewAccess (p : Party) (b : Nat) (x : State → State) (s : State) : State :=
  match viewCheck s p b with
  | .ok => x s
  | .off => offAccess s
  | .cell => s
  | .busy => busyAccess s
  | .foreign => notOwned b (if marchOn s false b then busyAccess s else s)

/-- What a view read returns: flat bits 32 × word and up (R206). -/
def viewData (s : State) (p : Party) (b word : Nat) : Word :=
  match viewCheck s p b with
  | .ok => readWord (designMem s b) (4 * word)
  | .off => 0xFFFFFFFF
  | _ => 0

/-- A read of the control view. -/
def viewRead (p : Party) (word : Nat) (s : State) : State :=
  let b := bits s R.bankViewSel 0 8
  answer [viewData s p b word] (viewAccess p b id s)

/-- A write through the control view; `f` gives the new word from the old one (R207). -/
def viewWrite (p : Party) (word : Nat) (f : Word → Word) (s : State) : State :=
  let b := bits s R.bankViewSel 0 8
  viewAccess p b (fun s => setDesignMem s b (writeWord (designMem s b) (4 * word) (f (readWord (designMem s b) (4 * word))))) s

/-- CONTROL_VIEW_ACCESS (R206). -/
def execControlViewAccess (party : Party) (word : Fin 65536) (access : Access) (s : State) : Out :=
  .next (match access with
    | .read => performedRead party s (viewRead party word.val s)
    | .write v => performed party s (viewWrite party word.val (fun _ => v) s))

/-- Contents of service bank `k`. -/
def serviceMem (s : State) (k : Nat) : Mem := look (fun _ => {}) s.banks.service k

/-- Replace the contents of service bank `k`. -/
def setServiceMem (s : State) (k : Nat) (m : Mem) : State :=
  { s with banks := { s.banks with service := put (fun _ => {}) s.banks.service k m } }

/-- What a read of word `word` of service bank `k` returns (R208, R210). -/
def serviceData (s : State) (k word : Nat) : Word :=
  if !serviceOn s k then 0xFFFFFFFF
  else if marchOn s true k then 0
  else readWord (serviceMem s k) (4 * word)

/-- A read of a service bank window. -/
def serviceRead (k word : Nat) (s : State) : State :=
  let d := serviceData s k word
  answer [d] (if !serviceOn s k then offAccess s else if marchOn s true k then busyAccess s else s)

/-- A write of a service bank; `f` gives the new word from the old one. Host writes to banks 0 to 3 are discarded while
fw_protect holds (R319). -/
def serviceWrite (p : Party) (k word : Nat) (f : Word → Word) (s : State) : State :=
  if !serviceOn s k then offAccess s
  else if p = .host ∧ k < 4 ∧ bit s R.lhStatus 23 then s
  else if marchOn s true k then busyAccess s
  else setServiceMem s k (writeWord (serviceMem s k) (4 * word) (f (readWord (serviceMem s k) (4 * word))))

/-- SERVICE_BANK_ACCESS (R208). -/
def execServiceBankAccess (party : Party) (k : Fin 16) (word : Fin 65536) (access : Access) (s : State) : Out :=
  .next (match access with
    | .read => performedRead party s (serviceRead k.val word.val s)
    | .write v => performed party s (serviceWrite party k.val word.val (fun _ => v) s))

/-- A write to a set (`true`) or clear (`false`) alias (R207). -/
def aliasWrite (p : Party) (t : AliasTarget) (word : Nat) (set_ : Bool) (v : Word) (s : State) : State :=
  let f := fun (old : Word) => if set_ then old ||| v else old &&& ~~~ v
  match t with
  | .view => viewWrite p word f s
  | .service k => serviceWrite p k.val word f s

/-- SET_ALIAS_WRITE (R207). -/
def execSetAliasWrite (party : Party) (target : AliasTarget) (word : Fin 65536) (value : Word) (s : State) : Out :=
  .next (performed party s (aliasWrite party target word.val true value s))

/-- CLEAR_ALIAS_WRITE (R207). -/
def execClearAliasWrite (party : Party) (target : AliasTarget) (word : Fin 65536) (value : Word) (s : State) : Out :=
  .next (performed party s (aliasWrite party target word.val false value s))

/-! ## March engine (R209 to R212) -/

/-- A march may start on the bank that a write of BANK_MARCH_CTRL names (R210); a bank that is absent or not on has none
(log entry 20). -/
def marchAllowed (s : State) (v : Word) : Bool :=
  let b := bitsOf v 0 8
  s.banks.march.isNone &&
    (if v.getLsbD 8 then decide (b < 16) && serviceOn s b
     else bankUsable s b && [ownerOf s b false, ownerOf s b true].all fun c => [0x80, 0x81, 0x82].contains c)

/-- A write of BANK_MARCH_CTRL (R210): a request that may not start is discarded whole. -/
def marchWrite (v : Word) (s : State) : State :=
  if ¬ v.getLsbD 31 then writeFields R.bankMarchCtrl v s
  else if marchAllowed s v then
    let s := writeFields R.bankMarchCtrl v s
    let svc := bit s R.bankMarchCtrl 8
    let b := bits s R.bankMarchCtrl 0 8
    let s := setBits (setBit (setBit s R.bankMarchStatus 31 true) R.bankMarchStatus 8 svc) R.bankMarchStatus 0 8 b
    let s := setBit s R.bankStatus 3 true
    { s with banks := { s.banks with march := some ⟨svc, b, bit s R.bankMarchCtrl 30⟩ } }
  else setBit s R.bankStatus 0 true

/-- MARCH_GO (R210). -/
def execMarchGo (value : Word) (s : State) : Out := .next (marchWrite value s)

/-- The state MARCH_INTERRUPTED of a bank (R212). -/
def setMarchInt (service : Bool) (b : Nat) (on : Bool) (s : State) : State :=
  if service then setBit s R.bankSvcMarchInt b on else setBit s (R.bankCfg b) 30 on

/-- MARCH_DONE (R209, R211, R212): `failures` lists the failing reads in order, by element, word and bit. -/
def marchDone (failures : List (Nat × Nat × Nat)) (s : State) : State :=
  match s.banks.march with
  | none => s
  | some m =>
    let s := { s with banks := { s.banks with march := none } }
    let s := setBit (setBit (setBit s R.bankMarchStatus 31 false) R.bankMarchStatus 30 true) R.bankStatus 3 false
    let s := setMarchInt m.service m.bank false s
    let s := if m.preserving then s
      else if m.service then setServiceMem s m.bank zeroContents else setDesignMem s m.bank zeroContents
    let failed := !failures.isEmpty
    let first := failures.headD (0, 0, 0)
    let place := if !failed then 0
      else if m.preserving then 7 <<< 8
      else first.2.2 <<< 26 + first.2.1 <<< 11 + first.1 <<< 8
    let s := setReg s R.bankMarchFail (BitVec.ofNat 32 (place + min failures.length 255))
    let s := setBit s R.bankMarchStatus 29 failed
    if failed then signal 229 (m.bank + if m.service then 256 else 0) s else s

/-- MARCH_DONE (R211). -/
def execMarchDone (failures : List (Fin 6 × Fin 32768 × Fin 64)) (s : State) : Out :=
  .next (marchDone (failures.map fun x => (x.1.val, x.2.1.val, x.2.2.val)) s)

/-! ## DDR4 (R213 to R221) -/

/-- Channel `c`. -/
def ddr (s : State) (c : Nat) : DdrChannel := look (fun _ => {}) s.ddr c

/-- Replace channel `c`. -/
def setDdr (s : State) (c : Nat) (x : DdrChannel) : State := { s with ddr := put (fun _ => {}) s.ddr c x }

/-- DDR_CH_STATUS.ready. -/
def ddrReady (s : State) (c : Nat) : Bool := bit s (R.ddrChStatus c) 31

/-- DDR_TRAIN (R214, Table 8.9): firmware performs the next step of an untrained channel, or starts again with step 1. A failed
step that is retried and completes leaves DDR_TRAIN_STATUS.lanes set: DESIGN CHOICE, unsafe (log entry 123). -/
def ddrTrain (c step : Nat) (ok : Bool) (lanes : Byte) (s : State) : State :=
  if !firmwareRuns s || !ddrOn s c || ddrReady s c then s
  else if step = 1 ∨ (step ≤ 8 ∧ step = bits s (R.ddrTrainStatus c) 28 4 + 1) then
    let s := if step = 1 then setBit (setReg s (R.ddrTrainStatus c) 0) (R.ddrChStatus c) 30 false else s
    if ok then
      let s := setBit (setBits s (R.ddrTrainStatus c) 28 4 step) (R.ddrTrainStatus c) 27 false
      if step = 8 then setBit s (R.ddrChStatus c) 31 true else s
    else
      signal (188 + c) lanes.toNat
        (setBits (setBit s (R.ddrTrainStatus c) 27 true) (R.ddrTrainStatus c) 0 8 lanes.toNat)
  else s

/-- DDR_TRAIN (R214). -/
def execDdrTrain (c : Fin 4) (step : Nat) (ok : Bool) (lanes : Byte) (s : State) : Out :=
  .next (ddrTrain c.val step ok lanes s)

/-- DDR_REFRESH (R215): the controller of an open channel issues REF to every rank; no data change. -/
def ddrRefresh (c : Nat) (s : State) : State :=
  if ddrOn s c ∧ ddrReady s c then setDdr s c { ddr s c with refreshes := (ddr s c).refreshes + 1 } else s

/-- DDR_REFRESH (R215). -/
def execDdrRefresh (c : Fin 4) (s : State) : Out := .next (ddrRefresh c.val s)

/-- Fields of a request header (Table 8.10). Op 3 is treated as a read. -/
def ddrOp (h : DWord) : Nat := bitsOf h 62 2 % 3
def ddrWords (h : DWord) : Nat := 2 ^ bitsOf h 60 2
def ddrRegion (h : DWord) : Nat := bitsOf h 56 4

/-- Word offset, rounded down to a multiple of the size (R217). -/
def ddrOffset (h : DWord) : Nat := bitsOf h 0 33 / ddrWords h * ddrWords h

/-- Byte address of a request in its channel (R217). -/
def ddrAddress (s : State) (c : Nat) (h : DWord) : Nat :=
  bits s (R.ddrRegionBase c (ddrRegion h)) 0 16 * 2 ^ 20 + 8 * ddrOffset h

/-- Class of a region: 0 design, 1 capture, 2 Harbour; 3 acts as 1. -/
def regionClass (s : State) (c r : Nat) : Nat :=
  match bits s (R.ddrRegionBase c r) 28 2 with
  | 3 => 1
  | n => n

/-- Why a request of a cluster has no effect: the first cause of R218 in its order, as DDR_ERR codes it. Words of a region that lie
past the capacity of the channel are served as any others: DESIGN CHOICE, unsafe (log entry 126). -/
def ddrRefusal (s : State) (c : Nat) (h : DWord) : Option Nat :=
  let r := ddrRegion h
  if !ddrReady s c then some 5
  else if !bit s (R.ddrRegionBase c r) 31 then some 2
  else if regionClass s c r ≠ 0 then some 3
  else if bits s (R.ddrRegionSize c r) 0 17 * 2 ^ 20 < 8 * (ddrOffset h + ddrWords h) then some 1
  else if ddrOp h ≠ 0 ∧ ¬ bit s (R.ddrRegionBase c r) 30 then some 4
  else none

/-- The answer of a request in its usual form (R218): `data` for a read, `status` for a write with acknowledgement. -/
def ddrAnswer (i : Nat) (p : Packet) (data : List DWord) (status : DWord) (s : State) : State :=
  match ddrOp (p.payload.headD 0) with
  | 0 => respond i p 2 data s
  | 1 => respond i p 3 [] s
  | _ => respond i p 2 [status] s

/-- NI of the channel's endpoint 148 + c. -/
def ddrNi (c : Nat) : Nat := 132 + c / 2

/-- The first packet of a list that is for endpoint `e`, and the rest. -/
def takeFor (e : Nat) : List Packet → Option (Packet × List Packet)
  | [] => none
  | p :: rest => if headDst p.head = e then some (p, rest) else (takeFor e rest).map fun x => (x.1, p :: x.2)

/-- DDR_REQUEST (R218, R220): the controller takes the next request while it holds fewer than 256. A refused request
is answered with zeros and raises DDR_RANGE; a write before release stage 2 is suppressed without a fault (R201). -/
def ddrRequest (c : Nat) (s : State) : State :=
  let i := ddrNi c
  match takeFor (148 + c) (ni s i).requests with
  | none => s
  | some (p, rest) =>
    if 256 ≤ (ddr s c).queue.length then s
    else
      let h := p.payload.headD 0
      let s := setNi s i { ni s i with requests := rest }
      if !ddrOn s c then receiveClosed i p s
      else if ddrOp h ≠ 0 ∧ s.sched.stage < 2 then ddrAnswer i p [] 2 s
      else match ddrRefusal s c h with
        | some cause =>
          let s := setBits (setBits s (R.ddrErr c) 28 4 (ddrRegion h)) (R.ddrErr c) 24 4 cause
          let s := signal (192 + c) (ddrRegion h) (bumpBits s (R.ddrErr c) 0 16 1)
          ddrAnswer i p (List.replicate (ddrWords h) 0) 0 s
        | none => setDdr s c { ddr s c with queue := (ddr s c).queue ++ [p] }

/-- DDR_REQUEST (R218). -/
def execDdrRequest (c : Fin 4) (s : State) : Out := .next (ddrRequest c.val s)

/-- The 64-byte block that a request touches. -/
def ddrBlock (s : State) (c : Nat) (p : Packet) : Nat := ddrAddress s c (p.payload.headD 0) / 64

/-- Execute one request and answer it. -/
def ddrServe (c : Nat) (p : Packet) (s : State) : State :=
  let h := p.payload.headD 0
  let a := ddrAddress s c h
  let n := ddrWords h
  let m := (ddr s c).mem
  let s := setDdr s c { ddr s c with queue := (ddr s c).queue.erase p }
  if ddrOp h = 0 then ddrAnswer (ddrNi c) p ((List.range n).map fun k => readDWord m (a + 8 * k)) 0 s
  else
    let ws := (p.payload.drop 1).take n
    let m := writeBytes m a (ws.flatMap fun w => bytesLE 8 w.toNat)
    ddrAnswer (ddrNi c) p [] 1 (setDdr s c { ddr s c with mem := m })

/-- Requests that no earlier request of the same block precedes (R219). -/
def ddrEligible (s : State) (c : Nat) : List Packet → List Packet → List Packet
  | [], _ => []
  | p :: rest, before =>
    if before.any fun q => ddrBlock s c q == ddrBlock s c p then ddrEligible s c rest (before ++ [p])
    else p :: ddrEligible s c rest (before ++ [p])

/-- The classes of DDR_ARB (R221). Cluster requests and the capture may have bursts waiting; an access of the three others
is made within its own command (log entry 74). Refresh goes before every class: DDR_REFRESH acts whatever waits. -/
inductive DdrClass where
  | design
  | capture
  | host
  | mover
  | lh
  deriving DecidableEq, Repr

/-- The class's number in DDR_ARB, its weight at bits [31 - 4 × number : 28 - 4 × number]. -/
def DdrClass.index : DdrClass → Nat
  | .design => 0
  | .capture => 1
  | .host => 2
  | .mover => 3
  | .lh => 4

/-- Bursts per round of a class. -/
def ddrWeight (s : State) (c : Nat) (k : DdrClass) : Nat := bits s (R.ddrArb c) (28 - 4 * k.index) 4

/-- The channel that acquisition capture drains to, while its FIFO holds units. -/
def captureWaits (s : State) (c : Nat) : Bool :=
  bit s R.acqStatus 31 && !s.acq.fifo.isEmpty && bits s R.acqCfg 30 2 == c

/-- The class has bursts waiting at channel `c`. -/
def classWaits (s : State) (c : Nat) : DdrClass → Bool
  | .design => !(ddr s c).queue.isEmpty
  | .capture => captureWaits s c
  | .host | .mover | .lh => false

/-- Bursts that a class has had in this round. -/
def roundUsed (x : DdrChannel) (k : DdrClass) : Nat := look (fun _ => 0) x.round k.index

/-- The class may have another burst in this round. -/
def turnLeft (s : State) (c : Nat) (k : DdrClass) : Bool := decide (roundUsed (ddr s c) k < ddrWeight s c k)

/-- One more burst of a class in the round. -/
def countBurst (k : DdrClass) (x : DdrChannel) : DdrChannel :=
  { x with round := put (fun _ => 0) x.round k.index (roundUsed x k + 1) }

/-- The other classes that wait and have a weight: of two that wait with weight 0, neither of which R221's words serve, either
goes: DESIGN CHOICE, unsafe (log entry 121). -/
def ddrRivals (s : State) (c : Nat) (k : DdrClass) : List DdrClass :=
  [DdrClass.design, .capture].filter fun o => o != k && classWaits s c o && ddrWeight s c o != 0

/-- Weighted round robin (R221): what a burst of class `k` makes of the round; none when another class goes first. A class
with weight 0 goes only while no other waits. -/
def ddrTurn (s : State) (c : Nat) (k : DdrClass) : Option DdrChannel :=
  let x := ddr s c
  if turnLeft s c k then some (countBurst k x)
  else if (ddrRivals s c k).isEmpty || (ddrWeight s c k != 0 && (ddrRivals s c k).all fun o => !turnLeft s c o) then
    some (countBurst k { x with round := [] })
  else none

/-- When the arbiter comes to the clusters, one request is executed; among those that the order leaves open the controller
chooses (log entry 5). -/
def designBurst (c : Nat) (s : State) : State :=
  let es := ddrEligible s c (ddr s c).queue []
  match es[Config.pick s.free % es.length]?, ddrTurn s c .design with
  | some p, some x => ddrServe c p (setDdr { s with free := s.free + 1 } c x)
  | _, _ => s

/-- DDR_REQUEST_DONE (R219, R221). -/
def ddrRequestDone (c : Nat) (s : State) : State :=
  if !ddrPresent s c || !domainWorks s (16 + c) then s else designBurst c s

/-- DDR_REQUEST_DONE (R219). -/
def execDdrRequestDone (c : Fin 4) (s : State) : Out := .next (ddrRequestDone c.val s)

/-- The requests accepted earlier that touch bytes `a` to `a + n - 1` are executed in order (R219): every other access
of the channel calls this first. -/
def ddrSettle (c a n : Nat) (s : State) : State :=
  (ddr s c).queue.foldl (fun acc p =>
    let b := ddrBlock s c p
    if a / 64 ≤ b ∧ 64 * b < a + n then ddrServe c p acc else acc) s

/-- Before a channel closes, its requests are executed, each answered, in the order they came (R215, R368). -/
def ddrDrain (c : Nat) (s : State) : State := (ddr s c).queue.foldl (fun acc p => ddrServe c p acc) s

/-- A channel that goes without a drain answers its requests as a closed domain does (R152, R369). -/
def ddrAbandon (c : Nat) (s : State) : State :=
  (ddr s c).queue.foldl (fun acc p => receiveClosed (ddrNi c) p acc) (setDdr s c { ddr s c with queue := [] })

/-- Bytes of the channel as DDR_CH_CFG gives them, at most 64 GiB (R213, log entry 19). -/
def ddrCapacity (s : State) (c : Nat) : Nat :=
  let density := min (bits s (R.ddrChCfg c) 22 2) 2
  let width := match bits s (R.ddrChCfg c) 24 2 with
    | 0 => 4
    | 2 => 16
    | _ => 8
  min (2 ^ 36) (2 ^ (29 + density) * (64 / width) * (bits s (R.ddrChCfg c) 20 2 + 1))

/-! ## Register writes of the channels -/

/-- A write of DDR_CH_CFG, DDR_TIM_A or DDR_TIM_B: only while the channel is not ready; refresh_2x at any time. -/
def ddrCfgWrite (c a : Nat) (v : Word) (s : State) : State :=
  if !ddrReady s c then writeFields a v s
  else
    let s := setBit s (R.ddrChStatus c) 29 true
    if a = R.ddrChCfg c then setBit s a 19 (v.getLsbD 19) else s

/-- A write of a region register: only while every reach is in HOLD (R216). -/
def ddrRegionWrite (c a : Nat) (v : Word) (s : State) : State :=
  if allHold s then writeFields a v s else setBit s (R.ddrChStatus c) 29 true

end Sys2Proof.Machine
end

