-- ==== Sys2Proof/Machine/Trace.lean ====
section
/-! DEFINITION. The trace unit (R339 to R343): packets, source FIFOs, the buffer, and how trace starts and stops. -/
namespace Sys2Proof.Machine

/-! ## Packets (Table 13.10) -/

/-- A varint (R339): 7-bit groups, least significant first, bit 7 set in all but the last; at most 5 groups of a 32-bit
value. -/
def varintAux : Nat → Nat → List Byte
  | 0, v => [BitVec.ofNat 8 (v % 128)]
  | n + 1, v => if v < 128 then [BitVec.ofNat 8 v] else BitVec.ofNat 8 (128 + v % 128) :: varintAux n (v / 128)

/-- A varint of an unsigned 32-bit value (R339). -/
def varint (v : Nat) : List Byte := varintAux 4 v

/-- A varint of the zigzag value of a signed 32-bit value (R339). -/
def signedVarint (d : Word) : List Byte := varint ((d <<< 1) ^^^ d.sshiftRight 31).toNat

/-- A packet's header byte. -/
def packetHeader (type core info : Nat) : Byte := BitVec.ofNat 8 (type * 16 + core * 8 + info)

/-! ## Running -/

/-- Present state of the event machine. -/
def traceState (s : State) : Nat := bits s R.trcStatus 27 2

/-- Trace runs (R343). -/
def traceRuns (s : State) : Bool :=
  traceOn s && bit s R.trcCtrl 31 && !bit s R.trcStatus 29 && (!bit s R.trcCtrl 30 || bit s (R.trcSm (traceState s)) 31)

/-- Bytes that wait in a source's FIFO. -/
def fifoBytes (s : State) (source : Nat) : Nat := ((look (fun _ => []) s.trc.fifos source).map List.length).sum

/-- Packets that a source has lost and not yet told. -/
def lostPackets (s : State) (source : Nat) : Nat := look (fun _ => 0) s.trc.lost source

/-- A source's FIFO of 64 bytes takes a packet of `n` bytes: after a loss only once OVERFLOW has told it (R342). -/
def fifoTakes (s : State) (source n : Nat) : Bool := lostPackets s source == 0 && decide (fifoBytes s source + n ≤ 64)

/-- A packet enters its source's FIFO, or is lost (R342). -/
def emit (source : Nat) (p : List Byte) (s : State) : State :=
  if fifoTakes s source p.length then
    { s with trc := { s.trc with fifos := put (fun _ => []) s.trc.fifos source (look (fun _ => []) s.trc.fifos source ++ [p]) } }
  else
    let s := setReg s R.trcLost (BitVec.ofNat 32 (satAdd 32 (reg s R.trcLost).toNat 1))
    { s with trc := { s.trc with lost := put (fun _ => 0) s.trc.lost source (lostPackets s source + 1) } }

/-- A Lighthouse core. -/
def lhCore (s : State) (c : Nat) : LhCore := look (fun _ => {}) s.dbg.cores c

/-- Replace a Lighthouse core. -/
def setLhCore (s : State) (c : Nat) (x : LhCore) : State :=
  { s with dbg := { s.dbg with cores := put (fun _ => {}) s.dbg.cores c x } }

/-- A core's program counter. -/
def setPc (core : Nat) (pc : Word) (s : State) : State := setLhCore s core { lhCore s core with pc := pc }

/-- A SYNC packet of a core at its program counter (log entry 21); its addresses become the last target and the last data
address. -/
def emitSync (core reason : Nat) (s : State) : State :=
  let pc := (lhCore s core).pc
  let data := look (fun _ => 0) s.trc.lastData core
  let s := emit core (packetHeader 1 core reason :: (bytesLE 4 pc.toNat ++ bytesLE 4 data ++ bytesLE 4 (timeLow s).toNat)) s
  { s with trc := { s.trc with
    synced := if reason ≠ 0 ∨ s.trc.synced.contains core then s.trc.synced else core :: s.trc.synced
    dated := if s.trc.dated.contains core then s.trc.dated else core :: s.trc.dated
    lastTarget := put (fun _ => 0) s.trc.lastTarget core pc.toNat
    sinceSync := put (fun _ => 0) s.trc.sinceSync core 0 } }

/-- A SYNC must precede a BRANCH or DATA of the core: its first since trace started (R340). -/
def needSync (core : Nat) (s : State) : Bool := !s.trc.synced.contains core

/-- The SYNC with reason 0 where one must precede the core's packet (R340). -/
def startSync (core : Nat) (s : State) : State := if needSync core s then emitSync core 0 s else s

/-- After a power-up of the domain the first packets are SYNC (Table 13.12): one of each core, with reason 0, before whatever
comes. That both cores emit one, whichever sources are on, is DEDUCED (log entry 99). -/
def powerSync (s : State) : State :=
  if s.trc.fresh then emitSync 1 0 (emitSync 0 0 { s with trc := { s.trc with fresh := false } }) else s

/-- A trace restart: a SYNC with reason 0 precedes the first BRANCH or DATA of a core (R340). -/
def traceRestart (s : State) : State := { s with trc := { s.trc with synced := [], dated := [] } }

/-- A change of what decides whether trace runs: where it starts trace, that is a restart (R340, R343). -/
def watchRun (f : State → State) (s : State) : State :=
  let t := f s
  if traceRuns t ∧ ¬ traceRuns s then traceRestart t else t

/-- The unit stops (R343). -/
def traceStop (s : State) : State := setBit s R.trcStatus 29 true

/-- The state that the events of one cycle lead to from a state's word: event a wins (R343). -/
def nextTraceState (w : Word) (codes : List Nat) : Option Nat :=
  if codes.contains (bitsOf w 12 4) then some (bitsOf w 8 2)
  else if codes.contains (bitsOf w 4 4) then some (bitsOf w 0 2)
  else none

/-- The events of Table 13.11 that occur in one cycle move the event machine (R343). -/
def traceEvents (codes : List Nat) (s : State) : State :=
  if !traceOn s || !bit s R.trcCtrl 31 || !bit s R.trcCtrl 30 then s
  else match nextTraceState (reg s (R.trcSm (traceState s))) codes with
    | none => s
    | some n =>
      watchRun (fun s => emit 2 (packetHeader 8 0 n :: bytesLE 4 (timeLow s).toNat) (setBits (powerSync s) R.trcStatus 27 2 n)) s

/-- An event of Table 13.11, codes 1 to 9. -/
def traceEvent (code : Nat) (s : State) : State := traceEvents [code] s

/-- The trigger of mode 0 that trig_src names (R343): 0 TRC_CTRL.trig, 1 the trigger unit, 2 a fault, 3 comparator 0. -/
def traceTrigger (source : Nat) (s : State) : State :=
  if traceOn s && bit s R.trcCtrl 31 && !bit s R.trcCtrl 30 && bits s R.trcCtrl 26 2 == source && !bit s R.trcStatus 30 then
    let n := (reg s R.trcPost).toNat
    let s := setBit s R.trcStatus 30 true
    let s := { s with trc := { s.trc with postLeft := some n } }
    if n = 0 then traceStop s else s
  else s

/-- TRIG (R343): a write of TRC_CTRL.trig. -/
def execTrig (s : State) : Out := .next (if traceOn s then traceTrigger 0 s else offAccess s)

/-! ## The buffer -/

/-- `p` is put into the buffer at TRC_WR.next; passing its end sets wrapped. -/
def putPacket (p : List Byte) (s : State) : State :=
  let next := bits s R.trcWr 0 17
  let m := p.foldl (fun (acc : Mem × Nat) b => (writeByte acc.1 (acc.2 % 2 ^ 17) b, acc.2 + 1)) (s.trc.buffer, next)
  let s := setBits { s with trc := { s.trc with buffer := m.1 } } R.trcWr 0 17 (m.2 % 2 ^ 17)
  if 2 ^ 17 ≤ next + p.length then setBit s R.trcWr 31 true else s

/-- `n` bytes more have been written since a core's last SYNC; the 4,096th brings a SYNC with reason 2 (R340). -/
def countBytes (n core : Nat) (s : State) : State :=
  let age := look (fun _ => 0) s.trc.sinceSync core + n
  let s := { s with trc := { s.trc with sinceSync := put (fun _ => 0) s.trc.sinceSync core age } }
  if 4096 ≤ age ∧ s.trc.dated.contains core ∧ traceRuns s ∧ bits s R.trcCtrl 0 2 ≠ 0 then emitSync core 2 s else s

/-- A packet counts against TRC_POST (R343). -/
def countPost (s : State) : State :=
  let left := s.trc.postLeft.map (· - 1)
  let s := { s with trc := { s.trc with postLeft := left } }
  if left = some 0 then traceStop s else s

/-- One packet is written to the 128 KiB buffer. With wrap = 0 a packet that fills the buffer stops trace, and one that no
longer fits is not written (R343, log entry 22). -/
def writePacket (p : List Byte) (s : State) : State :=
  let room := 2 ^ 17 - bits s R.trcWr 0 17
  if bit s R.trcStatus 29 then s
  else if bit s R.trcCtrl 29 ∨ p.length < room then countPost (countBytes p.length 1 (countBytes p.length 0 (putPacket p s)))
  else if p.length = room then traceStop (countPost (countBytes p.length 1 (countBytes p.length 0 (putPacket p s))))
  else traceStop s

/-- TRACE_ROOM (R342): the source's FIFO empties into the buffer; when packets were lost, OVERFLOW and, for a core, a SYNC
with reason 4 follow. -/
def traceRoom (source : Nat) (s : State) : State :=
  if !traceOn s then s
  else
    let ps := look (fun _ => []) s.trc.fifos source
    let s := { s with trc := { s.trc with fifos := put (fun _ => []) s.trc.fifos source [] } }
    let s := ps.foldl (fun acc p => writePacket p acc) s
    let n := look (fun _ => 0) s.trc.lost source
    if n = 0 then s
    else
      let s := { s with trc := { s.trc with lost := put (fun _ => 0) s.trc.lost source 0 } }
      let s := emit source (packetHeader 7 (if source = 1 then 1 else 0) 0 :: varint n) s
      if source < 2 then emitSync source 4 s else s

/-- TRACE_ROOM (R342). -/
def execTraceRoom (source : Fin 4) (s : State) : Out := .next (traceRoom source.val s)

/-! ## Sources -/

/-- Where an address of Lighthouse's map leads (Table 13.1). -/
inductive LhPlace where
  | rom (offset : Nat)
  | local_ (offset : Nat)
  | device (offset : Nat)
  | ddr (offset : Nat)
  | none_
  deriving DecidableEq, Repr

/-- The place of an address (Table 13.1). -/
def lhPlace (a : Nat) : LhPlace :=
  if a < 0x10000 then .rom a
  else if 0x10000000 ≤ a ∧ a < 0x10040000 then .local_ (a - 0x10000000)
  else if 0x20000000 ≤ a ∧ a < 0x20C00000 then .device (a - 0x20000000 + 0x2000000)
  else if 0x40000000 ≤ a ∧ a < 0x42000000 then .device (a - 0x40000000)
  else if 0x80000000 ≤ a ∧ a < 0xC0000000 then .ddr (a - 0x80000000)
  else .none_

/-- Channel and byte address of an offset in the DDR4 window of Lighthouse (Table 13.1). -/
def lhDdr (s : State) (offset : Nat) : Nat × Nat := (bits s R.lhDdrWin 30 2, bits s R.lhDdrWin 0 6 * 2 ^ 30 + offset)

/-- A number for the word that an address reaches, the same for every address of one word: a word of a service bank or of the
control view has a plain, a set and a clear address (R207), the view shows the bank that BANK_VIEW_SEL names, and the DDR4
window moves. -/
def wordPlace (s : State) (a : Nat) : Nat :=
  match lhPlace a with
  | .device o =>
    if 0x2000000 ≤ o then 2 ^ 27 + (o - 0x2000000) % 0x400000 / 4
    else if 0x540000 ≤ o ∧ o < 0x600000 then 2 ^ 33 + bits s R.bankViewSel 0 8 * 2 ^ 16 + (o - 0x540000) % 0x40000 / 4
    else a / 4
  | .ddr o => 2 ^ 34 * ((lhDdr s o).1 + 1) + (lhDdr s o).2 / 4
  | .rom _ | .local_ _ | .none_ => a / 4

/-- An access raises an access exception in the core: outside Table 13.1 (R317), or a write of the boot ROM (log entry 33). -/
def accessFaults (kind : DataKind) (a : Nat) : Bool :=
  match lhPlace a with
  | .rom _ => kind == .store || kind == .storeConditional
  | .none_ => true
  | _ => false

/-- An active comparator names the core and the address (TRC_CMP). -/
def comparatorHit (s : State) (k core : Nat) (pc : Word) : Bool :=
  let w := reg s (R.trcCmp k)
  w.getLsbD 0 && (bitsOf w 1 1 == core) && bitsOf w 2 30 == bitsOf pc 2 30

/-- The core executes the instruction at `pc`: the comparators' events occur in one cycle (R343). -/
def comparators (core : Nat) (pc : Word) (s : State) : State :=
  let codes := [0, 1].filterMap fun k => if comparatorHit s k core pc then some (k + 1) else none
  let t := traceEvents codes s
  if comparatorHit s 0 core pc then traceTrigger 3 t else t

/-- A BRANCH packet (R340), after the SYNC that must precede it. -/
def branchPacket (core notTaken : Nat) (target : Word) (s : State) : State :=
  if traceRuns s ∧ bit s R.trcCtrl 0 then
    let sync := needSync core s || s.trc.fresh
    let s := startSync core (powerSync s)
    let last : Nat := look (fun _ => 0) s.trc.lastTarget core
    let d := BitVec.ofInt 32 (((target.toNat / 4 : Nat) : Int) - ((last / 4 : Nat) : Int))
    let n := if sync then 0 else notTaken
    let s := emit core (packetHeader 2 core 0 :: (varint n ++ signedVarint d)) s
    { s with trc := { s.trc with lastTarget := put (fun _ => 0) s.trc.lastTarget core target.toNat } }
  else s

/-- A core takes what interrupts wait: it wakes for them, or enters an exception (R341, R346). -/
def takeInterrupt (s : State) : State := { s with flt := { s.flt with lhInterrupt := false } }

/-- The core stands still: it is halted or asleep. -/
def coreStill (s : State) (core : Nat) : Bool := lhHalted s || bit s R.lhStatus (20 + core)

/-- CORE_BRANCH (R340): a change of flow at the instruction at `pc`. Exception entry clears the core's reservation (R333), and
the instruction that it takes the place of is not executed. -/
def coreBranch (core : Nat) (pc : Word) (exception : Bool) (notTaken : Nat) (target : Word) (s : State) : State :=
  if coreStill s core then s
  else
    let x := lhCore s core
    let s := setLhCore s core { x with pc := pc, reserved := if exception then none else x.reserved }
    let s := setPc core target (branchPacket core notTaken target s)
    if exception then traceEvent 8 (takeInterrupt s) else comparators core pc s

/-- CORE_BRANCH (R340). -/
def execCoreBranch (x : CoreAt) (exception : Bool) (notTaken : Nat) (target : Word) (s : State) : Out :=
  .next (coreBranch x.core.val x.pc exception notTaken target s)

/-- An access exception of a core at the instruction at `pc` (R317): an exception entry. The vector and the not-taken
branches before it are the firmware's, free values (log entry 21). -/
def accessException (core : Nat) (pc : Word) (s : State) : State :=
  let x := takeFree 32 s
  let n := takeFree 32 x.2
  coreBranch core pc true n.1.toNat (withBits x.1 0 2 0) n.2

/-- A DATA packet (R339, R340). -/
def dataPacket (core : Nat) (store : Bool) (addr : Word) (s : State) : State :=
  if traceRuns s ∧ bit s R.trcCtrl 1 then
    let s := startSync core (powerSync s)
    let last := look (fun _ => 0) s.trc.lastData core
    let s := emit core (packetHeader 3 core store.toNat :: signedVarint (addr - BitVec.ofNat 32 last)) s
    { s with trc := { s.trc with lastData := put (fun _ => 0) s.trc.lastData core addr.toNat } }
  else s

/-- Reservations after a data access (R333): a load-reserved takes one, a store-conditional clears its own, a store clears
the other core's reservation of the word, through whichever address of it. Local memories are each core's own. -/
def reservations (core : Nat) (kind : DataKind) (addr : Word) (s : State) : State :=
  let word := wordPlace s addr.toNat
  let x := lhCore s core
  let y := lhCore s (1 - core)
  let stores := kind = .store ∨ kind = .storeConditional ∧ x.reserved = some word
  let s := match kind with
    | .loadReserved => setLhCore s core { x with reserved := some word }
    | .storeConditional => setLhCore s core { x with reserved := none }
    | _ => s
  if stores ∧ y.reserved = some word ∧ word / 2 ^ 26 ≠ 1 then setLhCore s (1 - core) { y with reserved := none } else s

/-- CORE_DATA_ACCESS (R339): the load or store at `pc`. The access itself is a command of its own (log entry 21). -/
def coreDataAccess (core : Nat) (pc : Word) (kind : DataKind) (addr : Word) (s : State) : State :=
  if coreStill s core then s
  else if accessFaults kind addr.toNat then accessException core pc s
  else
    let s := setPc core pc s
    let s := dataPacket core (kind == .store || kind == .storeConditional) addr (reservations core kind addr s)
    comparators core pc (setPc core (pc + 4) s)

/-- CORE_DATA_ACCESS (R339). -/
def execCoreDataAccess (x : CoreAt) (kind : DataKind) (addr : Word) (s : State) : Out :=
  .next (coreDataAccess x.core.val x.pc kind addr s)

/-- CORE_SLEEP (R341): the sleep instruction at `pc`; the core stands on the instruction after it (R332). -/
def coreSleep (core : Nat) (pc : Word) (s : State) : State :=
  if coreStill s core then s
  else
    let s := setPc core (pc + 4) (setBit s R.lhStatus (20 + core) true)
    let s := if traceRuns s ∧ bits s R.trcCtrl 0 2 ≠ 0 then
        emit core (packetHeader 6 core 0 :: bytesLE 4 (timeLow s).toNat) (powerSync s)
      else s
    comparators core pc s

/-- CORE_SLEEP (R341). -/
def execCoreSleep (x : CoreAt) (s : State) : Out := .next (coreSleep x.core.val x.pc s)

/-- CORE_WAKE (R341): interrupts stay pending while Lighthouse is halted (R332). -/
def coreWake (core : Nat) (s : State) : State :=
  if lhHalted s || !bit s R.lhStatus (20 + core) then s
  else
    let s := takeInterrupt (setBit s R.lhStatus (20 + core) false)
    if traceRuns s ∧ bits s R.trcCtrl 0 2 ≠ 0 then emitSync core 1 (powerSync s) else s

/-- CORE_WAKE (R341). -/
def execCoreWake (core : Fin 2) (s : State) : Out := .next (coreWake core.val s)

/-- TRACE_MSG (R342): a write of the register. On a part without a trace unit it is discarded with no flag (R5); with the
observation domain off it is an access to an unpowered block. -/
def traceMsg (writer : Nat) (v : Word) (s : State) : State :=
  if !tracePresent s then s
  else if !traceOn s then offAccess s
  else
    let s := if traceRuns s ∧ bit s R.trcCtrl 2 then
        emit 2 (packetHeader 4 0 writer :: (bytesLE 4 v.toNat ++ bytesLE 4 (timeLow s).toNat)) (powerSync s)
      else s
    traceEvent 3 s

/-- TRACE_MSG (R342). -/
def execTraceMsg (writer : Fin 4) (value : Word) (s : State) : Out :=
  let t := traceMsg writer.val value s
  .next (if writer.val = 3 then t else performed (if writer.val = 0 then .host else .lighthouse) s t)

/-- A Harbour record for the trace unit (R245): false when it cannot take it, which its own FIFO counts too (R342). -/
def traceHarbour (record : DWord) (s : State) : Bool × State :=
  if traceRuns s && bit s R.trcCtrl 3 then
    (fifoTakes s 3 9, emit 3 (packetHeader 5 0 0 :: bytesLE 8 record.toNat) (powerSync s))
  else (false, s)

/-- A write of TRC_CTRL: en from 0 to 1 starts trace anew, trig is the trigger of source 0 (R343, log entry 22). -/
def traceCtrlWrite (v : Word) (s : State) : State :=
  let was := bit s R.trcCtrl 31
  let s := writeFields R.trcCtrl v s
  let s := if v.getLsbD 31 ∧ ¬ was then
      let s := setBits (setBit s R.trcStatus 30 false) R.trcStatus 27 2 0
      traceRestart { s with trc := { s.trc with postLeft := none } }
    else s
  if v.getLsbD 28 then traceTrigger 0 s else s

/-- The observation domain powers down (Table 13.12): trace stops and the buffer is lost; the first packets after the next
power-up are SYNC. -/
def traceLost (s : State) : State :=
  { s with trc := { buffer := loseContents s.trc.buffer, fresh := true } }

end Sys2Proof.Machine
end

