-- ==== Sys2Proof/Machine/Capture.lean ====
section
/-! DEFINITION. The capture's drain to DDR4 (R297, R298), the share of the other accesses in a channel (R221), BAR4 (R393,
R394), and the DDR4 window of Lighthouse (Table 13.1). -/
namespace Sys2Proof.Machine

/-! ## The capture's units on their way to DDR4 (R297 to R299) -/

/-- Segmented mode, a running capture. -/
def segmented (s : State) : Bool := bit s R.acqCtrl 30
def capturing (s : State) : Bool := bit s R.acqStatus 31

/-- Units that the capture FIFO holds, 256 KiB (R298). -/
def fifoUnits : Nat := 32768

/-- Channel and region of the data, and of the records. -/
def dataPlace (s : State) : Nat × Nat := (bits s R.acqCfg 30 2, bits s R.acqCfg 24 4)
def recPlace (s : State) : Nat × Nat := (bits s R.acqCfg 28 2, bits s R.acqCfg 20 4)

/-- Units of 8 bytes that the data region holds. -/
def regionUnits (s : State) : Nat := bits s (R.ddrRegionSize (dataPlace s).1 (dataPlace s).2) 0 17 * 2 ^ 17

/-- Replace the unit's state. -/
def setAcq (x : Acq) (s : State) : State := { s with acq := x }

/-- The oldest raw header that is not overwritten when `n` units have been written: its position. -/
def oldestHead (s : State) (n : Nat) : Nat :=
  (((s.acq.heads.filter fun x => decide (n ≤ x.1 + regionUnits s)).head?).map (·.1)).getD 0

/-- Base of a region in bytes. -/
def regionBase (s : State) (p : Nat × Nat) : Nat := bits s (R.ddrRegionBase p.1 p.2) 0 16 * 2 ^ 20

/-- Write bytes at an offset of a capture region, after the requests accepted earlier for the same blocks (R219). -/
def captureBytes (p : Nat × Nat) (offset : Nat) (bs : List Byte) (s : State) : State :=
  let s := ddrSettle p.1 (regionBase s p + offset) bs.length s
  setDdr s p.1 { ddr s p.1 with mem := writeBytes (ddr s p.1).mem (regionBase s p + offset) bs }

/-- ACQ_WR and ACQ_START after a drain. -/
def showOffsets (s : State) : State :=
  let n := 8 * regionUnits s
  let wr := 8 * s.acq.drained % n
  let st := if segmented s then 0 else 8 * oldestHead s s.acq.drained % n
  let put_ := fun (lo hi v : Nat) (acc : State) => setReg (setReg acc lo (BitVec.ofNat 32 v)) hi (BitVec.ofNat 32 (v / 2 ^ 32))
  put_ R.acqStartLo R.acqStartHi st (put_ R.acqWrLo R.acqWrHi wr s)

/-- A record waits until the arbiter of its channel comes to the capture: the cluster requests that go before it are executed
(R221); `fuel` bounds them. -/
def recordAwait (c : Nat) : Nat → State → State
  | 0, s => s
  | fuel + 1, s =>
    match ddrTurn s c .capture with
    | some x => setDdr s c x
    | none => recordAwait c fuel (designBurst c s)

/-- A record is a burst of the capture class, at 64 × index of the record region. -/
def writeAcqRecord (index : Nat) (bs : List Byte) (s : State) : State :=
  let c := (recPlace s).1
  captureBytes (recPlace s) (64 * index) bs (recordAwait c ((ddr s c).queue.length + 1) s)

/-- Records whose units have all been drained are written, and ACQ_SEG_DONE counts them, record 0 of normal mode too (R297). -/
def writeAcqRecords (s : State) : State :=
  let due := s.acq.records.filter fun r => decide (r.1 ≤ s.acq.drained)
  let s := due.foldl (fun acc r => writeAcqRecord r.2.1 r.2.2 acc) s
  let s := bumpBits s R.acqSegDone 0 17 due.length
  setAcq { s.acq with
    records := s.acq.records.filter fun r => decide (s.acq.drained < r.1)
    tails := s.acq.tails.filter fun t => decide (s.acq.drained + fifoUnits < t) } s

/-- The capture has ended and the FIFO is empty: capturing is cleared and done set (R293, R297). -/
def captureDone (s : State) : State :=
  if s.acq.ending ∧ s.acq.fifo.isEmpty then
    raiseCause 32 (setBit (setBit (setAcq { s.acq with ending := false } s) R.acqStatus 31 false) R.acqStatus 30 true)
  else s

/-- A burst of up to 8 units goes to the data region; in normal mode the region is a ring. -/
def drainBurst (s : State) : State :=
  let us := s.acq.fifo.take 8
  let n := 8 * regionUnits s
  let s := (us.zipIdx).foldl (fun acc u =>
    captureBytes (dataPlace acc) (8 * (s.acq.drained + u.2) % n) (bytesLE 8 u.1.toNat) acc) s
  let s := setAcq { s.acq with fifo := s.acq.fifo.drop 8, drained := s.acq.drained + us.length } s
  captureDone (writeAcqRecords (showOffsets s))

/-- When the arbiter comes to the capture, a burst is written (R221). -/
def captureBurst (c : Nat) (s : State) : State :=
  match ddrTurn s c .capture with
  | some x => drainBurst (setDdr s c x)
  | none => s

/-! ## The share of the other accesses (R221) -/

/-- A class that has no queue waits until the arbiter comes to it: the bursts that go before it are served; `fuel` bounds
them. -/
def ddrAwait (c : Nat) (k : DdrClass) : Nat → State → State
  | 0, s => s
  | fuel + 1, s =>
    match ddrTurn s c k with
    | some x => setDdr s c x
    | none =>
      ddrAwait c k fuel (if !(ddr s c).queue.isEmpty && (ddrTurn s c .design).isSome then designBurst c s else captureBurst c s)

/-- 64-byte blocks that `n` bytes from `a` on touch. -/
def ddrBlocks (a n : Nat) : Nat := if n = 0 then 0 else (a + n - 1) / 64 - a / 64 + 1

/-- A class reaches `n` bytes of a channel: it has its turn for each burst, and the requests accepted earlier for the same
blocks have been executed (R219, R221). -/
def ddrReach (c : Nat) (k : DdrClass) (a n : Nat) (s : State) : State :=
  ddrSettle c a n
    (forUpTo (ddrBlocks a n) (fun _ acc => ddrAwait c k ((ddr acc c).queue.length + acc.acq.fifo.length + 2) acc) s)

/-! ## BAR4 (R393, R394) -/

/-- The channel of the BAR4 window, and the byte that offset 0 reaches. -/
def bar4Channel (s : State) : Nat := bits s R.glbBar4Win 28 2
def bar4Base (s : State) : Nat := min (bits s R.glbBar4Win 0 6) 60 * 2 ^ 30

/-- The device refuses an access to `ks`, the enabled bytes from `offset` on, whole (R393). -/
def bar4Refused (s : State) (offset : Nat) (ks : List Nat) : Bool :=
  ks.any fun k => !bit s R.glbBar4Win 31 || !ddrReady s (bar4Channel s) ||
    decide (ddrCapacity s (bar4Channel s) ≤ bar4Base s + offset + k)

/-- Positions of the enabled bytes. -/
def enabledAt (es : List Bool) : List Nat := (List.range es.length).filter fun k => es.getD k false

/-- Bytes as little-endian words, the last one filled with zeros. -/
def groupWords (bs : List Byte) : List Word :=
  (List.range (ceilDiv bs.length 4)).map fun k => BitVec.ofNat 32 (ofBytesLE ((bs.drop (4 * k)).take 4))

/-- A read of `es.length` bytes through BAR4: the enabled ones are returned in order. -/
def bar4Read (offset : Nat) (es : List Bool) (s : State) : State :=
  let c := bar4Channel s
  let ks := enabledAt es
  if !ddrOn s c then answer (groupWords (ks.map fun _ => 0xFF)) (offAccess s)
  else if bar4Refused s offset ks then answer (groupWords (ks.map fun _ => 0)) (setBit s R.glbStatus 3 true)
  else
    let s := ddrReach c .host (bar4Base s + offset) es.length s
    answer (groupWords (ks.map fun k => readByte (ddr s c).mem (bar4Base s + offset + k))) s

/-- A write of bytes through BAR4. -/
def bar4Write (offset : Nat) (bs : List (Option Byte)) (s : State) : State :=
  let c := bar4Channel s
  if !ddrOn s c then offAccess s
  else if bar4Refused s offset (enabledAt (bs.map Option.isSome)) then setBit s R.glbStatus 3 true
  else
    let s := ddrReach c .host (bar4Base s + offset) bs.length s
    setDdr s c { ddr s c with mem := writeEnabled (ddr s c).mem (bar4Base s + offset) bs }

/-- BAR4_ACCESS (R393) of `length` bytes. BAR4 is 4 GiB: an access beyond it is none of this BAR. A poisoned write is discarded
(R389), and so is a request with a wrong ECRC where that is checked. -/
def bar4Access (offset length : Nat) (x : Bar4Data) (s : State) : State :=
  match x with
  | .ecrcBad y => if ecrcChecked s then pcieError aerEcrc s else bar4Access offset length y s
  | .read es =>
    if 2 ^ 32 < offset + length then s else performedRead .host s (bar4Read offset (es.take length) s)
  | .write bs poisoned =>
    if 2 ^ 32 < offset + length then s
    else performed .host s (if poisoned then pcieError aerPoisoned s else bar4Write offset (bs.take length) s)

/-- BAR4_ACCESS (R393). -/
def execBar4Access (offset length : Nat) (write : Bar4Data) (s : State) : Out := .next (bar4Access offset length write s)

/-- BAR4_WIN_WRITE (R394): every earlier access has completed. -/
def bar4WinWrite (v : Word) (s : State) : State := performed .host s (writeFields R.glbBar4Win v s)

/-- BAR4_WIN_WRITE (R394). -/
def execBar4WinWrite (value : Word) (s : State) : Out := .next (bar4WinWrite value s)

/-! ## The DDR4 window of Lighthouse (Table 13.1) -/

/-- The bytes lie in a trained channel. -/
def lhDdrGood (s : State) (p : Nat × Nat) (n : Nat) : Bool := ddrReady s p.1 && decide (p.2 + n ≤ ddrCapacity s p.1)

/-- A read of `n` bytes of the window. What a channel that is not trained, or an address above its capacity, returns is free
(log entry 2). -/
def lhDdrRead (offset n : Nat) (s : State) : List Byte × State :=
  let p := lhDdr s offset
  if !ddrOn s p.1 then (List.replicate n 0xFF, offAccess s)
  else if lhDdrGood s p n then
    let s := ddrReach p.1 .lh p.2 n s
    ((List.range n).map fun k => readByte (ddr s p.1).mem (p.2 + k), s)
  else
    let x := takeFree (8 * n) s
    (bytesLE n x.1.toNat, x.2)

/-- A write of bytes to the window. -/
def lhDdrWrite (offset : Nat) (bs : List Byte) (s : State) : State :=
  let p := lhDdr s offset
  if !ddrOn s p.1 then offAccess s
  else if lhDdrGood s p bs.length then
    let s := ddrReach p.1 .lh p.2 bs.length s
    setDdr s p.1 { ddr s p.1 with mem := writeBytes (ddr s p.1).mem p.2 bs }
  else s

end Sys2Proof.Machine
end

