-- ==== Sys2Proof/Machine/Harbour.lean ====
section
/-! DEFINITION. The Harbour transaction engine (chapter 9): matching store, ready and delay lists, dispatch, actions and
rings. -/
namespace Sys2Proof.Machine

/-! ## Operands and classes -/

/-- Fields of an operand word (Table 9.1). -/
def opTag (w : DWord) : Nat := bitsOf w 48 16
def opSlot (w : DWord) : Nat := bitsOf w 45 3
def opValue (w : DWord) : Nat := bitsOf w 0 40

/-- The class of a tag. -/
def tagClass (t : Nat) : Nat := t / 1024

/-- Fields of the class registers. -/
def classOn (s : State) (t : Nat) : Bool := bit s (R.hbClassA (tagClass t)) 31
def classArity (s : State) (t : Nat) : Nat := bits s (R.hbClassA (tagClass t)) 28 3 + 1
def classPriority (s : State) (t : Nat) : Nat := bits s (R.hbClassA (tagClass t)) 24 4
def classDelayed (s : State) (t : Nat) : Bool := bit s (R.hbClassA (tagClass t)) 18
def classList (s : State) (t : Nat) : Nat := bits s (R.hbClassA (tagClass t)) 19 2
def classDelay (s : State) (t : Nat) : Nat := bits s (R.hbClassB (tagClass t)) 16 16
def classRing (s : State) (t : Nat) : Nat := bits s (R.hbClassB (tagClass t)) 0 4
def classCluster (s : State) (t : Nat) : Nat := bits s (R.hbClassB (tagClass t)) 8 7

/-- The action of a class; 5 to 7 act as 0 (Table 9.2). -/
def classAction (s : State) (t : Nat) : Nat :=
  let a := bits s (R.hbClassA (tagClass t)) 21 3
  if a < 5 then a else 0

/-- Replace the engine. -/
def setHb (s : State) (h : Harbour) : State := { s with hb := h }

/-- HB_CTRL.en. -/
def hbEnabled (s : State) : Bool := bit s R.hbCtrl 0

/-- HB_STATUS.idle: no action is in flight. -/
def hbIdle (s : State) : Bool := s.hb.actions.isEmpty

/-- A delay list. -/
def delayList (s : State) (l : Nat) : DelayList := look (fun _ => {}) s.hb.delays l

/-- Replace a delay list. -/
def setDelayList (s : State) (l : Nat) (d : DelayList) : State :=
  setHb s { s.hb with delays := put (fun _ => {}) s.hb.delays l d }

/-- A ready list. -/
def readyList (s : State) (p : Nat) : List HbTask := look (fun _ => []) s.hb.ready p

/-- A task at the tail of a ready list. -/
def addReady (p : Nat) (t : HbTask) (s : State) : State :=
  setHb s { s.hb with ready := put (fun _ => []) s.hb.ready p (readyList s p ++ [t]) }

/-- Task records in use (R228). -/
def poolRecords (s : State) : Nat :=
  ((List.range 16).map fun p => (readyList s p).length).sum + ((List.range 4).map fun l => (delayList s l).tasks.length).sum +
    s.hb.parked.length + s.hb.actions.length

/-- Operands held per source. -/
def heldOf (s : State) (source : Nat) : Nat := (s.hb.store.filter fun o => o.source == source).length

/-- Words that transmit rings have fetched and Harbour has not accepted (R247). -/
def fetchedWords (s : State) : Nat := (s.hb.tx.map fun x => x.2.words.length).sum

/-- HB_WIN_CREDIT.free (R247). Window operands that wait count as held. -/
def windowFree (s : State) : Nat :=
  if hbEnabled s then bits s R.hbQuota 16 16 - heldOf s 128 - s.hb.window.length - fetchedWords s else 0

/-- One record for the trace unit (R245): a record that it cannot take is counted. -/
def hbTrace (event tag aux : Nat) (s : State) : State :=
  if bit s R.hbTraceCtrl 31 ∧ bit s R.hbTraceCtrl (16 + event - 1) then
    let w := event <<< 60 + classPriority s tag <<< 56 + tag <<< 40 + aux <<< 32 + (timeLow s).toNat
    let r := traceHarbour (BitVec.ofNat 64 w) s
    if r.1 then r.2 else bumpBits r.2 R.hbTraceCtrl 0 16 1
  else s

/-- An error of HB_ERR. -/
def hbError (tag status : Nat) (s : State) : State :=
  bumpBits (setBits (setBits s R.hbErr 16 16 tag) R.hbErr 8 8 status) R.hbErr 0 8 1

/-! ## Acceptance (R225 to R229) -/

/-- The oldest operand of a tag and slot. -/
def oldest (l : List HbOperand) (tag slot : Nat) : Option HbOperand :=
  l.find? fun o => opTag o.word == tag && opSlot o.word == slot

/-- A complete task: the oldest operand of each of `n` slots from `k` on, and the store without them (R226). -/
def takeTask (tag : Nat) : Nat → Nat → List HbOperand → Option (List DWord × List HbOperand)
  | 0, _, l => some ([], l)
  | n + 1, k, l => (oldest l tag k).bind fun o => (takeTask tag n (k + 1) (l.erase o)).map fun x => (o.word :: x.1, x.2)

/-- The list with the first element equal to `x` replaced by `y`. -/
def replaceFirst {α : Type} [DecidableEq α] (x y : α) : List α → List α
  | [] => []
  | a :: rest => if a = x then y :: rest else a :: replaceFirst x y rest

/-- A task in the delay list, after those with a due count at or below its own (R232). -/
def insertDue (due : Nat) (t : HbTask) : List (Nat × HbTask) → List (Nat × HbTask)
  | [] => [(due, t)]
  | x :: rest => if x.1 ≤ due then x :: insertDue due t rest else (due, t) :: x :: rest

/-- A complete task enters its delay list or its ready list (R230, R232). -/
def placeTask (t : HbTask) (s : State) : State :=
  if classDelayed s t.tag then
    let l := classList s t.tag
    let d := delayList s l
    hbTrace 3 t.tag l (setDelayList s l { d with tasks := insertDue (d.ticks + classDelay s t.tag) t d.tasks })
  else addReady (classPriority s t.tag) t s

/-- Harbour accepts an operand: it is discarded under R225, or held, and may complete a task. -/
def acceptOperand (o : HbOperand) (s : State) : Bool × State :=
  let w := withBits o.word 40 5 0
  let tag := opTag w
  let s := hbTrace 1 tag (opSlot w) s
  if !classOn s tag || decide (classArity s tag ≤ opSlot w) then
    (true, hbTrace 9 tag 0 (signal 230 tag (hbError tag 0xFF s)))
  else
    let store := s.hb.store ++ [⟨w, o.source⟩]
    let s := setHb s { s.hb with store := store }
    let s := setBits s R.hbStoreUse 16 16 (max (bits s R.hbStoreUse 16 16) store.length)
    match takeTask tag (classArity s tag) 0 store with
    | none => (false, s)
    | some (ws, rest) => (false, placeTask ⟨tag, ws, 0⟩ (hbTrace 2 tag 0 (setHb s { s.hb with store := rest })))

/-- No source is accepted (R229): Harbour is disabled, the pool has no free record or a delay list is full. -/
def acceptBlocked (s : State) : Bool :=
  !hbEnabled s || decide (4096 ≤ poolRecords s) || (List.range 4).any fun l => decide (1024 ≤ (delayList s l).tasks.length)

/-- The first network packet for Harbour whose source is below its quota. -/
def networkOperand (s : State) : Option Packet :=
  (ni s 134).requests.find? fun p => headDst p.head == 152 && decide (heldOf s (headSrc p.head) < bits s R.hbQuota 0 16)

/-- The transmit ring served next: the first after the last one that has a word waiting. -/
def nextRing (s : State) : Option Nat :=
  ((List.range 16).map fun k => (s.hb.lastRing + 1 + k) % 16).find? fun k =>
    match find s.hb.tx k with
    | some d => !d.words.isEmpty
    | none => false

/-- Accept the network packet `p` and answer it (R223, R225). -/
def acceptPacket (p : Packet) (s : State) : State :=
  let s := setNi s 134 { ni s 134 with requests := (ni s 134).requests.erase p }
  let r := acceptOperand ⟨p.payload.headD 0, headSrc p.head⟩ (setHb s { s.hb with hostLast := false })
  if ((p.payload.drop 1).headD 0).getLsbD 0 then respond 134 p 2 [if r.1 then 3 else 1] r.2 else respond 134 p 3 [] r.2

/-- Accept the next host operand: the window's, or the next ring word. That the window goes first is a DESIGN CHOICE (log
entry 91): R229 gives the host one turn and no order within it. -/
def acceptHost (s : State) : State :=
  let s := setHb s { s.hb with hostLast := true }
  match s.hb.window with
  | o :: rest => (acceptOperand o (setHb s { s.hb with window := rest })).2
  | [] =>
    match nextRing s with
    | none => s
    | some k =>
      match find s.hb.tx k with
      | none => s
      | some d =>
        let d' := { d with words := d.words.drop 1, accepted := d.accepted + 1, time := timeNs s }
        let s := setHb s { s.hb with tx := enter s.hb.tx k d', lastRing := k }
        (acceptOperand ⟨d.words.headD 0, 128⟩ s).2

/-- A host operand waits and the host is below its quota. -/
def hostOperand (s : State) : Bool :=
  (!s.hb.window.isEmpty || (nextRing s).isSome) && decide (heldOf s 128 < bits s R.hbQuota 16 16)

/-- At most one operand is accepted (R229): notify operands first, then network and host in turn. -/
def acceptOne (s : State) : State :=
  if acceptBlocked s then s
  else match s.hb.notifies with
    | o :: rest => (acceptOperand o (setHb s { s.hb with notifies := rest })).2
    | [] =>
      match networkOperand s with
      | some p => if hostOperand s ∧ ¬ s.hb.hostLast then acceptHost s else acceptPacket p s
      | none => if hostOperand s then acceptHost s else s

/-! ## Release and dispatch (R230 to R232) -/

/-- The first task of a list that its last tick released moves to the tail of its ready level. -/
def releaseFrom (l : Nat) (s : State) : Option State :=
  let d := delayList s l
  match d.tasks, d.going with
  | (_, t) :: rest, g + 1 =>
    some (hbTrace 4 t.tag l (addReady (classPriority s t.tag) t (setDelayList s l { d with tasks := rest, going := g })))
  | _, _ => none

/-- At most one due delayed task is released. That the lowest-numbered list goes first is a DESIGN CHOICE (log entry 92): R232
gives no order between lists. -/
def releaseOne (s : State) : State := ((List.range 4).findSome? fun l => releaseFrom l s).getD s

/-- Places per action (Table 9.3). -/
def actionPlaces (a : Nat) : Option Nat :=
  match a with
  | 1 => some 16
  | 2 => some 4
  | 3 => some 1
  | 4 => some 32
  | _ => none

/-- The target whose tasks keep their order: a receive ring, or a cluster and queue. -/
def taskTarget (s : State) (t : Nat) : Option (Nat × Nat) :=
  match classAction s t with
  | 1 => some (128, classRing s t)
  | 4 => some (classCluster s t, classRing s t)
  | _ => none

/-- A parked task waits for the same target. -/
def parkedAhead (s : State) (t : Nat) : Bool :=
  match taskTarget s t with
  | none => false
  | some x => s.hb.parked.any fun p => taskTarget s p.task.tag == some x

/-- A task enters the park (R238). -/
def parkTask (t : HbTask) (action : Nat) (s : State) : State :=
  hbTrace 6 t.tag 0 (setHb s { s.hb with parked := s.hb.parked ++ [⟨t, action, none, false⟩] })

/-- A task's action has a free place and no parked task waits ahead of it (R230). -/
def eligible (s : State) (t : HbTask) : Bool :=
  let a := classAction s t.tag
  (match actionPlaces a with
   | some n => decide ((s.hb.actions.filter fun x => x.action == a).length < n)
   | none => true) && !parkedAhead s t.tag

/-- The task dispatched next among those ready before this cycle, with its level. -/
def nextTask (s : State) (before : Sparse (List HbTask)) : Option (Nat × HbTask) :=
  (List.range 16).reverse.findSome? fun p =>
    ((look (fun _ => []) before p).find? fun t => (readyList s p).contains t && eligible s t).map fun t => (p, t)

/-- An action ends (R239, R240): the status is recorded, and the notify operand is created. -/
def endTask (t : HbTask) (status : Nat) (s : State) : State :=
  let s := hbTrace 8 t.tag status s
  let s := if status = 0 then s else signal 232 t.tag (hbError t.tag status s)
  let c := reg s (R.hbClassC (tagClass t.tag))
  if c.getLsbD 31 then
    let w := bitsOf c 0 16 <<< 48 + bitsOf c 16 3 <<< 45 + t.tag <<< 8 + status
    setHb s { s.hb with notifies := s.hb.notifies ++ [⟨BitVec.ofNat 64 w, 129⟩] }
  else s

/-- The 16 entries for notify operands have room, or the task needs none (R227, R240). -/
def canEnd (s : State) (t : HbTask) : Bool :=
  !bit s (R.hbClassC (tagClass t.tag)) 31 || decide (s.hb.notifies.length + heldOf s 129 < 16)

/-- The tasks ready before this cycle whose target has parked tasks join the park without a probe (R238). That they all do so in
one cycle, the higher levels first, each dispatched then, is a DESIGN CHOICE (log entry 94). -/
def joinPark (before : Sparse (List HbTask)) (s : State) : State :=
  (List.range 16).reverse.foldl (fun acc p => (look (fun _ => []) before p).foldl (fun acc t =>
    if parkedAhead acc t.tag then
      let acc := setHb acc { acc.hb with ready := put (fun _ => []) acc.hb.ready p ((readyList acc p).erase t) }
      parkTask { t with dispatched := timeNs acc } (classAction acc t.tag) acc
    else acc) acc) s

/-- At most one task is dispatched (R230). A discard ends in the cycle of its dispatch. -/
def dispatchOne (before : Sparse (List HbTask)) (s : State) : State :=
  if !hbEnabled s then s
  else
    let s := joinPark before s
    match nextTask s before with
    | none => s
    | some (p, t) =>
      let s := setHb s { s.hb with ready := put (fun _ => []) s.hb.ready p ((readyList s p).erase t) }
      let s := hbTrace 5 t.tag 0 s
      let t := { t with dispatched := timeNs s }
      if classAction s t.tag = 0 ∧ canEnd s t then endTask t 0 s
      else
        let phase : HbPhase := if classAction s t.tag = 0 then .ended 0 else .waiting
        setHb s { s.hb with actions := s.hb.actions ++ [⟨t, classAction s t.tag, phase⟩] }

/-- HARBOUR_CYCLE (R231). -/
def harbourCycle (s : State) : State :=
  if !harbourOn s then s else dispatchOne s.hb.ready (releaseOne (acceptOne s))

/-- HARBOUR_CYCLE (R231). -/
def execHarbourCycle (s : State) : Out := .next (harbourCycle s)

/-- A list after a tick (R232): the tick count rises, and the tasks due then, which stand at the front, are released. A task
that enters later, with a delay of 0, is due behind them and waits for the next tick. -/
def tickList (d : DelayList) : DelayList :=
  { d with
    owed := d.owed - 1
    ticks := d.ticks + 1
    going := (d.tasks.takeWhile fun x => decide (x.1 ≤ d.ticks + 1)).length }

/-- DLIST_TICK (R232, R233): a tick that is due reaches the list. -/
def dlistTick (l : Nat) (s : State) : State :=
  let d := delayList s l
  if d.owed = 0 then s else setDelayList s l (tickList d)

/-- DLIST_TICK (R233). -/
def execDlistTick (list : Fin 4) (s : State) : Out := .next (dlistTick list.val s)

/-! ## Actions -/

/-- The first action of a kind that waits. -/
def waitingAction (s : State) (a : Nat) : Option HbAction :=
  s.hb.actions.find? fun x => x.action == a && x.phase == .waiting

/-- An action goes on to a phase. -/
def setAction (x : HbAction) (phase : HbPhase) (s : State) : State :=
  setHb s { s.hb with actions := replaceFirst x { x with phase := phase } s.hb.actions }

/-- An entry of the park is replaced. -/
def setParked (p q : HbParked) (s : State) : State := setHb s { s.hb with parked := replaceFirst p q s.hb.parked }

/-- A task parks (R238): it gives up its place. -/
def park (x : HbAction) (s : State) : State :=
  parkTask x.task x.action (setHb s { s.hb with actions := s.hb.actions.erase x })

/-- A parked task leaves the park and its action ends with a status. -/
def unpark (p : HbParked) (status : Nat) (s : State) : State :=
  hbTrace 7 p.task.tag 0
    (setHb s { s.hb with parked := s.hb.parked.erase p, actions := s.hb.actions ++ [⟨p.task, p.action, .ended status⟩] })

/-- ACTION_END (R239, R240): the first action that has come to its end and can end. -/
def actionEnd (s : State) : State :=
  match s.hb.actions.find? fun x => (match x.phase with | .ended _ => true | _ => false) && canEnd s x.task with
  | none => s
  | some x =>
    match x.phase with
    | .ended status => endTask x.task status (setHb s { s.hb with actions := s.hb.actions.erase x })
    | _ => s

/-- ACTION_END (R239). -/
def execActionEnd (s : State) : Out := .next (actionEnd s)

/-! ### Host messages and rings (R241, R242) -/

/-- Descriptors of a ring. -/
def ringSize (s : State) (k : Nat) : Nat := 2 ^ max 4 (min 12 (bits s (R.hbRingCfg k) 0 4))
def ringOn (s : State) (k : Nat) : Bool := bit s (R.hbRingCfg k) 31
def ringHead (s : State) (k : Nat) : Nat := bits s (R.hbRingHead k) 0 12 % ringSize s k
def ringTail (s : State) (k : Nat) : Nat := bits s (R.hbRingTail k) 0 12 % ringSize s k

/-- The ring has a descriptor for the device and is not halted (R398). -/
def ringReady (s : State) (k : Nat) : Bool := ringOn s k && !s.hb.halted.contains k && ringHead s k != ringTail s k

/-- Bus address of the descriptor at the head. -/
def ringDescriptor (s : State) (k : Nat) : Nat :=
  (ofHalves (reg s (R.hbRingBaseLo k)) (reg s (R.hbRingBaseHi k))).toNat / 32 * 32 + 32 * ringHead s k

/-- The device advances the head. -/
def advanceHead (k : Nat) (s : State) : State := setBits s (R.hbRingHead k) 0 12 ((ringHead s k + 1) % ringSize s k)

/-- A memory write to the host. -/
def hostWrite_ (a : Nat) (bs : List Byte) (s : State) : State :=
  { s with pcie := { s.pcie with writes := s.pcie.writes ++ [(a, bs)] } }

/-- The write-back of a descriptor (R241): bytes 16 to 27, then bytes 28 to 31; the head advances. -/
def writeBack (k time low high : Nat) (s : State) : State :=
  let a := ringDescriptor s k
  advanceHead k (hostWrite_ (a + 28) (bytesLE 4 high) (hostWrite_ (a + 16) (bytesLE 8 time ++ bytesLE 4 low) s))

/-- A message goes to the receive ring of its class: the buffer, the write-back and the interrupt. -/
def deliverMessage (t : HbTask) (buffer : DWord) (s : State) : State :=
  let r := classRing s t.tag
  let s := hostWrite_ buffer.toNat (t.words.flatMap fun w => bytesLE 8 w.toNat) s
  let s := writeBack (16 + r) t.dispatched (t.tag <<< 16 + t.words.length) (2 ^ 31 + classPriority s t.tag <<< 16) s
  if bit s (R.hbRingCfg (16 + r)) 30 then raiseCause r s else s

/-- The first parked host message whose ring is off or has a descriptor. -/
def parkedMessage (s : State) : Option HbParked :=
  s.hb.parked.find? fun p => p.action == 1 && (!ringOn s (16 + classRing s p.task.tag) || ringReady s (16 + classRing s p.task.tag))

/-- HOST_MESSAGE (R242): parked tasks come first; a task whose ring has no free descriptor parks, and a ring that is off
ends it with RING_OFF. `buffer` is the address that the descriptor gives. -/
def hostMessage (buffer : DWord) (s : State) : State :=
  if !busMaster s || !harbourOn s then s
  else match parkedMessage s with
    | some p =>
      if ringOn s (16 + classRing s p.task.tag) then unpark p 0 (deliverMessage p.task buffer s) else unpark p 3 s
    | none =>
      match waitingAction s 1 with
      | none => s
      | some x =>
        let k := 16 + classRing s x.task.tag
        if !ringOn s k then setAction x (.ended 3) s
        else if ringReady s k ∧ ¬ parkedAhead s x.task.tag then setAction x (.ended 0) (deliverMessage x.task buffer s)
        else park x s

/-- HOST_MESSAGE (R242). -/
def execHostMessage (buffer : DWord) (s : State) : Out := .next (hostMessage buffer s)

/-- TX_DESCRIPTOR_FETCH (R242): the descriptor at the head and its operand words arrive. -/
def txFetch (k : Nat) (irq : Bool) (ws : List DWord) (s : State) : State :=
  if harbourOn s && busMaster s && ringReady s k && (find s.hb.tx k).isNone && decide (1 ≤ ws.length) && decide (ws.length ≤ 4096) then
    setHb s { s.hb with tx := enter s.hb.tx k { irq := irq, count := ws.length, words := ws } }
  else s

/-- TX_DESCRIPTOR_FETCH (R242). -/
def execTxDescriptorFetch (k : Fin 16) (irq : Bool) (words : List DWord) (s : State) : Out := .next (txFetch k.val irq words s)

/-- The write-back of a transmit descriptor with a status (R241, R398). -/
def txEnd (k status : Nat) (d : TxDescriptor) (s : State) : State :=
  let s := setHb s { s.hb with tx := drop s.hb.tx k }
  let s := writeBack k d.time d.accepted (2 ^ 31 + status) s
  if d.irq then raiseCause (16 + k) s else s

/-- TX_WRITE_BACK (R241): the last word has been accepted. -/
def txWriteBack (k : Nat) (s : State) : State :=
  match find s.hb.tx k with
  | some d => if d.words.isEmpty ∧ busMaster s ∧ harbourOn s then txEnd k 0 d s else s
  | none => s

/-- TX_WRITE_BACK (R241). -/
def execTxWriteBack (k : Fin 16) (s : State) : Out := .next (txWriteBack k.val s)

/-- RING_TAIL_WRITE (R246). -/
def ringTailWrite (k : Nat) (v : Word) (s : State) : State :=
  if harbourOn s then writeFields (R.hbRingTail k) v s else offAccess s

/-- RING_TAIL_WRITE (R246). -/
def execRingTailWrite (k : Fin 32) (value : Word) (s : State) : Out :=
  .next (performed .host s (ringTailWrite k.val value s))

/-- A write of HB_RING_CFG (R398): en = 0 sets head and tail to 0, gives up the descriptor in work and ends a halt. -/
def ringCfgWrite (k : Nat) (v : Word) (s : State) : State :=
  if !harbourOn s then offAccess s
  else
    let s := writeFields (R.hbRingCfg k) v s
    if v.getLsbD 31 then s
    else
      let s := setHb s { s.hb with tx := drop s.hb.tx k, halted := s.hb.halted.filter (· ≠ k) }
      setBits (setBits s (R.hbRingHead k) 0 12 0) (R.hbRingTail k) 0 12 0

/-- RING_ENABLE (R398). -/
def execRingEnable (k : Fin 32) (value : Word) (s : State) : Out :=
  .next (performed .host s (ringCfgWrite k.val value s))

/-- A failed descriptor fetch halts its ring (R398). -/
def haltRing (k : Nat) (s : State) : State := setHb s { s.hb with halted := k :: s.hb.halted.filter (· ≠ k) }

/-- A failed operand fetch ends the descriptor at the head of a transmit ring with status 0x07 (R398); `irq` is the bit of
that descriptor. -/
def operandError (k : Nat) (irq : Bool) (s : State) : State :=
  txEnd k 7 ((find s.hb.tx k).getD { irq := irq, count := 0, words := [] }) s

/-- MESSAGE_WINDOW_WRITE, high half (R248, R392): an operand with no credit is discarded. -/
def windowDeliver (high : Word) (s : State) : State :=
  let w := ofHalves s.hb.windowLow high
  if windowFree s = 0 then signal 233 (opTag w) (bumpBits s R.hbWinCredit 16 16 1)
  else setHb s { s.hb with window := s.hb.window ++ [⟨w, 128⟩] }

/-- MESSAGE_WINDOW_WRITE (R246, R392): the low half is kept. -/
def windowWrite (low high : Option Word) (s : State) : State :=
  if !harbourOn s then offAccess s
  else
    let s := match low with
      | some w => setHb s { s.hb with windowLow := w }
      | none => s
    match high with
    | some w => windowDeliver w s
    | none => s

/-- MESSAGE_WINDOW_WRITE (R392). -/
def execMessageWindowWrite (low high : Option Word) (s : State) : Out :=
  .next (performed .host s (windowWrite low high s))

/-! ### Block mover (R234, R235) -/

/-- A range of a Harbour address (Table 9.4). -/
inductive HbRange where
  | ddr (channel base : Nat)
  | service (bank offset : Nat)
  | design (bank offset : Nat)
  | refused
  deriving DecidableEq, Repr

/-- The space that a 40-bit Harbour address names (Table 9.4). That an address with a 1 among the bits that its space does not
use, [35:22] of space 4 and [35:26] of space 5, is refused is a DESIGN CHOICE (log entry 93). -/
def hbRange (a : Nat) : HbRange :=
  let space := a / 2 ^ 36 % 16
  let low := a % 2 ^ 36
  if space < 4 then .ddr space low
  else if space = 4 ∧ low < 2 ^ 22 then .service (low / 2 ^ 18) (low % 2 ^ 18)
  else if space = 5 ∧ low < 2 ^ 26 then .design (low / 2 ^ 18) (low % 2 ^ 18)
  else .refused

/-- A valid region of class Harbour or design holds bytes `a` to `a + n - 1` of a channel; for a write, one with
writable = 1. -/
def inRegion (s : State) (write : Bool) (c a n : Nat) : Bool :=
  (List.range 16).any fun r =>
    bit s (R.ddrRegionBase c r) 31 && regionClass s c r != 1 && (!write || bit s (R.ddrRegionBase c r) 30) &&
      decide (bits s (R.ddrRegionBase c r) 0 16 * 2 ^ 20 ≤ a) &&
      decide (a + n ≤ (bits s (R.ddrRegionBase c r) 0 16 + bits s (R.ddrRegionSize c r) 0 17) * 2 ^ 20)

/-- Alignment and length of R234. -/
def lengthOk (n : Nat) : Bool := n % 8 == 0 && decide (8 ≤ n) && decide (n ≤ 2 ^ 30)

/-- Status of Table 9.5 for a range of `n` bytes that is read, or written; 0 where it is good. Of a unit whose domain is closed
the answer to a request tells (R152, R239). That a channel that is on but not ready serves the mover, whose range check does
not look at ready, is a DESIGN CHOICE, unsafe (log entry 124). -/
def rangeStatus (s : State) (write : Bool) (a n : Nat) : Nat :=
  if a % 8 ≠ 0 ∨ ¬ lengthOk n then 1
  else match hbRange a with
    | .refused => 1
    | .ddr c b =>
      if !ddrPresent s c then 1
      else if !domainOn s (16 + c) then 0
      else if !inRegion s false c b n then 1
      else if !inRegion s write c b n then 2
      else 0
    | .service k o => if !serviceOn s k ∨ 2 ^ 18 < o + n then 1 else 0
    | .design b o =>
      if !bankPresent s b ∨ 2 ^ 18 < o + n then 1
      else if !domainOn s (b / 16) then 0
      else if write ∧ ¬ ownsBank s 0x83 b ∧ ¬ cellsAct s (b / 16) then 2
      else 0

/-- A word at a Harbour address that the mover reaches by itself; a design bank has requests of its own. That a march on a
service bank refuses no access of the mover (R210 names view and alias accesses) is a DESIGN CHOICE, unsafe (log entry 125). -/
def hbReadWord (s : State) (a : Nat) : DWord :=
  match hbRange a with
  | .ddr c b => readDWord (ddr s c).mem b
  | .service k o => readDWord (serviceMem s k) o
  | .design _ _ | .refused => 0

/-- Write a word at such an address. -/
def hbWriteWord (a : Nat) (w : DWord) (s : State) : State :=
  match hbRange a with
  | .ddr c b => setDdr s c { ddr s c with mem := writeDWord (ddr s c).mem b w }
  | .service k o => setServiceMem s k (writeDWord (serviceMem s k) o w)
  | .design _ _ | .refused => s

/-- The earlier requests of the DDR4 blocks that an access touches come first (R219), after the mover's turn at the channel
(R221) where a burst begins. -/
def hbTouch (turn : Bool) (a n : Nat) (s : State) : State :=
  match hbRange a with
  | .ddr c b => if turn then ddrReach c .mover b n s else ddrSettle c b n s
  | _ => s

/-- Copy `n` bytes in ascending order. -/
def hbCopy (src dst n : Nat) (s : State) : State :=
  forUpTo (n / 8) (fun k acc => hbWriteWord (dst + 8 * k) (hbReadWord acc (src + 8 * k)) acc) s

/-- Slot value of a task. -/
def slotValue (t : HbTask) (k : Nat) : Nat := opValue (t.words.getD k 0)

/-- The header of a request for one word of a design bank (R235). -/
def bankHeader (write : Bool) (b o : Nat) : DWord := BitVec.ofNat 64 ((if write then 2 ^ 62 else 0) + b <<< 48 + o / 8)

/-- The range lies in a design bank. -/
def inBank (a : Nat) : Bool :=
  match hbRange a with
  | .design _ _ => true
  | _ => false

/-- The endpoint and header of the request for the word at a Harbour address: a design bank has its requests (R235), and a DDR4
channel whose domain is closed is asked, and answers, as R152 says: DESIGN CHOICE, unsafe (log entry 107). None where the mover
reaches the word by itself. -/
def wordRequest (s : State) (write : Bool) (a : Nat) : Option (Nat × DWord) :=
  match hbRange a with
  | .design b o => some (8 * (b / 16), bankHeader write b o)
  | .ddr c b => if domainOn s (16 + c) then none
      else some (148 + c, BitVec.ofNat 64 ((if write then 2 ^ 62 else 0) + b / 8))
  | .service _ _ | .refused => none

/-- A range that is refused because its bank is missing or not Harbour's is reported as R197 reports an access to it. -/
def refuseRange (a status : Nat) (s : State) : State :=
  match hbRange a with
  | .design b _ => if status = 2 ∨ (status = 1 ∧ ¬ bankPresent s b) then notOwned b s else s
  | _ => s

/-! #### Requests of Harbour (R139, R150, R153, R223, R235 to R237) -/

/-- Harbour sends a request of kind 1 or 6 to an endpoint under a tag, from its endpoint 152. The table of its NI is indexed by
endpoint (R139). Without a usable route the request is answered with zeros (R425). -/
def hbRequest (vc kind dst tag : Nat) (payload : List DWord) (s : State) : State :=
  let x := ni s 134
  let s := setNi s 134 { x with outstanding := x.outstanding ++ [⟨tag, dst, none, 1⟩] }
  if routeValid s 134 dst then inject 134 (mkPacket vc kind (routeCodes s 134 dst) 152 dst tag 0 0 payload) s
  else
    let x := ni s 134
    signal 221 134 (setNi s 134 { x with responses := x.responses ++ [mkPacket 2 2 [] dst 152 tag 0 0 [0]] })

/-- The tag under which Harbour may send a request now (R150, R153). -/
def hbTag (s : State) : Option Nat := if niQuiesced s 134 then none else freeTag (ni s 134)

/-- The answer to Harbour's request of a tag, once it is there. -/
def hbAnswer (s : State) (tag : Nat) : Option Packet :=
  ((ni s 134).responses ++ (ni s 134).acceptances).find? fun p => headTag p.head % 64 == tag

/-- Harbour takes an answer: the tag is free again. -/
def hbTake (tag : Nat) (p : Packet) (s : State) : State :=
  let x := ni s 134
  releaseTag 134 tag (setNi s 134 { x with responses := x.responses.erase p, acceptances := x.acceptances.erase p })

/-- Words of a mover's or feed's range. -/
def moveWords (x : HbAction) : Nat := slotValue x.task (if x.action = 2 then 2 else 1) / 8

/-- Word `k` of a range, at address `a`, begins a burst of 64 bytes. -/
def burstStart (k a : Nat) : Bool := k == 0 || a % 64 == 0

/-- Word `k` of the source is fetched: by a VC1 request from a design bank (R235) or a closed channel, else at once. Harbour
asks for one word at a time: DESIGN CHOICE (log entry 75), which keeps the ascending order of R234. -/
def moveFetch (x : HbAction) (k : Nat) (s : State) : State :=
  let a := slotValue x.task 0 + 8 * k
  match wordRequest s false a with
  | some (dst, h) =>
    match hbTag s with
    | none => s
    | some t => setAction x (.reading k t) (hbRequest 1 1 dst t [h] s)
  | none =>
    let s := hbTouch (burstStart k a) a 8 s
    setAction x (.holding k (hbReadWord s a)) s

/-- Word `k` is stored: the mover's by a VC1 request in a design bank (R235) or a closed channel, else at once; the feed's goes
to endpoint 155 as a VC1 write (R236), in the form of R235 with bank and offset 0: DESIGN CHOICE (log entry 75). -/
def moveStore (x : HbAction) (k : Nat) (w : DWord) (s : State) : State :=
  let send := fun (dst : Nat) (h : DWord) =>
    match hbTag s with
    | none => s
    | some t => setAction x (.writing k t) (hbRequest 1 1 dst t [h, w] s)
  if x.action = 3 then send 155 (bankHeader true 0 0)
  else
    let a := slotValue x.task 1 + 8 * k
    match wordRequest s true a with
    | some (dst, h) => send dst h
    | none => setAction x (.moving (k + 1)) (hbWriteWord a w (hbTouch (burstStart k a) a 8 s))

/-- What the answer to an action's request does: a DOMAIN_ASLEEP answer ends it (Table 9.5). -/
def takeAnswer (x : HbAction) (tag : Nat) (next : DWord → HbPhase) (s : State) : State :=
  match hbAnswer s tag with
  | none => s
  | some p => setAction x (if headKind p.head = 4 then .ended 6 else next (p.payload.headD 0)) (hbTake tag p s)

/-- A mover or feed goes one step on. -/
def moveOn (x : HbAction) (s : State) : State :=
  match x.phase with
  | .moving k => if moveWords x ≤ k then setAction x (.ended 0) s else moveFetch x k s
  | .reading k t => takeAnswer x t (.holding k) s
  | .holding k w => moveStore x k w s
  | .writing k t => takeAnswer x t (fun _ => .moving (k + 1)) s
  | .waiting | .probed _ | .ended _ => s

/-- The action is a mover or feed that can go on. -/
def canMove (s : State) (x : HbAction) : Bool :=
  match x.phase with
  | .waiting | .moving _ | .holding _ _ => true
  | .reading _ t | .writing _ t => (hbAnswer s t).isSome
  | .probed _ | .ended _ => false

/-- The first action of a kind that can go on. -/
def movable (s : State) (a : Nat) : Option HbAction := s.hb.actions.find? fun x => x.action == a && canMove s x

/-- The mover begins: a range that fails ends the action, which has moved nothing (R239); a copy within DDR4 and the service
banks is done at once, one that meets a design bank or a closed channel goes on word by word. -/
def moverStart (x : HbAction) (s : State) : State :=
  let src := slotValue x.task 0
  let dst := slotValue x.task 1
  let n := slotValue x.task 2
  let rs := rangeStatus s false src n
  let ws := rangeStatus s true dst n
  if rs ≠ 0 then setAction x (.ended rs) (refuseRange src rs s)
  else if ws ≠ 0 then setAction x (.ended ws) (refuseRange dst ws s)
  else if (wordRequest s false src).isSome || (wordRequest s true dst).isSome then setAction x (.moving 0) s
  else setAction x (.ended 0) (hbCopy src dst n (hbTouch true dst n (hbTouch true src n s)))

/-- BLOCK_MOVER (R234, R235): the first mover task that can go on does its next step. -/
def blockMover (s : State) : State :=
  match movable s 2 with
  | none => s
  | some x => if x.phase = .waiting then moverStart x s else moveOn x s

/-- BLOCK_MOVER (R234). -/
def execBlockMover (s : State) : Out := .next (blockMover s)

/-! ### Loop-back (R237, R238) -/

/-- Harbour's NI sends a reservation probe for a task under a tag (R237). -/
def sendProbe (t : HbTask) (tag : Nat) (s : State) : State :=
  hbRequest 3 6 (classCluster s t.tag) tag [BitVec.ofNat 64 (classRing s t.tag + classArity s t.tag <<< 4)] s

/-- LOOP_BACK (R237, R238): the first task that waits sends its probe, or joins the park of its target. -/
def loopBack (s : State) : State :=
  match waitingAction s 4 with
  | none => s
  | some x =>
    if parkedAhead s x.task.tag then park x s
    else match hbTag s with
      | none => s
      | some t => setAction x (.probed t) (sendProbe x.task t s)

/-- LOOP_BACK (R237). -/
def execLoopBack (s : State) : Out := .next (loopBack s)

/-- The granted words go out as one kind-2 packet with the tag of the grant (R237); VC2 takes the y hops first (R138), and
resp_q is 0 in a packet of kind 2 (Table 6.3). -/
def sendWords (t : HbTask) (tag : Nat) (s : State) : State :=
  let n := classCluster s t.tag
  inject 134 (mkPacket 2 2 (orderCodes 2 (routeCodes s 134 n)) 152 n tag 0 0 t.words) s

/-- What the answer to an action's probe does. -/
def answerAction (x : HbAction) (p : Packet) (s : State) : State :=
  let w := p.payload.headD 0
  if headKind p.head = 4 then setAction x (.ended 6) s
  else if w.getLsbD 0 then setAction x (.ended 0) (sendWords x.task (bitsOf w 8 6) s)
  else if bitsOf w 14 2 = 1 then setAction x (.ended 4) s
  else park x s

/-- What the answer to a parked task's probe does. -/
def answerParked (q : HbParked) (p : Packet) (s : State) : State :=
  let w := p.payload.headD 0
  if headKind p.head = 4 then unpark q 6 s
  else if w.getLsbD 0 then unpark q 0 (sendWords q.task (bitsOf w 8 6) s)
  else if bitsOf w 14 2 = 1 then unpark q 4 s
  else setParked q { q with probe := none } s

/-- The tag is that of a mover's or feed's request. -/
def moverTag (s : State) (tag : Nat) : Bool :=
  s.hb.actions.any fun x =>
    match x.phase with
    | .reading _ t | .writing _ t => t == tag
    | _ => false

/-- RESERVATION_ANSWER (R238): the oldest answer at Harbour's NI to no mover or feed. -/
def reservationAnswer (s : State) : State :=
  match (ni s 134).responses.find? fun p => !moverTag s (headTag p.head % 64) with
  | none => s
  | some p =>
    let t := headTag p.head % 64
    let s := hbTake t p s
    match s.hb.actions.find? fun a => a.phase == .probed t with
    | some a => answerAction a p s
    | none =>
      match s.hb.parked.find? fun q => q.probe == some t with
      | some q => answerParked q p s
      | none => s

/-- RESERVATION_ANSWER (R238). -/
def execReservationAnswer (s : State) : Out := .next (reservationAnswer s)

/-- The oldest parked loop-back task of each target, in park order. -/
def oldestParked (s : State) : List HbParked → List (Option (Nat × Nat)) → List HbParked
  | [], _ => []
  | p :: rest, seen =>
    let x := taskTarget s p.task.tag
    if p.action ≠ 4 ∨ seen.contains x then oldestParked s rest seen else p :: oldestParked s rest (x :: seen)

/-- PARK_REPROBE (R238). -/
def parkReprobe (s : State) : State :=
  (oldestParked s s.hb.parked []).foldl (fun acc p =>
    if p.probe.isSome then acc
    else match hbTag acc with
      | none => acc
      | some t => sendProbe p.task t (setParked p { p with probe := some t } acc)) s

/-- PARK_REPROBE (R238). -/
def execParkReprobe (s : State) : Out := .next (parkReprobe s)

/-- HB_PARK_TIMEOUT (R238): the oldest parked task not yet reported has stayed longer than the limit. -/
def parkTimeout (s : State) : State :=
  if reg s R.hbParkTimeout = 0 then s
  else match s.hb.parked.find? fun p => !p.raised with
    | none => s
    | some p =>
      signal 231 p.task.tag (setParked p { p with raised := true } s)

/-- HB_PARK_TIMEOUT (R238). -/
def execHbParkTimeout (s : State) : Out := .next (parkTimeout s)

/-! ## Control (R224, R244) -/

/-- A write of HB_CTRL.en: with en = 0 acceptance and dispatch stop, and actions in flight end. -/
def harbourEnable (on : Bool) (s : State) : State := if harbourOn s then setBit s R.hbCtrl 0 on else offAccess s

/-- HARBOUR_ENABLE (R244). -/
def execHarbourEnable (on : Bool) (s : State) : Out := .next (harbourEnable on s)

/-- The store, the pool, the lists and the park are emptied; classes and tick counts are kept (Table 9.7). -/
def hbEmpty (s : State) : State :=
  setHb s { s.hb with
    store := [], ready := [], parked := [], actions := [], notifies := [],
    delays := (List.range 4).foldl (fun m l => put (fun _ => {}) m l { delayList s l with tasks := [], going := 0 }) s.hb.delays }

/-- A write of HB_CTRL.flush: only while Harbour is disabled and idle. -/
def flush (s : State) : State :=
  if !harbourOn s then offAccess s
  else if !hbEnabled s && hbIdle s then hbEmpty s
  else setBit s R.hbStatus 1 true

/-- FLUSH (R244). -/
def execFlush (s : State) : Out := .next (flush s)

/-- The Harbour domain powers down (Table 9.7): the store and the pool are lost. -/
def hbLost (s : State) : State := setHb s {}

/-- A write of a class register, HB_QUOTA or HB_DLIST_CFG (R224, R227). -/
def hbCfgWrite (a : Nat) (v : Word) (s : State) : State :=
  if hbEnabled s || !hbIdle s then setBit s R.hbStatus 1 true
  else if a = R.hbQuota ∧ 32768 < 128 * bitsOf v 0 16 + bitsOf v 16 16 + 16 then setBit s R.hbStatus 2 true
  else writeFields a v s

end Sys2Proof.Machine
end

