-- ==== Sys2Proof/Machine/Run.lean ====
section
/-! DEFINITION. Run states and run commands (chapter 11), HOLD (R264), and a reach that leaves the run (R274, R350, R383). -/
namespace Sys2Proof.Machine

/-! ## Clock settings (R372, R373) -/

/-- Highest and lowest setting of reach `r` in steps of 25 MHz above 800 MHz (PWR_REACH_CLK). -/
def clkMax (s : State) (r : Nat) : Nat := min 40 (bits s (R.pwrReachClk r) 26 6)
def clkMin (s : State) (r : Nat) : Nat := min (clkMax s r) (min 40 (bits s (R.pwrReachClk r) 20 6))

/-- The thermal setting of reach `r`. -/
def thermalOf (s : State) (r : Nat) : Nat := look (fun _ => 32) s.pwr.thermal r

/-- Replace a thermal setting. -/
def setThermal (r f : Nat) (s : State) : State := { s with pwr := { s.pwr with thermal := put (fun _ => 32) s.pwr.thermal r f } }

/-- The THERMAL_TRIP limit holds (R377). -/
def tripLimit (s : State) : Bool := !s.pwr.tripped.isEmpty

/-- The effective setting of reach `r` (R373); a reach whose domain is off runs its routers at 0.8 GHz (R131). -/
def effectiveClk (s : State) (r : Nat) : Nat :=
  if tripLimit s || !domainOn s r then 0
  else min (min (thermalOf s r) (clkMax s r)) (if debugMode s then 8 else 40)

/-- Reach `r` runs below f_req for thermal reasons: its thermal setting, or the 0.8 GHz of the trip limit, lies below f_req. -/
def throttled (s : State) (r : Nat) : Bool := decide ((if tripLimit s then 0 else thermalOf s r) < clkMax s r)

/-- Reach `r` takes its effective setting. -/
def applyClk (r : Nat) (s : State) : State :=
  setBit (setBits s (R.pwrReachClk r) 10 6 (effectiveClk s r)) R.pwrClkStatus (16 + r) (throttled s r)

/-- An opportunity of R373 for reach `r`: a thermal setting above f_req takes f_req without steps (R376). -/
def clkOpportunity (r : Nat) (s : State) : State :=
  applyClk r (if clkMax s r < thermalOf s r then setThermal r (clkMax s r) s else s)

/-- Every reach takes its effective setting: sc 40 to 47 of a milestone. -/
def applyClocks (s : State) : State := forUpTo 16 clkOpportunity s

/-- Reach `r` may change its setting outside a milestone (R373); a STOPPED device changes none. -/
def clkFree (s : State) (r : Nat) : Bool :=
  s.sched.run == .frozen || s.sched.run == .notStarted || (inHold s r && s.sched.run != .stopped)

/-- Reaches that may change their setting take it. -/
def applyFree (s : State) : State := forUpTo 16 (fun r acc => if clkFree acc r then clkOpportunity r acc else acc) s

/-! ## Run state -/

/-- The run state changes; FROZEN and STOPPED set cause bit 33 (Table 16.6), and in FROZEN every reach may change its setting
(R373, R376). -/
def setRun (r : RunState) (s : State) : State :=
  let s := { s with sched := { s.sched with run := r } }
  match r with
  | .frozen => raiseCause 33 (applyFree s)
  | .stopped => raiseCause 33 s
  | _ => s

/-- TRG_RUN_STATUS.cause gets bit `b` (R284). -/
def addCause (b : Nat) (s : State) : State := setBit s R.trgRunStatus b true

/-- A discarded command (R280). -/
def cmdRefused (s : State) : State := setBit s R.trgRunStatus 29 true

/-- A freeze action is requested for the milestone that R104 gives, with the cause it is to set. -/
def freezeRequest (b : Nat) (s : State) : State :=
  { s with sched := { s.sched with freezeReq := true, freezeCause := withBit s.sched.freezeCause b true } }

/-- Send a hold marker that names the first ec whose token has not been sent (R283). -/
def sendHold (s : State) : State :=
  let e := s.sched.ec.toNat
  sendTokens true e { s with sched := { s.sched with held := some e } }

/-- A stop reaches the device (R282, R283). The milestone sequence completes within MILESTONE, so a device at its
milestone becomes FROZEN, and any other STOPPED. A stop that meets the sequence waits for its end. -/
def stopDevice (b : Nat) (s : State) : State :=
  if s.sched.inSequence then { s with sched := { s.sched with stopMet := some b } }
  else if s.sched.run = .running then
    let s := addCause b { s with sched := { s.sched with stepsLeft := none } }
    sendHold (setRun (if s.sched.phase = .milestone then .frozen else .stopped) s)
  else s

/-- FREEZE (R280). -/
def freezeCmd (s : State) : State := if s.sched.run = .running then freezeRequest 0 s else cmdRefused s

/-- FREEZE (R280). -/
def execFreeze (s : State) : Out := .next (freezeCmd s)

/-- The device runs again: the causes are cleared, and from FROZEN a token that a hold marker replaced is sent (R108,
R283, R284). -/
def resumeRun (steps : Option Nat) (s : State) : State :=
  let s := setBits s R.trgRunStatus 0 9 0
  let s := setBit s R.acqStatus 25 false
  let s := { s with sched := { s.sched with run := .running, stepsLeft := steps } }
  match s.sched.held with
  | some e =>
    if s.sched.phase = .milestone ∧ e + 1 = s.sched.ec.toNat then
      sendTokens false e { s with sched := { s.sched with held := none } }
    else s
  | none => s

/-- A capture's pause ends (R298): the device runs again by itself, unless another cause holds it. -/
def endPause (s : State) : State :=
  if bit s R.acqStatus 25 then
    let s := setBit s R.acqStatus 25 false
    if s.sched.run = .frozen ∧ bits s R.trgRunStatus 0 9 = 0x100 then resumeRun none s else s
  else s

/-- RUN (R280, R283). -/
def runCmd (s : State) : State := if designFrozen s then resumeRun none s else cmdRefused s

/-- RUN (R280). -/
def execRun (s : State) : Out := .next (runCmd s)

/-- STEP (R280): TRG_STEP_COUNT.n ec, 0 acts as 1. -/
def stepCmd (s : State) : State :=
  if s.sched.run = .frozen then resumeRun (some (max 1 (reg s R.trgStepCount).toNat)) s else cmdRefused s

/-- STEP (R280). -/
def execStep (s : State) : Out := .next (stepCmd s)

/-- STOP (R282). -/
def stopCmd (s : State) : State := if s.sched.run = .running then stopDevice 6 s else cmdRefused s

/-- STOP (R282). -/
def execStop (s : State) : Out := .next (stopCmd s)

/-- The freeze_at value (R281). -/
def freezeAtCount (s : State) : Nat := bits s R.trgFreezeAtHi 0 16 * 2 ^ 32 + s.sched.freezeLow.toNat

/-- FREEZE_AT (R281): a write of TRG_FREEZE_AT_HI sets the value, with the low half that stands in TRG_FREEZE_AT_LO. A count
below the present one freezes at the next milestone. -/
def freezeAt (v : Word) (s : State) : State :=
  let s := writeFields R.trgFreezeAtHi v s
  let s := { s with sched := { s.sched with freezeLow := reg s R.trgFreezeAtLo } }
  if v.getLsbD 31 ∧ freezeAtCount s < s.sched.ec.toNat % 2 ^ 48 then
    freezeRequest 1 (setBit s R.trgFreezeAtHi 30 true)
  else s

/-- FREEZE_AT (R281). -/
def execFreezeAt (value : Word) (s : State) : Out := .next (freezeAt value s)

/-- A write of TRG_RUN_CTRL (R280): one command, or nothing. -/
def runCtrlWrite (v : Word) (s : State) : State :=
  match bitsOf v 28 4 with
  | 0 => s
  | 1 => stopCmd s
  | 2 => stepCmd s
  | 4 => runCmd s
  | 8 => freezeCmd s
  | _ => cmdRefused s

/-! ## HOLD (R264) -/

/-- What a cluster keeps in HOLD: its memories, arrival slots, send FIFO and swell flags. -/
def heldCluster (c : Cluster) : Cluster :=
  { imem := c.imem, dict := c.dict, slots := c.slots, sendFifo := c.sendFifo, swell := c.swell }

/-- The force-overlay entries of a cluster are disabled. -/
def disableForces (n : Nat) (s : State) : State :=
  (listed s (R.cluForce n 0) 64).foldl (fun acc x => setBit acc (R.cluForce n x.1) 31 false) s

/-- Reach `r` enters HOLD (R264), where it may change its setting (R373). -/
def enterHold (r : Nat) (s : State) : State :=
  let s := (List.range 8).foldl (fun acc k =>
    disableForces (8 * r + k) (setClu acc (8 * r + k) (heldCluster (clu acc (8 * r + k))))) s
  let s := setBit s R.ldReach (16 + r) true
  if clkFree s r then clkOpportunity r s else s

/-- The words that wait in the pending registers of reach `r` are lost: a reach in HOLD that is not valid holds 0 in every
one of them (R264, R426). -/
def dropWaiting (r : Nat) (s : State) : State :=
  (List.range 8).foldl (fun acc k => setClu acc (8 * r + k) { clu acc (8 * r + k) with pending := [] }) s

/-- The instruction memories of reach `r` are invalid; a valid one loses the words that wait in it. -/
def invalidate (r : Nat) (s : State) : State :=
  setBit (if reachValid s r then dropWaiting r s else s) R.ldReach r false

/-- The instruction memories of every reach are invalid. -/
def invalidateAll (s : State) : State := setBits (forUpTo 16 dropWaiting s) R.ldReach 0 16 0

/-! ## A reach leaves the run (R274) -/

/-- What the routers of reach `r` latch: enabled buffers with their route entries and last words. -/
def latchBuffers (s : State) (r : Nat) : List LatchedBuffer :=
  (List.range 8).flatMap fun k =>
    let n := 8 * r + k
    (listed s (R.cluObufCfg n 0) 32).filterMap fun x =>
      if x.2.getLsbD 31 then
        let e := bitsOf x.2 8 8
        some ⟨n, x.1, x.2, [reg s (R.wfRt0 n e), reg s (R.wfRt1 n e), reg s (R.wfRt2 n e), reg s (R.wfRt3 n e)],
          dword (clu s n).lastLaunch x.1⟩
      else none

/-- The cluster of a buffer has passed its launch step in a leg of this ec. -/
def launchedAlready (s : State) (x : LatchedBuffer) : Bool :=
  let t := bitsOf x.cfg 16 10
  let ran := match legOf s t with
    | some k => s.sched.ranLegs.contains k
    | none => false
  ran && match (clu s x.cluster).walk with
    | .idle => false
    | .inLeg st => decide (t < st)
    | _ => true

/-- The breakwater cells of reach `r` take over; a buffer launched in this ec launches again in the next one. -/
def raiseBreakwater (r : Nat) (safe : Bool) (s : State) : State :=
  let bs := latchBuffers s r
  let done := (bs.filter fun x => launchedAlready s x).map fun x => (x.cluster, x.buffer)
  { s with rl := { s.rl with cells := enter s.rl.cells r { buffers := bs, launched := done, safe := safe } } }

/-- The cells of reach `r` release. -/
def dropBreakwater (r : Nat) (s : State) : State := { s with rl := { s.rl with cells := drop s.rl.cells r } }

/-- A reload is in progress: entering HOLD, receiving, checking or ready. -/
def reloadInProgress (s : State) : Bool := [1, 2, 3, 4].contains (bits s R.ldReloadStatus 28 4)

/-- A reload ends in state failed with a code (Table 10.8); its reach stays in HOLD, invalid, under its cells (R275). A reach
that has not left the run yet leaves it now: DESIGN CHOICE, unsafe (log entry 77). -/
def reloadFails (code : Nat) (s : State) : State :=
  let r := bits s R.ldReloadCfg 0 4
  let s := if inHold s r ∨ s.rl.left then s else raiseBreakwater r false s
  let s := invalidate r (if inHold s r then s else enterHold r s)
  let s := setBits (setBits s R.ldReloadStatus 28 4 5) R.ldReloadStatus 16 8 code
  let s := setBits s R.ldReloadFree 0 13 4096
  raiseCause 34 { s with rl := { cells := s.rl.cells } }

/-- Reach `r` leaves the run at once and goes to HOLD, invalid (R350, R383). A reload of the reach ends (Table 10.12). -/
def removeReach (r : Nat) (safe : Bool) (s : State) : State :=
  let was := !inHold s r
  let s := if was ∧ ¬ reachLeft s r then raiseBreakwater r safe s
    else if safe then
      { s with rl := { s.rl with cells := s.rl.cells.map fun x => if x.1 = r then (x.1, { x.2 with safe := true }) else x } }
    else s
  let s := if was then enterHold r s else s
  invalidate r (if reloadInProgress s && bits s R.ldReloadCfg 0 4 == r then reloadFails 0x17 s else s)

end Sys2Proof.Machine
end

