-- ==== Sys2Proof/Machine/Faults.lean ====
section
/-! DEFINITION. The fault collector, the rights of Table 13.9 and the Cairn record (chapter 14). -/
namespace Sys2Proof.Machine

/-! ## Rights (Tables 13.7 and 13.9) -/

/-- The rights of Table 13.7. -/
inductive Right where
  | id
  | pk
  | tr
  | fl
  | te
  | kp
  | ce
  | lc
  deriving DecidableEq, Repr

/-- Level of the Footpath session. -/
def dbgLevel (s : State) : Nat := bits s R.dbgStatus 30 2

/-- Rights of the full level by life-cycle state (Table 13.9, ON). -/
def fullRights (lifeCycle : Nat) : List Right := match lifeCycle with
  | 0 => [.id, .pk, .tr, .fl, .kp, .lc]
  | 1 => [.id, .pk, .tr, .fl, .te, .ce, .lc]
  | 2 => [.id, .pk, .tr, .fl, .kp, .lc]
  | 3 => [.id, .pk, .tr, .fl, .lc]
  | 4 => [.id, .pk, .tr, .fl, .te, .lc]
  | _ => []

/-- Rights of the non-invasive level by life-cycle state. -/
def plainRights (lifeCycle : Nat) : List Right := match lifeCycle with
  | 2 | 3 => [.id, .pk, .tr]
  | 5 => [.id, .pk]
  | _ => []

/-- The Footpath session holds a right; in power state AO right TR is lost (Table 13.8). -/
def footpathHas (s : State) (r : Right) : Bool :=
  let have_ := match dbgLevel s with
    | 2 => fullRights s.die.lifeCycle
    | 1 => plainRights s.die.lifeCycle
    | _ => [.id]
  have_.contains r && (r != .tr || domainOn s 25)

/-- The host holds a right: KP and LC in PROVISIONED. -/
def hostHas (s : State) (r : Right) : Bool := s.die.lifeCycle == 2 && (r == .kp || r == .lc)

/-- The party of a command that says whether it comes over Footpath holds a right. -/
def holdsRight (s : State) (footpath : Bool) (r : Right) : Bool := if footpath then footpathHas s r else hostHas s r

/-! ## Cairn queue (R362) -/

/-- Ec count of a record: 0 when no image runs. -/
def recordEc (s : State) : Nat := if s.sched.run = .notStarted then 0 else s.sched.ec.toNat

/-- A record as the writers make it (Table 14.7). -/
def mkRecord (s : State) (kind : Nat) (injected : Bool) (source : Nat) (payload : List Byte) : CairnRecord :=
  ⟨kind, injected, source, s.cairn.coldResets, timeNs s, recordEc s, payload⟩

/-- Queue a record; one that finds 16 waiting is not queued. -/
def queueRecord (r : CairnRecord) (s : State) : Bool × State :=
  if s.cairn.queue.length < 16 then (true, { s with cairn := { s.cairn with queue := s.cairn.queue ++ [r] } }) else (false, s)

/-- Queue a record without asking whether it fits. -/
def addRecord (kind : Nat) (payload : List Byte) (s : State) : State := (queueRecord (mkRecord s kind false 0xFFFF payload) s).2

/-- Bytes of a record without its CRC. -/
def recordBody (sequence : Nat) (r : CairnRecord) : List Byte :=
  (bytesLE 8 sequence ++ bytesLE 1 r.kind ++ bytesLE 1 r.injected.toNat ++ bytesLE 2 r.source ++ bytesLE 4 r.coldResets ++
    bytesLE 8 r.time ++ bytesLE 8 r.ec ++ r.payload ++ List.replicate 28 0).take 60

/-- The 64 bytes of a record (Table 14.7). -/
def recordBytes (sequence : Nat) (r : CairnRecord) : List Byte :=
  let b := recordBody sequence r
  b ++ bytesLE 4 (crc32 b).toNat

/-- Bytes of a slot. -/
def slotBytes (s : State) (slot : Nat) : List Byte := readBytes s.cairn.nvm (64 * slot) 64

/-- Sequence of a slot. -/
def slotSequence (bs : List Byte) : Nat := ofBytesLE (bs.take 8)

/-- A slot's CRC is correct and its sequence is not 0 (R361). -/
def slotValid (bs : List Byte) : Bool := slotSequence bs != 0 && (crc32 (bs.take 60)).toNat == ofBytesLE ((bs.drop 60).take 4)

/-- What a scan of the slots finds (R363): the newest valid slot, the count of valid slots, and those with a sequence and a
wrong CRC. A slot with no listed byte holds zeros. -/
def scanSlots (s : State) : State :=
  let slots := (s.cairn.nvm.cells.map fun c => c.1 / 64).dedup
  let good := slots.filter fun k => slotValid (slotBytes s k)
  let bad := slots.filter fun k => slotSequence (slotBytes s k) != 0 && !slotValid (slotBytes s k)
  let best := good.foldl (fun (acc : Nat × Nat) k =>
    let q := slotSequence (slotBytes s k)
    if acc.2 < q then (k, q) else acc) (0, 0)
  { s with cairn := { s.cairn with
    newest := best.1, sequence := best.2, valid := good.length, badSlots := bad.length, retrySlot := none } }

/-- Write a slot. -/
def writeSlotBytes (slot : Nat) (bs : List Byte) (s : State) : State :=
  let was := slotValid (slotBytes s slot)
  let s := { s with cairn := { s.cairn with nvm := writeBytes s.cairn.nvm (64 * slot) bs } }
  let now := slotValid (slotBytes s slot)
  { s with cairn := { s.cairn with valid := s.cairn.valid + now.toNat - was.toNat } }

/-- Slot of the next record: after the newest, after a slot that failed its read-back, or slot 0 of an empty ring. -/
def nextSlot (s : State) : Nat :=
  match s.cairn.retrySlot with
  | some k => k
  | none => if s.cairn.sequence = 0 then 0 else (s.cairn.newest + 1) % 8192

/-- The oldest queued record is committed (R362). A slot that fails its read-back holds a free value; the record is written
once more into the slot after it. -/
def cairnCommit (ok : Bool) (s : State) : State :=
  match s.cairn.queue with
  | [] => s
  | r :: rest =>
    if s.cairn.erasing then s
    else
      let slot := nextSlot s
      let n := s.cairn.sequence + 1
      if ok then
        let s := writeSlotBytes slot (recordBytes n r) s
        { s with cairn := { s.cairn with queue := rest, newest := slot, sequence := n, retrySlot := none } }
      else
        let x := takeFree 512 s
        let s := writeSlotBytes slot (bytesLE 64 x.1.toNat) x.2
        let s := signal 204 slot (setBit s R.cairnStatus 27 true)
        if s.cairn.retrySlot.isSome then { s with cairn := { s.cairn with queue := rest, retrySlot := none } }
        else { s with cairn := { s.cairn with retrySlot := some ((slot + 1) % 8192) } }

/-- CAIRN_COMMIT (R362). -/
def execCairnCommit (readBackOk : Bool) (s : State) : Out := .next (cairnCommit readBackOk s)

/-- Every queued record is committed (R382). -/
def commitAll (s : State) : State := s.cairn.queue.foldl (fun acc _ => cairnCommit true acc) s

/-- The last software record was queued at least 10 ms earlier (R364). -/
def softwareSpaced (s : State) : Bool :=
  match s.time.softwareAt with
  | some t => decide (t + 2500000 ≤ s.time.ticks)
  | none => true

/-- CAIRN_WRITE (R364): a software record is queued, or discarded within 10 ms of the last one or with a full queue. -/
def cairnWrite (s : State) : State :=
  let payload := (List.range 7).flatMap fun k => bytesLE 4 (reg s (R.cairnSwData k)).toNat
  let r := queueRecord (mkRecord s 7 false 0xFFFF payload) s
  if softwareSpaced s && r.1 then { r.2 with time := { r.2.time with softwareAt := some s.time.ticks } }
  else setBit s R.cairnStatus 29 true

/-- CAIRN_WRITE (R364). -/
def execCairnWrite (s : State) : Out := .next (cairnWrite s)

/-- ERASE (R365): only in MANUFACTURE from a party with right CE. -/
def cairnErase (footpath : Bool) (s : State) : State :=
  if s.die.lifeCycle = 1 ∧ holdsRight s footpath .ce then { s with cairn := { s.cairn with erasing := true } }
  else setBit s R.cairnStatus 28 true

/-- ERASE (R365). -/
def execErase (footpath : Bool) (s : State) : Out := .next (cairnErase footpath s)

/-- ERASE_DONE (R365): every slot is cleared, and a record of type 0x08 with sequence 1 is committed in slot 0. -/
def eraseDone (s : State) : State :=
  if s.cairn.erasing then
    let r := mkRecord { s with cairn := { s.cairn with coldResets := 0 } } 8 false 0xFFFF []
    { s with cairn := { s.cairn with
      nvm := writeBytes {} 0 (recordBytes 1 r), newest := 0, sequence := 1, valid := 1, retrySlot := none, coldResets := 0,
      erasing := false } }
  else s

/-- ERASE_DONE (R365). -/
def execEraseDone (s : State) : Out := .next (eraseDone s)

/-! ## Severities (R346, R351) -/

/-- Present severity of a source. -/
def severityOf (s : State) (source : Nat) : Nat := bits s (R.fltSev (source / 8)) (4 * (source % 8)) 3

/-- Affected reaches of an event (Table 14.1). -/
def affectedReaches (s : State) (source : Nat) : List Nat :=
  if source < 80 then [source % 16]
  else if 140 ≤ source ∧ source < 156 then [source - 140]
  else if 160 ≤ source ∧ source < 176 then [source - 160]
  else if source = 187 then ((List.range 16).filter fun r => s.bist.assigned.any fun x => x.2 / 8 == r)
  else []

/-- The severity of a source for the events of the present collector cycle: a write applies from the next one (R352, Table
14.3). -/
def cycleSeverity (s : State) (source : Nat) : Nat :=
  bitsOf ((find s.flt.cycleSev (R.fltSev (source / 8))).getD (reg s (R.fltSev (source / 8)))) (4 * (source % 8)) 3

/-- Severity 7 acts as severity 5 (FLT_STATUS.reset_limited). -/
def resetLimited (s : State) : Bool := decide (3 ≤ s.flt.sev7Resets)

/-- The severity applied: 7 acts as 5 once limited, and 6 without an affected reach as 5. -/
def appliedSeverity (s : State) (source : Nat) : Nat :=
  let v := cycleSeverity s source
  if v = 7 ∧ resetLimited s then 5
  else if v = 6 ∧ affectedReaches s source = [] then 5
  else v

/-! ## One collector cycle (R345 to R353) -/

/-- An event: source, info, detections counted, injected flag and severity applied. -/
structure Event where
  source : Nat
  info : Nat
  count : Nat
  injected : Bool
  severity : Nat
  deriving DecidableEq, Repr

/-- The smallest number of a list. -/
def least : List Nat → Nat
  | [] => 0
  | x :: rest => rest.foldl min x

/-- The events of a cycle in ascending source number (R345, Table 14.3). -/
def cycleEvents (s : State) : List Event :=
  (inOrder (s.flt.signals.map (·.source))).map fun k =>
    let real := s.flt.signals.filter fun x => x.source == k && !x.injected
    let inj := s.flt.signals.filter fun x => x.source == k && x.injected
    let shown := if real.isEmpty then inj else real
    ⟨k, least (shown.map (·.info)), (if real.isEmpty then 0 else 1) + (if inj.isEmpty then 0 else 1), real.isEmpty,
      appliedSeverity s k⟩

/-- The word of FLT_LAST_LO and FLT_FIRST_LO. -/
def eventWord (e : Event) : Word :=
  BitVec.ofNat 32 (e.source <<< 24 + e.severity <<< 21 + e.injected.toNat <<< 20 + e.info % 65536)

/-- Severity 0: the count, FLT_LAST, and FLT_FIRST while it holds nothing. -/
def countEvent (e : Event) (s : State) : State :=
  let s := bumpBits s (R.fltCount (e.source / 2)) (16 * (e.source % 2)) 16 e.count
  let s := setReg (setReg s R.fltLastLo (eventWord e)) R.fltLastHi (timeLow s)
  if bit s R.fltStatus 30 then s
  else setBit (setReg (setReg s R.fltFirstLo (eventWord e)) R.fltFirstHi (timeLow s)) R.fltStatus 30 true

/-- The record may be written now (R348): the first of its source since the reset, or 1,024 ms after the last. -/
def mayLog (s : State) (source : Nat) : Bool :=
  source != 204 && match find s.flt.lastLogged source with
    | some t => decide (t + 256000000 ≤ s.time.ticks)
    | none => true

/-- Severity 1: the record of type 0x01, or the suppressed count (R348). -/
def logEvent (e : Event) (s : State) : State :=
  if e.severity = 0 then s
  else
    let supp := look (fun _ => 0) s.flt.suppressed e.source
    let payload := bytesLE 1 e.severity ++ bytesLE 1 0 ++ bytesLE 2 e.info ++ bytesLE 4 supp
    let r := queueRecord (mkRecord s 1 e.injected e.source payload) s
    if mayLog s e.source && r.1 then
      { r.2 with flt := { r.2.flt with
        lastLogged := enter r.2.flt.lastLogged e.source s.time.ticks
        suppressed := put (fun _ => 0) r.2.flt.suppressed e.source 0 } }
    else { s with flt := { s.flt with suppressed := put (fun _ => 0) s.flt.suppressed e.source (supp + 1) } }

/-- Severity 2: the pending bit, the cause bit and the Lighthouse interrupt. -/
def pendEvent (e : Event) (s : State) : State :=
  if e.severity < 2 then s
  else
    let s := setBit s (R.fltPend (e.source / 32)) (e.source % 32) true
    raiseCause (48 + e.source / 16) { s with flt := { s.flt with lhInterrupt := true } }

/-- The safe state begins (R349). -/
def enterSafe (s : State) : State := { s with flt := { s.flt with safe := true, releasing := false } }

/-- The reactions of the highest severities, each once (R346, R350, R351, Table 14.3). -/
def react (es : List Event) (s : State) : State :=
  let has := fun (p : Nat → Bool) => es.any fun e => p e.severity
  let stops := has fun v => v == 4 || v == 5 || v == 7
  let s := if has (· == 3) then (if stops ∧ s.sched.run = .running then addCause 5 s else freezeRequest 5 s) else s
  let s := if stops then stopDevice 7 s else s
  let s := if has (5 ≤ ·) then enterSafe s else s
  let gone := (es.filter fun e => 6 ≤ e.severity).flatMap fun e => affectedReaches s e.source
  let s := (inOrder gone).foldl (fun acc r => removeReach r true acc) s
  if has (· == 7) then { s with flt := { s.flt with sev7Pending := true } } else s

/-- FAULT_EVENT (R345, R346): the collector registers the detections of one cycle. -/
def collectFaults (s : State) : State :=
  let es := cycleEvents s
  let s := { s with cw := { s.cw with takenAlong := [] } }
  if es = [] then s
  else
    let s := { s with flt := { s.flt with signals := [], cycleSev := [] } }
    let s := es.foldl (fun acc e => pendEvent e (logEvent e (countEvent e acc))) s
    let s := if es.any fun e => decide (2 ≤ e.severity) then traceEvent 4 s else s
    let s := if es.any fun e => decide (3 ≤ e.severity) then traceTrigger 2 s else s
    react es s

/-- FAULT_EVENT (R346). -/
def execFaultEvent (s : State) : Out := .next (collectFaults s)

/-- Replace the schedule. -/
def setSched (x : Sched) (s : State) : State := { s with sched := x }

/-- Each hazard kind found in the ec raises its source once, before the action requests are sampled (R128). -/
def raiseHazards (s : State) : State :=
  match s.sched.hazardFirst with
  | [] => s
  | hs =>
    let s := (List.range 5).foldl (fun acc k => match hs.find? fun h => h.kind == k + 1 with
      | some h => signal (211 + k) h.cluster acc
      | none => acc) s
    collectFaults (setSched { s.sched with hazardFirst := [] } s)

/-! ## Failed DMA reads (R398) -/

/-- AER bit of a cause: Unsupported Request 20, Completer Abort 15, completion timeout 14, poisoned 12 (log entry 26). -/
def aerBit (cause : Nat) : Nat := [0, aerUnsupported, 15, 14, aerPoisoned].getD cause 0

/-- Completion timeouts are disabled (Table 16.1): bit 4 of device control 2. -/
def timeoutsOff (s : State) : Bool := s.pcie.config.deviceControl2.getLsbD 4

/-- GLB_DMA_ERR records an error. -/
def dmaRecord (ring cause : Nat) (loader descriptor : Bool) (s : State) : State :=
  setReg s R.glbDmaErr (BitVec.ofNat 32
    (ring <<< 27 + cause <<< 24 + loader.toNat <<< 23 + descriptor.toNat <<< 22 + satAdd 16 (bits s R.glbDmaErr 0 16) 1))

/-- The status bits of a completion that ends a read in an error: received master abort for Unsupported Request, received
target abort for Completer Abort, master data parity error for a poisoned one, with Parity Error Response (log entry 97). -/
def completionStatus (cause : Nat) (s : State) : State :=
  pcieStatus (if cause = 1 then 0x2000 else if cause = 2 then 0x1000
    else if cause = 4 ∧ s.pcie.config.command.getLsbD 6 then 0x100 else 0) 0 s

/-- The device records a failed read and raises PCIE_ERR. -/
def dmaFault (ring cause : Nat) (loader descriptor : Bool) (s : State) : State :=
  let rises := bits s R.glbDmaErr 0 16 != 0xFFFF
  let s := pcieError (aerBit cause) (completionStatus cause (dmaRecord ring cause loader descriptor s))
  if rises then raiseCause 36 s else s

/-! ## Collector commands -/

/-- The unit behind an injected source is absent or its domain is off (R345, R354): the source number alone says which unit it
is, for the info is the writer's. -/
def injectGone (s : State) (source : Nat) : Bool :=
  if 80 ≤ source ∧ source < 100 then laneGone s (linkBase s (source - 80))
  else if (211 ≤ source ∧ source < 216) ∨ (224 ≤ source ∧ source < 229) then false
  else sourceGone s source 0

/-- FAULT_INJECT (R354): a write of FLT_INJECT. -/
def faultInject (footpath : Bool) (v : Word) (s : State) : State :=
  let s := writeFields R.fltInject v s
  if ¬ v.getLsbD 31 then s
  else
    let source := bits s R.fltInject 16 8
    if s.die.lifeCycle = 1 ∧ s.die.testStrap ∧ holdsRight s footpath .te ∧ source < 240 then
      if injectGone s source then s
      else { s with flt := { s.flt with signals := s.flt.signals ++ [⟨source, bits s R.fltInject 0 16, true⟩] } }
    else setBit s R.fltStatus 28 true

/-- FAULT_INJECT (R354). -/
def execFaultInject (footpath : Bool) (value : Word) (s : State) : Out := .next (faultInject footpath value s)

/-- A source has its pending bit set. -/
def pendingSource (s : State) (source : Nat) : Bool := bit s (R.fltPend (source / 32)) (source % 32)

/-- SAFE_RELEASE (R349): the shore stays safe until the next milestone. -/
def safeRelease (s : State) : State :=
  if (List.range 240).any fun k => pendingSource s k && decide (5 ≤ severityOf s k) then setBit s R.fltStatus 27 true
  else if s.flt.safe then { s with flt := { s.flt with safe := false, releasing := true } }
  else s

/-- SAFE_RELEASE (R349). -/
def execSafeRelease (s : State) : Out := .next (safeRelease s)

/-- SEV_LOCK (R352). -/
def execSevLock (s : State) : Out := .next (setBit s R.fltCtrl 31 true)

/-- The word of FLT_SEV at `a` is kept for the events that wait, unless one is kept already (R352). -/
def keepCycleSev (a : Nat) (s : State) : State :=
  if s.flt.signals = [] ∨ (find s.flt.cycleSev a).isSome then s
  else { s with flt := { s.flt with cycleSev := enter s.flt.cycleSev a (reg s a) } }

/-- A write of FLT_SEV (R352). -/
def sevWrite (a : Nat) (v : Word) (s : State) : State :=
  if bit s R.fltCtrl 31 then setBit s R.fltStatus 26 true else writeFields a v (keepCycleSev a s)

end Sys2Proof.Machine
end

