-- ==== Sys2Proof/Machine/Selftest.lean ====
section
/-! DEFINITION. Built-in self-test and the test engine (chapter 14). -/
namespace Sys2Proof.Machine

/-! ## What the grade has (Table 0.1) -/

/-- The part has the unit behind domain `d`: Grade C lacks DDR4 channels 2 and 3, quads 10 to 19 and Harbour. -/
def gradeHas (s : State) (d : Nat) : Bool := s.die.gradeA || !([18, 19, 23, 24, 26].contains d)

/-- The part has a trace unit. -/
def gradeTrace (s : State) : Bool := s.die.gradeA

/-- BIST_STATUS.phase. -/
def bistPhase (s : State) : Nat := bits s R.bistStatus 24 4

/-- The unit behind domain `d` is present. Causeway and the spare clusters have more than one: any of them. -/
def domainPresent (s : State) (d : Nat) : Bool :=
  if d < 16 then reachPresent s d
  else if d < 20 then ddrPresent s (d - 16)
  else if d < 25 then (List.range 4).any fun k => bit s R.glbUnitPresent1 (4 * (d - 20) + k)
  else if d = 25 then observationPresent s || tracePresent s
  else if d = 26 then harbourPresent s
  else true

/-- BIST starts from phase 0, with the scan of the Cairn slots (Table 14.5). The domains of units that were absent so far are to
open for it again (R355): DEDUCED, unsafe (log entry 98). -/
def bistStart (requested : Bool) (s : State) : State :=
  let s := scanSlots s
  let s := forUpTo 28 (fun d acc =>
    if gradeHas s d && !domainPresent s d then setBit acc (R.pwrDomainCtrl d) 31 true else acc) s
  let s := setBits (setBits s R.bistStatus 28 4 1) R.bistStatus 24 4 0
  let s := setBit (setReg (setReg s R.glbUnitPresent0 0) R.glbUnitPresent1 0) R.bistStatus 22 false
  { s with bist := { s.bist with onRequest := requested, restarts := 0 } }

/-- A write of BIST_CTRL.go: only while every reach is in HOLD and invalid and no load runs. -/
def bistGo (s : State) : State :=
  if allHold s ∧ bits s R.ldReach 0 16 = 0 ∧ ¬ loadInProgress s ∧ ¬ bistRuns s then bistStart true s
  else setBit s R.bistStatus 21 true

/-- BIST_RUN (R355): a run in progress goes on to its next phase, as far as phase 11; otherwise it is BIST_CTRL.go. -/
def bistRun (s : State) : State :=
  if bistRuns s then setBits s R.bistStatus 24 4 (min 11 (bistPhase s + 1)) else bistGo s

/-- BIST_RUN (R355). -/
def execBistRun (s : State) : Out := .next (bistRun s)

/-! ## The end of BIST (R356 to R359) -/

/-- Failing logical clusters of reach `r` in the reference mapping. -/
def failingIn (x : BistResult) (r : Nat) : List Nat := ((List.range 8).map (8 * r + ·)).filter fun n => x.clusterFail.getLsbD n

/-- Assignment of spares so far: free good spares, (logical, spare) pairs, absent reaches. -/
abbrev Assignment := List Nat × List (Nat × Nat) × List Nat

/-- Reach `r` receives its spares, or none (R357). -/
def assignReach (x : BistResult) (r : Nat) (a : Assignment) : Assignment :=
  let fs := failingIn x r
  if fs.length ≤ a.1.length then (a.1.drop fs.length, a.2.1 ++ fs.zip a.1, a.2.2) else (a.1, a.2.1, a.2.2 ++ [r])

/-- The spares that passed. -/
def goodSpares (x : BistResult) : List Nat := (List.range 8).filter fun k => !x.clusterFail.getLsbD (128 + k)

/-- The assignment of every reach, in ascending order. -/
def assignSpares (x : BistResult) : Assignment := forUpTo 16 (assignReach x) (goodSpares x, [], [])

/-- Reaches that are absent after BIST: those without spares, or all of them when the mesh failed (Table 14.6). -/
def absentReaches (x : BistResult) : List Nat := if x.meshFail then List.range 16 else (assignSpares x).2.2

/-- Number of a list's members as a mask. -/
def maskOf (l : List Nat) : Nat := l.foldl (fun m k => m ||| 2 ^ k) 0

/-- The mapping after BIST: logical clusters that a spare serves. -/
def setMapping (x : BistResult) (s : State) : State :=
  let pairs := (assignSpares x).2.1
  let remap := pairs.foldl (fun m p => put id m p.1 (128 + p.2)) []
  let assigned := pairs.foldl (fun m p => enter m p.2 p.1) []
  { s with bist := { s.bist with
    remap := remap, assigned := assigned, goodSpares := BitVec.ofNat 8 (maskOf (goodSpares x)), svcAbsent := x.svcFail } }

/-- UNIT_PRESENT and BANK_PRESENT after BIST (R4, R357, R358). -/
def setPresence (x : BistResult) (s : State) : State :=
  let absent := absentReaches x
  let reach := maskOf ((List.range 16).filter fun r => !absent.contains r)
  let ddr := maskOf ((List.range 4).filter fun c => gradeHas s (16 + c) && !x.ddrFail.getLsbD c)
  let hb := gradeHas s 26 && !x.harbourFail
  let tr := gradeTrace s && !x.traceFail
  let s := setReg s R.glbUnitPresent0
    (BitVec.ofNat 32 (reach + ddr <<< 16 + hb.toNat <<< 20 + (!x.observationFail).toNat <<< 21 + tr.toNat <<< 22))
  let s := setReg s R.glbUnitPresent1
    (BitVec.ofNat 32 (maskOf ((List.range 20).filter fun q => gradeQuad s q && !x.quadFail.getLsbD q)))
  forUpTo 8 (fun i acc => setReg acc (R.bankPresent i) (BitVec.ofNat 32
    (maskOf ((List.range 32).filter fun j => !x.bankFail.getLsbD (32 * i + j) && !absent.contains ((32 * i + j) / 16))))) s

/-- Domains of absent units are off and stay off (R367). -/
def setDomains (s : State) : State :=
  forUpTo 28 (fun d acc =>
    if domainPresent s d then setBit acc (R.pwrDomainStatus d) 28 true
    else setBits (setBit (setBit acc (R.pwrDomainStatus d) 28 false) (R.pwrDomainCtrl d) 31 false) (R.pwrDomainStatus d) 29 3 0) s

/-- Links of present quads are enabled (R159), and their loops checked (R190). -/
def enableLinks (s : State) : State :=
  forUpTo 20 (fun l acc => checkLoops l (setBit acc (R.cwLinkCfg l) 31 (bit acc R.glbUnitPresent1 l))) s

/-- The destructive marches of BIST leave every design bank and service banks 8 to 15 holding zeros and clear their march flags
(R204, R212, Table 15.7); those of the clusters' memories (Table 14.5) leave zeros too (log entry 79). Service banks 0 to 7
stay as the reset left them (Table 15.7). -/
def bistMemories (s : State) : State :=
  let s := { s with
    clusters := [], banks := { s.banks with design := [], service := s.banks.service.filter fun x => x.1 < 8, march := none } }
  setReg (forUpTo 256 (fun b acc => if bit acc (R.bankCfg b) 30 then setBit acc (R.bankCfg b) 30 false else acc) s)
    R.bankSvcMarchInt (reg s R.bankSvcMarchInt &&& 0xFF)

/-- Show the results. -/
def showResults (x : BistResult) (s : State) : State :=
  let used := (assignSpares x).2.1.length
  let s := forUpTo 5 (fun i acc => setReg acc (R.bistClusterFail i) (BitVec.ofNat 32 (bitsOf x.clusterFail (32 * i) 32))) s
  let s := setReg s R.bistUnitFail (BitVec.ofNat 32 (x.harbourFail.toNat <<< 31 + x.observationFail.toNat <<< 30 +
    x.traceFail.toNat <<< 29 + x.ddrFail.toNat <<< 24 + x.svcFail.toNat))
  let s := setReg s R.bistQuadFail (BitVec.ofNat 32 x.quadFail.toNat)
  setBits (setBits (setBit s R.bistStatus 23 x.meshFail) R.bistStatus 16 4 used) R.bistStatus 0 16 (maskOf (absentReaches x))

/-- Any unit failed (R359). -/
def bistDegraded (x : BistResult) : Bool :=
  x.clusterFail != 0 || x.bankFail != 0 || x.svcFail != 0 || x.quadFail != 0 || x.ddrFail != 0 || x.harbourFail ||
    x.observationFail || x.traceFail || x.meshFail

/-- Payload of the record of type 0x02 (Table 14.8). -/
def bistPayload (x : BistResult) (restarts : Nat) : List Byte :=
  let units := x.harbourFail.toNat + 2 * x.observationFail.toNat + 4 * x.traceFail.toNat + 8 * x.meshFail.toNat + 16 * x.ddrFail.toNat
  bytesLE 17 x.clusterFail.toNat ++ bytesLE 3 x.quadFail.toNat ++ bytesLE 2 (maskOf (absentReaches x)) ++ bytesLE 1 units ++
    bytesLE 1 (assignSpares x).2.1.length ++ bytesLE 2 x.svcFail.toNat ++ bytesLE 2 restarts

/-- LH_STATUS.state becomes `v` (Table 16.6, Table 13.11). -/
def setLhState (v : Nat) (s : State) : State :=
  let s := setBits s R.lhStatus 28 4 v
  let s := if [1, 3, 4].contains v then raiseCause 35 s else s
  if v = 4 then traceEvent 9 s else s

/-- The result without the units that the grade lacks, which are not tested (R355). -/
def testedOnly (s : State) (x : BistResult) : BistResult :=
  { x with
    ddrFail := if s.die.gradeA then x.ddrFail else x.ddrFail &&& 0x3
    quadFail := if s.die.gradeA then x.quadFail else x.quadFail &&& 0x3FF
    svcFail := if gradeHas s 26 then x.svcFail else x.svcFail &&& 0xFF
    harbourFail := x.harbourFail && gradeHas s 26
    traceFail := x.traceFail && gradeTrace s }

/-- Lanes that are active and off go to LOCK, and those of quads that failed the test to OFF (R168, R379). -/
def startLanes (s : State) : State :=
  forUpTo 80 (fun a acc => if laneActive acc a = decide (laneState acc a = laneOff) then laneTrains a acc else acc) s

/-- BIST_DONE (R357 to R359): phase 11 has ended, and with it a warm reset that ran BIST (R382). -/
def bistDone (result : BistResult) (s : State) : State :=
  if ¬ bistRuns s ∨ bistPhase s ≠ 11 then s
  else
    let x := testedOnly s result
    let s := bistMemories (setMapping x s)
    let s := startLanes (enableLinks (setDomains (setPresence x (showResults x s))))
    let s := { s with pwr := { s.pwr with reopening := false } }
    let s := if x.fuseFail then (let y := takeFree 16 s; signal 203 y.1.toNat y.2) else s
    let s := if bistDegraded x then signal 205 (assignSpares x).2.1.length s else s
    let s := addRecord 2 (bistPayload x s.bist.restarts) s
    let s := traceEvent 6 (raiseCause 35 (setBits s R.bistStatus 28 4 2))
    if bits s R.lhStatus 28 4 = 0 then setLhState 1 s else s

/-- BIST_DONE (R357). -/
def execBistDone (result : BistResult) (s : State) : Out := .next (bistDone result s)

/-! ## Test engine (R360) -/

/-- Logical cluster that a physical cluster serves. -/
def logicalOf (s : State) (p : Nat) : Option Nat :=
  if p < 128 then (if physicalOf s p = p then some p else none) else find s.bist.assigned (p - 128)

/-- The domain that holds a physical cluster. -/
def clusterDomain (p : Nat) : Nat := if p < 128 then p / 8 else 27

/-- The test may start: right TE, the cluster exists and is powered, no test runs, and its reach is in HOLD. -/
def testAllowed (s : State) (footpath : Bool) : Bool :=
  let p := bits s R.bistTeCtrl 16 8
  footpath && holdsRight s true .te && decide (p < 136) && domainOn s (clusterDomain p) && s.pwr.test.isNone &&
    match logicalOf s p with
    | some n => inHold s (n / 8)
    | none => true

/-- TEST_ENGINE_GO (R360): a write of BIST_TE_CTRL; a test that starts takes the seed as it stands then. -/
def testGo (footpath : Bool) (v : Word) (s : State) : State :=
  let s := if s.pwr.test.isNone then writeFields R.bistTeCtrl v s else s
  if ¬ v.getLsbD 31 then s
  else if testAllowed s footpath then
    let p := bits s R.bistTeCtrl 16 8
    let s := { s with pwr := { s.pwr with test := some p }, bist := { s.bist with testSeed := reg s R.bistTeSeed } }
    let s := setBit s R.bistTeCtrl 30 true
    match logicalOf s p with
    | some n => invalidate (n / 8) s
    | none => s
  else setBit s R.bistStatus 21 true

/-- TEST_ENGINE_GO (R360). -/
def execTestEngineGo (footpath : Bool) (value : Word) (s : State) : Out := .next (testGo footpath value s)

/-- The cluster that the destructive march of a physical cluster leaves holding zeros (R360, log entry 79). -/
def marchCluster (p : Nat) (s : State) : State :=
  match logicalOf s p with
  | some n => setClu s n {}
  | none => s

/-- TEST_ENGINE_DONE (R360): the signature is shown (log entry 3). -/
def testDone (s : State) : State :=
  match s.pwr.test with
  | none => s
  | some p =>
    let kind := if bits s R.bistTeCtrl 28 2 = 1 then 1 else 0
    let w := Config.misr p kind s.bist.testSeed.toNat (max 1 (bits s R.bistTeCtrl 0 16))
    let s := setReg (setReg s R.bistTeMisrLo (lowHalf w)) R.bistTeMisrHi (highHalf w)
    let s := setBit { s with pwr := { s.pwr with test := none } } R.bistTeCtrl 30 false
    if kind = 1 then marchCluster p s else s

/-- TEST_ENGINE_DONE (R360). -/
def execTestEngineDone (s : State) : Out := .next (testDone s)

end Sys2Proof.Machine
end

