-- ==== Sys2Proof/Machine/Power.lean ====
section
/-! DEFINITION. Power domains, clock settings, thermal policy and reference clocks (chapter 15). -/
namespace Sys2Proof.Machine

/-! ## Domains (R367 to R370) -/

/-- PWR_DOMAIN_STATUS[d].state: 0 off, 1 opening, 2 on, 3 closing, 4 failed. -/
def domainState (s : State) (d : Nat) : Nat := bits s (R.pwrDomainStatus d) 29 3
def setDomainState (d v : Nat) (s : State) : State := setBits s (R.pwrDomainStatus d) 29 3 v

/-- PWR_DOMAIN_CTRL[d].req. -/
def domainWanted (s : State) (d : Nat) : Bool := bit s (R.pwrDomainCtrl d) 31

/-- The unit behind domain `d` may be opened: it is present, or BIST runs and the grade has it (R355). -/
def domainExists (s : State) (d : Nat) : Bool := if bistRuns s then gradeHas s d else domainPresent s d

/-- A spare serves a reach that is not in HOLD (R367). -/
def sparesBusy (s : State) : Bool := s.bist.assigned.any fun x => !inHold s (x.2 / 8)

/-- Why a request is discarded (R367, Table 15.8). -/
def requestRefused (s : State) (d : Nat) (on : Bool) : Bool :=
  s.pwr.reopening || !domainExists s d || (!on && ((decide (d < 16) && !inHold s d) || (d == 27 && sparesBusy s)))

/-- DOMAIN_REQUEST (R367). A failed domain stays failed until req is written 0 and then 1 (R369). -/
def domainRequest (d : Nat) (on : Bool) (s : State) : State :=
  if requestRefused s d on then setBit s (R.pwrDomainStatus d) 27 true
  else
    let t := setBit s (R.pwrDomainCtrl d) 31 on
    if on && !domainWanted s d && domainState s d == 4 then setDomainState d 0 t else t

/-- DOMAIN_REQUEST (R367). -/
def execDomainRequest (d : Fin 28) (on : Bool) (s : State) : Out := .next (domainRequest d.val on s)

/-- BIST has come to the phase that opens domain `d` (Table 15.5). -/
def phaseOpens (s : State) (d : Nat) : Bool :=
  !bistRuns s || (if d = 27 then decide (2 ≤ bistPhase s) else if d < 16 then decide (3 + d / 2 ≤ bistPhase s) else bistPhase s == 11)

/-- Domain `d` waits for a transition. -/
def domainWaits (s : State) (d : Nat) : Bool :=
  (domainState s d == 0 && domainWanted s d && domainExists s d && phaseOpens s d) ||
    (domainState s d == 2 && !domainWanted s d)

/-- The order in which waiting domains are served: ascending (R370), after a reset that of Table 15.5. -/
def domainOrder (s : State) : List Nat :=
  if bistRuns s ∨ s.pwr.reopening then 27 :: List.range 27 else List.range 28

/-- Domain `d` is the next to make a transition, and none is under way (R370). -/
def domainNext (s : State) (d : Nat) : Bool :=
  ((List.range 28).all fun k => domainState s k != 1 && domainState s k != 3) &&
    (domainOrder s).find? (fun k => domainWaits s k) == some d

/-- The requests for domain `d` that wait at its NI, not yet accepted, are answered as for a closed domain (R152). -/
def refuseWaiting (d : Nat) (s : State) : State :=
  [132, 133, 134].foldl (fun acc i =>
    let x := ni acc i
    let mine := fun (p : Packet) => endpointDomain acc (headDst p.head) == some d
    (x.requests.filter mine).foldl (fun t p => receiveClosed i p t)
      (setNi acc i { x with requests := x.requests.filter fun p => !mine p })) s

/-- DOMAIN_CLOSE (R368, Table 6.5): the endpoints of the domain close and drain; Harbour takes no more work, answers what waits
for it as a closed domain does, and its actions end (Table 9.7). -/
def domainClose (d : Nat) (s : State) : State :=
  if domainNext s d && domainState s d == 2 then
    let s := setDomainState d 3 { s with pwr := { s.pwr with ready := false } }
    if d = 26 then setBit (refuseWaiting 26 s) R.hbCtrl 0 false
    else s
  else s

/-- DOMAIN_CLOSE (R368). -/
def execDomainClose (d : Fin 28) (s : State) : Out := .next (domainClose d.val s)

/-- The 16 banks of a reach go to retention or off (R203). -/
def dropBanks (r : Nat) (s : State) : State :=
  forUpTo 16 (fun k acc =>
    let b := 16 * r + k
    if bits acc (R.bankCfg b) 28 2 = 0 then bankPower b (if bit acc (R.bankCfg b) 25 then 1 else 2) acc else acc) s

/-- Every rank of a channel goes into self-refresh (R215). -/
def selfRefresh (c : Nat) (s : State) : State := setBit (setBit s (R.ddrChStatus c) 31 false) (R.ddrChStatus c) 30 true

/-- DOMAIN_DRAIN_DONE (R368): the drain ends. A channel has executed the requests that it held and goes into self-refresh; the
banks of a reach domain go down; the outputs are clamped and the sources masked. -/
def drainDone (d : Nat) (s : State) : State :=
  if domainState s d = 3 ∧ ¬ s.pwr.ready then
    let t := if d < 16 then dropBanks d s else if d < 20 then selfRefresh (d - 16) (ddrDrain (d - 16) s) else s
    { t with pwr := { t.pwr with ready := true } }
  else s

/-- DOMAIN_DRAIN_DONE (R368). -/
def execDomainDrainDone (d : Fin 28) (s : State) : Out := .next (drainDone d.val s)

/-- Registers of a range of BAR0 return to their reset values. -/
def clearRegs (lo hi : Nat) (s : State) : State := { s with regs := s.regs.filter fun x => x.1 < lo ∨ hi ≤ x.1 }

/-- A capture in progress ends without a record (Table 11.7). -/
def captureLost (s : State) : State := endPause { s with acq := {} }

/-- A cluster loses its memories and its registers with its domain. -/
def loseCluster (n : Nat) (s : State) : State :=
  clearRegs (0x1000000 + 0x20000 * n) (0x1000000 + 0x20000 * (n + 1)) (setClu s n {})

/-- What the units of domain `d` lose when their switch opens (Table 15.1). -/
def domainLoses (d : Nat) (s : State) : State :=
  if d < 16 then
    let s := invalidate d s
    (List.range 8).foldl (fun acc k => if domainOfCluster acc (8 * d + k) = d then loseCluster (8 * d + k) acc else acc) s
  else if d < 20 then
    let c := d - 16
    let s := clearRegs (0x400000 + 0x10000 * c) (0x410000 + 0x10000 * c) s
    setBit (refuseWaiting d (ddrAbandon c s)) (R.ddrChStatus c) 30 true
  else if d < 25 then
    let k := d - 20
    let s := forUpTo 16 (fun j acc => laneLeaves (16 * k + j) acc) s
    let s := clearRegs (0x300000 + 0x10000 * k) (0x310000 + 0x10000 * k) s
    let s := ((List.range 20).filter fun l => linkBase s l / 16 == k).foldl (fun acc l => resetLink l acc) s
    let s := forUpTo 20 checkLoops s
    forUpTo 16 (fun j acc => setLaneState (16 * k + j) laneOff (resetLane (16 * k + j) acc)) s
  else if d = 25 then clearRegs 0x700020 0x7C0000 (captureLost (traceLost s))
  else if d = 26 then
    let s := (List.range 8).foldl (fun acc k => setServiceMem acc (8 + k) (loseContents (serviceMem acc (8 + k)))) (hbLost (refuseWaiting 26 s))
    clearRegs 0x600000 0x700000 s
  else s.bist.assigned.foldl (fun acc x => loseCluster x.2 (invalidate (x.2 / 8) acc)) s

/-- The duration of a transition is a free value (log entry 2). -/
def stampDomain (d : Nat) (s : State) : State :=
  let x := takeFree 16 s
  setBits x.2 (R.pwrDomainStatus d) 0 16 x.1.toNat

/-- The routers of a reach whose domain goes off or on take the setting that then applies (R131, R373). -/
def domainClk (d : Nat) (s : State) : State := if d < 16 then applyClk d s else s

/-- DOMAIN_OFF (R368): the switch has opened. -/
def domainOff (d : Nat) (s : State) : State :=
  if domainState s d = 3 ∧ s.pwr.ready then
    domainClk d (domainLoses d (stampDomain d (setDomainState d 0 { s with pwr := { s.pwr with ready := false } })))
  else s

/-- DOMAIN_OFF (R368). -/
def execDomainOff (d : Fin 28) (s : State) : Out := .next (domainOff d.val s)

/-- DOMAIN_OPEN (R369): the switch closes. -/
def domainOpen (d : Nat) (s : State) : State :=
  if domainNext s d && domainState s d == 0 then setDomainState d 1 { s with pwr := { s.pwr with ready := false } } else s

/-- DOMAIN_OPEN (R369). -/
def execDomainOpen (d : Fin 28) (s : State) : Out := .next (domainOpen d.val s)

/-- RAIL_IN_RANGE (R369): the logic of the domain is in reset. -/
def railInRange (d : Nat) (s : State) : State :=
  if domainState s d = 1 then { s with pwr := { s.pwr with ready := true } } else s

/-- RAIL_IN_RANGE (R369). -/
def execRailInRange (d : Fin 28) (s : State) : Out := .next (railInRange d.val s)

/-- PWR_DOMAIN_FAIL of domain `d`. -/
def domainFails (d info : Nat) (s : State) : State :=
  signal (160 + d) info (setDomainState d 4 (setBit s (R.pwrDomainStatus d) 26 true))

/-- The banks of a reach return to the state that pwr_req names (R203). -/
def raiseBanks (r : Nat) (s : State) : State :=
  forUpTo 16 (fun k acc => bankPower (16 * r + k) (powerRequest acc (16 * r + k)) acc) s

/-- Every domain that is to open after a warm reset or FLR is on: Lighthouse waits for firmware (R318, R382). -/
def reopenDone (s : State) : State :=
  if s.pwr.reopening && !bistRuns s && (List.range 28).all fun d => domainState s d == 2 || domainState s d == 4 || !domainExists s d || !domainWanted s d then
    let s := { s with pwr := { s.pwr with reopening := false } }
    if bits s R.lhStatus 28 4 = 0 then setLhState 1 s else s
  else s

/-- RAIL_TIMEOUT (R369): the domain fails; it may be the last that a reset was to open. -/
def railTimeout (d : Nat) (s : State) : State :=
  if domainState s d = 1 ∧ ¬ s.pwr.ready then reopenDone (domainFails d 1 s) else s

/-- RAIL_TIMEOUT (R369). -/
def execRailTimeout (d : Fin 28) (s : State) : Out := .next (railTimeout d.val s)

/-- DOMAIN_ON (R369): the clamps release, the NIs leave asleep, lanes begin training (R168). -/
def domainOnDone (d : Nat) (s : State) : State :=
  if domainState s d = 1 ∧ s.pwr.ready then
    let s := stampDomain d (setDomainState d 2 { s with pwr := { s.pwr with ready := false } })
    let s := if d < 16 then raiseBanks d (domainClk d s)
      else if 20 ≤ d ∧ d < 25 then forUpTo 16 (fun j acc => laneToLock (16 * (d - 20) + j) acc) s
      else s
    reopenDone s
  else s

/-- DOMAIN_ON (R369). -/
def execDomainOn (d : Fin 28) (s : State) : Out := .next (domainOnDone d.val s)

/-- A channel that closes without drain has not put its ranks into self-refresh: nothing refreshes them, and their contents
are not kept (R215, log entry 81). -/
def loseChannel (c : Nat) (s : State) : State :=
  setBit (setDdr s c { ddr s c with mem := loseContents (ddr s c).mem }) (R.ddrChStatus c) 30 false

/-- RAIL_OUT_OF_RANGE (R369): the domain is treated as closed without drain. A running reach that it serves leaves the
run. -/
def railOut (d : Nat) (s : State) : State :=
  if domainState s d = 2 then
    let gone := if d < 16 then [d] else if d = 27 then affectedReaches s 187 else []
    let s := gone.foldl (fun acc r => removeReach r false acc) s
    let s := if d < 16 then dropBanks d s else s
    let s := domainClk d (domainLoses d (domainFails d 2 s))
    reopenDone (if 16 ≤ d ∧ d < 20 then loseChannel (d - 16) s else s)
  else s

/-- RAIL_OUT_OF_RANGE (R369). -/
def execRailOutOfRange (d : Fin 28) (s : State) : Out := .next (railOut d.val s)

/-! ## Writes of clock settings (R372, R376) -/

/-- A write of PWR_REACH_CLK[r] (R376): it is taken at once where the reach may change its setting, else at the next milestone. -/
def reachClkWrite (r : Nat) (v : Word) (s : State) : State :=
  let s := writeFields (R.pwrReachClk r) v s
  if clkFree s r then clkOpportunity r s else s

/-- FLL_CALIBRATE (R372): the loop of an island calibrates it against REFCLK_SYS; without that clock it holds its
control word (R375). -/
def fllCalibrate (i : Nat) (s : State) : State :=
  if bit s R.pwrClkCfg 30 then s
  else { s with pwr := { s.pwr with
    calibrations := put (fun _ => 0) s.pwr.calibrations i (look (fun _ => 0) s.pwr.calibrations i + 1) } }

/-- FLL_CALIBRATE (R372). -/
def execFllCalibrate (island : Fin 144) (s : State) : Out := .next (fllCalibrate island.val s)

/-! ## Thermal policy (R376, R377) -/

/-- Fields of PWR_THERM_CFG. -/
def tThrottle (s : State) : Nat := min 105 (bits s R.pwrThermCfg 24 8)
def tHigh (s : State) : Nat := bits s R.pwrThermCfg 16 8
def tHyst (s : State) : Nat := max 1 (bits s R.pwrThermCfg 12 4)

/-- Latest sample of a sensor. -/
def sensorTemp (s : State) (k : Nat) : Nat := bits s (R.pwrThermTemp k) 0 8

/-- The decision for reach `r`: none before its first sample. -/
def thermalStep (r : Nat) (s : State) : State :=
  if ¬ bit s (R.pwrThermTemp r) 31 then s
  else
    let t := sensorTemp s r
    let f := thermalOf s r
    let s := setBit s R.pwrClkStatus r (decide (tThrottle s ≤ t) && f == clkMin s r)
    let s := if tThrottle s ≤ t ∧ clkMin s r < f then setThermal r (f - 1) s
      else if t + tHyst s ≤ tThrottle s ∧ f < clkMax s r then setThermal r (f + 1) s
      else s
    if clkFree s r then applyClk r s else s

/-- THERMAL_DECISION (R376). -/
def thermalDecision (s : State) : State := forUpTo 16 thermalStep s

/-- THERMAL_DECISION (R376). -/
def execThermalDecision (s : State) : Out := .next (thermalDecision s)

/-- THERMAL_HIGH of a sensor (R377). -/
def sampleHigh (k t : Nat) (s : State) : State :=
  if tHigh s ≤ t then
    if bit s (R.pwrThermTemp k) 30 then s else signal (140 + k) t (setBit s (R.pwrThermTemp k) 30 true)
  else if t + tHyst s ≤ tHigh s then setBit s (R.pwrThermTemp k) 30 false
  else s

/-- THERMAL_TRIP of a sensor (R377): every island goes to 0.8 GHz at once; the limit ends when every sensor has cooled. -/
def sampleTrip (k t : Nat) (s : State) : State :=
  if 110 ≤ t then
    if s.pwr.tripped.contains k then s
    else forUpTo 16 applyClk (signal 200 k { s with pwr := { s.pwr with tripped := k :: s.pwr.tripped } })
  else if t + tHyst s ≤ 110 ∧ s.pwr.tripped.contains k then
    applyFree { s with pwr := { s.pwr with tripped := s.pwr.tripped.filter (· ≠ k) } }
  else s

/-- SENSOR_SAMPLE (R377). -/
def sensorSample (k celsius : Nat) (s : State) : State :=
  let t := min 255 celsius
  let s := setBit (setBits s (R.pwrThermTemp k) 0 8 t) (R.pwrThermTemp k) 31 true
  let s := setBits s (R.pwrThermTemp k) 8 8 (max t (bits s (R.pwrThermTemp k) 8 8))
  sampleTrip k t (sampleHigh k t s)

/-- SENSOR_SAMPLE (R377). -/
def execSensorSample (sensor : Fin 20) (celsius : Nat) (s : State) : Out := .next (sensorSample sensor.val celsius s)

/-! ## Reference clocks (R375) -/

/-- Bit of PWR_CLK_CFG and fault source of a reference clock. -/
def clkBit : RefClock → Nat
  | .cw k => 26 + k.val
  | .sys => 30
  | .pcie => 25
def clkSource : RefClock → Nat
  | .cw k => 196 + k.val
  | .sys => 201
  | .pcie => 202

/-- REFCLK_LOSS (R375): the fault is raised; the lanes that the clock serves leave OPER. -/
def refclkLoss (c : RefClock) (s : State) : State :=
  if bit s R.pwrClkCfg (clkBit c) then s
  else
    let s := signal (clkSource c) 0 (setBit s R.pwrClkCfg (clkBit c) true)
    match c with
    | .cw k => forUpTo 20 (fun j acc =>
        let a := 20 * k.val + j
        if laneState acc a = laneOper then laneLeaves a acc else acc) s
    | _ => s

/-- REFCLK_LOSS (R375). -/
def execRefclkLoss (clock : RefClock) (s : State) : Out := .next (refclkLoss clock s)

/-- REFCLK_RETURN (R375). -/
def execRefclkReturn (clock : RefClock) (s : State) : Out := .next (setBit s R.pwrClkCfg (clkBit clock) false)

end Sys2Proof.Machine
end

