-- ==== Sys2Proof/Machine/Observe.lean ====
section
/-! DEFINITION. The trigger and acquisition unit (R287 to R302). -/
namespace Sys2Proof.Machine

/-! ## Trigger channels (R287 to R290) -/

/-- Probe bit `p` of the last milestone (R83). -/
def probeBit (s : State) (p : Nat) : Bool := (dword s.sched.probes (p / 64)).getLsbD (p % 64)

/-- Width of channel `c`, and selector `i` of its probe route. -/
def chWidth (s : State) (c : Nat) : Nat := bits s (R.trgChCfg c) 16 7 % 64 + 1
def chSelector (s : State) (c i : Nat) : Nat := bits s (R.trgRoute c (i / 2)) (16 * (i % 2)) 13

/-- The bus value as a number of `w` bits. -/
def busBits (s : State) (c : Nat) : Nat :=
  (List.range (chWidth s c)).foldl (fun acc i => acc + (probeBit s (chSelector s c i)).toNat <<< i) 0

/-- A number of `w` bits as the channel reads it: two's complement when it is signed. -/
def asValue (s : State) (c : Nat) (n : Nat) : Int :=
  let w := chWidth s c
  let n := n % 2 ^ w
  if bit s (R.trgChCfg c) 28 && decide (2 ^ (w - 1) ≤ n) then (n : Int) - 2 ^ w else n

/-- The bus value (R287). -/
def busValue (s : State) (c : Nat) : Int := asValue s c (busBits s c)

/-- The upper register pair (threshold or pattern) and the lower one (threshold or mask), as numbers of 64 bits. -/
def upper64 (s : State) (c : Nat) : Nat := (reg s (R.trgChUpperHi c)).toNat * 2 ^ 32 + (reg s (R.trgChUpperLo c)).toNat
def lower64 (s : State) (c : Nat) : Nat := (reg s (R.trgChLowerHi c)).toNat * 2 ^ 32 + (reg s (R.trgChLowerLo c)).toNat

/-- A threshold of 64 bits as the channel compares it. -/
def threshold (s : State) (c n : Nat) : Int := if bit s (R.trgChCfg c) 28 && decide (2 ^ 63 ≤ n) then (n : Int) - 2 ^ 64 else n

/-- The channel is a pattern comparator. -/
def patternCh (s : State) (c : Nat) : Bool := bits s (R.trgChCfg c) 29 2 == 3

/-- The lower threshold of a hysteresis comparator exceeds the upper one (R288). -/
def chBad (s : State) (c : Nat) : Bool := !patternCh s c && decide (threshold s c (upper64 s c) < threshold s c (lower64 s c))

/-- The pattern matches over the channel's bits (R289). -/
def patternMatches (s : State) (c : Nat) : Bool :=
  ((busBits s c ^^^ upper64 s c) &&& lower64 s c) % 2 ^ chWidth s c == 0

/-- What one evaluation of a channel found. -/
structure Evaluation where
  rising : Bool
  falling : Bool
  above : Bool
  fires : Bool
  deriving DecidableEq, Repr

/-- The evaluation of channel `c` (R288, R289). -/
def evaluation (s : State) (c : Nat) : Evaluation :=
  let v := busValue s c
  let was := bit s (R.trgChStatus c) 31
  if patternCh s c then
    let m := patternMatches s c
    let onset := m && !bit s (R.trgChStatus c) 30
    ⟨onset, false, m, if bit s (R.trgChCfg c) 27 then onset else m⟩
  else
    let up := !was && decide (threshold s c (upper64 s c) ≤ v)
    let down := was && decide (v ≤ threshold s c (lower64 s c))
    let fires := match bits s (R.trgChCfg c) 29 2 with
      | 0 => up
      | 1 => down
      | _ => up || down
    ⟨up, down, up || (was && !down), fires && !chBad s c⟩

/-- Channel `c` is evaluated at a milestone: state, match, value and count of firings. -/
def evaluateChannel (c : Nat) (s : State) : State :=
  if bit s (R.trgChCfg c) 31 then
    let x := evaluation s c
    let v := BitVec.ofInt 64 (busValue s c)
    let s := if patternCh s c then setBit s (R.trgChStatus c) 30 x.above else setBit s (R.trgChStatus c) 31 x.above
    let s := if x.fires then bumpBits s (R.trgChStatus c) 0 16 1 else s
    setReg (setReg s (R.trgChValueLo c) (lowHalf v)) (R.trgChValueHi c) (highHalf v)
  else s

/-- Comparators are in state below, patterns count as not matched (R290). -/
def resetComparators (s : State) : State :=
  forUpTo 16 (fun c acc => setBits acc (R.trgChStatus c) 30 2 0) s

/-! ## Configuration of a capture (R293 to R298) -/

/-- P, Q, and the selected clusters. -/
def preCount (s : State) : Nat := bits s R.acqPre 0 24
def postCount (s : State) : Nat := bits s R.acqPost 0 24
def selected (s : State) : List Nat := (List.range 128).filter fun n => bit s (R.acqSel (n / 32)) (n % 32)

/-- An armed unit, policy pause. -/
def trigArmed (s : State) : Bool := bit s R.trgStatus 31
def pausePolicy (s : State) : Bool := bit s R.acqCfg 15

/-- A region may take captured data: its channel is present, on and ready, the region valid, of class capture and
writable (R295). -/
def captureRegion (s : State) (p : Nat × Nat) : Bool :=
  ddrOn s p.1 && ddrReady s p.1 && bit s (R.ddrRegionBase p.1 p.2) 31 && regionClass s p.1 p.2 == 1 &&
    bit s (R.ddrRegionBase p.1 p.2) 30

/-- An arm is refused (R295). -/
def armRefused (s : State) : Bool :=
  let w := (selected s).length
  w == 0 || !captureRegion s (dataPlace s) || !captureRegion s (recPlace s) || (segmented s && decide (262144 < preCount s * w))

/-- Largest number of segments (ACQ_SEG_MAX). -/
def segmentMax (s : State) : Nat :=
  let m := bits s R.acqSegMax 0 17
  if m = 0 ∨ 65536 < m then 65536 else m

/-- K of R296; key_log below 4 acts as 4. -/
def keyPeriod (s : State) : Nat := 2 ^ max 4 (bits s R.acqCfg 16 4)

/-- Words that the 2 MiB pre-trigger store holds (R299). -/
def storeWords : Nat := 262144

/-- Bytes in the capture FIFO. What it cannot hold of an open segment waits behind it in the store. -/
def fifoFill (s : State) : Nat := 8 * min fifoUnits s.acq.fifo.length

/-- Samples of segments that still wait in the pre-trigger store for a place in the FIFO. -/
def storeHeld (s : State) : Nat :=
  (s.acq.tails.filter fun p => decide (s.acq.drained + fifoUnits < p)).length

/-- A sample of `w` words that makes `units` units has a place (R298): in the FIFO, or, while samples of its segment wait in
the store, behind them there. The second is a DESIGN CHOICE, unsafe (log entry 78). -/
def sampleFits (w units : Nat) (s : State) : Bool :=
  decide (s.acq.fifo.length + units ≤ fifoUnits) ||
    (s.acq.segment.isSome && decide (0 < storeHeld s) && decide ((storeHeld s + 1) * w ≤ storeWords))

/-! ## Units (Table 11.3) -/

/-- A marker, and the headers of raw and delta samples and of a repeat. -/
def markerUnit (code e : Nat) : DWord := BitVec.ofNat 64 (code <<< 56 + e % 2 ^ 48)
def rawHeader (w e : Nat) : DWord := BitVec.ofNat 64 (1 <<< 62 + (w - 1) <<< 55 + e % 2 ^ 48)
def deltaHeader (w e : Nat) : DWord := BitVec.ofNat 64 (2 <<< 62 + (w - 1) <<< 55 + e % 2 ^ 48)
def repeatUnit (r e : Nat) : DWord := BitVec.ofNat 64 (3 <<< 62 + (r - 1) <<< 48 + e % 2 ^ 48)

/-- Control units with their literal words: a run of zero words, then a run of others; `fuel` bounds the runs. -/
def controlUnits : Nat → List DWord → List DWord
  | 0, _ => []
  | fuel + 1, ws =>
    if ws.isEmpty then []
    else
      let z := (ws.takeWhile (· == 0)).length
      let ls := (ws.drop z).takeWhile (· != 0)
      BitVec.ofNat 64 (z <<< 56 + ls.length <<< 48) :: ls ++ controlUnits fuel (ws.drop (z + ls.length))

/-- The units that end a repeat run. -/
def flushRun (k : Coder) : List DWord := if k.run = 0 then [] else [repeatUnit k.run k.runEc]

/-- The coder without a run. -/
def noRun (k : Coder) : Coder := { k with run := 0, runEc := 0 }

/-- A sample is coded: the units to write and the coder after it. A run of 16,384 samples ends by itself. -/
def codeSample (raw : Bool) (e : Nat) (ws : List DWord) (k : Coder) : List DWord × Coder :=
  match k.last with
  | some prev =>
    if raw then (flushRun k ++ rawHeader ws.length e :: ws, { last := some ws })
    else if ws = prev then
      let n := { k with run := k.run + 1, runEc := if k.run = 0 then e else k.runEc }
      if n.run = 16384 then (flushRun n, noRun n) else ([], n)
    else
      let d := List.zipWith (fun a b => a ^^^ b) ws prev
      (flushRun k ++ deltaHeader ws.length e :: controlUnits (d.length + 1) d, { last := some ws })
  | none => (flushRun k ++ rawHeader ws.length e :: ws, { last := some ws })

/-- Units enter the FIFO. -/
def pushUnits (us : List DWord) (s : State) : State :=
  setAcq { s.acq with fifo := s.acq.fifo ++ us, made := s.acq.made + us.length } s

/-- A raw header lies among units about to be made: its position. -/
def noteHead (us : List DWord) (raw : Bool) (w e : Nat) (s : State) : State :=
  if raw then setAcq { s.acq with heads := s.acq.heads ++ [(s.acq.made + us.length - (w + 1), e)] } s else s

/-- Where a sample of the open segment ends among the units. -/
def noteTail (s : State) : State :=
  if s.acq.segment.isSome then setAcq { s.acq with tails := s.acq.tails ++ [s.acq.made] } s else s

/-- A sample enters the FIFO coded. -/
def pushSample (raw : Bool) (x : Sample) (s : State) : State :=
  let r := codeSample raw x.ec x.words s.acq.coder
  let s := noteHead r.1 (raw || s.acq.coder.last.isNone) x.words.length x.ec s
  noteTail (pushUnits r.1 (setAcq { s.acq with coder := r.2 } s))

/-- A marker enters the FIFO; it ends a repeat run. -/
def pushMarker (code e : Nat) (s : State) : State :=
  let us := flushRun s.acq.coder ++ [markerUnit code e]
  pushUnits us (setAcq { s.acq with coder := noRun s.acq.coder } s)

/-- Zero units up to the next 64-byte boundary (R297). -/
def pad (s : State) : State := pushUnits (List.replicate ((8 - s.acq.made % 8) % 8) 0) s

/-! ## Windows and records (R300, R301) -/

/-- One more sample in a window. -/
def addToWindow (x : Sample) (w : Window) : Window :=
  { samples := w.samples + 1
    low := if w.samples = 0 then x.value else min w.low x.value
    high := if w.samples = 0 then x.value else max w.high x.value
    lastRise := if x.rising then some x.ec else w.lastRise
    period := match w.lastRise with
      | some e => if x.rising then min (x.ec - e) (2 ^ 32 - 1) else w.period
      | none => w.period
    edges := if x.rising then satAdd 32 w.edges 1 else w.edges
    duty := if x.above then satAdd 32 w.duty 1 else w.duty
    gap := w.gap }

/-- The record of a window whose first unit stands at `start` and whose end marker at `last` (Table 11.4): the offset is in
bytes within the data region. -/
def recordOf (s : State) (start last offset : Nat) (short : Bool) : List Byte :=
  let t := s.acq.trigger.getD (0, 0)
  let w := s.acq.window
  let flags := 1 + 2 * s.acq.trigger.isSome.toNat + 4 * w.gap.toNat + 8 * short.toNat
  bytesLE 8 t.1 ++ bytesLE 8 t.2 ++ bytesLE 8 offset ++ bytesLE 4 (ceilDiv (8 * (last + 1 - start)) 64) ++
    bytesLE 4 w.samples ++ bytesLE 8 (BitVec.ofInt 64 w.low).toNat ++ bytesLE 8 (BitVec.ofInt 64 w.high).toNat ++
    bytesLE 4 w.period ++ bytesLE 4 w.edges ++ bytesLE 4 w.duty ++ bytesLE 4 flags

/-- A record is to be written once every unit made so far has been drained. -/
def queueAcqRecord (index : Nat) (bs : List Byte) (s : State) : State :=
  setAcq { s.acq with records := s.acq.records ++ [(s.acq.made, index, bs)] } s

/-- The capture ends once the FIFO has drained. -/
def endCapture (s : State) : State := setAcq { s.acq with ending := true, segment := none } s

/-- The end of a normal capture (R297): end marker with the last sample's ec, padding and record 0. -/
def finishNormal (e : Nat) (s : State) : State :=
  let s := pushMarker 3 e s
  let last := s.acq.made - 1
  let s := pad s
  let start := oldestHead s s.acq.made
  endCapture (queueAcqRecord 0 (recordOf s start last (8 * start % (8 * regionUnits s)) (bit s R.acqStatus 28)) s)

/-- The open segment is discarded: its units that wait leave the FIFO. -/
def discardSegment (s : State) : State :=
  match s.acq.segment with
  | none => s
  | some p =>
    let keep := p - s.acq.drained
    setAcq { s.acq with
      fifo := s.acq.fifo.take keep, made := max p s.acq.drained, segment := none, coder := {}, window := {}, lost := none,
      tails := s.acq.tails.filter fun t => decide (t ≤ p) } s

/-- Segments recorded or to be recorded. -/
def segmentsMade (s : State) : Nat := bits s R.acqSegDone 0 17 + s.acq.records.length

/-- A segmented acquisition ends on the region or on ACQ_SEG_MAX (R299): it is full and the unit disarms. -/
def finishFull (s : State) : State := endCapture (setBit (setBit s R.acqStatus 29 true) R.trgStatus 31 false)

/-- The end of a segment (R299): end marker, padding and record; the unit waits to be armed again, or ends. -/
def finishSegment (e : Nat) (s : State) : State :=
  match s.acq.segment with
  | none => s
  | some p =>
    let s := pushMarker 3 e s
    let last := s.acq.made - 1
    let s := pad s
    if regionUnits s < s.acq.made then finishFull (discardSegment s)
    else
    let s := queueAcqRecord (segmentsMade s) (recordOf s p last (8 * p) false) s
    let s := setAcq { s.acq with segment := none, coder := {}, window := {}, trigger := none, lost := none, rearm := true } s
    if segmentMax s ≤ segmentsMade s then finishFull s else s

/-- The next unit of the open segment would pass the end of the region: the segment is discarded and the acquisition
ends (R299). -/
def checkRegion (s : State) : State :=
  if s.acq.segment.isSome ∧ regionUnits s < s.acq.made then finishFull (discardSegment s) else s

/-! ## Commands -/

/-- ARM (R290, R293, R295, Table 11.7). A pause goes on until PAUSE_RESUME finds the FIFO empty, a force written before the
milestone point counts there (R291), and the offsets of a new capture begin at 0 (R297). -/
def arm (s : State) : State :=
  if !observationOn s then offAccess s
  else
    let s := resetComparators s
    let s := setAcq { force := s.acq.force } (setBit (setBit s R.acqStatus 31 false) R.acqStatus 29 false)
    if bit s R.acqCtrl 31 ∧ armRefused s then setBit (setBit s R.acqStatus 27 true) R.trgStatus 31 false
    else
      let s := setBit (setBit s R.trgStatus 31 true) R.trgStatus 30 (preCount s == 0)
      let s := setReg (setBit s R.acqStatus 31 (bit s R.acqCtrl 31)) R.acqSegDone 0
      if capturing s then showOffsets s else s

/-- ARM (R293). -/
def execArm (s : State) : Out := .next (arm s)

/-- The ec of the last sample: the one whose milestone was passed last. -/
def lastSampleEc (s : State) : Nat := s.sched.ec.toNat - 1

/-- The capture is ended by disarm or by ACQ_CTRL.stop (R297, Table 11.7). -/
def stopCapture (s : State) : State :=
  if capturing s ∧ !s.acq.ending then
    if segmented s then endCapture (discardSegment s) else finishNormal (lastSampleEc s) s
  else s

/-- DISARM (Table 11.7). -/
def disarm (s : State) : State :=
  if !observationOn s then offAccess s
  else
    let s := stopCapture s
    setBit (setAcq { s.acq with post := none } s) R.trgStatus 31 false

/-- DISARM (R302). -/
def execDisarm (s : State) : Out := .next (disarm s)

/-- FORCE_TRIGGER (R291): TRG_CTRL.force counts at the next milestone. -/
def forceTrigger (s : State) : State := if observationOn s then setAcq { s.acq with force := true } s else offAccess s

/-- FORCE_TRIGGER (R291). -/
def execForceTrigger (s : State) : Out := .next (forceTrigger s)

/-- ACQ_STOP (R297). -/
def acqStop (s : State) : State := if observationOn s then stopCapture s else offAccess s

/-- ACQ_STOP (R297). -/
def execAcqStop (s : State) : Out := .next (acqStop s)

/-- SEGMENT_REARM (R299): comparator states stay. -/
def segmentRearm (s : State) : State := setAcq { s.acq with rearm := false } s

/-- SEGMENT_REARM (R299). -/
def execSegmentRearm (s : State) : Out := .next (segmentRearm s)

/-- A capture and the arm end without record at the entry into HOLD (Table 11.7). -/
def dropAcq (s : State) : State :=
  resetComparators (setAcq {} (setBit (setBit (setBit s R.trgStatus 31 false) R.acqStatus 31 false) R.acqStatus 25 false))

/-! ## The drain to DDR4 (R297, R298) -/

/-- CAPTURE_DRAIN (R221, R298): when the arbiter comes to the capture, a burst is written. -/
def captureDrain (s : State) : State :=
  let c := (dataPlace s).1
  if capturing s ∧ ddrOn s c ∧ ddrReady s c then
    if s.acq.fifo.isEmpty then drainBurst s else captureBurst c s
  else s

/-- CAPTURE_DRAIN (R298). -/
def execCaptureDrain (s : State) : Out := .next (captureDrain s)

/-- PAUSE_RESUME (R298): the device runs again by itself below 65,536 bytes, unless another cause holds it. -/
def pauseResume (s : State) : State := if fifoFill s < 65536 then endPause s else s

/-- PAUSE_RESUME (R298). -/
def execPauseResume (s : State) : Out := .next (pauseResume s)

/-! ## At the milestone (R291 to R299) -/

/-- The sample of this milestone, with the measured channel as evaluated (R294, R301). `found` is that evaluation. -/
def takeSample (e : Nat) (found : Evaluation) (s : State) : Sample :=
  { index := s.acq.count, ec := e, words := (selected s).map fun n => dword s.sched.probes n
    value := busValue s (bits s R.acqCfg 0 4), rising := found.rising, above := found.above }

/-- A sample of a running capture or segment is coded, or lost under policy 0 when it does not fit (R296, R298). -/
def captureSample (first : Bool) (x : Sample) (s : State) : State :=
  let gap := s.acq.lost
  let raw := first || gap.isSome || x.index % keyPeriod s == 0
  let units := (codeSample raw x.ec x.words s.acq.coder).1.length + (if gap.isSome then 1 else 0)
  if !pausePolicy s && !sampleFits x.words.length units s then
    let s := signal 236 0 (bumpBits s R.acqLost 0 32 1)
    setAcq { s.acq with lost := some (gap.getD x.ec), window := { s.acq.window with gap := true } } s
  else
    let s := match gap with
      | some e => setAcq { s.acq with lost := none } (pushMarker 4 e s)
      | none => s
    pushSample raw x (setAcq { s.acq with window := addToWindow x s.acq.window } s)

/-- A normal capture takes a sample: the start marker before the first, the trigger marker before that of the trigger. -/
def normalSample (x : Sample) (fired : Bool) (s : State) : State :=
  let s := if x.index = 0 then pushMarker 1 x.ec s else s
  let s := if fired then pushMarker 2 x.ec s else s
  captureSample (x.index == 0) x s

/-- A segment opens: start marker and the pre-trigger samples, the first of them raw (R299). -/
def openSegment (x : Sample) (s : State) : State :=
  let s := setAcq { s.acq with segment := some s.acq.made, coder := {}, window := {} } s
  let pre := s.acq.store
  let s := pushMarker 1 ((pre.map Sample.ec).headD x.ec) s
  pre.foldl (fun acc y =>
    pushSample (acc.acq.coder.last.isNone || y.index % keyPeriod acc == 0) y
      (setAcq { acc.acq with window := addToWindow y acc.acq.window } acc)) s

/-- The pre-trigger store keeps the last P samples (R299). -/
def keepSample (x : Sample) (s : State) : State :=
  let l := s.acq.store ++ [x]
  setAcq { s.acq with store := l.drop (l.length - preCount s) } s

/-- A segmented acquisition takes a sample. -/
def segmentSample (x : Sample) (fired : Bool) (s : State) : State :=
  let s := if fired then pushMarker 2 x.ec (openSegment x s) else s
  let s := if s.acq.segment.isSome then captureSample s.acq.coder.last.isNone x s else s
  keepSample x (checkRegion s)

/-- Whether the unit triggers in this ec (R291, R293): the channels and break channels that take part. -/
def triggerNow (s : State) (fires : BitVec 16) : Bool :=
  let orM := bits s R.trgMask 0 16
  let andM := bits s R.trgMask 16 16
  let brks := (List.range 16).any fun c => s.sched.breaks.getLsbD c && bits s R.trgBrkCfg (2 * c) 2 % 2 == 1
  trigArmed s && s.acq.post.isNone && !s.acq.rearm && decide (preCount s ≤ s.acq.count) &&
    (fires.toNat &&& orM != 0 || (andM != 0 && fires.toNat &&& andM == andM) || brks || s.acq.force)

/-- The unit triggers in ec `e` (R293). -/
def triggered (e : Nat) (fires : BitVec 16) (s : State) : State :=
  let brks := (List.range 16).any fun c => s.sched.breaks.getLsbD c && bits s R.trgBrkCfg (2 * c) 2 % 2 == 1
  let s := setBits s R.trgStatus 0 18 (fires.toNat + brks.toNat <<< 16 + s.acq.force.toNat <<< 17)
  let s := setReg (setReg s R.trgEcLo (BitVec.ofNat 32 e)) R.trgEcHi (BitVec.ofNat 32 (e / 2 ^ 32))
  let s := raiseCause 32 (setBit s R.trgStatus 29 true)
  traceTrigger 1 (traceEvent 5 (setAcq { s.acq with trigger := some (timeNs s, e), post := some (postCount s) } s))

/-- At a trigger in ec `e`, whose sample has been taken, the ring must hold every sample from e - P on from a raw one, else
pre_short is set (R297). -/
def judgePre (e : Nat) (s : State) : State :=
  if s.acq.heads.any fun h => decide (h.2 + preCount s ≤ e ∧ s.acq.made ≤ h.1 + regionUnits s) then s else setBit s R.acqStatus 28 true

/-- The post part ends in ec `e` (R293): freeze under freeze_act, and in normal mode the unit disarms. -/
def postEnds (e : Nat) (s : State) : State :=
  let s := setBit (setAcq { s.acq with post := none } s) R.trgStatus 28 true
  let s := if bit s R.trgCtrl 28 then freezeRequest 3 s else s
  let s := if segmented s then s else setBit s R.trgStatus 31 false
  if capturing s ∧ !s.acq.ending then (if segmented s then finishSegment e s else finishNormal e s) else s

/-- Break channels with action 2 or 3 freeze the device at this milestone, armed or not (R292). -/
def breakFreeze (s : State) : State :=
  if (List.range 16).any fun c => s.sched.breaks.getLsbD c && decide (2 ≤ bits s R.trgBrkCfg (2 * c) 2) then
    freezeRequest 4 s else s

/-- Policy 1: a fill above 196,608 bytes pauses the device (R298). -/
def checkPause (s : State) : State :=
  if capturing s ∧ pausePolicy s ∧ 196608 < fifoFill s then freezeRequest 8 (setBit s R.acqStatus 25 true) else s

/-- The unit's work at the milestone of ec `e`, after probe words and break channels have been sampled. -/
def observe (e : Nat) (s : State) : State :=
  if !observationOn s then s
  else
    let s := checkPause (breakFreeze s)
    let m := bits s R.acqCfg 0 4
    let found := if bit s (R.trgChCfg m) 31 then evaluation s m else ⟨false, false, false, false⟩
    let fires := (List.range 16).foldl (fun (acc : BitVec 16) c =>
      withBit acc c (bit s (R.trgChCfg c) 31 && (evaluation s c).fires)) 0
    let s := forUpTo 16 evaluateChannel s
    let waiting := s.acq.post
    let fired := triggerNow s fires
    let s := if fired then triggered e fires s else s
    let s := setAcq { s.acq with force := false } s
    let s := if capturing s ∧ !s.acq.ending then
      let x := takeSample e found s
      if segmented s then segmentSample x fired s
      else if fired then judgePre e (normalSample x fired s)
      else normalSample x fired s
      else s
    let s := if trigArmed s ∨ capturing s then setAcq { s.acq with count := s.acq.count + 1 } s else s
    let s := setBit s R.trgStatus 30 (trigArmed s && decide (preCount s ≤ s.acq.count))
    match waiting, s.acq.post with
    | some n, _ => if n ≤ 1 then postEnds e s else setAcq { s.acq with post := some (n - 1) } s
    | none, some 0 => postEnds e s
    | none, _ => s

end Sys2Proof.Machine
end

