-- ==== Sys2Proof/Machine/Crypto.lean ====
section
/-! DEFINITION. The standards that the manual names: SHA-256 and SHA-384 (FIPS 180-4), HMAC (FIPS 198-1), AES-256 (FIPS 197)
and the verification of ECDSA over P-384 (FIPS 186-4). PRESUMED from those standards (log entry 3). -/
namespace Sys2Proof.Machine

/-! ## SHA-2 -/

/-- A number as `n` bytes, most significant first. -/
def bytesOfBE (n v : Nat) : List Byte := (bytesLE n v).reverse

/-- The number whose bytes stand most significant first. -/
def ofBytesBE (bs : List Byte) : Nat := ofBytesLE bs.reverse

/-- The largest number whose `k`-th power is at most `x`, below 2^72. -/
def rootBelow (k x : Nat) : Nat :=
  (List.range 72).reverse.foldl (fun r i => if (r + 2 ^ i) ^ k ≤ x then r + 2 ^ i else r) 0

/-- The first 64 bits of the fraction of the `k`-th root of `p`. -/
def rootFraction (k p : Nat) : Nat := rootBelow k (p * 2 ^ (64 * k)) % 2 ^ 64

/-- The first 80 prime numbers. -/
def firstPrimes : List Nat :=
  [2, 3, 5, 7, 11, 13, 17, 19, 23, 29, 31, 37, 41, 43, 47, 53, 59, 61, 67, 71, 73, 79, 83, 89, 97, 101, 103, 107, 109, 113] ++
  [127, 131, 137, 139, 149, 151, 157, 163, 167, 173, 179, 181, 191, 193, 197, 199, 211, 223, 227, 229, 233, 239, 241, 251] ++
  [257, 263, 269, 271, 277, 281, 283, 293, 307, 311, 313, 317, 331, 337, 347, 349, 353, 359, 367, 373, 379, 383, 389, 397] ++
  [401, 409]

/-- What tells the members of the SHA-2 family apart: the word width, the round constants, and the rotations of the four sigma
functions; the last number of a small sigma is a shift. -/
structure Sha2 where
  width : Nat
  constants : List Nat
  bigA : List Nat
  bigE : List Nat
  smallA : List Nat
  smallB : List Nat

/-- The 32-bit and the 64-bit member. -/
def sha2Short : Sha2 :=
  { width := 32, constants := (firstPrimes.take 64).map fun p => rootFraction 3 p / 2 ^ 32
    bigA := [2, 13, 22], bigE := [6, 11, 25], smallA := [7, 18, 3], smallB := [17, 19, 10] }
def sha2Long : Sha2 :=
  { width := 64, constants := firstPrimes.map (rootFraction 3)
    bigA := [28, 34, 39], bigE := [14, 18, 41], smallA := [1, 8, 7], smallB := [19, 61, 6] }

/-- Rotation of a `w`-bit word to the right. -/
def rotateRight (w x n : Nat) : Nat := x >>> n ||| (x <<< (w - n) % 2 ^ w)

/-- The exclusive or of three rotations; in a small sigma the third is a shift. -/
def bigSigma (w : Nat) (ns : List Nat) (x : Nat) : Nat := (ns.map (rotateRight w x)).foldl (· ^^^ ·) 0
def smallSigma (w : Nat) (ns : List Nat) (x : Nat) : Nat :=
  ((ns.take 2).map (rotateRight w x)).foldl (· ^^^ ·) (x >>> ns.getD 2 0)

/-- The message schedule: `n` more words after those of `ws`, the newest first. -/
def shaSchedule (h : Sha2) : Nat → List Nat → List Nat
  | 0, ws => ws
  | n + 1, ws =>
    shaSchedule h n ((smallSigma h.width h.smallB (ws.getD 1 0) + ws.getD 6 0 + smallSigma h.width h.smallA (ws.getD 14 0) +
      ws.getD 15 0) % 2 ^ h.width :: ws)

/-- One round on the eight working words. -/
def shaRound (h : Sha2) (v : List Nat) (k w : Nat) : List Nat :=
  match v with
  | [a, b, c, d, e, f, g, x] =>
    let t1 := x + bigSigma h.width h.bigE e + ((e &&& f) ^^^ ((2 ^ h.width - 1 - e) &&& g)) + k + w
    let t2 := bigSigma h.width h.bigA a + ((a &&& b) ^^^ (a &&& c) ^^^ (b &&& c))
    [(t1 + t2) % 2 ^ h.width, a, b, c, (d + t1) % 2 ^ h.width, e, f, g]
  | _ => v

/-- The hash value after one block. -/
def shaBlock (h : Sha2) (v : List Nat) (block : List Byte) : List Nat :=
  let ws := (List.range 16).map fun i => ofBytesBE ((block.drop (i * (h.width / 8))).take (h.width / 8))
  let ws := (shaSchedule h (h.constants.length - 16) ws.reverse).reverse
  List.zipWith (fun a b => (a + b) % 2 ^ h.width) v ((h.constants.zip ws).foldl (fun acc x => shaRound h acc x.1 x.2) v)

/-- A message with its padding: a 1, zeros, and its length in bits as a double word. -/
def shaPad (h : Sha2) (m : List Byte) : List Byte :=
  let size := 2 * h.width
  let used := (m.length + 1 + h.width / 4) % size
  m ++ [0x80] ++ List.replicate ((size - used) % size) 0 ++ bytesOfBE (h.width / 4) (8 * m.length)

/-- The hash value of a padded message of `n` blocks. -/
def shaBlocks (h : Sha2) : Nat → List Nat → List Byte → List Nat
  | 0, v, _ => v
  | n + 1, v, bs => shaBlocks h n (shaBlock h v (bs.take (2 * h.width))) (bs.drop (2 * h.width))

/-- The hash of a message from initial words. -/
def shaHash (h : Sha2) (initial : List Nat) (m : List Byte) : List Byte :=
  let bs := shaPad h m
  (shaBlocks h (bs.length / (2 * h.width)) initial bs).flatMap (bytesOfBE (h.width / 8))

/-- SHA-256 and SHA-384 of a message, as numbers whose first byte is the most significant. -/
def sha256 (m : List Byte) : BitVec 256 :=
  BitVec.ofNat 256 (ofBytesBE (shaHash sha2Short ((firstPrimes.take 8).map fun p => rootFraction 2 p / 2 ^ 32) m))
def sha384 (m : List Byte) : BitVec 384 :=
  BitVec.ofNat 384 (ofBytesBE ((shaHash sha2Long (((firstPrimes.drop 8).take 8).map (rootFraction 2)) m).take 48))

/-- HMAC-SHA-256 of a message under a key. -/
def hmacSha256 (key message : List Byte) : BitVec 256 :=
  let k := if 64 < key.length then bytesOfBE 32 (sha256 key).toNat else key
  let k := k ++ List.replicate (64 - k.length) 0
  sha256 (k.map (· ^^^ 0x5C) ++ bytesOfBE 32 (sha256 (k.map (· ^^^ 0x36) ++ message)).toNat)

/-! ## AES-256 -/

/-- Twice a byte in the field of AES, and the product of two bytes. -/
def aesDouble (a : Nat) : Nat := if a < 128 then 2 * a else (2 * a) ^^^ 0x11B
def aesTimes (a b : Nat) : Nat :=
  ((List.range 8).foldl (fun (x : Nat × Nat) i => (if b.testBit i then x.1 ^^^ x.2 else x.1, aesDouble x.2)) (0, a)).1

/-- The inverse of a byte, its 254th power; 0 has 0. -/
def aesInverse (a : Nat) : Nat :=
  let square := fun x => aesTimes x x
  ((List.range 6).foldl (fun (x : Nat × Nat) _ => (aesTimes x.1 (square x.2), square x.2)) (square a, square a)).1

/-- The substitution of a byte. -/
def aesSub (a : Nat) : Nat :=
  let x := aesInverse a
  (List.range 5).foldl (fun acc n => acc ^^^ ((x <<< n ||| x >>> (8 - n)) % 256)) 0x63

/-- Exclusive or of byte lists. -/
def xorBytes (a b : List Nat) : List Nat := List.zipWith (· ^^^ ·) a b

/-- The words of the key schedule, the newest first: `n` more, the next of number `i`. -/
def aesExpand : Nat → Nat → List (List Nat) → List (List Nat)
  | 0, _, ws => ws
  | n + 1, i, ws =>
    let t := ws.headD []
    let t := if i % 8 = 0 then
        xorBytes ((t.drop 1 ++ t.take 1).map aesSub) [(List.range (i / 8 - 1)).foldl (fun acc _ => aesDouble acc) 1, 0, 0, 0]
      else if i % 8 = 4 then t.map aesSub
      else t
    aesExpand n (i + 1) (xorBytes (ws.getD 7 []) t :: ws)

/-- The 15 round keys. -/
def aesKeys (key : BitVec 256) : List (List Nat) :=
  let bs := (bytesOfBE 32 key.toNat).map BitVec.toNat
  let ws := (aesExpand 52 8 ((List.range 8).map fun i => (bs.drop (4 * i)).take 4).reverse).reverse
  (List.range 15).map fun i => ((ws.drop (4 * i)).take 4).flatten

/-- Rows of the state shifted: byte `r + 4c` comes from column `c + r`. -/
def aesShift (st : List Nat) : List Nat := (List.range 16).map fun i => st.getD ((i + 4 * (i % 4)) % 16) 0

/-- Columns of the state mixed. -/
def aesMix (st : List Nat) : List Nat :=
  (List.range 16).map fun i =>
    let x := fun k => st.getD (i / 4 * 4 + (i + k) % 4) 0
    aesTimes 2 (x 0) ^^^ aesTimes 3 (x 1) ^^^ x 2 ^^^ x 3

/-- AES-256 of one block under a key. -/
def aes256 (key : BitVec 256) (block : BitVec 128) : BitVec 128 :=
  let ks := aesKeys key
  let st := xorBytes ((bytesOfBE 16 block.toNat).map BitVec.toNat) (ks.headD [])
  let st := ((ks.drop 1).take 13).foldl (fun st k => xorBytes (aesMix (aesShift (st.map aesSub))) k) st
  let st := xorBytes (aesShift (st.map aesSub)) (ks.getD 14 [])
  BitVec.ofNat 128 (ofBytesBE (st.map (BitVec.ofNat 8)))

/-! ## ECDSA over P-384 -/

/-- The field prime, the order of the base point, and the base point. -/
def p384Prime : Nat := 2 ^ 384 - 2 ^ 128 - 2 ^ 96 + 2 ^ 32 - 1
def p384Order : Nat := 0xFFFFFFFFFFFFFFFFFFFFFFFFFFFFFFFFFFFFFFFFFFFFFFFFC7634D81F4372DDF581A0DB248B0A77AECEC196ACCC52973
def p384Base : Nat × Nat := (0xAA87CA22BE8B05378EB1C71EF320AD746E1D3B628BA79B9859F741E082542A385502F25DBF55296C3A545E3872760AB7,
  0x3617DE4A96262C6F5D9E98BF9292DC29F8F41DBD289A147CE9DA3113B5F0B8C00A60B1CE1D7E819D7A431D7C90EA0E5F)

/-- A power modulo `m`, by the low `n` bits of the exponent. -/
def powMod (m : Nat) : Nat → Nat → Nat → Nat
  | 0, _, _ => 1
  | n + 1, b, e => (if e % 2 = 1 then b else 1) * powMod m n (b * b % m) (e / 2) % m

/-- The inverse modulo a prime below 2^384. -/
def inverseMod (m a : Nat) : Nat := powMod m 384 (a % m) (m - 2)

/-- The sum of two points of the curve, whose coefficient a is −3; `none` is the point at infinity. -/
def p384Add : Option (Nat × Nat) → Option (Nat × Nat) → Option (Nat × Nat)
  | none, q => q
  | p, none => p
  | some (x1, y1), some (x2, y2) =>
    let m := p384Prime
    if x1 = x2 ∧ (y1 + y2) % m = 0 then none
    else
      let slope := if x1 = x2 then (3 * x1 * x1 + (m - 3)) * inverseMod m (2 * y1) % m
        else (y2 + m - y1) * inverseMod m (x2 + m - x1) % m
      let x3 := (slope * slope + 2 * m - x1 - x2) % m
      some (x3, (slope * (x1 + m - x3) + m - y1) % m)

/-- A multiple of a point, by the low `n` bits of the factor. -/
def p384Times : Nat → Nat → Option (Nat × Nat) → Option (Nat × Nat)
  | 0, _, _ => none
  | n + 1, k, p => p384Add (if k % 2 = 1 then p else none) (p384Times n (k / 2) (p384Add p p))

/-- An ECDSA signature, r then s, of a message holds under a public key, x then y; each number has 48 bytes, the most
significant first. That the key has this byte order is PRESUMED (log entry 3). -/
def ecdsaOk (key message signature : List Byte) : Bool :=
  let n := p384Order
  let r := ofBytesBE (signature.take 48)
  let t := ofBytesBE ((signature.drop 48).take 48)
  let w := inverseMod n t
  let q := (ofBytesBE (key.take 48), ofBytesBE ((key.drop 48).take 48))
  let sum := p384Add (p384Times 384 ((sha384 message).toNat * w % n) (some p384Base)) (p384Times 384 (r * w % n) (some q))
  decide (1 ≤ r) && decide (r < n) && decide (1 ≤ t) && decide (t < n) &&
    match sum with
    | some p => p.1 % n == r
    | none => false

end Sys2Proof.Machine
end

