-- ==== Sys2Proof/Machine/Image.lean ====
section
/-! DEFINITION. The Nelzithen image: header, section table, record sections, decryption, and the checks before writing
(R249 to R256, R262, Table 10.8). -/
namespace Sys2Proof.Machine

/-! ## Layout (Tables 10.1 to 10.3) -/

/-- Bytes [o, o + n) of a stream. -/
def bytesAt (d : List Byte) (o n : Nat) : List Byte := (d.drop o).take n

/-- The little-endian field of `n` bytes at offset `o`. -/
def fieldAt (d : List Byte) (o n : Nat) : Nat := ofBytesLE (bytesAt d o n)

/-- A section descriptor (Table 10.3). -/
structure Descriptor where
  type : Nat
  flags : Nat
  ordinal : Nat
  reach : Nat
  reserved : Nat
  offset : Nat
  length : Nat
  nonce : List Byte
  hash : List Byte
  deriving DecidableEq, Repr

/-- Fields of the header (Table 10.1). -/
def imageContract (d : List Byte) : Nat := fieldAt d 0x00C 1
def imageLength (d : List Byte) : Nat := fieldAt d 0x020 8
def sectionCount (d : List Byte) : Nat := fieldAt d 0x028 4
def reloadImage (d : List Byte) : Bool := fieldAt d 0x00E 2 % 2 == 1

/-- Fields of directory entry `k` (Table 10.2). -/
def dirReaches (d : List Byte) (k : Nat) : Nat := fieldAt d (0x040 + 16 * k) 2
def dirUnits (d : List Byte) (k : Nat) : Nat := fieldAt d (0x042 + 16 * k) 1
def dirQuads (d : List Byte) (k : Nat) : Nat := fieldAt d (0x044 + 16 * k) 4
def dirFirst (d : List Byte) (k : Nat) : Nat := fieldAt d (0x048 + 16 * k) 4
def dirCount (d : List Byte) (k : Nat) : Nat := fieldAt d (0x04C + 16 * k) 4

/-- Descriptor `i` of a stream. -/
def descriptorAt (d : List Byte) (i : Nat) : Descriptor :=
  let o := 4096 + 64 * i
  { type := fieldAt d o 1, flags := fieldAt d (o + 1) 1, ordinal := fieldAt d (o + 2) 2, reach := fieldAt d (o + 4) 2
    reserved := fieldAt d (o + 6) 2, offset := fieldAt d (o + 8) 8, length := fieldAt d (o + 16) 4
    nonce := bytesAt d (o + 20) 12, hash := bytesAt d (o + 32) 32 }

/-- The section table. -/
def imageTable (d : List Byte) : List Descriptor := (List.range (sectionCount d)).map (descriptorAt d)

/-- Header and table have arrived. -/
def headerHere (d : List Byte) : Bool := decide (4096 ≤ d.length)
def tableHere (d : List Byte) : Bool := headerHere d && decide (4096 + 64 * sectionCount d ≤ d.length)

/-- The device's own ordinal (GLB_DEVICE_ORDINAL). -/
def ownOrdinal (s : State) : Nat := bits s R.glbDeviceOrdinal 0 7

/-- Bytes that are all 0. -/
def allZero (bs : List Byte) : Bool := bs.all (· == 0)

/-! ## Checks of header and table (Table 10.8) -/

/-- The header keeps Tables 10.1 and 10.2, but for the device type, the steppings and the contract (R249). -/
def headerGood (d : List Byte) : Bool :=
  fieldAt d 0 4 == 0x4E4C5A31 && fieldAt d 4 2 == 1 && decide (1 ≤ fieldAt d 6 2 ∧ fieldAt d 6 2 ≤ 128) &&
    decide (fieldAt d 0x00E 2 < 2) && imageLength d % 64 == 0 &&
    decide (1 ≤ sectionCount d ∧ sectionCount d ≤ 16384) && allZero (bytesAt d 0x02C 20) && allZero (bytesAt d 0x840 1888) &&
    (List.range 128).all fun k => decide (dirUnits d k < 32) && fieldAt d (0x043 + 16 * k) 1 == 0 && decide (dirQuads d k < 2 ^ 20)

/-- LD_SYSTEM_ID is all 0 or equals the image's system_id. -/
def systemGood (s : State) (d : List Byte) : Bool :=
  let ids := (List.range 4).map fun i => (reg s (R.ldSystemId i)).toNat
  ids.all (· == 0) || (List.range 4).all fun i => fieldAt d (0x010 + 4 * i) 4 == ids.getD i 0

/-- Revision and lowest revision accepted (R8, R122): A1 accepts 2, B0 accepts 2 and 3. -/
def contractMax (s : State) : Nat := if s.die.b0 then 3 else 2

/-- Table 13.9 allows loads in PROVISIONED and DEPLOYED; in every other state the refusal carries KEY_MISSING. -/
def loadsAllowed (s : State) : Bool := s.die.lifeCycle == 2 || s.die.lifeCycle == 3

/-- The checks of Table 10.8 that need the header only; 0 when it passes. -/
def headerCode (s : State) (reload : Bool) (d : List Byte) : Nat :=
  if !headerGood d || (!reload && reloadImage d) then 0x05
  else if fieldAt d 8 4 ≠ 0x4B5A7200 ∨ fieldAt d 0x00D 1 / (if s.die.b0 then 2 else 1) % 2 ≠ 1 then 0x03
  else if contractMax s < imageContract d then 0x01
  else if imageContract d < 2 then 0x02
  else if !systemGood s d then 0x04
  else if (s.die.keys.getD 3 none).isNone || !loadsAllowed s then 0x0A
  else 0

/-- The signature over header and table holds under the key of slot 4 (R252). -/
def signatureGood (s : State) (d : List Byte) : Bool :=
  match s.die.keys.getD 4 none with
  | some key => ecdsaOk key (bytesAt d 0 0xFA0 ++ bytesAt d 4096 (64 * sectionCount d)) (bytesAt d 0xFA0 96)
  | none => false

/-- A section type is a reach section (Table 10.4). -/
def reachType (t : Nat) : Bool := [0, 1, 3, 4, 5, 7].contains t

/-- Encrypted sections. -/
def cipherType (t : Nat) : Bool := decide (t < 2)

/-- A descriptor by itself keeps Tables 10.3 and 10.4 and R251. -/
def descriptorGood (d : List Byte) (x : Descriptor) : Bool :=
  decide (x.type ≤ 9) && x.flags == (if cipherType x.type then 1 else 0) && x.reserved == 0 && decide (x.ordinal < 128) &&
    (cipherType x.type || allZero x.nonce) && x.offset % 64 == 0 && decide (x.offset + x.length ≤ imageLength d) &&
    (if reachType x.type then
      (List.range 16).any fun r => x.reach == 2 ^ r && dirReaches d x.ordinal / 2 ^ r % 2 == 1
    else x.reach == 0)

/-- Sections stand in ascending order from the end of the table on, and none overlaps the next. -/
def orderGood : Nat → List Descriptor → Bool
  | _, [] => true
  | e, x :: rest => decide (e ≤ x.offset) && orderGood (x.offset + x.length) rest

/-- Number of an ordinal's sections of a type, for a reach mask. -/
def countOf (xs : List Descriptor) (t reach : Nat) : Nat := (xs.filter fun x => x.type == t && x.reach == reach).length

/-- The kinds of one device's sections (R250, Table 10.4); a reload image carries LEGS and the reach's six only (R275). -/
def kindsGood (reload : Bool) (d : List Byte) (k : Nat) (xs : List Descriptor) : Bool :=
  countOf xs 2 0 == 1 && [6, 8, 9].all (fun t => decide (countOf xs t 0 ≤ (if reload then 0 else 1))) &&
    (List.range 16).all fun r => dirReaches d k / 2 ^ r % 2 == 0 ||
      [0, 1, 3, 4, 5, 7].all fun t => countOf xs t (2 ^ r) == 1

/-- Place of a section among its device's: LINKS and BANKS first, INSTR and DICT last (R251). -/
def sectionRank (t : Nat) : Nat := if t = 5 ∨ t = 6 then 0 else if t < 2 then 2 else 1

/-- The table passes R251 and R250. -/
def tableGood (reload : Bool) (d : List Byte) : Bool :=
  let t := imageTable d
  t.all (descriptorGood d) && orderGood (4096 + 64 * sectionCount d) t &&
    (List.range 128).all fun k =>
      let own := t.filter fun x => x.ordinal == k
      ((t.zipIdx).all fun x => (x.1.ordinal == k) == decide (dirFirst d k ≤ x.2 ∧ x.2 < dirFirst d k + dirCount d k)) &&
        own.length == dirCount d k &&
        (dirCount d k == 0 || kindsGood reload d k own) &&
        (own.map fun x => sectionRank x.type).Pairwise (· ≤ ·) &&
        decide (((own.filter fun x => sectionRank x.type == 0).map Descriptor.length).sum ≤ 262144)

/-- The checks of Table 10.8 that need the table; 0 when it passes. -/
def tableCode (s : State) (reload : Bool) (d : List Byte) : Nat :=
  let k := ownOrdinal s
  if !signatureGood s d then 0x06
  else if !tableGood reload d then 0x07
  else if fieldAt d 6 2 ≤ k ∨ dirCount d k = 0 then 0x08
  else 0

/-- The device's own descriptors with their indices, rising. -/
def ownSections (s : State) (d : List Byte) : List (Nat × Descriptor) :=
  (List.range (dirCount d (ownOrdinal s))).map fun j =>
    (dirFirst d (ownOrdinal s) + j, descriptorAt d (dirFirst d (ownOrdinal s) + j))

/-! ## Record sections (R256, Tables 10.5 and 10.6) -/

/-- The records of a section: key and value. -/
def recordsOf : List Byte → List (Word × Word)
  | b0 :: b1 :: b2 :: b3 :: b4 :: b5 :: b6 :: b7 :: rest =>
    (BitVec.ofNat 32 (ofBytesLE [b0, b1, b2, b3]), BitVec.ofNat 32 (ofBytesLE [b4, b5, b6, b7])) :: recordsOf rest
  | _ => []

/-- Base of the register array that an offset belongs to, and its indices. -/
def regFamily (a : Nat) : Option (Nat × List Nat) := (regAt a).map fun x => (x.1.base, x.2)

/-- Register arrays that a LEGS, LINKS or ROUTES section writes, and those of BANKS by how their index names the reach. -/
def legsRegs : List Nat :=
  [R.glbSchedDepth, R.glbLeg 0, R.glbWheelCfg 0, R.glbWheelPat 0 0, R.glbMsLinks, R.glbMsTokenTimeout]
def linksRegs : List Nat := [R.cwVc0Map 0 0, R.cwLinkTimeout 0]
def routesRegs : List Nat := [R.cluArrEntry 0 0, R.cluObufCfg 0 0, R.cluSwellStep 0 0, R.cluSwellIn 0 0]
def bankRegs : List Nat := [R.bankCfg 0, R.bankOwner 0]
def bankCluRegs : List Nat := [R.cluLaneCfg 0 0, R.cluQCfg 0 0, R.cluWmCfg 0 0, R.cluWmTimeout 0]
def ddrRegs : List Nat := [R.ddrRegionBase 0 0, R.ddrRegionSize 0 0]
def releaseRegs : List Nat := [R.ldRelCfg, R.ldBwCfg 0, R.ldBwConstLo 0, R.ldBwConstHi 0]

/-- A register record is one that Table 10.5 lets a section of this type and reach write; `units` is the directory's. -/
def recordAllowed (type reach units a : Nat) : Bool :=
  if type = 8 then decide (0x700000 ≤ a ∧ a < 0x780000 ∧ a % 4 = 0)
  else match regFamily a with
    | none => false
    | some (base, ix) =>
      let i := ix.headD 0
      match type with
      | 2 => legsRegs.contains base
      | 6 => linksRegs.contains base
      | 3 => routesRegs.contains base && i / 8 == reach
      | 5 => (bankRegs.contains base && i / 16 == reach) || (bankCluRegs.contains base && i / 8 == reach) ||
          (ddrRegs.contains base && units / 2 ^ i % 2 == 1)
      | 9 => releaseRegs.contains base
      | _ => false

/-- A special record keeps Table 10.6 (R118): link deadlines of a direction need contract 3. -/
def specialAllowed (type reach contract : Nat) (k v : Word) : Bool :=
  match type with
  | 6 => bitsOf k 13 18 == 0 && bitsOf k 2 6 == 0 && decide (bitsOf k 8 5 < 20) && decide (bitsOf k 0 2 < 3) &&
      (bitsOf k 0 2 == 0 || decide (3 ≤ contract)) && bitsOf v 11 21 == 0
  | 3 => bitsOf k 24 7 == 0 && bitsOf k 0 8 == 0 && bitsOf k 16 8 / 8 == reach && bitsOf v 24 6 == 0 && bitsOf v 0 8 == 0
  | 4 => bitsOf k 24 7 == 0 && bitsOf k 1 7 == 0 && decide (bitsOf k 16 8 < 136) && bitsOf v 10 22 == 0
  | _ => false

/-- A record that Table 10.5 and Table 10.6 allow. -/
def recordGood (type reach units contract : Nat) (x : Word × Word) : Bool :=
  if x.1.getLsbD 31 then specialAllowed type reach contract x.1 x.2 else recordAllowed type reach units x.1.toNat

/-- The reach that a reach mask names. -/
def reachOfMask (m : Nat) : Nat := ((List.range 16).find? fun r => m == 2 ^ r).getD 0

/-! ## Checks on LINKS and BANKS (R6, R119, R204, R205, R214) -/

/-- Register records of a LINKS or BANKS section that name a register of such a section, of whichever reach or channel: that a
record names one that its section may not write is found when it is written (R256). -/
def namedRecords (type : Nat) (bs : List Byte) : List (Nat × Word) :=
  (recordsOf bs).filterMap fun y =>
    if y.1.getLsbD 31 then none
    else match regFamily y.1.toNat with
      | some (base, _) =>
        if (if type = 5 then bankRegs ++ bankCluRegs ++ ddrRegs else linksRegs).contains base then some (y.1.toNat, y.2) else none
      | none => none

/-- Records of the device's staged sections of a type, as register offset and value. -/
def stagedRecords (s : State) (d : List Byte) (bytes : Nat → List Byte) (type : Nat) : List (Nat × Word) :=
  (ownSections s d).flatMap fun x => if x.2.type = type then namedRecords type (bytes x.1) else []

/-- The value that records give a register last. -/
def lastValue (rs : List (Nat × Word)) (a : Nat) : Option Word := ((rs.filter fun x => x.1 == a).getLast?).map (·.2)

/-- Enabled lanes that BANKS records give, each record for itself (R205): cluster, bank, port B. -/
def stagedLanes (rs : List (Nat × Word)) : List (Nat × Nat × Bool) :=
  rs.filterMap fun x => match regFamily x.1 with
    | some (base, n :: _) =>
      if base = R.cluLaneCfg 0 0 ∧ x.2.getLsbD 31 then some (n, bitsOf x.2 16 8, x.2.getLsbD 12) else none
    | _ => none

/-- Banks that BANKS records use (R204). -/
def stagedBanks (rs : List (Nat × Word)) : List Nat :=
  (rs.filterMap fun x => match regFamily x.1 with
    | some (base, b :: _) => if bankRegs.contains base then some b else none
    | _ => none) ++ (stagedLanes rs).map fun x => x.2.1

/-- The owner of a bank's port after the BANKS records, from the reset value of BANK_OWNER (R205, R429). -/
def stagedOwner (rs : List (Nat × Word)) (b : Nat) (port : Bool) : Nat :=
  bitsOf ((lastValue rs (R.bankOwner b)).getD (resetWord (R.bankOwner b))) (if port then 16 else 0) 8

/-- Every BANK_OWNER record passes R195, and every enabled lane owns its port (R205). -/
def banksMatch (rs : List (Nat × Word)) : Bool :=
  (rs.all fun x => match regFamily x.1 with
    | some (base, b :: _) => base != R.bankOwner 0 || !ownerRefused b (bitsOf x.2 0 8) (bitsOf x.2 16 8)
    | _ => true) &&
  (stagedLanes rs).all fun x =>
    x.2.1 / 16 == x.1 / 8 && (!x.2.2 || dualPort x.2.1) && stagedOwner rs x.2.1 x.2.2 == x.1

/-- Every reach, channel, quad and bank that the image needs is present, and Harbour if it is used (R6, R204). -/
def unitsHere (s : State) (d : List Byte) (rs : List (Nat × Word)) : Bool :=
  let k := ownOrdinal s
  ((List.range 16).all fun r => dirReaches d k / 2 ^ r % 2 == 0 || reachPresent s r) &&
    ((List.range 4).all fun c => dirUnits d k / 2 ^ c % 2 == 0 || ddrPresent s c) &&
    (dirUnits d k / 16 % 2 == 0 || harbourPresent s) &&
    ((List.range 20).all fun q => dirQuads d k / 2 ^ q % 2 == 0 || quadPresent s q) &&
    (stagedBanks rs).all fun b => bankPresent s b

/-- Channels that region records of BANKS name. -/
def stagedChannels (rs : List (Nat × Word)) : List Nat :=
  rs.filterMap fun x => match regFamily x.1 with
    | some (base, c :: _) => if ddrRegs.contains base then some c else none
    | _ => none

/-- The special records of the device's LINKS section. -/
def linkRecords (s : State) (d : List Byte) (bytes : Nat → List Byte) : List (Word × Word) :=
  (ownSections s d).flatMap fun x =>
    if x.2.type = 6 then
      (recordsOf (bytes x.1)).filter fun y => y.1.getLsbD 31 && specialAllowed 6 0 (imageContract d) y.1 y.2
    else []

/-- Links that the LINKS section names. -/
def namedLinks (s : State) (d : List Byte) (bytes : Nat → List Byte) : List Nat :=
  (linkRecords s d bytes).map (fun y => bitsOf y.1 8 5) ++
    (stagedRecords s d bytes 6).filterMap fun x => (regFamily x.1).map fun y => y.2.headD 0

/-- The deadline that governs a direction of a link: that direction's record, else direction 0 (R118). Of two records of
one direction, which R118 refuses when they are written, the first is taken here: DESIGN CHOICE, unsafe (log entry 83). -/
def governing (rs : List (Word × Word)) (l dir : Nat) : Option Nat :=
  let of_ := fun (k : Nat) => ((rs.find? fun y => bitsOf y.1 8 5 == l && bitsOf y.1 0 2 == k)).map fun y => bitsOf y.2 0 11
  (of_ dir).or (of_ 0)

/-- The deadline of a link's receiving direction is below D_req as measured (R119). A link that is up and not yet measured is
judged by the D_req measured last, 0 after reset: DESIGN CHOICE, unsafe (log entry 69). A link that the section names
without a record that governs its receiving direction passes: DESIGN CHOICE, unsafe (log entry 83). -/
def deadlineTooShort (s : State) (rs : List (Word × Word)) (l : Nat) : Bool :=
  match governing rs l 1 with
  | some dl => decide (dl < (link s l).dReq)
  | none => false

/-- The checks of Table 10.8 that need LINKS and BANKS; 0 when they pass. -/
def stagedCode (s : State) (d : List Byte) (bytes : Nat → List Byte) : Nat :=
  let rs := stagedRecords s d bytes 5
  let ls := namedLinks s d bytes
  if !unitsHere s d rs then 0x09
  else if ls.any fun l => !linkUp s l then 0x0B
  else if ls.any fun l => deadlineTooShort s (linkRecords s d bytes) l then 0x0C
  else if (stagedChannels rs).any fun c => !ddrReady s c then 0x0D
  else if !banksMatch rs then 0x0E
  else 0

/-! ## Decryption (R254) -/

/-- The section key of a descriptor. -/
def sectionKey (s : State) (d : List Byte) (index : Nat) : BitVec 256 :=
  let m := ([0x4E, 0x4C, 0x5A, 0x2D, 0x53, 0x45, 0x43] : List Byte) ++ bytesAt d 0x010 16 ++ bytesLE 2 (ownOrdinal s) ++
    bytesLE 4 index
  hmacSha256 ((s.die.keys.getD 3 none).getD []) m

/-- Key stream of counter block `j`. -/
def keyStream (key : BitVec 256) (nonce : List Byte) (j : Nat) : List Byte :=
  bytesOfBE 16 (aes256 key (BitVec.ofNat 128 (ofBytesLE (nonce ++ bytesOfBE 4 j).reverse))).toNat

/-- CTR decryption of bytes from block `j` on; `fuel` bounds the blocks. -/
def ctr (key : BitVec 256) (nonce : List Byte) : Nat → Nat → List Byte → List Byte
  | 0, _, _ => []
  | fuel + 1, j, bs =>
    if bs.isEmpty then []
    else (List.zipWith (fun (a b : Byte) => a ^^^ b) (bs.take 16) (keyStream key nonce j)) ++ ctr key nonce fuel (j + 1) (bs.drop 16)

/-- The plain bytes of a section. -/
def plainBytes (s : State) (d : List Byte) (index : Nat) (x : Descriptor) (bs : List Byte) : List Byte :=
  if x.flags = 1 then ctr (sectionKey s d index) x.nonce (bs.length / 16 + 1) 0 bs else bs

/-- The hash of a section (Table 10.3): SHA-256, its first byte the most significant. -/
def hashGood (x : Descriptor) (bs : List Byte) : Bool := bytesOfBE 32 (sha256 bs).toNat == x.hash

end Sys2Proof.Machine
end

