-- ==== Sys2Proof/Machine/PostCheck.lean ====
section
/-! DEFINITION. The checks after writing (R60, R68, R87 to R89, R100, R113, R114, R165, R411, R425; Table 10.8), the expansion
of logical routes (R139) and the slot planner (R147). -/
namespace Sys2Proof.Machine

/-! ## Leg table (R87, R88) -/

/-- The number of valid entries of the leg table. -/
def validLegs (s : State) : Nat := ((List.range 32).filter fun k => bit s (R.glbLeg k) 31).length

/-- The depth is 1 to 1,024 (R88). -/
def depthGood (s : State) : Bool := decide (1 ≤ depth s ∧ depth s ≤ 1024)

/-- The valid entries form one run from leg 0 on, that starts at step 0, rises strictly and stays below the depth
(R87). -/
def legsGood (s : State) : Bool :=
  let k := validLegs s
  decide (1 ≤ k) && (List.range k).all (fun j => bit s (R.glbLeg j) 31) && bits s (R.glbLeg 0) 0 10 == 0 &&
    (List.range k).all fun j => decide (bits s (R.glbLeg j) 0 10 < depth s) &&
      (j == 0 || decide (bits s (R.glbLeg (j - 1)) 0 10 < bits s (R.glbLeg j) 0 10))

/-- Clusters of a list of reaches. -/
def clustersOf (rs : List Nat) : List Nat := rs.flatMap fun r => (List.range 8).map fun k => 8 * r + k

/-- Enabled outbound buffers of a cluster: number, launch step, route. -/
def buffersOf (s : State) (n : Nat) : List (Nat × Nat × Nat) :=
  (listed s (R.cluObufCfg n 0) 32).filterMap fun x =>
    if x.2.getLsbD 31 then some (x.1, bitsOf x.2 16 10, bitsOf x.2 8 8) else none

/-- Deadline and launch steps of the clusters lie below the depth (R88). -/
def stepsGood (s : State) (ns : List Nat) : Bool :=
  ns.all fun n => (arrivals s n).all (fun x => decide (deadlineOf x.2 < depth s)) &&
    (buffersOf s n).all fun x => decide (x.2.1 < depth s)

/-! ## Instruction words (R60, R68, R100) -/

/-- Instruction words of a cluster other than 0: BP, step, word. -/
def wordsOf (s : State) (n : Nat) : List (Nat × Nat × Insn) :=
  (clu s n).imem.map fun x => (x.1 / 1024, x.1 % 1024, x.2)

/-- Every opcode of the clusters is one of Table 3.2 (R60). -/
def opcodesGood (s : State) (ns : List Nat) : Bool := ns.all fun n => (wordsOf s n).all fun x => (opOf (opcode x.2.2)).isSome

/-- A cluster holds an HSEND. -/
def sendsToHarbour (s : State) (ns : List Nat) : Bool := ns.any fun n => (wordsOf s n).any fun x => insnOp x.2.2 == .hsend

/-- Table 3.2, column "Anchors its leg". -/
def anchoring (i : Insn) : Bool :=
  match insnOp i with
  | .mrd | .qget | .wset | .wwait => true
  | .hsend | .mwd | .qput => ctlCommit i
  | _ => false

/-- An operand of class MEM or Q, or SYS other than 0x000 and 0x001, anchors the leg that reads it (R68). -/
def anchoringOperand (x : Nat × Nat) : Bool := x.1 == 4 || x.1 == 5 || (x.1 == 6 && decide (2 ≤ x.2))

/-- What anchors a leg in a cluster: the steps of anchoring words and of buffers that leave the device (R68). -/
def anchorSteps (s : State) (n : Nat) : List Nat :=
  ((wordsOf s n).filterMap fun x =>
    if anchoring x.2.2 || (operandsOf x.2.2).any anchoringOperand then some x.2.1 else none) ++
  (buffersOf s n).filterMap fun x => if 128 ≤ routeDst s n x.2.2 then some x.2.1 else none

/-- Effective anchor bits: any cluster of the device counts, in whatever state its reach is (R68). -/
def anchorBits (s : State) : BitVec 32 :=
  let own := (List.range 32).foldl (fun (acc : BitVec 32) k =>
    withBit acc k (bit s (R.glbLeg k) 31 && bit s (R.glbLeg k) 30)) 0
  ((List.range 128).flatMap (anchorSteps s)).foldl (fun acc t => match legOf s t with
    | some k => withBit acc k true
    | none => acc) own

/-- Table 4.1 for entry `t` of BP `b`, read in leg `k`: NOP, or sw = 1 and bit `k` of CLU_SWELL_STEP[t]. -/
def reports (s : State) (n k b t : Nat) : Bool :=
  let i := insnAt (clu s n) b t
  insnOp i == .nop || (swBit i && bit s (R.cluSwellStep n t) k)

/-- Step `t` belongs to leg `k`. -/
def inLegSteps (s : State) (k t : Nat) : Bool := decide (legStart s k ≤ t ∧ t < legStart s (k + 1))

/-- Table 4.1: the condition for an operand of the word of BP `b` at step `st` in leg `k`. -/
def operandCovered (s : State) (n k b st : Nat) (x : Nat × Nat) : Bool :=
  match x.1 with
  | 0 => inLegSteps s k x.2 || reports s n k b x.2
  | 1 => reports s n k b x.2
  | 3 => (arrivals s n).all fun e => slotOf e.2 != x.2 / 64 || bit s (R.cluSwellIn n e.1) k
  | 7 =>
    let t := (st + 1024 - 1 - x.2 % 256) % 1024
    inLegSteps s k t || reports s n k (4 * (b / 4) + x.2 / 256) t
  | _ => true

/-- Every operand read in a leg without effective anchor is covered (R100). -/
def swellGood (s : State) (anchors : BitVec 32) (ns : List Nat) : Bool :=
  ns.all fun n => (wordsOf s n).all fun x =>
    match legOf s x.2.1 with
    | none => true
    | some k => anchors.getLsbD k || (operandsOf x.2.2).all fun o => operandCovered s n k x.1 x.2.1 o

/-! ## Arrivals (R113, R114, R165, R411, R425) -/

/-- L of R113. -/
def levelTwo (d : Nat) : Nat := 8 + 3 * d

/-- Every enabled outbound buffer: cluster, launch step, destination, tag, and whether the route is usable. -/
def enabledBuffers (s : State) : List (Nat × Nat × Nat × Nat × Bool) :=
  (List.range 128).flatMap fun n => (buffersOf s n).map fun x =>
    (n, x.2.1, routeDst s n x.2.2, routeTag s n x.2.2, bufferRouteOk s n x.2.2)

/-- The check covers a buffer: every one, or with a reach given, one that launches from it or into it (R275). -/
def covered (only : Option Nat) (x : Nat × Nat × Nat × Nat × Bool) : Bool :=
  match only with
  | none => true
  | some r => x.1 / 8 == r || (x.2.2.2.2 && decide (x.2.2.1 < 128) && x.2.2.1 / 8 == r)

/-- A buffer's deadline is below launch_step + L (R113). -/
def bufferShort (s : State) (x : Nat × Nat × Nat × Nat × Bool) : Bool :=
  x.2.2.2.2 && decide (x.2.2.1 < 128) &&
    decide (deadlineOf (reg s (R.cluArrEntry x.2.2.1 x.2.2.2.1)) < x.2.1 + levelTwo (distance x.1 x.2.2.1))

/-- The entry or the map entry that a buffer names is right (R113, R165, R411, R425). -/
def bufferGood (s : State) (x : Nat × Nat × Nat × Nat × Bool) : Bool :=
  let dst := x.2.2.1
  let tag := x.2.2.2.1
  x.2.2.2.2 &&
    if dst < 128 then
      let e := reg s (R.cluArrEntry dst tag)
      tag != 255 && e.getLsbD 31 && !extOf e && legOf s x.2.1 == some (srcOf e) && decide (deadlineOf e < depth s)
    else bit s (R.cwVc0Map (dst - 128) tag) 31

/-- Named places: destination and tag. -/
def namedPlaces (bs : List (Nat × Nat × Nat × Nat × Bool)) : List (Nat × Nat) :=
  bs.filterMap fun x => if x.2.2.2.2 then some (x.2.2.1, x.2.2.2.1) else none

/-- Valid entries with ext = 0 are named, and a valid entry 255 has ext = 1 (R114, R411). -/
def entriesGood (s : State) (ns : List Nat) (places : List (Nat × Nat)) : Bool :=
  ns.all fun n => (arrivals s n).all fun x => extOf x.2 || (x.1 != 255 && places.contains (n, x.1))

/-- No valid CW_VC0_MAP entry, or none that names a cluster of the reach, names entry 255 (R411). -/
def mapsGood (s : State) (only : Option Nat) : Bool :=
  (List.range 20).all fun l => (listed s (R.cwVc0Map l 0) 256).all fun x =>
    !x.2.getLsbD 31 || bitsOf x.2 0 8 != 255 || match only with
      | none => false
      | some r => bitsOf x.2 16 7 / 8 != r

/-- Every enabled outbound queue of the device names a valid VC1 entry, on a load as on a reload (R425). -/
def queuesGood (s : State) : Bool :=
  (List.range 128).all fun n => (List.range 16).all fun q => !outboundQueue s n q || queueRouteOk s n (queueRoute s n q)

/-- The checks of R113, R114, R165, R411 and R425 over the covered buffers, the entries of the clusters `all` and every
queue: 0 when they pass. A place that a covered buffer names is named by no other enabled buffer of
the device, and every entry with ext = 0 by one, whatever reach it launches from (R114). -/
def arrivalCode (s : State) (all : List Nat) (only : Option Nat) : Nat :=
  let every := enabledBuffers s
  let bs := every.filter (covered only)
  let places := namedPlaces every
  if bs.any (bufferShort s) then 0x14
  else if bs.all (bufferGood s) && ((namedPlaces bs).all fun x => places.count x == 1) && entriesGood s all places &&
      mapsGood s only && queuesGood s then 0
  else 0x15

/-- The checks after writing, in the order of Table 10.8, over the clusters `ns` just written; `all` are those of every
valid reach and these, whose legs a reload may leave without an anchor (R100) and whose entries without a buffer (R114). 0 when they pass. -/
def postCode (s : State) (units : Nat) (ns all : List Nat) (only : Option Nat) : Nat :=
  if !opcodesGood s ns then 0x10
  else if units / 16 % 2 = 0 ∧ sendsToHarbour s ns = true then 0x11
  else if !(depthGood s && legsGood s && stepsGood s ns) then 0x12
  else if !swellGood s (anchorBits s) all then 0x13
  else arrivalCode s all only

/-! ## Routes written by firmware (R139, R115) -/

/-- Codes packed three bits each. -/
def packCodes (cs : List Nat) : Nat := (cs.zipIdx).foldl (fun acc x => acc + x.1 <<< (3 * x.2)) 0

/-- The pad of a VC0 route of NI `i` to endpoint `dst` (R115): what its unpadded delay leaves of the padded one. -/
def routePadFor (s : State) (i dst : Nat) (codes : List Nat) : Nat :=
  paddedDelay s (distance (placeOfNi s i) (placeOf s dst)) - hopTime s i dst codes codes.length

/-- Firmware may write the route table of NI `i` (R141): the NI is quiet, or it is a service NI without an outstanding
request, which firmware quiesces for the write (log entry 67). -/
def tableQuiet (s : State) (i : Nat) : Bool := bit s (R.wfNiStatus i) 31 || (decide (128 ≤ i) && (ni s i).outstanding.isEmpty)

/-- A write of NI `i`'s table by firmware; one that R141 does not allow is discarded. -/
def whenQuiet (i : Nat) (f : State → State) (s : State) : State :=
  if tableQuiet s i then f s else setBit s (R.wfNiStatus i) 27 true

/-- Firmware writes entry `e` of NI `i`: virtual channel, destination, tag (R139). -/
def writeRoute (i e vc dst tag : Nat) : State → State := whenQuiet i fun s =>
  match niOfEndpoint s dst with
  | none => setReg s (R.wfRt0 i e) (BitVec.ofNat 32 (vc <<< 29 + dst <<< 16 + tag <<< 8))
  | some j =>
    let codes := hopCodes vc (routerOfNi s i) (routerOfNi s j)
    let pad := if vc = 0 ∧ dst < 148 then routePadFor s i dst codes else 0
    let s := setReg s (R.wfRt1 i e) (BitVec.ofNat 32 (packCodes (codes.take 10)))
    let s := setReg s (R.wfRt2 i e) (BitVec.ofNat 32 (packCodes ((codes.drop 10).take 10)))
    let s := setReg s (R.wfRt3 i e) (BitVec.ofNat 32 (packCodes (codes.drop 20) + pad <<< 16))
    let w := BitVec.ofNat 32 (2 ^ 31 + vc <<< 29 + codes.length <<< 24 + dst <<< 16 + tag <<< 8)
    if routeCheck s i e w then setReg s (R.wfRt0 i e) w
    else setBit (setReg s (R.wfRt0 i e) (withBit w 31 false)) (R.wfNiStatus i) 28 true

/-- Firmware fills the tables of the service NIs: entry e leads to endpoint e (R139). That an entry below endpoint 148 is of
VC0 and another of VC1, each with tag 0, is a DESIGN CHOICE, unsafe (log entry 67): R139 names neither. -/
def fillServiceTables (s : State) : State :=
  (List.range 8).foldl (fun acc k => (List.range 157).foldl (fun acc e =>
    writeRoute (128 + k) e (if e < 148 then 0 else 1) e 0 acc) acc) s

/-! ## The slot planner (R147) -/

/-- A plan: owner plus 1 of a wheel position, key (router × 5 + port) × 64 + position, and the uses of input links at
step-times. -/
structure Plan where
  slots : Sparse Nat := []
  uses : List (Nat × Nat) := []
  deriving DecidableEq, Repr

/-- A hop of a flow: router, input port, output port. The output to the local port is the last. -/
def hopsFrom : Nat → Nat → List Nat → List (Nat × Nat × Nat)
  | r, i, [] => [(r, i, 0)]
  | r, i, c :: rest =>
    match hopFrom r c with
    | some r' => (r, i, c % 4 + 1) :: hopsFrom r' ((c % 4 ^^^ 1) + 1) rest
    | none => []

/-- A flow: NI, route-table entry and base step (Table 10.6). -/
def flowOf (x : Word × Word) : Nat × Nat × Nat := (bitsOf x.1 16 8, bitsOf x.1 8 8, bitsOf x.2 0 10)

/-- The hops of a flow with the nominal step-time of each. -/
def flowHops (s : State) (f : Nat × Nat × Nat) : List ((Nat × Nat × Nat) × Nat) :=
  let codes := routeCodes s f.1 f.2.1
  ((hopsFrom (routerOfNi s f.1) 0 codes).zipIdx).map fun x =>
    (x.1, f.2.2 + hopTime s f.1 (routeDst s f.1 f.2.1) codes x.2)

/-- Key of a hop's output position. -/
def slotKey (h : Nat × Nat × Nat) (t : Nat) : Nat := (h.1 * 5 + h.2.2) * 64 + t % 64

/-- The position is free or owned by the hop's own input. -/
def slotFree (p : Plan) (h : Nat × Nat × Nat) (t : Nat) : Bool :=
  let o := look (fun _ => 0) p.slots (slotKey h t)
  o == 0 || o == h.2.1 + 1

/-- A flow fits at source hold `o`. -/
def fits (p : Plan) (hs : List ((Nat × Nat × Nat) × Nat)) (o : Nat) : Bool :=
  hs.all fun x => slotFree p x.1 (x.2 + o) && !p.uses.contains (x.1.1 * 5 + x.1.2.1, x.2 + o)

/-- Reserve one hop at a step-time. -/
def reserveHop (x : (Nat × Nat × Nat) × Nat) (t : Nat) (p : Plan) : Plan :=
  { slots := put (fun _ => 0) p.slots (slotKey x.1 t) (x.1.2.1 + 1), uses := (x.1.1 * 5 + x.1.2.1, t) :: p.uses }

/-- Reserve a flow at source hold `o`. -/
def reserveFlow (p : Plan) (hs : List ((Nat × Nat × Nat) × Nat)) (o : Nat) : Plan :=
  hs.foldl (fun acc x => reserveHop x (x.2 + o) acc) p

/-- Reserve a late flow hop by hop: the first position at or after the nominal one, if there is one. The delays of its hops
past their nominal step-times are told; 64 stands for none. -/
def reserveLate (p : Plan) (hs : List ((Nat × Nat × Nat) × Nat)) : Plan × List Nat :=
  hs.foldl (fun acc x => match (List.range 64).find? fun o => slotFree acc.1 x.1 (x.2 + o) with
    | some o => (reserveHop x (x.2 + o) acc.1, acc.2 ++ [o])
    | none => (acc.1, acc.2 ++ [64])) (p, [])

/-- Reserve a flow with the delay of each hop as it was planned before. -/
def reserveAt (p : Plan) (hs : List ((Nat × Nat × Nat) × Nat)) (os : List Nat) : Plan :=
  (hs.zip os).foldl (fun acc x => if x.2 < 64 then reserveHop x.1 (x.1.2 + x.2) acc else acc) p

/-- The key of a flow, and the record of its place: planned late or not, and the delay of each hop. -/
def flowKey (f : Nat × Nat × Nat) : Nat := (f.1 * 256 + f.2.1) * 1024 + f.2.2
def notePlace (f : Nat × Nat × Nat) (late : Bool) (os : List Nat) (s : State) : State :=
  { s with ld := { s.ld with flowSlots := enter s.ld.flowSlots (flowKey f) (late, os) } }

/-- One flow of the planner (R147): its pad and source hold are written, a flow without place counts as late. -/
def planFlow (a : Plan × Nat × State) (f : Nat × Nat × Nat) : Plan × Nat × State :=
  let (p, late, s) := a
  let hs := flowHops s f
  match (List.range (routePad s f.1 f.2.1 + 1)).find? (fits p hs) with
  | some o => (reserveFlow p hs o, late, whenQuiet f.1 (fun s => setBits s (R.wfRt3 f.1 f.2.1) 8 5 o)
      (notePlace f false (hs.map fun _ => o) s))
  | none =>
    let x := reserveLate p hs
    (x.1, late + 1, whenQuiet f.1 (fun s => setBits (setBits s (R.wfRt3 f.1 f.2.1) 8 5 0) (R.wfRt3 f.1 f.2.1) 16 5 0)
      (notePlace f true x.2 s))

/-- A flow of a running reach keeps its present positions, those of a flow that was planned late too (R149). A flow that no
plan of this device has placed is reserved at its source hold, or, where that does not fit, hop by hop, and counted late: DESIGN
CHOICE, unsafe (log entry 67). -/
def keepFlow (a : Plan × Nat × State) (f : Nat × Nat × Nat) : Plan × Nat × State :=
  let (p, late, s) := a
  let hs := flowHops s f
  let o := routePadSrc s f.1 f.2.1
  match find s.ld.flowSlots (flowKey f) with
  | some (wasLate, os) => (reserveAt p hs os, late + wasLate.toNat, s)
  | none => if fits p hs o then (reserveFlow p hs o, late, s) else ((reserveLate p hs).1, late + 1, s)

/-- Words of bank `bank` of every wheel as the plan gives them. -/
def writePlan (bank : Nat) (p : Plan) (s : State) : State :=
  let in_ := fun (a : Nat) => decide (R.wfSlot 0 0 0 0 ≤ a ∧ a < R.wfSlot 144 0 0 0) && (a - R.wfSlot 0 0 0 0) / 0x20 % 2 == bank
  let s := { s with regs := s.regs.filter fun x => !in_ x.1 }
  p.slots.foldl (fun acc x =>
    let a := R.wfSlot (x.1 / 320) (x.1 / 64 % 5) bank (x.1 % 64 / 8)
    setBits acc a (4 * (x.1 % 8)) 4 (8 + (x.2 - 1))) s

/-- The planner over the flows kept and those placed anew, into the banks named (R147). -/
def runPlanner (kept placed : List (Word × Word)) (banks : List Nat) (s : State) : State :=
  let a := (kept.map flowOf).foldl keepFlow (({} : Plan), 0, s)
  let (p, late, s) := (placed.map flowOf).foldl planFlow a
  setBits (banks.foldl (fun acc b => writePlan b p acc) s) R.wfSlotLate 0 16 (min late 65535)

end Sys2Proof.Machine
end

