-- ==== Sys2Proof/Machine/Loader.lean ====
section
/-! DEFINITION. The whole-device load (R257 to R269), start and release stages (R266, R267), and the scrubber (R271, R272). -/
namespace Sys2Proof.Machine

/-! ## Registers and tree links -/

/-- LD_STATUS.state. -/
def ldState (s : State) : Nat := bits s R.ldStatus 28 4

/-- The mode of LD_CFG: 0 entry, 1 child, 2 shore; 3 acts as 1. -/
def ldMode (s : State) : Nat := if bits s R.ldCfg 30 2 = 3 then 1 else bits s R.ldCfg 30 2

/-- The links to the children and to the parent. -/
def childLinks (s : State) : List Nat := (List.range 20).filter fun l => bit s R.ldCfg l
def parentLink (s : State) : Nat := bits s R.ldCfg 24 5

/-- A discarded write (LD_STATUS.wr_locked). -/
def ldLocked (s : State) : State := setBit s R.ldStatus 25 true

/-- Replace the loader's state. -/
def setLd (x : Loader) (s : State) : State := { s with ld := x }

/-- LD_STATUS.state changes; loaded and failed raise cause bit 34 and trace event 7 (Tables 13.11, 16.6). -/
def setLdState (v : Nat) (s : State) : State :=
  let s := setBits s R.ldStatus 28 4 v
  if v = 6 ∨ v = 8 then traceEvent 7 (raiseCause 34 s) else s

/-- LD_STATUS.retrying. -/
def setRetrying (b : Bool) (s : State) : State := setBit s R.ldStatus 27 b

/-- A tree message (R258): code, ordinal, status, value. -/
def treeWord (code ordinal status value : Nat) : DWord :=
  BitVec.ofNat 64 (code <<< 60 + (ordinal % 128) <<< 48 + (status % 256) <<< 40 + value % 2 ^ 40)

/-- A message to every child, and one to the parent of a child. -/
def toChildren (w : DWord) (s : State) : State := (childLinks s).foldl (fun acc l => sendTree l w acc) s
def toParent (w : DWord) (s : State) : State := if ldMode s = 1 then sendTree (parentLink s) w s else s

/-- The loader takes a message that has come to endpoint 155. -/
def takeTree (w : DWord) (s : State) : State :=
  let x := ni s 135
  match x.management.find? fun p => headKind p.head == 5 && headDst p.head == 155 && p.payload.headD 0 == w with
  | some p => setNi s 135 { x with management := x.management.erase p }
  | none => s

/-! ## Final status (R258) -/

/-- The first status other than OK in the order they came, with its ordinal. -/
def groupResult (rs : List (Nat × Nat × Nat)) : Nat × Nat :=
  match rs.find? fun x => x.2.1 != 0 with
  | some x => x.2
  | none => (0, 0)

/-- Once the device and every child have a final status, a child reports it, and the entry or shore device shows it. A shore
load ends then: until the children have reported, the device goes on forwarding the stream (R257): DESIGN CHOICE, unsafe (log
entry 84). -/
def maybeReport (s : State) : State :=
  let has := fun (l : Nat) => s.ld.reports.any fun x => x.1 == l
  if has 20 ∧ (childLinks s).all has = true then
    let r := groupResult s.ld.reports
    if ldMode s = 1 then toParent (treeWord 6 r.2 r.1 0) s
    else
      let s := if ldMode s = 2 then setLd { s.ld with going := false } s else s
      setBit (setBits (setBits s R.ldStatus 16 8 r.1) R.ldStatus 8 7 r.2) R.ldStatus 26 true
  else s

/-- A final status comes in, of the device itself (20) or of a child. -/
def finalStatus (who code ordinal : Nat) (s : State) : State :=
  maybeReport (setLd { s.ld with reports := (s.ld.reports.filter fun x => x.1 ≠ who) ++ [(who, code, ordinal)] } s)

/-- The load of this device fails (Table 10.8, R263): after the first write every reach is invalid, and one that was loaded
already loses the words that wait in it. A shore load ends. -/
def failLoad (code : Nat) (s : State) : State :=
  let s := if ¬ s.ld.cleared then s else if ldState s = 6 then invalidateAll s else setBits s R.ldReach 0 16 0
  let s := setBits (setBits s R.ldStatus 16 8 code) R.ldStatus 8 7 (ownOrdinal s)
  let s := setLdState 8 s
  let s := if ldMode s = 2 then setLd { s.ld with failBall := true, doneBall := false, rewindBall := false } s else s
  finalStatus 20 code (ownOrdinal s) s

/-! ## Arm, go, abort (R257, R260) -/

/-- The loader for a new load: the image in use stays known until the first write. -/
def freshLoader (s : State) : Loader :=
  { prior := ldState s, golden := s.ld.golden, flows := s.ld.flows, contract := s.ld.contract, reaches := s.ld.reaches
    units := s.ld.units, flowSlots := s.ld.flowSlots, scrubPos := s.ld.scrubPos, scrubCrc := s.ld.scrubCrc, scrubSig := s.ld.scrubSig
    scrubPasses := s.ld.scrubPasses, outbox := s.ld.outbox }

/-- A load begins: state header and table, with the counts of fetch failures at 0. -/
def beginLoad (s : State) : State :=
  let s := setReg (setReg s R.ldRetry 0) R.ldFail 0
  let s := setBits (setBits s R.ldStatus 26 2 0) R.ldStatus 8 16 0
  setLdState 1 (setLd { s.ld with armed := false, going := true } s)

/-! ## Checks while the stream arrives (R262) -/

/-- The bytes of a kept section. -/
def keptBytes (s : State) (i : Nat) : List Byte := (find s.ld.good i).getD []

/-- Every LINKS and BANKS section of the device is held with a correct hash. -/
def stagedHere (s : State) : Bool :=
  (ownSections s s.ld.data).all fun x => sectionRank x.2.type != 0 || (find s.ld.good x.1).isSome

/-- The stream bytes from `a` below `b` have come: no rewind has passed over any of them. -/
def bytesCame (s : State) (a b : Nat) : Bool := s.ld.missing.all fun m => decide (b ≤ m.1 ∨ m.2 ≤ a)

/-- The header's checks, once it has arrived. -/
def checkHeader (s : State) : State :=
  if ldState s = 1 ∧ !s.ld.headerOk ∧ headerHere s.ld.data ∧ bytesCame s 0 4096 then
    match headerCode s false s.ld.data with
    | 0 => setLd { s.ld with headerOk := true } s
    | c => failLoad c s
  else s

/-- Bytes beyond the header's length are ignored (R261). -/
def trimStream (s : State) : State :=
  if s.ld.headerOk then setLd { s.ld with data := s.ld.data.take (imageLength s.ld.data) } s else s

/-- The table's checks, once it has arrived; the device then stages LINKS and BANKS. -/
def checkTable (s : State) : State :=
  if ldState s = 1 ∧ s.ld.headerOk ∧ tableHere s.ld.data ∧ bytesCame s 0 (4096 + 64 * sectionCount s.ld.data) then
    match tableCode s false s.ld.data with
    | 0 => setLdState 2 (setLd { s.ld with tableOk := true } s)
    | c => failLoad c s
  else s

/-- The checks on LINKS and BANKS; the device then waits for HOLD. -/
def checkStaged (s : State) : State :=
  if ldState s = 2 ∧ stagedHere s then
    match stagedCode s s.ld.data (keptBytes s) with
    | 0 => setLdState 3 (setLd { s.ld with stagedOk := true } s)
    | c => failLoad c s
  else s

/-- The own sections have all arrived. -/
def ownArrived (s : State) : Bool :=
  s.ld.tableOk && (ownSections s s.ld.data).all fun x =>
    (find s.ld.good x.1).isSome || decide (x.2.offset + x.2.length ≤ s.ld.data.length)

/-- The stream offset that the device has come to: bytes sent again after a rewind count anew. -/
def streamPlace (s : State) : Nat := s.ld.data.length + s.ld.gap - s.ld.skip

/-- A child whose stream has ended before its own sections have come ends with STREAM_SHORT (R261). -/
def checkEnd (s : State) : State :=
  match s.ld.endAt with
  | some e =>
    if ldMode s = 1 ∧ loadInProgress s ∧ e ≤ streamPlace s ∧ !ownArrived s then failLoad 0x16 s else s
  | none => s

/-- The checks that the bytes taken so far allow. -/
def advanceLoad (s : State) : State := checkEnd (checkStaged (checkTable (trimStream (checkHeader s))))

/-- Whole load frames of the bytes not yet forwarded go to every child (R257). -/
def forwardBytes (bs : List Byte) (s : State) : State :=
  let all := s.ld.tail ++ bs
  let n := all.length / 32
  let frames := (List.range n).map fun i => BitVec.ofNat 256 (ofBytesLE (bytesAt all (32 * i) 32))
  let s := (childLinks s).foldl (fun acc l => setLink acc l { link acc l with load := (link acc l).load ++ frames }) s
  setLd { s.ld with tail := all.drop (32 * n) } s

/-- Load frames that a link can take: the link is up, and each frame that waits in it has a credit (R178). -/
def loadRoom (s : State) (l : Nat) : Nat :=
  let k := link s l
  if linkUp s l then 32 + look (fun _ => 0) k.creditIn 3 - look (fun _ => 0) k.sentFrames 3 - k.load.length else 0

/-- Every child link can take the frames that `n` more bytes complete (R257). -/
def childrenTake (s : State) (n : Nat) : Bool :=
  (childLinks s).all fun l => decide ((s.ld.tail.length + n) / 32 ≤ loadRoom s l)

/-- A fetch failure is counted in LD_RETRY, and recorded in LD_FAIL and, the 1st and every 1,024th after it, in Cairn (R259,
step 4). -/
def countFailure (s : State) : State :=
  match s.ld.failing with
  | none => s
  | some (cause, ordinal, index) =>
    let n := s.ld.failures + 1
    let s := setBits s R.ldRetry 0 22 (min n (2 ^ 22 - 1))
    let s := setReg s R.ldFail (BitVec.ofNat 32 ((index % 2 ^ 14) <<< 18 + cause <<< 16 + ordinal % 128))
    let s := setLd { s.ld with failures := n, failing := none } s
    if n % 1024 = 1 then addRecord 3 (bytesLE 4 n ++ bytesLE 4 index ++ bytesLE 2 ordinal ++ bytesLE 1 cause) s else s

/-- The bytes taken with those that come: those that a rewind has passed over stand between, as bytes that never came, and
those that come again under `skip` are passed over. -/
def joinStream (x : Loader) (bs : List Byte) : Loader :=
  let n := min bs.length x.skip
  let at_ := x.data.length
  { x with
    data := x.data ++ List.replicate x.gap 0 ++ bs.drop n, skip := x.skip - n, gap := 0
    missing := if x.gap = 0 then x.missing else x.missing ++ [(at_, at_ + x.gap)] }

/-- The device takes stream bytes: it forwards and processes them (R257). Bytes that a child link cannot take are not taken:
the source holds them. The first bytes after a fetch failure let it count (R259). -/
def takeStream (bs : List Byte) (s : State) : State :=
  if s.ld.going ∧ childrenTake s bs.length = true then
    let s := forwardBytes bs (countFailure s)
    advanceLoad (setLd (joinStream s.ld bs) s)
  else s

/-- A child takes the next load frame of its parent link once its own children can take it, and returns its credit (R178,
R257). -/
def takeLoadFrame (s : State) : State :=
  let l := parentLink s
  match (link s l).rxLoad with
  | [] => s
  | b :: rest =>
    if ldMode s = 1 ∧ s.ld.going ∧ l < 20 ∧ childrenTake s 32 = true then
      takeStream (bytesLE 32 b.toNat) (returnCredit l 3 (setLink s l { link s l with rxLoad := rest }))
    else s

/-- A child takes the load frames of its parent link as far as it can: with each event that brings a frame, or lets its own
children take one (R257). -/
def feedParent (s : State) : State := forUpTo (link s (parentLink s)).rxLoad.length (fun _ acc => takeLoadFrame acc) s

/-- LINK_UP (R170): a child link that comes up has its credits. -/
def execLinkUp (l : Fin 20) (s : State) : Out := .next (feedParent (linkComesUp l.val s))

/-- LINK_CONTROL_RECEIVE (R178): credits of a child link let it take load frames again. -/
def execLinkControlReceive (l : Fin 20) (s : State) : Out := .next (feedParent (linkControlReceive l.val s))

/-- LOAD_ARM (R257, Table 10.12): a child or shore device takes the stream from here on, an entry waits for go. -/
def loadArm (s : State) : State :=
  if loadInProgress s then ldLocked s
  else
    let s := if reloadInProgress s then reloadFails 0x17 s else s
    let s := setLd { freshLoader s with armed := true } s
    if ldMode s = 0 then s else feedParent (beginLoad s)

/-- LOAD_ARM (R257). -/
def execLoadArm (s : State) : Out := .next (loadArm s)

/-- LOAD_GO (R257): an armed entry begins the load. -/
def loadGo (s : State) : State :=
  if loadInProgress s then ldLocked s
  else if ldMode s = 0 ∧ s.ld.armed then beginLoad s
  else s

/-- LOAD_GO (R257). -/
def execLoadGo (s : State) : Out := .next (loadGo s)

/-- The load frames that wait for the children are discarded. -/
def dropChildFrames (s : State) : State :=
  (childLinks s).foldl (fun acc l => setLink acc l { link acc l with load := [] }) s

/-- The load frames on the way to the children and from the parent are discarded; the parent's credits return (R178). -/
def dropLoadFrames (s : State) : State :=
  let s := dropChildFrames s
  let l := parentLink s
  if ldMode s = 1 ∧ l < 20 then
    let n := (link s l).rxLoad.length
    forUpTo n (fun _ acc => returnCredit l 3 acc) (setLink s l { link s l with rxLoad := [] })
  else s

/-- The load of this device ends with LOAD_ABORTED (R260): the image is discarded. A device that has loaded its image and not
yet started is in its load, too. -/
def abortLoad (s : State) : State :=
  let s := setRetrying false (dropLoadFrames s)
  let was := s.ld
  let s := setLd { s.ld with
    going := false, armed := false, backing := false, rewinding := [], failed := [], rewindBall := false, endAt := none } s
  if ldState s = 6 ∧ s.ld.cleared then failLoad 0x17 s
  else if ¬ loadInProgress s then s
  else if was.held then failLoad 0x17 s
  else
    let s := setBits s R.ldStatus 16 8 0x17
    let s := setLdState was.prior (setLd { s.ld with failBall := decide (ldMode s = 2) } s)
    finalStatus 20 0x17 (ownOrdinal s) s

/-- LOAD_ABORT (R260): ABORT goes to the parent and the children. -/
def loadAbort (s : State) : State :=
  if loadInProgress s then abortLoad (toParent (treeWord 5 (ownOrdinal s) 0x17 0) (toChildren (treeWord 5 (ownOrdinal s) 0x17 0) s))
  else ldLocked s

/-- LOAD_ABORT (R260). -/
def execLoadAbort (s : State) : Out := .next (loadAbort s)

/-- ABORT came over link `l` (R260): it goes on to the other tree links, and the load ends. -/
def abortReceived (l : Nat) (s : State) : State :=
  let w := treeWord 5 (ownOrdinal s) 0x17 0
  let others := (childLinks s ++ (if ldMode s = 1 then [parentLink s] else [])).filter (· ≠ l)
  abortLoad (others.foldl (fun acc m => sendTree m w acc) s)

/-- ABORT (R260). -/
def execAbort (l : Fin 20) (s : State) : Out := .next (abortReceived l.val s)

/-! ## The stream (R257, R261) -/

/-- The device that sees the source end tells its children, and ends with STREAM_SHORT when the stream is short (R261). -/
def streamEnded (s : State) : State :=
  let n := streamPlace s
  let s := toChildren (treeWord 4 0 0 (n / 64)) (setLd { s.ld with endAt := some n } s)
  let short := !s.ld.headerOk || decide (n < imageLength s.ld.data)
  if short ∧ (loadInProgress s ∨ (ldState s = 6 ∧ bit s R.ldStatus 26 = false)) then failLoad 0x16 s else s

/-- The source is stopped: a back-off or a rewind is in progress. -/
def sourceStopped (s : State) : Bool := s.ld.backing || !s.ld.rewinding.isEmpty

/-- STREAM_FETCH (R257): bytes of the next chunk; no bytes stand for the end of the chunk list (log entry 23). The fetch waits
while the device may issue no request (R399). -/
def streamFetch (bs : List Byte) (s : State) : State :=
  if ldMode s = 0 ∧ s.ld.going ∧ s.ld.endAt.isNone ∧ !sourceStopped s ∧ busMaster s then
    if bs.isEmpty then streamEnded s else takeStream bs s
  else s

/-- STREAM_FETCH (R257). -/
def execStreamFetch (bytes : List Byte) (s : State) : Out := .next (streamFetch bytes s)

/-- SHORE_WORD_TRANSFER (R268): word k carries bytes 8k to 8k + 7. Without strap SHORE[72] the balls are no load bus (R414). -/
def shoreWord (w : DWord) (last : Bool) (s : State) : State :=
  if ldMode s = 2 ∧ s.die.straps.getLsbD 0 ∧ s.ld.going ∧ s.ld.endAt.isNone ∧ !sourceStopped s then
    if childrenTake s 8 then
      let s := takeStream (bytesLE 8 w.toNat) s
      if last ∧ s.ld.going then streamEnded s else s
    else s
  else s

/-- SHORE_WORD_TRANSFER (R268). -/
def execShoreWordTransfer (word : DWord) (last : Bool) (s : State) : Out := .next (shoreWord word last s)

/-- FRAME_RECEIVE (R180): the frame is received, and a load frame of the parent link goes to the loader. -/
def execFrameReceive (a : Fin 80) (f : FrameIn) (s : State) : Out := .next (feedParent (frameHeard a.val f s))

/-- END (R261): the message goes on, and the stream ends at its offset. -/
def endReceived (w : DWord) (s : State) : State :=
  let s := toChildren w (takeTree w s)
  if ldMode s = 1 ∧ s.ld.going then checkEnd (setLd { s.ld with endAt := some (64 * bitsOf w 0 40) } s) else s

/-- END (R261). -/
def execEndMessage (message : DWord) (s : State) : Out := .next (endReceived message s)

/-! ## Sections, retry and rewind (R253, R258, R259, R269) -/

/-- The first section of the device that is complete and not yet held. -/
def completeSection (s : State) : Option (Nat × Descriptor) :=
  (ownSections s s.ld.data).find? fun x =>
    (find s.ld.good x.1).isNone && decide (x.2.offset + x.2.length ≤ s.ld.data.length)

/-- SECTION_RECEIVED (R253): the section is held when its hash is right; else the device asks for a retry. -/
def sectionReceived (s : State) : State :=
  let own := ownOrdinal s
  if s.ld.tableOk ∧ [2, 3, 4].contains (ldState s) ∧ !sourceStopped s ∧ (s.ld.failed.all fun x => x.1 != own) = true then
    match completeSection s with
    | none => s
    | some (i, x) =>
      let bs := bytesAt s.ld.data x.offset x.length
      if bytesCame s x.offset (x.offset + x.length) && hashGood x bs then
        let passed := s.ld.retry == some (own, i)
        advanceLoad (setLd { s.ld with
          good := enter s.ld.good i bs
          retry := if passed then none else s.ld.retry
          consecutive := if passed then 0 else s.ld.consecutive } s)
      else toParent (treeWord 1 own 0 i) (setLd { s.ld with failed := s.ld.failed ++ [(own, i)] } s)
  else s

/-- RETRY (R258): it goes on toward the entry, which notes the failed section. -/
def retryReceived (w : DWord) (s : State) : State :=
  let s := takeTree w s
  if ldMode s = 1 then toParent w s
  else setLd { s.ld with failed := s.ld.failed ++ [(bitsOf w 48 7, bitsOf w 0 40)] } s

/-- RETRY (R258). -/
def execRetry (message : DWord) (s : State) : Out := .next (retryReceived message s)

/-- The section that the stream has come to: keeper and index; none while header and table are incomplete. -/
def sectionAt (d : List Byte) : Option (Nat × Nat) :=
  if tableHere d then
    ((List.range (sectionCount d)).find? fun i =>
      decide (d.length < (descriptorAt d i).offset + (descriptorAt d i).length)).map fun i => ((descriptorAt d i).ordinal, i)
  else none

/-- The section that the present stream has come to; none in a header or table that comes again. -/
def sectionHere (s : State) : Option (Nat × Nat) := sectionAt (s.ld.data.take (streamPlace s))

/-- Back-off of the c-th consecutive failure in ms (R259). -/
def backoffMs (c : Nat) : Nat := if c ≤ 10 then 2 ^ (c - 1) else 1000

/-- The section retried last has passed (R259): the stream has come to a failure in a later section, or, after a failure before
the table, to one in a section. DEDUCED (log entry 76): a keeper elsewhere does not tell the entry. -/
def retryPassed (s : State) (which : Option (Nat × Nat)) : Bool :=
  match s.ld.retry, which with
  | some x, some y => decide (x.2 < y.2)
  | none, some _ => true
  | _, none => false

/-- A fetch failure (R259): LOAD_FETCH_FAIL, and the back-off starts. It is counted and recorded once the stream is sent again,
or when another comes before that (log entry 115). A failure before the table has arrived has no section: LD_FAIL.section and
ordinal and the info are then free values. -/
def fetchFailed (cause : Nat) (which : Option (Nat × Nat)) (s : State) : State :=
  let s := countFailure s
  let x := takeFree 21 s
  let s := if which.isNone then x.2 else s
  let (ordinal, index) := which.getD (x.1.toNat % 128, x.1.toNat / 128)
  let c := if retryPassed s which then 1 else s.ld.consecutive + 1
  let s := setBits s R.ldRetry 22 10 (backoffMs c)
  let s := signal 234 ordinal (setRetrying true s)
  setLd { s.ld with
    failing := some (cause, ordinal, index), backing := true, retry := which, consecutive := c, rewindBall := decide (ldMode s = 2)
    failed := s.ld.failed.filter fun y => some y ≠ which } s

/-- The DMA read that failed gives no cause with FETCH_FAILURE: a free one of the four of R398 is recorded, and none is a
timeout while timeouts are disabled (log entry 85). -/
def sourceFault (s : State) : State :=
  let x := takeFree 2 s
  let cause := x.1.toNat + 1
  dmaFault 0 (if cause = 3 ∧ timeoutsOff s then 4 else cause) true false x.2

/-- FETCH_FAILURE (R259): an error of the source, a failed read (R398), or the hash mismatch that a keeper has found. A device
that may issue no request has no failed read (R399). -/
def fetchFailure (sourceError : Bool) (s : State) : State :=
  if ldMode s ≠ 1 ∧ s.ld.going ∧ !sourceStopped s then
    if sourceError then
      (if ldMode s = 0 ∧ busMaster s then fetchFailed 1 (sectionHere s) (sourceFault s) else s)
    else match s.ld.failed with
      | [] => s
      | x :: _ => fetchFailed 2 (some x) s
  else s

/-- FETCH_FAILURE (R259). -/
def execFetchFailure (sourceError : Bool) (s : State) : Out := .next (fetchFailure sourceError s)

/-- Bytes of header and table that have passed their checks: a rewind keeps them (R258, R269). -/
def checkedBytes (s : State) : Nat := if s.ld.tableOk then 4096 + 64 * sectionCount s.ld.data else 0

/-- The stream resumes at an offset: later bytes are discarded here and on the way to the children (R258). A header and table
that have passed stay, and are passed over as they come again. Bytes below the offset that have not come are missing from then
on. -/
def rewindTo (offset : Nat) (s : State) : State :=
  let s := toChildren (treeWord 2 0 0 (offset / 64)) (dropChildFrames s)
  let data := s.ld.data.take (max offset (checkedBytes s))
  setLd { s.ld with
    data := data, skip := data.length - offset, gap := offset - data.length
    missing := (s.ld.missing.filter fun m => decide (m.1 < data.length)).map fun m => (m.1, min m.2 data.length)
    headerOk := s.ld.headerOk && headerHere data, tail := [], endAt := none
    rewinding := childLinks s
    failed := s.ld.failed.filter fun x => x.1 ≠ ownOrdinal s } s

/-- This device and every child have rewound: a child says so, and an entry or shore device goes on (R258). -/
def rewindDone (s : State) : State :=
  if s.ld.rewinding.isEmpty then toParent (treeWord 3 (ownOrdinal s) 0 0) (setRetrying false s) else setRetrying true s

/-- BACKOFF_EXPIRY (R259, R269): the entry rewinds to the failed section, a shore device to byte 0. -/
def backoffExpiry (s : State) : State :=
  if s.ld.backing then
    let offset := match s.ld.retry with
      | some x => if ldMode s = 2 then 0 else (descriptorAt s.ld.data x.2).offset
      | none => 0
    let s := setBits (setLd { s.ld with backing := false, rewindBall := false } s) R.ldRetry 22 10 0
    rewindDone (rewindTo offset s)
  else s

/-- BACKOFF_EXPIRY (R259). -/
def execBackoffExpiry (s : State) : Out := .next (backoffExpiry s)

/-- REWIND (R258): frames of the parent link not yet processed are discarded, and the children rewind too. -/
def rewindReceived (w : DWord) (s : State) : State :=
  let s := takeTree w s
  if ldMode s = 1 ∧ s.ld.going then rewindDone (rewindTo (64 * bitsOf w 0 40) (dropLoadFrames s))
  else s

/-- REWIND (R258). -/
def execRewind (message : DWord) (s : State) : Out := .next (rewindReceived message s)

/-- REWOUND (R258): the subtree of link `l` has rewound. -/
def rewoundReceived (l : Nat) (s : State) : State :=
  if s.ld.rewinding.contains l then rewindDone (setLd { s.ld with rewinding := s.ld.rewinding.filter (· ≠ l) } s) else s

/-- REWOUND (R258). -/
def execRewound (l : Fin 20) (s : State) : Out := .next (rewoundReceived l.val s)

/-- REPORT (R258): the final status of the subtree of link `l`. -/
def reportReceived (l : Nat) (w : DWord) (s : State) : State :=
  let s := takeTree w s
  if (childLinks s).contains l then finalStatus l (bitsOf w 40 8) (bitsOf w 48 7) s else s

/-- REPORT (R258). -/
def execReport (l : Fin 20) (message : DWord) (s : State) : Out := .next (reportReceived l.val message s)

/-! ## HOLD for a load (R263, R264) -/

/-- The milestone point of the present ec (R103): every running cluster has reached its milestone. -/
def atMilestonePoint (s : State) : Bool :=
  s.sched.run == .running && s.sched.phase == .walked &&
    (runningClusters s).all fun n => match (clu s n).walk with
      | .milestone _ => true
      | _ => false

/-- What of the schedule outlives a run: the tokens awaited and hold markers, the hazard log and the freeze count. -/
def keptSched (s : State) : Sched :=
  { awaited := s.sched.awaited, holds := s.sched.holds, hazardLog := s.sched.hazardLog, freezeLow := s.sched.freezeLow }

/-- The device enters HOLD in every reach (R263, R264): the run ends, Harbour is flushed, every cluster NI is quiesced, the
capture ends without record (Table 11.7), breakwater cells release. A hold marker whose token has not come stands on
across the load and the start: DESIGN CHOICE, unsafe (log entry 66). -/
def holdAll (s : State) : State :=
  let s := forUpTo 16 enterHold s
  let s := applyFree { s with
    sched := keptSched s
    rl := {}, shore := {}, ld := { s.ld with held := true } }
  let s := setBits s R.trgRunStatus 0 9 0
  let s := hbEmpty (dropAcq s)
  forUpTo 128 (fun i acc => setBit acc (R.wfNiCtrl i) 0 true) s

/-- ENTER_HOLD (R263): at the milestone point, or at once when the device is frozen, stopped, not started or in HOLD. -/
def enterHoldNow (s : State) : State :=
  if ldState s = 3 ∧ !s.ld.held ∧ (s.sched.run ≠ .running ∨ allHold s ∨ atMilestonePoint s) then
    holdAll (if atMilestonePoint s then raiseHazards s else s)
  else s

/-- ENTER_HOLD (R263). -/
def execEnterHold (s : State) : Out := .next (enterHoldNow s)

/-! ## Writing (R255, R256, R263, R429) -/

/-- An offset belongs to one of the register arrays. -/
def inFamilies (fs : List Nat) (a : Nat) : Bool :=
  match regFamily a with
  | some (base, _) => fs.contains base
  | none => false

/-- BANK_CFG fields that a BANKS section writes return to their reset values; the bank's own state stays. -/
def resetBankCfg (s : State) : State :=
  forUpTo 256 (fun b acc => setBits (setBits acc (R.bankCfg b) 25 3 1) (R.bankCfg b) 0 3 (bitsOf (resetWord (R.bankCfg b)) 0 3)) s

/-- The ec count begins again at 0 with the first ec after the load (R91), so the tokens awaited do too (R107), and the
last token taken on a link is no repeat any more (log entry 66). -/
def newTokens (s : State) : State :=
  let s := { s with sched := { s.sched with awaited := [] } }
  forUpTo 20 (fun l acc => setLink acc l { link acc l with tokensIn := [], holdsIn := [] }) s

/-- The registers of R429 return to reset: those of LEGS, LINKS, BANKS and ROUTES, route tables, slot tables, link deadlines
and the regions of class design. -/
def resetForLoad (s : State) : State :=
  let keepDdr := fun (a : Nat) => match regFamily a with
    | some (base, c :: r :: _) => ddrRegs.contains base && regionClass s c r != 0
    | _ => false
  let gone := fun (a : Nat) =>
    inFamilies (legsRegs ++ linksRegs ++ routesRegs ++ bankCluRegs ++ [R.bankOwner 0]) a ||
      (inFamilies ddrRegs a && !keepDdr a) || decide (R.wfRt0 0 0 ≤ a ∧ a < R.wfRt0 136 0) ||
      decide (R.wfSlot 0 0 0 0 ≤ a ∧ a < R.wfSlot 144 0 0 0)
  let s := resetBankCfg { s with regs := s.regs.filter fun x => !gone x.1, banks := { s.banks with handovers := [] } }
  let s := forUpTo 20 (fun l acc => setLink acc l { link acc l with deadlineIn := none, deadlineOut := none }) s
  setBits (setBit (newTokens s) R.glbSchedStatus 0 false) R.glbSchedStatus 8 6 0

/-- Every present design bank of a reach holds zeros (R264). -/
def clearBanks (r : Nat) (s : State) : State :=
  forUpTo 16 (fun k acc =>
    let b := 16 * r + k
    if bankPresent acc b then setBit (setDesignMem acc b zeroContents) (R.bankCfg b) 30 false else acc) s

/-- Instruction and dictionary memories of every cluster are empty. -/
def clearMemories (s : State) : State :=
  mapClusters (fun c => { c with imem := [], dict := [] }) s

/-- The first write of a load (R263, R264, R429). -/
def firstWrite (s : State) : State :=
  let d := s.ld.data
  let k := ownOrdinal s
  let s := setLdState 4 (invalidateAll s)
  let s := clearMemories (resetForLoad s)
  let s := forUpTo 16 (fun r acc => if dirReaches d k / 2 ^ r % 2 = 1 then clearBanks r acc else acc) s
  fillServiceTables (setLd { s.ld with
    cleared := true, golden := [], flows := [], contract := imageContract d, reaches := dirReaches d k
    units := dirUnits d k } s)

/-- The loader writes a BANK_OWNER record through the handover of R196, and waits for its end (R205). -/
def ownerLoad (b : Nat) (v : Word) (s : State) : State :=
  let s := setBits (setBits s (R.bankOwner b) 0 8 (bitsOf v 0 8)) (R.bankOwner b) 16 8 (bitsOf v 16 8)
  let s := setBit s (R.bankOwner b) 31 true
  { s with banks := { s.banks with handovers := s.banks.handovers.filter fun h => h.bank ≠ b } }

/-- One register record. -/
def writeRecord (a : Nat) (v : Word) (s : State) : State :=
  match regFamily a with
  | some (base, i :: _) =>
    if base = R.bankOwner 0 then ownerLoad i v s
    else if base = R.bankCfg 0 then bankCfgWrite i v s
    else writeFields a v s
  | _ => if a = R.trgFreezeAtHi then freezeAt v s else writeFields a v s

/-- One special record (Table 10.6); link deadlines take effect with the whole section. -/
def writeSpecial (type : Nat) (k v : Word) (s : State) : State :=
  match type with
  | 3 => writeRoute (bitsOf k 16 8) (bitsOf k 8 8) (bitsOf v 30 2) (bitsOf v 16 8) (bitsOf v 8 8) s
  | 4 => setLd { s.ld with flows := s.ld.flows ++ [(k, v)] } s
  | _ => s

/-- Records in stream order up to the first that R256 forbids: whether all were good. -/
def writeRecords (type reach units contract : Nat) : List (Word × Word) → State → Bool × State
  | [], s => (true, s)
  | x :: rest, s =>
    if recordGood type reach units contract x then
      writeRecords type reach units contract rest
        (if x.1.getLsbD 31 then writeSpecial type x.1 x.2 s else writeRecord x.1.toNat x.2 s)
    else (false, s)

/-- Link deadlines govern their directions (R118). -/
def writeDeadlines (rs : List (Word × Word)) (s : State) : State :=
  (rs.map fun x => bitsOf x.1 8 5).dedup.foldl (fun acc l =>
    setLink acc l { link acc l with deadlineIn := governing rs l 1, deadlineOut := governing rs l 2 }) s

/-- The instruction words of cluster `j` of an INSTR section at a depth (R255). -/
def imemOf (dep j : Nat) (bs : List Byte) : Sparse (BitVec 96) :=
  (List.range 512).flatMap fun b => (List.range dep).filterMap fun t =>
    let w := BitVec.ofNat 96 (ofBytesLE (bytesAt bs (((j * 512 + b) * dep + t) * 12) 12))
    if w = 0 then none else some (1024 * b + t, w)

/-- The dictionary of cluster `j` of a DICT section, and its signature in a GOLDEN section (R255). -/
def dictOf (j : Nat) (bs : List Byte) : Sparse DWord :=
  (List.range 1024).foldl (fun m e => setDword m e (BitVec.ofNat 64 (fieldAt bs (8192 * j + 8 * e) 8))) []
def goldenOf (r : Nat) (bs : List Byte) (g : Sparse DWord) : Sparse DWord :=
  (List.range 8).foldl (fun m j => setDword m (8 * r + j) (BitVec.ofNat 64 (fieldAt bs (8 * j) 8))) g

/-- The clusters of reach `r` get their instruction words, or their dictionaries. -/
def writeImem (r : Nat) (bs : List Byte) (s : State) : State :=
  forUpTo 8 (fun j acc => setClu acc (8 * r + j) { clu acc (8 * r + j) with imem := imemOf (depth s) j bs }) s
def writeDict (r : Nat) (bs : List Byte) (s : State) : State :=
  forUpTo 8 (fun j acc => setClu acc (8 * r + j) { clu acc (8 * r + j) with dict := dictOf j bs }) s

/-- A record section is written: the code that ends the load, 0 when it is good (R118, R255, R256). The leg table and the
depth are checked with the LEGS section, before any INSTR section. -/
def writeRecordSection (type reach units contract : Nat) (bs : List Byte) (s : State) : Nat × State :=
  let rs := recordsOf bs
  let special := rs.filter fun x => x.1.getLsbD 31
  if bs.length % 8 ≠ 0 then (0x0F, s)
  else if type = 6 ∧ ¬ (special.map fun x => (bitsOf x.1 8 5, bitsOf x.1 0 2)).Nodup then (0x0F, s)
  else
    let x := writeRecords type reach units contract rs s
    if !x.1 then (0x0F, x.2)
    else if type = 6 then (0, writeDeadlines special x.2)
    else if type = 2 then
      (if depthGood x.2 && legsGood x.2 then 0 else 0x12, setBits x.2 R.glbSchedStatus 8 6 (validLegs x.2))
    else (0, x.2)

/-- A section is written (R255, R256): the code that ends the load, 0 when it is good. -/
def writeSection (x : Descriptor) (bs : List Byte) (s : State) : Nat × State :=
  let r := reachOfMask x.reach
  match x.type with
  | 0 => if bs.length = 49152 * depth s then (0, writeImem r bs s) else (0x0F, s)
  | 1 => if bs.length = 65536 then (0, writeDict r bs s) else (0x0F, s)
  | 7 => if bs.length = 64 then (0, setLd { s.ld with golden := goldenOf r bs s.ld.golden } s) else (0x0F, s)
  | t => writeRecordSection t r s.ld.units s.ld.contract bs s

/-- The next own section to write, in stream order. -/
def nextWrite (s : State) : Option (Nat × Descriptor) :=
  (ownSections s s.ld.data).find? fun x => !s.ld.written.contains x.1

/-- Every cluster NI is quiet. -/
def clusterNisQuiet (s : State) : Bool := (List.range 128).all fun i => bit s (R.wfNiStatus i) 31

/-- Write one section that is held; after the last one the device checks (R263). Firmware expands the routes (R139). -/
def writeNext (s : State) : State :=
  match nextWrite s with
  | none => setLdState 5 s
  | some (i, x) =>
    if (find s.ld.good i).isNone ∨ (x.type = 3 ∧ !firmwareRuns s) then s
    else
      let r := writeSection x (plainBytes s s.ld.data i x (keptBytes s i)) s
      if r.1 ≠ 0 then failLoad r.1 r.2
      else
        let s := setLd { r.2.ld with written := r.2.ld.written ++ [i] } r.2
        if (nextWrite s).isNone then setLdState 5 s else s

/-- LOAD_WRITE (R263): the first write once every cluster NI is quiet, then one section at a time. -/
def loadWrite (s : State) : State :=
  if ldState s = 3 ∧ s.ld.held ∧ clusterNisQuiet s ∧ firmwareRuns s then firstWrite s
  else if ldState s = 4 then writeNext s
  else s

/-! ## Completion and start (R265, R266) -/

/-- Reaches of a mask, ascending. -/
def reachList (m : Nat) : List Nat := (List.range 16).filter fun r => m / 2 ^ r % 2 = 1

/-- GLB_LEG eff_anchor takes the bits computed (R68). -/
def setAnchors (a : BitVec 32) (s : State) : State := forUpTo 32 (fun k acc => setBit acc (R.glbLeg k) 29 (a.getLsbD k)) s

/-- The scrubber starts its first pass of a reach (R272). -/
def startScrub (r : Nat) (s : State) : State :=
  let keep := fun {α : Type} (m : Sparse α) => m.filter fun x => x.1 / 8 ≠ r
  setLd { s.ld with
    scrubPos := keep s.ld.scrubPos, scrubCrc := keep s.ld.scrubCrc, scrubSig := keep s.ld.scrubSig
    scrubPasses := keep s.ld.scrubPasses } s

/-- A cluster of a reach that starts or joins: at the decision of its first leg, every swell flag set (R94, R264). -/
def startCluster (c : Cluster) : Cluster :=
  { c with walk := .transition 0, swell := BitVec.allOnes 32, legRan := 0, legFirst := 0, badOpcode := false, walkLate := 0 }

/-- The clusters of a reach start; one that is not powered stays in HOLD (R357, log entry 80). -/
def startReach (r : Nat) (s : State) : State :=
  if ¬ reachPowered s r then s
  else
  let s := setBit s R.ldReach (16 + r) false
  forUpTo 8 (fun k acc => setClu acc (8 * r + k) (startCluster (clu acc (8 * r + k)))) s

/-- The device begins ec 0 in its valid reaches (R266). Every swell flag of every cluster of the device is set (R94). -/
def beginRun (s : State) : State :=
  let s := forUpTo 128 (fun n acc => setClu acc n { clu acc n with swell := BitVec.allOnes 32 }) s
  let s := forUpTo 16 (fun r acc => if reachValid acc r then startReach r acc else acc) s
  let s := setRun .running { s with
    sched := { keptSched s with edges := wheelEdges s 0 }
    shore := { waiting := [⟨0, [], false⟩] } }
  let s := admitAll s
  setLdState 7 (setLd { s.ld with going := false, armed := false, doneBall := false, failBall := false } s)

/-- Start: START goes down the tree and the device begins (R266). -/
def startTree (s : State) : State := beginRun (toChildren (treeWord 7 0 0 0) s)

/-- LOAD_START (R266). -/
def loadStart (s : State) : State :=
  if ldState s = 6 ∧ (ldMode s = 2 ∨ (ldMode s = 0 ∧ bit s R.ldStatus 26 ∧ bits s R.ldStatus 16 8 = 0)) then startTree s
  else ldLocked s

/-- LOAD_START (R266). -/
def execLoadStart (s : State) : Out := .next (loadStart s)

/-- START (R266): it goes on down the tree, and a loaded device begins. -/
def startReceived (s : State) : State :=
  let s := takeTree (treeWord 7 0 0 0) s
  if ldState s = 6 then startTree s else toChildren (treeWord 7 0 0 0) s

/-- START (R266). -/
def execStart (s : State) : Out := .next (startReceived s)

/-- The load has passed every check (R265): the directory's reaches are valid and in HOLD. -/
def loaded (anchors : BitVec 32) (s : State) : State :=
  let s := setBits s R.ldReach 0 16 s.ld.reaches
  let s := setAnchors anchors s
  let s := (reachList s.ld.reaches).foldl (fun acc r => startScrub r acc) s
  let s := forUpTo 128 (fun i acc => niCtrlWrite i false acc) s
  let s := if ldMode s = 2 then setLd { s.ld with doneBall := true } s else s
  let s := finalStatus 20 0 (ownOrdinal s) (setLdState 6 (setBits s R.ldStatus 16 8 0))
  if bit s R.ldRelCfg 30 ∧ ldMode s ≠ 1 ∧ childLinks s = [] then startTree s else s

/-- LOAD_COMPLETE (R263, R265): the checks after writing. GLB_SCHED_STATUS.table_ok says that those of R89 passed, whatever
a later check finds. -/
def loadComplete (s : State) : State :=
  if ldState s = 5 then
    let ns := clustersOf (reachList s.ld.reaches)
    let code := postCode s s.ld.units ns ns none
    let s := setBit s R.glbSchedStatus 0 (code == 0 || decide (0x13 ≤ code))
    if code = 0 then loaded (anchorBits s) s else failLoad code s
  else s

/-- LOAD_COMPLETE (R265). -/
def execLoadComplete (s : State) : Out := .next (loadComplete s)

/-- RELEASE_STEP (R267): accepted in manual mode, after ec 0 has started, for at most three stages. -/
def releaseStep (s : State) : State :=
  if bit s R.ldRelCfg 31 ∧ s.sched.run ≠ .notStarted ∧ s.sched.stage + s.sched.stageReqs < 3 then
    { s with sched := { s.sched with stageReqs := s.sched.stageReqs + 1 } }
  else ldLocked s

/-- RELEASE_STEP (R267). -/
def execReleaseStep (s : State) : Out := .next (releaseStep s)

/-! ## The scrubber (R271, R272) -/

/-- Reads of one pass: 512 × 1,024 words of 12 bytes and 1,024 of 8 bytes. -/
def passReads : Nat := 787456

/-- Byte `p` of a pass over a cluster. -/
def scrubByte (c : Cluster) (p : Nat) : Byte :=
  if p < 6291456 then BitVec.ofNat 8 (bitsOf (insnAt c (p / 12 / 1024) (p / 12 % 1024)) (8 * (p % 12)) 8)
  else BitVec.ofNat 8 (bitsOf (dword c.dict ((p - 6291456) / 8)) (8 * (p % 8)) 8)

/-- The scrubber runs on cluster `n`: it is on, and the memories are valid and not being written. -/
def scrubs (s : State) (n : Nat) : Bool := bit s R.ldScrubCtrl 31 && reachValid s (n / 8) && clusterOn s n

/-- SCRUB_READ (R271): the next 64 bits enter the signature. -/
def scrubRead (n : Nat) (s : State) : State :=
  let p := look (fun _ => 0) s.ld.scrubPos n
  if scrubs s n ∧ p < passReads then
    let bs := (List.range 8).map fun i => scrubByte (clu s n) (8 * p + i)
    let crc := BitVec.ofNat 64 (crcMsb 64 0x42F0E1EBA9EA3693 (dword s.ld.scrubCrc n).toNat bs)
    setLd { s.ld with scrubPos := put (fun _ => 0) s.ld.scrubPos n (p + 1), scrubCrc := setDword s.ld.scrubCrc n crc } s
  else s

/-- SCRUB_READ (R271). -/
def execScrubRead (n : Fin 128) (s : State) : Out := .next (scrubRead n.val s)

/-- SCRUB_PASS_END (R272): the signature is compared with GOLDEN, and the next pass starts. -/
def scrubPassEnd (n : Nat) (s : State) : State :=
  if scrubs s n ∧ look (fun _ => 0) s.ld.scrubPos n = passReads then
    let crc := dword s.ld.scrubCrc n
    let good := crc == dword s.ld.golden n
    let s := setLd { s.ld with
      scrubPos := put (fun _ => 0) s.ld.scrubPos n 0, scrubCrc := setDword s.ld.scrubCrc n 0
      scrubSig := setDword s.ld.scrubSig n crc
      scrubPasses := put (fun _ => 0) s.ld.scrubPasses n (satAdd 16 (look (fun _ => 0) s.ld.scrubPasses n) 1) } s
    if good then s else signal (n / 8) n (setBit s R.ldScrubStatus (n / 8) true)
  else s

/-- SCRUB_PASS_END (R272). -/
def execScrubPassEnd (n : Fin 128) (s : State) : Out := .next (scrubPassEnd n.val s)

end Sys2Proof.Machine
end

