-- ==== Sys2Proof/Machine/Reload.lean ====
section
/-! DEFINITION. Reach reload (R273 to R278): leaving the run, the window, the stream, the join, breakwater launches; the
reload feed of Harbour (R236) and failed DMA reads (R398). -/
namespace Sys2Proof.Machine

/-! ## Go and leaving the run (R273, R274) -/

/-- The reach of LD_RELOAD_CFG, the source, and LD_RELOAD_STATUS.state. -/
def rlReach (s : State) : Nat := bits s R.ldReloadCfg 0 4
def rlSource (s : State) : Nat := bits s R.ldReloadCfg 30 2
def rlState (s : State) : Nat := bits s R.ldReloadStatus 28 4

/-- A discarded write (LD_RELOAD_STATUS.wr_locked). -/
def rlLocked (s : State) : State := setBit s R.ldReloadStatus 27 true

/-- Replace the reload's state; LD_RELOAD_FREE.free follows the window. -/
def setRl (x : Reload) (s : State) : State := setBits { s with rl := x } R.ldReloadFree 0 13 (4096 - x.window.length)

/-- The reach leaves the run: its cells latch and take over, and its cluster NIs are quiesced. -/
def leaveRun (s : State) : State :=
  let r := rlReach s
  let s := raiseBreakwater r false s
  let s := setRl { s.rl with left := true, leaving := false } s
  forUpTo 8 (fun k acc => setBit acc (R.wfNiCtrl (8 * r + k)) 0 true) s

/-- The four conditions of R273. A STOPPED device is neither running nor frozen (log entry 24). -/
def reloadMayGo (s : State) : Bool :=
  (s.sched.run == .running || s.sched.run == .frozen) && ldState s == 7 && !reloadInProgress s && rlSource s != 3 &&
    reachValid s (rlReach s) && !inHold s (rlReach s)

/-- RELOAD_GO (R273): a frozen device lets the reach leave at once. -/
def reloadGo (s : State) : State :=
  if reloadMayGo s then
    let s := setBits (setBits s R.ldReloadStatus 28 4 1) R.ldReloadStatus 16 8 0
    let s := setRl { leaving := true, cells := s.rl.cells } s
    if s.sched.run = .frozen then leaveRun s else s
  else rlLocked s

/-- RELOAD_GO (R273). -/
def execReloadGo (s : State) : Out := .next (reloadGo s)

/-- RELOAD_LEAVE_RUN (R274): at the milestone point, or while frozen. -/
def reloadLeaveRun (s : State) : State :=
  if s.rl.leaving ∧ (s.sched.run = .frozen ∨ atMilestonePoint s) then leaveRun s else s

/-- RELOAD_LEAVE_RUN (R274). -/
def execReloadLeaveRun (s : State) : Out := .next (reloadLeaveRun s)

/-! ## The stream (R275) -/

/-- The reload ends unless the code is 0. -/
def failUnless (code : Nat) (k : State → State) (s : State) : State := if code = 0 then k s else reloadFails code s

/-- The image is a reload image of this reach under the running contract. -/
def reloadMatches (s : State) (d : List Byte) : Bool :=
  reloadImage d && imageContract d == s.ld.contract && dirReaches d (ownOrdinal s) == 2 ^ rlReach s

/-- Header and table, once they have arrived; a table of a stream without reload flag is read as a whole image's. -/
def reloadTable (s : State) : State :=
  let d := s.rl.data
  if !headerHere d then s
  else failUnless (headerCode s true d) (fun s =>
    if !tableHere d then s
    else failUnless (tableCode s (reloadImage d) d) (fun s =>
      failUnless (if reloadMatches s d then 0 else 0x18) (fun s => setRl { s.rl with tableOk := true } s) s) s) s

/-- The registers of the reach return to reset (R429): its cluster, swell-map and bank registers. -/
def resetReachRegs (r : Nat) (s : State) : State :=
  let gone := fun (a : Nat) => match regFamily a with
    | some (base, i :: _) =>
      ((routesRegs ++ bankCluRegs).contains base && i / 8 == r) || (base == R.bankOwner 0 && i / 16 == r)
    | _ => false
  let s := { s with
    regs := s.regs.filter fun x => !gone x.1
    banks := { s.banks with handovers := s.banks.handovers.filter fun h => h.bank / 16 ≠ r } }
  forUpTo 16 (fun k acc =>
    let a := R.bankCfg (16 * r + k)
    setBits (setBits acc a 25 3 1) a 0 3 (bitsOf (resetWord a) 0 3)) s

/-- A LEGS record equals the present value of its register, as far as a write of it shows. -/
def recordPresent (s : State) (x : Word × Word) : Bool :=
  match regAt x.1.toNat with
  | some (g, _) => writtenWord g (reg s x.1.toNat) x.2 == reg s x.1.toNat
  | none => false

/-- The LEGS section of a reload (R275): the code that ends it. -/
def legsCode (s : State) (bs : List Byte) : Nat :=
  let rs := recordsOf bs
  let named := rs.map fun x => x.1.toNat
  let needed := R.glbSchedDepth :: ((List.range 32).filter fun k => bit s (R.glbLeg k) 31).map R.glbLeg
  if bs.length % 8 ≠ 0 ∨ ¬ rs.all (recordGood 2 (rlReach s) 0 s.ld.contract) = true then 0x0F
  else if rs.all (recordPresent s) && needed.all named.contains then 0 else 0x18

/-- One section is written: the code that ends the reload, 0 when it is good (R255, R256, R275). -/
def writeReloadSection (x : Descriptor) (bs : List Byte) (s : State) : Nat × State :=
  let r := rlReach s
  let rs := recordsOf bs
  match x.type with
  | 2 => (legsCode s bs, s)
  | 4 =>
    if bs.length % 8 ≠ 0 ∨ ¬ rs.all (recordGood 4 r 0 s.ld.contract) = true then (0x0F, s)
    else (0, setRl { s.rl with flows := rs } s)
  | 7 => if bs.length = 64 then (0, setRl { s.rl with golden := goldenOf r bs [] } s) else (0x0F, s)
  | 0 => writeSection x bs s
  | 1 => writeSection x bs s
  | t => writeRecordSection t r 0 s.ld.contract bs s

/-- The first section, BANKS: the checks before writing, and the registers of the reach return to reset. -/
def stageReload (bs : List Byte) (s : State) : State :=
  if s.rl.stagedOk then s
  else failUnless (stagedCode s s.rl.data fun _ => bs)
    (fun s => resetReachRegs (rlReach s) (setRl { s.rl with stagedOk := true } s)) s

/-- The sections of the stream not yet written, in stream order. -/
def reloadLeft (s : State) : List (Nat × Descriptor) :=
  (ownSections s s.rl.data).filter fun y => !s.rl.written.contains y.1

/-- One section that has arrived whole: hash, then writing. A ROUTES section waits for firmware (R139). -/
def reloadSection (s : State) : State :=
  match reloadLeft s with
  | [] => s
  | (i, x) :: _ =>
    if s.rl.data.length < x.offset + x.length ∨ (x.type = 3 ∧ firmwareRuns s = false) then s
    else
      let bs := bytesAt s.rl.data x.offset x.length
      if !hashGood x bs then reloadFails 0x19 s
      else
        let s := stageReload bs s
        if rlState s ≠ 2 then s
        else
          let w := writeReloadSection x (plainBytes s s.rl.data i x bs) s
          failUnless w.1 (fun s => setRl { s.rl with written := s.rl.written ++ [i], good := s.rl.good ++ [i] } s) w.2

/-- The loader does what the bytes consumed so far allow; the last section written leads to state checking. -/
def reloadAdvance (s : State) : State :=
  let step := fun (s : State) => if rlState s = 2 ∧ s.rl.tableOk then reloadSection s else s
  let s := if rlState s = 2 ∧ s.rl.tableOk = false then reloadTable s else s
  let s := forUpTo (ownSections s s.rl.data).length (fun _ acc => step acc) s
  if rlState s = 2 ∧ s.rl.tableOk ∧ reloadLeft s = [] then setBits s R.ldReloadStatus 28 4 3 else s

/-- The loader consumes the window in state receiving; bytes beyond the stream's length are ignored (R276). -/
def consumeWindow (s : State) : State :=
  if rlState s = 2 then
    let d := s.rl.data ++ s.rl.window
    let d := if headerHere d then d.take (imageLength d) else d
    reloadAdvance (setRl { s.rl with data := d, window := [] } s)
  else s

/-- RELOAD_RECEIVING (R273): the NIs of the reach are quiet; it goes to HOLD, its banks are cleared, and the stream is
consumed. -/
def reloadReceiving (s : State) : State :=
  let r := rlReach s
  if rlState s = 1 ∧ s.rl.left ∧ ((List.range 8).all fun k => bit s (R.wfNiStatus (8 * r + k)) 31) = true then
    let s := clearBanks r (invalidate r (enterHold r s))
    consumeWindow (setBits (setRl { s.rl with left := false } s) R.ldReloadStatus 28 4 2)
  else s

/-- RELOAD_RECEIVING (R273). -/
def execReloadReceiving (s : State) : Out := .next (reloadReceiving s)

/-- SECTION_RECEIVED (R253, R275): a whole-device load or a reload checks its next section. -/
def execSectionReceived (s : State) : Out := .next (reloadAdvance (sectionReceived s))

/-- LOAD_WRITE (R263, R275): the loader writes what it holds. -/
def execLoadWrite (s : State) : Out := .next (reloadAdvance (loadWrite s))

/-! ## The window (R276) -/

/-- Bytes enter the window from go on, in states entering HOLD and receiving. -/
def windowTakes (s : State) : Bool := rlState s == 1 || rlState s == 2

/-- Bytes enter the window. -/
def windowAppend (bs : List Byte) (s : State) : State := consumeWindow (setRl { s.rl with window := s.rl.window ++ bs } s)

/-- A discarded window write: counted, and RELOAD_OVERRUN. -/
def windowOverrun (source : Nat) (s : State) : State := signal 235 source (bumpBits s R.ldReloadFree 16 16 1)

/-- RELOAD_WINDOW_WRITE (R276): a Harbour write waits until it fits. A write outside a reload is dropped (log entry 25). -/
def reloadWindowWrite (source : Nat) (v : Word) (s : State) : State :=
  if rlSource s ≠ source then windowOverrun source s
  else if !windowTakes s then s
  else if 4096 < s.rl.window.length + 4 then (if source = 2 then s else windowOverrun source s)
  else windowAppend (bytesLE 4 v.toNat) s

/-- RELOAD_WINDOW_WRITE (R276). -/
def execReloadWindowWrite (source : Fin 3) (value : Word) (s : State) : Out :=
  let t := reloadWindowWrite source.val value s
  .next (if source.val = 2 then t else performed (if source.val = 0 then .host else .lighthouse) s t)

/-- RELOAD_END (R276). -/
def reloadEnd (s : State) : State :=
  let d := s.rl.data ++ s.rl.window
  if windowTakes s ∧ (headerHere d = false ∨ d.length < imageLength d) then reloadFails 0x16 s else s

/-- RELOAD_END (R276). -/
def execReloadEnd (s : State) : Out := .next (reloadEnd s)

/-- RELOAD_ABORT (Table 10.12). -/
def reloadAbort (s : State) : State := if reloadInProgress s then reloadFails 0x17 s else s

/-- RELOAD_ABORT (R278). -/
def execReloadAbort (s : State) : Out := .next (reloadAbort s)

/-! ## Check, plan, ready and join (R275, R277, R147) -/

/-- RELOAD_CHECKED (R275): the checks after writing, over the buffers that launch from or into the reach. Whether the reach
may hold an HSEND (R74) is told by the directory entry of the reload stream itself: DESIGN CHOICE, unsafe (log entry 82). -/
def reloadChecked (s : State) : State :=
  if rlState s = 3 ∧ s.rl.checked = false then
    let r := rlReach s
    let all := clustersOf ((List.range 16).filter fun q => reachValid s q || q == r)
    failUnless (postCode s (dirUnits s.rl.data (ownOrdinal s)) (clustersOf [r]) all (some r))
      (fun s => setRl { s.rl with checked := true, anchors := anchorBits s } s) s
  else s

/-- RELOAD_CHECKED (R275). -/
def execReloadChecked (s : State) : Out := .next (reloadChecked s)

/-- A VC0 flow starts in reach `r`, or is an inbound link flow to a cluster of it. -/
def flowOfReach (r : Nat) (x : Word × Word) : Bool :=
  if x.1.getLsbD 0 then bitsOf x.1 8 8 / 8 == r else bitsOf x.1 16 8 / 8 == r

/-- SLOT_PLAN (R147, R149): firmware plans both banks during a load, and the standby bank for a reload, which keeps the
flows of the other reaches in place. -/
def slotPlan (s : State) : State :=
  if !firmwareRuns s then s
  else if [4, 5, 6].contains (ldState s) then runPlanner [] s.ld.flows [0, 1] (setLd { s.ld with flowSlots := [] } s)
  else if rlState s = 3 ∧ s.rl.checked ∧ ¬ bit s R.wfSlotCtrl 0 then
    let kept := s.ld.flows.filter fun x => !flowOfReach (rlReach s) x
    let s := runPlanner kept s.rl.flows [(!s.net.activeBank).toNat] s
    setRl { s.rl with planned := true } s
  else s

/-- SLOT_PLAN (R147). -/
def execSlotPlan (s : State) : Out := .next (slotPlan s)

/-- RELOAD_READY (R277): the plan is written and the switch requested. -/
def reloadReady (s : State) : State :=
  if rlState s = 3 ∧ s.rl.checked ∧ s.rl.planned ∧ bit s R.wfSlotCtrl 0 then
    raiseCause 34 (setBits s R.ldReloadStatus 28 4 4)
  else s

/-- RELOAD_READY (R277). -/
def execReloadReady (s : State) : Out := .next (reloadReady s)

/-- RELOAD_JOIN (R277). -/
def reloadJoin (s : State) : State := if reloadInProgress s then setRl { s.rl with joinReq := true } s else s

/-- RELOAD_JOIN (R277). -/
def execReloadJoin (s : State) : Out := .next (reloadJoin s)

/-- The reach joins at the milestone that comes (R277). -/
def reloadJoins (s : State) : Bool := rlState s == 4 && (bit s R.ldReloadCfg 29 || s.rl.joinReq)

/-- A requested slot switch belongs to a reload that does not join yet (R149). -/
def switchWaits (s : State) : Bool := reloadInProgress s && s.rl.planned && !reloadJoins s

/-- The reload switch-in (Table 4.3, R277): the reach runs from the next ec on, at its milestone of this one. -/
def switchIn (s : State) : State :=
  let r := rlReach s
  let x := s.rl
  let s := startReach r s
  let s := forUpTo 8 (fun k acc => setClu acc (8 * r + k) { clu acc (8 * r + k) with walk := .milestone 48 }) s
  let s := setAnchors x.anchors (setBit s R.ldReach r true)
  let golden := x.golden.foldl (fun m y => setDword m y.1 y.2) s.ld.golden
  let golden := (List.range 8).foldl (fun m k => setDword m (8 * r + k) (dword x.golden (8 * r + k))) golden
  let s := setLd { s.ld with golden := golden, flows := (s.ld.flows.filter fun y => !flowOfReach r y) ++ x.flows } s
  let s := dropBreakwater r (startScrub r s)
  let s := setRl { cells := s.rl.cells } s
  let s := setBits (setBits s R.ldReloadStatus 28 4 0) R.ldReloadStatus 16 8 0
  forUpTo 8 (fun k acc => niCtrlWrite (8 * r + k) false acc) s

/-! ## Breakwater launches (R274) -/

/-- The latched buffer `w` of cluster `n`, and the cells of its reach. -/
def latchedBuffer (s : State) (n w : Nat) : Option (Breakwater × LatchedBuffer) :=
  (find s.rl.cells (n / 8)).bind fun b =>
    (b.buffers.find? fun x => x.cluster == n && x.buffer == w).map fun x => (b, x)

/-- The word that a cell launches (vc0_mode). -/
def cellWord (s : State) (x : LatchedBuffer) : DWord :=
  let r := x.cluster / 8
  if bit s (R.ldBwCfg r) 31 then ofHalves (reg s (R.ldBwConstLo r)) (reg s (R.ldBwConstHi r)) else x.word

/-- Hop codes of latched route words. -/
def latchedCodes (route : List Word) : List Nat :=
  (List.range (bitsOf (route.getD 0 0) 24 5)).map fun i =>
    if i < 10 then bitsOf (route.getD 1 0) (3 * i) 3
    else if i < 20 then bitsOf (route.getD 2 0) (3 * (i - 10)) 3
    else bitsOf (route.getD 3 0) (3 * (i - 20)) 3

/-- A launch of a latched buffer by its latched route; an unusable entry is a misroute as for any launch (R425). -/
def launchLatched (x : LatchedBuffer) (w : DWord) (s : State) : State :=
  let w0 := x.route.getD 0 0
  let w3 := x.route.getD 3 0
  let n := x.cluster
  if w0.getLsbD 31 ∧ bitsOf w0 29 2 = 0 ∧ bitsOf w0 16 8 ≤ 147 then
    let p := mkPacket 0 0 (latchedCodes x.route) n (bitsOf w0 16 8) (bitsOf w0 8 8) 0 (bitsOf w3 16 5 - bitsOf w3 8 5) [w]
    setNi s n { ni s n with sourceHold := (ni s n).sourceHold ++ [⟨p, routerPeriods s (routerOfNi s n) + bitsOf w3 8 5⟩] }
  else signal 221 n s

/-- A cell has launched a buffer in this ec. -/
def markLaunched (b : Breakwater) (n w : Nat) (s : State) : State :=
  { s with rl := { s.rl with cells := enter s.rl.cells (n / 8) { b with launched := (n, w) :: b.launched } } }

/-- The leg of a latched launch step runs in this ec. -/
def latchedLegRan (s : State) (x : LatchedBuffer) : Bool :=
  match legOf s (bitsOf x.cfg 16 10) with
  | some k => s.sched.ranLegs.contains k
  | none => false

/-- BREAKWATER_LAUNCH (R274): once in each ec in which the launch leg runs. -/
def breakwaterLaunch (n w : Nat) (s : State) : State :=
  match latchedBuffer s n w with
  | none => s
  | some (b, x) =>
    if s.sched.run == .running && latchedLegRan s x && !b.launched.any (· == (n, w)) then
      launchLatched x (cellWord s x) (markLaunched b n w s)
    else s

/-- BREAKWATER_LAUNCH (R274). -/
def execBreakwaterLaunch (n : Fin 128) (w : Fin 32) (s : State) : Out := .next (breakwaterLaunch n.val w.val s)

/-- Every cell may launch again in the new ec. -/
def newCellEc (s : State) : State :=
  { s with rl := { s.rl with cells := s.rl.cells.map fun x => (x.1, { x.2 with launched := [] }) } }

/-! ## Reload feed (R236) -/

/-- A VC1 write that waits for the reload window, and finds room there, or needs none because the window does not take it. -/
def windowRequest (s : State) : Option Packet :=
  (ni s 135).requests.find? fun p => headDst p.head == 155 &&
    (!windowTakes s || rlSource s != 2 || decide (s.rl.window.length + 8 * 2 ^ bitsOf (p.payload.headD 0) 60 2 ≤ 4096))

/-- The window takes a VC1 write of Harbour and answers it (R236, R276): the words after the header enter in order. Without the
port assigned the write is discarded and counted; outside a reload it is dropped as any write of the window (log entry 25). -/
def windowServe (p : Packet) (s : State) : State :=
  let x := ni s 135
  let s := setNi s 135 { x with requests := x.requests.erase p }
  let bs := ((p.payload.drop 1).take (2 ^ bitsOf (p.payload.headD 0) 60 2)).flatMap fun w => bytesLE 8 w.toNat
  let s := if rlSource s ≠ 2 then windowOverrun 2 s else if windowTakes s then windowAppend bs s else s
  respond 135 p 3 [] s

/-- The feed begins (R236, R239). -/
def feedStart (x : HbAction) (s : State) : State :=
  let a := slotValue x.task 0
  let st := rangeStatus s false a (slotValue x.task 1)
  if st ≠ 0 then setAction x (.ended st) (refuseRange a st s)
  else setAction x (if rlSource s ≠ 2 then .ended 5 else .moving 0) s

/-- RELOAD_FEED (R236): the window takes a write of the feed that waits, or the feed's task does its next step. -/
def reloadFeed (s : State) : State :=
  match windowRequest s with
  | some p => windowServe p s
  | none =>
    match movable s 3 with
    | none => s
    | some x => if x.phase = .waiting then feedStart x s else moveOn x s

/-- RELOAD_FEED (R236). -/
def execReloadFeed (s : State) : Out := .next (reloadFeed s)

/-! ## Failed DMA reads (R398) -/

/-- DMA_ERROR (R398): causes 0 and 5 to 7 name no failed read, a device that may issue no request has none (R399), and while
timeouts are disabled none of those comes (Table 16.1). -/
def dmaError (purpose : DmaPurpose) (cause : Nat) (s : State) : State :=
  if cause = 0 ∨ 4 < cause ∨ !busMaster s ∨ (cause = 3 ∧ timeoutsOff s) then s
  else match purpose with
    | .loader =>
      if ldMode s = 0 ∧ s.ld.going ∧ sourceStopped s = false then fetchFailed 1 (sectionHere s) (dmaFault 0 cause true false s)
      else s
    | .ringOperand k irq =>
      if k.val < 16 ∧ ringReady s k.val then operandError k.val irq (dmaFault k.val cause false false s) else s
    | .ringDescriptor k => if ringReady s k.val then haltRing k.val (dmaFault k.val cause false true s) else s

/-- DMA_ERROR (R398). -/
def execDmaError (purpose : DmaPurpose) (cause : Fin 8) (s : State) : Out := .next (dmaError purpose cause.val s)

end Sys2Proof.Machine
end

