-- ==== Sys2Proof/Machine/Shore.lean ====
section
/-! DEFINITION. The shore balls: straps, tides, what a ball drives, phase strobes and shore words (R349, R407 to R414,
Table 10.11). -/
namespace Sys2Proof.Machine

/-! ## Straps and signals (R407, R408) -/

/-- Phase count P and phase period T in ns (Table 17.6); straps bit i is SHORE[72 + i]. -/
def phaseCount (s : State) : Nat := 2 ^ bitsOf s.die.straps 6 2
def phasePeriod (s : State) : Nat := 20 * 2 ^ bitsOf s.die.straps 2 2

/-- Cluster of a ball, and its shore signal in a phase. -/
def ballCluster (b : Nat) : Nat := b / 4
def ballSignal (b p : Nat) : Nat := 4 * p + b % 4

/-! ## What a ball drives -/

/-- State of a ball: high impedance, 0 or 1. -/
inductive BallDrive where
  | z
  | low
  | high
  deriving DecidableEq, Repr

/-- A driven level. -/
def drives (b : Bool) : BallDrive := if b then .high else .low

/-- FLT_SAFE of a ball; 3 acts as 0 (chapter 14). -/
def safeValue (s : State) (b : Nat) : BallDrive :=
  match bits s (R.fltSafe (b / 16)) (2 * (b % 16)) 2 with
  | 1 => .low
  | 2 => .high
  | _ => .z

/-- The safe state holds, or has been released and waits for the next milestone (R349). -/
def shoreSafe (s : State) : Bool := s.flt.safe || s.flt.releasing

/-- SHORE[71:0] serve the load bus: from the arm in mode 2 until ec 0 starts (R268), on a device whose strap SHORE[72] is 1
(R414). -/
def loadBus (s : State) : Bool := s.die.straps.getLsbD 0 && ldMode s == 2 && (s.ld.going || s.ld.doneBall || s.ld.failBall)

/-- The loader takes a word from the load bus. -/
def loadReady (s : State) : Bool := s.ld.going && s.ld.endAt.isNone && !sourceStopped s && childrenTake s 8

/-- A ball of the load bus (R268). -/
def loadBall (s : State) (b : Nat) : BallDrive :=
  match b with
  | 67 => drives (loadReady s)
  | 68 => drives s.ld.rewindBall
  | 69 => drives (s.ld.doneBall && !s.ld.going)
  | 70 => drives (s.ld.failBall && !s.ld.going)
  | _ => .z

/-- The design's value and enable for a ball in a phase of a tide (R409). -/
def designDrive (t : Tide) (b p : Nat) : BallDrive :=
  let w := dword t.drive (ballCluster b)
  let j := ballSignal b p
  if w.getLsbD (32 + j) then drives (w.getLsbD j) else .z

/-- The design drives a ball in a tide: from release stage 1 on, while the reach runs and no safe state holds. -/
def designDrives (s : State) (t : Tide) (b : Nat) : Bool :=
  t.open_ && reachRuns s (b / 32) && !shoreSafe s && !(decide (b < 72) && loadBus s)

/-- Code of a drive in `Shore.carried` and `Shore.kept`. -/
def driveCode : BallDrive → Nat
  | .low => 1
  | .high => 2
  | .z => 3

/-- The drive of a ball by its code; 0 stands for the ball's FLT_SAFE value. -/
def codeDrive (s : State) (b code : Nat) : BallDrive :=
  match code with
  | 0 => safeValue s b
  | 1 => .low
  | 2 => .high
  | _ => .z

/-- What a ball last carried in a phase under the design's drive; 0 stands for its safe value (Table 10.11, mode 1). -/
def heldCode (s : State) (b p : Nat) : Nat := look (fun _ => 0) s.shore.carried (8 * b + p)

/-- A ball of a reach under breakwater cells, as a code (Table 10.11, R350). -/
def cellCode (s : State) (x : Breakwater) (b p : Nat) : Nat :=
  if x.safe then 0
  else match bits s (R.ldBwCfg (b / 32)) 29 2 with
    | 0 => 0
    | 1 => heldCode s b p
    | 2 => 1
    | _ => 2

/-- A ball in a phase of a tide, but for the safe state and the load bus, as a code (R409, Table 10.11). -/
def phaseCode (s : State) (t : Tide) (b p : Nat) : Nat :=
  if reachRuns s (b / 32) then (if t.open_ && (find s.rl.cells (b / 32)).isNone then driveCode (designDrive t b p) else 0)
  else match find s.rl.cells (b / 32) with
    | some x => cellCode s x b p
    | none => 0

/-- A ball between tides, as a code: a reach that runs keeps the state of the last phase of the last tide, whatever its cells
or its design gave then (R409). -/
def betweenCode (s : State) (b : Nat) : Nat :=
  if reachRuns s (b / 32) then look (fun _ => 0) s.shore.kept b
  else match find s.rl.cells (b / 32) with
    | some x => cellCode s x b (phaseCount s - 1)
    | none => 0

/-- What ball `b` drives now. The safe state comes before everything else (log entry 27). -/
def ballNow (s : State) (b : Nat) : BallDrive :=
  if shoreSafe s then safeValue s b
  else if b < 72 ∧ loadBus s then loadBall s b
  else codeDrive s b (match s.shore.tide with
    | some (t, p) => phaseCode s t b p
    | none => betweenCode s b)

/-- A shore load is in progress (R268): from the arm in mode 2 until the load ends. -/
def shoreLoads (s : State) : Bool := s.die.straps.getLsbD 0 && ldMode s == 2 && s.ld.going

/-- A phase strobe as it stands on its ball: 0 in a safe state and during a shore load (R412). -/
def strobeNow (s : State) (g : Nat) : Bool := s.shore.strobes.getLsbD g && !s.flt.safe && !shoreLoads s

/-! ## Tides (R408 to R412) -/

/-- Replace the shore. -/
def setShore (x : Shore) (s : State) : State := { s with shore := x }

/-- TIDE_START (R408): the oldest tide that waits starts once no tide runs; none starts while the device is frozen (Table
17.8). -/
def tideStart (s : State) : State :=
  match s.shore.tide, s.shore.waiting with
  | none, t :: rest =>
    if s.sched.run = .frozen then s
    else setShore { s.shore with tide := some (t, 0), waiting := rest, forming := [], strobes := 0 } s
  | _, _ => s

/-- TIDE_START (R408). -/
def execTideStart (s : State) : Out := .next (tideStart s)

/-- PHASE_STROBE_RISE (R412): the second half of a phase; `strobeNow` holds the balls at 0 in a safe state and a shore
load. -/
def strobeRise (s : State) : State :=
  if s.shore.tide.isSome then setShore { s.shore with strobes := 0xF } s else s

/-- PHASE_STROBE_RISE (R412). -/
def execPhaseStrobeRise (s : State) : Out := .next (strobeRise s)

/-- What the balls carried in a phase under the design's drive is remembered. -/
def rememberPhase (s : State) (t : Tide) (p : Nat) : Sparse Nat :=
  (List.range 512).foldl (fun m b =>
    if designDrives s t b then put (fun _ => 0) m (8 * b + p) (driveCode (designDrive t b p)) else m) s.shore.carried

/-- The samples of a phase enter the words of all clusters (R410). -/
def samplePhase (forming : Sparse DWord) (levels : BitVec 512) (p : Nat) : Sparse DWord :=
  (List.range 128).foldl (fun m n => setDword m n (withBits (dword m n) (4 * p) 4 (bitsOf levels (4 * n) 4))) forming

/-- The sample of ball `b`: the level that the device or the target drives, or that the board pulls when neither does. A
ball that no party holds, or that device and target drive to opposite levels, gives the bit of `free`: the manual defines
none (log entry 58). -/
def sampleBall (s : State) (x : ShoreIn) (free : BitVec 512) (b : Nat) : Bool :=
  let level := x.levels.getLsbD b
  match ballNow s b with
  | .z => if x.driven.getLsbD b || x.pulled.getLsbD b then level else free.getLsbD b
  | d => if x.driven.getLsbD b && level != (d == .high) then free.getLsbD b else d == .high

/-- The samples of all balls. -/
def sampleBalls (s : State) (x : ShoreIn) (free : BitVec 512) : BitVec 512 :=
  (List.range 512).foldl (fun w b => if sampleBall s x free b then withBit w b true else w) 0

/-- The balls at the end of a phase, but for the safe state and the load bus, as codes. -/
def keptCodes (s : State) (t : Tide) (p : Nat) : Sparse Nat :=
  (List.range 512).foldl (fun m b => put (fun _ => 0) m b (phaseCode s t b p)) []

/-- TIDE_PHASE_END (R410): the balls are sampled, and the last phase ends the tide and forms the words. -/
def tidePhaseEnd (x : ShoreIn) (s : State) : State :=
  match s.shore.tide with
  | none => s
  | some (t, p) =>
    let free := takeFree 512 s
    let forming := samplePhase s.shore.forming (sampleBalls s x free.1) p
    let y := { s.shore with forming := forming, carried := rememberPhase s t p, strobes := 0 }
    if p + 1 < phaseCount s then setShore { y with tide := some (t, p + 1) } free.2
    else
      let words := (List.range 128).map fun n => (n, dword forming n)
      setShore { y with tide := none, kept := keptCodes s t p, forming := [], words := words, wordsEc := t.ec } free.2

/-- TIDE_PHASE_END (R410). -/
def execTidePhaseEnd (x : ShoreIn) (s : State) : Out := .next (tidePhaseEnd x s)

/-- Entry 255 of a cluster takes the shore word: it is valid and expected in the tide's ec, and the reach runs. -/
def takesShore (s : State) (n : Nat) : Bool :=
  let e := reg s (R.cluArrEntry n 255)
  e.getLsbD 31 && expected s e && clusterRuns s n && s.shore.wordsEc == s.sched.ec.toNat && s.sched.phase != .milestone

/-- SHORE_WORD_ARRIVAL (R410): the word of the cluster is delivered, or discarded. -/
def shoreWordArrival (n : Nat) (s : State) : State :=
  match find s.shore.words n with
  | none => s
  | some w =>
    let s' := setShore { s.shore with words := drop s.shore.words n } s
    if takesShore s n then setClu s' n (deliverWord s n 255 w (clu s n)) else s'

/-- SHORE_WORD_ARRIVAL (R410). -/
def execShoreWordArrival (n : Fin 128) (s : State) : Out := .next (shoreWordArrival n.val s)

end Sys2Proof.Machine
end

