-- ==== Sys2Proof/Machine/Milestone.lean ====
section
/-! DEFINITION. The milestone sequence (Tables 4.2 and 4.3, R83, R84, R103, R104) and leaving the milestone (R106). -/
namespace Sys2Proof.Machine

/-! ## sc 0: hazards, samples, tokens -/

/-- The current-bank entries of a cluster's instructions of one kind, with the number that each names; a word at or above
the depth is ignored (R88). -/
def entriesNamed (s : State) (c : Cluster) (op : Op) (number : Insn → Nat) : List (Nat × Bool) :=
  (c.imem.filter fun x => insnOp x.2 == op && decide (x.1 % 1024 < depth s)).map fun x => (number x.2, look (fun _ => false) c.cur x.1)

/-- The probe word of a cluster (R83). -/
def probeWord (s : State) (c : Cluster) : DWord :=
  (entriesNamed s c .probe ctlBit).foldl (fun w x => if x.2 then withBit w x.1 true else w) 0

/-- Raised break channels of a cluster (R84). -/
def breakChannels (s : State) (c : Cluster) : BitVec 16 :=
  (entriesNamed s c .brk ctlBreak).foldl (fun w x => if x.2 then withBit w x.1 true else w) 0

/-- Probe words and break channels are sampled. -/
def sampleProbes (s : State) : State :=
  let probes := s.clusters.foldl (fun m x => setDword m x.1 (probeWord s x.2)) []
  let breaks := s.clusters.foldl (fun w x => w ||| breakChannels s x.2) (0 : BitVec 16)
  setSched { s.sched with probes := probes, breaks := breaks } s

/-- The shore signals of a cluster: values in [31:0], enables in [63:32] (R409). -/
def shoreSignals (s : State) (c : Cluster) : DWord :=
  (List.range 64).foldl (fun w j => withBit w j (entry c.cur (448 + j) (depth s - 1))) 0

/-- The shore outputs are sampled for the next tide. -/
def sampleShore (s : State) : State :=
  let m := (runningClusters s).foldl (fun m n => setDword m n (shoreSignals s (clu s n))) []
  { s with shore := { s.shore with sampled := m } }

/-- Freeze requests of the milestone of ec `e` that come from freeze_at (R281) and from a step count (R280). -/
def dueFreezes (e : Nat) (s : State) : State :=
  let s := if bit s R.trgFreezeAtHi 31 ∧ freezeAtCount s = e % 2 ^ 48 then freezeRequest 1 s else s
  match s.sched.stepsLeft with
  | some (n + 1) =>
    let s := setSched { s.sched with stepsLeft := some n } s
    if n = 0 then freezeRequest 2 s else s
  | _ => s

/-- The token of ec `e` goes out, or the hold marker in its place (R108, R283). -/
def sendToken (e : Nat) (s : State) : State :=
  let freeze := s.sched.freezeReq
  sendTokens freeze e (setSched { s.sched with held := if freeze then some e else none } s)

/-! ## sc 0 to 31: bank copy -/

/-- Every current bank is copied into its previous bank (R16), those of a reach that has left the run too. -/
def copyBanks (s : State) : State := mapClusters (fun c => { c with prev := c.cur }) s

/-! ## sc 32 to 39: actions (Table 4.3) -/

/-- The legs of a force entry whose swell flags a change sets: those that hold the step of an enabled form (R55). -/
def forceLegs (s : State) (old new : Word) : BitVec 32 :=
  if old = new then 0
  else [old, new].foldl (fun w x => if x.getLsbD 31 then
    match legOf s (bitsOf x 0 10) with
    | some k => withBit w k true
    | none => w
    else w) 0

/-- The force entries of a cluster take the values last written (R55). -/
def applyForces (s : State) (n : Nat) (c : Cluster) : Cluster :=
  let new := listed s (R.cluForce n 0) 64
  let changed := (List.range 64).foldl (fun w f =>
    w ||| forceLegs s (look (fun _ => 0) c.forces f) (look (fun _ => 0) new f)) 0
  addSwell s changed { c with forces := new.foldl (fun m x => put (fun _ => 0) m x.1 x.2) [] }

/-- Order 1: force-overlay changes, in every cluster (R55): a reach that joins at this milestone has them too (R104). -/
def forceAction (s : State) : State := forUpTo 128 (fun n acc => setClu acc n (applyForces s n (clu s n))) s

/-- Order 4: the next release stage (R267), one at a milestone (log entry 28). -/
def releaseAction (e : Nat) (s : State) : State :=
  let g1 := bits s R.ldRelCfg 20 10
  let g2 := g1 + max 1 (bits s R.ldRelCfg 10 10)
  let g3 := g2 + max 1 (bits s R.ldRelCfg 0 10)
  let x := s.sched
  if 3 ≤ x.stage then s
  else if bit s R.ldRelCfg 31 then
    if 0 < x.stageReqs then setSched { x with stage := x.stage + 1, stageReqs := x.stageReqs - 1 } s else s
  else if [g1, g2, g3].getD x.stage 0 ≤ e then setSched { x with stage := x.stage + 1 } s
  else s

/-- Order 5: the freeze, with every cause that asked for it (R284); a step count ends. -/
def freezeAction (s : State) : State :=
  if s.sched.freezeReq then
    let s := (List.range 9).foldl (fun acc b => if acc.sched.freezeCause.getLsbD b then addCause b acc else acc) s
    let s := if s.sched.freezeCause.getLsbD 1 then setBit s R.trgFreezeAtHi 31 false else s
    setRun .frozen (setSched { s.sched with freezeReq := false, freezeCause := 0, stepsLeft := none } s)
  else s

/-- The milestone actions in the order of Table 4.3. -/
def actions (e : Nat) (s : State) : State :=
  let s := forceAction s
  let s := if switchWaits s then s else switchSlots s
  let s := if reloadJoins s then switchIn s else s
  freezeAction (releaseAction e s)

/-! ## sc 40 to 47: the next ec -/

/-- A cluster at the start of a new ec: what the ec has delivered, written and flagged is forgotten. -/
def newEcCluster (c : Cluster) : Cluster :=
  { c with delivered := [], wrote := [], lastStep := none, nbrOld := 0, mrdReady := [], legFirst := 0, walkLate := 0 }

/-- The ec count rises, wheels advance and SYS values are updated (R33, R91); clock settings apply (R373), and the delay
lists that count milestones owe a tick (R233). -/
def nextEc (e : Nat) (s : State) : State :=
  let s := newCellEc (mapClusters newEcCluster s)
  let s := setSched { s.sched with
    phase := .milestone, ec := BitVec.ofNat 64 (e + 1), edges := wheelEdges s (e + 1), stageShown := s.sched.stage
    ranLegs := [], tokenRaised := false } s
  let s := admitAll s
  let s := { s with
    net := { s.net with wheelsStopped := true }
    flt := { s.flt with releasing := s.flt.releasing && decide (s.sched.stage = 0) } }
  oweTicks true (applyClocks s)

/-- The sequence of Table 4.2 at the milestone of ec `e`. -/
def sequence (e : Nat) (s : State) : State :=
  let s := observe e (sampleShore (sampleProbes s))
  let s := sendToken e (dueFreezes e s)
  nextEc e (actions e (copyBanks s))

/-- The sequence is over: a stop that met it puts the device in FROZEN (R282), or adds its cause to a freeze (R284). -/
def endSequence (s : State) : State :=
  let s1 := setSched { s.sched with inSequence := false, stopMet := none } s
  match s.sched.stopMet with
  | none => s1
  | some b => if s1.sched.run = .frozen then addCause b s1 else stopDevice b s1

/-- MILESTONE (R103): at the milestone point a load that waits for it puts the device in HOLD (R263); else a reach whose
reload starts leaves the run (R273), hazards are raised, and the sequence runs. -/
def milestone (s : State) : State :=
  if !atMilestonePoint s then s
  else if ldState s = 3 ∧ s.ld.held = false then holdAll (raiseHazards s)
  else
    let s := setSched { s.sched with inSequence := true } s
    let s := raiseHazards (if s.rl.leaving then leaveRun s else s)
    endSequence (sequence s.sched.ec.toNat s)

/-- MILESTONE (R103). -/
def execMilestone (s : State) : Out := .next (milestone s)

/-! ## Leaving (R106) -/

/-- Every running cluster has counted its 48 milestone periods, and every token is held. -/
def mayLeave (s : State) : Bool :=
  s.sched.run == .running && s.sched.phase == .milestone && periodsCounted s && (pendingTokens s).isEmpty

/-- The tide of the ec that starts (R408, R409). -/
def queueTide (s : State) : State :=
  let t : Tide := ⟨s.sched.ec.toNat, s.shore.sampled, decide (1 ≤ s.sched.stageShown)⟩
  { s with shore := { s.shore with waiting := s.shore.waiting ++ [t] } }

/-- MILESTONE_LEAVE (R106): the next ec starts with the decision of its first leg. -/
def milestoneLeave (s : State) : State :=
  if mayLeave s then
    let s1 := (runningClusters s).foldl (fun acc n => setClu acc n { clu s n with walk := .transition 0 }) s
    queueTide (setSched { s1.sched with phase := .deciding 0 } s1)
  else s

/-- MILESTONE_LEAVE (R106). -/
def execMilestoneLeave (s : State) : Out := .next (milestoneLeave s)

end Sys2Proof.Machine
end

