-- ==== Sys2Proof/Machine/Reset.lean ====
section
/-! DEFINITION. Cold reset, warm reset, function-level reset and reach reset (R349 to R351, R380 to R384, R400, R428). -/
namespace Sys2Proof.Machine

/-! ## Shared parts -/

/-- A reset of type `type` (1 cold, 2 warm, 3 FLR) with a cause code: PWR_RESET_STATUS and the record of type 0x04. -/
def recordReset (type cause : Nat) (s : State) : State :=
  addRecord 4 (bytesLE 1 type ++ bytesLE 1 cause)
    (setBits (setBits s R.pwrResetStatus 29 3 type) R.pwrResetStatus 26 3 cause)

/-- The scan of BIST phase 0 (R363). -/
def cairnScan (s : State) : State :=
  let s := scanSlots s
  { s with cairn := { s.cairn with queue := [], erasing := false } }

/-- An erase cut short leaves slots below some k cleared (R365): k is a free value (log entry 2). The slots that are left are
those that CAIRN_HEAD shows and the next commit follows (log entry 86). -/
def cutErase (s : State) : State :=
  if s.cairn.erasing then
    let x := takeFree 14 s
    let k := x.1.toNat % 8193
    let nvm : Mem := { s.cairn.nvm with cells := s.cairn.nvm.cells.filter fun c => 64 * k ≤ c.1 }
    scanSlots { x.2 with cairn := { s.cairn with nvm := nvm, erasing := false } }
  else s

/-- A fuse write cut short leaves the old state or the new one (R328, R336): which one is a free value. -/
def cutFuse (s : State) : State :=
  match s.dbg.fuse with
  | none => s
  | some w =>
    let x := takeFree 1 s
    let s := { x.2 with dbg := { x.2.dbg with fuse := none } }
    if x.1 = 0 then s
    else match w with
      | .key k bs => { s with die := { s.die with keys := s.die.keys.set k (some bs) } }
      | .lifeCycle t => { s with dbg := { s.dbg with nextState := some t } }

/-- A march ends: no bank is busy any more. -/
def marchEnds (s : State) : State :=
  setBit (setBit { s with banks := { s.banks with march := none } } R.bankMarchStatus 31 false) R.bankStatus 3 false

/-- A preserving march cut short leaves the bank undefined and sets its flag; a destructive one only leaves it undefined
(R212). -/
def cutMarch (s : State) : State :=
  match s.banks.march with
  | none => s
  | some m =>
    let s := marchEnds s
    let s := if m.preserving then setMarchInt m.service m.bank true s else s
    if m.service then setServiceMem s m.bank (loseContents (serviceMem s m.bank)) else loseBank m.bank s

/-- Every design bank loses its contents; so do the service banks from `k` on. -/
def loseBanks (k : Nat) (s : State) : State :=
  let s := forUpTo 256 loseBank s
  (List.range (16 - k)).foldl (fun acc j => setServiceMem acc (k + j) (loseContents (serviceMem acc (k + j)))) s

/-- Registers of an FLR or warm reset that keep their value beside those of Table 15.7: the flags of MARCH_INTERRUPTED. -/
def marchFlags (s : State) : List Nat × Word :=
  ((List.range 256).filter fun b => bit s (R.bankCfg b) 30, reg s R.bankSvcMarchInt)

/-- Set the march flags. -/
def setMarchFlags (f : List Nat × Word) (s : State) : State :=
  setReg (f.1.foldl (fun acc b => setBit acc (R.bankCfg b) 30 true) s) R.bankSvcMarchInt f.2

/-- The domains that are open, and so close for a warm reset or FLR (R382). -/
def openDomains (s : State) : List Nat := (List.range 28).filter fun d => domainWorks s d

/-- The open channels execute what they hold before they close (R215, R368). -/
def drainChannels (s : State) : State :=
  (openDomains s).foldl (fun acc d => if 16 ≤ d ∧ d < 20 then ddrDrain (d - 16) acc else acc) s

/-- A domain that was open has closed: the banks of a reach go to retention or off (R203) and its routers to 0.8 GHz (R131), and
a channel is in self-refresh (R215). -/
def closedDomain (d : Nat) (s : State) : State :=
  if d < 16 then domainClk d (dropBanks d s)
  else if d < 20 then setBit s (R.ddrChStatus (d - 16)) 30 true
  else s

/-- The channels that are in self-refresh: one that has been closed before stays so (Table 15.7). -/
def refreshing (s : State) : List Nat := (List.range 4).filter fun c => bit s (R.ddrChStatus c) 30
def keepRefresh (cs : List Nat) (s : State) : State := cs.foldl (fun acc c => setBit acc (R.ddrChStatus c) 30 true) s

/-- A warm reset closes every switched domain, which waits to be opened again (R382): the registers of the domains take
their reset values, requests of present units 1. `was` lists the domains that were open. When BIST runs after the reset
(`tested`), every unit that the grade has is opened for it (R355, R359). -/
def closeDomains (tested : Bool) (was : List Nat) (s : State) : State :=
  let s := forUpTo 28 (fun d acc =>
    setReg (setReg acc (R.pwrDomainStatus d) (if domainPresent acc d then 0x10000000 else 0))
      (R.pwrDomainCtrl d) (if domainPresent acc d || (tested && gradeHas acc d) then 0x80000000 else 0)) s
  was.foldl (fun acc d => closedDomain d acc) s

/-- An FLR closes every domain that was open or about to be; requests, flags and failed domains stay (R381, R382). -/
def closeOpen (was : List Nat) (s : State) : State :=
  let s := forUpTo 28 (fun d acc => if [1, 2, 3].contains (domainState acc d) then setDomainState d 0 acc else acc) s
  was.foldl (fun acc d => closedDomain d acc) s

/-- What a warm reset and an FLR do to the state that is no register: Causeway, clusters, network, Harbour, loader, run
state and shore start anew; trace and capture are lost with their domain. -/
def resetUnits (s : State) : State :=
  { s with
    halves := [], clusters := [], sched := {}, net := {}, cw := {}
    banks := { design := s.banks.design, service := s.banks.service }
    ddr := s.ddr.map fun x => (x.1, { x.2 with queue := [] })
    hb := {}, trc := { buffer := loseContents s.trc.buffer, fresh := true }, rl := {}, shore := {}, acq := {}
    ld := {}, pwr := { s.pwr with ready := false } }

/-- MSI-X and interrupt state of an FLR and of a warm reset: cause bits and pending bits are cleared (R400, R428); with `table`
the table is masked and configuration space returns to its reset values, but for the sticky AER bits. Completions of earlier
requests are discarded. -/
def resetPcie (table : Bool) (s : State) : State :=
  { s with pcie := { s.pcie with
    rising := [], pendingBits := 0, resets := s.pcie.resets + 1, table := if table then [] else s.pcie.table
    config := if table then {} else s.pcie.config } }

/-- The sticky AER bits of a reset of the endpoint that is no FLR (Table 15.7). -/
def resetAer (on : Bool) (s : State) : State := if on then { s with pcie := { s.pcie with aer := {} } } else s

/-- BIST begins again after a reset, or its results stand (R355, R359). -/
def resetBist (run : Bool) (s : State) : State :=
  let was := bistRuns s
  if run ∨ was then
    let t := bistStart false s
    if was then
      let t := setBit t R.bistStatus 22 true
      { t with bist := { t.bist with restarts := s.bist.restarts + 1 } }
    else t
  else s

/-! ## Warm reset (R382, R428) -/

/-- Registers that a warm reset keeps (Table 15.7, R352 and the registers that say so). -/
def warmKeeps (a : Nat) : Bool :=
  (decide (R.fltSafe 0 ≤ a) && decide (a < R.fltSafe 0 + 128)) || a == R.fltCtrl ||
    (decide (0xA00000 ≤ a) && decide (a < 0xA00400)) || a == R.glbUnitPresent0 || a == R.glbUnitPresent1 ||
    (decide (R.bankPresent 0 ≤ a) && decide (a < R.bankPresent 0 + 32)) || a == R.dbgAuthStatus || a == R.glbPcieStatus ||
    a == R.lhStatus || a == R.pwrClkCfg

/-- Registers after a warm reset: those kept, with their fields that are not kept returned to reset. -/
def warmRegs (pcie : Bool) (s : State) : State :=
  let s := { s with regs := s.regs.filter fun x => warmKeeps x.1 }
  let s := setReg s R.lhStatus (BitVec.ofNat 32 (bits s R.lhStatus 8 8 <<< 8))
  let s := setBits (setBits s R.dbgAuthStatus 31 1 0) R.dbgAuthStatus 29 2 0
  let s := setBits s R.pwrClkCfg 31 1 0
  if pcie then setReg s R.glbPcieStatus (BitVec.ofNat 32 (bits s R.glbPcieStatus 8 8 <<< 8)) else s

/-- The Lighthouse side of a cold or warm reset: cores in the boot ROM, session, halt and Footpath frames end (R331). -/
def resetDebug (s : State) : State :=
  { s with dbg := { nextState := s.dbg.nextState, sent := s.dbg.sent } }

/-- The time unit of a reset: it starts anew, but the spacing of software records goes on (R364). -/
def keptTicks (t : TimeUnit) : TimeUnit := { ticks := t.ticks, softwareAt := t.softwareAt }

/-- A warm reset with its cause code; from PCI Express it resets configuration space (R382, R428). An erase that it cuts
short leaves the queued records to be committed first. The THERMAL_TRIP limit goes on (R377). -/
def warmReset (cause : Nat) (s : State) : State :=
  let was := openDomains s
  let cold := refreshing s
  let s := drainChannels (cutFuse (cutMarch (commitAll (cutErase s))))
  let flags := marchFlags s
  let on := bit s R.bistCtrl 30
  let s := resetDebug (resetUnits (loseBanks 8 s))
  let s := { s with
    time := keptTicks s.time
    flt := { safe := s.flt.safe, sev7Resets := s.flt.sev7Resets } }
  let s := setMarchFlags flags (warmRegs (cause == 3) (resetAer (cause == 3) (resetPcie (cause == 3) s)))
  let s := { s with pwr := { reopening := true, tripped := s.pwr.tripped } }
  let s := keepRefresh cold (closeDomains (on || bistRuns s) was s)
  recordReset 2 cause (reopenDone (enableLinks (resetBist on s)))

/-- SEVERITY_7_RESET (R351): the record is committed and a warm reset starts. -/
def severity7Reset (s : State) : State :=
  if s.flt.sev7Pending then
    warmReset 4 { s with flt := { s.flt with sev7Resets := min 3 (s.flt.sev7Resets + 1), sev7Pending := false } }
  else s

/-- SEVERITY_7_RESET (R351). -/
def execSeverity7Reset (s : State) : Out := .next (severity7Reset s)

/-- WARM_RESET (R382): from severity 7 it is the reset that R351 has decided. -/
def warmResetFrom (source : WarmSource) (s : State) : State :=
  match source with
  | .pcie => warmReset 3 s
  | .severity7 => severity7Reset s
  | .register => warmReset 5 s

/-- WARM_RESET (R382). -/
def execWarmReset (source : WarmSource) (s : State) : Out := .next (warmResetFrom source s)

/-! ## Function-level reset (R400) -/

/-- Registers that an FLR returns to reset: those of switched domains and of Causeway links, the leg table, the image,
GLB_BAR4_WIN and the cause bits (Table 15.7, R381). -/
def flrClears (a : Nat) : Bool :=
  let in_ := fun (lo hi : Nat) => decide (lo ≤ a) && decide (a < hi)
  in_ 0x1000000 0x2000000 || in_ 0x300000 0x364000 || in_ 0x400000 0x440000 || in_ 0x600000 0x700000 ||
    in_ 0x700020 0x7C0000 || in_ (R.glbLeg 0) (R.glbLeg 32) || a == R.ldReach || a == R.glbBar4Win ||
    a == R.glbIrqCauseLo || a == R.glbIrqCauseHi

/-- Every link leaves up (R315): the time exchange of the parent link ends with it. -/
def linksLeave (s : State) : State := forUpTo 20 (fun l acc => if linkUp acc l then timeLinkDown l acc else acc) s

/-- FLR (R400): a warm reset of the device but for what Table 15.7 says. The registers and the state of the always-on domain
stay; a load or reload ends (Table 10.12). -/
def flr (s : State) : State :=
  let was := openDomains s
  let cold := refreshing s
  let s := linksLeave (drainChannels (cutMarch (commitAll (cutErase s))))
  let flags := marchFlags s
  let handovers := s.banks.handovers
  let active := s.net.activeBank
  let sched : Sched := { hazardLog := s.sched.hazardLog, freezeLow := s.sched.freezeLow }
  let net : Net := {
    activeBank := active, traceBuf := s.net.traceBuf, traceCount := s.net.traceCount, probeHold := s.net.probeHold }
  let ld : Loader := {
    scrubSig := s.ld.scrubSig, scrubPasses := s.ld.scrubPasses, taken := s.ld.taken + streamPlace s }
  let s := resetUnits (loseBanks 8 s)
  let s := { s with
    banks := { s.banks with handovers := handovers }, net := net, sched := sched, ld := ld }
  let s := { s with regs := s.regs.filter fun x => !flrClears x.1 }
  let s := setMarchFlags flags (resetPcie true s)
  let s := setBits (setBits (setBits s R.ldStatus 26 6 0) R.ldReloadStatus 28 4 0) R.ldReloadFree 0 13 4096
  let s := setBits (setReg s R.ldRelStatus 0) R.glbPcieStatus 16 8 0
  let s := setBits (setBit s R.glbSchedStatus 0 false) R.glbSchedStatus 8 6 0
  let s := setBits (setBit s R.glbHazardCfg 0 false) R.trgRunStatus 0 9 0
  let s := keepRefresh cold (closeOpen was s)
  let s := { s with pwr := { s.pwr with reopening := true } }
  recordReset 3 3 (reopenDone (enableLinks (resetBist false s)))

/-- FLR (R400). -/
def execFlr (s : State) : Out := .next (flr s)

/-! ## Cold reset (R380, R413) -/

/-- The record whose commit the power loss meets is written or absent (R382): which one is a free value. -/
def losePower (s : State) : State :=
  if s.cairn.queue = [] then s
  else
    let x := takeFree 1 s
    if x.1 = 1 then cairnCommit true x.2 else x.2

/-- A pending life-cycle state applies, and the keys are destroyed that Table 13.5 names (R336). -/
def applyLifeCycle (s : State) : State :=
  match s.dbg.nextState with
  | none => s
  | some t =>
    let gone := if t = 4 then [1, 2, 3, 4] else if t = 5 then [0] else []
    let keys := gone.foldl (fun (l : List (Option (List Byte))) k => l.set k none) s.die.keys
    let dead := (s.die.destroyed ++ gone).dedup
    { s with
      die := { s.die with lifeCycle := t, keys := keys, destroyed := dead }
      dbg := { s.dbg with nextState := none } }

/-- A cold reset with its cause code and the straps of its rising edge (Table 17.6). -/
def coldReset (cause : Nat) (straps : BitVec 8) (s : State) : State :=
  let was := bistRuns s
  let s := if cause = 1 then losePower s else commitAll (cutErase s)
  let s := applyLifeCycle (cutErase (cutFuse (cutMarch s)))
  let fails := bits s R.dbgAuthStatus 16 8
  let lock := bits s R.dbgAuthStatus 0 11
  let s := resetDebug (resetUnits (loseBanks 0 s))
  let s := { s with
    regs := [], time := if cause = 1 then {} else keptTicks s.time, flt := {}, pwr := {}
    pcie := { messages := s.pcie.messages, writes := s.pcie.writes, resets := s.pcie.resets + 1 }
    ddr := (List.range 4).foldl (fun m c => put (fun _ => {}) m c { mem := loseContents (ddr s c).mem }) []
    bist := { restarts := if was then s.bist.restarts + 1 else 0 }
    die := { s.die with straps := straps, testStrap := straps.getLsbD 1 }
    cairn := { s.cairn with coldResets := s.cairn.coldResets + 1 } }
  let s := cairnScan s
  let s := setBits (setBits s R.dbgAuthStatus 16 8 fails) R.dbgAuthStatus 0 11 lock
  let s := setBit s R.bistStatus 22 was
  let s := forUpTo 28 (fun d acc => if gradeHas acc d then acc else setReg acc (R.pwrDomainCtrl d) 0) s
  recordReset 1 cause s

/-- COLD_RESET (R380). -/
def coldResetFrom (source : ColdSource) (straps : BitVec 8) (s : State) : State :=
  match source with
  | .powerOn => coldReset 1 straps s
  | .footpath => coldReset 2 straps s
  | .register => coldReset 5 straps s

/-- COLD_RESET (R380). -/
def execColdReset (source : ColdSource) (straps : BitVec 8) (s : State) : Out := .next (coldResetFrom source straps s)

/-! ## Reach reset (R383) -/

/-- The march on a bank of reach `r`, if any, is cut (R212). -/
def cutReachMarch (r : Nat) (s : State) : State :=
  match s.banks.march with
  | some m => if !m.service && m.bank / 16 == r then cutMarch s else s
  | none => s

/-- REACH_RESET (R383): the reach leaves the run, ends in HOLD invalid, and its banks are undefined (Table 15.7). -/
def reachReset (r : Nat) (s : State) : State :=
  let s := cutReachMarch r (removeReach r false s)
  forUpTo 16 (fun k acc => loseBank (16 * r + k) acc) s

/-- REACH_RESET (R383). -/
def execReachReset (r : Fin 16) (s : State) : Out := .next (reachReset r.val s)

/-- A cold reset that a register write begins samples the straps as they stand then (R413): which levels the board gives
them is a free value (log entry 2). -/
def coldByRegister (s : State) : State :=
  let x := takeFree 8 s
  coldReset 5 x.1 x.2

/-- A write of PWR_RESET_CTRL: more than one of cold, warm and reach is discarded; cold and warm need the confirm. -/
def resetCtrlWrite (v : Word) (s : State) : State :=
  match bitsOf v 29 3 with
  | 4 => if bitsOf v 8 8 = 0x5A then coldByRegister s else s
  | 2 => if bitsOf v 8 8 = 0x5A then warmReset 5 s else s
  | 1 => reachReset (bitsOf v 0 4) s
  | _ => s

end Sys2Proof.Machine
end

