-- ==== Sys2Proof/Machine/Security.lean ====
section
/-! DEFINITION. Lighthouse firmware and watchdogs, authorisation, sessions, halt mode, keys and life cycle (chapter 13). -/
namespace Sys2Proof.Machine

/-! ## Firmware (R318 to R320) -/

/-- LH_STATUS.state. -/
def lhState (s : State) : Nat := bits s R.lhStatus 28 4

/-- LH_STATUS.fw_protect (R319). -/
def setProtect (b : Bool) (s : State) : State := setBit s R.lhStatus 23 b

/-- BOOT: LH_CTRL.boot, accepted in states 1 and 3. -/
def boot (s : State) : State := if lhState s = 1 ∨ lhState s = 3 then setProtect true (setLhState 2 s) else s

/-- BOOT (R318). -/
def execBoot (s : State) : Out := .next (boot s)

/-- Bytes of service banks 0 to 3 as one image. -/
def imageBytes (s : State) (n : Nat) : List Byte :=
  (List.range n).map fun i => readByte (serviceMem s (i / 0x40000)) (i % 0x40000)

/-- A little-endian field of a byte string. -/
def field (bs : List Byte) (at_ n : Nat) : Nat := ofBytesLE ((bs.drop at_).take n)

/-- The bytes from `a` below `b`. -/
def slice (bs : List Byte) (a b : Nat) : List Byte := (bs.drop a).take (b - a)

/-- Code of the boot ROM's checks (LH_STATUS.fw_code): 0 when they pass. -/
def firmwareCode (s : State) : Nat :=
  let n := bits s R.lhFwLen 0 21
  let h := imageBytes s 256
  if s.die.lifeCycle = 5 then 4
  else if s.bist.svcAbsent.toNat % 16 ≠ 0 then 2
  else if field h 0 4 ≠ 0x4C484657 ∨ field h 4 4 ≠ 1 then 1
  else if field h 8 4 ≠ n ∨ n % 64 ≠ 0 ∨ n < 256 ∨ 1048576 < n ∨ field h 12 4 < 0x20000000 ∨ 0x200FFFFF < field h 12 4 then 2
  else
    let image := imageBytes s n
    if ecdsaOk Config.firmwareKey (slice image 0 0x60 ++ image.drop 0xC0) (slice image 0x60 0xC0) then 0 else 3

/-- FIRMWARE_VERIFIED (R318): the boot ROM's checks end, which a halt holds (R332, R344). -/
def firmwareVerified (s : State) : State :=
  if lhState s ≠ 2 ∨ lhHalted s then s
  else
    let code := firmwareCode s
    let s := setBits s R.lhStatus 24 4 code
    if code = 0 then
      let entry := BitVec.ofNat 32 (field (imageBytes s 16) 12 4)
      setLhState 4 (setLhCore (setLhCore s 0 { lhCore s 0 with pc := entry }) 1 { lhCore s 1 with pc := entry })
    else signal 208 code (setProtect false (setLhState 3 s))

/-- FIRMWARE_VERIFIED (R318). -/
def execFirmwareVerified (s : State) : Out := .next (firmwareVerified s)

/-- Both cores and their watchdogs are reset and start in the boot ROM; a protected image is verified again (R320). -/
def restart (s : State) : State :=
  let s := setBits s R.lhStatus 20 2 0
  let s := forUpTo 2 (fun c acc => setReg (setReg acc (R.lhWdtCfg c) 0) (R.lhWdtCount c) 0) s
  let s := setLhCore (setLhCore s 0 { local_ := (lhCore s 0).local_ }) 1 { local_ := (lhCore s 1).local_ }
  if bit s R.lhStatus 23 then setLhState 2 s else s

/-- A write of LH_CTRL.restart (R320): it counts as an expiry does and raises no fault. -/
def restartRequest (s : State) : State := restart (bumpBits s R.lhStatus 8 8 1)

/-- RESTART (R320). -/
def execRestart (s : State) : Out := .next (restartRequest s)

/-- The reload value of a watchdog; values below 4,096 act as 4,096 (R334). -/
def watchdogLimit (s : State) (c : Nat) : Nat := max 4096 (bits s (R.lhWdtCfg c) 0 24)

/-- KICK (R320). -/
def kick (c : Nat) (s : State) : State := setBits s (R.lhWdtCount c) 0 24 (watchdogLimit s c)

/-- KICK (R320). -/
def execKick (c : Fin 2) (s : State) : Out := .next (kick c.val s)

/-- LH_WATCHDOG (R320): the count of an enabled watchdog has reached 0. A halt wins (Table 13.12). -/
def lhWatchdog (c : Nat) (s : State) : State :=
  if bit s (R.lhWdtCfg c) 31 ∧ bits s (R.lhWdtCount c) 0 24 = 0 ∧ ¬ lhHalted s then
    restart (bumpBits (signal 209 c s) R.lhStatus 8 8 1)
  else s

/-- LH_WATCHDOG (R320). -/
def execLhWatchdog (c : Fin 2) (s : State) : Out := .next (lhWatchdog c.val s)

/-! ## Halt mode (R332 to R334) -/

/-- HALT: a full-level session asks for a halt. -/
def halt (s : State) : State := if dbgLevel s = 2 ∧ ¬ lhHalted s then setBit s R.dbgStatus 27 true else s

/-- HALT (R332). -/
def execHalt (s : State) : Out := .next (halt s)

/-- What firmware left in a core is a free value (log entry 21): its registers, its local memory and, where it does not
sleep, its program counter; a sleeping core stands on the instruction after the sleep instruction (R332). Its reservation is
cleared (R333). -/
def freeCore (c : Nat) (s : State) : State :=
  let regs := (List.range 32).map fun k => (k, Config.freeBits 32 (s.free + k))
  let pc : Word := if bit s R.lhStatus (20 + c) then (lhCore s c).pc else Config.freeBits 32 (s.free + 32) &&& 0xFFFFFFFC
  setLhCore { s with free := s.free + 33 } c ⟨regs, pc, none, loseContents (lhCore s c).local_⟩

/-- HALT_COMPLETE (R332): both cores have stopped. -/
def haltComplete (s : State) : State :=
  if bit s R.dbgStatus 27 then
    let s := setBit (setBit s R.dbgStatus 27 false) R.dbgStatus 28 true
    setBits (freeCore 1 (freeCore 0 (setBit s R.lhStatus 22 true))) R.lhStatus 20 2 0
  else s

/-- HALT_COMPLETE (R332). -/
def execHaltComplete (s : State) : Out := .next (haltComplete s)

/-- No feed executes any more (R335). -/
def endFeed (s : State) : State := setBit { s with dbg := { s.dbg with feeding := none } } R.dbgStatus 26 false

/-- Both cores go on; a feed that still executes ends with the halt (log entry 53): watchdog counts below 4,096 are
raised (R334), a SYNC with reason 3 is emitted (R341). -/
def resumeCores (s : State) : State :=
  if lhHalted s then
    let s := endFeed (setBit (setBit s R.dbgStatus 28 false) R.lhStatus 22 false)
    let s := forUpTo 2 (fun c acc => setBits acc (R.lhWdtCount c) 0 24 (max 4096 (bits acc (R.lhWdtCount c) 0 24))) s
    if traceRuns s ∧ bits s R.trcCtrl 0 2 ≠ 0 then emitSync 1 3 (emitSync 0 3 (powerSync s)) else s
  else s

/-- RESUME (R332). -/
def execResume (s : State) : Out := .next (if dbgLevel s = 2 then resumeCores s else s)

/-! ## Sessions and authorisation (R329 to R331) -/

/-- The session ends: the level returns to none and consume clears; a full-level session's halt ends with it. -/
def endSession (s : State) : State :=
  let full := dbgLevel s == 2
  let s := setBit (setBits (setBit (setBits s R.dbgStatus 30 2 0) R.dbgStatus 29 false) R.dbgStatus 21 3 0) R.dbgSession 30 false
  if full then resumeCores (setBit s R.dbgStatus 27 false) else s

/-- SESSION_END (R331). -/
def execSessionEnd (s : State) : Out := .next (endSession s)

/-- SESSION_TIMEOUT (R331). -/
def execSessionTimeout (s : State) : Out := .next (if dbgLevel s ≠ 0 then endSession s else s)

/-- A session opens at a level with a key slot, 7 for none. One that is open at a higher level holds that level with its slot
(R331; DEDUCED, log entry 104). -/
def openSession (level slot : Nat) (s : State) : State :=
  if level < dbgLevel s then s else setBits (setBits s R.dbgStatus 30 2 level) R.dbgStatus 21 3 slot

/-- GET (R329, R330): the challenge is a free value (log entry 2); refused during a lockout. -/
def getChallenge (s : State) : State :=
  if bits s R.dbgAuthStatus 0 11 ≠ 0 then setBits s R.dbgAuthStatus 29 2 3
  else
    let x := takeFree 256 s
    let s := forUpTo 8 (fun i acc => setReg acc (R.dbgAuthChal i) (BitVec.ofNat 32 (bitsOf x.1 (32 * i) 32))) x.2
    setBit s R.dbgAuthStatus 31 true

/-- GET (R329). -/
def execGet (s : State) : Out := .next (getChallenge s)

/-- Bytes of a word, most significant first. -/
def bytesBE (w : Word) : List Byte := (bytesLE 4 w.toNat).reverse

/-- The level that a slot grants in a life-cycle state (Table 13.9); 0 for none. -/
def slotLevel (lifeCycle slot : Nat) : Nat := match lifeCycle, slot with
  | 1, 0 => 2
  | 2, 1 => 1
  | 2, 0 => 2
  | 2, 2 => 2
  | 3, 1 => 1
  | 3, 2 => 2
  | 4, 0 => 2
  | _, _ => 0

/-- Bytes of SEC_UID: byte 0 is the most significant byte of the identifier. -/
def uidBytes (s : State) : List Byte := (bytesLE 16 s.die.uid.toNat).reverse

/-- The response that the device computes for a slot (R329). -/
def expectedResponse (s : State) (slot : Nat) (key : List Byte) : List Byte :=
  let m := ((List.range 8).flatMap fun i => bytesBE (reg s (R.dbgAuthChal i))) ++ uidBytes s ++
    [BitVec.ofNat 8 slot, BitVec.ofNat 8 s.die.lifeCycle]
  (bytesLE 32 (hmacSha256 key m).toNat).reverse

/-- The response that was written. -/
def givenResponse (s : State) : List Byte :=
  (List.range 8).flatMap fun i => bytesBE (look (fun _ => 0) s.dbg.response i)

/-- The level that go grants; 0 is a failure. -/
def grantedLevel (s : State) (slot : Nat) : Nat :=
  match s.die.keys.getD slot none with
  | some key =>
    if bit s R.dbgAuthStatus 31 ∧ givenResponse s = expectedResponse s slot key then slotLevel s.die.lifeCycle slot else 0
  | none => 0

/-- Seconds of lockout after a number of consecutive failures (R330). -/
def lockout (failures : Nat) : Nat := if failures < 3 then 0 else min 1024 (2 ^ (failures - 3))

/-- A record of type 0x06 (Table 14.8). -/
def authRecord (failures : Nat) (s : State) : State := addRecord 6 (bytesLE 4 failures) s

/-- GO (R329, R330). -/
def go (slot : Nat) (s : State) : State :=
  let s := setBits s R.dbgAuthCtrl 0 3 slot
  let level := grantedLevel s slot
  let fails := bits s R.dbgAuthStatus 16 8
  let s := setBit s R.dbgAuthStatus 31 false
  if level ≠ 0 then
    let s := setBits (setBits s R.dbgAuthStatus 29 2 1) R.dbgAuthStatus 16 8 0
    openSession level slot (if fails = 0 then s else authRecord 0 s)
  else
    let n := satAdd 8 fails 1
    let s := setBits (setBits (setBits s R.dbgAuthStatus 29 2 2) R.dbgAuthStatus 16 8 n) R.dbgAuthStatus 0 11 (lockout n)
    authRecord n (signal 210 slot s)

/-- GO (R329). -/
def execGo (slot : Fin 8) (s : State) : Out := .next (go slot.val s)

/-- CHALLENGE_EXPIRY (R329). -/
def execChallengeExpiry (s : State) : Out := .next (setBit s R.dbgAuthStatus 31 false)

/-- LOCKOUT_EXPIRY (R330). -/
def execLockoutExpiry (s : State) : Out := .next (setBits s R.dbgAuthStatus 0 11 0)

/-! ## Life cycle and keys (R327, R328, R336) -/

/-- A host write that Table 13.9 does not allow (R338). -/
def hostRefused (s : State) : State := setBit s R.dbgStatus 24 true

/-- Slot `k` holds a key. -/
def slotProgrammed (s : State) (k : Nat) : Bool := (s.die.keys.getD k none).isSome

/-- A transition from state `f` that R336 allows, with its keys. -/
def transitionFrom (s : State) (f t : Nat) : Bool :=
  match f, t with
  | 0, 1 => slotProgrammed s 0
  | 1, 2 => true
  | 2, 3 => [1, 2, 3, 4].all fun k => slotProgrammed s k
  | 3, 4 => true
  | f, 5 => f != 5
  | _, _ => false

/-- A transition that R336 allows from the present state, and from the one that a transition already made ready: they run one
way only. -/
def transitionAllowed (s : State) (t : Nat) : Bool :=
  transitionFrom s s.die.lifeCycle t && s.dbg.nextState.all fun f => transitionFrom s f t

/-- The party may request a transition to `t` (Table 13.9): the host only PROVISIONED to DEPLOYED, a full-level session
the others. -/
def mayTransit (s : State) (footpath : Bool) (t : Nat) : Bool :=
  holdsRight s footpath .lc && (if footpath then !(s.die.lifeCycle == 2 && t == 3) else t == 3)

/-- A write of SEC_LC_CTRL is accepted. -/
def transitionAccepted (s : State) (footpath : Bool) (v : Word) : Bool :=
  bitsOf v 8 8 == 0xA5 && mayTransit s footpath (bitsOf v 0 3) && transitionAllowed s (bitsOf v 0 3) && s.dbg.fuse.isNone

/-- LC_TRANSITION (R336): a write of SEC_LC_CTRL. Without go it does nothing; by a host that holds no right LC it is refused
(R338). -/
def lcTransition (footpath : Bool) (v : Word) (s : State) : State :=
  if ¬ v.getLsbD 31 then if footpath || hostHas s .lc then s else hostRefused s
  else if transitionAccepted s footpath v then
    let s := endSession s
    { s with dbg := { s.dbg with fuse := some (.lifeCycle (bitsOf v 0 3)) } }
  else if footpath then s
  else hostRefused s

/-- LC_TRANSITION (R336). -/
def execLcTransition (footpath : Bool) (value : Word) (s : State) : Out := .next (lcTransition footpath value s)

/-- The life-cycle state in which a slot is programmed, and its bytes (Table 13.5). -/
def slotState (k : Nat) : Nat := if k = 0 then 0 else 2
def slotLength (k : Nat) : Nat := if k = 4 then 96 else 32

/-- Key bytes written to SEC_KEY_DATA. -/
def keyBytes (s : State) (n : Nat) : List Byte :=
  ((List.range 24).flatMap fun i => bytesBE (look (fun _ => 0) s.dbg.keyData i)).take n

/-- Programming is accepted (R328). -/
def keyAllowed (s : State) (footpath : Bool) (slot : Nat) : Bool :=
  decide (slot < 5) && s.die.lifeCycle == slotState slot && !slotProgrammed s slot && !s.die.destroyed.contains slot &&
    holdsRight s footpath .kp && s.dbg.fuse.isNone

/-- KEY_PROGRAM (R328): a write of SEC_KEY_CTRL.go. -/
def keyProgram (footpath : Bool) (slot : Nat) (s : State) : State :=
  let bs := keyBytes s (slotLength slot)
  let s := setBits { s with dbg := { s.dbg with keyData := [] } } R.secKeyCtrl 0 3 slot
  if keyAllowed s footpath slot then { s with dbg := { s.dbg with fuse := some (.key slot bs) } }
  else
    let s := setBits s R.secKeyCtrl 28 2 2
    if ¬ footpath ∧ ¬ hostHas s .kp then hostRefused s else s

/-- KEY_PROGRAM (R328). -/
def execKeyProgram (footpath : Bool) (slot : Fin 8) (s : State) : Out := .next (keyProgram footpath slot.val s)

/-- A fuse write that fails raises FUSE_ERR; the manual does not number the fuse groups, so its info is a free value. -/
def fuseError (s : State) : State :=
  let x := takeFree 16 s
  signal 203 x.1.toNat x.2

/-- FUSE_WRITE_DONE (R328, R336). -/
def fuseDone (ok : Bool) (s : State) : State :=
  match s.dbg.fuse with
  | none => s
  | some w =>
    let s := { s with dbg := { s.dbg with fuse := none } }
    match w with
    | .key k bs =>
      if ok then setBits { s with die := { s.die with keys := s.die.keys.set k (some bs) } } R.secKeyCtrl 28 2 1
      else fuseError (setBits { s with die := { s.die with keyErrors := s.die.keyErrors ++ [k] } } R.secKeyCtrl 28 2 3)
    | .lifeCycle t =>
      if ok then
        addRecord 5 (bytesLE 1 s.die.lifeCycle ++ bytesLE 1 t) { s with dbg := { s.dbg with nextState := some t } }
      else fuseError s

/-- FUSE_WRITE_DONE (R328). -/
def execFuseWriteDone (outcome : FuseOutcome) (s : State) : Out := .next (fuseDone outcome.ok s)

end Sys2Proof.Machine
end

