-- ==== Sys2Proof/Machine/Read.lean ====
section
/-! DEFINITION. Reads of registers, windows and views (R5, R9 to R11, R58, R325, Table 16.4): the value that a read
returns, and the side effects of a read that consumes. -/
namespace Sys2Proof.Machine

/-- Who makes an access: the host, a Footpath session or a Lighthouse core. -/
inductive Agent where
  | host
  | footpath
  | core (c : Nat)
  deriving DecidableEq, Repr

/-- The party whose bank ports and protections an agent's access meets: Footpath acts as the host (R325). -/
def agentParty (g : Agent) : Party :=
  match g with
  | .host => .host
  | .footpath => .host
  | .core _ => .lighthouse

/-- The agent of a register command: Lighthouse's names no core (log entry 29). -/
def partyAgent (p : Party) : Agent :=
  match p with
  | .host => .host
  | .lighthouse => .core 0

/-! ## Present values -/

/-- Half `hi` of a 64-bit number. -/
def halfOf (v : Nat) (hi : Bool) : Word := BitVec.ofNat 32 (if hi then v >>> 32 else v)

/-- Present values of the cluster registers. -/
def liveClu (s : State) (b n j : Nat) (w : Word) : Word :=
  let c := clu s n
  let set_ := fun k => (waymark c k).isSet
  if b = R.cluStatus 0 then
    withBit (withBit (withBit w 0 (inHold s (n / 8))) 1 c.stalled) 2 ((List.range 16).any fun q => bit s (R.cluQStatus n q) 0)
  else if b = R.cluQStatus 0 0 then withBits (withBits w 16 6 (heldWords (queue c j))) 8 6 (openPlaces (queue c j))
  else if b = R.cluWmStateLo 0 then fieldWord ((List.range 32).map fun k => (k, (set_ k).toNat))
  else if b = R.cluWmStateHi 0 then fieldWord ((List.range 32).map fun k => (k, (set_ (32 + k)).toNat))
  else if b = R.cluSwellFlags 0 then c.swell
  else w

/-- Bits [31:0] of the hazard log's oldest record, and its ec count. -/
def hazardLow (s : State) : Word :=
  match s.sched.hazardLog with
  | [] => 0
  | h :: _ => fieldWord [(29, h.kind), (22, h.cluster), (13, h.bp), (3, h.step)]

/-- Bits [15:0] of the ec count of the oldest hazard record. -/
def hazardHigh (s : State) : Word :=
  match s.sched.hazardLog with
  | [] => 0
  | h :: _ => fieldWord [(0, h.ec % 65536)]

/-- Present values of the global, schedule and contract registers. -/
def liveGlb (s : State) (b : Nat) (w : Word) : Word :=
  if b = R.glbEcCountLo then lowHalf s.sched.ec
  else if b = R.glbEcCountHi then highHalf s.sched.ec
  else if b = R.glbMsStatus then
    withBits (withBit (withBit w 31 (waitsForTokens s)) 30 !s.sched.holds.isEmpty) 0 20 (maskOf (pendingTokens s))
  else if b = R.glbContractRev then if s.die.b0 then 0x00B00203 else 0x00A10202
  else if b = R.glbHazardStatus then withBits (withBit w 31 (debugMode s)) 16 5 s.sched.hazardLog.length
  else if b = R.glbHazardLogLo then hazardLow s
  else if b = R.glbHazardLogHi then hazardHigh s
  else if b = R.glbDeviceGrade then if s.die.gradeA then 0xA else 0xC
  else w

/-- The endpoints that NI `i` serves. -/
def endpointsOf (s : State) (i : Nat) : List Nat := (List.range 157).filter fun e => niOfEndpoint s e == some i

/-- Present values of the Wayfabric registers. -/
def liveWf (s : State) (b i : Nat) (w : Word) : Word :=
  if b = R.wfStatus then
    withBit (withBit w 5 ((List.range 136).any fun k => bit s (R.wfNiStatus k) 28)) 0
      ((List.range 144).any fun r => routerDraining s r || routerInReset s r)
  else if b = R.wfSlotCtrl then withBit w 8 s.net.activeBank
  else if b = R.wfNiStatus 0 then
    let asleep := (endpointsOf s i).any fun e => endpointAsleep s e
    let closed := (endpointsOf s i).any fun e => endpointClosed s e && !endpointAsleep s e
    withBits (withBit (withBit w 29 asleep) 30 closed) 16 7 (ni s i).outstanding.length
  else w

/-- Some operand waits for Harbour that R229 does not accept. -/
def backPressure (s : State) : Bool :=
  let hostWaits := !s.hb.window.isEmpty || (nextRing s).isSome
  let netWaits := (ni s 134).requests.any fun p => headDst p.head == 152 &&
    (acceptBlocked s || decide (bits s R.hbQuota 0 16 ≤ heldOf s (headSrc p.head)))
  netWaits || (hostWaits && (acceptBlocked s || decide (bits s R.hbQuota 16 16 ≤ heldOf s 128))) ||
    (!s.hb.notifies.isEmpty && acceptBlocked s)

/-- Present values of the DDR4 and Harbour registers. -/
def liveMem (s : State) (b i : Nat) (w : Word) : Word :=
  if b = R.ddrChStatus 0 then withBits w 16 9 (ddr s i).queue.length
  else if b = R.hbStatus then withBit (withBit w 3 (backPressure s)) 0 (hbIdle s)
  else if b = R.hbStoreUse then withBits w 0 16 s.hb.store.length
  else if b = R.hbPoolUse then
    withBits (fieldWord ((List.range 16).map fun p => (16 + p, (!(readyList s p).isEmpty).toNat))) 0 13 (poolRecords s)
  else if b = R.hbWinCredit then withBits w 0 16 (windowFree s)
  else if b = R.hbDlistStatus 0 then fieldWord [(10, (delayList s i).tasks.length), (0, (delayList s i).ticks % 1024)]
  else w

/-- Passes completed by the scrubbed cluster with the fewest. -/
def scrubFewest (s : State) : Nat :=
  (((List.range 128).filter fun n => scrubs s n).map fun n => look (fun _ => 0) s.ld.scrubPasses n).min?.getD 0

/-- Present values of the loader and time registers. -/
def liveLoad (s : State) (b : Nat) (w : Word) : Word :=
  if b = R.ldProgressLo then halfOf (s.ld.taken + streamPlace s) false
  else if b = R.ldProgressHi then halfOf (s.ld.taken + streamPlace s) true
  else if b = R.ldRelStatus then fieldWord [(0, s.sched.stage)]
  else if b = R.ldScrubStatus then withBits w 16 16 (scrubFewest s)
  else if b = R.ldScrubSigLo then lowHalf (dword s.ld.scrubSig (bits s R.ldScrubCtrl 0 7))
  else if b = R.ldScrubSigHi then highHalf (dword s.ld.scrubSig (bits s R.ldScrubCtrl 0 7))
  else if b = R.timeNowLo then (s.time.now >>> 32).setWidth 32
  else if b = R.timeNowHi then (s.time.now >>> 64).setWidth 32
  else if b = R.timeNowFrac then s.time.now.setWidth 32
  else w

/-- Code of a run state (Table 11.1). -/
def runCode (r : RunState) : Nat :=
  match r with
  | .notStarted => 0
  | .running => 1
  | .frozen => 2
  | .stopped => 3

/-- Present values of the trigger and trace registers. -/
def liveObs (s : State) (b i : Nat) (w : Word) : Word :=
  if b = R.trgRunStatus then withBits w 30 2 (runCode s.sched.run)
  else if b = R.trgChStatus 0 then withBit w 29 (chBad s i)
  else if b = R.acqFifo then fieldWord [(0, fifoFill s)]
  else if b = R.trcStatus then withBit w 31 (traceRuns s)
  else w

/-- A key fuse write is in progress. -/
def keyBusy (s : State) : Bool :=
  match s.dbg.fuse with
  | some (.key _ _) => true
  | _ => false

/-- Present values of the security registers. -/
def liveSec (s : State) (b i : Nat) (w : Word) : Word :=
  if b = R.secLcState then
    fieldWord [(31, s.dbg.nextState.isSome.toNat), (30, s.dbg.fuse.isSome.toNat), (24, s.dbg.nextState.getD 0),
      (0, s.die.lifeCycle)]
  else if b = R.secUid 0 then BitVec.ofNat 32 (bitsOf s.die.uid (96 - 32 * i) 32)
  else if b = R.secKeyStatus then
    fieldWord ((List.range 5).flatMap fun k =>
      [(k, (slotProgrammed s k).toNat), (16 + k, (s.die.destroyed.contains k).toNat)])
  else if b = R.secKeyCtrl then withBit w 30 (keyBusy s)
  else if b = R.secKeyId 0 then
    match s.die.keys.getD i none with
    | some bs => (sha256 bs).setWidth 32
    | none => 0
  else w

/-- The highest present severity among the pending sources. -/
def maxPending (s : State) : Nat :=
  (((List.range 240).filter fun k => pendingSource s k).map fun k => severityOf s k).foldl max 0

/-- Row and column of a physical cluster, as BIST_CLUSTER_MAP shows them. -/
def gridFields (s : State) (p : Nat) : List (Nat × Nat) :=
  [(8, s.die.routerOf.getD p 0 / 12), (0, s.die.routerOf.getD p 0 % 12)]

/-- Present values of the fault, self-test and Cairn registers. -/
def liveFlt (s : State) (b i : Nat) (w : Word) : Word :=
  if b = R.fltStatus then
    withBits (withBits (withBit (withBit (withBit w 31 s.flt.safe) 29 (resetLimited s)) 25 s.die.testStrap) 22 2
      s.flt.sev7Resets) 0 3 (maxPending s)
  else if b = R.bistClusterMap 0 then
    fieldWord ([(31, (decide (physicalOf s i ≠ i)).toNat), (16, physicalOf s i)] ++ gridFields s (physicalOf s i))
  else if b = R.bistSpareMap 0 then
    let a := find s.bist.assigned i
    fieldWord ([(31, (s.bist.goodSpares.getLsbD i).toNat), (30, a.isSome.toNat), (16, a.getD 0)] ++ gridFields s (128 + i))
  else if b = R.cairnStatus then
    withBits (withBits (withBit (withBit w 31 !s.cairn.queue.isEmpty) 30 s.cairn.erasing) 16 5 s.cairn.queue.length) 0 14
      s.cairn.badSlots
  else if b = R.cairnHead then fieldWord [(16, s.cairn.valid), (0, s.cairn.newest)]
  else if b = R.cairnReadData 0 then
    BitVec.ofNat 32 (ofBytesLE (((slotBytes s (bits s R.cairnReadIdx 0 13)).drop (4 * i)).take 4))
  else w

/-- The present value of a register: its stored word with write-only fields 0, and what the units show. -/
def liveReg (s : State) (g : RegGroup) (ix : List Nat) (a : Nat) : Word :=
  let w := reg s a &&& ~~~ BitVec.ofNat 32 g.wo
  let b := g.base
  let i := ix.headD 0
  if 0x1000000 ≤ b then liveClu s b i (ix.getD 1 0) w
  else if b < 0x100000 then liveGlb s b w
  else if b < 0x200000 then liveFlt s b i w
  else if b < 0x300000 then liveWf s b i w
  else if b < 0x400000 then w
  else if b < 0x700000 then liveMem s b i w
  else if b < 0x7C0000 then liveObs s b i w
  else if b < 0x900000 then liveLoad s b w
  else if b < 0xA00000 then liveSec s b i w
  else liveFlt s b i w

/-! ## Captures (R11) -/

/-- Bases of the low registers whose pair holds one quantity; TIME_NOW_LO captures TIME_NOW_FRAC too. TRG_FREEZE_AT is
no such pair: its upper register holds an enable and a status bit (log entry 30). -/
def pairBases : List Nat :=
  [R.cluWmStateLo 0, R.glbEcCountLo, R.glbHazardLogLo, R.glbIrqCauseLo, R.hbRingBaseLo 0, R.ldSrcLo, R.ldProgressLo,
    R.ldScrubSigLo, R.ldBwConstLo 0, R.trgEcLo, R.trgChUpperLo 0, R.trgChLowerLo 0, R.trgChValueLo 0, R.acqWrLo,
    R.acqStartLo, R.timeNowLo, R.timeIncLo, R.timeSetLo, R.fltLastLo, R.fltFirstLo, R.bistTeMisrLo]

/-- The present value at a register offset; 0 where there is none. -/
def liveAt (s : State) (a : Nat) : Word :=
  match regAt a with
  | some (g, ix) => liveReg s g ix a
  | none => 0

/-- The value at a register offset as a read returns it: a captured half where one is held. -/
def shownAt (s : State) (a : Nat) : Word := (find s.halves a).getD (liveAt s a)

/-- A read of a low register captures the halves of its pair. -/
def capture (s : State) (a : Nat) : State :=
  match regAt a with
  | some (g, _) =>
    if pairBases.contains g.base then
      let h := enter s.halves (a + 4) (liveAt s (a + 4))
      { s with halves := if g.base = R.timeNowLo then enter h (a + 8) (liveAt s (a + 8)) else h }
    else s
  | none => s

/-! ## Windows -/

/-- The value-store view at a cluster window offset: BP, first entry of the word. -/
def viewPlace (word : Nat) : Nat × Nat := (word / 32, word % 32 * 32)

/-- The value store that CLU_VS_SEL selects. -/
def viewStore (s : State) (n : Nat) : Sparse Bool :=
  if bit s (R.cluVsSel n) 0 then (clu s n).prev else (clu s n).cur

/-- Word `word` of the value-store view of cluster `n` (R58). -/
def storeWord (s : State) (n word : Nat) : Word :=
  let p := viewPlace word
  fieldWord ((List.range 32).map fun k => (k, (entry (viewStore s n) p.1 (p.2 + k)).toNat))

/-- A value-store view access is refused (R58). -/
def storeBusy (n : Nat) (s : State) : State := setBit s (R.cluStatus n) 4 true

/-- Word of the probe trace buffer (R156). -/
def probeWordAt (s : State) (k : Nat) : Word :=
  match find s.net.traceBuf (k / 4) with
  | none => 0
  | some r => [r.w0, r.w1, r.w2, r.w3].getD (k % 4) 0

/-- Service bank of an offset of Table 8.6. -/
def serviceAt (a : Nat) : Nat := (a - 0x2000000) / 0x40000 % 16

/-- The offset lies in the value-store view of a cluster. -/
def inStoreView (a : Nat) : Bool := decide (0x1000000 ≤ a) && decide (a < 0x2000000) && decide (0x10000 ≤ a % 0x20000)

/-- Cluster of an offset in a cluster window. -/
def clusterAt (a : Nat) : Nat := (a - 0x1000000) / 0x20000

/-- The offset lies in a service bank window or alias. -/
def inService (a : Nat) : Bool := decide (0x2000000 ≤ a) && decide (a < 0x2C00000)

/-- The offset lies in the control view or one of its aliases. -/
def inView (a : Nat) : Bool := decide (0x540000 ≤ a) && decide (a < 0x600000)

/-- The offset lies in the MSI-X table. -/
def inMsix (a : Nat) : Bool := decide (0x3FF0000 ≤ a) && decide (a < 0x3FF0400)

/-! ## The value and the effects of a read -/

/-- The target of an access is absent, off or in retention (R5, R206). -/
def targetOff (s : State) (a : Nat) : Bool := !blockOn s a || (inView a && !bankUsable s (bits s R.bankViewSel 0 8))

/-- What a 32-bit read of a BAR0 offset returns. -/
def readValue (g : Agent) (a : Nat) (s : State) : Word :=
  if a % 4 ≠ 0 then 0
  else if !blockOn s a then 0xFFFFFFFF
  else if inMsix a then msixWord s ((a - 0x3FF0000) / 16) (a % 16 / 4)
  else if a = 0x3FF0800 then lowHalf s.pcie.pendingBits
  else if a = 0x3FF0804 then highHalf s.pcie.pendingBits
  else if inService a then serviceData s (serviceAt a) (a % 0x40000 / 4)
  else if inView a then viewData s (agentParty g) (bits s R.bankViewSel 0 8) (a % 0x40000 / 4)
  else if inStoreView a then if designFrozen s then storeWord s (clusterAt a) (a % 0x10000 / 4) else 0
  else if 0x204000 ≤ a ∧ a < 0x208000 then probeWordAt s ((a - 0x204000) / 4)
  else if 0x790000 ≤ a ∧ a < 0x7B0000 then readWord s.trc.buffer (a - 0x790000)
  else shownAt s a

/-- A read clears its RC fields (Table 0.4), and a read of GLB_HAZARD_LOG_LO removes the oldest record (R128). -/
def clearRead (a : Nat) (s : State) : State :=
  match regAt a with
  | none => s
  | some (g, _) =>
    let s := if g.rc = 0 then s else setReg s a (reg s a &&& ~~~ BitVec.ofNat 32 g.rc)
    if a = R.glbHazardLogLo then { s with sched := { s.sched with hazardLog := s.sched.hazardLog.drop 1 } } else s

/-- The side effects of a 32-bit read that consumes. -/
def readEffect (g : Agent) (a : Nat) (s : State) : State :=
  if a % 4 ≠ 0 then s
  else if !blockOn s a then offAccess s
  else if inService a then if marchOn s true (serviceAt a) then busyAccess s else s
  else if inView a then viewAccess (agentParty g) (bits s R.bankViewSel 0 8) id s
  else if inStoreView a then if designFrozen s then s else storeBusy (clusterAt a) s
  else clearRead a (capture s a)

/-- A 32-bit read with its side effects: the value and the state after it. -/
def readWord32 (g : Agent) (a : Nat) (s : State) : Word × State := (readValue g a s, readEffect g a s)

/-- Successive 32-bit reads of `n` words from offset `a` up (R9, R389). -/
def readWords (g : Agent) (a : Nat) : Nat → State → List Word × State
  | 0, s => ([], s)
  | n + 1, s =>
    let r := readWord32 g a s
    let rest := readWords g (a + 4) n r.2
    (r.1 :: rest.1, rest.2)

/-- What a BAR2 read returns (Table 16.5). -/
def bar2Value (s : State) (a : Nat) : Word :=
  if !harbourOn s then 0xFFFFFFFF
  else if 0x100 ≤ a ∧ a < 0x180 ∧ a % 4 = 0 then reg s (R.hbRingHead ((a - 0x100) / 4))
  else if a = 0x10008 then fieldWord [(0, windowFree s)]
  else 0

/-- The `n` bytes at byte `o` of a list of words. -/
def bytesOfWords (ws : List Word) (o n : Nat) : List Byte := ((ws.flatMap fun w => bytesLE 4 w.toNat).drop o).take n

/-- The access stays within what its party can address: for Lighthouse the BAR0 offsets and the DDR4 window of Table 13.1,
beyond which the core takes an access exception (R317). -/
def refMapped (r : Ref) : Bool :=
  match r.party with
  | .host => true
  | .lighthouse =>
    (r.bar == .bar0 && decide (r.addr + r.size ≤ 0x2C00000)) || (r.bar == .ddrWin && decide (r.addr + r.size ≤ 2 ^ 30))

/-- The request comes from the host with a wrong ECRC that the endpoint finds (R386). -/
def ecrcFails (s : State) (r : Ref) : Bool := r.ecrcBad && r.party == .host && ecrcChecked s

/-- A read of `size` bytes at a BAR offset (R9, R389): every register it touches is read whole, in ascending order. One of
configuration space is answered from link-up on (R387), and the DDR4 window is in the map of Lighthouse alone (R317). -/
def readRef (r : Ref) (s : State) : State :=
  if ecrcFails s r then pcieError aerEcrc s
  else match r.bar with
  | .config c =>
    if configActs s r.party then answer (groupWords (bytesOfWords [configValue s c] (r.addr % 4) r.size)) s else s
  | .ddrWin =>
    if r.party = .host ∨ lhHalted s then s
    else if !refMapped r then accessException 0 (lhCore s 0).pc s
    else
      let x := lhDdrRead r.addr r.size s
      answer (groupWords x.1) x.2
  | .bar0 | .bar2 =>
    if !partyActs s r.party then unsupportedRead r.party s
    else if !refMapped r then accessException 0 (lhCore s 0).pc s
    else
      let a := r.addr / 4 * 4
      let n := ceilDiv (r.addr % 4 + r.size) 4
      let x := if r.bar = .bar0 then readWords (partyAgent r.party) a n s
        else ((List.range n).map fun k => bar2Value s (a + 4 * k), if harbourOn s then s else offAccess s)
      answer (groupWords (bytesOfWords x.1 (r.addr % 4) r.size)) x.2

/-- READ_CLEAR (R9). -/
def execReadClear (r : Ref) (s : State) : Out := .next (readRef r s)

/-- CAPTURE_READ (R11). -/
def execCaptureRead (r : Ref) (s : State) : Out := .next (readRef r s)

/-- HAZARD_LOG_READ (R128). -/
def execHazardLogRead (party : Party) (s : State) : Out := .next (readRef ⟨party, .bar0, R.glbHazardLogLo, 4, false, false⟩ s)

end Sys2Proof.Machine
end

