-- ==== Sys2Proof/Machine/Access.lean ====
section
/-! DEFINITION. Writes of registers, windows and views (R5, R9, R10, Table 16.4, Table 16.5) with the locks of the
register map, and the commands of plain register accesses. Several bits of one write that each start an action act
from the high bit down (log entry 31). -/
namespace Sys2Proof.Machine

/-- Run `f` where the bit of the written value is 1. -/
def onBit (v : Word) (k : Nat) (f : State → State) (s : State) : State := if v.getLsbD k then f s else s

/-! ## Writes by block -/

/-- The wr_locked flag of a cluster (R57, R90). -/
def cluLocked (n : Nat) (s : State) : State := setBit s (R.cluStatus n) 5 true

/-- A register that R57 or R90 locks outside HOLD. -/
def cluConfig (b : Nat) : Bool :=
  [R.cluArrEntry 0 0, R.cluObufCfg 0 0, R.cluLaneCfg 0 0, R.cluQCfg 0 0, R.cluWmCfg 0 0, R.cluSwellStep 0 0,
    R.cluSwellIn 0 0].contains b

/-- Swell flags of cluster `n` are set (R94). -/
def setSwell (n : Nat) (v : Word) (s : State) : State := setClu s n { clu s n with swell := (clu s n).swell ||| v }

/-- A write of a cluster register. -/
def writeClu (b n a : Nat) (v : Word) (s : State) : State :=
  if cluConfig b then if inHold s (n / 8) then writeFields a v s else cluLocked n s
  else if b = R.cluSwellFlags 0 then setSwell n v s
  else writeFields a v s

/-- The wr_locked flag of the schedule registers (R90). -/
def schedLocked (s : State) : State := setBit s R.glbSchedStatus 1 true

/-- Every swell flag of every cluster is set (R94). -/
def swellAll (s : State) : State := forUpTo 128 (fun n acc => setSwell n (-1) acc) s

/-- A write of GLB_HAZARD_CFG: debug only while every reach is in HOLD (R126). -/
def hazardCfgWrite (v : Word) (s : State) : State :=
  let was := debugMode s
  let s := writeFields R.glbHazardCfg (withBit v 0 was) s
  if v.getLsbD 0 = was then s
  else if allHold s then applyFree (setBit s R.glbHazardCfg 0 (v.getLsbD 0))
  else setBit s R.glbHazardStatus 0 true

/-- The device's ordinal may change (R404). -/
def ordinalFree (s : State) : Bool := [0, 6, 7, 8].contains (ldState s) && (allHold s || designFrozen s)

/-- A write of a global register: schedule, contract, power and identity. A depth outside 1 to 1,024 is taken in HOLD as it
stands and bounds the walk: R88 gives such a write no effect of its own (DESIGN CHOICE, unsafe, log entry 102). -/
def writeGlb (g : Agent) (b i a : Nat) (v : Word) (s : State) : State :=
  if [R.glbSchedDepth, R.glbWheelCfg 0, R.glbWheelPat 0 0, R.glbMsLinks].contains b then
    if allHold s then writeFields a v s else schedLocked s
  else if b = R.glbLeg 0 then
    if allHold s then
      let s := writeFields a v s
      setBits s R.glbSchedStatus 8 6 (validLegs s)
    else schedLocked s
  else if b = R.glbSchedCfg then onBit v 1 swellAll (writeFields a v s)
  else if b = R.glbHazardCfg then hazardCfgWrite v s
  else if b = R.glbDeviceOrdinal then if ordinalFree s then writeFields a v s else setBit s R.glbStatus 2 true
  else if b = R.glbLhDoorbell then
    match g with
    | .core _ => lhDoorbell v s
    | _ => s
  else if b = R.pwrDomainCtrl 0 then domainRequest i (v.getLsbD 31) s
  else if b = R.pwrResetCtrl then resetCtrlWrite v s
  else if b = R.pwrReachClk 0 then reachClkWrite i v s
  else writeFields a v s

/-- The writer comes over Footpath, so that its rights are the session's. -/
def overFootpath (g : Agent) : Bool := g == .footpath

/-- A write of a fault register. -/
def writeFlt (g : Agent) (b a : Nat) (v : Word) (s : State) : State :=
  if b = R.fltCtrl then onBit v 30 safeRelease (writeFields a v s)
  else if b = R.fltSev 0 then sevWrite a v s
  else if b = R.fltInject then faultInject (overFootpath g) v s
  else writeFields a v s

/-- A write of a Wayfabric register. -/
def writeWf (b : Nat) (ix : List Nat) (a : Nat) (v : Word) (s : State) : State :=
  let i := ix.headD 0
  if b = R.wfPtraceCtrl then ptraceWrite v s
  else if b = R.wfRtrCtrl 0 then onBit v 0 (routerReset i) s
  else if b = R.wfNiCtrl 0 then niCtrlWrite i (v.getLsbD 0) s
  else if b = R.wfRt0 0 0 then routeWordWrite i (ix.getD 1 0) 0 v s
  else if b = R.wfRt1 0 0 then routeWordWrite i (ix.getD 1 0) 1 v s
  else if b = R.wfRt2 0 0 then routeWordWrite i (ix.getD 1 0) 2 v s
  else if b = R.wfRt3 0 0 then routeWordWrite i (ix.getD 1 0) 3 v s
  else if b = R.wfSlot 0 0 0 0 then slotWrite a (ix.getD 2 0 == 1) v s
  else writeFields a v s

/-- A write of a Causeway register: CW_VC0_MAP only while every reach is in HOLD. -/
def writeCw (b i a : Nat) (v : Word) (s : State) : State :=
  if b = R.cwLaneCtrl 0 then patternMode i (laneCtrlWrite i v s)
  else if b = R.cwInject 0 then inject_ i v s
  else if b = R.cwLinkCfg 0 then linkConfig i v s
  else if b = R.cwVc0Map 0 0 then if allHold s then writeFields a v s else setBit s (R.cwLinkStatus i) 27 true
  else writeFields a v s

/-- A write of a DDR4 or bank register. -/
def writeMem (b i a : Nat) (v : Word) (s : State) : State :=
  if [R.ddrChCfg 0, R.ddrTimA 0, R.ddrTimB 0].contains b then ddrCfgWrite i a v s
  else if b = R.ddrRegionBase 0 0 ∨ b = R.ddrRegionSize 0 0 then ddrRegionWrite i a v s
  else if b = R.bankCfg 0 then bankCfgWrite i v s
  else if b = R.bankOwner 0 then ownerWrite i v s
  else if b = R.bankMarchCtrl then marchWrite v s
  else writeFields a v s

/-- A write of a Harbour register; a ring's base only while the ring is disabled, bits [4:0] reading 0. -/
def writeHb (b i a : Nat) (v : Word) (s : State) : State :=
  if b = R.hbCtrl then harbourEnable (v.getLsbD 0) (onBit v 1 flush s)
  else if [R.hbClassA 0, R.hbClassB 0, R.hbClassC 0, R.hbQuota, R.hbDlistCfg 0].contains b then hbCfgWrite a v s
  else if b = R.hbRingBaseLo 0 then if ringOn s i then s else writeFields a (withBits v 0 5 0) s
  else if b = R.hbRingBaseHi 0 then if ringOn s i then s else writeFields a v s
  else if b = R.hbRingCfg 0 then ringCfgWrite i v s
  else if b = R.hbRingTail 0 then ringTailWrite i v s
  else writeFields a v s

/-- A register that R303 locks while the trigger is armed or samples are captured. -/
def acqLocked (b : Nat) : Bool :=
  [R.trgMask, R.trgBrkCfg, R.trgChCfg 0, R.trgChUpperLo 0, R.trgChUpperHi 0, R.trgChLowerLo 0, R.trgChLowerHi 0,
    R.trgRoute 0 0].contains b || decide (R.acqCtrl ≤ b)

/-- A write of a trigger or acquisition register (R303). ACQ_CTRL.en and stop are writable at any time. -/
def writeObs (b a : Nat) (v : Word) (s : State) : State :=
  let busy := trigArmed s || capturing s
  if b = R.trgRunCtrl then runCtrlWrite v s
  else if b = R.trgFreezeAtHi then freezeAt v s
  else if b = R.trgCtrl then onBit v 29 forceTrigger (onBit v 30 disarm (onBit v 31 arm (writeFields a v s)))
  else if b = R.acqCtrl then
    let s := if busy && v.getLsbD 30 != bit s R.acqCtrl 30 then
        setBit (setBit s R.acqCtrl 31 (v.getLsbD 31)) R.trgStatus 27 true
      else writeFields a v s
    onBit v 29 acqStop s
  else if acqLocked b && busy then setBit s R.trgStatus 27 true
  else writeFields a v s

/-- A write of a trace or time register. -/
def writeTime (g : Agent) (b a : Nat) (v : Word) (s : State) : State :=
  if b = R.trcCtrl then watchRun (traceCtrlWrite v) s
  else if b = R.traceMsg then
    traceMsg (match g with | .host => 0 | .footpath => 3 | .core c => 1 + c) v s
  else if b = R.timeCtrl then onBit v 30 servoInit (onBit v 31 timeSet s)
  else if b = R.timeCfg then timeCfgWrite false v s
  else if b = R.timeSyncCfg then timeCfgWrite true v s
  else if b = R.timeIncLo ∨ b = R.timeIncHi then timeIncWrite a v s
  else watchRun (writeFields a v) s

/-- A write of a loader register. -/
def writeLoad (b i a : Nat) (v : Word) (s : State) : State :=
  if b = R.ldCtrl then
    onBit v 27 releaseStep (onBit v 28 loadStart (onBit v 29 loadAbort (onBit v 30 loadGo (onBit v 31 loadArm s))))
  else if b = R.ldCfg then if [0, 6, 7, 8].contains (ldState s) then feedParent (writeFields a v s) else ldLocked s
  else if b = R.ldSrcLo then writeFields a (withBits v 0 4 0) s
  else if b = R.ldRelCfg then if allHold s then writeFields a v s else ldLocked s
  else if [R.ldBwCfg 0, R.ldBwConstLo 0, R.ldBwConstHi 0].contains b then
    if underReload s i then rlLocked s else writeFields a v s
  else if b = R.ldReloadCfg then if reloadInProgress s then rlLocked s else writeFields a v s
  else if b = R.ldReloadCtrl then
    onBit v 28 reloadAbort (onBit v 29 reloadJoin (onBit v 30 reloadEnd (onBit v 31 reloadGo s)))
  else writeFields a v s

/-- A session sets or clears the consume flag (R325). -/
def setConsume (on : Bool) (s : State) : State := setBit (setBit s R.dbgSession 30 on) R.dbgStatus 29 on

/-- A write of a debug register over Footpath (R329, R331, R332). DBG_FEED is written by `feedWrite`. -/
def writeDbg (b i a : Nat) (v : Word) (s : State) : State :=
  if b = R.dbgCtrl then onBit v 30 (fun s => if dbgLevel s = 2 then resumeCores s else s) (onBit v 31 halt s)
  else if b = R.dbgSession then
    let s := if dbgLevel s = 2 then setConsume (v.getLsbD 30) s else s
    onBit v 31 endSession s
  else if b = R.dbgAuthCtrl then onBit v 30 (go (bitsOf v 0 3)) (onBit v 31 getChallenge (writeFields a v s))
  else if b = R.dbgAuthResp 0 then { s with dbg := { s.dbg with response := put (fun _ => 0) s.dbg.response i v } }
  else writeFields a v s

/-- A write of a Lighthouse register. -/
def writeLh (b i a : Nat) (v : Word) (s : State) : State :=
  if b = R.lhCtrl then onBit v 30 restartRequest (onBit v 31 boot s)
  else if b = R.lhFwLen then if bit s R.lhStatus 23 then s else writeFields a v s
  else if b = R.lhWdtCount 0 then onBit v 31 (kick i) s
  else writeFields a v s

/-- A write of a key or life-cycle register (R328, R336, R338). -/
def writeSec (footpath : Bool) (b i : Nat) (v : Word) (s : State) : State :=
  if b = R.secLcCtrl then lcTransition footpath v s
  else if b = R.secKeyCtrl then
    if v.getLsbD 31 then keyProgram footpath (bitsOf v 0 3) s
    else if holdsRight s footpath .kp then writeFields b v s
    else if footpath then s else hostRefused s
  else if b = R.secKeyData 0 then
    if holdsRight s footpath .kp then { s with dbg := { s.dbg with keyData := put (fun _ => 0) s.dbg.keyData i v } }
    else if footpath then s else hostRefused s
  else if (b = R.secKeyStatus ∨ b = R.secKeyId 0) ∧ ¬ footpath ∧ ¬ hostHas s .kp then hostRefused s
  else s

/-- A write of a Lighthouse, debug or security register: the debug registers only over Footpath (R338). -/
def writeLhBlock (g : Agent) (b i a : Nat) (v : Word) (s : State) : State :=
  if b < R.dbgCtrl then writeLh b i a v s
  else if b = R.dbgStatus then writeFields a v s
  else if b < R.secLcState then if overFootpath g then writeDbg b i a v s else hostRefused s
  else writeSec (overFootpath g) b i v s

/-- A write of a BIST or Cairn register. -/
def writeBist (g : Agent) (b a : Nat) (v : Word) (s : State) : State :=
  if b = R.bistCtrl then onBit v 31 bistGo (writeFields a v s)
  else if b = R.bistTeCtrl then testGo (overFootpath g) v s
  else if b = R.cairnCtrl then onBit v 30 (cairnErase (overFootpath g)) (onBit v 31 cairnWrite s)
  else writeFields a v s

/-- A write of a register. A captured half stays (R11). -/
def writeReg (x : Agent) (g : RegGroup) (ix : List Nat) (a : Nat) (v : Word) (s : State) : State :=
  let b := g.base
  let i := ix.headD 0
  if 0x1000000 ≤ b then writeClu b i a v s
  else if b < 0x100000 then writeGlb x b i a v s
  else if b < 0x200000 then writeFlt x b a v s
  else if b < 0x300000 then writeWf b ix a v s
  else if b < 0x400000 then writeCw b i a v s
  else if b < 0x600000 then writeMem b i a v s
  else if b < 0x700000 then writeHb b i a v s
  else if b < 0x780000 then writeObs b a v s
  else if b < 0x800000 then writeTime x b a v s
  else if b < 0x900000 then writeLoad b i a v s
  else if b < 0xA00000 then writeLhBlock x b i a v s
  else writeBist x b a v s

/-! ## Windows -/

/-- Write the entries of a value-store view word (R58). -/
def setStoreWord (n word : Nat) (v : Word) (s : State) : State :=
  let p := viewPlace word
  let fill := fun (m : Sparse Bool) => (List.range 32).foldl (fun acc k => setEntry acc p.1 (p.2 + k) (v.getLsbD k)) m
  let c := clu s n
  setClu s n (if bit s (R.cluVsSel n) 0 then { c with prev := fill c.prev } else { c with cur := fill c.cur })

/-- An access of the value-store view of a cluster (R58). -/
def storeAccess (n word : Nat) (x : Access) (s : State) : State :=
  if !blockOn s (R.cluStatus n) then
    match x with
    | .read => answer [0xFFFFFFFF] (offAccess s)
    | .write _ => offAccess s
  else if designFrozen s then
    match x with
    | .read => answer [storeWord s n word] s
    | .write v => setStoreWord n word v s
  else
    match x with
    | .read => answer [0] (storeBusy n s)
    | .write _ => storeBusy n s

/-- How the bits of a word change: plain, set alias or clear alias, by the position of the window (R207). -/
def aliasOf (window : Nat) (v old : Word) : Word :=
  match window with
  | 0 => v
  | 1 => old ||| v
  | _ => old &&& ~~~ v

/-- A 32-bit write to a BAR0 offset. A write to TRACE_MSG without a trace unit has no effect (R5). -/
def writeWord32 (g : Agent) (a : Nat) (v : Word) (s : State) : State :=
  if a % 4 ≠ 0 then s
  else if a = R.traceMsg ∧ tracePresent s = false then s
  else if inService a then
    serviceWrite (agentParty g) (serviceAt a) (a % 0x40000 / 4) (aliasOf ((a - 0x2000000) / 0x400000) v) s
  else if !blockOn s a then offAccess s
  else if inMsix a then setMsixWord ((a - 0x3FF0000) / 16) (a % 16 / 4) (if a % 16 = 12 then v &&& 1 else v) s
  else if inView a then viewWrite (agentParty g) (a % 0x40000 / 4) (aliasOf ((a - 0x540000) / 0x40000) v) s
  else if inStoreView a then storeAccess (clusterAt a) (a % 0x10000 / 4) (.write v) s
  else if 0x801000 ≤ a ∧ a < 0x802000 then
    reloadWindowWrite (match agentParty g with | .host => 0 | .lighthouse => 1) v s
  else match regAt a with
    | some (r, ix) => writeReg g r ix a v s
    | none => s

/-- A 32-bit write to a BAR2 offset (Table 16.5). -/
def bar2Write (a : Nat) (v : Word) (s : State) : State :=
  if !harbourOn s then offAccess s
  else if a < 0x80 ∧ a % 4 = 0 then ringTailWrite (a / 4) v s
  else if a = 0x10000 then windowWrite (some v) none s
  else if a = 0x10004 then windowWrite none (some v) s
  else s

/-! ## Commands -/

/-- A write narrower than 32 bits is discarded (R9). -/
def badSize (s : State) : State := setBit s R.glbStatus 1 true

/-- The write of one word of a BAR by a party. -/
def writeBarWord (p : Party) (bar : Bar) (a : Nat) (v : Word) (s : State) : State :=
  match bar with
  | .bar0 => writeWord32 (partyAgent p) a v s
  | .bar2 => bar2Write a v s
  | .config _ | .ddrWin => s

/-- The words of a write in ascending order from word offset `a` on (R9, R389): a word that the write covers only in part is
narrower than 32 bits. -/
def writeWords (r : Ref) (a : Nat) : List Word → State → State
  | [], s => s
  | v :: rest, s =>
    writeWords r (a + 4) rest (if r.addr ≤ a ∧ a + 4 ≤ r.addr + r.size then writeBarWord r.party r.bar a v s else badSize s)

/-- A write of the host to a register of configuration space (R387); one bit of it begins an FLR (R400). -/
def configRequest (c : ConfigReg) (mask v : Word) (s : State) : State :=
  let s := configWrite mask v c s
  if beginsFlr mask v c then flr s else s

/-- A write at a BAR offset by a party (R9, R389): `data` are the words that its bytes lie in. A poisoned write of the host is
discarded. -/
def writeRef (r : Ref) (data : List Word) (s : State) : State :=
  if ecrcFails s r then pcieError aerEcrc s
  else match r.bar with
  | .config c =>
    if configActs s r.party then
      if r.poisoned then pcieError aerPoisoned s else configRequest c (byteMask (r.addr % 4) r.size) (data.headD 0) s
    else s
  | .ddrWin =>
    if r.party = .host ∨ lhHalted s then s
    else if !refMapped r then accessException 0 (lhCore s 0).pc s
    else lhDdrWrite r.addr (bytesOfWords data (r.addr % 4) r.size) s
  | .bar0 | .bar2 =>
    if !partyActs s r.party then unsupportedRequest r.party s
    else if r.poisoned && r.party == .host then pcieError aerPoisoned s
    else if !refMapped r then accessException 0 (lhCore s 0).pc s
    else writeWords r (r.addr / 4 * 4) data s

/-- REGISTER_WRITE (R9, R10). -/
def execRegisterWrite (r : Ref) (data : List Word) (s : State) : Out := .next (writeRef r data s)

/-- FORCE_WRITE (R55): the entry is written, and takes effect at the next milestone. -/
def execForceWrite (n : Fin 128) (f : Fin 64) (value : Word) (s : State) : Out :=
  .next (writeWord32 .host (R.cluForce n.val f.val) value s)

/-- SWELL_FLAGS_WRITE (R94). -/
def execSwellFlagsWrite (n : Fin 128) (value : Word) (s : State) : Out :=
  .next (writeWord32 .host (R.cluSwellFlags n.val) value s)

/-- SWELL_ALL (R94). -/
def execSwellAll (s : State) : Out := .next (swellAll s)

/-- VS_VIEW_ACCESS (R58). -/
def execVsViewAccess (n : Fin 128) (word : Fin 16384) (access : Access) (s : State) : Out :=
  .next (storeAccess n.val word.val access s)

/-- The oldest management packet of a kind at NI `i` that is no message for the loader (R133, R258). -/
def takeMgmt (s : State) (i kind : Nat) : Option (Packet × State) :=
  let x := ni s i
  (x.management.find? fun p => headKind p.head == kind && headDst p.head != 155).map fun p =>
    (p, setNi s i { x with management := x.management.erase p })

/-- A posted management write reaches its register (R133); the payload is the command's (log entry 32). -/
def mgmtWrite (i : Nat) (party : Party) (a : Nat) (v : Word) (s : State) : State :=
  match takeMgmt s i 5 with
  | none => s
  | some x => writeWord32 (partyAgent party) a v x.2

/-- MGMT_WRITE (R133). -/
def execMgmtWrite (i : Fin 136) (party : Party) (addr : Nat) (value : Word) (s : State) : Out :=
  .next (mgmtWrite i.val party addr value s)

/-- A management read is answered with the register's word; Lighthouse's endpoint is 154, any other reader is the host. -/
def mgmtRead (i a : Nat) (s : State) : State :=
  match takeMgmt s i 6 with
  | none => s
  | some x =>
    let r := readWord32 (if headSrc x.1.head = 154 then .core 0 else .host) a x.2
    respond i x.1 2 [r.1.setWidth 64] r.2

/-- MGMT_READ (R133). -/
def execMgmtRead (i : Fin 136) (addr : Nat) (s : State) : Out := .next (mgmtRead i.val addr s)

end Sys2Proof.Machine
end

