-- ==== Sys2Proof/Machine/Footpath.lean ====
section
/-! DEFINITION. Footpath requests and replies (R323 to R326, R337), and the feeding of a halted core (R335). A request
command carries a frame that arrived whole; its operand `crcOk` says whether its CRC was right. -/
namespace Sys2Proof.Machine

/-! ## Feeding a halted core (R335) -/

/-- The feed is refused (R335). -/
def feedError (s : State) : State := setBit s R.dbgStatus 25 true

/-- The feed address, bits [1:0] taken as 0. -/
def feedAddress (s : State) : Nat := (reg s R.dbgAddr).toNat / 4 * 4

/-- DBG_ADDR += 4 where the feed asks for it. -/
def stepAddress (inc : Bool) (s : State) : State :=
  if inc then setReg s R.dbgAddr (reg s R.dbgAddr + 4) else s

/-- The consume flag holds. -/
def consumes (s : State) : Bool := bit s R.dbgSession 30

/-- The state after a peek: unchanged without consume but for the free values taken. -/
def peekOnly (before after : State) : State := { before with free := after.free }

/-- The word that core `c` loads from an address, and the state after it; none for an access exception. -/
def lhLoad (c a : Nat) (s : State) : Option (Word × State) :=
  match lhPlace a with
  | .rom o => some (Config.bootRom o, s)
  | .local_ o => some (readWord (lhCore s c).local_ o, s)
  | .device o => some (readWord32 (.core c) o s)
  | .ddr o =>
    let x := lhDdrRead o 4 s
    some (BitVec.ofNat 32 (ofBytesLE x.1), x.2)
  | .none_ => none

/-- The state after core `c` stored a word; none for an access exception, which a store to the boot ROM is too (log
entry 33). -/
def lhStore (c a : Nat) (v : Word) (s : State) : Option State :=
  match lhPlace a with
  | .rom _ => none
  | .local_ o => some (setLhCore s c { lhCore s c with local_ := writeWord (lhCore s c).local_ o v })
  | .device o => some (writeWord32 (.core c) o v s)
  | .ddr o => some (lhDdrWrite o (bytesLE 4 v.toNat) s)
  | .none_ => none

/-- A word of DBG_FEED with the fields that its operation reads: the register for ops 1 and 2, inc for ops 5 and 6. -/
def feedWord (op core g : Nat) (inc : Bool) : Word :=
  BitVec.ofNat 32 (op <<< 28 + core <<< 27 + (inc && (op == 5 || op == 6)).toNat <<< 26 + (if op = 1 ∨ op = 2 then g else 0) <<< 16)

/-- DBG_DATA := g[n] (Table 13.6, op 1). -/
def feedReadReg (c g : Nat) (s : State) : State := setReg s R.dbgData (look (fun _ => 0) (lhCore s c).regs g)

/-- g[n] := DBG_DATA (op 2). -/
def feedWriteReg (c g : Nat) (s : State) : State :=
  setLhCore s c { lhCore s c with regs := put (fun _ => 0) (lhCore s c).regs g (reg s R.dbgData) }

/-- DBG_DATA := program counter (op 3). -/
def feedPc (c : Nat) (s : State) : State := setReg s R.dbgData (lhCore s c).pc

/-- Program counter := DBG_DATA, bits [1:0] taken as 0 (op 4). -/
def feedSetPc (c : Nat) (s : State) : State := setLhCore s c { lhCore s c with pc := withBits (reg s R.dbgData) 0 2 0 }

/-- DBG_DATA := word at DBG_ADDR (op 5); a peek unless consume is set. -/
def feedLoadWord (c : Nat) (inc : Bool) (s : State) : State :=
  match lhLoad c (feedAddress s) s with
  | none => feedError s
  | some x => stepAddress inc (setReg (if consumes s then x.2 else peekOnly s x.2) R.dbgData x.1)

/-- Word at DBG_ADDR := DBG_DATA (op 6). -/
def feedStoreWord (c : Nat) (inc : Bool) (s : State) : State :=
  match lhStore c (feedAddress s) (reg s R.dbgData) s with
  | none => feedError s
  | some t => stepAddress inc t

/-- What a feed word does (Table 13.6). Every store of this model has completed when its command ends. -/
def feedOperation (v : Word) : State → State :=
  let c := bitsOf v 27 1
  let g := bitsOf v 16 5
  let inc := v.getLsbD 26
  match bitsOf v 28 4 with
  | 1 => feedReadReg c g
  | 2 => feedWriteReg c g
  | 3 => feedPc c
  | 4 => feedSetPc c
  | 5 => feedLoadWord c inc
  | 6 => feedStoreWord c inc
  | 7 => id
  | _ => feedError

/-- A feed that a core has finished, or one that executes at once: it takes effect for a full-level session while Lighthouse
is halted. One written while Lighthouse runs, or while another feed executes, is refused (R335). -/
def feed (v : Word) (s : State) : State :=
  if dbgLevel s ≠ 2 then s
  else if ¬ lhHalted s then feedError s
  else match s.dbg.feeding with
    | none => feedOperation v s
    | some w => if w = v then feedOperation v (endFeed s) else feedError s

/-- A write of DBG_FEED whose operation executes at once, or (`slow`) that leaves the core executing: feed_busy reads 1 until
the command of that feed completes it (R335, log entry 53). -/
def feedWrite (slow : Bool) (v : Word) (s : State) : State :=
  if dbgLevel s ≠ 2 then s
  else if ¬ lhHalted s ∨ s.dbg.feeding.isSome then feedError s
  else if slow ∧ 1 ≤ bitsOf v 28 4 ∧ bitsOf v 28 4 ≤ 7 then
    setBit { s with dbg := { s.dbg with feeding := some (feedWord (bitsOf v 28 4) (bitsOf v 27 1) (bitsOf v 16 5) (v.getLsbD 26)) } }
      R.dbgStatus 26 true
  else feedOperation v s

/-- FEED_READ_REGISTER (R335). -/
def execFeedReadRegister (core : Fin 2) (g : Fin 32) (s : State) : Out := .next (feed (feedWord 1 core.val g.val false) s)

/-- FEED_WRITE_REGISTER (R335). -/
def execFeedWriteRegister (core : Fin 2) (g : Fin 32) (s : State) : Out := .next (feed (feedWord 2 core.val g.val false) s)

/-- FEED_READ_PC (R335). -/
def execFeedReadPc (core : Fin 2) (s : State) : Out := .next (feed (feedWord 3 core.val 0 false) s)

/-- FEED_WRITE_PC (R335). -/
def execFeedWritePc (core : Fin 2) (s : State) : Out := .next (feed (feedWord 4 core.val 0 false) s)

/-- FEED_LOAD (R335). -/
def execFeedLoad (core : Fin 2) (inc : Bool) (s : State) : Out := .next (feed (feedWord 5 core.val 0 inc) s)

/-- FEED_STORE (R335). -/
def execFeedStore (core : Fin 2) (inc : Bool) (s : State) : Out := .next (feed (feedWord 6 core.val 0 inc) s)

/-- FEED_COMPLETE_STORES (R335). -/
def execFeedCompleteStores (core : Fin 2) (s : State) : Out := .next (feed (feedWord 7 core.val 0 false) s)

/-! ## Rights (Table 13.7) -/

/-- Right ID lets a register be peeked. -/
def idPeek (b : Nat) : Bool :=
  [R.secLcState, R.secUid 0, R.secKeyStatus, R.secKeyId 0, R.dbgStatus, R.dbgAuthStatus, R.dbgAuthChal 0].contains b

/-- A register with a base in a list. -/
def baseIn (a : Nat) (f : Nat → Bool) : Bool :=
  match regAt a with
  | some (g, _) => f g.base
  | none => false

/-- The session may peek the offset. -/
def mayPeek (s : State) (a : Nat) : Bool := footpathHas s .pk || baseIn a idPeek

/-- A TRC_ register or TRACE_MSG. -/
def traceBlock (a : Nat) : Bool := decide (R.trcCtrl ≤ a) && decide (a ≤ R.traceMsg)

/-- The session may poke the offset. -/
def mayPoke (s : State) (a : Nat) : Bool :=
  footpathHas s .fl || (footpathHas s .tr && traceBlock a) ||
    baseIn a fun b => b == R.dbgAuthCtrl || b == R.dbgAuthResp 0

/-- A poke asks for what a further right of Table 13.7 gives and the session lacks (R336, R337). -/
def pokeLacks (s : State) (a : Nat) (v : Word) : Bool :=
  (a == R.secLcCtrl && v.getLsbD 31 && !transitionAccepted s true v) ||
  (baseIn a (fun b => b == R.secKeyCtrl || b == R.secKeyData 0) && !footpathHas s .kp) ||
  ((a == R.fltInject || a == R.bistTeCtrl) && v.getLsbD 31 && !footpathHas s .te) ||
  (a == R.cairnCtrl && v.getLsbD 30 && !footpathHas s .ce)

/-! ## Frames (R323, Table 13.4) -/

/-- The header byte of a request: op in [7:5], count − 1 in [4:0]. -/
def replyHeader (op count : Nat) : Byte := BitVec.ofNat 8 (op % 8 * 32 + count % 32)

/-- A frame: its bytes and the CRC-8 over them, or that CRC with every bit inverted. -/
def closeFrame (crcOk : Bool) (body : List Byte) : List Byte := body ++ [if crcOk then crc8 body else ~~~ crc8 body]

/-- The frame of a request command; none for any other command. -/
def encodeFrame (i : Instr) : Option (List Byte) :=
  if let .peek a ok := i then some (closeFrame ok (replyHeader 1 0 :: bytesBE (BitVec.ofNat 32 a)))
  else if let .poke a v ⟨ok, _⟩ := i then some (closeFrame ok (replyHeader 2 0 :: bytesBE (BitVec.ofNat 32 a) ++ bytesBE v))
  else if let .burstPeek a n ok := i then
    some (closeFrame ok (replyHeader 3 (n - 1) :: bytesBE (BitVec.ofNat 32 a)))
  else if let .reservedOp op ok := i then some (closeFrame ok [replyHeader op.val 0])
  else none

/-- The word of four bytes, most significant first. -/
def wordBE (b3 b2 b1 b0 : Byte) : Word := b3 ++ b2 ++ b1 ++ b0

/-- The request command of a frame's bytes before its CRC; none where they are no request of Table 13.4. -/
def decodeBody (crcOk : Bool) : List Byte → Option Instr
  | [h] => if [1, 2, 3].contains (bitsOf h 5 3) then none else some (.reservedOp (Fin.ofNat 8 (bitsOf h 5 3)) crcOk)
  | [h, a3, a2, a1, a0] =>
    if bitsOf h 5 3 = 1 then some (.peek (wordBE a3 a2 a1 a0).toNat crcOk)
    else if bitsOf h 5 3 = 3 then some (.burstPeek (wordBE a3 a2 a1 a0).toNat (bitsOf h 0 5 + 1) crcOk)
    else none
  | [h, a3, a2, a1, a0, d3, d2, d1, d0] =>
    if bitsOf h 5 3 = 2 then some (.poke (wordBE a3 a2 a1 a0).toNat (wordBE d3 d2 d1 d0) ⟨crcOk, false⟩) else none
  | _ => none

/-- The request command of a frame that has arrived whole; whether a poke is slow is no part of its frame. -/
def decodeFrame (frame : List Byte) : Option Instr :=
  decodeBody (decide (frame.getLast? = some (crc8 frame.dropLast))) frame.dropLast

/-! ## Requests -/

/-- The first frame with a good CRC opens a session in BLANK and SCRAPPED (Table 13.9); no key was used. -/
def firstFrame (s : State) : State :=
  if dbgLevel s ≠ 0 then s
  else if s.die.lifeCycle = 0 then openSession 2 7 s
  else if s.die.lifeCycle = 5 then openSession 1 7 s
  else s

/-- A reply waits (R324). -/
def reply (status : Nat) (data : List Word) (s : State) : State :=
  { s with dbg := { s.dbg with replies := s.dbg.replies ++ [{ status := status, data := data }] } }

/-- A request with a wrong CRC makes no access (R324). -/
def request (crcOk : Bool) (f : State → State) (s : State) : State := if crcOk then f (firstFrame s) else reply 2 [] s

/-- Words read by a session from an offset up. Without consume nothing changes, and an upper register read after its
lower one shows its present half (R325). -/
def peekWords (s : State) (a n : Nat) : List Word × State :=
  if consumes s then readWords .footpath a n s
  else
    let one := fun k =>
      let x := a + 4 * k
      let low := decide (0 < k) && baseIn (x - 4) pairBases.contains && blockOn s x
      if low then liveAt s x else readValue .footpath x s
    ((List.range n).map one, s)

/-- PEEK and BURST_PEEK of `n` words. -/
def peekRequest (a n : Nat) (s : State) : State :=
  let places := (List.range n).map fun k => a + 4 * k
  if places.all fun x => mayPeek s x then
    let off := places.any fun x => targetOff s x
    let r := peekWords s a n
    reply (if off then 4 else 0) r.1 r.2
  else reply 1 [] s

/-- PEEK (R325). -/
def execPeek (addr : Nat) (crcOk : Bool) (s : State) : Out := .next (request crcOk (peekRequest addr 1) s)

/-- BURST_PEEK (R325): `count` words, 1 to 32. -/
def execBurstPeek (addr count : Nat) (crcOk : Bool) (s : State) : Out :=
  .next (request crcOk (peekRequest addr (min 32 (max 1 count))) s)

/-- The write of a poke: as a host write (R325), the debug registers with the rights of the session. -/
def pokeWrite (slow : Bool) (a : Nat) (v : Word) (s : State) : State :=
  if a = R.dbgFeed then feedWrite slow v s else writeWord32 .footpath a v s

/-- The status of a poke that the session's rights let through. -/
def pokeStatus (s : State) (a : Nat) (v : Word) : Nat := if pokeLacks s a v then 1 else if targetOff s a then 4 else 0

/-- A poke that has not completed within 50 µs: the reply carries status 0x05, and the write follows it (R324, log entry
52). -/
def pokeLate (a : Nat) (v : Word) (s : State) : State :=
  { s with dbg := { s.dbg with replies := s.dbg.replies ++ [{ status := 5, data := [], late := some (a, v) }] } }

/-- POKE of a word; `slow` where its write, or its feed, does not complete at once. -/
def pokeRequest (slow : Bool) (a : Nat) (v : Word) (s : State) : State :=
  if mayPoke s a then
    if slow ∧ pokeStatus s a v = 0 ∧ a ≠ R.dbgFeed then pokeLate a v s
    else reply (pokeStatus s a v) [] (pokeWrite slow a v s)
  else reply 1 [] s

/-- POKE (R325). -/
def execPoke (addr : Nat) (value : Word) (frame : PokeIn) (s : State) : Out :=
  .next (request frame.crcOk (pokeRequest frame.slow addr value) s)

/-- RESERVED_OP (R323): ops 0 and 4 to 7 get status 0x03. The other three are no reserved ops. -/
def execReservedOp (op : Fin 8) (crcOk : Bool) (s : State) : Out :=
  .next (if [1, 2, 3].contains op.val then s else request crcOk (reply 3 []) s)

/-- The bytes of a reply frame: status, words most significant byte first, CRC-8 (R324). -/
def replyFrame (r : Reply) : List Byte :=
  let body := BitVec.ofNat 8 r.status :: r.data.flatMap bytesBE
  body ++ [crc8 body]

/-- FOOTPATH_REPLY (R324): the oldest reply is sent; a poke that it reported as late then completes. -/
def footpathReply (s : State) : State :=
  match s.dbg.replies with
  | [] => s
  | r :: rest =>
    let s := { s with dbg := { s.dbg with replies := rest, sent := s.dbg.sent ++ [replyFrame r] } }
    match r.late with
    | none => s
    | some (a, v) => pokeWrite false a v s

/-- FOOTPATH_REPLY (R324). -/
def execFootpathReply (s : State) : Out := .next (footpathReply s)

/-- FOOTPATH_FRAME_TIMEOUT (R323): the frame in progress is discarded without a reply. A request command carries a whole
frame, so the device holds no part of one. -/
def execFootpathFrameTimeout (s : State) : Out := .next s

/-- FRAMING_ERROR (R323): the frame in progress is discarded without a reply. -/
def execFramingError (s : State) : Out := .next s

end Sys2Proof.Machine
end

