-- ==== Sys2Proof/Machine/Dispatch.lean ====
section
/-! DEFINITION. What each command does to everything but the queue of waiting commands: one arm per constructor. -/
namespace Sys2Proof.Machine

/-- The effect of a command (log entry 1). -/
def exec (i : Instr) (s : State) : Host.Outcome State Fault Refusal :=
  match i with
  | .clusterStep n => Sys2Proof.Machine.execClusterStep n s
  | .mrdLanding n => Sys2Proof.Machine.execMrdLanding n s
  | .vc0WordArrival n => Sys2Proof.Machine.execVc0WordArrival n s
  | .queueAppend n => Sys2Proof.Machine.execQueueAppend n s
  | .wmTimeout n => Sys2Proof.Machine.execWmTimeout n s
  | .niRequestSend n => Sys2Proof.Machine.execNiRequestSend n s
  | .acceptanceReceive n => Sys2Proof.Machine.execAcceptanceReceive n s
  | .domainAsleepReceive n => Sys2Proof.Machine.execDomainAsleepReceive n s
  | .niSourceHoldExpiry n => Sys2Proof.Machine.execNiSourceHoldExpiry n s
  | .routerOutputSelect r => Sys2Proof.Machine.execRouterOutputSelect r s
  | .probeTraceWrite p => Sys2Proof.Machine.execProbeTraceWrite p s
  | .niPacketReceive n => Sys2Proof.Machine.execNiPacketReceive n s
  | .mgmtWrite n party addr value => Sys2Proof.Machine.execMgmtWrite n party addr value s
  | .mgmtRead n addr => Sys2Proof.Machine.execMgmtRead n addr s
  | .reservationProbe n => Sys2Proof.Machine.execReservationProbe n s
  | .legDecision => Sys2Proof.Machine.execLegDecision s
  | .milestone => Sys2Proof.Machine.execMilestone s
  | .milestoneLeave => Sys2Proof.Machine.execMilestoneLeave s
  | .tokenReceive lane x => Sys2Proof.Machine.execTokenReceive lane x s
  | .holdMarkerReceive lane x => Sys2Proof.Machine.execHoldMarkerReceive lane x s
  | .msTokenTimeout => Sys2Proof.Machine.execMsTokenTimeout s
  | .tokenRepeat l => Sys2Proof.Machine.execTokenRepeat l s
  | .registerWrite r data => Sys2Proof.Machine.execRegisterWrite r data s
  | .readClear r => Sys2Proof.Machine.execReadClear r s
  | .captureRead r => Sys2Proof.Machine.execCaptureRead r s
  | .hazardLogRead party => Sys2Proof.Machine.execHazardLogRead party s
  | .forceWrite n f value => Sys2Proof.Machine.execForceWrite n f value s
  | .swellFlagsWrite n value => Sys2Proof.Machine.execSwellFlagsWrite n value s
  | .swellAll => Sys2Proof.Machine.execSwellAll s
  | .vsViewAccess n word access => Sys2Proof.Machine.execVsViewAccess n word access s
  | .routeEntryWrite n e value => Sys2Proof.Machine.execRouteEntryWrite n e value s
  | .quiesce n => Sys2Proof.Machine.execQuiesce n s
  | .niQuiet n => Sys2Proof.Machine.execNiQuiet n s
  | .routerReset r => Sys2Proof.Machine.execRouterReset r s
  | .routerDrainDone r => Sys2Proof.Machine.execRouterDrainDone r s
  | .routerReopen r => Sys2Proof.Machine.execRouterReopen r s
  | .switchReq => Sys2Proof.Machine.execSwitchReq s
  | .ptraceEnable value => Sys2Proof.Machine.execPtraceEnable value s
  | .linkConfig l value => Sys2Proof.Machine.execLinkConfig l value s
  | .retrain lane => Sys2Proof.Machine.execRetrain lane s
  | .loopChange lane loop => Sys2Proof.Machine.execLoopChange lane loop s
  | .patternMode lane => Sys2Proof.Machine.execPatternMode lane s
  | .prbsLock lane bits => Sys2Proof.Machine.execPrbsLock lane bits s
  | .inject lane value => Sys2Proof.Machine.execInject lane value s
  | .laneLock lane => Sys2Proof.Machine.execLaneLock lane s
  | .laneAlign lane inverted => Sys2Proof.Machine.execLaneAlign lane inverted s
  | .trainingSetReceive lane set => Sys2Proof.Machine.execTrainingSetReceive lane set s
  | .laneDown lane => Sys2Proof.Machine.execLaneDown lane s
  | .alignmentMarkerDue l => Sys2Proof.Machine.execAlignmentMarkerDue l s
  | .alignmentMarkerReceive l markers => Sys2Proof.Machine.execAlignmentMarkerReceive l markers s
  | .linkUp l => Sys2Proof.Machine.execLinkUp l s
  | .delayExchange l x => Sys2Proof.Machine.execDelayExchange l x s
  | .delayMeasured l => Sys2Proof.Machine.execDelayMeasured l s
  | .fillerDue lane => Sys2Proof.Machine.execFillerDue lane s
  | .fillerReceive lane => Sys2Proof.Machine.execFillerReceive lane s
  | .cwEbSlip lane full => Sys2Proof.Machine.execCwEbSlip lane full s
  | .unitBoundary lane => Sys2Proof.Machine.execUnitBoundary lane s
  | .frameReceive lane f => Sys2Proof.Machine.execFrameReceive lane f s
  | .vc0FrameReceive l => Sys2Proof.Machine.execVc0FrameReceive l s
  | .flitFrameReceive l => Sys2Proof.Machine.execFlitFrameReceive l s
  | .linkControlReceive l => Sys2Proof.Machine.execLinkControlReceive l s
  | .linkVc0Enter l => Sys2Proof.Machine.execLinkVc0Enter l s
  | .nakReceive l => Sys2Proof.Machine.execNakReceive l s
  | .resendWindowExpiry l => Sys2Proof.Machine.execResendWindowExpiry l s
  | .cwLinkTimeout l => Sys2Proof.Machine.execCwLinkTimeout l s
  | .ownerHandover party b value => Sys2Proof.Machine.execOwnerHandover party b value s
  | .handoverDone b => Sys2Proof.Machine.execHandoverDone b s
  | .bankPowerRequest party b value => Sys2Proof.Machine.execBankPowerRequest party b value s
  | .bankPowerDone b => Sys2Proof.Machine.execBankPowerDone b s
  | .controlViewAccess party word access => Sys2Proof.Machine.execControlViewAccess party word access s
  | .setAliasWrite party target word value => Sys2Proof.Machine.execSetAliasWrite party target word value s
  | .clearAliasWrite party target word value => Sys2Proof.Machine.execClearAliasWrite party target word value s
  | .serviceBankAccess party k word access => Sys2Proof.Machine.execServiceBankAccess party k word access s
  | .marchGo value => Sys2Proof.Machine.execMarchGo value s
  | .marchDone failures => Sys2Proof.Machine.execMarchDone failures s
  | .ddrTrain c step ok lanes => Sys2Proof.Machine.execDdrTrain c step ok lanes s
  | .ddrRefresh c => Sys2Proof.Machine.execDdrRefresh c s
  | .ddrRequest c => Sys2Proof.Machine.execDdrRequest c s
  | .ddrRequestDone c => Sys2Proof.Machine.execDdrRequestDone c s
  | .bar4Access offset length write => Sys2Proof.Machine.execBar4Access offset length write s
  | .bar4WinWrite value => Sys2Proof.Machine.execBar4WinWrite value s
  | .harbourCycle => Sys2Proof.Machine.execHarbourCycle s
  | .dlistTick list => Sys2Proof.Machine.execDlistTick list s
  | .hostMessage buffer => Sys2Proof.Machine.execHostMessage buffer s
  | .blockMover => Sys2Proof.Machine.execBlockMover s
  | .reloadFeed => Sys2Proof.Machine.execReloadFeed s
  | .loopBack => Sys2Proof.Machine.execLoopBack s
  | .reservationAnswer => Sys2Proof.Machine.execReservationAnswer s
  | .parkReprobe => Sys2Proof.Machine.execParkReprobe s
  | .hbParkTimeout => Sys2Proof.Machine.execHbParkTimeout s
  | .actionEnd => Sys2Proof.Machine.execActionEnd s
  | .harbourEnable on => Sys2Proof.Machine.execHarbourEnable on s
  | .flush => Sys2Proof.Machine.execFlush s
  | .ringTailWrite k value => Sys2Proof.Machine.execRingTailWrite k value s
  | .txDescriptorFetch k irq words => Sys2Proof.Machine.execTxDescriptorFetch k irq words s
  | .txWriteBack k => Sys2Proof.Machine.execTxWriteBack k s
  | .ringEnable k value => Sys2Proof.Machine.execRingEnable k value s
  | .dmaError purpose cause => Sys2Proof.Machine.execDmaError purpose cause s
  | .messageWindowWrite low high => Sys2Proof.Machine.execMessageWindowWrite low high s
  | .loadArm => Sys2Proof.Machine.execLoadArm s
  | .loadGo => Sys2Proof.Machine.execLoadGo s
  | .loadAbort => Sys2Proof.Machine.execLoadAbort s
  | .loadStart => Sys2Proof.Machine.execLoadStart s
  | .releaseStep => Sys2Proof.Machine.execReleaseStep s
  | .streamFetch bytes => Sys2Proof.Machine.execStreamFetch bytes s
  | .sectionReceived => Sys2Proof.Machine.execSectionReceived s
  | .fetchFailure sourceError => Sys2Proof.Machine.execFetchFailure sourceError s
  | .backoffExpiry => Sys2Proof.Machine.execBackoffExpiry s
  | .retry message => Sys2Proof.Machine.execRetry message s
  | .rewind message => Sys2Proof.Machine.execRewind message s
  | .rewound l => Sys2Proof.Machine.execRewound l s
  | .endMessage message => Sys2Proof.Machine.execEndMessage message s
  | .abort l => Sys2Proof.Machine.execAbort l s
  | .report l message => Sys2Proof.Machine.execReport l message s
  | .start => Sys2Proof.Machine.execStart s
  | .enterHold => Sys2Proof.Machine.execEnterHold s
  | .loadWrite => Sys2Proof.Machine.execLoadWrite s
  | .loadComplete => Sys2Proof.Machine.execLoadComplete s
  | .shoreWordTransfer word last => Sys2Proof.Machine.execShoreWordTransfer word last s
  | .scrubRead n => Sys2Proof.Machine.execScrubRead n s
  | .scrubPassEnd n => Sys2Proof.Machine.execScrubPassEnd n s
  | .reloadGo => Sys2Proof.Machine.execReloadGo s
  | .reloadLeaveRun => Sys2Proof.Machine.execReloadLeaveRun s
  | .reloadReceiving => Sys2Proof.Machine.execReloadReceiving s
  | .breakwaterLaunch n w => Sys2Proof.Machine.execBreakwaterLaunch n w s
  | .reloadWindowWrite source value => Sys2Proof.Machine.execReloadWindowWrite source value s
  | .reloadEnd => Sys2Proof.Machine.execReloadEnd s
  | .reloadReady => Sys2Proof.Machine.execReloadReady s
  | .reloadJoin => Sys2Proof.Machine.execReloadJoin s
  | .reloadAbort => Sys2Proof.Machine.execReloadAbort s
  | .slotPlan => Sys2Proof.Machine.execSlotPlan s
  | .freeze => Sys2Proof.Machine.execFreeze s
  | .run => Sys2Proof.Machine.execRun s
  | .step => Sys2Proof.Machine.execStep s
  | .stop => Sys2Proof.Machine.execStop s
  | .freezeAt value => Sys2Proof.Machine.execFreezeAt value s
  | .arm => Sys2Proof.Machine.execArm s
  | .disarm => Sys2Proof.Machine.execDisarm s
  | .forceTrigger => Sys2Proof.Machine.execForceTrigger s
  | .acqStop => Sys2Proof.Machine.execAcqStop s
  | .captureDrain => Sys2Proof.Machine.execCaptureDrain s
  | .pauseResume => Sys2Proof.Machine.execPauseResume s
  | .segmentRearm => Sys2Proof.Machine.execSegmentRearm s
  | .timeTick => Sys2Proof.Machine.execTimeTick s
  | .timeSet => Sys2Proof.Machine.execTimeSet s
  | .servoReset => Sys2Proof.Machine.execServoReset s
  | .timeCfgWrite sync value => Sys2Proof.Machine.execTimeCfgWrite sync value s
  | .syncSend l => Sys2Proof.Machine.execSyncSend l s
  | .syncReceive l f => Sys2Proof.Machine.execSyncReceive l f s
  | .followUpReceive l f => Sys2Proof.Machine.execFollowUpReceive l f s
  | .delayReqReceive l f => Sys2Proof.Machine.execDelayReqReceive l f s
  | .delayRespReceive l f => Sys2Proof.Machine.execDelayRespReceive l f s
  | .timeSyncLost => Sys2Proof.Machine.execTimeSyncLost s
  | .boot => Sys2Proof.Machine.execBoot s
  | .firmwareVerified => Sys2Proof.Machine.execFirmwareVerified s
  | .restart => Sys2Proof.Machine.execRestart s
  | .kick c => Sys2Proof.Machine.execKick c s
  | .lhWatchdog c => Sys2Proof.Machine.execLhWatchdog c s
  | .peek addr crcOk => Sys2Proof.Machine.execPeek addr crcOk s
  | .poke addr value frame => Sys2Proof.Machine.execPoke addr value frame s
  | .burstPeek addr count crcOk => Sys2Proof.Machine.execBurstPeek addr count crcOk s
  | .reservedOp op crcOk => Sys2Proof.Machine.execReservedOp op crcOk s
  | .footpathReply => Sys2Proof.Machine.execFootpathReply s
  | .footpathFrameTimeout => Sys2Proof.Machine.execFootpathFrameTimeout s
  | .get => Sys2Proof.Machine.execGet s
  | .go slot => Sys2Proof.Machine.execGo slot s
  | .challengeExpiry => Sys2Proof.Machine.execChallengeExpiry s
  | .lockoutExpiry => Sys2Proof.Machine.execLockoutExpiry s
  | .sessionEnd => Sys2Proof.Machine.execSessionEnd s
  | .sessionTimeout => Sys2Proof.Machine.execSessionTimeout s
  | .halt => Sys2Proof.Machine.execHalt s
  | .haltComplete => Sys2Proof.Machine.execHaltComplete s
  | .resume => Sys2Proof.Machine.execResume s
  | .feedReadRegister core g => Sys2Proof.Machine.execFeedReadRegister core g s
  | .feedWriteRegister core g => Sys2Proof.Machine.execFeedWriteRegister core g s
  | .feedReadPc core => Sys2Proof.Machine.execFeedReadPc core s
  | .feedWritePc core => Sys2Proof.Machine.execFeedWritePc core s
  | .feedLoad core inc => Sys2Proof.Machine.execFeedLoad core inc s
  | .feedStore core inc => Sys2Proof.Machine.execFeedStore core inc s
  | .feedCompleteStores core => Sys2Proof.Machine.execFeedCompleteStores core s
  | .lcTransition footpath value => Sys2Proof.Machine.execLcTransition footpath value s
  | .keyProgram footpath slot => Sys2Proof.Machine.execKeyProgram footpath slot s
  | .fuseWriteDone outcome => Sys2Proof.Machine.execFuseWriteDone outcome s
  | .coreBranch core exception notTaken target => Sys2Proof.Machine.execCoreBranch core exception notTaken target s
  | .coreDataAccess core kind addr => Sys2Proof.Machine.execCoreDataAccess core kind addr s
  | .coreSleep core => Sys2Proof.Machine.execCoreSleep core s
  | .coreWake core => Sys2Proof.Machine.execCoreWake core s
  | .traceMsg writer value => Sys2Proof.Machine.execTraceMsg writer value s
  | .traceRoom source => Sys2Proof.Machine.execTraceRoom source s
  | .trig => Sys2Proof.Machine.execTrig s
  | .faultEvent => Sys2Proof.Machine.execFaultEvent s
  | .severity7Reset => Sys2Proof.Machine.execSeverity7Reset s
  | .faultInject footpath value => Sys2Proof.Machine.execFaultInject footpath value s
  | .safeRelease => Sys2Proof.Machine.execSafeRelease s
  | .sevLock => Sys2Proof.Machine.execSevLock s
  | .cairnCommit readBackOk => Sys2Proof.Machine.execCairnCommit readBackOk s
  | .cairnWrite => Sys2Proof.Machine.execCairnWrite s
  | .erase footpath => Sys2Proof.Machine.execErase footpath s
  | .eraseDone => Sys2Proof.Machine.execEraseDone s
  | .bistRun => Sys2Proof.Machine.execBistRun s
  | .bistDone result => Sys2Proof.Machine.execBistDone result s
  | .testEngineGo footpath value => Sys2Proof.Machine.execTestEngineGo footpath value s
  | .testEngineDone => Sys2Proof.Machine.execTestEngineDone s
  | .domainRequest d on => Sys2Proof.Machine.execDomainRequest d on s
  | .domainClose d => Sys2Proof.Machine.execDomainClose d s
  | .domainDrainDone d => Sys2Proof.Machine.execDomainDrainDone d s
  | .domainOff d => Sys2Proof.Machine.execDomainOff d s
  | .domainOpen d => Sys2Proof.Machine.execDomainOpen d s
  | .railInRange d => Sys2Proof.Machine.execRailInRange d s
  | .railTimeout d => Sys2Proof.Machine.execRailTimeout d s
  | .domainOn d => Sys2Proof.Machine.execDomainOn d s
  | .railOutOfRange d => Sys2Proof.Machine.execRailOutOfRange d s
  | .fllCalibrate island => Sys2Proof.Machine.execFllCalibrate island s
  | .thermalDecision => Sys2Proof.Machine.execThermalDecision s
  | .sensorSample sensor celsius => Sys2Proof.Machine.execSensorSample sensor celsius s
  | .refclkLoss clock => Sys2Proof.Machine.execRefclkLoss clock s
  | .refclkReturn clock => Sys2Proof.Machine.execRefclkReturn clock s
  | .coldReset source straps => Sys2Proof.Machine.execColdReset source straps s
  | .warmReset source => Sys2Proof.Machine.execWarmReset source s
  | .reachReset r => Sys2Proof.Machine.execReachReset r s
  | .flr => Sys2Proof.Machine.execFlr s
  | .irqCauseClear high value => Sys2Proof.Machine.execIrqCauseClear high value s
  | .msixSend v => Sys2Proof.Machine.execMsixSend v s
  | .msixPendingSend v => Sys2Proof.Machine.execMsixPendingSend v s
  | .lhDoorbell value => Sys2Proof.Machine.execLhDoorbell value s
  | .powerStateChange d3hot => Sys2Proof.Machine.execPowerStateChange d3hot s
  | .busMasterEnable on memorySpace msix functionMask => Sys2Proof.Machine.execBusMasterEnable on memorySpace msix functionMask s
  | .pcieLinkDown => Sys2Proof.Machine.execPcieLinkDown s
  | .tideStart => Sys2Proof.Machine.execTideStart s
  | .tidePhaseEnd x => Sys2Proof.Machine.execTidePhaseEnd x s
  | .shoreWordArrival n => Sys2Proof.Machine.execShoreWordArrival n s
  | .reloadChecked => Sys2Proof.Machine.execReloadChecked s
  | .pcieLinkUp speed width => Sys2Proof.Machine.execPcieLinkUp speed width s
  | .framingError => Sys2Proof.Machine.execFramingError s
  | .phaseStrobeRise => Sys2Proof.Machine.execPhaseStrobeRise s

end Sys2Proof.Machine
end

