-- ==== Sys2Proof/Laws/Sparse.lean ====
section
/-! SUPPORT. Sparse maps and byte memories: what a read after a write gives, and that every write keeps the canonical
form. -/
namespace Sys2Proof.Machine

/-- A read after a write of a sparse map. -/
@[simp] theorem look_put {α : Type} [DecidableEq α] (d : Nat → α) (m : Sparse α) (k : Nat) (v : α) (j : Nat) :
    look d (put d m k v) j = if j = k then v else look d m j := by
  induction m with
  | nil => unfold put; split <;> simp [look] <;> intro h <;> simp_all
  | cons x rest ih =>
    obtain ⟨a, u⟩ := x
    unfold put
    split
    · split
      · rename_i h1 h2; subst h2; rw [ih]; by_cases h : j = k <;> simp [look, h]
      · rename_i h1 h2; simp only [look, ih]; split <;> simp_all; intro h; omega
    · split
      · simp [look]
      · split
        · simp_all [look]
        · simp only [look, ih]; split <;> simp_all; intro h; omega

/-- A listed value after one was listed. -/
@[simp] theorem find_enter {α : Type} (m : Sparse α) (k : Nat) (v : α) (j : Nat) :
    find (enter m k v) j = if j = k then some v else find m j := by
  induction m with
  | nil => simp [enter, find]
  | cons x rest ih =>
    obtain ⟨a, u⟩ := x
    unfold enter
    split
    · simp [find]
    · split
      · simp_all [find]
      · simp only [find, ih]; split <;> simp_all; intro h; omega

/-- A listed value after one was unlisted. -/
@[simp] theorem find_drop {α : Type} (m : Sparse α) (k j : Nat) :
    find (drop m k) j = if j = k then none else find m j := by
  unfold drop
  induction m with
  | nil => simp [find]
  | cons x rest ih =>
    obtain ⟨a, u⟩ := x
    by_cases h : a = k
    · subst h; simp only [List.filter, ne_eq, not_true, decide_false, find, ih]; split <;> simp_all
    · simp only [List.filter, ne_eq, h, not_false_iff, decide_true, find, ih]; split <;> simp_all

/-- What a write can leave in the list. -/
theorem put_mem {α : Type} [DecidableEq α] (d : Nat → α) (m : Sparse α) (k : Nat) (v : α) (x : Nat × α)
    (h : x ∈ put d m k v) : x ∈ m ∨ (x = (k, v) ∧ v ≠ d k) := by
  induction m with
  | nil => unfold put at h; split at h <;> simp_all
  | cons y rest ih =>
    unfold put at h
    split at h
    · split at h
      · rcases ih h with h | h <;> simp_all
      · rcases List.mem_cons.1 h with h | h
        · simp_all
        · rcases ih h with h | h <;> simp_all
    · split at h
      · simp_all; tauto
      · split at h
        · simp_all; tauto
        · rcases List.mem_cons.1 h with h | h
          · simp_all
          · rcases ih h with h | h <;> simp_all

/-- A write keeps the canonical form. -/
theorem put_wf {α : Type} [DecidableEq α] (d : Nat → α) (m : Sparse α) (k : Nat) (v : α) (h : sparseWf d m = true) :
    sparseWf d (put d m k v) = true := by
  simp only [sparseWf, Bool.and_eq_true, decide_eq_true_eq, List.all_eq_true] at h ⊢
  obtain ⟨hp, hv⟩ := h
  constructor
  · clear hv
    induction m with
    | nil => unfold put; split <;> simp
    | cons y rest ih =>
      obtain ⟨a, u⟩ := y
      rw [List.pairwise_cons] at hp
      have ih := ih hp.2
      unfold put
      split
      · split
        · exact ih
        · refine List.pairwise_cons.2 ⟨fun x hx => ?_, ih⟩
          rcases put_mem d rest k v x hx with h | ⟨h, h'⟩
          · exact hp.1 x h
          · contradiction
      · split
        · refine List.pairwise_cons.2 ⟨fun x hx => ?_, List.pairwise_cons.2 hp⟩
          rcases List.mem_cons.1 hx with h | h
          · subst h; assumption
          · have := hp.1 x h; simp at *; omega
        · split
          · subst_vars; exact List.pairwise_cons.2 hp
          · refine List.pairwise_cons.2 ⟨fun x hx => ?_, ih⟩
            rcases put_mem d rest k v x hx with h | ⟨h, h'⟩
            · exact hp.1 x h
            · subst h; simp; omega
  · intro x hx
    rcases put_mem d m k v x hx with h | ⟨h, h'⟩
    · exact hv x h
    · subst h; exact h'

/-- The bytes of a memory are canonical when its cells are. -/
theorem Mem.wf_iff (m : Mem) : m.wf ↔ sparseWf (unwritten m.epoch) m.cells = true := by
  simp [Mem.wf, sparseWf, List.all_eq_true]

/-- A read of one byte after a write of one. -/
@[simp] theorem readByte_writeByte (m : Mem) (a b : Nat) (v : Byte) :
    readByte (writeByte m a v) b = if b = a then v else readByte m b := by
  simp [readByte, writeByte]

/-- A write of a byte loses no other memory's epoch. -/
@[simp] theorem writeByte_epoch (m : Mem) (a : Nat) (v : Byte) : (writeByte m a v).epoch = m.epoch := rfl

/-- A write of a byte keeps the canonical form. -/
theorem writeByte_wf (m : Mem) (a : Nat) (v : Byte) (h : m.wf) : (writeByte m a v).wf := by
  rw [Mem.wf_iff] at h ⊢
  exact put_wf _ _ _ _ h

/-- A write of bytes keeps the canonical form. -/
theorem writeBytes_wf (m : Mem) (a : Nat) (l : List Byte) (h : m.wf) : (writeBytes m a l).wf := by
  induction l generalizing m a with
  | nil => exact h
  | cons b r ih => exact ih _ _ (writeByte_wf m a b h)

/-- A write of enabled bytes keeps the canonical form. -/
theorem writeEnabled_wf (m : Mem) (a : Nat) (l : List (Option Byte)) (h : m.wf) : (writeEnabled m a l).wf := by
  induction l generalizing m a with
  | nil => exact h
  | cons b r ih =>
    cases b with
    | none => exact ih _ _ h
    | some b => exact ih _ _ (writeByte_wf m a b h)

/-- A write of a 32-bit word keeps the canonical form. -/
theorem writeWord_wf (m : Mem) (a : Nat) (w : Word) (h : m.wf) : (writeWord m a w).wf := writeBytes_wf m a _ h

/-- A write of a 64-bit word keeps the canonical form. -/
theorem writeDWord_wf (m : Mem) (a : Nat) (w : DWord) (h : m.wf) : (writeDWord m a w).wf := writeBytes_wf m a _ h

/-- Lost contents are canonical. -/
theorem loseContents_wf (m : Mem) : (loseContents m).wf := by simp [Mem.wf, loseContents]

/-- Zeros are canonical. -/
theorem zeroContents_wf : zeroContents.wf := by simp [Mem.wf, zeroContents]

/-- A read of one byte after a write of enabled bytes. -/
theorem readByte_writeEnabled (m : Mem) (a : Nat) (l : List (Option Byte)) (b : Nat) :
    readByte (writeEnabled m a l) b =
      if a ≤ b ∧ b < a + l.length then (l.getD (b - a) none).getD (readByte m b) else readByte m b := by
  induction l generalizing m a with
  | nil => simp [writeEnabled]
  | cons v r ih =>
    have rest : ∀ n : Mem, readByte n b = readByte m b ∨ b = a →
        readByte (writeEnabled n (a + 1) r) b =
          if b = a then readByte n b
          else if a ≤ b ∧ b < a + (v :: r).length then ((v :: r).getD (b - a) none).getD (readByte m b) else readByte m b := by
      intro n hn
      rw [ih]
      by_cases h : b = a
      · subst h; simp
      · have hn : readByte n b = readByte m b := by tauto
        rw [if_neg h, hn]
        by_cases h1 : a + 1 ≤ b ∧ b < a + 1 + r.length
        · rw [if_pos h1, if_pos (by simp; omega)]
          obtain ⟨k, rfl⟩ : ∃ k, b = a + 1 + k := ⟨b - (a + 1), by omega⟩
          have e1 : a + 1 + k - (a + 1) = k := by omega
          have e2 : a + 1 + k - a = k + 1 := by omega
          rw [e1, e2]; simp
        · rw [if_neg h1, if_neg (by simp; omega)]
    cases v with
    | none =>
      rw [writeEnabled, rest m (Or.inl rfl)]
      by_cases h : b = a <;> simp [h]
    | some x =>
      rw [writeEnabled, rest _ (by rw [readByte_writeByte]; by_cases h : b = a <;> simp [h]), readByte_writeByte]
      by_cases h : b = a <;> simp [h]

/-- A read of one byte after a write of bytes. -/
theorem readByte_writeBytes (m : Mem) (a : Nat) (l : List Byte) (b : Nat) :
    readByte (writeBytes m a l) b = if a ≤ b ∧ b < a + l.length then l.getD (b - a) 0 else readByte m b := by
  induction l generalizing m a with
  | nil => simp [writeBytes]
  | cons v r ih =>
    rw [writeBytes, ih, readByte_writeByte]
    by_cases h : b = a
    · subst h; simp
    · by_cases h1 : a + 1 ≤ b ∧ b < a + 1 + r.length
      · rw [if_pos h1, if_pos (by simp; omega)]
        obtain ⟨k, rfl⟩ : ∃ k, b = a + 1 + k := ⟨b - (a + 1), by omega⟩
        have e1 : a + 1 + k - (a + 1) = k := by omega
        have e2 : a + 1 + k - a = k + 1 := by omega
        rw [e1, e2]; simp
      · rw [if_neg h1, if_neg h, if_neg (by simp; omega)]

end Sys2Proof.Machine
end

