-- ==== Sys2Proof/Laws/Regs.lean ====
section
/-! SUPPORT. Fields of words and registers: what a read after a write gives. -/
namespace Sys2Proof.Machine

/-! ## Fields of a word -/

/-- Bit `i` of a word after a field was written. -/
theorem getLsbD_withBits {m : Nat} (w : BitVec m) (lo n v i : Nat) :
    (withBits w lo n v).getLsbD i =
      if lo ≤ i ∧ i < lo + n ∧ i < m then v.testBit (i - lo) else w.getLsbD i := by
  unfold withBits
  simp only [BitVec.getLsbD_or, BitVec.getLsbD_and, BitVec.getLsbD_not, BitVec.getLsbD_ofNat,
    Nat.testBit_shiftLeft, Nat.testBit_two_pow_sub_one, Nat.testBit_mod_two_pow]
  by_cases hm : i < m
  · by_cases h1 : lo ≤ i
    · by_cases h2 : i < lo + n
      · have h3 : i - lo < n := by omega
        simp [hm, h1, h2, h3]
      · have h3 : ¬ i - lo < n := by omega
        simp [hm, h1, h2, h3]
    · simp [hm, h1]
  · simp [hm, BitVec.getLsbD_of_ge w i (by omega)]

/-- Bit `i` of a field of a word. -/
theorem testBit_bitsOf {m : Nat} (x : BitVec m) (lo n i : Nat) :
    (bitsOf x lo n).testBit i = (decide (i < n) && x.getLsbD (lo + i)) := by
  simp [bitsOf, BitVec.getLsbD]

/-- A field after it was written. -/
theorem bitsOf_withBits {m : Nat} (w : BitVec m) (lo n v : Nat) (h : lo + n ≤ m) :
    bitsOf (withBits w lo n v) lo n = v % 2 ^ n := by
  apply Nat.eq_of_testBit_eq
  intro i
  rw [testBit_bitsOf, getLsbD_withBits, Nat.testBit_mod_two_pow]
  by_cases hi : i < n
  · have : lo ≤ lo + i ∧ lo + i < lo + n ∧ lo + i < m := by omega
    simp [hi, this]
  · simp [hi]

/-- A field after another one was written. -/
theorem bitsOf_withBits_ne {m : Nat} (w : BitVec m) (lo n v lo' n' : Nat) (h : lo' + n' ≤ lo ∨ lo + n ≤ lo') :
    bitsOf (withBits w lo n v) lo' n' = bitsOf w lo' n' := by
  apply Nat.eq_of_testBit_eq
  intro i
  rw [testBit_bitsOf, testBit_bitsOf, getLsbD_withBits]
  by_cases hi : i < n'
  · have : ¬ (lo ≤ lo' + i ∧ lo' + i < lo + n ∧ lo' + i < m) := by omega
    simp [hi, this]
  · simp [hi]

/-- A bit after a field that does not hold it was written. -/
theorem getLsbD_withBits_ne {m : Nat} (w : BitVec m) (lo n v i : Nat) (h : i < lo ∨ lo + n ≤ i) :
    (withBits w lo n v).getLsbD i = w.getLsbD i := by
  rw [getLsbD_withBits, if_neg (by omega)]

/-- A field is smaller than 2 to its width. -/
theorem bitsOf_lt {m : Nat} (x : BitVec m) (lo n : Nat) : bitsOf x lo n < 2 ^ n := Nat.mod_lt _ (Nat.two_pow_pos n)

/-! ## Registers -/

/-- A register after one was stored. -/
@[simp] theorem reg_setReg (s : State) (a : Nat) (w : Word) (b : Nat) :
    reg (setReg s a w) b = if b = a then w else reg s b := by
  simp [reg, setReg]

/-- A register after a field was stored. -/
theorem reg_setBits (s : State) (a lo n v b : Nat) :
    reg (setBits s a lo n v) b = if b = a then withBits (reg s a) lo n v else reg s b := by
  simp [setBits]

/-- A register after a bit was stored. -/
theorem reg_setBit (s : State) (a i : Nat) (v : Bool) (b : Nat) :
    reg (setBit s a i v) b = if b = a then withBits (reg s a) i 1 v.toNat else reg s b := by
  simp [setBit, reg_setBits]

/-- A register that another store does not touch. -/
theorem reg_setBits_ne (s : State) (a lo n v b : Nat) (h : b ≠ a) : reg (setBits s a lo n v) b = reg s b := by
  simp [reg_setBits, h]

/-- A register that the store of a bit of another one does not touch. -/
theorem reg_setBit_ne (s : State) (a i : Nat) (v : Bool) (b : Nat) (h : b ≠ a) : reg (setBit s a i v) b = reg s b := by
  simp [reg_setBit, h]

/-- A field after it was stored. -/
@[simp] theorem bits_setBits (s : State) (a lo n v : Nat) (h : lo + n ≤ 32) :
    bits (setBits s a lo n v) a lo n = v % 2 ^ n := by
  simp [bits, reg_setBits, bitsOf_withBits _ _ _ _ h]

/-- A field after a disjoint field of its register, or a field of another register, was stored. -/
theorem bits_setBits_ne (s : State) (a lo n v b lo' n' : Nat) (h : b ≠ a ∨ lo' + n' ≤ lo ∨ lo + n ≤ lo') :
    bits (setBits s a lo n v) b lo' n' = bits s b lo' n' := by
  unfold bits
  rw [reg_setBits]
  by_cases hb : b = a
  · subst hb
    rw [if_pos rfl, bitsOf_withBits_ne _ _ _ _ _ _ (by simpa using h)]
  · rw [if_neg hb]

/-- A field after a bit outside it, or of another register, was stored. -/
theorem bits_setBit_ne (s : State) (a i : Nat) (v : Bool) (b lo n : Nat) (h : b ≠ a ∨ lo + n ≤ i ∨ i + 1 ≤ lo) :
    bits (setBit s a i v) b lo n = bits s b lo n := bits_setBits_ne s a i 1 _ b lo n h

/-- A bit after a field that does not hold it, or of another register, was stored. -/
theorem bit_setBits_ne (s : State) (a lo n v b i : Nat) (h : b ≠ a ∨ i < lo ∨ lo + n ≤ i) :
    bit (setBits s a lo n v) b i = bit s b i := by
  unfold bit
  rw [reg_setBits]
  by_cases hb : b = a
  · subst hb
    rw [if_pos rfl, getLsbD_withBits_ne _ _ _ _ _ (by simpa using h)]
  · rw [if_neg hb]

/-- A bit after it was stored. -/
@[simp] theorem bit_setBit (s : State) (a i : Nat) (v : Bool) (h : i < 32) : bit (setBit s a i v) a i = v := by
  simp only [bit, reg_setBit, if_pos, getLsbD_withBits]
  rw [if_pos (by omega)]
  cases v <;> simp

/-- A bit after another one was stored. -/
theorem bit_setBit_ne (s : State) (a i : Nat) (v : Bool) (b j : Nat) (h : b ≠ a ∨ j ≠ i) :
    bit (setBit s a i v) b j = bit s b j := bit_setBits_ne s a i 1 _ b j (by omega)

/-- A bit after it was stored, whatever its place in the field. -/
theorem bit_setBits (s : State) (a lo n v i : Nat) (h : lo ≤ i ∧ i < lo + n ∧ i < 32) :
    bit (setBits s a lo n v) a i = v.testBit (i - lo) := by
  simp only [bit, reg_setBits, if_pos, getLsbD_withBits, h, and_self]

/-- The register map stays canonical. -/
theorem setReg_wf (s : State) (a : Nat) (w : Word) (h : sparseWf resetWord s.regs = true) :
    sparseWf resetWord (setReg s a w).regs = true := put_wf _ _ _ _ h

end Sys2Proof.Machine
end

