-- ==== Sys2Proof/Laws/State.lean ====
section
/-! SUPPORT. What each shared update of the state leaves alone and what it writes: one lemma per field. -/
namespace Sys2Proof.Machine

/-! ## setReg: a register store -/

@[simp] theorem setReg_pending (s : State) (a : Nat) (w : Word) : (setReg s a w).pending = s.pending := rfl
@[simp] theorem setReg_regs (s : State) (a : Nat) (w : Word) : (setReg s a w).regs = put resetWord s.regs a w := rfl
@[simp] theorem setReg_halves (s : State) (a : Nat) (w : Word) : (setReg s a w).halves = s.halves := rfl
@[simp] theorem setReg_readData (s : State) (a : Nat) (w : Word) : (setReg s a w).readData = s.readData := rfl
@[simp] theorem setReg_free (s : State) (a : Nat) (w : Word) : (setReg s a w).free = s.free := rfl
@[simp] theorem setReg_die (s : State) (a : Nat) (w : Word) : (setReg s a w).die = s.die := rfl
@[simp] theorem setReg_clusters (s : State) (a : Nat) (w : Word) : (setReg s a w).clusters = s.clusters := rfl
@[simp] theorem setReg_sched (s : State) (a : Nat) (w : Word) : (setReg s a w).sched = s.sched := rfl
@[simp] theorem setReg_net (s : State) (a : Nat) (w : Word) : (setReg s a w).net = s.net := rfl
@[simp] theorem setReg_flt (s : State) (a : Nat) (w : Word) : (setReg s a w).flt = s.flt := rfl
@[simp] theorem setReg_cairn (s : State) (a : Nat) (w : Word) : (setReg s a w).cairn = s.cairn := rfl
@[simp] theorem setReg_banks (s : State) (a : Nat) (w : Word) : (setReg s a w).banks = s.banks := rfl
@[simp] theorem setReg_time (s : State) (a : Nat) (w : Word) : (setReg s a w).time = s.time := rfl
@[simp] theorem setReg_cw (s : State) (a : Nat) (w : Word) : (setReg s a w).cw = s.cw := rfl
@[simp] theorem setReg_bist (s : State) (a : Nat) (w : Word) : (setReg s a w).bist = s.bist := rfl
@[simp] theorem setReg_ddr (s : State) (a : Nat) (w : Word) : (setReg s a w).ddr = s.ddr := rfl
@[simp] theorem setReg_hb (s : State) (a : Nat) (w : Word) : (setReg s a w).hb = s.hb := rfl
@[simp] theorem setReg_trc (s : State) (a : Nat) (w : Word) : (setReg s a w).trc = s.trc := rfl
@[simp] theorem setReg_pcie (s : State) (a : Nat) (w : Word) : (setReg s a w).pcie = s.pcie := rfl
@[simp] theorem setReg_rl (s : State) (a : Nat) (w : Word) : (setReg s a w).rl = s.rl := rfl
@[simp] theorem setReg_dbg (s : State) (a : Nat) (w : Word) : (setReg s a w).dbg = s.dbg := rfl
@[simp] theorem setReg_shore (s : State) (a : Nat) (w : Word) : (setReg s a w).shore = s.shore := rfl
@[simp] theorem setReg_acq (s : State) (a : Nat) (w : Word) : (setReg s a w).acq = s.acq := rfl
@[simp] theorem setReg_ld (s : State) (a : Nat) (w : Word) : (setReg s a w).ld = s.ld := rfl
@[simp] theorem setReg_pwr (s : State) (a : Nat) (w : Word) : (setReg s a w).pwr = s.pwr := rfl

/-! ## setBits: a field store -/

@[simp] theorem setBits_pending (s : State) (a lo n v : Nat) : (setBits s a lo n v).pending = s.pending := rfl
@[simp] theorem setBits_halves (s : State) (a lo n v : Nat) : (setBits s a lo n v).halves = s.halves := rfl
@[simp] theorem setBits_readData (s : State) (a lo n v : Nat) : (setBits s a lo n v).readData = s.readData := rfl
@[simp] theorem setBits_free (s : State) (a lo n v : Nat) : (setBits s a lo n v).free = s.free := rfl
@[simp] theorem setBits_die (s : State) (a lo n v : Nat) : (setBits s a lo n v).die = s.die := rfl
@[simp] theorem setBits_clusters (s : State) (a lo n v : Nat) : (setBits s a lo n v).clusters = s.clusters := rfl
@[simp] theorem setBits_sched (s : State) (a lo n v : Nat) : (setBits s a lo n v).sched = s.sched := rfl
@[simp] theorem setBits_net (s : State) (a lo n v : Nat) : (setBits s a lo n v).net = s.net := rfl
@[simp] theorem setBits_flt (s : State) (a lo n v : Nat) : (setBits s a lo n v).flt = s.flt := rfl
@[simp] theorem setBits_cairn (s : State) (a lo n v : Nat) : (setBits s a lo n v).cairn = s.cairn := rfl
@[simp] theorem setBits_banks (s : State) (a lo n v : Nat) : (setBits s a lo n v).banks = s.banks := rfl
@[simp] theorem setBits_time (s : State) (a lo n v : Nat) : (setBits s a lo n v).time = s.time := rfl
@[simp] theorem setBits_cw (s : State) (a lo n v : Nat) : (setBits s a lo n v).cw = s.cw := rfl
@[simp] theorem setBits_bist (s : State) (a lo n v : Nat) : (setBits s a lo n v).bist = s.bist := rfl
@[simp] theorem setBits_ddr (s : State) (a lo n v : Nat) : (setBits s a lo n v).ddr = s.ddr := rfl
@[simp] theorem setBits_hb (s : State) (a lo n v : Nat) : (setBits s a lo n v).hb = s.hb := rfl
@[simp] theorem setBits_trc (s : State) (a lo n v : Nat) : (setBits s a lo n v).trc = s.trc := rfl
@[simp] theorem setBits_pcie (s : State) (a lo n v : Nat) : (setBits s a lo n v).pcie = s.pcie := rfl
@[simp] theorem setBits_rl (s : State) (a lo n v : Nat) : (setBits s a lo n v).rl = s.rl := rfl
@[simp] theorem setBits_dbg (s : State) (a lo n v : Nat) : (setBits s a lo n v).dbg = s.dbg := rfl
@[simp] theorem setBits_shore (s : State) (a lo n v : Nat) : (setBits s a lo n v).shore = s.shore := rfl
@[simp] theorem setBits_acq (s : State) (a lo n v : Nat) : (setBits s a lo n v).acq = s.acq := rfl
@[simp] theorem setBits_ld (s : State) (a lo n v : Nat) : (setBits s a lo n v).ld = s.ld := rfl
@[simp] theorem setBits_pwr (s : State) (a lo n v : Nat) : (setBits s a lo n v).pwr = s.pwr := rfl

/-! ## setBit: a bit store -/

@[simp] theorem setBit_pending (s : State) (a i : Nat) (b : Bool) : (setBit s a i b).pending = s.pending := rfl
@[simp] theorem setBit_halves (s : State) (a i : Nat) (b : Bool) : (setBit s a i b).halves = s.halves := rfl
@[simp] theorem setBit_readData (s : State) (a i : Nat) (b : Bool) : (setBit s a i b).readData = s.readData := rfl
@[simp] theorem setBit_free (s : State) (a i : Nat) (b : Bool) : (setBit s a i b).free = s.free := rfl
@[simp] theorem setBit_die (s : State) (a i : Nat) (b : Bool) : (setBit s a i b).die = s.die := rfl
@[simp] theorem setBit_clusters (s : State) (a i : Nat) (b : Bool) : (setBit s a i b).clusters = s.clusters := rfl
@[simp] theorem setBit_sched (s : State) (a i : Nat) (b : Bool) : (setBit s a i b).sched = s.sched := rfl
@[simp] theorem setBit_net (s : State) (a i : Nat) (b : Bool) : (setBit s a i b).net = s.net := rfl
@[simp] theorem setBit_flt (s : State) (a i : Nat) (b : Bool) : (setBit s a i b).flt = s.flt := rfl
@[simp] theorem setBit_cairn (s : State) (a i : Nat) (b : Bool) : (setBit s a i b).cairn = s.cairn := rfl
@[simp] theorem setBit_banks (s : State) (a i : Nat) (b : Bool) : (setBit s a i b).banks = s.banks := rfl
@[simp] theorem setBit_time (s : State) (a i : Nat) (b : Bool) : (setBit s a i b).time = s.time := rfl
@[simp] theorem setBit_cw (s : State) (a i : Nat) (b : Bool) : (setBit s a i b).cw = s.cw := rfl
@[simp] theorem setBit_bist (s : State) (a i : Nat) (b : Bool) : (setBit s a i b).bist = s.bist := rfl
@[simp] theorem setBit_ddr (s : State) (a i : Nat) (b : Bool) : (setBit s a i b).ddr = s.ddr := rfl
@[simp] theorem setBit_hb (s : State) (a i : Nat) (b : Bool) : (setBit s a i b).hb = s.hb := rfl
@[simp] theorem setBit_trc (s : State) (a i : Nat) (b : Bool) : (setBit s a i b).trc = s.trc := rfl
@[simp] theorem setBit_pcie (s : State) (a i : Nat) (b : Bool) : (setBit s a i b).pcie = s.pcie := rfl
@[simp] theorem setBit_rl (s : State) (a i : Nat) (b : Bool) : (setBit s a i b).rl = s.rl := rfl
@[simp] theorem setBit_dbg (s : State) (a i : Nat) (b : Bool) : (setBit s a i b).dbg = s.dbg := rfl
@[simp] theorem setBit_shore (s : State) (a i : Nat) (b : Bool) : (setBit s a i b).shore = s.shore := rfl
@[simp] theorem setBit_acq (s : State) (a i : Nat) (b : Bool) : (setBit s a i b).acq = s.acq := rfl
@[simp] theorem setBit_ld (s : State) (a i : Nat) (b : Bool) : (setBit s a i b).ld = s.ld := rfl
@[simp] theorem setBit_pwr (s : State) (a i : Nat) (b : Bool) : (setBit s a i b).pwr = s.pwr := rfl

/-! ## bumpBits: a saturating addition -/

@[simp] theorem bumpBits_pending (s : State) (a lo n k : Nat) : (bumpBits s a lo n k).pending = s.pending := rfl
@[simp] theorem bumpBits_halves (s : State) (a lo n k : Nat) : (bumpBits s a lo n k).halves = s.halves := rfl
@[simp] theorem bumpBits_readData (s : State) (a lo n k : Nat) : (bumpBits s a lo n k).readData = s.readData := rfl
@[simp] theorem bumpBits_free (s : State) (a lo n k : Nat) : (bumpBits s a lo n k).free = s.free := rfl
@[simp] theorem bumpBits_die (s : State) (a lo n k : Nat) : (bumpBits s a lo n k).die = s.die := rfl
@[simp] theorem bumpBits_clusters (s : State) (a lo n k : Nat) : (bumpBits s a lo n k).clusters = s.clusters := rfl
@[simp] theorem bumpBits_sched (s : State) (a lo n k : Nat) : (bumpBits s a lo n k).sched = s.sched := rfl
@[simp] theorem bumpBits_net (s : State) (a lo n k : Nat) : (bumpBits s a lo n k).net = s.net := rfl
@[simp] theorem bumpBits_flt (s : State) (a lo n k : Nat) : (bumpBits s a lo n k).flt = s.flt := rfl
@[simp] theorem bumpBits_cairn (s : State) (a lo n k : Nat) : (bumpBits s a lo n k).cairn = s.cairn := rfl
@[simp] theorem bumpBits_banks (s : State) (a lo n k : Nat) : (bumpBits s a lo n k).banks = s.banks := rfl
@[simp] theorem bumpBits_time (s : State) (a lo n k : Nat) : (bumpBits s a lo n k).time = s.time := rfl
@[simp] theorem bumpBits_cw (s : State) (a lo n k : Nat) : (bumpBits s a lo n k).cw = s.cw := rfl
@[simp] theorem bumpBits_bist (s : State) (a lo n k : Nat) : (bumpBits s a lo n k).bist = s.bist := rfl
@[simp] theorem bumpBits_ddr (s : State) (a lo n k : Nat) : (bumpBits s a lo n k).ddr = s.ddr := rfl
@[simp] theorem bumpBits_hb (s : State) (a lo n k : Nat) : (bumpBits s a lo n k).hb = s.hb := rfl
@[simp] theorem bumpBits_trc (s : State) (a lo n k : Nat) : (bumpBits s a lo n k).trc = s.trc := rfl
@[simp] theorem bumpBits_pcie (s : State) (a lo n k : Nat) : (bumpBits s a lo n k).pcie = s.pcie := rfl
@[simp] theorem bumpBits_rl (s : State) (a lo n k : Nat) : (bumpBits s a lo n k).rl = s.rl := rfl
@[simp] theorem bumpBits_dbg (s : State) (a lo n k : Nat) : (bumpBits s a lo n k).dbg = s.dbg := rfl
@[simp] theorem bumpBits_shore (s : State) (a lo n k : Nat) : (bumpBits s a lo n k).shore = s.shore := rfl
@[simp] theorem bumpBits_acq (s : State) (a lo n k : Nat) : (bumpBits s a lo n k).acq = s.acq := rfl
@[simp] theorem bumpBits_ld (s : State) (a lo n k : Nat) : (bumpBits s a lo n k).ld = s.ld := rfl
@[simp] theorem bumpBits_pwr (s : State) (a lo n k : Nat) : (bumpBits s a lo n k).pwr = s.pwr := rfl

/-! ## setClu: a cluster update -/

@[simp] theorem setClu_pending (s : State) (n : Nat) (c : Cluster) : (setClu s n c).pending = s.pending := rfl
@[simp] theorem setClu_regs (s : State) (n : Nat) (c : Cluster) : (setClu s n c).regs = s.regs := rfl
@[simp] theorem setClu_halves (s : State) (n : Nat) (c : Cluster) : (setClu s n c).halves = s.halves := rfl
@[simp] theorem setClu_readData (s : State) (n : Nat) (c : Cluster) : (setClu s n c).readData = s.readData := rfl
@[simp] theorem setClu_free (s : State) (n : Nat) (c : Cluster) : (setClu s n c).free = s.free := rfl
@[simp] theorem setClu_die (s : State) (n : Nat) (c : Cluster) : (setClu s n c).die = s.die := rfl
@[simp] theorem setClu_clusters (s : State) (n : Nat) (c : Cluster) : (setClu s n c).clusters = put (fun _ => {}) s.clusters n c := rfl
@[simp] theorem setClu_sched (s : State) (n : Nat) (c : Cluster) : (setClu s n c).sched = s.sched := rfl
@[simp] theorem setClu_net (s : State) (n : Nat) (c : Cluster) : (setClu s n c).net = s.net := rfl
@[simp] theorem setClu_flt (s : State) (n : Nat) (c : Cluster) : (setClu s n c).flt = s.flt := rfl
@[simp] theorem setClu_cairn (s : State) (n : Nat) (c : Cluster) : (setClu s n c).cairn = s.cairn := rfl
@[simp] theorem setClu_banks (s : State) (n : Nat) (c : Cluster) : (setClu s n c).banks = s.banks := rfl
@[simp] theorem setClu_time (s : State) (n : Nat) (c : Cluster) : (setClu s n c).time = s.time := rfl
@[simp] theorem setClu_cw (s : State) (n : Nat) (c : Cluster) : (setClu s n c).cw = s.cw := rfl
@[simp] theorem setClu_bist (s : State) (n : Nat) (c : Cluster) : (setClu s n c).bist = s.bist := rfl
@[simp] theorem setClu_ddr (s : State) (n : Nat) (c : Cluster) : (setClu s n c).ddr = s.ddr := rfl
@[simp] theorem setClu_hb (s : State) (n : Nat) (c : Cluster) : (setClu s n c).hb = s.hb := rfl
@[simp] theorem setClu_trc (s : State) (n : Nat) (c : Cluster) : (setClu s n c).trc = s.trc := rfl
@[simp] theorem setClu_pcie (s : State) (n : Nat) (c : Cluster) : (setClu s n c).pcie = s.pcie := rfl
@[simp] theorem setClu_rl (s : State) (n : Nat) (c : Cluster) : (setClu s n c).rl = s.rl := rfl
@[simp] theorem setClu_dbg (s : State) (n : Nat) (c : Cluster) : (setClu s n c).dbg = s.dbg := rfl
@[simp] theorem setClu_shore (s : State) (n : Nat) (c : Cluster) : (setClu s n c).shore = s.shore := rfl
@[simp] theorem setClu_acq (s : State) (n : Nat) (c : Cluster) : (setClu s n c).acq = s.acq := rfl
@[simp] theorem setClu_ld (s : State) (n : Nat) (c : Cluster) : (setClu s n c).ld = s.ld := rfl
@[simp] theorem setClu_pwr (s : State) (n : Nat) (c : Cluster) : (setClu s n c).pwr = s.pwr := rfl

/-! ## setNi: an NI update -/

@[simp] theorem setNi_pending (s : State) (i : Nat) (x : Ni) : (setNi s i x).pending = s.pending := rfl
@[simp] theorem setNi_regs (s : State) (i : Nat) (x : Ni) : (setNi s i x).regs = s.regs := rfl
@[simp] theorem setNi_halves (s : State) (i : Nat) (x : Ni) : (setNi s i x).halves = s.halves := rfl
@[simp] theorem setNi_readData (s : State) (i : Nat) (x : Ni) : (setNi s i x).readData = s.readData := rfl
@[simp] theorem setNi_free (s : State) (i : Nat) (x : Ni) : (setNi s i x).free = s.free := rfl
@[simp] theorem setNi_die (s : State) (i : Nat) (x : Ni) : (setNi s i x).die = s.die := rfl
@[simp] theorem setNi_clusters (s : State) (i : Nat) (x : Ni) : (setNi s i x).clusters = s.clusters := rfl
@[simp] theorem setNi_sched (s : State) (i : Nat) (x : Ni) : (setNi s i x).sched = s.sched := rfl
@[simp] theorem setNi_net (s : State) (i : Nat) (x : Ni) : (setNi s i x).net = { s.net with nis := put (fun _ => {}) s.net.nis i x } := rfl
@[simp] theorem setNi_flt (s : State) (i : Nat) (x : Ni) : (setNi s i x).flt = s.flt := rfl
@[simp] theorem setNi_cairn (s : State) (i : Nat) (x : Ni) : (setNi s i x).cairn = s.cairn := rfl
@[simp] theorem setNi_banks (s : State) (i : Nat) (x : Ni) : (setNi s i x).banks = s.banks := rfl
@[simp] theorem setNi_time (s : State) (i : Nat) (x : Ni) : (setNi s i x).time = s.time := rfl
@[simp] theorem setNi_cw (s : State) (i : Nat) (x : Ni) : (setNi s i x).cw = s.cw := rfl
@[simp] theorem setNi_bist (s : State) (i : Nat) (x : Ni) : (setNi s i x).bist = s.bist := rfl
@[simp] theorem setNi_ddr (s : State) (i : Nat) (x : Ni) : (setNi s i x).ddr = s.ddr := rfl
@[simp] theorem setNi_hb (s : State) (i : Nat) (x : Ni) : (setNi s i x).hb = s.hb := rfl
@[simp] theorem setNi_trc (s : State) (i : Nat) (x : Ni) : (setNi s i x).trc = s.trc := rfl
@[simp] theorem setNi_pcie (s : State) (i : Nat) (x : Ni) : (setNi s i x).pcie = s.pcie := rfl
@[simp] theorem setNi_rl (s : State) (i : Nat) (x : Ni) : (setNi s i x).rl = s.rl := rfl
@[simp] theorem setNi_dbg (s : State) (i : Nat) (x : Ni) : (setNi s i x).dbg = s.dbg := rfl
@[simp] theorem setNi_shore (s : State) (i : Nat) (x : Ni) : (setNi s i x).shore = s.shore := rfl
@[simp] theorem setNi_acq (s : State) (i : Nat) (x : Ni) : (setNi s i x).acq = s.acq := rfl
@[simp] theorem setNi_ld (s : State) (i : Nat) (x : Ni) : (setNi s i x).ld = s.ld := rfl
@[simp] theorem setNi_pwr (s : State) (i : Nat) (x : Ni) : (setNi s i x).pwr = s.pwr := rfl

/-! ## setLink: a link update -/

@[simp] theorem setLink_pending (s : State) (l : Nat) (x : Link) : (setLink s l x).pending = s.pending := rfl
@[simp] theorem setLink_regs (s : State) (l : Nat) (x : Link) : (setLink s l x).regs = s.regs := rfl
@[simp] theorem setLink_halves (s : State) (l : Nat) (x : Link) : (setLink s l x).halves = s.halves := rfl
@[simp] theorem setLink_readData (s : State) (l : Nat) (x : Link) : (setLink s l x).readData = s.readData := rfl
@[simp] theorem setLink_free (s : State) (l : Nat) (x : Link) : (setLink s l x).free = s.free := rfl
@[simp] theorem setLink_die (s : State) (l : Nat) (x : Link) : (setLink s l x).die = s.die := rfl
@[simp] theorem setLink_clusters (s : State) (l : Nat) (x : Link) : (setLink s l x).clusters = s.clusters := rfl
@[simp] theorem setLink_sched (s : State) (l : Nat) (x : Link) : (setLink s l x).sched = s.sched := rfl
@[simp] theorem setLink_net (s : State) (l : Nat) (x : Link) : (setLink s l x).net = s.net := rfl
@[simp] theorem setLink_flt (s : State) (l : Nat) (x : Link) : (setLink s l x).flt = s.flt := rfl
@[simp] theorem setLink_cairn (s : State) (l : Nat) (x : Link) : (setLink s l x).cairn = s.cairn := rfl
@[simp] theorem setLink_banks (s : State) (l : Nat) (x : Link) : (setLink s l x).banks = s.banks := rfl
@[simp] theorem setLink_time (s : State) (l : Nat) (x : Link) : (setLink s l x).time = s.time := rfl
@[simp] theorem setLink_cw (s : State) (l : Nat) (x : Link) : (setLink s l x).cw = { s.cw with links := put (fun _ => {}) s.cw.links l x } := rfl
@[simp] theorem setLink_bist (s : State) (l : Nat) (x : Link) : (setLink s l x).bist = s.bist := rfl
@[simp] theorem setLink_ddr (s : State) (l : Nat) (x : Link) : (setLink s l x).ddr = s.ddr := rfl
@[simp] theorem setLink_hb (s : State) (l : Nat) (x : Link) : (setLink s l x).hb = s.hb := rfl
@[simp] theorem setLink_trc (s : State) (l : Nat) (x : Link) : (setLink s l x).trc = s.trc := rfl
@[simp] theorem setLink_pcie (s : State) (l : Nat) (x : Link) : (setLink s l x).pcie = s.pcie := rfl
@[simp] theorem setLink_rl (s : State) (l : Nat) (x : Link) : (setLink s l x).rl = s.rl := rfl
@[simp] theorem setLink_dbg (s : State) (l : Nat) (x : Link) : (setLink s l x).dbg = s.dbg := rfl
@[simp] theorem setLink_shore (s : State) (l : Nat) (x : Link) : (setLink s l x).shore = s.shore := rfl
@[simp] theorem setLink_acq (s : State) (l : Nat) (x : Link) : (setLink s l x).acq = s.acq := rfl
@[simp] theorem setLink_ld (s : State) (l : Nat) (x : Link) : (setLink s l x).ld = s.ld := rfl
@[simp] theorem setLink_pwr (s : State) (l : Nat) (x : Link) : (setLink s l x).pwr = s.pwr := rfl

/-! ## setLane: a lane update -/

@[simp] theorem setLane_pending (s : State) (a : Nat) (x : Lane) : (setLane s a x).pending = s.pending := rfl
@[simp] theorem setLane_regs (s : State) (a : Nat) (x : Lane) : (setLane s a x).regs = s.regs := rfl
@[simp] theorem setLane_halves (s : State) (a : Nat) (x : Lane) : (setLane s a x).halves = s.halves := rfl
@[simp] theorem setLane_readData (s : State) (a : Nat) (x : Lane) : (setLane s a x).readData = s.readData := rfl
@[simp] theorem setLane_free (s : State) (a : Nat) (x : Lane) : (setLane s a x).free = s.free := rfl
@[simp] theorem setLane_die (s : State) (a : Nat) (x : Lane) : (setLane s a x).die = s.die := rfl
@[simp] theorem setLane_clusters (s : State) (a : Nat) (x : Lane) : (setLane s a x).clusters = s.clusters := rfl
@[simp] theorem setLane_sched (s : State) (a : Nat) (x : Lane) : (setLane s a x).sched = s.sched := rfl
@[simp] theorem setLane_net (s : State) (a : Nat) (x : Lane) : (setLane s a x).net = s.net := rfl
@[simp] theorem setLane_flt (s : State) (a : Nat) (x : Lane) : (setLane s a x).flt = s.flt := rfl
@[simp] theorem setLane_cairn (s : State) (a : Nat) (x : Lane) : (setLane s a x).cairn = s.cairn := rfl
@[simp] theorem setLane_banks (s : State) (a : Nat) (x : Lane) : (setLane s a x).banks = s.banks := rfl
@[simp] theorem setLane_time (s : State) (a : Nat) (x : Lane) : (setLane s a x).time = s.time := rfl
@[simp] theorem setLane_cw (s : State) (a : Nat) (x : Lane) : (setLane s a x).cw = { s.cw with lanes := put (fun _ => {}) s.cw.lanes a x } := rfl
@[simp] theorem setLane_bist (s : State) (a : Nat) (x : Lane) : (setLane s a x).bist = s.bist := rfl
@[simp] theorem setLane_ddr (s : State) (a : Nat) (x : Lane) : (setLane s a x).ddr = s.ddr := rfl
@[simp] theorem setLane_hb (s : State) (a : Nat) (x : Lane) : (setLane s a x).hb = s.hb := rfl
@[simp] theorem setLane_trc (s : State) (a : Nat) (x : Lane) : (setLane s a x).trc = s.trc := rfl
@[simp] theorem setLane_pcie (s : State) (a : Nat) (x : Lane) : (setLane s a x).pcie = s.pcie := rfl
@[simp] theorem setLane_rl (s : State) (a : Nat) (x : Lane) : (setLane s a x).rl = s.rl := rfl
@[simp] theorem setLane_dbg (s : State) (a : Nat) (x : Lane) : (setLane s a x).dbg = s.dbg := rfl
@[simp] theorem setLane_shore (s : State) (a : Nat) (x : Lane) : (setLane s a x).shore = s.shore := rfl
@[simp] theorem setLane_acq (s : State) (a : Nat) (x : Lane) : (setLane s a x).acq = s.acq := rfl
@[simp] theorem setLane_ld (s : State) (a : Nat) (x : Lane) : (setLane s a x).ld = s.ld := rfl
@[simp] theorem setLane_pwr (s : State) (a : Nat) (x : Lane) : (setLane s a x).pwr = s.pwr := rfl

/-! ## takeFree: a free value -/

@[simp] theorem takeFree_pending (w : Nat) (s : State) : (takeFree w s).2.pending = s.pending := rfl
@[simp] theorem takeFree_regs (w : Nat) (s : State) : (takeFree w s).2.regs = s.regs := rfl
@[simp] theorem takeFree_halves (w : Nat) (s : State) : (takeFree w s).2.halves = s.halves := rfl
@[simp] theorem takeFree_readData (w : Nat) (s : State) : (takeFree w s).2.readData = s.readData := rfl
@[simp] theorem takeFree_free (w : Nat) (s : State) : (takeFree w s).2.free = s.free + 1 := rfl
@[simp] theorem takeFree_die (w : Nat) (s : State) : (takeFree w s).2.die = s.die := rfl
@[simp] theorem takeFree_clusters (w : Nat) (s : State) : (takeFree w s).2.clusters = s.clusters := rfl
@[simp] theorem takeFree_sched (w : Nat) (s : State) : (takeFree w s).2.sched = s.sched := rfl
@[simp] theorem takeFree_net (w : Nat) (s : State) : (takeFree w s).2.net = s.net := rfl
@[simp] theorem takeFree_flt (w : Nat) (s : State) : (takeFree w s).2.flt = s.flt := rfl
@[simp] theorem takeFree_cairn (w : Nat) (s : State) : (takeFree w s).2.cairn = s.cairn := rfl
@[simp] theorem takeFree_banks (w : Nat) (s : State) : (takeFree w s).2.banks = s.banks := rfl
@[simp] theorem takeFree_time (w : Nat) (s : State) : (takeFree w s).2.time = s.time := rfl
@[simp] theorem takeFree_cw (w : Nat) (s : State) : (takeFree w s).2.cw = s.cw := rfl
@[simp] theorem takeFree_bist (w : Nat) (s : State) : (takeFree w s).2.bist = s.bist := rfl
@[simp] theorem takeFree_ddr (w : Nat) (s : State) : (takeFree w s).2.ddr = s.ddr := rfl
@[simp] theorem takeFree_hb (w : Nat) (s : State) : (takeFree w s).2.hb = s.hb := rfl
@[simp] theorem takeFree_trc (w : Nat) (s : State) : (takeFree w s).2.trc = s.trc := rfl
@[simp] theorem takeFree_pcie (w : Nat) (s : State) : (takeFree w s).2.pcie = s.pcie := rfl
@[simp] theorem takeFree_rl (w : Nat) (s : State) : (takeFree w s).2.rl = s.rl := rfl
@[simp] theorem takeFree_dbg (w : Nat) (s : State) : (takeFree w s).2.dbg = s.dbg := rfl
@[simp] theorem takeFree_shore (w : Nat) (s : State) : (takeFree w s).2.shore = s.shore := rfl
@[simp] theorem takeFree_acq (w : Nat) (s : State) : (takeFree w s).2.acq = s.acq := rfl
@[simp] theorem takeFree_ld (w : Nat) (s : State) : (takeFree w s).2.ld = s.ld := rfl
@[simp] theorem takeFree_pwr (w : Nat) (s : State) : (takeFree w s).2.pwr = s.pwr := rfl

/-! ## answer: a read's answer -/

@[simp] theorem answer_pending (ws : List Word) (s : State) : (answer ws s).pending = s.pending := rfl
@[simp] theorem answer_regs (ws : List Word) (s : State) : (answer ws s).regs = s.regs := rfl
@[simp] theorem answer_halves (ws : List Word) (s : State) : (answer ws s).halves = s.halves := rfl
@[simp] theorem answer_readData (ws : List Word) (s : State) : (answer ws s).readData = ws := rfl
@[simp] theorem answer_free (ws : List Word) (s : State) : (answer ws s).free = s.free := rfl
@[simp] theorem answer_die (ws : List Word) (s : State) : (answer ws s).die = s.die := rfl
@[simp] theorem answer_clusters (ws : List Word) (s : State) : (answer ws s).clusters = s.clusters := rfl
@[simp] theorem answer_sched (ws : List Word) (s : State) : (answer ws s).sched = s.sched := rfl
@[simp] theorem answer_net (ws : List Word) (s : State) : (answer ws s).net = s.net := rfl
@[simp] theorem answer_flt (ws : List Word) (s : State) : (answer ws s).flt = s.flt := rfl
@[simp] theorem answer_cairn (ws : List Word) (s : State) : (answer ws s).cairn = s.cairn := rfl
@[simp] theorem answer_banks (ws : List Word) (s : State) : (answer ws s).banks = s.banks := rfl
@[simp] theorem answer_time (ws : List Word) (s : State) : (answer ws s).time = s.time := rfl
@[simp] theorem answer_cw (ws : List Word) (s : State) : (answer ws s).cw = s.cw := rfl
@[simp] theorem answer_bist (ws : List Word) (s : State) : (answer ws s).bist = s.bist := rfl
@[simp] theorem answer_ddr (ws : List Word) (s : State) : (answer ws s).ddr = s.ddr := rfl
@[simp] theorem answer_hb (ws : List Word) (s : State) : (answer ws s).hb = s.hb := rfl
@[simp] theorem answer_trc (ws : List Word) (s : State) : (answer ws s).trc = s.trc := rfl
@[simp] theorem answer_pcie (ws : List Word) (s : State) : (answer ws s).pcie = s.pcie := rfl
@[simp] theorem answer_rl (ws : List Word) (s : State) : (answer ws s).rl = s.rl := rfl
@[simp] theorem answer_dbg (ws : List Word) (s : State) : (answer ws s).dbg = s.dbg := rfl
@[simp] theorem answer_shore (ws : List Word) (s : State) : (answer ws s).shore = s.shore := rfl
@[simp] theorem answer_acq (ws : List Word) (s : State) : (answer ws s).acq = s.acq := rfl
@[simp] theorem answer_ld (ws : List Word) (s : State) : (answer ws s).ld = s.ld := rfl
@[simp] theorem answer_pwr (ws : List Word) (s : State) : (answer ws s).pwr = s.pwr := rfl

/-! ## setCause: a cause bit -/

@[simp] theorem setCause_pending (v : Nat) (b : Bool) (s : State) : (setCause v b s).pending = s.pending := rfl
@[simp] theorem setCause_halves (v : Nat) (b : Bool) (s : State) : (setCause v b s).halves = s.halves := rfl
@[simp] theorem setCause_readData (v : Nat) (b : Bool) (s : State) : (setCause v b s).readData = s.readData := rfl
@[simp] theorem setCause_free (v : Nat) (b : Bool) (s : State) : (setCause v b s).free = s.free := rfl
@[simp] theorem setCause_die (v : Nat) (b : Bool) (s : State) : (setCause v b s).die = s.die := rfl
@[simp] theorem setCause_clusters (v : Nat) (b : Bool) (s : State) : (setCause v b s).clusters = s.clusters := rfl
@[simp] theorem setCause_sched (v : Nat) (b : Bool) (s : State) : (setCause v b s).sched = s.sched := rfl
@[simp] theorem setCause_net (v : Nat) (b : Bool) (s : State) : (setCause v b s).net = s.net := rfl
@[simp] theorem setCause_flt (v : Nat) (b : Bool) (s : State) : (setCause v b s).flt = s.flt := rfl
@[simp] theorem setCause_cairn (v : Nat) (b : Bool) (s : State) : (setCause v b s).cairn = s.cairn := rfl
@[simp] theorem setCause_banks (v : Nat) (b : Bool) (s : State) : (setCause v b s).banks = s.banks := rfl
@[simp] theorem setCause_time (v : Nat) (b : Bool) (s : State) : (setCause v b s).time = s.time := rfl
@[simp] theorem setCause_cw (v : Nat) (b : Bool) (s : State) : (setCause v b s).cw = s.cw := rfl
@[simp] theorem setCause_bist (v : Nat) (b : Bool) (s : State) : (setCause v b s).bist = s.bist := rfl
@[simp] theorem setCause_ddr (v : Nat) (b : Bool) (s : State) : (setCause v b s).ddr = s.ddr := rfl
@[simp] theorem setCause_hb (v : Nat) (b : Bool) (s : State) : (setCause v b s).hb = s.hb := rfl
@[simp] theorem setCause_trc (v : Nat) (b : Bool) (s : State) : (setCause v b s).trc = s.trc := rfl
@[simp] theorem setCause_pcie (v : Nat) (b : Bool) (s : State) : (setCause v b s).pcie = s.pcie := rfl
@[simp] theorem setCause_rl (v : Nat) (b : Bool) (s : State) : (setCause v b s).rl = s.rl := rfl
@[simp] theorem setCause_dbg (v : Nat) (b : Bool) (s : State) : (setCause v b s).dbg = s.dbg := rfl
@[simp] theorem setCause_shore (v : Nat) (b : Bool) (s : State) : (setCause v b s).shore = s.shore := rfl
@[simp] theorem setCause_acq (v : Nat) (b : Bool) (s : State) : (setCause v b s).acq = s.acq := rfl
@[simp] theorem setCause_ld (v : Nat) (b : Bool) (s : State) : (setCause v b s).ld = s.ld := rfl
@[simp] theorem setCause_pwr (v : Nat) (b : Bool) (s : State) : (setCause v b s).pwr = s.pwr := rfl

/-! ## signal: a fault signal -/

@[simp] theorem signal_pending (source info : Nat) (s : State) : (signal source info s).pending = s.pending := by
  unfold signal; split <;> rfl
@[simp] theorem signal_regs (source info : Nat) (s : State) : (signal source info s).regs = s.regs := by
  unfold signal; split <;> rfl
@[simp] theorem signal_halves (source info : Nat) (s : State) : (signal source info s).halves = s.halves := by
  unfold signal; split <;> rfl
@[simp] theorem signal_readData (source info : Nat) (s : State) : (signal source info s).readData = s.readData := by
  unfold signal; split <;> rfl
@[simp] theorem signal_free (source info : Nat) (s : State) : (signal source info s).free = s.free := by
  unfold signal; split <;> rfl
@[simp] theorem signal_die (source info : Nat) (s : State) : (signal source info s).die = s.die := by
  unfold signal; split <;> rfl
@[simp] theorem signal_clusters (source info : Nat) (s : State) : (signal source info s).clusters = s.clusters := by
  unfold signal; split <;> rfl
@[simp] theorem signal_sched (source info : Nat) (s : State) : (signal source info s).sched = s.sched := by
  unfold signal; split <;> rfl
@[simp] theorem signal_net (source info : Nat) (s : State) : (signal source info s).net = s.net := by
  unfold signal; split <;> rfl
@[simp] theorem signal_cairn (source info : Nat) (s : State) : (signal source info s).cairn = s.cairn := by
  unfold signal; split <;> rfl
@[simp] theorem signal_banks (source info : Nat) (s : State) : (signal source info s).banks = s.banks := by
  unfold signal; split <;> rfl
@[simp] theorem signal_time (source info : Nat) (s : State) : (signal source info s).time = s.time := by
  unfold signal; split <;> rfl
@[simp] theorem signal_cw (source info : Nat) (s : State) : (signal source info s).cw = s.cw := by
  unfold signal; split <;> rfl
@[simp] theorem signal_bist (source info : Nat) (s : State) : (signal source info s).bist = s.bist := by
  unfold signal; split <;> rfl
@[simp] theorem signal_ddr (source info : Nat) (s : State) : (signal source info s).ddr = s.ddr := by
  unfold signal; split <;> rfl
@[simp] theorem signal_hb (source info : Nat) (s : State) : (signal source info s).hb = s.hb := by
  unfold signal; split <;> rfl
@[simp] theorem signal_trc (source info : Nat) (s : State) : (signal source info s).trc = s.trc := by
  unfold signal; split <;> rfl
@[simp] theorem signal_pcie (source info : Nat) (s : State) : (signal source info s).pcie = s.pcie := by
  unfold signal; split <;> rfl
@[simp] theorem signal_rl (source info : Nat) (s : State) : (signal source info s).rl = s.rl := by
  unfold signal; split <;> rfl
@[simp] theorem signal_dbg (source info : Nat) (s : State) : (signal source info s).dbg = s.dbg := by
  unfold signal; split <;> rfl
@[simp] theorem signal_shore (source info : Nat) (s : State) : (signal source info s).shore = s.shore := by
  unfold signal; split <;> rfl
@[simp] theorem signal_acq (source info : Nat) (s : State) : (signal source info s).acq = s.acq := by
  unfold signal; split <;> rfl
@[simp] theorem signal_ld (source info : Nat) (s : State) : (signal source info s).ld = s.ld := by
  unfold signal; split <;> rfl
@[simp] theorem signal_pwr (source info : Nat) (s : State) : (signal source info s).pwr = s.pwr := by
  unfold signal; split <;> rfl

/-! ## raiseCause: an interrupt cause -/

@[simp] theorem raiseCause_pending (v : Nat) (s : State) : (raiseCause v s).pending = s.pending := by
  unfold raiseCause; split <;> rfl
@[simp] theorem raiseCause_halves (v : Nat) (s : State) : (raiseCause v s).halves = s.halves := by
  unfold raiseCause; split <;> rfl
@[simp] theorem raiseCause_readData (v : Nat) (s : State) : (raiseCause v s).readData = s.readData := by
  unfold raiseCause; split <;> rfl
@[simp] theorem raiseCause_free (v : Nat) (s : State) : (raiseCause v s).free = s.free := by
  unfold raiseCause; split <;> rfl
@[simp] theorem raiseCause_die (v : Nat) (s : State) : (raiseCause v s).die = s.die := by
  unfold raiseCause; split <;> rfl
@[simp] theorem raiseCause_clusters (v : Nat) (s : State) : (raiseCause v s).clusters = s.clusters := by
  unfold raiseCause; split <;> rfl
@[simp] theorem raiseCause_sched (v : Nat) (s : State) : (raiseCause v s).sched = s.sched := by
  unfold raiseCause; split <;> rfl
@[simp] theorem raiseCause_net (v : Nat) (s : State) : (raiseCause v s).net = s.net := by
  unfold raiseCause; split <;> rfl
@[simp] theorem raiseCause_flt (v : Nat) (s : State) : (raiseCause v s).flt = s.flt := by
  unfold raiseCause; split <;> rfl
@[simp] theorem raiseCause_cairn (v : Nat) (s : State) : (raiseCause v s).cairn = s.cairn := by
  unfold raiseCause; split <;> rfl
@[simp] theorem raiseCause_banks (v : Nat) (s : State) : (raiseCause v s).banks = s.banks := by
  unfold raiseCause; split <;> rfl
@[simp] theorem raiseCause_time (v : Nat) (s : State) : (raiseCause v s).time = s.time := by
  unfold raiseCause; split <;> rfl
@[simp] theorem raiseCause_cw (v : Nat) (s : State) : (raiseCause v s).cw = s.cw := by
  unfold raiseCause; split <;> rfl
@[simp] theorem raiseCause_bist (v : Nat) (s : State) : (raiseCause v s).bist = s.bist := by
  unfold raiseCause; split <;> rfl
@[simp] theorem raiseCause_ddr (v : Nat) (s : State) : (raiseCause v s).ddr = s.ddr := by
  unfold raiseCause; split <;> rfl
@[simp] theorem raiseCause_hb (v : Nat) (s : State) : (raiseCause v s).hb = s.hb := by
  unfold raiseCause; split <;> rfl
@[simp] theorem raiseCause_trc (v : Nat) (s : State) : (raiseCause v s).trc = s.trc := by
  unfold raiseCause; split <;> rfl
@[simp] theorem raiseCause_rl (v : Nat) (s : State) : (raiseCause v s).rl = s.rl := by
  unfold raiseCause; split <;> rfl
@[simp] theorem raiseCause_dbg (v : Nat) (s : State) : (raiseCause v s).dbg = s.dbg := by
  unfold raiseCause; split <;> rfl
@[simp] theorem raiseCause_shore (v : Nat) (s : State) : (raiseCause v s).shore = s.shore := by
  unfold raiseCause; split <;> rfl
@[simp] theorem raiseCause_acq (v : Nat) (s : State) : (raiseCause v s).acq = s.acq := by
  unfold raiseCause; split <;> rfl
@[simp] theorem raiseCause_ld (v : Nat) (s : State) : (raiseCause v s).ld = s.ld := by
  unfold raiseCause; split <;> rfl
@[simp] theorem raiseCause_pwr (v : Nat) (s : State) : (raiseCause v s).pwr = s.pwr := by
  unfold raiseCause; split <;> rfl

/-! ## Reads after updates of other state -/

@[simp] theorem reg_setClu (s : State) (n : Nat) (c : Cluster) (y : Nat) : reg (setClu s n c) y = reg s y := by
  simp [reg]
@[simp] theorem bits_setClu (s : State) (n : Nat) (c : Cluster) (y lo' n' : Nat) : bits (setClu s n c) y lo' n' = bits s y lo' n' := by
  simp [bits]
@[simp] theorem bit_setClu (s : State) (n : Nat) (c : Cluster) (y j : Nat) : bit (setClu s n c) y j = bit s y j := by
  simp [bit]
@[simp] theorem reg_setNi (s : State) (i : Nat) (x : Ni) (y : Nat) : reg (setNi s i x) y = reg s y := by
  simp [reg]
@[simp] theorem bits_setNi (s : State) (i : Nat) (x : Ni) (y lo' n' : Nat) : bits (setNi s i x) y lo' n' = bits s y lo' n' := by
  simp [bits]
@[simp] theorem bit_setNi (s : State) (i : Nat) (x : Ni) (y j : Nat) : bit (setNi s i x) y j = bit s y j := by
  simp [bit]
@[simp] theorem reg_setLink (s : State) (l : Nat) (x : Link) (y : Nat) : reg (setLink s l x) y = reg s y := by
  simp [reg]
@[simp] theorem bits_setLink (s : State) (l : Nat) (x : Link) (y lo' n' : Nat) : bits (setLink s l x) y lo' n' = bits s y lo' n' := by
  simp [bits]
@[simp] theorem bit_setLink (s : State) (l : Nat) (x : Link) (y j : Nat) : bit (setLink s l x) y j = bit s y j := by
  simp [bit]
@[simp] theorem reg_setLane (s : State) (a : Nat) (x : Lane) (y : Nat) : reg (setLane s a x) y = reg s y := by
  simp [reg]
@[simp] theorem bits_setLane (s : State) (a : Nat) (x : Lane) (y lo' n' : Nat) : bits (setLane s a x) y lo' n' = bits s y lo' n' := by
  simp [bits]
@[simp] theorem bit_setLane (s : State) (a : Nat) (x : Lane) (y j : Nat) : bit (setLane s a x) y j = bit s y j := by
  simp [bit]
@[simp] theorem reg_takeFree (w : Nat) (s : State) (y : Nat) : reg (takeFree w s).2 y = reg s y := by
  simp [reg]
@[simp] theorem bits_takeFree (w : Nat) (s : State) (y lo' n' : Nat) : bits (takeFree w s).2 y lo' n' = bits s y lo' n' := by
  simp [bits]
@[simp] theorem bit_takeFree (w : Nat) (s : State) (y j : Nat) : bit (takeFree w s).2 y j = bit s y j := by
  simp [bit]
@[simp] theorem reg_answer (ws : List Word) (s : State) (y : Nat) : reg (answer ws s) y = reg s y := by
  simp [reg]
@[simp] theorem bits_answer (ws : List Word) (s : State) (y lo' n' : Nat) : bits (answer ws s) y lo' n' = bits s y lo' n' := by
  simp [bits]
@[simp] theorem bit_answer (ws : List Word) (s : State) (y j : Nat) : bit (answer ws s) y j = bit s y j := by
  simp [bit]
@[simp] theorem reg_signal (source info : Nat) (s : State) (y : Nat) : reg (signal source info s) y = reg s y := by
  simp [reg]
@[simp] theorem bits_signal (source info : Nat) (s : State) (y lo' n' : Nat) : bits (signal source info s) y lo' n' = bits s y lo' n' := by
  simp [bits]
@[simp] theorem bit_signal (source info : Nat) (s : State) (y j : Nat) : bit (signal source info s) y j = bit s y j := by
  simp [bit]
@[simp] theorem clu_setReg (s : State) (a : Nat) (w : Word) (j : Nat) : clu (setReg s a w) j = clu s j := by
  simp [clu]
@[simp] theorem clu_setBits (s : State) (a lo n v : Nat) (j : Nat) : clu (setBits s a lo n v) j = clu s j := by
  simp [clu]
@[simp] theorem clu_setBit (s : State) (a i : Nat) (b : Bool) (j : Nat) : clu (setBit s a i b) j = clu s j := by
  simp [clu]
@[simp] theorem clu_bumpBits (s : State) (a lo n k : Nat) (j : Nat) : clu (bumpBits s a lo n k) j = clu s j := by
  simp [clu]
@[simp] theorem clu_setClu (s : State) (n : Nat) (c : Cluster) (j : Nat) : clu (setClu s n c) j = if j = n then c else clu s j := by
  simp [clu]
@[simp] theorem clu_setNi (s : State) (i : Nat) (x : Ni) (j : Nat) : clu (setNi s i x) j = clu s j := by
  simp [clu]
@[simp] theorem clu_setLink (s : State) (l : Nat) (x : Link) (j : Nat) : clu (setLink s l x) j = clu s j := by
  simp [clu]
@[simp] theorem clu_setLane (s : State) (a : Nat) (x : Lane) (j : Nat) : clu (setLane s a x) j = clu s j := by
  simp [clu]
@[simp] theorem clu_takeFree (w : Nat) (s : State) (j : Nat) : clu (takeFree w s).2 j = clu s j := by
  simp [clu]
@[simp] theorem clu_answer (ws : List Word) (s : State) (j : Nat) : clu (answer ws s) j = clu s j := by
  simp [clu]
@[simp] theorem clu_setCause (v : Nat) (b : Bool) (s : State) (j : Nat) : clu (setCause v b s) j = clu s j := by
  simp [clu]
@[simp] theorem clu_signal (source info : Nat) (s : State) (j : Nat) : clu (signal source info s) j = clu s j := by
  simp [clu]
@[simp] theorem clu_raiseCause (v : Nat) (s : State) (j : Nat) : clu (raiseCause v s) j = clu s j := by
  simp [clu]
@[simp] theorem ni_setReg (s : State) (a : Nat) (w : Word) (j : Nat) : ni (setReg s a w) j = ni s j := by
  simp [ni]
@[simp] theorem ni_setBits (s : State) (a lo n v : Nat) (j : Nat) : ni (setBits s a lo n v) j = ni s j := by
  simp [ni]
@[simp] theorem ni_setBit (s : State) (a i : Nat) (b : Bool) (j : Nat) : ni (setBit s a i b) j = ni s j := by
  simp [ni]
@[simp] theorem ni_bumpBits (s : State) (a lo n k : Nat) (j : Nat) : ni (bumpBits s a lo n k) j = ni s j := by
  simp [ni]
@[simp] theorem ni_setClu (s : State) (n : Nat) (c : Cluster) (j : Nat) : ni (setClu s n c) j = ni s j := by
  simp [ni]
@[simp] theorem ni_setNi (s : State) (i : Nat) (x : Ni) (j : Nat) : ni (setNi s i x) j = if j = i then x else ni s j := by
  simp [ni]
@[simp] theorem ni_setLink (s : State) (l : Nat) (x : Link) (j : Nat) : ni (setLink s l x) j = ni s j := by
  simp [ni]
@[simp] theorem ni_setLane (s : State) (a : Nat) (x : Lane) (j : Nat) : ni (setLane s a x) j = ni s j := by
  simp [ni]
@[simp] theorem ni_takeFree (w : Nat) (s : State) (j : Nat) : ni (takeFree w s).2 j = ni s j := by
  simp [ni]
@[simp] theorem ni_answer (ws : List Word) (s : State) (j : Nat) : ni (answer ws s) j = ni s j := by
  simp [ni]
@[simp] theorem ni_setCause (v : Nat) (b : Bool) (s : State) (j : Nat) : ni (setCause v b s) j = ni s j := by
  simp [ni]
@[simp] theorem ni_signal (source info : Nat) (s : State) (j : Nat) : ni (signal source info s) j = ni s j := by
  simp [ni]
@[simp] theorem ni_raiseCause (v : Nat) (s : State) (j : Nat) : ni (raiseCause v s) j = ni s j := by
  simp [ni]
@[simp] theorem link_setReg (s : State) (a : Nat) (w : Word) (j : Nat) : link (setReg s a w) j = link s j := by
  simp [link]
@[simp] theorem link_setBits (s : State) (a lo n v : Nat) (j : Nat) : link (setBits s a lo n v) j = link s j := by
  simp [link]
@[simp] theorem link_setBit (s : State) (a i : Nat) (b : Bool) (j : Nat) : link (setBit s a i b) j = link s j := by
  simp [link]
@[simp] theorem link_bumpBits (s : State) (a lo n k : Nat) (j : Nat) : link (bumpBits s a lo n k) j = link s j := by
  simp [link]
@[simp] theorem link_setClu (s : State) (n : Nat) (c : Cluster) (j : Nat) : link (setClu s n c) j = link s j := by
  simp [link]
@[simp] theorem link_setNi (s : State) (i : Nat) (x : Ni) (j : Nat) : link (setNi s i x) j = link s j := by
  simp [link]
@[simp] theorem link_setLink (s : State) (l : Nat) (x : Link) (j : Nat) : link (setLink s l x) j = if j = l then x else link s j := by
  simp [link]
@[simp] theorem link_setLane (s : State) (a : Nat) (x : Lane) (j : Nat) : link (setLane s a x) j = link s j := by
  simp [link]
@[simp] theorem link_takeFree (w : Nat) (s : State) (j : Nat) : link (takeFree w s).2 j = link s j := by
  simp [link]
@[simp] theorem link_answer (ws : List Word) (s : State) (j : Nat) : link (answer ws s) j = link s j := by
  simp [link]
@[simp] theorem link_setCause (v : Nat) (b : Bool) (s : State) (j : Nat) : link (setCause v b s) j = link s j := by
  simp [link]
@[simp] theorem link_signal (source info : Nat) (s : State) (j : Nat) : link (signal source info s) j = link s j := by
  simp [link]
@[simp] theorem link_raiseCause (v : Nat) (s : State) (j : Nat) : link (raiseCause v s) j = link s j := by
  simp [link]
@[simp] theorem lane_setReg (s : State) (a : Nat) (w : Word) (j : Nat) : lane (setReg s a w) j = lane s j := by
  simp [lane]
@[simp] theorem lane_setBits (s : State) (a lo n v : Nat) (j : Nat) : lane (setBits s a lo n v) j = lane s j := by
  simp [lane]
@[simp] theorem lane_setBit (s : State) (a i : Nat) (b : Bool) (j : Nat) : lane (setBit s a i b) j = lane s j := by
  simp [lane]
@[simp] theorem lane_bumpBits (s : State) (a lo n k : Nat) (j : Nat) : lane (bumpBits s a lo n k) j = lane s j := by
  simp [lane]
@[simp] theorem lane_setClu (s : State) (n : Nat) (c : Cluster) (j : Nat) : lane (setClu s n c) j = lane s j := by
  simp [lane]
@[simp] theorem lane_setNi (s : State) (i : Nat) (x : Ni) (j : Nat) : lane (setNi s i x) j = lane s j := by
  simp [lane]
@[simp] theorem lane_setLink (s : State) (l : Nat) (x : Link) (j : Nat) : lane (setLink s l x) j = lane s j := by
  simp [lane]
@[simp] theorem lane_setLane (s : State) (a : Nat) (x : Lane) (j : Nat) : lane (setLane s a x) j = if j = a then x else lane s j := by
  simp [lane]
@[simp] theorem lane_takeFree (w : Nat) (s : State) (j : Nat) : lane (takeFree w s).2 j = lane s j := by
  simp [lane]
@[simp] theorem lane_answer (ws : List Word) (s : State) (j : Nat) : lane (answer ws s) j = lane s j := by
  simp [lane]
@[simp] theorem lane_setCause (v : Nat) (b : Bool) (s : State) (j : Nat) : lane (setCause v b s) j = lane s j := by
  simp [lane]
@[simp] theorem lane_signal (source info : Nat) (s : State) (j : Nat) : lane (signal source info s) j = lane s j := by
  simp [lane]
@[simp] theorem lane_raiseCause (v : Nat) (s : State) (j : Nat) : lane (raiseCause v s) j = lane s j := by
  simp [lane]

end Sys2Proof.Machine
end

