-- ==== Sys2Proof/Laws/Net.lean ====
section
/-! SUPPORT. What the shared operations of the mesh may do: one lemma for each. -/
namespace Sys2Proof.Machine

/-- All that a probe may do: count, and hold a record. -/
theorem probeSees_frame (r port : Nat) (input : Bool) (h : BitVec 256) (p : Nat) (s : State) :
    ∃ g y, probeSees r port input h p s = { s with regs := g, net := { s.net with probeHold := y } } := by
  unfold probeSees holdRecord
  dsimp only
  split
  · split
    · exact ⟨_, _, rfl⟩
    · exact ⟨_, _, rfl⟩
    · split <;> exact ⟨_, _, rfl⟩
    · split
      · split
        · exact ⟨_, _, rfl⟩
        · split <;> exact ⟨_, _, rfl⟩
      · exact ⟨_, _, rfl⟩
  · exact ⟨_, _, rfl⟩

/-- A list of probes sees the flit. -/
theorem foldl_probes (r port : Nat) (input : Bool) (h : BitVec 256) (l : List Nat) (s : State) :
    ∃ g y, l.foldl (fun acc p => probeSees r port input h p acc) s =
      { s with regs := g, net := { s.net with probeHold := y } } := by
  induction l generalizing s with
  | nil => exact ⟨_, _, rfl⟩
  | cons p l ih =>
    obtain ⟨g, y, e⟩ := probeSees_frame r port input h p s
    rw [List.foldl_cons, e]
    obtain ⟨g', y', e'⟩ := ih { s with regs := g, net := { s.net with probeHold := y } }
    exact ⟨g', y', e'⟩

/-- All that the probes of a port may do. -/
theorem probesSee_frame (r port : Nat) (input : Bool) (f : Flit) (s : State) :
    ∃ g y, probesSee r port input f s = { s with regs := g, net := { s.net with probeHold := y } } := by
  unfold probesSee
  split
  · exact foldl_probes _ _ _ _ _ _
  · exact ⟨_, _, rfl⟩

/-- The CRC of a head depends on its bits [255:136] alone (R134). -/
theorem headCrc_congr (a b : BitVec 256) (h : ∀ lo, 136 ≤ lo → bitsOf a lo 8 = bitsOf b lo 8) : headCrc a = headCrc b := by
  unfold headCrc
  refine congrArg crc8 (List.map_congr_left fun i hi => ?_)
  have : i < 15 := List.mem_range.1 hi
  rw [h _ (by omega)]

/-- A field written twice with the same value. -/
theorem withBits_twice {m : Nat} (w : BitVec m) (lo n v : Nat) : withBits (withBits w lo n v) lo n v = withBits w lo n v := by
  refine BitVec.eq_of_getLsbD_eq fun i _ => ?_
  simp only [getLsbD_withBits]
  split <;> rfl

/-- A sealed head is sealed: the CRC does not cover itself (R134). -/
@[simp] theorem sealHead_sealHead (h : BitVec 256) : sealHead (sealHead h) = sealHead h := by
  have crc : headCrc (withBits (sealHead h) 128 8 0) = headCrc (withBits h 128 8 0) := by
    refine headCrc_congr _ _ fun lo hlo => ?_
    unfold sealHead
    rw [bitsOf_withBits_ne _ _ _ _ _ _ (by omega), bitsOf_withBits_ne _ _ _ _ _ _ (by omega),
      bitsOf_withBits_ne _ _ _ _ _ _ (by omega)]
  rw [sealHead, crc]
  exact withBits_twice _ _ _ _

/-- A packet that the device makes has a sealed head. -/
@[simp] theorem sealHead_mkPacket (vc kind : Nat) (codes : List Nat) (src dst tag respQ dstHold : Nat) (payload : List DWord) :
    sealHead (mkPacket vc kind codes src dst tag respQ dstHold payload).head =
      (mkPacket vc kind codes src dst tag respQ dstHold payload).head := sealHead_sealHead _

/-- A good flit arrives: it enters its buffer, and probes see it. -/
theorem arriveAt_good (r port : Nat) (f : Flit) (s : State) (hp : sideParity f.vc f.head f.tail = f.parity)
    (hd : if f.head then sealHead f.data = f.data else s.net.discarding.contains (vcKey r port f.vc) = false) :
    ∃ g y d, arriveAt r port f s = { s with
      regs := g
      net := { s.net with
        probeHold := y, discarding := d
        buffers := put (fun _ => []) s.net.buffers (vcKey r port f.vc)
          (bufferAt s (vcKey r port f.vc) ++ [timedFlit s r f]) } } ∧
      d.contains (vcKey r port f.vc) = false := by
  obtain ⟨g, y, e⟩ := probesSee_frame r port true f s
  have gone : ∀ (l : List Nat) (k : Nat), (l.filter (· ≠ k)).contains k = false := fun l k => by simp
  unfold arriveAt
  simp only [e, hp, bne_self_eq_false, Bool.false_eq_true, if_false]
  cases hf : f.head with
  | true =>
    simp only [hf, if_true] at hd
    simp only [hd, ne_eq, not_true, and_false, if_false]
    exact ⟨g, y, _, rfl, gone _ _⟩
  | false =>
    simp only [hf, Bool.false_eq_true, if_false] at hd
    simp only [hd, Bool.false_eq_true, false_and, if_false]
    exact ⟨g, y, _, rfl, gone _ _⟩

/-- A body flit takes no time of its own. -/
theorem timedFlit_body (s : State) (r : Nat) (f : Flit) (h : f.head = false) : timedFlit s r f = f := by simp [timedFlit, h]

/-- Good body flits of one channel arrive in order while it discards nothing. -/
theorem arriveBody (r port vc : Nat) (fs : List Flit) (s : State)
    (hg : ∀ f ∈ fs, f.vc = vc ∧ f.head = false ∧ sideParity f.vc f.head f.tail = f.parity)
    (hd : s.net.discarding.contains (vcKey r port vc) = false) :
    ∃ g y d b, fs.foldl (fun acc f => arriveAt r port f acc) s = { s with
      regs := g, net := { s.net with probeHold := y, discarding := d, buffers := b } } ∧
      (∀ k, look (fun _ => []) b k = if k = vcKey r port vc then bufferAt s k ++ fs else bufferAt s k) := by
  induction fs generalizing s with
  | nil => exact ⟨_, _, _, _, rfl, fun k => by simp [bufferAt]⟩
  | cons f l ih =>
    obtain ⟨hv, hh, hp⟩ := hg f (List.mem_cons_self ..)
    subst hv
    obtain ⟨g, y, d, e, hk⟩ := arriveAt_good r port f s hp (by simpa [hh] using hd)
    rw [List.foldl_cons, e]
    generalize ht : ({ s with regs := g, net := _ } : State) = t
    have hk : t.net.discarding.contains (vcKey r port f.vc) = false := by subst ht; exact hk
    obtain ⟨g', y', d', b, e', hb⟩ := ih t (fun x hx => hg x (List.mem_cons_of_mem _ hx)) hk
    subst ht
    refine ⟨g', y', d', b, e', fun k => ?_⟩
    rw [hb k]
    by_cases h : k = vcKey r port f.vc
    · subst h; simp [bufferAt, timedFlit_body s r f hh]
    · simp [bufferAt, h]

/-- A packet is its head flit and good body flits of its channel. -/
theorem packetFlits_eq (p : Packet) : ∃ f body, packetFlits p = f :: body ∧
    f.data = p.head ∧ f.vc = headVc p.head ∧ f.head = true ∧ sideParity f.vc f.head f.tail = f.parity ∧
    ∀ x ∈ body, x.vc = headVc p.head ∧ x.head = false ∧ sideParity x.vc x.head x.tail = x.parity := by
  refine ⟨_, _, rfl, rfl, rfl, rfl, rfl, fun x hx => ?_⟩
  obtain ⟨j, -, rfl⟩ := List.mem_map.1 hx
  exact ⟨rfl, rfl, rfl⟩

/-- All that an injection of a packet with a sealed head does: its flits enter the local input in order, and probes see its
head. -/
theorem inject_frame (i : Nat) (p : Packet) (s : State) (h : sealHead p.head = p.head) :
    ∃ g y d b, inject i p s = { s with
      regs := g, net := { s.net with probeHold := y, discarding := d, buffers := b } } ∧
      (∀ k, look (fun _ => []) b k = if k = vcKey (routerOfNi s i) 0 (headVc p.head) then
        bufferAt s k ++ (packetFlits p).map (timedFlit s (routerOfNi s i)) else bufferAt s k) := by
  obtain ⟨f, body, e, hd, hv, hh, hp, hb⟩ := packetFlits_eq p
  have rest : body.map (timedFlit s (routerOfNi s i)) = body :=
    (List.map_congr_left fun x hx => timedFlit_body _ _ x (hb x hx).2.1).trans (List.map_id' body)
  unfold inject
  rw [e, List.foldl_cons, List.map_cons, rest]
  obtain ⟨g, y, d, e', hk⟩ := arriveAt_good (routerOfNi s i) 0 f s hp (by rw [hh, if_pos rfl, hd, h])
  rw [hv] at e' hk
  rw [e']
  generalize ht : ({ s with regs := g, net := _ } : State) = t
  have hk : t.net.discarding.contains (vcKey (routerOfNi s i) 0 (headVc p.head)) = false := by subst ht; exact hk
  obtain ⟨g', y', d', b, e'', hb⟩ := arriveBody (routerOfNi s i) 0 (headVc p.head) body t hb hk
  subst ht
  refine ⟨g', y', d', b, e'', fun k => ?_⟩
  rw [hb k]
  by_cases hk' : k = vcKey (routerOfNi s i) 0 (headVc p.head)
  · subst hk'; simp [bufferAt]
  · simp [bufferAt, hk']

/-- A packet off VC0 enters the buffer as its flits. -/
theorem timedFlit_packet (s : State) (r : Nat) (p : Packet) (h : headVc p.head ≠ 0) :
    (packetFlits p).map (timedFlit s r) = packetFlits p := by
  obtain ⟨f, body, e, -, hv, -, -, hb⟩ := packetFlits_eq p
  rw [e]
  refine (List.map_congr_left fun x hx => ?_).trans (List.map_id' _)
  have : x.vc = headVc p.head := by
    rcases List.mem_cons.1 hx with rfl | hx
    · exact hv
    · exact (hb x hx).1
  simp [timedFlit, this, h]

/-- All that a head flit does on its way across the mesh: probes see it. -/
theorem crossMesh_frame (cs : List Nat) (r : Nat) (f : Flit) (s : State) :
    ∃ g y, crossMesh cs r f s = { s with regs := g, net := { s.net with probeHold := y } } := by
  induction cs generalizing r f s with
  | nil => exact probesSee_frame _ _ _ _ _
  | cons c rest ih =>
    obtain ⟨g, y, e⟩ := probesSee_frame r (c + 1) false f s
    unfold crossMesh
    rw [e]
    dsimp only
    split
    · obtain ⟨g', y', e'⟩ := probesSee_frame _ _ true (usedHop f)
        { s with regs := g, net := { s.net with probeHold := y } }
      rw [e']
      obtain ⟨g'', y'', e''⟩ := ih _ (usedHop f) { s with regs := g', net := { s.net with probeHold := y' } }
      exact ⟨g'', y'', e''⟩
    · exact ⟨_, _, rfl⟩

/-- All that the packet of a probe record does on its way: probes see it. -/
theorem sendRecord_frame (p : Nat) (r : ProbeRecord) (s : State) :
    ∃ g y, sendRecord p r s = { s with regs := g, net := { s.net with probeHold := y } } := by
  unfold sendRecord
  generalize packetFlits (recordPacket s p r) = fs
  generalize recordRoute s p = cs
  generalize probeRouter s p = a
  induction fs generalizing s with
  | nil => exact ⟨_, _, rfl⟩
  | cons f fs ih =>
    obtain ⟨g, y, e⟩ := probesSee_frame a 0 true f s
    rw [List.foldl_cons, e]
    obtain ⟨g', y', e'⟩ := crossMesh_frame cs a f { s with regs := g, net := { s.net with probeHold := y } }
    rw [e']
    obtain ⟨g'', y'', e''⟩ := ih { s with regs := g', net := { s.net with probeHold := y' } }
    exact ⟨g'', y'', e''⟩

end Sys2Proof.Machine
end

