-- ==== Sys2Proof/WellFormed.lean ====
section
/-! DEFINITION. Which commands are well formed: every operand that is a plain number lies in the range that its place in
the manual gives it. The meanings are total, so an ill-formed command changes nothing that this file decides. -/
namespace Sys2Proof

/-- Bytes of a register BAR (Table 16.3), or of a register of configuration space. -/
def barSize : Bar → Nat
  | .bar0 => 0x4000000
  | .bar2 => 0x20000
  | .config _ => 4
  | .ddrWin => 0x40000000

/-- A register access has bytes and lies in its BAR (R9, R389). -/
def refOk (r : Ref) : Bool := decide (0 < r.size) && decide (r.addr + r.size ≤ barSize r.bar)

/-- The address of a management packet is a BAR0 offset (R388). -/
def mgmtOk (addr : Nat) : Bool := decide (addr < 0x4000000)

/-- The bytes of a training set (Table 7.3). -/
def setOk (x : TrainingSet) : Bool :=
  decide (x.state < 256) && decide (x.lane < 256) && decide (x.ordinal < 256) && decide (x.width < 256) &&
    decide (x.index < 256)

/-- The fields of an alignment marker (Table 7.2). -/
def markerOk (m : MarkerIn) : Bool := decide (m.width < 16) && decide (m.index < 8)

/-- The times of a delay exchange do not run backwards (R187). -/
def exchangeOk : Exchange → Bool
  | .request _ _ => true
  | .answer _ _ t2 t3 _ => decide (t2 ≤ t3)

/-- The fields of a time-exchange frame (Table 12.2). -/
def timeFrameOk (f : TimeFrame) : Bool :=
  decide (f.messageType < 16) && decide (f.domain < 256) && decide (f.sequence < 65536) && decide (f.stamp < 2 ^ 96)

/-- Bytes that a BAR4 request is about. -/
def bar4Length : Bar4Data → Nat
  | .read es => es.length
  | .write bs _ => bs.length
  | .ecrcBad x => bar4Length x

/-- A BAR4 access has bytes, lies in the BAR and writes as many bytes as it is long (R393). -/
def bar4Ok (offset length : Nat) (x : Bar4Data) : Bool :=
  decide (0 < length) && decide (offset + length ≤ 2 ^ 32) && decide (bar4Length x = length)

/-- The command is well formed. -/
def wellFormed (i : Instr) : Bool :=
  match i with
  | .clusterStep _ => true
  | .mrdLanding _ => true
  | .vc0WordArrival _ => true
  | .queueAppend _ => true
  | .wmTimeout _ => true
  | .niRequestSend _ => true
  | .acceptanceReceive _ => true
  | .domainAsleepReceive _ => true
  | .niSourceHoldExpiry _ => true
  | .routerOutputSelect _ => true
  | .probeTraceWrite _ => true
  | .niPacketReceive _ => true
  | .mgmtWrite _ _ addr _ => mgmtOk addr
  | .mgmtRead _ addr => mgmtOk addr
  | .reservationProbe _ => true
  | .legDecision => true
  | .milestone => true
  | .milestoneLeave => true
  | .tokenReceive _ _ => true
  | .holdMarkerReceive _ _ => true
  | .msTokenTimeout => true
  | .tokenRepeat _ => true
  | .registerWrite r data => refOk r && decide (data.length = (r.addr % 4 + r.size + 3) / 4)
  | .readClear r => refOk r
  | .captureRead r => refOk r
  | .hazardLogRead _ => true
  | .forceWrite _ _ _ => true
  | .swellFlagsWrite _ _ => true
  | .swellAll => true
  | .vsViewAccess _ _ _ => true
  | .routeEntryWrite _ _ _ => true
  | .quiesce _ => true
  | .niQuiet _ => true
  | .routerReset _ => true
  | .routerDrainDone _ => true
  | .routerReopen _ => true
  | .switchReq => true
  | .ptraceEnable _ => true
  | .linkConfig _ _ => true
  | .retrain _ => true
  | .loopChange _ _ => true
  | .patternMode _ => true
  | .prbsLock _ bits => !bits.isEmpty
  | .inject _ _ => true
  | .laneLock _ => true
  | .laneAlign _ _ => true
  | .trainingSetReceive _ set => setOk set
  | .laneDown _ => true
  | .alignmentMarkerDue _ => true
  | .alignmentMarkerReceive _ markers => !markers.isEmpty && markers.all markerOk
  | .linkUp _ => true
  | .delayExchange _ x => exchangeOk x
  | .delayMeasured _ => true
  | .fillerDue _ => true
  | .fillerReceive _ => true
  | .cwEbSlip _ _ => true
  | .unitBoundary _ => true
  | .frameReceive _ _ => true
  | .vc0FrameReceive _ => true
  | .flitFrameReceive _ => true
  | .linkControlReceive _ => true
  | .linkVc0Enter _ => true
  | .nakReceive _ => true
  | .resendWindowExpiry _ => true
  | .cwLinkTimeout _ => true
  | .ownerHandover _ _ _ => true
  | .handoverDone _ => true
  | .bankPowerRequest _ _ _ => true
  | .bankPowerDone _ => true
  | .controlViewAccess _ _ _ => true
  | .setAliasWrite _ _ _ _ => true
  | .clearAliasWrite _ _ _ _ => true
  | .serviceBankAccess _ _ _ _ => true
  | .marchGo _ => true
  | .marchDone _ => true
  | .ddrTrain _ step _ _ => decide (step < 16)
  | .ddrRefresh _ => true
  | .ddrRequest _ => true
  | .ddrRequestDone _ => true
  | .bar4Access offset length write => bar4Ok offset length write
  | .bar4WinWrite _ => true
  | .harbourCycle => true
  | .dlistTick _ => true
  | .hostMessage _ => true
  | .blockMover => true
  | .reloadFeed => true
  | .loopBack => true
  | .reservationAnswer => true
  | .parkReprobe => true
  | .hbParkTimeout => true
  | .actionEnd => true
  | .harbourEnable _ => true
  | .flush => true
  | .ringTailWrite _ _ => true
  | .txDescriptorFetch _ _ words => decide (1 ≤ words.length) && decide (words.length ≤ 4096)
  | .txWriteBack _ => true
  | .ringEnable _ _ => true
  | .dmaError _ _ => true
  | .messageWindowWrite low high => low.isSome || high.isSome
  | .loadArm => true
  | .loadGo => true
  | .loadAbort => true
  | .loadStart => true
  | .releaseStep => true
  | .streamFetch _ => true
  | .sectionReceived => true
  | .fetchFailure _ => true
  | .backoffExpiry => true
  | .retry _ => true
  | .rewind _ => true
  | .rewound _ => true
  | .endMessage _ => true
  | .abort _ => true
  | .report _ _ => true
  | .start => true
  | .enterHold => true
  | .loadWrite => true
  | .loadComplete => true
  | .shoreWordTransfer _ _ => true
  | .scrubRead _ => true
  | .scrubPassEnd _ => true
  | .reloadGo => true
  | .reloadLeaveRun => true
  | .reloadReceiving => true
  | .breakwaterLaunch _ _ => true
  | .reloadWindowWrite _ _ => true
  | .reloadEnd => true
  | .reloadReady => true
  | .reloadJoin => true
  | .reloadAbort => true
  | .slotPlan => true
  | .freeze => true
  | .run => true
  | .step => true
  | .stop => true
  | .freezeAt _ => true
  | .arm => true
  | .disarm => true
  | .forceTrigger => true
  | .acqStop => true
  | .captureDrain => true
  | .pauseResume => true
  | .segmentRearm => true
  | .timeTick => true
  | .timeSet => true
  | .servoReset => true
  | .timeCfgWrite _ _ => true
  | .syncSend _ => true
  | .syncReceive _ f => timeFrameOk f
  | .followUpReceive _ f => timeFrameOk f
  | .delayReqReceive _ f => timeFrameOk f
  | .delayRespReceive _ f => timeFrameOk f
  | .timeSyncLost => true
  | .boot => true
  | .firmwareVerified => true
  | .restart => true
  | .kick _ => true
  | .lhWatchdog _ => true
  | .peek addr _ => decide (addr < 2 ^ 32)
  | .poke addr _ _ => decide (addr < 2 ^ 32)
  | .burstPeek addr count _ => decide (addr < 2 ^ 32) && decide (1 ≤ count) && decide (count ≤ 32)
  | .reservedOp op _ => !([1, 2, 3].contains op.val)
  | .footpathReply => true
  | .footpathFrameTimeout => true
  | .get => true
  | .go _ => true
  | .challengeExpiry => true
  | .lockoutExpiry => true
  | .sessionEnd => true
  | .sessionTimeout => true
  | .halt => true
  | .haltComplete => true
  | .resume => true
  | .feedReadRegister _ _ => true
  | .feedWriteRegister _ _ => true
  | .feedReadPc _ => true
  | .feedWritePc _ => true
  | .feedLoad _ _ => true
  | .feedStore _ _ => true
  | .feedCompleteStores _ => true
  | .lcTransition _ _ => true
  | .keyProgram _ _ => true
  | .fuseWriteDone _ => true
  | .coreBranch _ _ notTaken _ => decide (notTaken < 2 ^ 32)
  | .coreDataAccess _ _ _ => true
  | .coreSleep _ => true
  | .coreWake _ => true
  | .traceMsg _ _ => true
  | .traceRoom _ => true
  | .trig => true
  | .faultEvent => true
  | .severity7Reset => true
  | .faultInject _ _ => true
  | .safeRelease => true
  | .sevLock => true
  | .cairnCommit _ => true
  | .cairnWrite => true
  | .erase _ => true
  | .eraseDone => true
  | .bistRun => true
  | .bistDone _ => true
  | .testEngineGo _ _ => true
  | .testEngineDone => true
  | .domainRequest _ _ => true
  | .domainClose _ => true
  | .domainDrainDone _ => true
  | .domainOff _ => true
  | .domainOpen _ => true
  | .railInRange _ => true
  | .railTimeout _ => true
  | .domainOn _ => true
  | .railOutOfRange _ => true
  | .fllCalibrate _ => true
  | .thermalDecision => true
  | .sensorSample _ celsius => decide (celsius < 256)
  | .refclkLoss _ => true
  | .refclkReturn _ => true
  | .coldReset _ _ => true
  | .warmReset _ => true
  | .reachReset _ => true
  | .flr => true
  | .irqCauseClear _ _ => true
  | .msixSend _ => true
  | .msixPendingSend _ => true
  | .lhDoorbell _ => true
  | .powerStateChange _ => true
  | .busMasterEnable _ _ _ _ => true
  | .pcieLinkDown => true
  | .tideStart => true
  | .tidePhaseEnd _ => true
  | .shoreWordArrival _ => true
  | .reloadChecked => true
  | .pcieLinkUp speed width => [1, 2, 3].contains speed && [1, 2, 4, 8].contains width
  | .framingError => true
  | .phaseStrobeRise => true

end Sys2Proof
end

