-- ==== Sys2Proof/Safety.lean ====
section
/-! DEFINITION. The terms that claims speak in: what a command completes with, what it leaves alone, and the invariant of
the queue of commands. -/
namespace Sys2Proof.Machine

/-- The command takes effect at once: it answers a next state, and `P` holds of that state. -/
def Completes (c : Instr) (s : State) (P : State → Prop) : Prop := ∃ t, exec c s = .next t ∧ P t

/-- Every waiting command is well formed. -/
def queueOk (s : State) : Prop := ∀ c ∈ s.pending, wellFormed c = true

/-- The registers outside a list hold what they held. -/
def keepsRegs (offsets : List Nat) (s t : State) : Prop := ∀ a, a ∉ offsets → reg t a = reg s a

/-- The register map is canonical: offsets rise and no stored word equals the reset word. -/
def regsOk (s : State) : Prop := sparseWf resetWord s.regs = true

/-- Every byte memory is canonical: addresses rise and no cell equals what an unwritten byte reads. -/
def memoriesOk (s : State) : Prop :=
  (∀ b, (designMem s b).wf) ∧ (∀ k, (serviceMem s k).wf) ∧ (∀ c, (ddr s c).mem.wf) ∧ (∀ c, (lhCore s c).local_.wf) ∧
    s.trc.buffer.wf ∧ s.cairn.nvm.wf

/-- The leg from which a decision walks on (R96): the first leg after the milestone, the next one after a leg. -/
def legFrom (s : State) : Option Nat :=
  match s.sched.phase with
  | .deciding k => some k
  | .leg k => some (k + 1)
  | _ => none

/-- The cluster is in the 4 sc of a leg transition. -/
def inTransition (c : Cluster) : Bool :=
  match c.walk with
  | .transition _ => true
  | _ => false

/-- The commands that Footpath carries as request frames (R323, Table 13.4). -/
def isRequest : Instr → Bool
  | .peek .. => true
  | .poke .. => true
  | .burstPeek .. => true
  | .reservedOp .. => true
  | _ => false

/-- A run is safe from a state when its next step stops with neither a fault nor a refusal. -/
def stepSafe (s : State) : Prop := ∃ t, step s = .next t

end Sys2Proof.Machine
end

