-- ==== Sys2Proof/Certificates/Slice0/Obligations.lean ====
section
/-! DEFINITION. The statements for the provers, one proposition per obligation of OBLIGATIONS.json. -/

set_option autoImplicit false

open Sys2Proof Sys2Proof.Machine

/-- A step runs the command at the front of the queue. A step with command c at the front of its queue is exec of c on
the state whose queue is the rest; a step on an empty queue leaves the state (log entry 1, the model's choice).
(Rests on spec/opcode_table.json) -/
def Obligations.StepRunsFrontCommand : Prop :=
  (∀ (c : Instr) (rest : List Instr) (s : State), s.pending = c :: rest → step s = exec c { s with pending := rest }) ∧
  (∀ s : State, s.pending = [] → step s = .next s)

/-- Every command answers a next state. For every command and every state, exec answers a next state: no command of this
model stops with a fault or a refusal. (Rests on spec/opcode_table.json) -/
def Obligations.CommandsAlwaysComplete : Prop :=
  ∀ (c : Instr) (s : State), ∃ t, exec c s = .next t

/-- A step takes exactly one command, and the queue stays well formed. Whatever a step does, the queue after it is the
queue before it without its front command: no command adds, drops or reorders waiting commands. A queue of well
formed commands therefore stays one. The queue is the model's own (log entry 1). (Rests on spec/opcode_table.json) -/
def Obligations.StepTakesOneCommand : Prop :=
  ∀ s t : State, step s = .next t → t.pending = s.pending.tail ∧ (queueOk s → queueOk t)

/-- Every step keeps the canonical form of the register map. From every state whose register map lists offsets in rising
order and no word equal to its reset word, a step that answers a next state leaves a register map of that form, so
that equal register contents are equal data. (Rests on spec/00_scope.md; spec/16_host_interface.md) -/
def Obligations.StepKeepsRegisterMap : Prop :=
  ∀ s t : State, regsOk s → step s = .next t → regsOk t

/-- Every step keeps the canonical form of every byte memory. From every state in which the design banks, the service
banks, the DDR4 channels, the local memories of Lighthouse, the trace buffer and the Cairn ring are canonical
(addresses rise, no listed byte equals what an unwritten byte reads), a step that answers a next state leaves them
all canonical. What an unwritten byte reads is the model's choice (log entry 2). (Rests on spec/08_memories.md;
spec/13_lighthouse_debug_security.md; spec/14_faults_bist_cairn.md) -/
def Obligations.StepKeepsMemories : Prop :=
  ∀ s t : State, memoriesOk s → step s = .next t → memoriesOk t

/-- What the state right after reset holds. State.reset has an empty queue and canonical memories; every register but
PWR_RESET_STATUS holds the reset word of its description, and PWR_RESET_STATUS shows a cold reset with cause power-
on; GLB_MS_TOKEN_TIMEOUT, CLU_WM_TIMEOUT, BANK_OWNER, HB_PARK_TIMEOUT, CW_LINK_TIMEOUT, LD_REACH, TIME_INC_HI and
GLB_IRQ_CAUSE_HI hold the values of their field tables; the loader is idle, no reload, Lighthouse has not started,
every reach is in HOLD, the design has not started and BIST runs. That reset is shown as the first power-up is the
model's choice (log entry 7). (Rests on spec/15_power_clocks_reset.md; spec/04_legs_milestones_waymarks.md;
spec/02_boolean_processor_and_cluster.md; spec/08_memories.md; spec/09_harbour.md; spec/07_causeway.md;
spec/10_loading_release_reload.md; spec/12_system_time.md; spec/16_host_interface.md) -/
def Obligations.ResetState : Prop :=
  queueOk State.reset ∧ regsOk State.reset ∧ memoriesOk State.reset ∧ State.reset.pending = [] ∧
  (∀ a, a ≠ R.pwrResetStatus → reg State.reset a = resetWord a) ∧
  bits State.reset R.pwrResetStatus 29 3 = 1 ∧ bits State.reset R.pwrResetStatus 26 3 = 1 ∧
  reg State.reset R.glbMsTokenTimeout = 1000 ∧ reg State.reset (R.cluWmTimeout 127) = 0x100000 ∧
  reg State.reset (R.bankOwner 255) = 0x80800080 ∧ reg State.reset R.hbParkTimeout = 10000 ∧
  reg State.reset (R.cwLinkTimeout 19) = 100000 ∧ reg State.reset R.ldReach = 0xFFFF0000 ∧
  reg State.reset R.timeIncHi = 4 ∧ reg State.reset R.glbIrqCauseHi = 0 ∧
  ldState State.reset = 0 ∧ rlState State.reset = 0 ∧ lhState State.reset = 0 ∧ allHold State.reset = true ∧
  State.reset.sched.run = .notStarted ∧ bistRuns State.reset = true

/-- A register write acts field by field as the access codes say. In every register description no bit belongs to two of
the written access types, nor to one of them and RC. A written word then reads bit by bit: an RW bit takes the
written bit, a one clears a W1C bit, a one sets a W1S bit, and every other bit keeps its value. (Rests on
spec/00_scope.md Table 0.4) -/
def Obligations.AccessCodes : Prop :=
  (∀ g ∈ regTable, g.rw &&& g.w1c = 0 ∧ g.rw &&& g.w1s = 0 ∧ g.w1c &&& g.w1s = 0 ∧
    (g.rw ||| g.w1c ||| g.w1s) &&& g.rc = 0) ∧
  (∀ g ∈ regTable, ∀ (old v : Word) (b : Nat), b < 32 →
    (writtenWord g old v).getLsbD b =
      if g.rw.testBit b then v.getLsbD b
      else if g.w1c.testBit b then old.getLsbD b && !v.getLsbD b
      else if g.w1s.testBit b then old.getLsbD b || v.getLsbD b
      else old.getLsbD b)

/-- What EVAL, EVALX, COPY and the other instructions write as their result. An executed step (a CLUSTER_STEP of a
running cluster in a leg with no bank period owed and no stall condition) writes, for each BP without an enabled
force entry: EVAL, MADR and MRD the bit of dictionary entry fidx at the index that is the sum of opk times 2 to the
k over op0 to op5; EVALX that lookup over op0 to op4 while op5 is 1 and else the bit of its own entry; COPY op0,
inverted when fidx bit 0 is 1; SEND, HSEND, MWD, QPUT, QGET, WWAIT, PROBE and BRK the lookup over op0 to op4. An
enabled force entry gives its value instead, for a NOP too; a WSET is left out here, because its result is fixed
when it arms. (Rests on R27; R54; R62; R64; R67; R69; R70; R71) -/
def Obligations.InstructionResults : Prop :=
  ∀ (n : Fin 128) (s : State) (st : Nat) (c : Cluster), clusterRuns s n = true → s.sched.run = .running →
    (clu s n).walk = .inLeg st → st < 1024 → (clu s n).bankDebt = 0 →
    armWsets s n st (stepWords (arriveStep s n st (clu s n)) st) (arriveStep s n st (clu s n)) = some c →
    stallCauses s n c st (stepWords (arriveStep s n st (clu s n)) st) = [] →
    ∃ t, exec (.clusterStep n) s = .next t ∧
      ∀ b i, (b, i) ∈ stepWords (arriveStep s n st (clu s n)) st →
        let op := fun k => readOperand s n c b st (opSel i k)
        let index := fun m => ∑ k ∈ Finset.range m, (op k).toNat * 2 ^ k
        let stored := entry (clu t n).cur b st
        (∀ v, forced c b st = some v → insnOp i ≠ .wset → stored = v) ∧
        (forced c b st = none →
          (insnOp i ∈ [.eval, .madr, .mrd] → stored = (dword c.dict (fidx i)).getLsbD (index 6)) ∧
          (insnOp i = .evalx →
            stored = if op 5 then (dword c.dict (fidx i)).getLsbD (index 5) else entry c.cur b st) ∧
          (insnOp i = .copy → stored = (op 0 != (fidx i).testBit 0)) ∧
          (insnOp i ∈ [.send, .hsend, .mwd, .qput, .qget, .wwait, .probe, .brk] →
            stored = (dword c.dict (fidx i)).getLsbD (index 5)))

/-- A word written to DBG_FEED acts as the feed command it spells. Each feed command acts as a write of DBG_FEED with
its operation in bits [31:28], its core in bit 27, inc in bit 26 and its register number in bits [20:16], whatever
the bits its operation does not use hold. (Rests on spec/13_lighthouse_debug_security.md Table 13.6) -/
def Obligations.FeedWords : Prop :=
  ∀ (c : Fin 2) (g : Fin 32) (inc : Bool) (s : State), s.dbg.feeding = none →
    let word := fun (op n : Nat) => BitVec.ofNat 32 (op * 2 ^ 28 + c * 2 ^ 27 + inc.toNat * 2 ^ 26 + n * 2 ^ 16)
    exec (.feedReadRegister c g) s = .next (feedWrite false (word 1 g) s) ∧
    exec (.feedWriteRegister c g) s = .next (feedWrite false (word 2 g) s) ∧
    exec (.feedReadPc c) s = .next (feedWrite false (word 3 g) s) ∧
    exec (.feedWritePc c) s = .next (feedWrite false (word 4 g) s) ∧
    exec (.feedLoad c inc) s = .next (feedWrite false (word 5 g) s) ∧
    exec (.feedStore c inc) s = .next (feedWrite false (word 6 g) s) ∧
    exec (.feedCompleteStores c) s = .next (feedWrite false (word 7 g) s)

/-- Decoding an encoded Footpath request frame gives the request back. For every well formed request that Footpath
carries (PEEK, POKE, BURST_PEEK and the reserved operations, with a right or a wrong CRC; a POKE that completes in
time), decoding the bytes of its frame gives the same request with every operand at every value; whether a POKE
completes in time is no part of its frame. (Rests on spec/13_lighthouse_debug_security.md) -/
def Obligations.FrameRoundTrip : Prop :=
  (∀ i : Instr, isRequest i = true → wellFormed i = true → (∀ a v ok, i ≠ .poke a v ⟨ok, true⟩) →
    (encodeFrame i).bind decodeFrame = some i) ∧
  (∀ (a : Nat) (v : Word) (ok : Bool), encodeFrame (.poke a v ⟨ok, true⟩) = encodeFrame (.poke a v ⟨ok, false⟩))

/-- How CLUSTER_STEP counts the periods outside steps and bank stalls. In a leg transition with fewer than 4 periods
counted, and at the milestone with fewer than 48 counted, a CLUSTER_STEP of a running cluster counts one period and
changes nothing else; while a period is owed to a bank, the transition and the end of the walk pay it first and
stall. At a step whose WSETs are armed and that no other condition stalls, with a period owed to a bank, it pays one
period, the cluster stalls, CLU_STALL_CNT counts up without passing its maximum, and no other register changes. That
bank contention is settled in command order is the model's choice (log entry 8). (Rests on
spec/02_boolean_processor_and_cluster.md; spec/04_legs_milestones_waymarks.md; spec/05_timing_contract.md) -/
def Obligations.ClusterWalk : Prop :=
  (∀ (n : Fin 128) (s : State) (k : Nat), clusterRuns s n = true → s.sched.run = .running →
    (clu s n).walk = .transition k → k < 4 → (clu s n).bankDebt = 0 →
    exec (.clusterStep n) s = .next (setClu s n { clu s n with walk := .transition (k + 1), stalled := false })) ∧
  (∀ (n : Fin 128) (s : State) (p : Nat), clusterRuns s n = true → s.sched.run = .running →
    (clu s n).walk = .milestone p → p < 48 →
    exec (.clusterStep n) s = .next (setClu s n { clu s n with walk := .milestone (p + 1), stalled := false })) ∧
  (∀ (n : Fin 128) (s : State) (st : Nat) (c : Cluster), clusterRuns s n = true → s.sched.run = .running →
    (clu s n).walk = .inLeg st →
    armWsets s n st (stepWords (arriveStep s n st (clu s n)) st) (arriveStep s n st (clu s n)) = some c →
    stallCauses s n c st (stepWords (arriveStep s n st (clu s n)) st) = [] → 0 < c.bankDebt →
    Completes (.clusterStep n) s fun t =>
      clu t n = { c with
        bankDebt := c.bankDebt - 1
        waitFor := none
        waitPeriods := 0
        waitRaised := false
        stalled := true } ∧
      bits t (R.cluStallCnt n) 0 32 = min (bits s (R.cluStallCnt n) 0 32 + 1) (2 ^ 32 - 1) ∧
      keepsRegs [R.cluStallCnt n] s t) ∧
  (∀ (n : Fin 128) (s : State) (k : Nat), clusterRuns s n = true → s.sched.run = .running →
    ((clu s n).walk = .transition k ∨ (clu s n).walk = .atEnd) → 0 < (clu s n).bankDebt →
    Completes (.clusterStep n) s fun t =>
      clu t n = { clu s n with bankDebt := (clu s n).bankDebt - 1, stalled := true } ∧
      bits t (R.cluStallCnt n) 0 32 = min (bits s (R.cluStallCnt n) 0 32 + 1) (2 ^ 32 - 1) ∧
      keepsRegs [R.cluStallCnt n] s t)

/-- What an executed step writes into the value store. A CLUSTER_STEP of a running cluster in a leg, with no bank period
owed, every WSET armed and no stall condition, executes its step: every BP with an instruction other than NOP gets
its present result at that step of the current bank, and a NOP the value of its force entry when one is enabled; a
way track carries 1 in its current step exactly when an instruction with wd set on it has result 1; the swell flags
stay when every instruction with sw set repeats its previous result; no other step of the current bank and nothing
of the previous bank changes, and the cluster is not stalled. The way track and swell parts are those of the same
step (R54 for the forced NOP). That an instruction that misuses a resource drives its way track and is compared for
swell all the same, with the result that it writes, is the model's choice (log entry 100). (Rests on
spec/02_boolean_processor_and_cluster.md; spec/03_instruction_set.md; spec/05_timing_contract.md) -/
def Obligations.StepResults : Prop :=
  ∀ (n : Fin 128) (s : State) (st : Nat) (c : Cluster), clusterRuns s n = true → s.sched.run = .running →
    (clu s n).walk = .inLeg st → st < 1024 →
    armWsets s n st (stepWords (arriveStep s n st (clu s n)) st) (arriveStep s n st (clu s n)) = some c →
    stallCauses s n c st (stepWords (arriveStep s n st (clu s n)) st) = [] → c.bankDebt = 0 →
    Completes (.clusterStep n) s fun t =>
      (clu t n).lastStep = some st ∧ (clu t n).stalled = false ∧ (clu t n).prev = (clu s n).prev ∧
      (∀ b i, (b, i) ∈ stepWords (arriveStep s n st (clu s n)) st → insnOp i ≠ .nop →
        entry (clu t n).cur b st = presentResult s n c st b i) ∧
      (∀ b i, (b, i) ∈ stepWords (arriveStep s n st (clu s n)) st → insnOp i = .nop → forced c b st ≠ none →
        some (entry (clu t n).cur b st) = forced c b st) ∧
      (∀ k, k < 128 → ((clu t n).way.headD 0).getLsbD k = ((stepWords (arriveStep s n st (clu s n)) st).any fun x =>
        insnOp x.2 != .nop && wdBit x.2 && x.1 % 128 == k && presentResult s n c st x.1 x.2)) ∧
      (((stepWords (arriveStep s n st (clu s n)) st).all fun x =>
        insnOp x.2 == .nop || !swBit x.2 || presentResult s n c st x.1 x.2 == entry c.prev x.1 st) = true →
        (clu t n).swell = c.swell) ∧
      (∀ b j, j < 1024 → j ≠ st → entry (clu t n).cur b j = entry (clu s n).cur b j)

/-- MRD landings, VC0 words and queue responses reach their cluster. MRD_LANDING six steps after its issue puts the read
data into the lane's read register and touches nothing else. VC0_WORD_ARRIVAL at its due time puts the word into the
pending register and the last-word register of its arrival entry and sets the legs of CLU_SWELL_IN only when the
word differs from the last one; a word for a cluster in HOLD that waits changes the pending register alone, and a
word whose destination hold is over does not wait for one before it whose hold is not. QUEUE_APPEND of a response
fills the reserved places of its tag in order, however many places and words there are, the words that now stand
without a gap at the front join the queue, the other places stay reserved, and the tag is free again. MRD_LANDING in
a transition or at the end of the legs lands its data too. That a word which its entry does not expect in this ec is
compared, becomes the last word and sets swell flags all the same is the model's choice (log entry 101). (Rests on
spec/02_boolean_processor_and_cluster.md; spec/06_wayfabric.md) -/
def Obligations.ClusterArrivals : Prop :=
  (∀ (n : Fin 128) (s : State) (st : Nat) (m : Mrd) (rest : List Mrd), (clu s n).mrds = m :: rest →
    (clu s n).walk = .inLeg st → m.step + 6 ≤ st →
    Completes (.mrdLanding n) s fun t =>
      (clu t n).mrds = rest ∧ dword (clu t n).laneRdata m.lane = m.data ∧
      (∀ k, k ≠ m.lane → dword (clu t n).laneRdata k = dword (clu s n).laneRdata k) ∧
      (∀ k, k ≠ n.val → clu t k = clu s k) ∧ t = { s with clusters := t.clusters }) ∧
  (∀ (n : Fin 128) (s : State) (h : Held) (rest : List Held), (ni s n).words = h :: rest →
    h.due ≤ routerPeriods s (routerOfNi s n) → reachRuns s (n / 8) = true →
    bit s (R.cluArrEntry n (headTag h.packet.head)) 31 = true →
    deadlinePassed s (clu s n) (bits s (R.cluArrEntry n (headTag h.packet.head)) 0 10) = false →
    Completes (.vc0WordArrival n) s fun t =>
      let e := headTag h.packet.head
      let w := h.packet.payload.headD 0
      (ni t n).words = rest ∧ find (clu t n).pending e = some w ∧ dword (clu t n).lastWord e = w ∧
      (clu t n).swell = (if w = dword (clu s n).lastWord e then (clu s n).swell
        else (clu s n).swell ||| (reg s (R.cluSwellIn n e) &&& legMask s)) ∧
      t.regs = s.regs) ∧
  (∀ (n : Fin 128) (s : State) (p : Packet) (rest : List Packet) (o : Outstanding) (q : Nat),
    (ni s n).responses = p :: rest → (ni s n).outstanding.find? (fun x => x.tag == headTag p.head % 64) = some o →
    o.queue = some q → (queue (clu s n) q).places.length ≤ 32 →
    Completes (.queueAppend n) s fun t =>
      let filled := fillPlaces (headTag p.head % 64) (queue (clu s n) q).places (p.payload.take o.words)
      (ni t n).responses = rest ∧
      (ni t n).outstanding = (ni s n).outstanding.filter (fun x => x.tag ≠ headTag p.head % 64) ∧
      (queue (clu t n) q).words = (queue (clu s n) q).words ++ (filled.takeWhile fun x => x.word.isSome).filterMap Place.word ∧
      (queue (clu t n) q).places = filled.dropWhile (fun x => x.word.isSome) ∧
      (∀ k, k ≠ q → queue (clu t n) k = queue (clu s n) k) ∧ t.regs = s.regs) ∧
  (∀ (n : Fin 128) (s : State) (m : Mrd) (rest : List Mrd) (k : Nat), (clu s n).mrds = m :: rest →
    ((clu s n).walk = .transition k ∨ (clu s n).walk = .atEnd) →
    Completes (.mrdLanding n) s fun t =>
      (clu t n).mrds = rest ∧ dword (clu t n).laneRdata m.lane = m.data ∧
      (∀ j, j ≠ m.lane → dword (clu t n).laneRdata j = dword (clu s n).laneRdata j) ∧
      (∀ j, j ≠ n.val → clu t j = clu s j) ∧ t = { s with clusters := t.clusters }) ∧
  (∀ (n : Fin 128) (s : State) (h : Held) (rest : List Held), (ni s n).words = h :: rest →
    h.due ≤ routerPeriods s (routerOfNi s n) → reachRuns s (n / 8) = false → wordWaits s n = true →
    Completes (.vc0WordArrival n) s fun t =>
      (ni t n).words = rest ∧
      clu t n = { clu s n with
        pending := enter (clu s n).pending (headTag h.packet.head) (h.packet.payload.headD 0) } ∧
      (∀ k, k ≠ n.val → clu t k = clu s k) ∧ t.regs = s.regs) ∧
  (∀ (n : Fin 128) (s : State) (g h : Held) (rest : List Held), (ni s n).words = g :: h :: rest →
    routerPeriods s (routerOfNi s n) < g.due → h.due ≤ routerPeriods s (routerOfNi s n) →
    Completes (.vc0WordArrival n) s fun t => (ni t n).words = g :: rest ∧ t.regs = s.regs)

/-- Waymark timeouts, requests, acceptances, sleep notices and source holds of a network interface. WM_TIMEOUT past
CLU_WM_TIMEOUT sets CLU_STATUS.wm_timeout and raises WM_TIMEOUT once per wait. NI_REQUEST_SEND takes the next HSEND
message, gives it the lowest free tag and injects the packet on VC1. ACCEPTANCE_RECEIVE frees its tag.
DOMAIN_ASLEEP_RECEIVE of a notice logs the two endpoints and counts. NI_SOURCE_HOLD_EXPIRY injects the word whose
hold is over. The route that HSEND takes and payload bit 0 of a kind-4 packet are the model's choices (log entries
16 and 17). (Rests on spec/02_boolean_processor_and_cluster.md; spec/06_wayfabric.md;
spec/04_legs_milestones_waymarks.md) -/
def Obligations.ClusterRequests : Prop :=
  (∀ (n : Fin 128) (s : State) (k : Nat), (clu s n).waitFor = some k →
    reg s (R.cluWmTimeout n) ≠ 0 → (reg s (R.cluWmTimeout n)).toNat < (clu s n).waitPeriods →
    (clu s n).waitRaised = false → k < 64 → domainOn s (n / 8) = true →
    Completes (.wmTimeout n) s fun t =>
      bit t (R.cluStatus n) 3 = true ∧ clu t n = { clu s n with waitRaised := true } ∧
      t.flt.signals = s.flt.signals ++ [⟨32 + n / 8, 256 * n + k, false⟩] ∧ keepsRegs [R.cluStatus n] s t) ∧
  (∀ (n : Fin 128) (s : State) (g e : Nat), bit s (R.wfNiCtrl n) 0 = false → freeTag (ni s n) = some g →
    nextSource s n (clu s n) = some 16 → entryTo s n 152 1 = some e →
    Completes (.niRequestSend n) s fun t =>
      (clu t n).sendFifo = (clu s n).sendFifo.drop 1 ∧
      (ni t n).outstanding = (ni s n).outstanding ++ [⟨g, 152, none, 0⟩] ∧
      bufferAt t (vcKey (routerOfNi s n) 0 1) = bufferAt s (vcKey (routerOfNi s n) 0 1) ++
        packetFlits (mkPacket 1 1 (routeCodes s n e) n 152 g 0 0 [(clu s n).sendFifo.headD 0])) ∧
  (∀ (n : Fin 128) (s : State) (p : Packet) (rest : List Packet), (ni s n).acceptances = p :: rest →
    exec (.acceptanceReceive n) s = .next (setNi s n { ni s n with
      acceptances := rest,
      outstanding := (ni s n).outstanding.filter fun o => o.tag ≠ headTag p.head % 64 })) ∧
  (∀ (i : Fin 136) (s : State) (p : Packet) (rest : List Packet), (ni s i).notices = p :: rest →
    (p.payload.headD 0).getLsbD 0 = false →
    Completes (.domainAsleepReceive i) s fun t =>
      bit t R.wfStatus 4 = true ∧ bits t R.wfAsleepLog 24 8 = headDst p.head ∧
      bits t R.wfAsleepLog 16 8 = headSrc p.head ∧
      bits t R.wfAsleepLog 0 16 = min (bits s R.wfAsleepLog 0 16 + 1) 65535 ∧ (ni t i).notices = rest ∧
      t.clusters = s.clusters) ∧
  (∀ (i : Fin 136) (s : State) (h : Held), (ni s i).sourceHold = [h] →
    h.due ≤ routerPeriods s (routerOfNi s i) → sealHead h.packet.head = h.packet.head →
    Completes (.niSourceHoldExpiry i) s fun t =>
      (ni t i).sourceHold = [] ∧
      bufferAt t (vcKey (routerOfNi s i) 0 (headVc h.packet.head)) =
        bufferAt s (vcKey (routerOfNi s i) 0 (headVc h.packet.head)) ++
          (packetFlits h.packet).map (timedFlit s (routerOfNi s i)))

/-- A router forwards, a network interface receives, a misrouted packet is discarded, a reservation is granted.
ROUTER_OUTPUT_SELECT with one flit for the local output delivers the packet to its NI, advances the wheel and the
period count. NI_PACKET_RECEIVE of a VC0 word holds it for its destination hold; of a packet whose endpoint is not
the NI's own, it discards it, records WF_HDR_ERR and raises WF_MISROUTE. RESERVATION_PROBE with room reserves the
places under the lowest free tag. (Rests on spec/06_wayfabric.md; spec/09_harbour.md) -/
def Obligations.MeshCommands : Prop :=
  (∀ (r : Fin 144) (s : State) (i v : Nat) (f : Flit) (d : Fin 136), routerInReset s r = false →
    chooseFlit s r 0 = some (i, v) → (∀ o, o < 5 → o ≠ 0 → chooseFlit s r o = none) →
    bufferAt s (vcKey r i v) = [f] → f.tail = true → niOfRouter s r = some d.val →
    look (fun _ => []) (ni s d).partialIn f.vc = [] →
    Completes (.routerOutputSelect r) s fun t =>
      bufferAt t (vcKey r i v) = [] ∧ (ni t d).arrived = (ni s d).arrived ++ [⟨f.data, payloadOf [f]⟩] ∧
      routerPeriods t r = routerPeriods s r + 1 ∧
      (s.net.wheelsStopped = false → wheelAt t r = (wheelAt s r + 1) % 64) ∧
      t.clusters = s.clusters ∧ t.banks = s.banks) ∧
  (∀ (i : Fin 136) (s : State) (p : Packet) (rest : List Packet), (ni s i).arrived = p :: rest →
    headKind p.head = 0 → niOfEndpoint s (headDst p.head) = some i.val → endpointClosed s (headDst p.head) = false →
    Completes (.niPacketReceive i) s fun t =>
      ni t i = { ni s i with
        arrived := rest
        words := (ni s i).words ++ [⟨p, routerPeriods s (routerOfNi s i) + headDstHold p.head⟩] } ∧
      (∀ j, j ≠ i.val → ni t j = ni s j) ∧ t = { s with net := t.net }) ∧
  (∀ (i : Fin 136) (s : State) (p : Packet) (rest : List Packet), (ni s i).arrived = p :: rest →
    headKind p.head ≤ 1 → niOfEndpoint s (headDst p.head) ≠ some i.val →
    Completes (.niPacketReceive i) s fun t =>
      bit t R.wfStatus 3 = true ∧ bits t R.wfHdrErr 16 3 = 3 ∧ (ni t i).arrived = rest ∧
      t.flt.signals = s.flt.signals ++ [⟨221, i, false⟩] ∧ t.clusters = s.clusters) ∧
  (∀ (n : Fin 128) (s : State) (p : Packet) (x : Ni) (g : Nat), takeManagement (ni s n) 6 = some (p, x) →
    reachRuns s (n / 8) = true → inboundQueue s n (bitsOf (p.payload.headD 0) 0 4) = true → freeTag x = some g →
    bitsOf (p.payload.headD 0) 4 6 ≤ queueRoom (clu s n) (bitsOf (p.payload.headD 0) 0 4) →
    Completes (.reservationProbe n) s fun t =>
      let q := bitsOf (p.payload.headD 0) 0 4
      let k := bitsOf (p.payload.headD 0) 4 6
      (queue (clu t n) q).places = (queue (clu s n) q).places ++ List.replicate k ⟨g, none⟩ ∧
      ni t n = { x with outstanding := x.outstanding ++ [⟨g, headSrc p.head, some q, k⟩] } ∧
      (queue (clu t n) q).words = (queue (clu s n) q).words)

/-- Quiesce, router reset, route tables, slot switch and packet trace. QUIESCE is accepted for a service NI and for a
cluster NI in HOLD or while the design is frozen, else it sets wr_locked. NI_QUIET sets quiet once nothing is
outstanding. ROUTER_RESET, ROUTER_DRAIN_DONE and ROUTER_REOPEN go through drain, reset and reopening.
ROUTE_ENTRY_WRITE outside quiet sets wr_locked, a bad entry becomes invalid with its flag, a good one is written.
SWITCH_REQ sets its bit. PTRACE_ENABLE starts an empty trace, PROBE_TRACE_WRITE of a probe whose NI is not quiesced
stores the oldest held record at the pointer while the observation domain takes it, and waits while a router of its
route drains or resets (log entry 68, the model's choice). (Rests on spec/06_wayfabric.md) -/
def Obligations.NiAndRouterControl : Prop :=
  (∀ (i : Fin 136) (s : State), (128 ≤ i.val ∨ inHold s (i / 8) = true ∨ designFrozen s = true) →
    exec (.quiesce i) s = .next (setBit s (R.wfNiCtrl i) 0 true)) ∧
  (∀ (i : Fin 136) (s : State), i.val < 128 → inHold s (i / 8) = false → designFrozen s = false →
    exec (.quiesce i) s = .next (setBit s (R.wfNiStatus i) 27 true)) ∧
  (∀ (i : Fin 136) (s : State), bit s (R.wfNiCtrl i) 0 = true → (ni s i).outstanding = [] →
    exec (.niQuiet i) s = .next (setBit s (R.wfNiStatus i) 31 true)) ∧
  (∀ (r : Fin 144) (s : State), bit s (R.wfRtrCtrl r) 0 = false →
    Completes (.routerReset r) s fun t =>
      bit t (R.wfRtrCtrl r) 0 = true ∧ bit t (R.wfRtrStatus r) 30 = true ∧
      keepsRegs [R.wfRtrCtrl r, R.wfRtrStatus r] s t ∧ t = { s with regs := t.regs }) ∧
  (∀ (r : Fin 144) (s : State), routerDraining s r = true → routerDrained s r = true →
    Completes (.routerDrainDone r) s fun t =>
      bit t (R.wfRtrStatus r) 30 = false ∧ bit t (R.wfRtrStatus r) 31 = true ∧
      t.net.nis = s.net.nis ∧ keepsRegs [R.wfRtrStatus r] s t) ∧
  (∀ (r : Fin 144) (s : State), routerInReset s r = true →
    Completes (.routerReopen r) s fun t =>
      bit t (R.wfRtrStatus r) 31 = false ∧ bit t (R.wfRtrCtrl r) 0 = false ∧
      keepsRegs [R.wfRtrCtrl r, R.wfRtrStatus r] s t ∧ t = { s with regs := t.regs }) ∧
  (∀ (i : Fin 136) (e : Fin 256) (s : State) (v : Word), bit s (R.wfNiStatus i) 31 = false →
    exec (.routeEntryWrite i e v) s = .next (setBit s (R.wfNiStatus i) 27 true)) ∧
  (∀ (i : Fin 136) (e : Fin 256) (s : State) (v : Word), bit s (R.wfNiStatus i) 31 = true →
    v.getLsbD 31 = true → routeCheck s i e v = false →
    Completes (.routeEntryWrite i e v) s fun t =>
      bit t (R.wfRt0 i e) 31 = false ∧ bit t (R.wfNiStatus i) 28 = true ∧
      keepsRegs [R.wfRt0 i e, R.wfNiStatus i] s t) ∧
  (∀ (i : Fin 136) (e : Fin 256) (s : State) (v : Word), bit s (R.wfNiStatus i) 31 = true →
    routeCheck s i e v = true →
    exec (.routeEntryWrite i e v) s = .next (writeFields (R.wfRt0 i e) v s)) ∧
  (∀ s, exec .switchReq s = .next (setBit s R.wfSlotCtrl 0 true)) ∧
  (∀ (s : State) (v : Word), v.getLsbD 31 = true → bit s R.wfPtraceCtrl 31 = false →
    Completes (.ptraceEnable v) s fun t =>
      bit t R.wfPtraceCtrl 31 = true ∧ bit t R.wfPtraceCtrl 29 = false ∧ reg t R.wfPtracePtr = 0 ∧
      t.net.traceCount = 0 ∧ keepsRegs [R.wfPtraceCtrl, R.wfPtracePtr] s t) ∧
  (∀ (p : Fin 32) (s : State) (r : ProbeRecord) (rest : List ProbeRecord),
    look (fun _ => []) s.net.probeHold p = r :: rest → recordMayGo s p = true →
    endpointClosed s 156 = false → s.net.traceCount < 1024 →
    Completes (.probeTraceWrite p) s fun t =>
      find t.net.traceBuf (bits s R.wfPtracePtr 0 10) = some r ∧
      bits t R.wfPtracePtr 0 10 = (bits s R.wfPtracePtr 0 10 + 1) % 1024 ∧
      t.net.traceCount = s.net.traceCount + 1 ∧
      ((∀ k, k < 32 → bits s (R.wfProbeCfg k) 30 2 < 3) → look (fun _ => []) t.net.probeHold p = rest) ∧
      keepsRegs ([R.wfPtracePtr, R.wfPtraceCtrl] ++ (List.range 32).map R.wfProbeCnt) s t) ∧
  (∀ (p : Fin 32) (s : State), recordMayGo s p = false → exec (.probeTraceWrite p) s = .next s)

/-- What a leg decision starts, waits for or ends. With every running cluster in its transition: a decision that runs
leg k records it, clears the leg's swell flag everywhere, starts every running cluster at the leg's first step with
an empty way and sets every wheel to that step; one that waits keeps the state but for the leg considered; one that
finds no leg ends the walk; that the walk then stands as ended until the milestone is the model's choice (log entry
12). (Rests on spec/04_legs_milestones_waymarks.md) -/
def Obligations.LegDecision : Prop :=
  (∀ (s : State) (a k : Nat), (s.sched.run = .running ∨ s.sched.run = .stopped) → legFrom s = some a →
    (∀ n ∈ runningClusters s, inTransition (clu s n) = true) → decide_ s 33 a = .run k →
    Completes .legDecision s fun t =>
      t.sched.ranLegs = s.sched.ranLegs ++ [k] ∧ t.sched.phase = (if laterEdge s k then .leg k else .walked) ∧ (∀ n, (clu t n).swell.getLsbD k = false) ∧
      (∀ n ∈ runningClusters s, (clu t n).walk = .inLeg (legStart s k) ∧ (clu t n).way = [] ∧
        (clu t n).legRan.getLsbD k = (decide (k < 32)) ∧ (clu t n).mrds = []) ∧
      (∀ r, r < 144 → wheelAt t r = legStart s k % 64) ∧ t.regs = s.regs) ∧
  (∀ (s : State) (a k : Nat), (s.sched.run = .running ∨ s.sched.run = .stopped) → legFrom s = some a →
    (∀ n ∈ runningClusters s, inTransition (clu s n) = true) → decide_ s 33 a = .wait k →
    Completes .legDecision s fun t => t.sched = { s.sched with phase := .deciding k } ∧ t.regs = s.regs) ∧
  (∀ (s : State) (a : Nat), (s.sched.run = .running ∨ s.sched.run = .stopped) → legFrom s = some a →
    (∀ n ∈ runningClusters s, inTransition (clu s n) = true) → decide_ s 33 a = .none →
    Completes .legDecision s fun t => t.sched = { s.sched with phase := .walked } ∧ t.regs = s.regs)

/-- What the milestone does and what leaving it does. With no load staged, no reload and no hazard waiting, MILESTONE
adds 1 to the ec count, forgets the legs run, computes the edge flags of the new ec, shows the release stage, stops
the wheels and copies the current bank of every running cluster into its previous bank. MILESTONE_LEAVE begins the
next ec in every running cluster and hands the tide of the ec to the shore. That the sequence of the milestone is
one command, that the next transition begins at MILESTONE_LEAVE and that a tide stays open until its phases end are
the model's choices (log entries 34, 12 and 58). (Rests on spec/04_legs_milestones_waymarks.md;
spec/17_package_pins_electrical.md) -/
def Obligations.Milestone : Prop :=
  (∀ s, atMilestonePoint s = true → ldState s ≠ 3 → s.rl = {} → s.sched.hazardFirst = [] →
    Completes .milestone s fun t =>
      t.sched.ec = BitVec.ofNat 64 (s.sched.ec.toNat + 1) ∧ t.sched.phase = .milestone ∧ t.sched.ranLegs = [] ∧
      t.sched.edges = wheelEdges t (s.sched.ec.toNat + 1) ∧ t.sched.stageShown = t.sched.stage ∧
      t.net.wheelsStopped = true ∧
      (∀ n ∈ runningClusters s, (clu t n).prev = (clu s n).cur ∧ (clu t n).cur = (clu s n).cur)) ∧
  (∀ s, mayLeave s = true →
    Completes .milestoneLeave s fun t =>
      t.sched = { s.sched with phase := .deciding 0 } ∧
      (∀ n ∈ runningClusters s, clu t n = { clu s n with walk := .transition 0 }) ∧
      t.shore.waiting = s.shore.waiting ++ [⟨s.sched.ec.toNat, s.shore.sampled, decide (1 ≤ s.sched.stageShown)⟩] ∧
      t.regs = s.regs)

/-- Milestone tokens, hold markers, their timeout and their repetition. A token with the awaited count is held and the
link's hold marker ends; one with another count sets token_seq and changes no token; a copy whose CRC fails changes
no token and counts as a code error of its lane, for a hold marker as well. A token taken forgets the hold markers
of other ecs. A hold marker suspends the timeout of its link, whatever its count (log entry 66); how many sets a
link knows copies of, and how long, is the model's choice (log entry 113). MS_TOKEN_TIMEOUT sets its flag and raises
the fault with the lowest link that is late. TOKEN_REPEAT queues the last token set on every lane of the link, after
those that wait there. (Rests on spec/04_legs_milestones_waymarks.md; spec/07_causeway.md) -/
def Obligations.Tokens : Prop :=
  (∀ (a : Fin 80) (l : Nat) (s : State) (x : TokenIn), laneLooped s a = false → laneState s a = laneOper →
    linkOfLane s a = some l → x.crcOk = true → x.rx.errors = [] →
    bit s R.glbMsLinks l = true → x.count.toNat ∉ (link s l).tokensIn →
    x.count.toNat = awaitedEc s l % 256 →
    Completes (.tokenReceive a x) s fun t =>
      awaitedEc t l = awaitedEc s l + 1 ∧ l ∉ t.sched.holds ∧
      link t l = { link s l with
        tokensIn := (x.count.toNat :: (link s l).tokensIn).take 2
        holdsIn := (link s l).holdsIn.filter (· = x.count.toNat) } ∧ t.regs = s.regs ∧ t.flt = s.flt) ∧
  (∀ (a : Fin 80) (l : Nat) (s : State) (x : TokenIn), laneLooped s a = false → laneState s a = laneOper →
    linkOfLane s a = some l → x.crcOk = true → x.rx.errors = [] →
    bit s R.glbMsLinks l = true → x.count.toNat ∉ (link s l).tokensIn →
    x.count.toNat ≠ awaitedEc s l % 256 →
    Completes (.tokenReceive a x) s fun t =>
      t.sched = s.sched ∧ bit t R.glbMsStatus 28 = true ∧ keepsRegs [R.glbMsStatus] s t) ∧
  (∀ (a : Fin 80) (s : State) (x : TokenIn), laneLooped s a = false → laneState s a = laneOper →
    x.crcOk = false → x.rx.errors = [] → (lane s a).codeErrors = [] → laneWasUp s a = true →
    (Completes (.tokenReceive a x) s fun t =>
      t.sched = s.sched ∧ t.cw.links = s.cw.links ∧
      bits t (R.cwLaneErr a) 16 16 = min (bits s (R.cwLaneErr a) 16 16 + 1) (2 ^ 16 - 1) ∧
      keepsRegs [R.cwLaneErr a] s t) ∧
    exec (.holdMarkerReceive a x) s = exec (.tokenReceive a x) s) ∧
  (∀ (a : Fin 80) (l : Nat) (s : State) (x : TokenIn), laneLooped s a = false → laneState s a = laneOper →
    linkOfLane s a = some l → x.crcOk = true → x.rx.errors = [] →
    bit s R.glbMsLinks l = true → x.count.toNat ∉ (link s l).holdsIn →
    Completes (.holdMarkerReceive a x) s fun t =>
      l ∈ t.sched.holds ∧ t.sched.awaited = s.sched.awaited ∧ t.regs = s.regs) ∧
  (∀ (s : State) (l : Nat), s.sched.run = .running → s.sched.phase = .milestone → periodsCounted s = true →
    s.sched.tokenRaised = false →
    reg s R.glbMsTokenTimeout ≠ 0 → l ∈ pendingTokens s → l ∉ s.sched.holds →
    Completes .msTokenTimeout s fun t =>
      t.sched = { s.sched with tokenRaised := true } ∧ bit t R.glbMsStatus 29 = true ∧
      t.flt.signals = s.flt.signals ++ [⟨217, (pendingTokens s).headD 0, false⟩] ∧ keepsRegs [R.glbMsStatus] s t) ∧
  (∀ (l : Fin 20) (s : State) (h : Bool) (c : Nat), (link s l).lastTokenOut = some (h, c) → c < 256 →
    Completes (.tokenRepeat l) s fun t =>
      (∀ a ∈ linkLanes s l, (lane t a).tokenDue =
        if (h, c) ∈ (lane s a).tokenDue then (lane s a).tokenDue else (lane s a).tokenDue ++ [(h, c)]) ∧
      (∀ a, a ∉ linkLanes s l → lane t a = lane s a) ∧
      (∀ k, link t k = link s k) ∧ t.regs = s.regs)

/-- Plain register writes, refused ones, and management packets. A 32-bit write of GLB_STATUS, GLB_MS_TOKEN_TIMEOUT,
GLB_MS_STATUS, GLB_HAZARD_STATUS, GLB_IRQ_CAUSE_LO, GLB_DMA_ERR or PWR_CLK_CFG writes that register by its access
codes and no other. A 64-bit write acts as the write of its lower word and then of its upper one. A narrow or
unaligned write sets bad_size. A write into a reach that is off sets off_access. A host access while memory space is
off or in D3hot changes the device in nothing but the AER status and PCIE_ERR of an Unsupported Request. A write of
Lighthouse beyond its map takes an access exception (log entry 21); one in its DDR4 window writes the word at the
base of LH_DDR_WIN and no other byte, or sets off_access where the channel is off. A poisoned write is discarded and
raises PCIE_ERR; a write of all ones to a BAR of configuration space reads back as its size mask; an FLR written
through configuration space is the FLR command. A request with a wrong ECRC is discarded with PCIE_ERR where ECRC is
checked, and else acts as any other. MGMT_WRITE and MGMT_READ act on the register and take their packet. The model's
choices among these: a host access without memory space or in D3hot does nothing to the device (log entry 10), the
order of narrow, unaligned and 64-bit accesses (log entry 11), the exception of a Lighthouse access (log entry 21),
what the manual leaves open of management packets (log entry 32), and the offsets and reset values of configuration
space, the AER bit of an Unsupported Request and the discard of a wrong ECRC (log entry 97). (Rests on
spec/00_scope.md; spec/16_host_interface.md; spec/06_wayfabric.md) -/
def Obligations.RegisterAccess : Prop :=
  (∀ (p : Party) (a : Nat) (v : Word) (s : State) (g : RegGroup) (ix : List Nat), partyActs s p = true →
    a ∈ [R.glbStatus, R.glbMsTokenTimeout, R.glbMsStatus, R.glbHazardStatus, R.glbIrqCauseLo, R.glbDmaErr, R.pwrClkCfg] →
    regAt a = some (g, ix) →
    Completes (.registerWrite ⟨p, .bar0, a, 4, false, false⟩ [v]) s fun t =>
      reg t a = writtenWord g (reg s a) v ∧ keepsRegs [a] s t ∧ t = { s with regs := t.regs }) ∧
  (∀ (p : Party) (b : Bar) (a : Nat) (v w : Word) (s : State), partyActs s p = true → b ∈ [Bar.bar0, .bar2] →
    a % 4 = 0 → refMapped ⟨p, b, a, 8, false, false⟩ = true →
    exec (.registerWrite ⟨p, b, a, 8, false, false⟩ [v, w]) s = .next (writeBarWord p b (a + 4) w (writeBarWord p b a v s))) ∧
  (∀ (p : Party) (b : Bar) (a n : Nat) (v : Word) (s : State), partyActs s p = true → b ∈ [Bar.bar0, .bar2] →
    (n < 4 ∨ a % 4 ≠ 0) → n ≤ 4 → refMapped ⟨p, b, a, n, false, false⟩ = true →
    exec (.registerWrite ⟨p, b, a, n, false, false⟩ [v]) s = .next (setBit s R.glbStatus 1 true)) ∧
  (∀ (p : Party) (a : Nat) (v : Word) (s : State), partyActs s p = true → a % 4 = 0 → 0x1000000 ≤ a → a < 0x2000000 →
    clusterOn s ((a - 0x1000000) / 0x20000) = false →
    exec (.registerWrite ⟨p, .bar0, a, 4, false, false⟩ [v]) s = .next (setBit s R.glbStatus 0 true)) ∧
  (∀ (b : Bar) (a n : Nat) (vs : List Word) (s : State), partyActs s .host = false → b ∈ [Bar.bar0, .bar2] →
    exec (.registerWrite ⟨.host, b, a, n, false, false⟩ vs) s =
      .next (if bits s R.glbPcieStatus 28 4 = 0 then s else pcieError 20 s)) ∧
  (∀ (a n : Nat) (vs : List Word) (s : State), lhHalted s = false → 0x2C00000 < a + n →
    exec (.registerWrite ⟨.lighthouse, .bar0, a, n, false, false⟩ vs) s = .next (accessException 0 (lhCore s 0).pc s)) ∧
  (∀ (b : Bar) (a n : Nat) (vs : List Word) (s : State), partyActs s .host = true → b ∈ [Bar.bar0, .bar2] →
    exec (.registerWrite ⟨.host, b, a, n, true, false⟩ vs) s = .next (pcieError 12 s)) ∧
  (∀ (s : State), configActs s .host = true →
    Completes (.registerWrite ⟨.host, .config (.bar 0), 0, 4, false, false⟩ [0xFFFFFFFF]) s fun t =>
      configValue t (.bar 0) = 0xFC000004 ∧ t = { s with pcie := t.pcie }) ∧
  (∀ (s : State), configActs s .host = true →
    exec (.registerWrite ⟨.host, .config .deviceControl, 0, 4, false, false⟩ [0x8000]) s =
      .next (flr (configWrite 0xFFFFFFFF 0x8000 .deviceControl s))) ∧
  (∀ (b : Bar) (a n : Nat) (x : Bool) (vs : List Word) (s : State), s.pcie.aer.control.getLsbD 8 = true →
    exec (.registerWrite ⟨.host, b, a, n, x, true⟩ vs) s = .next (pcieError 19 s)) ∧
  (∀ (p : Party) (b : Bar) (a n : Nat) (x : Bool) (vs : List Word) (s : State), s.pcie.aer.control.getLsbD 8 = false →
    exec (.registerWrite ⟨p, b, a, n, x, true⟩ vs) s = exec (.registerWrite ⟨p, b, a, n, x, false⟩ vs) s) ∧
  (∀ (a c o : Nat) (v : Word) (s : State), lhHalted s = false → a + 4 ≤ 2 ^ 30 → a % 4 = 0 → c = bits s R.lhDdrWin 30 2 →
    o = bits s R.lhDdrWin 0 6 * 2 ^ 30 + a → ddrOn s c = true → ddrReady s c = true → o + 4 ≤ ddrCapacity s c →
    (ddr s c).queue = [] → captureWaits s c = false →
    Completes (.registerWrite ⟨.lighthouse, .ddrWin, a, 4, false, false⟩ [v]) s fun t =>
      readWord (ddr t c).mem o = v ∧
      (∀ k, (k < o ∨ o + 4 ≤ k) → readByte (ddr t c).mem k = readByte (ddr s c).mem k) ∧
      (∀ d, d ≠ c → ddr t d = ddr s d) ∧ t = { s with ddr := t.ddr }) ∧
  (∀ (a : Nat) (v : Word) (s : State), lhHalted s = false → a + 4 ≤ 2 ^ 30 → ddrOn s (bits s R.lhDdrWin 30 2) = false →
    exec (.registerWrite ⟨.lighthouse, .ddrWin, a, 4, false, false⟩ [v]) s = .next (setBit s R.glbStatus 0 true)) ∧
  (∀ (i : Fin 136) (q : Party) (v : Word) (s : State) (p : Packet) (rest : List Packet), (ni s i).management = p :: rest →
    headKind p.head = 5 → headDst p.head ≠ 155 →
    Completes (.mgmtWrite i q R.glbMsTokenTimeout v) s fun t =>
      reg t R.glbMsTokenTimeout = v ∧ keepsRegs [R.glbMsTokenTimeout] s t ∧
      ni t i = { ni s i with management := rest } ∧ (∀ j, j ≠ i.val → ni t j = ni s j) ∧ t.clusters = s.clusters) ∧
  (∀ (i : Fin 136) (s : State) (p : Packet) (rest : List Packet), (ni s i).management = p :: rest →
    headKind p.head = 6 → headDst p.head ≠ 155 → find s.halves R.glbMsTokenTimeout = none →
    exec (.mgmtRead i R.glbMsTokenTimeout) s = .next (respond i p 2 [(reg s R.glbMsTokenTimeout).setWidth 64]
      (setNi s i { ni s i with management := rest })))

/-- Reads that clear, capture or pop. A read of GLB_HAZARD_COUNT answers and clears it. A read of TIME_NOW_LO answers
bits 31:0 of the ns counter and captures the high half and the fraction, and a later read of TIME_NOW_HI returns the
captured half. HAZARD_LOG_READ answers the oldest hazard in the fields of GLB_HAZARD_LOG_LO and GLB_HAZARD_LOG_HI
and takes it from the log. The named registers of configuration space answer the identity of Table 16.2, no
interrupt pin and the MSI-X places of Table 16.4. A BAR read that is answered Unsupported Request returns nothing,
raises PCIE_ERR and sets the correctable status of an advisory error (log entry 97). A read with a wrong ECRC is
discarded where ECRC is checked (log entry 97), and a read of Lighthouse in its DDR4 window answers the word at the
base of LH_DDR_WIN. Which pairs capture (log entry 30) and where configuration space keeps its registers (log entry
97) are the model's choices. (Rests on spec/00_scope.md; spec/05_timing_contract.md; spec/12_system_time.md;
spec/16_host_interface.md) -/
def Obligations.ReadEffects : Prop :=
  (∀ (p : Party) (s : State), partyActs s p = true → find s.halves R.glbHazardCount = none →
    Completes (.readClear ⟨p, .bar0, R.glbHazardCount, 4, false, false⟩) s fun t =>
      t.readData = [reg s R.glbHazardCount] ∧ reg t R.glbHazardCount = 0 ∧ keepsRegs [R.glbHazardCount] s t ∧
      t = { s with regs := t.regs, readData := t.readData }) ∧
  (∀ (p : Party) (s : State), partyActs s p = true → find s.halves R.timeNowLo = none →
    Completes (.captureRead ⟨p, .bar0, R.timeNowLo, 4, false, false⟩) s fun t =>
      t.readData = [(s.time.now >>> 32).setWidth 32] ∧ find t.halves R.timeNowHi = some ((s.time.now >>> 64).setWidth 32) ∧
      find t.halves R.timeNowFrac = some (s.time.now.setWidth 32) ∧
      t = { s with halves := t.halves, readData := t.readData }) ∧
  (∀ (p : Party) (s : State) (h : Word), partyActs s p = true → find s.halves R.timeNowHi = some h →
    exec (.captureRead ⟨p, .bar0, R.timeNowHi, 4, false, false⟩) s = .next { s with readData := [h] }) ∧
  (∀ (p : Party) (s : State) (h : Hazard) (rest : List Hazard), partyActs s p = true →
    find s.halves R.glbHazardLogLo = none → s.sched.hazardLog = h :: rest →
    h.kind < 8 → h.cluster < 128 → h.bp < 512 → h.step < 1024 →
    Completes (.hazardLogRead p) s fun t =>
      t.sched = { s.sched with hazardLog := rest } ∧
      (∃ w, t.readData = [w] ∧ bitsOf w 29 3 = h.kind ∧ bitsOf w 22 7 = h.cluster ∧ bitsOf w 13 9 = h.bp ∧
        bitsOf w 3 10 = h.step) ∧
      (∃ w, find t.halves R.glbHazardLogHi = some w ∧ bitsOf w 0 16 = h.ec % 65536) ∧
      keepsRegs [R.glbHazardLogLo] s t) ∧
  (∀ (s : State), configActs s .host = true →
    exec (.readClear ⟨.host, .config .identity, 0, 4, false, false⟩) s = .next { s with readData := [0x72001E97] }) ∧
  (∀ (s : State), configActs s .host = true →
    exec (.readClear ⟨.host, .config .interrupt, 0, 4, false, false⟩) s = .next { s with readData := [0] }) ∧
  (∀ (p : Party) (s : State) (c : Instr), (c = .readClear ⟨p, .bar0, R.glbHazardCount, 4, false, true⟩ ∨
      c = .captureRead ⟨p, .bar0, R.timeNowLo, 4, false, true⟩) → p = .host → s.pcie.aer.control.getLsbD 8 = true →
    exec c s = .next (pcieError 19 s)) ∧
  (∀ (a c o : Nat) (s : State), lhHalted s = false → a + 4 ≤ 2 ^ 30 → a % 4 = 0 → c = bits s R.lhDdrWin 30 2 →
    o = bits s R.lhDdrWin 0 6 * 2 ^ 30 + a → ddrOn s c = true → ddrReady s c = true → o + 4 ≤ ddrCapacity s c →
    (ddr s c).queue = [] → captureWaits s c = false →
    Completes (.readClear ⟨.lighthouse, .ddrWin, a, 4, false, false⟩) s fun t =>
      t.readData = [readWord (ddr s c).mem o] ∧ (∀ d, (ddr t d).mem = (ddr s d).mem) ∧
      t = { s with ddr := t.ddr, readData := t.readData }) ∧
  (∀ (r : ConfigReg) (v : Word) (s : State), configActs s .host = true →
    (r, v) ∈ [(ConfigReg.msixTable, (0x3FF0000 : Word)), (.msixPba, 0x3FF0800)] →
    exec (.readClear ⟨.host, .config r, 0, 4, false, false⟩) s = .next { s with readData := [v] }) ∧
  (∀ (b : Bar) (a n : Nat) (s : State), partyActs s .host = false → b ∈ [Bar.bar0, .bar2] →
    bits s R.glbPcieStatus 28 4 ≠ 0 → s.pcie.aer.severity.getLsbD 20 = false →
    Completes (.readClear ⟨.host, b, a, n, false, false⟩) s fun t =>
      t.pcie.aer.correctable = withBit s.pcie.aer.correctable 13 true ∧
      t.pcie.config.deviceStatus = (s.pcie.config.deviceStatus ||| 9) ∧
      t.pcie.aer.uncorrectable = (if s.pcie.aer.correctableMask.getLsbD 13 then s.pcie.aer.uncorrectable
        else withBit s.pcie.aer.uncorrectable 20 true) ∧
      t.flt.signals = s.flt.signals ++ [⟨207, 20, false⟩] ∧ t.regs = s.regs ∧ t.readData = s.readData)

/-- Force entries, swell flags and the value-store view. FORCE_WRITE writes the fields of its entry alone.
SWELL_FLAGS_WRITE sets the flags written as 1, SWELL_ALL all 32 flags of the 128 clusters. While the design is
frozen the value-store view reads and writes 32 entries of the selected bank and nothing else; otherwise it sets
vs_busy and a read answers 0. (Rests on spec/02_boolean_processor_and_cluster.md;
spec/04_legs_milestones_waymarks.md) -/
def Obligations.ForceAndStores : Prop :=
  (∀ (n : Fin 128) (f : Fin 64) (v : Word) (s : State), clusterOn s n = true →
    Completes (.forceWrite n f v) s fun t =>
      reg t (R.cluForce n f) = (reg s (R.cluForce n f) &&& ~~~ 0xC007FFFF#32) ||| (v &&& 0xC007FFFF#32) ∧
      keepsRegs [R.cluForce n f] s t ∧ t = { s with regs := t.regs }) ∧
  (∀ (n : Fin 128) (v : Word) (s : State), clusterOn s n = true →
    exec (.swellFlagsWrite n v) s = .next (setClu s n { clu s n with swell := (clu s n).swell ||| v })) ∧
  (∀ s, Completes .swellAll s fun t =>
    (∀ n, n < 128 → clu t n = { clu s n with swell := -1 }) ∧ (∀ n, 128 ≤ n → clu t n = clu s n) ∧
    t = { s with clusters := t.clusters }) ∧
  (∀ (n : Fin 128) (w : Fin 16384) (s : State), clusterOn s n = true → designFrozen s = true →
    Completes (.vsViewAccess n w .read) s fun t =>
      (∃ x : Word, t.readData = [x] ∧
        ∀ k, k < 32 → x.getLsbD k = entry (viewStore s n) (w / 32) (w % 32 * 32 + k)) ∧
      t = { s with readData := t.readData }) ∧
  (∀ (n : Fin 128) (w : Fin 16384) (v : Word) (s : State), clusterOn s n = true → designFrozen s = true →
    Completes (.vsViewAccess n w (.write v)) s fun t =>
      (∀ k, k < 32 → entry (viewStore t n) (w / 32) (w % 32 * 32 + k) = v.getLsbD k) ∧
      (∀ b j, j < 1024 → ¬ (b = w / 32 ∧ w % 32 * 32 ≤ j ∧ j < w % 32 * 32 + 32) →
        entry (viewStore t n) b j = entry (viewStore s n) b j) ∧
      clu t n = { clu s n with cur := (clu t n).cur, prev := (clu t n).prev } ∧
      (∀ m, m ≠ n.val → clu t m = clu s m) ∧ t = { s with clusters := t.clusters }) ∧
  (∀ (n : Fin 128) (w : Fin 16384) (v : Word) (s : State), clusterOn s n = true → designFrozen s = false →
    exec (.vsViewAccess n w (.write v)) s = .next (setBit s (R.cluStatus n) 4 true) ∧
    exec (.vsViewAccess n w .read) s = .next { setBit s (R.cluStatus n) 4 true with readData := [0] })

/-- Lane bring-up and pattern mode. LANE_LOCK, LANE_ALIGN and the 64th good training set move a lane through its states;
LANE_DOWN of a link's lane raises its fault and the link goes down; RETRAIN and LOOP_CHANGE start again, a loop that
leaves its link with a mixture of looped and other lanes sets cfg_mismatch, and RETRAIN of a lane whose unit is off
or absent sets off_access. PATTERN_MODE enters pattern mode, PRBS_LOCK counts a wrong bit, INJECT marks the next
frame, FILLER_DUE and FILLER_RECEIVE keep the elastic buffer at 8, CW_EB_SLIP raises its fault and the lane leaves
OPER. (Rests on spec/07_causeway.md) -/
def Obligations.LanesAndPatterns : Prop :=
  (∀ (a : Fin 80) (s : State), laneState s a = laneLock → laneActive s a = true →
    laneClocked s a = true →
    exec (.laneLock a) s = .next (setLaneState a laneAlign s)) ∧
  (∀ (a : Fin 80) (s : State) (inv : Bool), laneState s a = laneAlign → laneClocked s a = true →
    Completes (.laneAlign a inv) s fun t =>
      laneState t a = laneTrain ∧ bit t (R.cwLaneStatus a) 27 = inv ∧ (lane t a).goodSets = 0 ∧
      keepsRegs [R.cwLaneStatus a] s t ∧ t.net = s.net ∧ t.clusters = s.clusters) ∧
  (∀ (a : Fin 80) (s : State) (x : TrainingSet), laneLooped s a = false → laneState s a = laneTrain → laneClocked s a = true →
    takenAlong s a = false → x.good = true → x.errors = [] → linkOfLane s a = none →
    Completes (.trainingSetReceive a x) s fun t =>
      (lane t a).goodSets = (lane s a).goodSets + 1 ∧
      laneState t a = (if 64 ≤ (lane s a).goodSets + 1 then laneConfirm else laneTrain) ∧
      keepsRegs [R.cwLaneStatus a, R.cwLaneFar a] s t) ∧
  (∀ (a : Fin 80) (s : State) (l : Nat), laneState s a = laneOper → linkOfLane s a = some l → l < 20 →
    laneGone s a = false →
    Completes (.laneDown a) s fun t =>
      ⟨80 + l, a.val, false⟩ ∈ t.flt.signals ∧ bit t (R.cwLinkStatus l) 31 = false ∧ laneState t a ≠ laneOper ∧
      t.clusters = s.clusters ∧ t.banks = s.banks) ∧
  (∀ (a : Fin 80) (s : State), blockOn s (R.cwLaneCtrl a) = true → laneState s a ≠ laneOper → takenAlong s a = false →
    exec (.retrain a) s = .next (laneToLock a s)) ∧
  (∀ (a : Fin 80) (s : State), blockOn s (R.cwLaneCtrl a) = false →
    exec (.retrain a) s = .next (offAccess s)) ∧
  (∀ (a : Fin 80) (s : State) (on : Bool), blockOn s (R.cwLaneCtrl a) = true →
    bit s (R.cwLaneCtrl a) 27 ≠ on → laneState s a ≠ laneOper → takenAlong s a = false → patternHolds s a = false →
    Completes (.loopChange a on) s fun t =>
      bit t (R.cwLaneCtrl a) 27 = on ∧ laneState t a ≤ laneLock ∧
      (∀ l, linkOfLane s a = some l →
        bit t (R.cwLinkStatus l) 28 = (bit s (R.cwLinkStatus l) 28 || loopsMixed t l)) ∧
      keepsRegs ([R.cwLaneCtrl a, R.cwLaneStatus a] ++ (linkOfLane s a).toList.map R.cwLinkStatus) s t) ∧
  (∀ (a : Fin 80) (s : State), blockOn s (R.cwLaneCtrl a) = true →
    bits s (R.cwLaneCtrl a) 28 2 = 1 → laneActive s a = true → laneFree s a = true →
    Completes (.patternMode a) s fun t =>
      laneState t a = lanePattern ∧ bit t (R.cwPrbsCtrl a) 26 = false ∧ (lane t a).checkSeen = 0 ∧
      keepsRegs [R.cwLaneStatus a, R.cwPrbsCtrl a] s t) ∧
  (∀ (a : Fin 80) (s : State) (b : Bool), laneState s a = lanePattern → bit s (R.cwPrbsCtrl a) 31 = false →
    bit s (R.cwPrbsCtrl a) 30 = true → bit s (R.cwLaneCtrl a) 27 = false → bit s (R.cwPrbsCtrl a) 27 = false →
    bit s (R.cwPrbsCtrl a) 26 = true → b ≠ prbsNext (bits s (R.cwPrbsCtrl a) 28 2) (lane s a).checker →
    Completes (.prbsLock a [b]) s fun t =>
      bits t (R.cwPrbsErr a) 0 32 = min (bits s (R.cwPrbsErr a) 0 32 + 1) (2 ^ 32 - 1) ∧
      keepsRegs [R.cwPrbsErr a] s t) ∧
  (∀ (a : Fin 80) (s : State) (v : Word), blockOn s (R.cwLaneCtrl a) = true → v.getLsbD 31 = true →
    bitsOf v 29 2 = 2 →
    laneState (writeFields (R.cwInject a) v s) a = laneOper →
    Completes (.inject a v) s fun t =>
      (lane t a).badCode = true ∧ keepsRegs [R.cwInject a] s t) ∧
  (∀ (a : Fin 80) (s : State), laneState s a = laneOper → 1216 ≤ (lane s a).sinceFiller →
    exec (.fillerDue a) s = .next (setLane s a { lane s a with fillerDue := true })) ∧
  (∀ (a : Fin 80) (s : State) (fill : Fin 17) (rx : LaneIn), laneLooped s a = false → laneState s a = laneOper →
    takenAlong s a = false → rx.errors = [] → 0 < fill.val → fill.val < 16 →
    Completes (.fillerReceive ⟨a, fill, rx⟩) s fun t =>
      bits t (R.cwLaneStatus a) 16 5 =
        (if 9 ≤ fill.val then fill.val - 1 else if fill.val ≤ 7 then fill.val + 1 else fill.val) ∧
      keepsRegs [R.cwLaneStatus a, R.cwLaneErr a] s t) ∧
  (∀ (a : Fin 80) (s : State) (full : Bool), laneState s a = laneOper → laneGone s a = false →
    Completes (.cwEbSlip a full) s fun t =>
      ⟨226, a.val, false⟩ ∈ t.flt.signals ∧ laneState t a ≠ laneOper ∧ t.clusters = s.clusters)

/-- Link configuration, alignment, delay measurement and resends. LINK_CONFIG is locked outside HOLD or during a load,
and else takes base and width, takes the link down and every lane of the old and of the new configuration to LOCK,
or to OFF while the lane is not active; cfg_mismatch then shows only a mixture of looped and other lanes. A
configuration that a check refuses leaves the link disabled with cfg_bad and its fault, while base and width are
stored and the lanes train again (log entry 70, the model's choice); a free lane in pattern mode stays in it (log
entry 88, the model's choice). ALIGNMENT_MARKER_DUE queues a marker per lane; ALIGNMENT_MARKER_RECEIVE of all lanes,
of any width and in any order of the lanes, holds each lane for its lead over the last and orders the lanes by the
index, or with a skew above 32 symbols keeps the link down with its fault; LINK_UP of a link of any width brings it
up with fresh counts. DELAY_EXCHANGE queues the answer of a request and adds one exchange for an answer (log entry
72, the model's choice), DELAY_MEASURED writes CW_LINK_DELAY, each field modulo its width (log entry 69, the model's
choice); the stamps of an exchange are taken from the link's symbol clock (log entry 87, the model's choice).
RESEND_WINDOW_EXPIRY of the transmitter and NAK_RECEIVE resend from the replay buffer, that of the receiver ends its
wait since its nak, CW_LINK_TIMEOUT takes the link down and keeps the buffer. (Rests on spec/07_causeway.md) -/
def Obligations.LinkControl : Prop :=
  (∀ (l : Fin 20) (s : State) (v : Word), (allHold s = false ∨ loadInProgress s = true) →
    exec (.linkConfig l v) s = .next (setBit s (R.cwLinkStatus l) 27 true)) ∧
  (∀ (l : Fin 20) (s : State) (v : Word), allHold s = true → loadInProgress s = false → v.getLsbD 31 = true →
    linkConfigOk s l v = true →
    Completes (.linkConfig l v) s fun t =>
      bit t (R.cwLinkCfg l) 31 = true ∧ bits t (R.cwLinkCfg l) 24 7 = bitsOf v 24 7 ∧
      bits t (R.cwLinkCfg l) 20 4 = bitsOf v 20 4 ∧ linkUp t l = false ∧
      bit t (R.cwLinkStatus l) 28 = loopsMixed t l ∧
      (∀ a, a ∈ linkLanes t l ∨ (a ∈ linkLanes s l ∧ patternHolds s a = false) →
        laneState t a = if laneActive s a then laneLock else laneOff) ∧
      t.clusters = s.clusters) ∧
  (∀ (l : Fin 20) (s : State), linkEnabled s l = true → (∀ a ∈ linkLanes s l, laneState s a = laneOper) →
    Completes (.alignmentMarkerDue l) s fun t =>
      (∀ a ∈ linkLanes s l, (lane t a).markerDue = true) ∧ (∀ a, a ∉ linkLanes s l → lane t a = lane s a) ∧
      t.regs = s.regs) ∧
  (∀ (l : Fin 20) (s : State) (ms : List MarkerIn), linkEnabled s l = true →
    (ms.map fun m => m.lane.val).Perm (linkLanes s l) →
    (∀ m ∈ ms, laneState s m.lane = laneOper ∧ laneLooped s m.lane = false ∧ takenAlong s m.lane = false ∧
      m.rx.errors = [] ∧ m.crcOk = true ∧ m.width = linkWidth s l) →
    indicesOk (linkWidth s l) (ms.map (·.index)) = true → (∀ m ∈ ms, ∀ k ∈ ms, m.lag ≤ k.lag + 32) →
    Completes (.alignmentMarkerReceive l ms) s fun t =>
      bit t (R.cwLinkStatus l) 30 = true ∧ bit t (R.cwLinkStatus l) 28 = false ∧
      (∀ m ∈ ms, (lane t m.lane).place = m.index ∧
        ∃ k ∈ ms, (∀ j ∈ ms, j.lag ≤ k.lag) ∧ (lane t m.lane).hold = k.lag - m.lag) ∧
      keepsRegs [R.cwLinkStatus l] s t) ∧
  (∀ (l : Fin 20) (s : State), linkEnabled s l = true → linkUp s l = false → loopsMixed s l = false →
    (∀ a ∈ linkLanes s l, laneState s a = laneOper ∧ bit s (R.cwLaneFar a) 16 = true ∧
      bits s (R.cwLaneFar a) 12 4 = linkWidth s l) →
    indicesOk (linkWidth s l) ((linkLanes s l).map fun a => bits s (R.cwLaneFar a) 9 3) = true →
    bit s (R.cwLinkStatus l) 30 = true → (link s l).replay = [] → (link s (parentLink s)).rxLoad = [] →
    Completes (.linkUp l) s fun t =>
      linkUp t l = true ∧ bit t (R.cwLinkStatus l) 28 = false ∧ (link t l).everUp = true ∧
      (link t l).exchanges = [.delayRequest] ∧
      (∀ c, look (fun _ => 0) (link t l).sentFrames c = 0 ∧ look (fun _ => 0) (link t l).creditIn c = 0) ∧
      keepsRegs [R.cwLinkStatus l] s t) ∧
  (∀ (l : Fin 20) (s : State) (v : Word), allHold s = true → loadInProgress s = false → v.getLsbD 31 = true →
    linkConfigOk s l v = false →
    Completes (.linkConfig l v) s fun t =>
      linkEnabled t l = false ∧ bits t (R.cwLinkCfg l) 24 7 = bitsOf v 24 7 ∧
      bits t (R.cwLinkCfg l) 20 4 = bitsOf v 20 4 ∧ linkUp t l = false ∧ bit t (R.cwLinkStatus l) 29 = true ∧
      ⟨223, l.val, false⟩ ∈ t.flt.signals ∧
      (∀ a, a ∈ linkLanes t l ∨ a ∈ linkLanes s l → patternHolds s a = false →
        laneState t a = if laneActive s a then laneLock else laneOff) ∧
      t.clusters = s.clusters) ∧
  (∀ (l : Fin 20) (s : State) (ms : List MarkerIn), linkEnabled s l = true →
    (ms.map fun m => m.lane.val).Perm (linkLanes s l) →
    (∀ m ∈ ms, laneState s m.lane = laneOper ∧ laneLooped s m.lane = false ∧ takenAlong s m.lane = false ∧
      m.rx.errors = [] ∧ m.crcOk = true ∧ m.width = linkWidth s l) →
    indicesOk (linkWidth s l) (ms.map (·.index)) = true → (∃ m ∈ ms, ∃ k ∈ ms, k.lag + 32 < m.lag) →
    laneGone s (linkBase s l) = false →
    Completes (.alignmentMarkerReceive l ms) s fun t =>
      linkUp t l = false ∧ bit t (R.cwLinkStatus l) 30 = false ∧ ⟨227, l.val, false⟩ ∈ t.flt.signals) ∧
  (∀ (l : Fin 20) (s : State) (a : Fin 80) (n : Nat), linkUp s l = true → linkLooped s l = false →
    Completes (.delayExchange l (.request a n)) s fun t =>
      (link t l).exchanges = (link s l).exchanges ++ [.delayAnswer ((link s l).clock + n) (fillAndHold s a)] ∧
      t.regs = s.regs) ∧
  (∀ (l : Fin 20) (s : State) (a : Fin 80) (n t1 t2 t3 h : Nat), linkUp s l = true → linkLooped s l = false →
    (link s l).requestAt = some t1 → (link s l).exchangeCount < 16 →
    Completes (.delayExchange l (.answer a n t2 t3 h)) s fun t =>
      (link t l).exchangeCount = (link s l).exchangeCount + 1 ∧ (link t l).requestAt = none ∧
      (link t l).exchangeSum = (link s l).exchangeSum +
        ((((link s l).clock + n : Nat) : Int) - t1 - ((t3 : Int) - t2) + fillAndHold s a - h) ∧ t.regs = s.regs) ∧
  (∀ (l : Fin 20) (s : State), linkUp s l = true → (link s l).exchangeCount = 16 → bit s (R.cwLinkDelay l) 31 = false →
    (link s l).deadlineIn = none →
    Completes (.delayMeasured l) s fun t =>
      bit t (R.cwLinkDelay l) 31 = true ∧
      bits t (R.cwLinkDelay l) 0 20 = delayPs (link s l).exchangeSum.toNat % 2 ^ 20 ∧
      bits t (R.cwLinkDelay l) 20 11 = delayReqSteps (link s l).exchangeSum.toNat % 2048 ∧
      t.flt = s.flt ∧ keepsRegs [R.cwLinkDelay l, R.cwLinkWindow l] s t) ∧
  (∀ (l : Fin 20) (s : State) (f : Frame), linkUp s l = true → (link s l).resend = none → (link s l).replay = [f] →
    Completes (.resendWindowExpiry ⟨l, false⟩) s fun t =>
      (link t l).resend = some (0, 1) ∧ (link t l).nakSent = (link s l).nakSent ∧ bit t (R.cwLinkStatus l) 26 = true ∧
      (link t l).replay = [f] ∧
      keepsRegs [R.cwLinkStatus l, R.cwLinkResend l] s t) ∧
  (∀ (l : Fin 20) (s : State),
    exec (.resendWindowExpiry ⟨l, true⟩) s = .next (setLink s l { link s l with nakSent := false })) ∧
  (∀ (l : Fin 20) (s : State) (n : Nat) (rest : List Nat) (f : Frame), (link s l).rxNaks = n :: rest →
    (link s l).resend = none → (link s l).replay = [f] →
    Completes (.nakReceive l) s fun t =>
      (link t l).resend = some (0, 1) ∧ (link t l).rxNaks = rest ∧ bit t (R.cwLinkStatus l) 26 = true) ∧
  (∀ (l : Fin 20) (s : State) (f : Frame), (link s l).replay = [f] → (link s l).timeoutRaised = false →
    (link s l).resend = none →
    Completes (.cwLinkTimeout l) s fun t =>
      bit t (R.cwLinkStatus l) 25 = true ∧ linkUp t l = false ∧ (link t l).replay = [f] ∧
      (link t l).timeoutRaised = true)

/-- Frames leave and enter a link, and what they carry goes on. UNIT_BOUNDARY sends the waiting VC0 words as the next
sequenced frame and keeps it for replay. FRAME_RECEIVE of the expected frame hands its payload on. VC0_FRAME_RECEIVE
injects its word, FLIT_FRAME_RECEIVE collects its flit, and the last one of a packet sends it into the mesh and
returns its credits, LINK_CONTROL_RECEIVE continues the four credit counts, and lets a child of the load tree take
the load frame that waited for them, LINK_VC0_ENTER takes a due word with its map entry. (Rests on
spec/07_causeway.md; spec/10_loading_release_reload.md) -/
def Obligations.LinkFrames : Prop :=
  (∀ (a : Fin 80) (s : State) (l : Nat) (w : DWord) (c e : Nat), laneState s a = laneOper →
    linkOfLane s a = some l → linkUp s l = true → laneLooped s a = false → (lane s a).tokenDue = [] → (lane s a).markerDue = false →
    (lane s a).fillerDue = false → (link s l).resend = none → reportDue (link s l) = false →
    (link s l).vc0 = [(w, c, e)] → (link s l).replay = [] →
    Completes (.unitBoundary a) s fun t =>
      (link t l).vc0 = [] ∧ (link t l).nextSeq = ((link s l).nextSeq + 1) % 256 ∧
      (link t l).replay = [⟨1, 0, false, (link s l).nextSeq, vc0Payload [(w, c, e)], none⟩] ∧
      (lane t a).sent = (lane s a).sent ++ [.frame ⟨1, 0, false, (link s l).nextSeq, vc0Payload [(w, c, e)], none⟩ false
        (ackOf (link s l)) (lane s a).badCode none] ∧ (lane t a).badCode = false ∧ t.regs = s.regs) ∧
  (∀ (a : Fin 80) (s : State) (l : Nat) (f : FrameIn), laneState s a = laneOper → linkOfLane s a = some l →
    linkUp s l = true → laneLooped s a = false → f.aborted = false → f.rx.errors = [] → headerOk f.header = true →
    bitsOf f.header 4 4 = 1 → f.header.getLsbD 1 = false → bitsOf f.header 8 8 = (link s l).expectedSeq →
    (link s l).replay = [] →
    Completes (.frameReceive a f) s fun t =>
      (link t l).rxVc0 = (link s l).rxVc0 ++ [f.payload] ∧
      (link t l).expectedSeq = ((link s l).expectedSeq + 1) % 256 ∧ (link t l).nakDue = (link s l).nakDue ∧
      keepsRegs [R.cwLinkStatus l] s t) ∧
  (∀ (l : Fin 20) (s : State) (p : BitVec 256) (rest : List (BitVec 256)), (link s l).rxVc0 = p :: rest →
    bitsOf p 0 8 = 1 → routeValid s (niOfLink s l) (bitsOf p 80 8) = true →
    routeVc s (niOfLink s l) (bitsOf p 80 8) = 0 →
    Completes (.vc0FrameReceive l) s fun t =>
      (link t l).rxVc0 = rest ∧
      ((ni t (niOfLink s l)).sourceHold.map fun h => (h.packet.payload, headTag h.packet.head)) =
        ((ni s (niOfLink s l)).sourceHold.map fun h => (h.packet.payload, headTag h.packet.head)) ++
          [([BitVec.ofNat 64 (bitsOf p 16 64)], bitsOf p 88 8)] ∧ t.regs = s.regs) ∧
  (∀ (l : Fin 20) (s : State) (f : Frame) (rest : List Frame), (link s l).rxFlits = f :: rest → f.last = false →
    Completes (.flitFrameReceive l) s fun t =>
      (link t l).rxFlits = rest ∧ (link t l).creditOut = (link s l).creditOut ∧
      (look (fun _ => []) (link t l).rxPartial f.vc).length = (look (fun _ => []) (link s l).rxPartial f.vc).length + 1 ∧
      t.regs = s.regs) ∧
  (∀ (l : Fin 20) (s : State) (f : Frame), (link s l).rxFlits = [f] → f.last = true → 1 ≤ f.vc →
    niMaySend s (niOfLink s l) (((withFlit (link s l) f).head?.map (·.data)).getD 0) = true →
    Completes (.flitFrameReceive l) s fun t =>
      (link t l).rxFlits = [] ∧ look (fun _ => []) (link t l).rxPartial f.vc = [] ∧
      look (fun _ => 0) (link t l).creditOut (f.vc - 1) =
        (look (fun _ => 0) (link s l).creditOut (f.vc - 1) + (withFlit (link s l) f).length) % 256 ∧ t.clusters = s.clusters ∧
      t.banks = s.banks) ∧
  (∀ (l : Fin 20) (s : State) (p : BitVec 256) (rest : List (BitVec 256)), (link s l).rxControl = p :: rest →
    (link s (parentLink s)).rxLoad = [] →
    Completes (.linkControlReceive l) s fun t =>
      (link t l).rxControl = rest ∧
      (∀ c, c < 4 → look (fun _ => 0) (link t l).creditIn c =
        continueCount (look (fun _ => 0) (link s l).creditIn c) (bitsOf p (8 * c) 8)) ∧ t.regs = s.regs) ∧
  (∀ (l : Fin 20) (s : State) (h : Held), (ni s (niOfLink s l)).words = [h] → headDst h.packet.head = 128 + l →
    h.due ≤ routerPeriods s (routerOfNi s (niOfLink s l)) → bit s (R.cwVc0Map l (headTag h.packet.head)) 31 = true →
    Completes (.linkVc0Enter l) s fun t =>
      (link t l).vc0 = (link s l).vc0 ++ [(h.packet.payload.headD 0,
        bits s (R.cwVc0Map l (headTag h.packet.head)) 16 7, bits s (R.cwVc0Map l (headTag h.packet.head)) 0 8)] ∧
      (ni t (niOfLink s l)).words = [] ∧ t.regs = s.regs) ∧
  (∀ (l m : Fin 20) (s : State) (p b : BitVec 256) (rest : List (BitVec 256)), ldMode s = 1 → s.ld.going = true →
    parentLink s = m → childLinks s = [l.val] → l ≠ m → linkUp s l = true → s.ld.tail = [] → s.ld.endAt = none →
    ldState s = 1 → s.ld.headerOk = false →
    headerHere (s.ld.data ++ List.replicate s.ld.gap 0 ++ (bytesLE 32 b.toNat).drop (min 32 s.ld.skip)) = false →
    (link s m).rxLoad = [b] → (link s l).rxControl = p :: rest →
    (link s l).load.length + look (fun _ => 0) (link s l).sentFrames 3 <
      32 + continueCount (look (fun _ => 0) (link s l).creditIn 3) (bitsOf p 24 8) →
    Completes (.linkControlReceive l) s fun t =>
      (link t m).rxLoad = [] ∧ (link t l).load = (link s l).load ++ [b] ∧ (link t l).rxControl = rest ∧
      look (fun _ => 0) (link t m).creditOut 3 = (look (fun _ => 0) (link s m).creditOut 3 + 1) % 256)

/-- Handover, power states and the march of a design bank. OWNER_HANDOVER to a reserved code, a cluster of another reach
or a second port of a single-port bank sets BANK_STATUS.cfg_bad; during a handover or for a live reach it sets
wr_locked; else it takes the new owners and closes the ports that change. HANDOVER_DONE opens them again.
BANK_POWER_REQUEST takes pwr_req, aspect and keep; while a live reach owns a port or a march runs it sets wr_locked,
takes keep alone (bit 25 becomes bit 25 of the value written) and leaves the other fields; a request of retention
for a bank that is off sets cfg_bad. BANK_POWER_DONE takes the state requested, and a bank that goes off loses its
contents. MARCH_GO starts an allowed march; MARCH_DONE ends it with zeros, or with the old contents when it
preserved, and reports its first failure. That a locked write of BANK_CFG sets wr_locked whatever it changes is the
model's choice (log entry 50). (Rests on spec/08_memories.md) -/
def Obligations.BankOwnership : Prop :=
  (∀ (p : Party) (b : Fin 256) (v : Word) (s : State), partyActs s p = true →
    (0x84 ≤ bitsOf v 0 8 ∨ 0x84 ≤ bitsOf v 16 8 ∨ (bitsOf v 0 8 < 0x80 ∧ bitsOf v 0 8 / 8 ≠ b / 16) ∨
      (bitsOf v 16 8 < 0x80 ∧ bitsOf v 16 8 / 8 ≠ b / 16) ∨ (b.val % 16 < 14 ∧ bitsOf v 16 8 ≠ 0x80)) →
    exec (.ownerHandover p b v) s = .next (setBit s R.bankStatus 1 true)) ∧
  (∀ (p : Party) (b : Fin 256) (v : Word) (s : State), partyActs s p = true → ownerRefused b (bitsOf v 0 8) (bitsOf v 16 8) = false →
    bit s (R.bankOwner b) 31 = true → ownerLocked s (ownerOf s b false) (bitsOf v 0 8) = false →
    ownerLocked s (ownerOf s b true) (bitsOf v 16 8) = false →
    (ownerOf s b false ≠ bitsOf v 0 8 ∨ ownerOf s b true ≠ bitsOf v 16 8) →
    Completes (.ownerHandover p b v) s fun t =>
      ownerOf t b false = bitsOf v 0 8 ∧ ownerOf t b true = bitsOf v 16 8 ∧ bit t (R.bankOwner b) 31 = false ∧
      t.banks = { s.banks with handovers := s.banks.handovers ++
        [⟨b, ownerOf s b false != bitsOf v 0 8, ownerOf s b true != bitsOf v 16 8⟩] } ∧
      keepsRegs [R.bankOwner b] s t ∧ t = { s with regs := t.regs, banks := t.banks }) ∧
  (∀ (p : Party) (b : Fin 256) (v : Word) (s : State), partyActs s p = true → ownerRefused b (bitsOf v 0 8) (bitsOf v 16 8) = false →
    (bit s (R.bankOwner b) 31 = false ∨ ownerLocked s (ownerOf s b false) (bitsOf v 0 8) = true ∨
      ownerLocked s (ownerOf s b true) (bitsOf v 16 8) = true) →
    exec (.ownerHandover p b v) s = .next (setBit s R.bankStatus 0 true)) ∧
  (∀ (b : Fin 256) (s : State), (s.banks.handovers.any fun h => h.bank == b.val) = true →
    Completes (.handoverDone b) s fun t =>
      bit t (R.bankOwner b) 31 = true ∧ portOpen t b false = true ∧ portOpen t b true = true ∧
      (∀ k : Nat, k ≠ b → ∀ port, portOpen t k port = portOpen s k port) ∧ keepsRegs [R.bankOwner b] s t ∧
      t.banks.design = s.banks.design) ∧
  (∀ (p : Party) (b : Fin 256) (v : Word) (s : State), partyActs s p = true → liveOwner s b = false →
    marchOn s false b = false → ¬ (bits s (R.bankCfg b) 28 2 = 2 ∧ bitsOf v 26 2 = 1) →
    Completes (.bankPowerRequest p b v) s fun t =>
      bits t (R.bankCfg b) 0 3 = bitsOf v 0 3 ∧ bit t (R.bankCfg b) 25 = v.getLsbD 25 ∧
      bits t (R.bankCfg b) 26 2 = bitsOf v 26 2 ∧ bits t (R.bankCfg b) 28 2 = bits s (R.bankCfg b) 28 2 ∧
      keepsRegs [R.bankCfg b] s t ∧ t = { s with regs := t.regs }) ∧
  (∀ (p : Party) (b : Fin 256) (v : Word) (s : State), partyActs s p = true →
    (liveOwner s b = true ∨ marchOn s false b = true) →
    Completes (.bankPowerRequest p b v) s fun t =>
      bits t (R.bankCfg b) 0 3 = bits s (R.bankCfg b) 0 3 ∧ bits t (R.bankCfg b) 26 2 = bits s (R.bankCfg b) 26 2 ∧
      bit t (R.bankCfg b) 25 = v.getLsbD 25 ∧ bits t (R.bankCfg b) 28 3 = bits s (R.bankCfg b) 28 3 ∧
      bit t R.bankStatus 0 = true ∧ keepsRegs [R.bankCfg b, R.bankStatus] s t ∧ t = { s with regs := t.regs }) ∧
  (∀ (b : Fin 256) (s : State), domainOn s (b / 16) = true →
    Completes (.bankPowerDone b) s fun t =>
      bits t (R.bankCfg b) 28 2 = powerRequest s b ∧
      designMem t b = (if powerRequest s b = 2 ∧ bits s (R.bankCfg b) 28 2 ≠ 2 then loseContents (designMem s b)
        else designMem s b) ∧
      (∀ k : Nat, k ≠ b → designMem t k = designMem s k) ∧ keepsRegs [R.bankCfg b] s t) ∧
  (∀ (v : Word) (s : State), v.getLsbD 31 = true → marchAllowed s v = true →
    Completes (.marchGo v) s fun t =>
      t.banks = { s.banks with march := some ⟨v.getLsbD 8, bitsOf v 0 8, v.getLsbD 30⟩ } ∧
      bit t R.bankMarchStatus 31 = true ∧ bit t R.bankMarchStatus 8 = v.getLsbD 8 ∧
      bits t R.bankMarchStatus 0 8 = bitsOf v 0 8 ∧ bit t R.bankStatus 3 = true ∧
      keepsRegs [R.bankMarchCtrl, R.bankMarchStatus, R.bankStatus] s t) ∧
  (∀ (s : State) (m : March), s.banks.march = some m → m.service = false →
    Completes (.marchDone []) s fun t =>
      t.banks.march = none ∧ bit t R.bankMarchStatus 31 = false ∧ bit t R.bankMarchStatus 30 = true ∧
      bit t R.bankMarchStatus 29 = false ∧ bit t R.bankStatus 3 = false ∧ bit t (R.bankCfg m.bank) 30 = false ∧
      reg t R.bankMarchFail = 0 ∧
      designMem t m.bank = (if m.preserving then designMem s m.bank else zeroContents) ∧
      (∀ k, k ≠ m.bank → designMem t k = designMem s k) ∧ t.flt = s.flt) ∧
  (∀ (s : State) (m : March) (e : Fin 6) (w : Fin 32768) (k : Fin 64) (fs : List (Fin 6 × Fin 32768 × Fin 64)),
    s.banks.march = some m → m.preserving = false →
    Completes (.marchDone ((e, w, k) :: fs)) s fun t =>
      t.banks.march = none ∧ bit t R.bankMarchStatus 29 = true ∧ bits t R.bankMarchFail 0 8 = min (fs.length + 1) 255 ∧
      bits t R.bankMarchFail 8 3 = e ∧ bits t R.bankMarchFail 11 15 = w ∧ bits t R.bankMarchFail 26 6 = k ∧
      t.flt.signals = s.flt.signals ++ [⟨229, (m.bank + if m.service then 256 else 0) % 65536, false⟩]) ∧
  (∀ (p : Party) (b : Fin 256) (v : Word) (s : State), partyActs s p = true → liveOwner s b = false →
    marchOn s false b = false → bits s (R.bankCfg b) 28 2 = 2 → bitsOf v 26 2 = 1 →
    Completes (.bankPowerRequest p b v) s fun t =>
      bit t R.bankStatus 1 = true ∧ bits t (R.bankCfg b) 26 2 = bits s (R.bankCfg b) 26 2 ∧
      bits t (R.bankCfg b) 0 3 = bitsOf v 0 3 ∧ bit t (R.bankCfg b) 25 = v.getLsbD 25 ∧
      keepsRegs [R.bankCfg b, R.bankStatus] s t ∧ t = { s with regs := t.regs })

/-- What the end of a march reports, and that no march on request changes BANK_PRESENT. For every march in progress and
every list of failures: MARCH_DONE sets BANK_MARCH_STATUS.done, sets its fail bit and raises BANK_MARCH_FAIL (229)
with the bank exactly when a read failed, and changes no register BANK_PRESENT, as does the MARCH_GO that starts a
march. The severity of BANK_MARCH_FAIL at reset is 1. (R211) -/
def Obligations.MarchResult : Prop :=
  (∀ (s : State) (m : March) (fs : List (Fin 6 × Fin 32768 × Fin 64)), s.banks.march = some m →
    Completes (.marchDone fs) s fun t =>
      bit t R.bankMarchStatus 30 = true ∧ bit t R.bankMarchStatus 29 = !fs.isEmpty ∧
      t.flt.signals = s.flt.signals ++
        (if fs.isEmpty then [] else [⟨229, (m.bank + if m.service then 256 else 0) % 65536, false⟩]) ∧
      (∀ i, i < 8 → reg t (R.bankPresent i) = reg s (R.bankPresent i))) ∧
  (∀ (v : Word) (s : State), v.getLsbD 31 = true → marchAllowed s v = true →
    Completes (.marchGo v) s fun t => ∀ i, i < 8 → reg t (R.bankPresent i) = reg s (R.bankPresent i)) ∧
  (severityOf State.reset 229 = 1)

/-- The control view, its set and clear windows and the service banks. A read or write of the selected design bank or of
a service bank reads or writes one 32-bit word, the set window ORs and the clear window clears the bits written as
1, and every other byte stays. A host write of service banks 0 to 3 while they hold protected firmware is discarded.
An access by a party that owns no port sets BANK_STATUS.not_owned, raises its fault and reads 0. (Rests on
spec/08_memories.md; spec/13_lighthouse_debug_security.md) -/
def Obligations.BankAccess : Prop :=
  (∀ (p : Party) (w : Fin 65536) (s : State), partyActs s p = true → viewCheck s p (bits s R.bankViewSel 0 8) = .ok →
    exec (.controlViewAccess p w .read) s =
      .next { s with readData := [readWord (designMem s (bits s R.bankViewSel 0 8)) (4 * w)] }) ∧
  (∀ (p : Party) (w : Fin 65536) (v : Word) (s : State) (c : Instr) (new : Word), partyActs s p = true →
    viewCheck s p (bits s R.bankViewSel 0 8) = .ok →
    (let old := readWord (designMem s (bits s R.bankViewSel 0 8)) (4 * w)
     (c = .controlViewAccess p w (.write v) ∧ new = v) ∨ (c = .setAliasWrite p .view w v ∧ new = old ||| v) ∨
      (c = .clearAliasWrite p .view w v ∧ new = old &&& ~~~ v)) →
    Completes c s fun t =>
      let b := bits s R.bankViewSel 0 8
      readWord (designMem t b) (4 * w) = new ∧
      (∀ a, ¬ (4 * w ≤ a ∧ a < 4 * w + 4) → readByte (designMem t b) a = readByte (designMem s b) a) ∧
      (∀ k, k ≠ b → designMem t k = designMem s k) ∧ t = { s with banks := t.banks } ∧
      t.banks = { s.banks with design := t.banks.design }) ∧
  (∀ (p : Party) (k : Fin 16) (w : Fin 65536) (s : State), partyActs s p = true → serviceOn s k = true →
    marchOn s true k = false →
    exec (.serviceBankAccess p k w .read) s = .next { s with readData := [readWord (serviceMem s k) (4 * w)] }) ∧
  (∀ (p : Party) (k : Fin 16) (w : Fin 65536) (v : Word) (s : State) (c : Instr) (new : Word), partyActs s p = true →
    serviceOn s k = true → marchOn s true k = false → ¬ (p = .host ∧ k < 4 ∧ bit s R.lhStatus 23 = true) →
    (let old := readWord (serviceMem s k) (4 * w)
     (c = .serviceBankAccess p k w (.write v) ∧ new = v) ∨ (c = .setAliasWrite p (.service k) w v ∧ new = old ||| v) ∨
      (c = .clearAliasWrite p (.service k) w v ∧ new = old &&& ~~~ v)) →
    Completes c s fun t =>
      readWord (serviceMem t k) (4 * w) = new ∧
      (∀ a, ¬ (4 * w ≤ a ∧ a < 4 * w + 4) → readByte (serviceMem t k) a = readByte (serviceMem s k) a) ∧
      (∀ j, j ≠ k.val → serviceMem t j = serviceMem s j) ∧ t = { s with banks := t.banks } ∧
      t.banks = { s.banks with service := t.banks.service }) ∧
  (∀ (k : Fin 16) (w : Fin 65536) (v : Word) (s : State), partyActs s .host = true → serviceOn s k = true →
    k.val < 4 → bit s R.lhStatus 23 = true → exec (.serviceBankAccess .host k w (.write v)) s = .next s) ∧
  (∀ (p : Party) (w : Fin 65536) (v : Word) (s : State), partyActs s p = true →
    viewCheck s p (bits s R.bankViewSel 0 8) = .foreign → domainOn s (bits s R.bankViewSel 0 8 / 16) = true →
    Completes (.controlViewAccess p w (.write v)) s (fun t =>
      bit t R.bankStatus 2 = true ∧ keepsRegs [R.bankStatus] s t ∧ t.banks = s.banks ∧
      t.flt.signals = s.flt.signals ++ [⟨64 + bits s R.bankViewSel 0 8 / 16, bits s R.bankViewSel 0 8, false⟩]) ∧
    Completes (.controlViewAccess p w .read) s (fun t => t.readData = [0] ∧ bit t R.bankStatus 2 = true ∧ t.banks = s.banks))

/-- DDR4 training, refresh, requests and the BAR4 window. DDR_TRAIN performs the next step, or step 1 anew with no lanes
recorded; a failure records its byte lanes and raises DDR_TRAIN. DDR_REFRESH counts. DDR_REQUEST queues a good
request, answers a refused one with zeros, DDR_ERR and DDR_RANGE, and a write before release stage 2 as suppressed.
DDR_REQUEST_DONE answers the words of its address or stores them. BAR4_ACCESS reads or writes the enabled bytes at
the window's base, or sets bar4_refused when refused; a poisoned one is discarded and raises PCIE_ERR.
BAR4_WIN_WRITE writes its fields. A requester whose weight is 0 waits while another requester is served. That a
refused write is answered at DDR_REQUEST (log entry 64) and that a BAR4 access takes its turn and ends within its
command (log entry 74) are the model's choices; the number of the cause in the record of PCIE_ERR and the AER bit of
a poisoned request are those of PCI Express Base 3.0 (log entries 26 and 97, PRESUMED). (Rests on
spec/08_memories.md; spec/16_host_interface.md) -/
def Obligations.DdrChannels : Prop :=
  (∀ (c : Fin 4) (step : Nat) (lanes : Byte) (s : State), firmwareRuns s = true → ddrOn s c = true → ddrReady s c = false →
    2 ≤ step → step ≤ 8 → step = bits s (R.ddrTrainStatus c) 28 4 + 1 →
    Completes (.ddrTrain c step true lanes) s fun t =>
      bits t (R.ddrTrainStatus c) 28 4 = step ∧ bit t (R.ddrTrainStatus c) 27 = false ∧
      ddrReady t c = decide (step = 8) ∧ keepsRegs [R.ddrTrainStatus c, R.ddrChStatus c] s t ∧
      t = { s with regs := t.regs }) ∧
  (∀ (c : Fin 4) (step : Nat) (lanes : Byte) (s : State), firmwareRuns s = true → ddrOn s c = true → ddrReady s c = false →
    2 ≤ step → step ≤ 8 → step = bits s (R.ddrTrainStatus c) 28 4 + 1 →
    Completes (.ddrTrain c step false lanes) s fun t =>
      bit t (R.ddrTrainStatus c) 27 = true ∧ bits t (R.ddrTrainStatus c) 0 8 = lanes.toNat ∧ ddrReady t c = false ∧
      bits t (R.ddrTrainStatus c) 28 4 = bits s (R.ddrTrainStatus c) 28 4 ∧
      t.flt.signals = s.flt.signals ++ [⟨188 + c, lanes.toNat, false⟩] ∧ keepsRegs [R.ddrTrainStatus c] s t) ∧
  (∀ (c : Fin 4) (s : State), ddrOn s c = true → ddrReady s c = true →
    Completes (.ddrRefresh c) s fun t =>
      ddr t c = { ddr s c with refreshes := (ddr s c).refreshes + 1 } ∧ (∀ k, k ≠ c.val → ddr t k = ddr s k) ∧
      t = { s with ddr := t.ddr }) ∧
  (∀ (c : Fin 4) (s : State) (p : Packet), (ni s (ddrNi c)).requests = [p] → headDst p.head = 148 + c →
    (ddr s c).queue.length < 256 → ddrOn s c = true → ddrRefusal s c (p.payload.headD 0) = none →
    (ddrOp (p.payload.headD 0) = 0 ∨ 2 ≤ s.sched.stage) →
    Completes (.ddrRequest c) s fun t =>
      ddr t c = { ddr s c with queue := (ddr s c).queue ++ [p] } ∧ (ni t (ddrNi c)).requests = [] ∧ t.regs = s.regs) ∧
  (∀ (c : Fin 4) (s : State) (p : Packet) (cause : Nat), (ni s (ddrNi c)).requests = [p] → headDst p.head = 148 + c →
    (ddr s c).queue.length < 256 → ddrOn s c = true → ddrRefusal s c (p.payload.headD 0) = some cause →
    (ddrOp (p.payload.headD 0) = 0 ∨ 2 ≤ s.sched.stage) →
    exec (.ddrRequest c) s = .next (ddrAnswer (ddrNi c) p (List.replicate (ddrWords (p.payload.headD 0)) 0) 0
      (signal (192 + c) (ddrRegion (p.payload.headD 0)) (bumpBits (setBits (setBits (setNi s (ddrNi c)
        { ni s (ddrNi c) with requests := [] }) (R.ddrErr c) 28 4 (ddrRegion (p.payload.headD 0)))
        (R.ddrErr c) 24 4 cause) (R.ddrErr c) 0 16 1)))) ∧
  (∀ (c : Fin 4) (s : State) (p : Packet), (ni s (ddrNi c)).requests = [p] → headDst p.head = 148 + c →
    (ddr s c).queue.length < 256 → ddrOn s c = true → ddrOp (p.payload.headD 0) ≠ 0 → s.sched.stage < 2 →
    exec (.ddrRequest c) s = .next (ddrAnswer (ddrNi c) p [] 2
      (setNi s (ddrNi c) { ni s (ddrNi c) with requests := [] }))) ∧
  (∀ (c : Fin 4) (s : State) (p : Packet) (x : DdrChannel), ddrPresent s c = true → domainWorks s (16 + c) = true →
    (ddr s c).queue = [p] → ddrTurn s c .design = some x → ddrOp (p.payload.headD 0) = 0 →
    exec (.ddrRequestDone c) s = .next (respond (ddrNi c) p 2 ((List.range (ddrWords (p.payload.headD 0))).map fun k =>
      readDWord (ddr s c).mem (ddrAddress s c (p.payload.headD 0) + 8 * k))
      (setDdr (setDdr { s with free := s.free + 1 } c x) c { x with queue := [] }))) ∧
  (∀ (c : Fin 4) (s : State) (p : Packet) (x : DdrChannel), ddrPresent s c = true → domainWorks s (16 + c) = true →
    (ddr s c).queue = [p] → ddrTurn s c .design = some x → ddrOp (p.payload.headD 0) ≠ 0 →
    Completes (.ddrRequestDone c) s fun t =>
      let a := ddrAddress s c (p.payload.headD 0)
      let ws := (p.payload.drop 1).take (ddrWords (p.payload.headD 0))
      (ddr t c).queue = [] ∧ (∀ k, k < ws.length → readDWord (ddr t c).mem (a + 8 * k) = ws.getD k 0) ∧
      (∀ x, ¬ (a ≤ x ∧ x < a + 8 * ws.length) → readByte (ddr t c).mem x = readByte (ddr s c).mem x) ∧
      (∀ k, k ≠ c.val → ddr t k = ddr s k) ∧ t.banks = s.banks) ∧
  (∀ (c : Fin 4) (s : State), ddrWeight s c .design = 0 → classWaits s c .capture = true → ddrWeight s c .capture ≠ 0 →
    exec (.ddrRequestDone c) s = .next s) ∧
  (∀ (c : Fin 4) (ok : Bool) (lanes : Byte) (s : State), firmwareRuns s = true → ddrOn s c = true → ddrReady s c = false →
    Completes (.ddrTrain c 1 ok lanes) s fun t =>
      bits t (R.ddrTrainStatus c) 28 4 = ok.toNat ∧ bit t (R.ddrTrainStatus c) 27 = !ok ∧
      bits t (R.ddrTrainStatus c) 0 8 = (if ok then 0 else lanes.toNat) ∧ bit t (R.ddrChStatus c) 30 = false ∧
      ddrReady t c = false ∧
      t.flt.signals = (if ok then s.flt.signals else s.flt.signals ++ [⟨188 + c, lanes.toNat, false⟩]) ∧
      keepsRegs [R.ddrTrainStatus c, R.ddrChStatus c] s t) ∧
  (∀ (o : Nat) (es : List Bool) (s : State), partyActs s .host = true → o + es.length ≤ 2 ^ 32 →
    ddrOn s (bar4Channel s) = true → bar4Refused s o (enabledAt es) = false → (ddr s (bar4Channel s)).queue = [] →
    classWaits s (bar4Channel s) .capture = false →
    Completes (.bar4Access o es.length (.read es)) s fun t =>
      let c := bar4Channel s
      t.readData = groupWords ((enabledAt es).map fun k => readByte (ddr s c).mem (bar4Base s + o + k)) ∧
      (ddr t c).mem = (ddr s c).mem ∧ (∀ k, k ≠ c → ddr t k = ddr s k) ∧
      t = { s with ddr := t.ddr, readData := t.readData }) ∧
  (∀ (o : Nat) (bs : List (Option Byte)) (s : State), partyActs s .host = true → o + bs.length ≤ 2 ^ 32 →
    ddrOn s (bar4Channel s) = true → bar4Refused s o (enabledAt (bs.map Option.isSome)) = false →
    (ddr s (bar4Channel s)).queue = [] → classWaits s (bar4Channel s) .capture = false →
    Completes (.bar4Access o bs.length (.write bs false)) s fun t =>
      let c := bar4Channel s
      (∀ k, k < bs.length → readByte (ddr t c).mem (bar4Base s + o + k) =
        (bs.getD k none).getD (readByte (ddr s c).mem (bar4Base s + o + k))) ∧
      (∀ a, ¬ (bar4Base s + o ≤ a ∧ a < bar4Base s + o + bs.length) →
        readByte (ddr t c).mem a = readByte (ddr s c).mem a) ∧
      (∀ k, k ≠ c → ddr t k = ddr s k) ∧ t = { s with ddr := t.ddr }) ∧
  (∀ (o : Nat) (bs : List (Option Byte)) (s : State), partyActs s .host = true → o + bs.length ≤ 2 ^ 32 →
    ddrOn s (bar4Channel s) = true → bar4Refused s o (enabledAt (bs.map Option.isSome)) = true →
    exec (.bar4Access o bs.length (.write bs false)) s = .next (setBit s R.glbStatus 3 true)) ∧
  (∀ (v : Word) (s : State), partyActs s .host = true →
    Completes (.bar4WinWrite v) s fun t =>
      reg t R.glbBar4Win = (reg s R.glbBar4Win &&& ~~~ 0xB000003F#32) ||| (v &&& 0xB000003F#32) ∧
      keepsRegs [R.glbBar4Win] s t ∧ t = { s with regs := t.regs }) ∧
  (∀ (o n : Nat) (bs : List (Option Byte)) (s : State), partyActs s .host = true → o + n ≤ 2 ^ 32 →
    exec (.bar4Access o n (.write bs true)) s = .next (pcieError 12 s))

/-- One cycle of the Harbour engine. A cycle accepts one operand: it is stored, or completes its task set, which becomes
ready at its class priority, or is discarded with HB_ERR and HB_BAD_TAG. A waiting notify operand goes before every
other; a packet of the network is stored and answered when the host has had its turn or has none; of the host, the
window's operand goes before the words of the transmit rings (log entry 91, the model's choice). Of the ready tasks
it dispatches the one of the highest level that has an eligible task, the first eligible one of its list, and leaves
the other tasks in their order. DLIST_TICK counts one tick owed to a delay list. (Rests on spec/09_harbour.md) -/
def Obligations.HarbourCycle : Prop :=
  (∀ (s : State) (o : HbOperand), harbourOn s = true → bit s R.hbTraceCtrl 31 = false → acceptBlocked s = false →
    s.hb.notifies = [] → networkOperand s = none → s.hb.window = [o] → heldOf s 128 < bits s R.hbQuota 16 16 →
    s.hb.ready = [] → s.hb.delays = [] → classOn s (opTag o.word) = true → opSlot o.word < classArity s (opTag o.word) →
    takeTask (opTag o.word) (classArity s (opTag o.word)) 0 (s.hb.store ++ [⟨withBits o.word 40 5 0, o.source⟩]) = none →
    Completes .harbourCycle s fun t =>
      t.hb = { s.hb with window := [], hostLast := true, store := s.hb.store ++ [⟨withBits o.word 40 5 0, o.source⟩] } ∧
      bits t R.hbStoreUse 16 16 = max (bits s R.hbStoreUse 16 16) (s.hb.store.length + 1) % 65536 ∧
      keepsRegs [R.hbStoreUse] s t ∧ t = { s with hb := t.hb, regs := t.regs }) ∧
  (∀ (s : State) (o : HbOperand) (ws : List DWord) (rest : List HbOperand), harbourOn s = true →
    bit s R.hbTraceCtrl 31 = false → acceptBlocked s = false →
    s.hb.notifies = [] → networkOperand s = none → s.hb.window = [o] → heldOf s 128 < bits s R.hbQuota 16 16 →
    s.hb.ready = [] → s.hb.delays = [] → classOn s (opTag o.word) = true → opSlot o.word < classArity s (opTag o.word) →
    classDelayed s (opTag o.word) = false →
    takeTask (opTag o.word) (classArity s (opTag o.word)) 0 (s.hb.store ++ [⟨withBits o.word 40 5 0, o.source⟩]) =
      some (ws, rest) →
    Completes .harbourCycle s fun t =>
      t.hb.store = rest ∧ t.hb.window = [] ∧ t.hb.actions = s.hb.actions ∧
      readyList t (classPriority s (opTag o.word)) = [⟨opTag o.word, ws, 0⟩] ∧
      (∀ p, p ≠ classPriority s (opTag o.word) → readyList t p = []) ∧ t.flt = s.flt) ∧
  (∀ (s : State) (o : HbOperand), harbourOn s = true → bit s R.hbTraceCtrl 31 = false → acceptBlocked s = false →
    s.hb.notifies = [] → networkOperand s = none → s.hb.window = [o] → heldOf s 128 < bits s R.hbQuota 16 16 →
    s.hb.ready = [] → s.hb.delays = [] →
    (classOn s (opTag o.word) = false ∨ classArity s (opTag o.word) ≤ opSlot o.word) →
    Completes .harbourCycle s fun t =>
      t.hb = { s.hb with window := [], hostLast := true } ∧
      t.flt.signals = s.flt.signals ++ [⟨230, opTag o.word, false⟩] ∧
      bits t R.hbErr 16 16 = opTag o.word ∧ bits t R.hbErr 8 8 = 0xFF ∧
      bits t R.hbErr 0 8 = min (bits s R.hbErr 0 8 + 1) 255 ∧ keepsRegs [R.hbErr] s t) ∧
  (∀ (s : State) (p : Nat) (k : HbTask) (front rest : List HbTask), harbourOn s = true → bit s R.hbTraceCtrl 31 = false →
    hbEnabled s = true → s.hb.notifies = [] → networkOperand s = none → hostOperand s = false → s.hb.delays = [] →
    (∀ q, q < 16 → ∀ x ∈ readyList s q, parkedAhead s x.tag = false) →
    p < 16 → readyList s p = front ++ k :: rest → (∀ x ∈ front, eligible s x = false) →
    (∀ q, q < 16 → p < q → ∀ x ∈ readyList s q, eligible s x = false) →
    eligible s k = true → classAction s k.tag ≠ 0 →
    Completes .harbourCycle s fun t =>
      t.hb.actions = s.hb.actions ++ [⟨{ k with dispatched := timeNs s }, classAction s k.tag, .waiting⟩] ∧
      readyList t p = front ++ rest ∧ (∀ q, q ≠ p → readyList t q = readyList s q) ∧
      t.hb.store = s.hb.store ∧ t.hb.parked = s.hb.parked ∧ t.regs = s.regs ∧ t.flt = s.flt) ∧
  (∀ (l : Fin 4) (s : State), 0 < (delayList s l).owed →
    Completes (.dlistTick l) s fun t =>
      (delayList t l).owed = (delayList s l).owed - 1 ∧ (delayList t l).ticks = (delayList s l).ticks + 1 ∧
      (delayList t l).tasks = (delayList s l).tasks ∧
      (delayList t l).going =
        ((delayList s l).tasks.takeWhile fun x => decide (x.1 ≤ (delayList s l).ticks + 1)).length ∧
      (∀ k, k ≠ l.val → delayList t k = delayList s k) ∧ t = { s with hb := t.hb }) ∧
  (∀ (s : State) (p : Packet), harbourOn s = true → bit s R.hbTraceCtrl 31 = false → acceptBlocked s = false →
    s.hb.notifies = [] → networkOperand s = some p → (hostOperand s = false ∨ s.hb.hostLast = true) →
    s.hb.ready = [] → s.hb.delays = [] → classOn s (opTag (p.payload.headD 0)) = true →
    opSlot (p.payload.headD 0) < classArity s (opTag (p.payload.headD 0)) →
    takeTask (opTag (p.payload.headD 0)) (classArity s (opTag (p.payload.headD 0))) 0
      (s.hb.store ++ [⟨withBits (p.payload.headD 0) 40 5 0, headSrc p.head⟩]) = none →
    exec .harbourCycle s = .next (respond 134 p (if ((p.payload.drop 1).headD 0).getLsbD 0 then 2 else 3)
      (if ((p.payload.drop 1).headD 0).getLsbD 0 then [1] else [])
      (setBits (setHb (setNi s 134 { ni s 134 with requests := (ni s 134).requests.erase p })
          { s.hb with hostLast := false
                      store := s.hb.store ++ [⟨withBits (p.payload.headD 0) 40 5 0, headSrc p.head⟩] })
        R.hbStoreUse 16 16 (max (bits s R.hbStoreUse 16 16) (s.hb.store.length + 1))))) ∧
  (∀ (s : State) (o : HbOperand) (later : List HbOperand), harbourOn s = true → bit s R.hbTraceCtrl 31 = false →
    acceptBlocked s = false → s.hb.notifies = o :: later →
    s.hb.ready = [] → s.hb.delays = [] → classOn s (opTag o.word) = true → opSlot o.word < classArity s (opTag o.word) →
    takeTask (opTag o.word) (classArity s (opTag o.word)) 0 (s.hb.store ++ [⟨withBits o.word 40 5 0, o.source⟩]) = none →
    Completes .harbourCycle s fun t =>
      t.hb = { s.hb with notifies := later, store := s.hb.store ++ [⟨withBits o.word 40 5 0, o.source⟩] } ∧
      bits t R.hbStoreUse 16 16 = max (bits s R.hbStoreUse 16 16) (s.hb.store.length + 1) % 65536 ∧
      keepsRegs [R.hbStoreUse] s t ∧ t = { s with hb := t.hb, regs := t.regs }) ∧
  (∀ (s : State) (k : Nat) (d : TxDescriptor) (w : DWord) (ws : List DWord), harbourOn s = true →
    bit s R.hbTraceCtrl 31 = false → acceptBlocked s = false →
    s.hb.notifies = [] → networkOperand s = none → s.hb.window = [] → nextRing s = some k → find s.hb.tx k = some d →
    d.words = w :: ws → heldOf s 128 < bits s R.hbQuota 16 16 →
    s.hb.ready = [] → s.hb.delays = [] → classOn s (opTag w) = true → opSlot w < classArity s (opTag w) →
    takeTask (opTag w) (classArity s (opTag w)) 0 (s.hb.store ++ [⟨withBits w 40 5 0, 128⟩]) = none →
    Completes .harbourCycle s fun t =>
      t.hb = { s.hb with
        hostLast := true, lastRing := k, store := s.hb.store ++ [⟨withBits w 40 5 0, 128⟩]
        tx := enter s.hb.tx k { d with words := ws, accepted := d.accepted + 1, time := timeNs s } } ∧
      bits t R.hbStoreUse 16 16 = max (bits s R.hbStoreUse 16 16) (s.hb.store.length + 1) % 65536 ∧
      keepsRegs [R.hbStoreUse] s t ∧ t = { s with hb := t.hb, regs := t.regs })

/-- Host message rings, transmit rings and their errors. HOST_MESSAGE writes buffer, time and descriptor to the ring and
moves its head, or parks when the ring has no room. TX_DESCRIPTOR_FETCH takes the words of a descriptor,
TX_WRITE_BACK returns it. RING_TAIL_WRITE moves the tail, RING_ENABLE with en = 0 empties the ring. DMA_ERROR of a
transmit ring halts it, adds 1 to GLB_DMA_ERR.count as far as 65,535 whatever the count was, records its kind,
raises PCIE_ERR and, when the count rises, sets cause bit 36 (Table 16.6); while completion timeouts are disabled
none of cause 3 comes (device control 2 is log entry 97). The number of the cause in the record of PCIE_ERR (log
entry 26) and the AER bit of each cause (log entry 97) are PRESUMED, those of PCI Express Base 3.0. (Rests on
spec/09_harbour.md; spec/16_host_interface.md) -/
def Obligations.HarbourRings : Prop :=
  (∀ (s : State) (b : DWord) (x : HbAction), busMaster s = true → harbourOn s = true → s.hb.parked = [] →
    s.hb.actions = [x] → x.action = 1 → x.phase = .waiting → ringReady s (16 + classRing s x.task.tag) = true →
    bit s (R.hbRingCfg (16 + classRing s x.task.tag)) 30 = false →
    Completes (.hostMessage b) s fun t =>
      let k := 16 + classRing s x.task.tag
      t.pcie.writes = s.pcie.writes ++ [(b.toNat, x.task.words.flatMap fun w => bytesLE 8 w.toNat),
        (ringDescriptor s k + 16, bytesLE 8 x.task.dispatched ++ bytesLE 4 (x.task.tag <<< 16 + x.task.words.length)),
        (ringDescriptor s k + 28, bytesLE 4 (2 ^ 31 + classPriority s x.task.tag <<< 16))] ∧
      ringHead t k = (ringHead s k + 1) % ringSize s k ∧ t.hb = { s.hb with actions := [{ x with phase := .ended 0 }] } ∧
      keepsRegs [R.hbRingHead k] s t) ∧
  (∀ (s : State) (b : DWord) (x : HbAction), busMaster s = true → harbourOn s = true → s.hb.parked = [] →
    s.hb.actions = [x] → x.action = 1 → x.phase = .waiting → bit s R.hbTraceCtrl 31 = false →
    ringOn s (16 + classRing s x.task.tag) = true → ringReady s (16 + classRing s x.task.tag) = false →
    exec (.hostMessage b) s = .next { s with hb := { s.hb with actions := [], parked := [⟨x.task, 1, none, false⟩] } }) ∧
  (∀ (k : Fin 16) (q : Bool) (ws : List DWord) (s : State), harbourOn s = true → busMaster s = true →
    ringReady s k = true → find s.hb.tx k = none → 1 ≤ ws.length → ws.length ≤ 4096 →
    Completes (.txDescriptorFetch k q ws) s fun t =>
      find t.hb.tx k = some { irq := q, count := ws.length, words := ws } ∧
      (∀ j, j ≠ k.val → find t.hb.tx j = find s.hb.tx j) ∧ t.hb = { s.hb with tx := t.hb.tx } ∧
      t = { s with hb := t.hb }) ∧
  (∀ (k : Fin 16) (s : State) (d : TxDescriptor), find s.hb.tx k = some d → d.words = [] → busMaster s = true →
    harbourOn s = true → d.irq = false →
    Completes (.txWriteBack k) s fun t =>
      find t.hb.tx k = none ∧ (∀ j, j ≠ k.val → find t.hb.tx j = find s.hb.tx j) ∧
      t.pcie.writes = s.pcie.writes ++ [
        (ringDescriptor s k + 16, bytesLE 8 d.time ++ bytesLE 4 d.accepted),
        (ringDescriptor s k + 28, bytesLE 4 (2 ^ 31))] ∧
      ringHead t k = (ringHead s k + 1) % ringSize s k ∧ keepsRegs [R.hbRingHead k] s t) ∧
  (∀ (k : Fin 32) (v : Word) (s : State), partyActs s .host = true → harbourOn s = true →
    Completes (.ringTailWrite k v) s fun t =>
      bits t (R.hbRingTail k) 0 12 = bitsOf v 0 12 ∧ keepsRegs [R.hbRingTail k] s t ∧ t = { s with regs := t.regs }) ∧
  (∀ (k : Fin 32) (v : Word) (s : State), partyActs s .host = true → harbourOn s = true → v.getLsbD 31 = false →
    Completes (.ringEnable k v) s fun t =>
      ringOn t k = false ∧ bits t (R.hbRingHead k) 0 12 = 0 ∧ bits t (R.hbRingTail k) 0 12 = 0 ∧
      find t.hb.tx k = none ∧ k.val ∉ t.hb.halted ∧
      keepsRegs [R.hbRingCfg k, R.hbRingHead k, R.hbRingTail k] s t) ∧
  (∀ (k : Fin 32) (c : Fin 8) (s : State), 1 ≤ c.val → c.val ≤ 4 → busMaster s = true → ringReady s k = true →
    (c.val = 3 → s.pcie.config.deviceControl2.getLsbD 4 = false) →
    Completes (.dmaError (.ringDescriptor k) c) s fun t =>
      k.val ∈ t.hb.halted ∧ ringReady t k = false ∧ bits t R.glbDmaErr 27 5 = k ∧ bits t R.glbDmaErr 24 3 = c ∧
      bit t R.glbDmaErr 22 = true ∧ bits t R.glbDmaErr 0 16 = min (bits s R.glbDmaErr 0 16 + 1) 65535 ∧
      causeBit t 36 = (causeBit s 36 || bits s R.glbDmaErr 0 16 != 65535) ∧
      t.pcie.aer.uncorrectable = withBit s.pcie.aer.uncorrectable (aerBit c) true ∧
      t.flt.signals = s.flt.signals ++ [⟨207, aerBit c, false⟩] ∧ keepsRegs [R.glbDmaErr, R.glbIrqCauseHi] s t ∧
      t.pcie.writes = s.pcie.writes) ∧
  (∀ (k : Fin 16) (q : Bool) (c : Fin 8) (s : State), 1 ≤ c.val → c.val ≤ 4 → busMaster s = true → ringReady s k = true →
    (c.val = 3 → s.pcie.config.deviceControl2.getLsbD 4 = false) →
    find s.hb.tx k = none →
    Completes (.dmaError (.ringOperand (k.castLE (by decide)) q) c) s fun t =>
      t.pcie.writes = s.pcie.writes ++ [(ringDescriptor s k + 16, bytesLE 8 0 ++ bytesLE 4 0),
        (ringDescriptor s k + 28, bytesLE 4 (2 ^ 31 + 7))] ∧
      ringHead t k = (ringHead s k + 1) % ringSize s k ∧ find t.hb.tx k = none ∧
      causeBit t (16 + k) = (causeBit s (16 + k) || q) ∧ bits t R.glbDmaErr 27 5 = k ∧ bits t R.glbDmaErr 24 3 = c ∧
      bits t R.glbDmaErr 0 16 = min (bits s R.glbDmaErr 0 16 + 1) 65535 ∧
      t.flt.signals = s.flt.signals ++ [⟨207, aerBit c, false⟩]) ∧
  (∀ (p : DmaPurpose) (s : State), s.pcie.config.deviceControl2.getLsbD 4 = true → exec (.dmaError p 3) s = .next s)

/-- The block mover and the loop-back action. BLOCK_MOVER between two service banks copies n bytes in 64-bit words and
touches no other byte, and ends with the status of a refused range; a word of a design bank goes by a request to its
cluster and the answer, and a domain that is asleep ends the action with status 6 (log entry 75); a word of a DDR4
channel whose domain is closed goes by a request to that channel too (log entry 107, the model's choice). LOOP_BACK
probes its cluster; the grant ends the action and a refusal parks it; PARK_REPROBE probes again; HB_PARK_TIMEOUT
raises its fault once. (Rests on spec/09_harbour.md) -/
def Obligations.HarbourActions : Prop :=
  (∀ (s : State) (x : HbAction) (k k' o o' : Nat), s.hb.actions = [x] → x.action = 2 → x.phase = .waiting →
    (let src := slotValue x.task 0
     let dst := slotValue x.task 1
     let n := slotValue x.task 2
     hbRange src = .service k o ∧ hbRange dst = .service k' o' ∧ k ≠ k' ∧ rangeStatus s false src n = 0 ∧
       rangeStatus s true dst n = 0) →
    Completes .blockMover s fun t =>
      let n := slotValue x.task 2
      (∀ j, j < n / 8 → readDWord (serviceMem t k') (o' + 8 * j) = readDWord (serviceMem s k) (o + 8 * j)) ∧
      (∀ a, ¬ (o' ≤ a ∧ a < o' + n) → readByte (serviceMem t k') a = readByte (serviceMem s k') a) ∧
      (∀ j, j ≠ k' → serviceMem t j = serviceMem s j) ∧
      t.hb = { s.hb with actions := [{ x with phase := .ended 0 }] } ∧ t.ddr = s.ddr ∧ t.regs = s.regs) ∧
  (∀ (s : State) (x : HbAction), s.hb.actions = [x] → x.action = 2 → x.phase = .waiting →
    inBank (slotValue x.task 0) = false → rangeStatus s false (slotValue x.task 0) (slotValue x.task 2) ≠ 0 →
    exec .blockMover s = .next { s with hb := { s.hb with actions :=
      [{ x with phase := .ended (rangeStatus s false (slotValue x.task 0) (slotValue x.task 2)) }] } }) ∧
  (∀ (s : State) (x : HbAction) (k b o g : Nat), s.hb.actions = [x] → x.action = 2 → x.phase = .moving k →
    k < moveWords x → hbRange (slotValue x.task 0 + 8 * k) = .design b o → hbTag s = some g →
    routeValid s 134 (8 * (b / 16)) = true →
    Completes .blockMover s fun t =>
      t.hb = { s.hb with actions := [{ x with phase := .reading k g }] } ∧
      (ni t 134).outstanding = (ni s 134).outstanding ++ [⟨g, 8 * (b / 16), none, 1⟩] ∧ t.banks = s.banks) ∧
  (∀ (s : State) (x : HbAction) (k g : Nat) (p : Packet), s.hb.actions = [x] → x.action = 2 → x.phase = .reading k g →
    hbAnswer s g = some p → headKind p.head ≠ 4 →
    Completes .blockMover s fun t =>
      t.hb = { s.hb with actions := [{ x with phase := .holding k (p.payload.headD 0) }] } ∧
      (ni t 134).outstanding = ((ni s 134).outstanding.filter fun o => o.tag ≠ g) ∧ t.banks = s.banks ∧
      t.regs = s.regs) ∧
  (∀ (s : State) (x : HbAction) (k g : Nat) (p : Packet), s.hb.actions = [x] → x.action = 2 → x.phase = .writing k g →
    hbAnswer s g = some p → headKind p.head = 4 →
    Completes .blockMover s fun t =>
      t.hb = { s.hb with actions := [{ x with phase := .ended 6 }] } ∧ t.banks = s.banks ∧ t.regs = s.regs) ∧
  (∀ (s : State) (x : HbAction) (k c b g : Nat), s.hb.actions = [x] → x.action = 2 → x.phase = .moving k →
    k < moveWords x → hbRange (slotValue x.task 0 + 8 * k) = .ddr c b → domainOn s (16 + c) = false → hbTag s = some g →
    routeValid s 134 (148 + c) = true →
    Completes .blockMover s fun t =>
      t.hb = { s.hb with actions := [{ x with phase := .reading k g }] } ∧
      (ni t 134).outstanding = (ni s 134).outstanding ++ [⟨g, 148 + c, none, 1⟩] ∧ t.ddr = s.ddr) ∧
  (∀ (s : State) (x : HbAction) (g : Nat), s.hb.actions = [x] → x.action = 4 → x.phase = .waiting → s.hb.parked = [] →
    hbTag s = some g → routeValid s 134 (classCluster s x.task.tag) = true →
    Completes .loopBack s fun t =>
      t.hb = { s.hb with actions := [{ x with phase := .probed g }] } ∧
      (ni t 134).outstanding = (ni s 134).outstanding ++ [⟨g, classCluster s x.task.tag, none, 1⟩] ∧
      t.clusters = s.clusters ∧ t.flt = s.flt) ∧
  (∀ (s : State) (x : HbAction) (p : Packet) (rest : List Packet), (ni s 134).responses = p :: rest → s.hb.actions = [x] →
    x.phase = .probed (headTag p.head % 64) → headKind p.head ≠ 4 → (p.payload.headD 0).getLsbD 0 = true →
    Completes .reservationAnswer s fun t =>
      t.hb = { s.hb with actions := [{ x with phase := .ended 0 }] } ∧ (ni t 134).responses = rest ∧
      (ni t 134).outstanding = ((ni s 134).outstanding.filter fun o => o.tag ≠ headTag p.head % 64) ∧ t.flt = s.flt) ∧
  (∀ (s : State) (x : HbAction) (p : Packet) (rest : List Packet), (ni s 134).responses = p :: rest → s.hb.actions = [x] →
    x.phase = .probed (headTag p.head % 64) → headKind p.head ≠ 4 → (p.payload.headD 0).getLsbD 0 = false →
    bitsOf (p.payload.headD 0) 14 2 ≠ 1 → bit s R.hbTraceCtrl 31 = false →
    Completes .reservationAnswer s fun t =>
      t.hb = { s.hb with actions := [], parked := s.hb.parked ++ [⟨x.task, x.action, none, false⟩] } ∧
      (ni t 134).responses = rest ∧ t.regs = s.regs) ∧
  (∀ (s : State) (p : HbParked) (g : Nat), s.hb.parked = [p] → p.action = 4 → p.probe = none →
    hbTag s = some g → routeValid s 134 (classCluster s p.task.tag) = true →
    Completes .parkReprobe s fun t =>
      t.hb = { s.hb with parked := [{ p with probe := some g }] } ∧
      (ni t 134).outstanding = (ni s 134).outstanding ++ [⟨g, classCluster s p.task.tag, none, 1⟩]) ∧
  (∀ (s : State) (p : HbParked), s.hb.parked = [p] → p.raised = false → reg s R.hbParkTimeout ≠ 0 → domainOn s 26 = true →
    Completes .hbParkTimeout s fun t =>
      t.hb = { s.hb with parked := [{ p with raised := true }] } ∧
      t.flt.signals = s.flt.signals ++ [⟨231, p.task.tag % 65536, false⟩] ∧ t.regs = s.regs)

/-- Ends of actions, enable, flush and the message window. ACTION_END takes the action away, records a status other than
0 in HB_ERR and raises HB_ACTION_FAIL (232), and queues the notification of its class. HARBOUR_ENABLE writes en.
FLUSH empties the store, lists and queues while Harbour is disabled and no action runs, else it sets wr_locked.
MESSAGE_WINDOW_WRITE queues a host operand, or counts an overrun and raises its fault. (Rests on spec/09_harbour.md) -/
def Obligations.HarbourControl : Prop :=
  (∀ (s : State) (x : HbAction), s.hb.actions = [x] → x.phase = .ended 0 → bit s R.hbTraceCtrl 31 = false →
    bit s (R.hbClassC (tagClass x.task.tag)) 31 = false →
    exec .actionEnd s = .next { s with hb := { s.hb with actions := [] } }) ∧
  (∀ (s : State) (x : HbAction) (k : Nat), s.hb.actions = [x] → x.phase = .ended k → k ≠ 0 → k < 256 → x.task.tag < 65536 →
    bit s R.hbTraceCtrl 31 = false → bit s (R.hbClassC (tagClass x.task.tag)) 31 = false → domainOn s 26 = true →
    Completes .actionEnd s fun t =>
      t.hb = { s.hb with actions := [] } ∧ bits t R.hbErr 16 16 = x.task.tag ∧ bits t R.hbErr 8 8 = k ∧
      t.flt.signals = s.flt.signals ++ [⟨232, x.task.tag, false⟩] ∧ keepsRegs [R.hbErr] s t) ∧
  (∀ (s : State) (x : HbAction), s.hb.actions = [x] → x.phase = .ended 0 → bit s R.hbTraceCtrl 31 = false →
    x.task.tag < 65536 →
    bit s (R.hbClassC (tagClass x.task.tag)) 31 = true → s.hb.notifies.length + heldOf s 129 < 16 →
    Completes .actionEnd s fun t =>
      (∃ w, t.hb = { s.hb with actions := [], notifies := s.hb.notifies ++ [⟨w, 129⟩] } ∧
        opTag w = bits s (R.hbClassC (tagClass x.task.tag)) 0 16 ∧
        opSlot w = bits s (R.hbClassC (tagClass x.task.tag)) 16 3 ∧
        opValue w = x.task.tag * 256) ∧ t = { s with hb := t.hb }) ∧
  (∀ (s : State) (on : Bool), harbourOn s = true → exec (.harbourEnable on) s = .next (setBit s R.hbCtrl 0 on)) ∧
  (∀ s, harbourOn s = true → hbEnabled s = false → s.hb.actions = [] →
    Completes .flush s fun t =>
      t.hb.store = [] ∧ t.hb.ready = [] ∧ t.hb.parked = [] ∧ t.hb.actions = [] ∧ t.hb.notifies = [] ∧
      (∀ l, l < 4 → delayList t l = { delayList s l with tasks := [], going := 0 }) ∧ t = { s with hb := t.hb }) ∧
  (∀ s, harbourOn s = true → (hbEnabled s = true ∨ s.hb.actions ≠ []) →
    exec .flush s = .next (setBit s R.hbStatus 1 true)) ∧
  (∀ (lo hi : Word) (s : State), partyActs s .host = true → harbourOn s = true → 0 < windowFree s →
    exec (.messageWindowWrite (some lo) (some hi)) s = .next { s with hb := { s.hb with
      windowLow := lo, window := s.hb.window ++ [⟨ofHalves lo hi, 128⟩] } }) ∧
  (∀ (lo hi : Word) (s : State), partyActs s .host = true → harbourOn s = true → windowFree s = 0 →
    Completes (.messageWindowWrite (some lo) (some hi)) s fun t =>
      t.hb = { s.hb with windowLow := lo } ∧
      bits t R.hbWinCredit 16 16 = min (bits s R.hbWinCredit 16 16 + 1) 65535 ∧ keepsRegs [R.hbWinCredit] s t ∧
      t.flt.signals = s.flt.signals ++ [⟨233, opTag (ofHalves lo hi), false⟩])

/-- Arming, starting and ending a load, and the messages of the load tree. LOAD_ARM arms a load of the host, and in
modes 1 and 2 it begins the load at once; LOAD_GO starts an armed load; both set LD_STATUS.wr_locked while a load
runs. LOAD_ABORT in states 0, 6, 7 and 8 is discarded and sets wr_locked; before HOLD it returns to the prior state,
after it it fails with code 0x17, as an ABORT of the tree does. That LOAD_ARM of mode 0 leaves LD_STATUS.state as it
stands is the model's choice (log entry 55). RETRY, REWIND, REWOUND, END and REPORT act on the stream and the load
status. (Rests on spec/10_loading_release_reload.md) -/
def Obligations.LoadControl : Prop :=
  (∀ s, loadInProgress s = false → reloadInProgress s = false → ldMode s = 0 →
    Completes .loadArm s fun t =>
      t.ld.armed = true ∧ t.ld.data = [] ∧ t.ld.good = [] ∧ t.ld.reports = [] ∧ t = { s with ld := t.ld }) ∧
  (∀ s, loadInProgress s = true → exec .loadArm s = .next (setBit s R.ldStatus 25 true) ∧
    exec .loadGo s = .next (setBit s R.ldStatus 25 true)) ∧
  (∀ s, loadInProgress s = false → ldMode s = 0 → s.ld.armed = true →
    Completes .loadGo s fun t =>
      ldState t = 1 ∧ t.ld = { s.ld with armed := false, going := true } ∧ reg t R.ldRetry = 0 ∧ reg t R.ldFail = 0 ∧
      bits t R.ldStatus 26 2 = 0 ∧ keepsRegs [R.ldStatus, R.ldRetry, R.ldFail] s t) ∧
  (∀ s, loadInProgress s = true → ldMode s = 0 → childLinks s = [] → s.ld.held = false → s.ld.reports = [] →
    s.ld.prior < 16 → s.ld.prior ≠ 6 → s.ld.prior ≠ 8 →
    Completes .loadAbort s fun t =>
      ldState t = s.ld.prior ∧ bits t R.ldStatus 16 8 = 0x17 ∧ bit t R.ldStatus 26 = true ∧ t.ld.going = false ∧
      t.ld.armed = false ∧ keepsRegs [R.ldStatus] s t ∧ t.clusters = s.clusters ∧ t.banks = s.banks) ∧
  (∀ (l : Fin 20) (s : State), loadInProgress s = true → ldMode s = 0 → childLinks s = [l.val] → s.ld.held = true →
    s.ld.cleared = true → s.ld.reports = [] → traceOn s = false →
    Completes (.abort l) s fun t =>
      ldState t = 8 ∧ bits t R.ldStatus 16 8 = 0x17 ∧ bits t R.ldReach 0 16 = 0 ∧ t.ld.going = false ∧
      causeBit t 34 = true ∧ t.clusters = s.clusters) ∧
  (∀ s, loadInProgress s = false → exec .loadAbort s = .next (setBit s R.ldStatus 25 true)) ∧
  (∀ s, loadInProgress s = false → reloadInProgress s = false → ldMode s ≠ 0 →
    (ldMode s = 1 → (link s (parentLink s)).rxLoad = []) →
    Completes .loadArm s fun t =>
      ldState t = 1 ∧ t.ld.going = true ∧ t.ld.armed = false ∧ t.ld.data = [] ∧ t.ld.good = [] ∧ t.ld.reports = [] ∧
      t.ld.prior = ldState s ∧ reg t R.ldRetry = 0 ∧ reg t R.ldFail = 0 ∧
      keepsRegs [R.ldStatus, R.ldRetry, R.ldFail] s t ∧ t.clusters = s.clusters ∧ t.cw = s.cw) ∧
  (∀ s, loadInProgress s = true → ldMode s = 0 → childLinks s = [] → s.ld.held = true → s.ld.cleared = true →
    s.ld.reports = [] → traceOn s = false →
    Completes .loadAbort s fun t =>
      ldState t = 8 ∧ bits t R.ldStatus 16 8 = 0x17 ∧ bits t R.ldReach 0 16 = 0 ∧ t.ld.going = false ∧
      causeBit t 34 = true ∧ t.clusters = s.clusters) ∧
  (∀ (w : DWord) (s : State), ldMode s ≠ 1 →
    Completes (.retry w) s fun t =>
      t.ld = { s.ld with failed := s.ld.failed ++ [(bitsOf w 48 7, bitsOf w 0 40)] } ∧ t.regs = s.regs ∧
      t.clusters = s.clusters) ∧
  (∀ (w : DWord) (s : State), ldMode s = 1 → s.ld.going = true → childLinks s = [] → parentLink s < 20 →
    Completes (.rewind w) s fun t =>
      t.ld.data = s.ld.data.take (max (64 * bitsOf w 0 40) (checkedBytes s)) ∧
      t.ld.skip = t.ld.data.length - 64 * bitsOf w 0 40 ∧ t.ld.gap = 64 * bitsOf w 0 40 - t.ld.data.length ∧
      t.ld.tail = [] ∧ t.ld.rewinding = [] ∧ t.ld.endAt = none ∧
      (link t (parentLink s)).rxLoad = [] ∧ bit t R.ldStatus 27 = false ∧ t.clusters = s.clusters) ∧
  (∀ (l : Fin 20) (s : State), s.ld.rewinding = [l.val] → ldMode s = 0 →
    exec (.rewound l) s = .next (setBit { s with ld := { s.ld with rewinding := [] } } R.ldStatus 27 false)) ∧
  (∀ (w : DWord) (s : State), ldMode s = 1 → s.ld.going = true → childLinks s = [] →
    s.ld.data.length < 64 * bitsOf w 0 40 →
    Completes (.endMessage w) s fun t =>
      t.ld = { s.ld with endAt := some (64 * bitsOf w 0 40) } ∧ t.regs = s.regs ∧ t.clusters = s.clusters) ∧
  (∀ (l : Fin 20) (w : DWord) (s : State), ldMode s = 0 → childLinks s = [l.val] → s.ld.reports = [(20, 0, 0)] →
    Completes (.report l w) s fun t =>
      bit t R.ldStatus 26 = true ∧ bits t R.ldStatus 16 8 = bitsOf w 40 8 ∧
      bits t R.ldStatus 8 7 = (if bitsOf w 40 8 = 0 then 0 else bitsOf w 48 7) ∧ keepsRegs [R.ldStatus] s t)

/-- The image stream: chunks, sections, failures and backoff. STREAM_FETCH and SHORE_WORD_TRANSFER add bytes to the
stream, a stream that ends early fails with code 0x16. SECTION_RECEIVED keeps a section whose hash holds and lists
one whose hash fails for a retry. FETCH_FAILURE keeps its place and backs off; BACKOFF_EXPIRY goes back to the
section, and the first bytes sent again count the failure in LD_RETRY, name it in LD_FAIL and write a Cairn record
for the 1st and every 1,024th after it. When a failure that is never sent again counts is the model's choice (log
entry 115). The hash is SHA-256 taken from outside the spec (log entry 3, PRESUMED); the back-off restarts at its
first delay once the section of the last retry has passed (log entry 76) and a fetch failure brings the cause of a
DMA error with it (log entry 85), both the model's choices. (Rests on spec/10_loading_release_reload.md) -/
def Obligations.LoadStream : Prop :=
  (∀ (bs : List Byte) (s : State), ldMode s = 0 → s.ld.going = true → s.ld.endAt = none → sourceStopped s = false →
    busMaster s = true → bs ≠ [] → childLinks s = [] → ldState s = 1 → s.ld.headerOk = false → s.ld.gap = 0 → s.ld.failing = none →
    headerHere (s.ld.data ++ bs.drop (min bs.length s.ld.skip)) = false →
    Completes (.streamFetch bs) s fun t =>
      t.ld = { s.ld with data := s.ld.data ++ bs.drop (min bs.length s.ld.skip), skip := s.ld.skip - min bs.length s.ld.skip
                         tail := (s.ld.tail ++ bs).drop (32 * ((s.ld.tail ++ bs).length / 32)) } ∧
      t = { s with ld := t.ld }) ∧
  (∀ s, ldMode s = 0 → s.ld.going = true → s.ld.endAt = none → sourceStopped s = false → childLinks s = [] →
    busMaster s = true → s.ld.headerOk = false → loadInProgress s = true → s.ld.cleared = false → s.ld.reports = [] → traceOn s = false →
    Completes (.streamFetch []) s fun t =>
      ldState t = 8 ∧ bits t R.ldStatus 16 8 = 0x16 ∧ bit t R.ldStatus 26 = true ∧
      t.ld.endAt = some (s.ld.data.length + s.ld.gap - s.ld.skip) ∧ causeBit t 34 = true) ∧
  (∀ (w : DWord) (s : State), ldMode s = 2 → s.die.straps.getLsbD 0 = true → s.ld.skip = 0 → s.ld.gap = 0 → s.ld.failing = none → s.ld.going = true → s.ld.endAt = none → sourceStopped s = false →
    childLinks s = [] → ldState s = 1 → s.ld.headerOk = false → headerHere (s.ld.data ++ bytesLE 8 w.toNat) = false →
    Completes (.shoreWordTransfer w false) s fun t =>
      t.ld.data = s.ld.data ++ bytesLE 8 w.toNat ∧ t = { s with ld := t.ld }) ∧
  (∀ (s : State) (i : Nat) (x : Descriptor), s.ld.tableOk = true → s.ld.headerOk = true → ldState s = 2 → ldMode s = 0 →
    sourceStopped s = false → s.ld.failed = [] → s.ld.retry = none → s.ld.endAt = none → rlState s = 0 → s.ld.missing = [] →
    s.ld.data.length ≤ imageLength s.ld.data → completeSection s = some (i, x) →
    stagedHere { s with ld := { s.ld with good := enter s.ld.good i (bytesAt s.ld.data x.offset x.length) } } = false →
    exec .sectionReceived s = .next (setLd (if hashGood x (bytesAt s.ld.data x.offset x.length) = true
      then { s.ld with good := enter s.ld.good i (bytesAt s.ld.data x.offset x.length) }
      else { s.ld with failed := [(ownOrdinal s, i)] }) s)) ∧
  (∀ (s : State) (o i : Nat), ldMode s = 0 → s.ld.going = true → sourceStopped s = false → busMaster s = true →
    sectionHere s = some (o, i) → s.ld.failing = none →
    Completes (.fetchFailure true) s fun t =>
      let c := if retryPassed s (some (o, i)) then 1 else s.ld.consecutive + 1
      t.ld.backing = true ∧ t.ld.retry = some (o, i) ∧ t.ld.consecutive = c ∧ t.ld.failing = some (1, o, i) ∧
      bits t R.ldRetry 0 22 = bits s R.ldRetry 0 22 ∧ bits t R.ldRetry 22 10 = backoffMs c ∧
      reg t R.ldFail = reg s R.ldFail ∧
      bit t R.ldStatus 27 = true ∧ t.ld.data = s.ld.data ∧ bit t R.glbDmaErr 23 = true ∧
      bits t R.glbDmaErr 0 16 = min (bits s R.glbDmaErr 0 16 + 1) 65535) ∧
  (∀ (s : State) (o i : Nat), s.ld.backing = true → ldMode s = 0 → childLinks s = [] → s.ld.retry = some (o, i) →
    Completes .backoffExpiry s fun t =>
      t.ld.backing = false ∧ t.ld.data = s.ld.data.take (max (descriptorAt s.ld.data i).offset (checkedBytes s)) ∧
      t.ld.skip = t.ld.data.length - (descriptorAt s.ld.data i).offset ∧ t.ld.tail = [] ∧
      bits t R.ldRetry 22 10 = 0 ∧ bit t R.ldStatus 27 = false ∧ keepsRegs [R.ldRetry, R.ldStatus] s t) ∧
  (∀ s : State, s.ld.backing = true → ldMode s = 2 → childLinks s = [] →
    Completes .backoffExpiry s fun t =>
      t.ld.backing = false ∧ t.ld.data = s.ld.data.take (checkedBytes s) ∧ t.ld.skip = t.ld.data.length ∧
      t.ld.good = s.ld.good ∧ t.ld.rewindBall = false ∧ bits t R.ldRetry 22 10 = 0 ∧ bit t R.ldStatus 27 = false ∧
      keepsRegs [R.ldRetry, R.ldStatus] s t) ∧
  (∀ (bs : List Byte) (s : State) (k o i : Nat), ldMode s = 0 → s.ld.going = true → s.ld.endAt = none →
    sourceStopped s = false → busMaster s = true → bs ≠ [] → childLinks s = [] → ldState s = 1 → s.ld.headerOk = false →
    headerHere (s.ld.data ++ List.replicate s.ld.gap 0 ++ bs.drop (min bs.length s.ld.skip)) = false →
    s.ld.failing = some (k, o, i) → k < 4 →
    Completes (.streamFetch bs) s fun t =>
      t.ld.failures = s.ld.failures + 1 ∧ t.ld.failing = none ∧
      bits t R.ldRetry 0 22 = min (s.ld.failures + 1) (2 ^ 22 - 1) ∧ bits t R.ldRetry 22 10 = bits s R.ldRetry 22 10 ∧
      bits t R.ldFail 18 14 = i % 2 ^ 14 ∧ bits t R.ldFail 16 2 = k % 4 ∧ bits t R.ldFail 0 7 = o % 128 ∧
      keepsRegs [R.ldRetry, R.ldFail] s t ∧
      (s.cairn.queue.length < 16 → t.cairn.queue.length = s.cairn.queue.length + (if (s.ld.failures + 1) % 1024 = 1 then 1 else 0)) ∧
      t.clusters = s.clusters)

/-- The phases of a load. ENTER_HOLD, and for a running device the milestone point with ENTER_HOLD or MILESTONE, puts
every reach into HOLD with quiesced NIs and a Harbour whose store, ready lists, delay lists, park, actions and
notify operands are empty. LOAD_WRITE begins by clearing instruction memories, dictionaries and the banks of the
image's reaches, then writes each section, of every type of Table 10.3. LOAD_COMPLETE with every check good reports
status 0 and the valid reaches, and with a failed check its code and no valid reach. That a load awaits ec 0 after
its first write (log entry 66) and that ENTER_HOLD quiesces every cluster NI (log entry 56) are the model's choices.
(Rests on spec/10_loading_release_reload.md) -/
def Obligations.LoadPhases : Prop :=
  (∀ s, ldState s = 3 → s.ld.held = false → s.sched.run ≠ .running →
    Completes .enterHold s fun t =>
      allHold t = true ∧ t.sched.run = .notStarted ∧ t.ld.held = true ∧ t.rl = {} ∧
      (∀ i, i < 128 → bit t (R.wfNiCtrl i) 0 = true) ∧
      t.hb = { s.hb with store := [], ready := [], parked := [], actions := [], notifies := [], delays := t.hb.delays } ∧
      (∀ l, l < 4 → delayList t l = { delayList s l with tasks := [], going := 0 }) ∧
      (∀ n, n < 128 → clu t n = heldCluster (clu s n))) ∧
  (∀ s, ldState s = 3 → s.ld.held = true → clusterNisQuiet s = true → firmwareRuns s = true → rlState s = 0 →
    Completes .loadWrite s fun t =>
      ldState t = 4 ∧ bits t R.ldReach 0 16 = 0 ∧ t.ld.cleared = true ∧ (∀ l, awaitedEc t l = 0) ∧ t.ld.contract = imageContract s.ld.data ∧
      (∀ n, (clu t n).imem = [] ∧ (clu t n).dict = []) ∧
      (∀ b, b < 256 → dirReaches s.ld.data (ownOrdinal s) / 2 ^ (b / 16) % 2 = 1 → bankPresent s b = true →
        designMem t b = zeroContents)) ∧
  (∀ (s : State) (i : Nat) (x : Descriptor) (bs : List Byte), ldState s = 4 → rlState s = 0 → nextWrite s = some (i, x) →
    find s.ld.good i = some bs → x.type = 1 → (plainBytes s s.ld.data i x bs).length = 65536 →
    Completes .loadWrite s fun t =>
      t.ld = { s.ld with written := s.ld.written ++ [i] } ∧
      (∀ j, j < 8 → clu t (8 * reachOfMask x.reach + j) =
        { clu s (8 * reachOfMask x.reach + j) with dict := dictOf j (plainBytes s s.ld.data i x bs) }) ∧
      (∀ n, n / 8 ≠ reachOfMask x.reach → clu t n = clu s n) ∧ keepsRegs [R.ldStatus] s t) ∧
  (∀ (s : State), ldState s = 5 → ldMode s = 0 → childLinks s = [] → s.ld.reports = [] → bit s R.ldRelCfg 30 = false →
    traceOn s = false →
    postCode s s.ld.units (clustersOf (reachList s.ld.reaches)) (clustersOf (reachList s.ld.reaches)) none = 0 →
    Completes .loadComplete s fun t =>
      ldState t = 6 ∧ bits t R.ldReach 0 16 = s.ld.reaches % 65536 ∧ bits t R.ldReach 16 16 = bits s R.ldReach 16 16 ∧
      bits t R.ldStatus 16 8 = 0 ∧ bit t R.ldStatus 26 = true ∧ causeBit t 34 = true ∧ t.sched = s.sched) ∧
  (∀ (s : State) (c : Nat), ldState s = 5 → ldMode s = 0 → childLinks s = [] → s.ld.reports = [] → traceOn s = false →
    postCode s s.ld.units (clustersOf (reachList s.ld.reaches)) (clustersOf (reachList s.ld.reaches)) none = c → c ≠ 0 →
    c < 256 → s.ld.cleared = true →
    Completes .loadComplete s fun t =>
      ldState t = 8 ∧ bits t R.ldReach 0 16 = 0 ∧ bits t R.ldStatus 16 8 = c ∧ bit t R.ldStatus 26 = true) ∧
  (∀ (s : State) (i : Nat) (x : Descriptor) (bs : List Byte), ldState s = 4 → rlState s = 0 → nextWrite s = some (i, x) →
    find s.ld.good i = some bs → x.type = 0 →
    (plainBytes s s.ld.data i x bs).length = 49152 * depth s →
    Completes .loadWrite s fun t =>
      t.ld = { s.ld with written := s.ld.written ++ [i] } ∧
      (∀ j, j < 8 → clu t (8 * reachOfMask x.reach + j) =
        { clu s (8 * reachOfMask x.reach + j) with imem := imemOf (depth s) j (plainBytes s s.ld.data i x bs) }) ∧
      (∀ n, n / 8 ≠ reachOfMask x.reach → clu t n = clu s n) ∧ keepsRegs [R.ldStatus] s t) ∧
  (∀ (s : State) (i : Nat) (x : Descriptor) (bs : List Byte), ldState s = 4 → rlState s = 0 → nextWrite s = some (i, x) →
    find s.ld.good i = some bs → x.type = 7 →
    (plainBytes s s.ld.data i x bs).length = 64 →
    Completes .loadWrite s fun t =>
      t.ld = { s.ld with written := s.ld.written ++ [i], golden := t.ld.golden } ∧
      (∀ j, j < 8 → dword t.ld.golden (8 * reachOfMask x.reach + j) =
        BitVec.ofNat 64 (fieldAt (plainBytes s s.ld.data i x bs) (8 * j) 8)) ∧
      (∀ n, n / 8 ≠ reachOfMask x.reach → dword t.ld.golden n = dword s.ld.golden n) ∧
      t.clusters = s.clusters ∧ keepsRegs [R.ldStatus] s t) ∧
  (∀ (s : State) (i : Nat) (x : Descriptor) (bs : List Byte), ldState s = 4 → rlState s = 0 → nextWrite s = some (i, x) →
    find s.ld.good i = some bs → x.type ∈ [2, 3, 4, 5, 6, 8, 9] →
    (x.type = 3 → firmwareRuns s = true) → (plainBytes s s.ld.data i x bs).length % 8 = 0 →
    ((recordsOf (plainBytes s s.ld.data i x bs)).all fun y =>
      recordGood x.type (reachOfMask x.reach) s.ld.units s.ld.contract y) = true →
    (x.type = 6 → (((recordsOf (plainBytes s s.ld.data i x bs)).filter fun y => y.1.getLsbD 31).map fun y =>
      (bitsOf y.1 8 5, bitsOf y.1 0 2)).Nodup) →
    (x.type = 2 → depthGood (((recordsOf (plainBytes s s.ld.data i x bs)).foldl (fun acc y =>
        if y.1.getLsbD 31 then writeSpecial x.type y.1 y.2 acc else writeRecord y.1.toNat y.2 acc) s)) = true ∧
      legsGood (((recordsOf (plainBytes s s.ld.data i x bs)).foldl (fun acc y =>
        if y.1.getLsbD 31 then writeSpecial x.type y.1 y.2 acc else writeRecord y.1.toNat y.2 acc) s)) = true) →
    Completes .loadWrite s fun t =>
      let w := (recordsOf (plainBytes s s.ld.data i x bs)).foldl (fun acc y =>
        if y.1.getLsbD 31 then writeSpecial x.type y.1 y.2 acc else writeRecord y.1.toNat y.2 acc) s
      t.ld = { w.ld with written := s.ld.written ++ [i] } ∧ keepsRegs [R.ldStatus, R.glbSchedStatus] w t ∧
      t.clusters = w.clusters ∧ t.banks = w.banks ∧ t.net = w.net ∧
      (x.type = 2 → bits t R.glbSchedStatus 8 6 = validLegs w) ∧
      (x.type ≠ 2 → reg t R.glbSchedStatus = reg w R.glbSchedStatus)) ∧
  (∀ (s : State) (i : Nat) (x : Descriptor) (bs : List Byte), ldState s = 4 → rlState s = 0 → nextWrite s = some (i, x) →
    find s.ld.good i = some bs → x.type ∈ [2, 3, 4, 5, 6, 8, 9] →
    (x.type = 3 → firmwareRuns s = true) → childLinks s = [] → s.ld.reports = [] → ldMode s = 0 → traceOn s = false →
    ((plainBytes s s.ld.data i x bs).length % 8 ≠ 0 ∨ ((recordsOf (plainBytes s s.ld.data i x bs)).all fun y =>
      recordGood x.type (reachOfMask x.reach) s.ld.units s.ld.contract y) = false) →
    Completes .loadWrite s fun t =>
      ldState t = 8 ∧ bits t R.ldStatus 16 8 = 0x0F ∧ bit t R.ldStatus 26 = true) ∧
  (∀ (c : Instr) (s : State), (c = .enterHold ∨ c = .milestone) → ldState s = 3 → s.ld.held = false →
    atMilestonePoint s = true →
    Completes c s fun t =>
      allHold t = true ∧ t.sched.run = .notStarted ∧ t.ld.held = true ∧ t.rl = {} ∧
      (∀ i, i < 128 → bit t (R.wfNiCtrl i) 0 = true) ∧
      t.hb.store = [] ∧ t.hb.ready = [] ∧ t.hb.parked = [] ∧ t.hb.actions = [] ∧ t.hb.notifies = [] ∧
      (∀ l, l < 4 → (delayList t l).tasks = [] ∧ (delayList t l).going = 0) ∧
      (s.sched.hazardFirst = [] → ∀ n, n < 128 → clu t n = heldCluster (clu s n)))

/-- Start, release stages and the scrubber. START or LD_CTRL.start after a good load starts every valid and powered
reach at ec 0, stage 0 (log entry 80), with all 32 swell flags of every cluster set. RELEASE_STEP asks for the next
stage in manual release, else it sets wr_locked. SCRUB_READ adds one word to the CRC-64 of its cluster;
SCRUB_PASS_END compares with the golden value and raises SCRUB_MISMATCH on a difference. (Rests on
spec/10_loading_release_reload.md) -/
def Obligations.StartAndScrub : Prop :=
  (∀ (s : State) (c : Instr), ldState s = 6 → childLinks s = [] →
    (c = .start ∨ (c = .loadStart ∧ ldMode s = 0 ∧ bit s R.ldStatus 26 = true ∧ bits s R.ldStatus 16 8 = 0)) →
    Completes c s fun t =>
      ldState t = 7 ∧ t.sched.run = .running ∧ t.sched.ec = 0 ∧ t.sched.phase = .deciding 0 ∧ t.sched.stage = 0 ∧
      (∀ r, r < 16 → inHold t r = (inHold s r && !(reachValid s r && reachPowered s r)) ∧
        reachValid t r = reachValid s r) ∧
      (∀ n, n < 128 → reachValid s (n / 8) = true → reachPowered s (n / 8) = true →
        (clu t n).walk = .transition 0 ∧ (clu t n).swell = BitVec.allOnes 32 ∧ (clu t n).cur = (clu s n).cur) ∧
      (∀ n, n < 128 → (reachValid s (n / 8) = false ∨ reachPowered s (n / 8) = false) →
        clu t n = { clu s n with swell := BitVec.allOnes 32 })) ∧
  (∀ s, bit s R.ldRelCfg 31 = true → s.sched.run ≠ .notStarted → s.sched.stage + s.sched.stageReqs < 3 →
    exec .releaseStep s = .next { s with sched := { s.sched with stageReqs := s.sched.stageReqs + 1 } }) ∧
  (∀ s, ¬ (bit s R.ldRelCfg 31 = true ∧ s.sched.run ≠ .notStarted ∧ s.sched.stage + s.sched.stageReqs < 3) →
    exec .releaseStep s = .next (setBit s R.ldStatus 25 true)) ∧
  (∀ (n : Fin 128) (s : State), scrubs s n = true → look (fun _ => 0) s.ld.scrubPos n < 787456 →
    Completes (.scrubRead n) s fun t =>
      let p := look (fun _ => 0) s.ld.scrubPos n
      look (fun _ => 0) t.ld.scrubPos n = p + 1 ∧
      dword t.ld.scrubCrc n = BitVec.ofNat 64 (crcMsb 64 0x42F0E1EBA9EA3693 (dword s.ld.scrubCrc n).toNat
        ((List.range 8).map fun i => scrubByte (clu s n) (8 * p + i))) ∧
      (∀ k, k ≠ n.val → look (fun _ => 0) t.ld.scrubPos k = look (fun _ => 0) s.ld.scrubPos k) ∧
      t = { s with ld := t.ld }) ∧
  (∀ (n : Fin 128) (s : State), scrubs s n = true → look (fun _ => 0) s.ld.scrubPos n = 787456 →
    dword s.ld.scrubCrc n = dword s.ld.golden n →
    Completes (.scrubPassEnd n) s fun t =>
      look (fun _ => 0) t.ld.scrubPos n = 0 ∧ dword t.ld.scrubCrc n = 0 ∧ dword t.ld.scrubSig n = dword s.ld.scrubCrc n ∧
      t.flt = s.flt ∧ t.regs = s.regs) ∧
  (∀ (n : Fin 128) (s : State), scrubs s n = true → look (fun _ => 0) s.ld.scrubPos n = 787456 →
    dword s.ld.scrubCrc n ≠ dword s.ld.golden n →
    Completes (.scrubPassEnd n) s fun t =>
      look (fun _ => 0) t.ld.scrubPos n = 0 ∧ dword t.ld.scrubSig n = dword s.ld.scrubCrc n ∧
      bit t R.ldScrubStatus (n / 8) = true ∧ t.flt.signals = s.flt.signals ++ [⟨n / 8, n, false⟩] ∧
      keepsRegs [R.ldScrubStatus] s t)

/-- The phases of a reach reload. RELOAD_GO begins a permitted reload, and takes the reach of a frozen design out of the
run at once, or sets wr_locked, in STOPPED as well (log entry 24, DEDUCED); RELOAD_LEAVE_RUN takes the reach out at
the milestone point of a running design or of a frozen one, under its breakwater cells; RELOAD_RECEIVING puts it
into HOLD; RELOAD_ABORT fails with code 0x17, before the reach has left the run (log entry 77, the model's choice),
after it and in HOLD. RELOAD_CHECKED, SLOT_PLAN, RELOAD_READY and RELOAD_JOIN finish it. BREAKWATER_LAUNCH sends the
constant of a latched buffer once an ec. (Rests on spec/10_loading_release_reload.md; spec/05_timing_contract.md) -/
def Obligations.ReloadPhases : Prop :=
  (∀ s, reloadMayGo s = true → s.sched.run = .running →
    Completes .reloadGo s fun t =>
      rlState t = 1 ∧ bits t R.ldReloadStatus 16 8 = 0 ∧ t.rl = { leaving := true, cells := s.rl.cells } ∧
      t.sched = s.sched ∧ keepsRegs [R.ldReloadStatus, R.ldReloadFree] s t) ∧
  (∀ s, reloadMayGo s = false → exec .reloadGo s = .next (setBit s R.ldReloadStatus 27 true)) ∧
  (∀ s, s.rl.leaving = true → (s.sched.run = .frozen ∨ atMilestonePoint s = true) →
    Completes .reloadLeaveRun s fun t =>
      t.rl.left = true ∧ t.rl.leaving = false ∧ (find t.rl.cells (rlReach s)).isSome = true ∧
      (∀ k, k < 8 → bit t (R.wfNiCtrl (8 * rlReach s + k)) 0 = true) ∧ t.clusters = s.clusters) ∧
  (∀ s, rlState s = 1 → s.rl.left = true → s.rl.data = [] → s.rl.window = [] → s.rl.tableOk = false →
    (∀ k, k < 8 → bit s (R.wfNiStatus (8 * rlReach s + k)) 31 = true) →
    Completes .reloadReceiving s fun t =>
      rlState t = 2 ∧ t.rl.left = false ∧ inHold t (rlReach s) = true ∧ reachValid t (rlReach s) = false ∧
      (∀ k, k < 16 → bankPresent s (16 * rlReach s + k) = true → designMem t (16 * rlReach s + k) = zeroContents) ∧
      (∀ b, b / 16 ≠ rlReach s → designMem t b = designMem s b)) ∧
  (∀ s, reloadInProgress s = true → s.rl.left = false → inHold s (rlReach s) = false →
    Completes .reloadAbort s fun t =>
      rlState t = 5 ∧ bits t R.ldReloadStatus 16 8 = 0x17 ∧ (find t.rl.cells (rlReach s)).isSome = true ∧
      t.rl = { cells := t.rl.cells } ∧ inHold t (rlReach s) = true ∧ reachValid t (rlReach s) = false ∧
      causeBit t 34 = true ∧ bits t R.ldReloadFree 0 13 = 4096) ∧
  (∀ s, reloadInProgress s = true → inHold s (rlReach s) = true →
    Completes .reloadAbort s fun t =>
      rlState t = 5 ∧ bits t R.ldReloadStatus 16 8 = 0x17 ∧ t.rl = { cells := s.rl.cells } ∧
      inHold t (rlReach s) = true ∧ reachValid t (rlReach s) = false ∧ causeBit t 34 = true ∧
      bits t R.ldReloadFree 0 13 = 4096 ∧
      (∀ n, n < 128 → clu t n = if n / 8 = rlReach s ∧ reachValid s (rlReach s) = true
        then { clu s n with pending := [] } else clu s n)) ∧
  (∀ s, reloadMayGo s = true → s.sched.run = .frozen →
    Completes .reloadGo s fun t =>
      rlState t = 1 ∧ bits t R.ldReloadStatus 16 8 = 0 ∧ t.rl.left = true ∧ t.rl.leaving = false ∧
      (find t.rl.cells (rlReach s)).isSome = true ∧
      (∀ k, k < 8 → bit t (R.wfNiCtrl (8 * rlReach s + k)) 0 = true) ∧ t.sched = s.sched ∧ t.clusters = s.clusters ∧
      keepsRegs ([R.ldReloadStatus, R.ldReloadFree] ++ (List.range 8).map fun k => R.wfNiCtrl (8 * rlReach s + k)) s t) ∧
  (∀ s, reloadInProgress s = true → s.rl.left = true → inHold s (rlReach s) = false →
    Completes .reloadAbort s fun t =>
      rlState t = 5 ∧ bits t R.ldReloadStatus 16 8 = 0x17 ∧ t.rl = { cells := s.rl.cells } ∧
      inHold t (rlReach s) = true ∧ reachValid t (rlReach s) = false ∧ causeBit t 34 = true ∧
      bits t R.ldReloadFree 0 13 = 4096 ∧
      (∀ k, k < 8 → clu t (8 * rlReach s + k) = heldCluster (clu s (8 * rlReach s + k)))) ∧
  (∀ s, rlState s = 3 → s.rl.checked = false →
    postCode s (dirUnits s.rl.data (ownOrdinal s)) (clustersOf [rlReach s])
      (clustersOf ((List.range 16).filter fun q => reachValid s q || q == rlReach s)) (some (rlReach s)) = 0 →
    Completes .reloadChecked s fun t =>
      t.rl.checked = true ∧ rlState t = 3 ∧
      t.rl.anchors = anchorBits s ∧
      t.clusters = s.clusters ∧ t.banks = s.banks) ∧
  (∀ s, firmwareRuns s = true → rlState s = 3 → s.rl.checked = true → bit s R.wfSlotCtrl 0 = false →
    [4, 5, 6].contains (ldState s) = false →
    Completes .slotPlan s fun t => t.rl.planned = true ∧ t.clusters = s.clusters ∧ t.net = s.net) ∧
  (∀ s, rlState s = 3 → s.rl.checked = true → s.rl.planned = true → bit s R.wfSlotCtrl 0 = true →
    Completes .reloadReady s fun t =>
      rlState t = 4 ∧ causeBit t 34 = true ∧ t.rl = s.rl ∧ t.clusters = s.clusters) ∧
  (∀ s, reloadInProgress s = true →
    Completes .reloadJoin s fun t =>
      t.rl = { s.rl with joinReq := true } ∧ rlState t = rlState s ∧ t.sched = s.sched ∧ t.clusters = s.clusters) ∧
  (∀ (n : Fin 128) (w : Fin 32) (s : State) (b : Breakwater) (x : LatchedBuffer), latchedBuffer s n w = some (b, x) →
    s.sched.run = .running → latchedLegRan s x = true → (n.val, w.val) ∉ b.launched → bit s (R.ldBwCfg (x.cluster / 8)) 31 = true →
    (x.route.getD 0 0).getLsbD 31 = true → bitsOf (x.route.getD 0 0) 29 2 = 0 → bitsOf (x.route.getD 0 0) 16 8 ≤ 147 →
    Completes (.breakwaterLaunch n w) s fun t =>
      ((ni t n).sourceHold.map fun h => h.packet.payload) = ((ni s n).sourceHold.map fun h => h.packet.payload) ++
        [[ofHalves (reg s (R.ldBwConstLo (x.cluster / 8))) (reg s (R.ldBwConstHi (x.cluster / 8)))]] ∧
      find t.rl.cells (n / 8) = some { b with launched := (n.val, w.val) :: b.launched } ∧ t.regs = s.regs)

/-- The reload window and its feed. RELOAD_WINDOW_WRITE of the selected source adds four bytes and shrinks
LD_RELOAD_FREE; of another source, or when the window is full, it counts and raises RELOAD_OVERRUN (235), but a word
of Harbour waits for room. In reload state 2 the bytes go on into the stream at once, and a stream without its whole
header waits for more. RELOAD_END of a stream without a whole header fails with code 0x16. RELOAD_FEED fetches a
range of a service bank word by word and writes each by a request to endpoint 155, which the window takes in order
(log entry 75). (Rests on spec/10_loading_release_reload.md; spec/09_harbour.md) -/
def Obligations.ReloadStream : Prop :=
  (∀ (src : Fin 3) (v : Word) (s : State), (src.val = 0 → partyActs s .host = true) →
    (src.val = 1 → partyActs s .lighthouse = true) → rlSource s = src → rlState s = 1 →
    s.rl.window.length + 4 ≤ 4096 →
    Completes (.reloadWindowWrite src v) s fun t =>
      t.rl = { s.rl with window := s.rl.window ++ bytesLE 4 v.toNat } ∧
      bits t R.ldReloadFree 0 13 = 4092 - s.rl.window.length ∧ keepsRegs [R.ldReloadFree] s t ∧ t.flt = s.flt) ∧
  (∀ (src : Fin 3) (v : Word) (s : State), (src.val = 0 → partyActs s .host = true) →
    (src.val = 1 → partyActs s .lighthouse = true) → rlSource s ≠ src →
    Completes (.reloadWindowWrite src v) s fun t =>
      t.rl = s.rl ∧ bits t R.ldReloadFree 16 16 = min (bits s R.ldReloadFree 16 16 + 1) 65535 ∧
      t.flt.signals = s.flt.signals ++ [⟨235, src, false⟩] ∧ keepsRegs [R.ldReloadFree] s t) ∧
  (∀ s, windowTakes s = true → headerHere (s.rl.data ++ s.rl.window) = false → s.rl.left = false →
    inHold s (rlReach s) = false →
    Completes .reloadEnd s fun t =>
      rlState t = 5 ∧ bits t R.ldReloadStatus 16 8 = 0x16 ∧ causeBit t 34 = true ∧
      (find t.rl.cells (rlReach s)).isSome = true ∧ inHold t (rlReach s) = true) ∧
  (∀ (s : State) (x : HbAction), windowRequest s = none → s.hb.actions = [x] → x.action = 3 → x.phase = .waiting →
    rangeStatus s false (slotValue x.task 0) (slotValue x.task 1) = 0 →
    exec .reloadFeed s = .next { s with hb := { s.hb with
      actions := [{ x with phase := if rlSource s = 2 then .moving 0 else .ended 5 }] } }) ∧
  (∀ (s : State) (x : HbAction) (k b o : Nat), windowRequest s = none → s.hb.actions = [x] → x.action = 3 →
    x.phase = .moving k → k < moveWords x → hbRange (slotValue x.task 0 + 8 * k) = .service b o →
    exec .reloadFeed s = .next { s with hb := { s.hb with
      actions := [{ x with phase := .holding k (readDWord (serviceMem s b) o) }] } }) ∧
  (∀ (s : State) (x : HbAction) (k g : Nat) (w : DWord), windowRequest s = none → s.hb.actions = [x] → x.action = 3 →
    x.phase = .holding k w → hbTag s = some g → routeValid s 134 155 = true →
    Completes .reloadFeed s fun t =>
      t.hb = { s.hb with actions := [{ x with phase := .writing k g }] } ∧
      (ni t 134).outstanding = (ni s 134).outstanding ++ [⟨g, 155, none, 1⟩] ∧ t.rl = s.rl) ∧
  (∀ (s : State) (p : Packet), windowRequest s = some p → rlSource s = 2 → rlState s = 1 →
    Completes .reloadFeed s fun t =>
      t.rl.window = s.rl.window ++
        ((p.payload.drop 1).take (2 ^ bitsOf (p.payload.headD 0) 60 2)).flatMap (fun w => bytesLE 8 w.toNat) ∧
      (ni t 135).requests = (ni s 135).requests.erase p ∧ t.hb = s.hb ∧ t.flt = s.flt) ∧
  (∀ (src : Fin 3) (v : Word) (s : State), (src.val = 0 → partyActs s .host = true) →
    (src.val = 1 → partyActs s .lighthouse = true) → rlSource s = src → windowTakes s = true → src.val ≠ 2 →
    4096 < s.rl.window.length + 4 →
    Completes (.reloadWindowWrite src v) s fun t =>
      t.rl = s.rl ∧ bits t R.ldReloadFree 16 16 = min (bits s R.ldReloadFree 16 16 + 1) 65535 ∧
      t.flt.signals = s.flt.signals ++ [⟨235, src, false⟩] ∧ keepsRegs [R.ldReloadFree] s t) ∧
  (∀ (v : Word) (s : State), rlSource s = 2 → windowTakes s = true → 4096 < s.rl.window.length + 4 →
    exec (.reloadWindowWrite 2 v) s = .next s) ∧
  (∀ (src : Fin 3) (v : Word) (s : State), (src.val = 0 → partyActs s .host = true) →
    (src.val = 1 → partyActs s .lighthouse = true) → rlSource s = src → rlState s = 2 →
    s.rl.window.length + 4 ≤ 4096 → s.rl.tableOk = false →
    headerHere (s.rl.data ++ (s.rl.window ++ bytesLE 4 v.toNat)) = false →
    Completes (.reloadWindowWrite src v) s fun t =>
      t.rl = { s.rl with data := s.rl.data ++ (s.rl.window ++ bytesLE 4 v.toNat), window := [] } ∧
      bits t R.ldReloadFree 0 13 = 4096 ∧ keepsRegs [R.ldReloadFree] s t ∧ t.flt = s.flt)

/-- FREEZE, RUN, STEP, STOP and FREEZE_AT. FREEZE asks for a freeze at the next milestone; RUN and STEP of a frozen
design continue it, and at the milestone whose token a hold marker replaced they send the token, while a hold marker
for an ec still to come stays; STOP stops it at once and keeps the ec, within the milestone sequence at its end;
each in a state that does not allow it sets cmd_refused. FREEZE_AT takes both halves of its ec; one that has passed
freezes at the next milestone and sets the late flag. (Rests on spec/11_observing_steering.md) -/
def Obligations.RunCommands : Prop :=
  (∀ s, s.sched.run = .running →
    exec .freeze s = .next { s with sched := { s.sched with
      freezeReq := true, freezeCause := withBit s.sched.freezeCause 0 true } }) ∧
  (∀ (s : State) (c : Instr), designFrozen s = true → s.sched.held = none →
    (c = .run ∨ (c = .step ∧ s.sched.run = .frozen)) →
    Completes c s fun t =>
      t.sched = { s.sched with run := .running
                               stepsLeft := if c = .run then none else some (max 1 (reg s R.trgStepCount).toNat) } ∧
      bits t R.trgRunStatus 0 9 = 0 ∧ bit t R.acqStatus 25 = false ∧ keepsRegs [R.trgRunStatus, R.acqStatus] s t ∧
      t.clusters = s.clusters) ∧
  (∀ s, s.sched.run = .running → s.sched.inSequence = true →
    exec .stop s = .next { s with sched := { s.sched with stopMet := some 6 } }) ∧
  (∀ s, s.sched.run = .running → s.sched.inSequence = false →
    Completes .stop s fun t =>
      t.sched.run = (if s.sched.phase = .milestone then .frozen else .stopped) ∧ t.sched.stepsLeft = none ∧
      t.sched.held = some s.sched.ec.toNat ∧ t.sched.phase = s.sched.phase ∧ bit t R.trgRunStatus 6 = true ∧
      causeBit t 33 = true ∧ t.clusters = s.clusters) ∧
  (∀ s : State, (s.sched.run ≠ .running → exec .freeze s = .next (setBit s R.trgRunStatus 29 true) ∧
      exec .stop s = .next (setBit s R.trgRunStatus 29 true)) ∧
    (designFrozen s = false → exec .run s = .next (setBit s R.trgRunStatus 29 true)) ∧
    (s.sched.run ≠ .frozen → exec .step s = .next (setBit s R.trgRunStatus 29 true))) ∧
  (∀ (v : Word) (s : State), v.getLsbD 31 = true →
    bitsOf v 0 16 * 2 ^ 32 + (reg s R.trgFreezeAtLo).toNat < s.sched.ec.toNat % 2 ^ 48 →
    Completes (.freezeAt v) s fun t =>
      t.sched = { s.sched with freezeReq := true
                               freezeCause := withBit s.sched.freezeCause 1 true
                               freezeLow := reg s R.trgFreezeAtLo } ∧
      bit t R.trgFreezeAtHi 30 = true ∧ bit t R.trgFreezeAtHi 31 = true ∧ bits t R.trgFreezeAtHi 0 16 = bitsOf v 0 16 ∧
      keepsRegs [R.trgFreezeAtHi] s t) ∧
  (∀ (v : Word) (s : State),
    (v.getLsbD 31 = false ∨ s.sched.ec.toNat % 2 ^ 48 ≤ bitsOf v 0 16 * 2 ^ 32 + (reg s R.trgFreezeAtLo).toNat) →
    Completes (.freezeAt v) s fun t =>
      bit t R.trgFreezeAtHi 31 = v.getLsbD 31 ∧ bits t R.trgFreezeAtHi 0 16 = bitsOf v 0 16 ∧
      keepsRegs [R.trgFreezeAtHi] s t ∧
      t = { s with regs := t.regs, sched := { s.sched with freezeLow := reg s R.trgFreezeAtLo } }) ∧
  (∀ (s : State) (e : Nat) (c : Instr), designFrozen s = true → s.sched.held = some e → s.sched.phase = .milestone →
    e + 1 = s.sched.ec.toNat → (c = .run ∨ (c = .step ∧ s.sched.run = .frozen)) →
    Completes c s fun t =>
      t.sched = { s.sched with run := .running
                               stepsLeft := if c = .run then none else some (max 1 (reg s R.trgStepCount).toNat)
                               held := none } ∧
      (∀ l ∈ msLinks s, (link t l).lastTokenOut = some (false, e % 256) ∧
        ∀ a ∈ linkLanes s l, (false, e % 256) ∈ (lane t a).tokenDue) ∧
      (∀ l, l ∉ msLinks s → link t l = link s l) ∧
      bits t R.trgRunStatus 0 9 = 0 ∧ bit t R.acqStatus 25 = false ∧ keepsRegs [R.trgRunStatus, R.acqStatus] s t ∧
      t.clusters = s.clusters) ∧
  (∀ (s : State) (e : Nat) (c : Instr), designFrozen s = true → s.sched.held = some e →
    (s.sched.phase ≠ .milestone ∨ e + 1 ≠ s.sched.ec.toNat) → (c = .run ∨ (c = .step ∧ s.sched.run = .frozen)) →
    Completes c s fun t =>
      t.sched = { s.sched with run := .running
                               stepsLeft := if c = .run then none else some (max 1 (reg s R.trgStepCount).toNat) } ∧
      t.cw = s.cw ∧ bits t R.trgRunStatus 0 9 = 0 ∧ bit t R.acqStatus 25 = false ∧
      keepsRegs [R.trgRunStatus, R.acqStatus] s t ∧ t.clusters = s.clusters)

/-- Trigger and capture commands. ARM starts the trigger and, when enabled and configured, the capture; a refused
capture sets cfg_bad and leaves the trigger idle. DISARM, FORCE_TRIGGER and SEGMENT_REARM set their requests.
ACQ_STOP closes the data. CAPTURE_DRAIN stores one unit in the region, and the last one ends the capture.
PAUSE_RESUME resumes the run that a full FIFO paused, and sends the token of the milestone at which it paused.
(Rests on spec/11_observing_steering.md) -/
def Obligations.TriggerAndCapture : Prop :=
  (∀ s, observationOn s = true → (bit s R.acqCtrl 31 = false ∨ armRefused s = false) →
    Completes .arm s fun t =>
      bit t R.trgStatus 31 = true ∧ bit t R.trgStatus 30 = (preCount s == 0) ∧
      bit t R.acqStatus 31 = bit s R.acqCtrl 31 ∧ bit t R.acqStatus 29 = false ∧ bit t R.acqStatus 25 = bit s R.acqStatus 25 ∧
      reg t R.acqSegDone = 0 ∧ (∀ c, c < 16 → bits t (R.trgChStatus c) 30 2 = 0) ∧ t.acq = { force := s.acq.force } ∧
      (bit s R.acqCtrl 31 = true → ∀ a, a ∈ [R.acqWrLo, R.acqWrHi, R.acqStartLo, R.acqStartHi] → reg t a = 0)) ∧
  (∀ s, observationOn s = true → bit s R.acqCtrl 31 = true → armRefused s = true →
    Completes .arm s fun t =>
      bit t R.trgStatus 31 = false ∧ bit t R.acqStatus 27 = true ∧ bit t R.acqStatus 31 = false ∧ t.acq = { force := s.acq.force }) ∧
  (∀ s, observationOn s = true → capturing s = false →
    exec .disarm s = .next (setBit { s with acq := { s.acq with post := none } } R.trgStatus 31 false)) ∧
  (∀ s, observationOn s = true → exec .forceTrigger s = .next { s with acq := { s.acq with force := true } }) ∧
  (∀ s, exec .segmentRearm s = .next { s with acq := { s.acq with rearm := false } }) ∧
  (∀ s, observationOn s = true → capturing s = true → s.acq.ending = false → segmented s = false →
    Completes .acqStop s fun t =>
      t.acq.ending = true ∧
      (∃ z, t.acq.fifo = s.acq.fifo ++ flushRun s.acq.coder ++ [markerUnit 3 (s.sched.ec.toNat - 1)] ++ List.replicate z 0) ∧
      t.acq.made % 8 = 0 ∧ (∃ r, t.acq.records = s.acq.records ++ [(t.acq.made, 0, r)]) ∧ t.regs = s.regs) ∧
  (∀ s, observationOn s = true → capturing s = true → s.acq.ending = false → segmented s = true → s.acq.segment = none →
    exec .acqStop s = .next { s with acq := { s.acq with ending := true } }) ∧
  (∀ (s : State) (u : DWord), capturing s = true → ddrOn s (dataPlace s).1 = true → ddrReady s (dataPlace s).1 = true →
    s.acq.fifo = [u] → s.acq.records = [] → s.acq.ending = false → 0 < regionUnits s →
    (ddr s (dataPlace s).1).queue = [] →
    Completes .captureDrain s fun t =>
      let c := (dataPlace s).1
      let a := regionBase s (dataPlace s) + 8 * s.acq.drained % (8 * regionUnits s)
      readDWord (ddr t c).mem a = u ∧
      (∀ x, ¬ (a ≤ x ∧ x < a + 8) → readByte (ddr t c).mem x = readByte (ddr s c).mem x) ∧
      t.acq = { s.acq with fifo := [], drained := s.acq.drained + 1, tails := t.acq.tails } ∧ capturing t = true ∧
      reg t R.acqWrLo = BitVec.ofNat 32 (8 * (s.acq.drained + 1) % (8 * regionUnits s))) ∧
  (∀ (s : State), capturing s = true → ddrOn s (dataPlace s).1 = true → ddrReady s (dataPlace s).1 = true →
    s.acq.fifo = [] → s.acq.records = [] → s.acq.ending = true →
    Completes .captureDrain s fun t =>
      t.acq = { s.acq with ending := false, tails := t.acq.tails } ∧ capturing t = false ∧ bit t R.acqStatus 30 = true ∧
      causeBit t 32 = true ∧ t.ddr = s.ddr) ∧
  (∀ s, bit s R.acqStatus 25 = true → fifoFill s < 65536 → s.sched.run = .frozen → bits s R.trgRunStatus 0 9 = 0x100 →
    s.sched.held = none →
    Completes .pauseResume s fun t =>
      t.sched = { s.sched with run := .running, stepsLeft := none } ∧ bits t R.trgRunStatus 0 9 = 0 ∧
      bit t R.acqStatus 25 = false ∧ t.acq = s.acq ∧ t.clusters = s.clusters) ∧
  (∀ (s : State) (e : Nat), bit s R.acqStatus 25 = true → fifoFill s < 65536 → s.sched.run = .frozen →
    bits s R.trgRunStatus 0 9 = 0x100 → s.sched.held = some e → s.sched.phase = .milestone → e + 1 = s.sched.ec.toNat →
    Completes .pauseResume s fun t =>
      t.sched = { s.sched with run := .running, stepsLeft := none, held := none } ∧
      (∀ l ∈ msLinks s, (link t l).lastTokenOut = some (false, e % 256) ∧
        ∀ a ∈ linkLanes s l, (false, e % 256) ∈ (lane t a).tokenDue) ∧
      bits t R.trgRunStatus 0 9 = 0 ∧ bit t R.acqStatus 25 = false ∧ t.acq = s.acq ∧ t.clusters = s.clusters)

/-- The ns counter, its set and its servo reset. TIME_TICK adds the increment to the counter, or takes the value set.
TIME_SET is refused to a slave. SERVO_RESET and a write of TIME_CFG or TIME_SYNC_CFG return the servo to its start
and drop the exchange in progress. (Rests on spec/12_system_time.md) -/
def Obligations.TimeCounter : Prop :=
  (∀ s : State, s.time.setValue = none → s.time.stepBy = none → s.time.incPending = false →
    Completes .timeTick s fun t =>
      t.time = { s.time with now := s.time.now + BitVec.ofNat 96 s.time.increment, ticks := s.time.ticks + 1 } ∧
      keepsRegs [R.lhWdtCount 0, R.lhWdtCount 1] s t ∧ t.sched = s.sched ∧ t.clusters = s.clusters) ∧
  (∀ (s : State) (v : DWord), s.time.setValue = some v → s.time.incPending = false →
    Completes .timeTick s fun t =>
      t.time.now = BitVec.ofNat 96 (v.toNat * 2 ^ 32) ∧ t.time.setValue = none ∧ t.time.increment = s.time.increment) ∧
  (∀ s, timeRole s ≠ 2 →
    exec .timeSet s = .next { s with time := { s.time with setValue := some (reg s R.timeSetHi ++ reg s R.timeSetLo) } }) ∧
  (∀ s, timeRole s = 2 → exec .timeSet s = .next (setBit s R.timeStatus 26 true)) ∧
  (∀ s, Completes .servoReset s fun t =>
    t.time = { s.time with servoI := 0, servoR := 0, count := 0, increment := 2 ^ 34 } ∧ reg t R.timeIncLo = 0 ∧
    reg t R.timeIncHi = 4 ∧ reg t R.timeRate = 0 ∧ bits t R.timeExch 0 8 = 0 ∧ bit t R.timeStatus 31 = false ∧
    bit t R.timeStatus 29 = false ∧
    keepsRegs [R.timeIncLo, R.timeIncHi, R.timeRate, R.timeExch, R.timeStatus] s t) ∧
  (∀ (sync : Bool) (v : Word) (s : State),
    Completes (.timeCfgWrite sync v) s fun t =>
      t.time = { s.time with
        servoI := 0
        servoR := 0
        count := 0
        increment := 2 ^ 34
        exchange := none
        stepBy := none
        syncDue := []
        offsetTick := s.time.ticks } ∧
      (∀ l, l < 20 → (link t l).exchanges = (link s l).exchanges.filter fun x => timeFrameType x == 5) ∧
      reg t (if sync then R.timeSyncCfg else R.timeCfg) =
        reg (writeFields (if sync then R.timeSyncCfg else R.timeCfg) v s) (if sync then R.timeSyncCfg else R.timeCfg) ∧
      keepsRegs [R.timeIncLo, R.timeIncHi, R.timeRate, R.timeExch, R.timeStatus,
        if sync then R.timeSyncCfg else R.timeCfg] s t)

/-- The time exchange between devices. SYNC_SEND that is due sends the next sequence number and sets when the next is
due. A slave keeps the receive stamp of its parent's sync, the stamp of its follow-up, and from the response
computes offset and path. A master answers a request with its stamp. A bad frame counts as lost. A looped link takes
its own oldest frame in place of the command's. TIME_SYNC_LOST raises its fault and sets its flags. (Rests on
spec/12_system_time.md) -/
def Obligations.TimeExchange : Prop :=
  (∀ (l : Fin 20) (s : State), timeMaster s l = true → linkUp s l = true → syncIsDue s l = true →
    Completes (.syncSend l) s fun t =>
      let n := look (fun _ => 0) s.time.sequence l
      link t l = { link s l with exchanges := (link s l).exchanges ++ [.sync n] } ∧
      look (fun _ => 0) t.time.sequence l = (n + 1) % 65536 ∧
      look (fun _ => 0) t.time.syncDue l = timeNs s + syncInterval s ∧ t.regs = s.regs) ∧
  (∀ (l : Fin 20) (f : TimeFrame) (s : State), linkLooped s l = false → timeFrameOk s 0 f = true → timeSlave s l = true →
    s.time.exchange = none →
    exec (.syncReceive l f) s = .next { s with time := { s.time with
      exchange := some { seq := f.sequence, t2 := arrivalStamp s f } } }) ∧
  (∀ (l : Fin 20) (f : TimeFrame) (s : State) (c : Instr), linkLooped s l = false →
    ((c = .syncReceive l f ∧ timeFrameOk s 0 f = false) ∨ (c = .followUpReceive l f ∧ timeFrameOk s 8 f = false) ∨
      (c = .delayReqReceive l f ∧ timeFrameOk s 1 f = false) ∨ (c = .delayRespReceive l f ∧ timeFrameOk s 9 f = false)) →
    Completes c s fun t =>
      bits t R.timeExch 8 8 = min (bits s R.timeExch 8 8 + 1) 255 ∧ keepsRegs [R.timeExch] s t ∧ t.time = s.time) ∧
  (∀ (l : Fin 20) (f : TimeFrame) (s : State) (x : InExchange), linkLooped s l = false → timeFrameOk s 8 f = true → timeSlave s l = true →
    s.time.exchange = some x → x.seq = f.sequence → x.t1 = none →
    Completes (.followUpReceive l f) s fun t =>
      t.time = { s.time with exchange := some { x with t1 := some f.stamp } } ∧
      link t l = { link s l with exchanges := (link s l).exchanges ++ [.delayReq f.sequence] } ∧ t.regs = s.regs) ∧
  (∀ (l : Fin 20) (f : TimeFrame) (s : State), linkLooped s l = false → timeFrameOk s 1 f = true → timeMaster s l = true →
    Completes (.delayReqReceive l f) s fun t =>
      link t l = { link s l with exchanges := (link s l).exchanges ++
        [.delayResp f.sequence (arrivalStamp s f)] } ∧ t.time = s.time ∧ t.regs = s.regs) ∧
  (∀ (l : Fin 20) (f : TimeFrame) (s : State) (x : InExchange) (t1 t3 : Nat), linkLooped s l = false → timeFrameOk s 9 f = true → timeSlave s l = true →
    s.time.exchange = some x → x.t1 = some t1 → x.t3 = some t3 → x.seq = f.sequence →
    bit s R.timeServoCfg 31 = false →
    Completes (.delayRespReceive l f) s fun t =>
      t.time = { s.time with
        lastOffset := ((x.t2 : Int) - t1) - ((f.stamp : Int) - t3)
        lastPath := ((x.t2 : Int) - t1) + ((f.stamp : Int) - t3)
        exchange := none
        offsetTick := s.time.ticks } ∧
      bits t R.timeExch 16 16 = min (bits s R.timeExch 16 16 + 1) 65535 ∧ bit t R.timeStatus 30 = false ∧
      keepsRegs [R.timeOffset, R.timePath, R.timeStatus, R.timeExch] s t) ∧
  (∀ s, timeRole s = 2 → offsetMissing s = true → bit s R.timeStatus 30 = false →
    Completes .timeSyncLost s fun t =>
      bit t R.timeStatus 30 = true ∧ bit t R.timeStatus 27 = true ∧
      t.flt.signals = s.flt.signals ++ [⟨238, timeParent s, false⟩] ∧ keepsRegs [R.timeStatus] s t ∧ t.time = s.time) ∧
  (∀ (l : Fin 20) (f : TimeFrame) (s : State) (c : Instr), linkLooped s l = true → (link s l).rxTimes = [] →
    c ∈ [.syncReceive l f, .followUpReceive l f, .delayReqReceive l f, .delayRespReceive l f] →
    exec c s = .next s) ∧
  (∀ (l : Fin 20) (f : TimeFrame) (s : State) (a : Nat) (g : Frame) (rest : List (Nat × Frame)), linkLooped s l = true →
    (link s l).rxTimes = (a, g) :: rest → g.type = 4 → bitsOf g.payload 0 8 = 0 → timeSlave s l = true →
    bitsOf g.payload 8 8 = bits s R.timeSyncCfg 24 8 → s.time.exchange = none →
    Completes (.syncReceive l f) s fun t =>
      (let u := setLink s l { link s l with rxTimes := rest }
       t.time.exchange =
         some { seq := bitsOf g.payload 16 16, t2 := arrivalStamp u (ownTimeFrame a f.symbols g.payload) }) ∧ (link t l).rxTimes = rest ∧ t.regs = s.regs)

/-- Firmware verification, watchdogs and the events of the cores. BOOT starts verification; FIRMWARE_VERIFIED starts the
cores at the header's entry or rejects with its code, LH_FW_BAD (208) and cause 35. RESTART and a watchdog restart
both cores. Sleep, wake, branches and data accesses of the cores move the pc, the reservations and the branch trace,
and a store ends the other core's reservation of the word through its set or clear address as well; an access that
the map does not take is an exception, whose vector is a free value. The cores' own instructions are not commands
(log entry 21), and a core that wakes while either trace is on emits its SYNC first (log entry 49): the model's
choices. (Rests on spec/13_lighthouse_debug_security.md) -/
def Obligations.LighthouseCores : Prop :=
  (∀ s, (lhState s = 1 ∨ lhState s = 3) →
    Completes .boot s fun t =>
      lhState t = 2 ∧ bit t R.lhStatus 23 = true ∧ keepsRegs [R.lhStatus] s t ∧ t = { s with regs := t.regs }) ∧
  (∀ s, lhState s = 2 → lhHalted s = false → traceOn s = false →
    Completes .firmwareVerified s fun t =>
      lhState t = (if firmwareCode s = 0 then 4 else 3) ∧ bits t R.lhStatus 24 4 = firmwareCode s ∧
      bit t R.lhStatus 23 = (bit s R.lhStatus 23 && decide (firmwareCode s = 0)) ∧ causeBit t 35 = true ∧
      t.flt.signals = s.flt.signals ++ (if firmwareCode s = 0 then [] else [⟨208, firmwareCode s, false⟩]) ∧
      (∀ c, c < 2 → lhCore t c = if firmwareCode s = 0
        then { lhCore s c with pc := BitVec.ofNat 32 (field (imageBytes s 16) 12 4) } else lhCore s c)) ∧
  (∀ (s : State) (c : Nat), lhState s = 2 → lhHalted s = false → firmwareCode s = c → c = 1 ∨ c = 2 ∨ c = 4 →
    Completes .firmwareVerified s fun t =>
      lhState t = 3 ∧ bits t R.lhStatus 24 4 = c ∧ t.flt.signals = s.flt.signals ++ [⟨208, c, false⟩] ∧ t.dbg = s.dbg) ∧
  (∀ (s : State) (c : Fin 2) (i : Instr),
    (i = .restart ∨ (i = .lhWatchdog c ∧ bit s (R.lhWdtCfg c) 31 = true ∧ bits s (R.lhWdtCount c) 0 24 = 0 ∧
      lhHalted s = false)) →
    Completes i s fun t =>
      lhState t = (if bit s R.lhStatus 23 then 2 else lhState s) ∧ bits t R.lhStatus 20 2 = 0 ∧
      bits t R.lhStatus 8 8 = min (bits s R.lhStatus 8 8 + 1) 255 ∧
      (∀ k, k < 2 → reg t (R.lhWdtCfg k) = 0 ∧ reg t (R.lhWdtCount k) = 0 ∧ lhCore t k = { local_ := (lhCore s k).local_ }) ∧
      t.flt.signals = (if i = .restart then s.flt.signals else s.flt.signals ++ [⟨209, c, false⟩]) ∧
      keepsRegs [R.lhStatus, R.lhWdtCfg 0, R.lhWdtCfg 1, R.lhWdtCount 0, R.lhWdtCount 1] s t) ∧
  (∀ (c : Fin 2) (pc : Word) (s : State), coreStill s c = false → traceOn s = false →
    exec (.coreSleep ⟨c, pc⟩) s = .next (setPc c (pc + 4) (setBit s R.lhStatus (20 + c) true))) ∧
  (∀ (c : Fin 2) (s : State), lhHalted s = false → bit s R.lhStatus (20 + c) = true → traceRuns s = false →
    exec (.coreWake c) s = .next (takeInterrupt (setBit s R.lhStatus (20 + c) false))) ∧
  (∀ (c : Fin 2) (s : State), lhHalted s = false → bit s R.lhStatus (20 + c) = true → traceRuns s = true →
    bits s R.trcCtrl 0 2 ≠ 0 →
    exec (.coreWake c) s = .next (emitSync c 1 (takeInterrupt (setBit s R.lhStatus (20 + c) false)))) ∧
  (∀ (c : Fin 2) (pc : Word) (e : Bool) (n : Nat) (a : Word) (s : State), coreStill s c = false → traceOn s = false →
    Completes (.coreBranch ⟨c, pc⟩ e n a) s fun t =>
      lhCore t c = { lhCore s c with pc := a, reserved := if e then none else (lhCore s c).reserved } ∧
      (∀ k, k ≠ c.val → lhCore t k = lhCore s k) ∧ t = { s with dbg := t.dbg, flt := t.flt } ∧
      t.flt = { s.flt with lhInterrupt := s.flt.lhInterrupt && !e }) ∧
  (∀ (c : Fin 2) (pc : Word) (n : Nat) (a : Word) (s : State), coreStill s c = false →
    traceRuns s = true → bit s R.trcCtrl 0 = true → s.trc.synced.contains c.val = true →
    lostPackets s c = 0 → fifoBytes s c ≤ 53 → comparatorHit s 0 c pc = false → comparatorHit s 1 c pc = false →
    Completes (.coreBranch ⟨c, pc⟩ false n a) s fun t =>
      look (fun _ => []) t.trc.fifos c = look (fun _ => []) s.trc.fifos c ++ [packetHeader 2 c 0 :: (varint n ++
        signedVarint (BitVec.ofInt 32 (((a.toNat / 4 : Nat) : Int) - ((look (fun _ => 0) s.trc.lastTarget c / 4 : Nat) : Int))))] ∧
      look (fun _ => 0) t.trc.lastTarget c = a.toNat ∧ t.regs = s.regs) ∧
  (∀ (c : Fin 2) (pc a : Word) (s : State), coreStill s c = false → traceRuns s = false →
    comparatorHit s 0 c pc = false → comparatorHit s 1 c pc = false → accessFaults .loadReserved a.toNat = false →
    Completes (.coreDataAccess ⟨c, pc⟩ .loadReserved a) s fun t =>
      lhCore t c = { lhCore s c with pc := pc + 4, reserved := some (wordPlace s a.toNat) } ∧ (∀ k, k ≠ c.val → lhCore t k = lhCore s k) ∧
      t = { s with dbg := t.dbg }) ∧
  (∀ (c : Fin 2) (pc a : Word) (s : State), coreStill s c = false → traceRuns s = false →
    comparatorHit s 0 c pc = false → comparatorHit s 1 c pc = false → accessFaults .storeConditional a.toNat = false →
    Completes (.coreDataAccess ⟨c, pc⟩ .storeConditional a) s fun t =>
      (lhCore t c).reserved = none ∧ (lhCore t c).pc = pc + 4 ∧ t = { s with dbg := t.dbg } ∧
      ((lhCore s c).reserved = some (wordPlace s a.toNat) → (lhCore s (1 - c)).reserved = some (wordPlace s a.toNat) →
        wordPlace s a.toNat / 2 ^ 26 ≠ 1 → (lhCore t (1 - c)).reserved = none)) ∧
  (∀ (c : Fin 2) (pc a : Word) (s : State), coreStill s c = false → traceRuns s = false →
    comparatorHit s 0 c pc = false → comparatorHit s 1 c pc = false → accessFaults .store a.toNat = false →
    (lhCore s (1 - c)).reserved = some (wordPlace s a.toNat) → wordPlace s a.toNat / 2 ^ 26 ≠ 1 →
    Completes (.coreDataAccess ⟨c, pc⟩ .store a) s fun t =>
      (lhCore t (1 - c)).reserved = none ∧ lhCore t c = { lhCore s c with pc := pc + 4 } ∧ t = { s with dbg := t.dbg }) ∧
  (∀ (c : Fin 2) (pc a : Word) (s : State), coreStill s c = false → traceRuns s = false →
    comparatorHit s 0 c pc = false → comparatorHit s 1 c pc = false → accessFaults .load a.toNat = false →
    Completes (.coreDataAccess ⟨c, pc⟩ .load a) s fun t =>
      lhCore t c = { lhCore s c with pc := pc + 4 } ∧ (∀ k, k ≠ c.val → lhCore t k = lhCore s k) ∧
      t = { s with dbg := t.dbg }) ∧
  (∀ (c : Fin 2) (pc a : Word) (k : DataKind) (s : State), coreStill s c = false → accessFaults k a.toNat = true →
    traceOn s = false →
    Completes (.coreDataAccess ⟨c, pc⟩ k a) s fun t =>
      t.free = s.free + 2 ∧ (lhCore t c).pc = withBits (Config.freeBits 32 s.free) 0 2 0 ∧ (lhCore t c).reserved = none ∧
      t = { s with dbg := t.dbg, flt := t.flt, free := t.free }) ∧
  (∀ (c : Fin 2) (pc : Word) (o : Nat) (s : State), o < 0x400000 → coreStill s c = false → traceRuns s = false →
    comparatorHit s 0 c pc = false → comparatorHit s 1 c pc = false →
    (lhCore s (1 - c)).reserved = some (wordPlace s (0x20000000 + o)) →
    (Completes (.coreDataAccess ⟨c, pc⟩ .store (BitVec.ofNat 32 (0x20400000 + o))) s fun t =>
      (lhCore t (1 - c)).reserved = none) ∧
    (Completes (.coreDataAccess ⟨c, pc⟩ .store (BitVec.ofNat 32 (0x20800000 + o))) s fun t =>
      (lhCore t (1 - c)).reserved = none))

/-- Challenges, sessions and lockouts. GET draws a fresh challenge (a free value, log entry 2) unless locked out. GO
with a good response opens a session of the slot's level, and a session that is open at a higher level holds it (log
entry 104); with a bad one it counts the failure, locks out and raises SEC_AUTH_FAIL (210). The expiries clear their
fields. SESSION_END and SESSION_TIMEOUT close the session and release a halt of a full-level session; that a slow
feed ends with the halt is the model's choice (log entry 53). (Rests on spec/13_lighthouse_debug_security.md) -/
def Obligations.DebugSessions : Prop :=
  (∀ s, bits s R.dbgAuthStatus 0 11 = 0 →
    Completes .get s fun t =>
      bit t R.dbgAuthStatus 31 = true ∧ t.free = s.free + 1 ∧
      (∀ i, i < 8 → reg t (R.dbgAuthChal i) = BitVec.ofNat 32 (bitsOf (Config.freeBits 256 s.free) (32 * i) 32)) ∧
      (∀ b, b < 31 → bit t R.dbgAuthStatus b = bit s R.dbgAuthStatus b) ∧ t.dbg = s.dbg) ∧
  (∀ s, bits s R.dbgAuthStatus 0 11 ≠ 0 → exec .get s = .next (setBits s R.dbgAuthStatus 29 2 3)) ∧
  (∀ (k : Fin 8) (s : State),
    Completes (.go k) s fun t =>
      let g := grantedLevel s k
      let n := min (bits s R.dbgAuthStatus 16 8 + 1) 255
      dbgLevel t = (if g = 0 then dbgLevel s else max g (dbgLevel s)) ∧
      bits t R.dbgStatus 21 3 = (if g = 0 ∨ g < dbgLevel s then bits s R.dbgStatus 21 3 else k.val) ∧
      bits t R.dbgAuthStatus 29 2 = (if g = 0 then 2 else 1) ∧ bit t R.dbgAuthStatus 31 = false ∧
      bits t R.dbgAuthStatus 16 8 = (if g = 0 then n else 0) ∧
      bits t R.dbgAuthStatus 0 11 = (if g = 0 then lockout n else bits s R.dbgAuthStatus 0 11) ∧
      t.flt.signals = s.flt.signals ++ (if g = 0 then [⟨210, k, false⟩] else []) ∧
      keepsRegs [R.dbgAuthCtrl, R.dbgAuthStatus, R.dbgStatus] s t ∧ t.dbg = s.dbg) ∧
  (∀ s, exec .challengeExpiry s = .next (setBit s R.dbgAuthStatus 31 false)) ∧
  (∀ s, exec .lockoutExpiry s = .next (setBits s R.dbgAuthStatus 0 11 0)) ∧
  (∀ (s : State) (c : Instr), (c = .sessionEnd ∨ (c = .sessionTimeout ∧ dbgLevel s ≠ 0)) → traceRuns s = false →
    Completes c s fun t =>
      dbgLevel t = 0 ∧ bit t R.dbgStatus 29 = false ∧ bits t R.dbgStatus 21 3 = 0 ∧ bit t R.dbgSession 30 = false ∧
      lhHalted t = (lhHalted s && dbgLevel s != 2) ∧
      t = { s with regs := t.regs, dbg := { s.dbg with
        feeding := if dbgLevel s = 2 ∧ lhHalted s = true then none else s.dbg.feeding } })

/-- Halting Lighthouse and feeding its cores. HALT of a full-level session asks, HALT_COMPLETE halts both cores and
drops their reservations. Each feed reads or writes one register, the pc, or one local word, and nothing else; while
the cores run, or while another feed executes, it sets feed_err. What the cores hold after a halt (log entry 21) and
how a slow feed waits and ends (log entry 53) are the model's choices. (Rests on
spec/13_lighthouse_debug_security.md) -/
def Obligations.HaltMode : Prop :=
  (∀ s, dbgLevel s = 2 → lhHalted s = false → exec .halt s = .next (setBit s R.dbgStatus 27 true)) ∧
  (∀ s, bit s R.dbgStatus 27 = true →
    Completes .haltComplete s fun t =>
      lhHalted t = true ∧ bit t R.dbgStatus 27 = false ∧ bit t R.lhStatus 22 = true ∧ bits t R.lhStatus 20 2 = 0 ∧
      (∀ c, c < 2 → (lhCore t c).reserved = none) ∧ keepsRegs [R.dbgStatus, R.lhStatus] s t ∧
      t = { s with regs := t.regs, dbg := t.dbg, free := t.free }) ∧
  (∀ (c : Fin 2) (g : Fin 32) (s : State), dbgLevel s = 2 → lhHalted s = true → s.dbg.feeding = none →
    exec (.feedReadRegister c g) s = .next (setReg s R.dbgData (look (fun _ => 0) (lhCore s c).regs g)) ∧
    exec (.feedReadPc c) s = .next (setReg s R.dbgData (lhCore s c).pc) ∧
    exec (.feedCompleteStores c) s = .next s) ∧
  (∀ (c : Fin 2) (g : Fin 32) (s : State), dbgLevel s = 2 → lhHalted s = true → s.dbg.feeding = none →
    Completes (.feedWriteRegister c g) s fun t =>
      look (fun _ => 0) (lhCore t c).regs g = reg s R.dbgData ∧
      (∀ k, k ≠ g.val → look (fun _ => 0) (lhCore t c).regs k = look (fun _ => 0) (lhCore s c).regs k) ∧
      lhCore t c = { lhCore s c with regs := (lhCore t c).regs } ∧ (∀ k, k ≠ c.val → lhCore t k = lhCore s k) ∧
      t = { s with dbg := t.dbg }) ∧
  (∀ (c : Fin 2) (s : State), dbgLevel s = 2 → lhHalted s = true → s.dbg.feeding = none →
    Completes (.feedWritePc c) s fun t =>
      (lhCore t c).pc.toNat = (reg s R.dbgData).toNat / 4 * 4 ∧ lhCore t c = { lhCore s c with pc := (lhCore t c).pc } ∧
      (∀ k, k ≠ c.val → lhCore t k = lhCore s k) ∧ t = { s with dbg := t.dbg }) ∧
  (∀ (c : Fin 2) (inc : Bool) (o : Nat) (s : State), dbgLevel s = 2 → lhHalted s = true → s.dbg.feeding = none →
    lhPlace (feedAddress s) = .local_ o →
    Completes (.feedLoad c inc) s fun t =>
      reg t R.dbgData = readWord (lhCore s c).local_ o ∧
      reg t R.dbgAddr = (if inc then reg s R.dbgAddr + 4 else reg s R.dbgAddr) ∧
      keepsRegs [R.dbgData, R.dbgAddr] s t ∧ t = { s with regs := t.regs }) ∧
  (∀ (c : Fin 2) (inc : Bool) (o : Nat) (s : State), dbgLevel s = 2 → lhHalted s = true → s.dbg.feeding = none →
    lhPlace (feedAddress s) = .local_ o →
    Completes (.feedStore c inc) s fun t =>
      readWord (lhCore t c).local_ o = reg s R.dbgData ∧
      (∀ a, ¬ (o ≤ a ∧ a < o + 4) → readByte (lhCore t c).local_ a = readByte (lhCore s c).local_ a) ∧
      lhCore t c = { lhCore s c with local_ := (lhCore t c).local_ } ∧ (∀ k, k ≠ c.val → lhCore t k = lhCore s k) ∧
      reg t R.dbgAddr = (if inc then reg s R.dbgAddr + 4 else reg s R.dbgAddr) ∧ keepsRegs [R.dbgAddr] s t) ∧
  (∀ (c : Fin 2) (g : Fin 32) (s : State) (i : Instr), dbgLevel s = 2 → lhHalted s = false →
    i ∈ [.feedReadRegister c g, .feedWriteRegister c g, .feedReadPc c, .feedWritePc c, .feedLoad c true, .feedStore c true,
      .feedCompleteStores c] →
    exec i s = .next (setBit s R.dbgStatus 25 true)) ∧
  (∀ (c : Fin 2) (g : Fin 32) (w : Word) (s : State), dbgLevel s = 2 → lhHalted s = true → s.dbg.feeding = some w →
    exec (.feedReadRegister c g) s = .next (if w = feedWord 1 c g false
      then setReg (endFeed s) R.dbgData (look (fun _ => 0) (lhCore s c).regs g) else setBit s R.dbgStatus 25 true))

/-- Life-cycle transitions and key fuses. An accepted LC_TRANSITION begins the fuse write and a refused one sets its
flag, as does a host write without the right that starts nothing. KEY_PROGRAM begins the write of its slot.
FUSE_WRITE_DONE stores the key or the next state, or records the fuse error and raises its fault, whose info word is
a free value (log entry 40, the model's choice). (Rests on spec/13_lighthouse_debug_security.md) -/
def Obligations.FusesAndKeys : Prop :=
  (∀ (f : Bool) (v : Word) (s : State), v.getLsbD 31 = true → transitionAccepted s f v = true → dbgLevel s ≠ 2 →
    Completes (.lcTransition f v) s fun t =>
      t.dbg = { s.dbg with fuse := some (.lifeCycle (bitsOf v 0 3)) } ∧ dbgLevel t = 0 ∧ t.die = s.die) ∧
  (∀ (v : Word) (s : State), v.getLsbD 31 = true → transitionAccepted s false v = false →
    exec (.lcTransition false v) s = .next (setBit s R.dbgStatus 24 true)) ∧
  (∀ (v : Word) (s : State), v.getLsbD 31 = false → hostHas s .lc = false →
    exec (.lcTransition false v) s = .next (setBit s R.dbgStatus 24 true)) ∧
  (∀ (f : Bool) (k : Fin 8) (s : State), keyAllowed s f k = true →
    Completes (.keyProgram f k) s fun t =>
      t.dbg = { s.dbg with keyData := [], fuse := some (.key k (keyBytes s (slotLength k))) } ∧
      bits t R.secKeyCtrl 0 3 = k ∧ t.die = s.die ∧ keepsRegs [R.secKeyCtrl] s t) ∧
  (∀ (s : State) (k : Nat) (bs : List Byte), s.dbg.fuse = some (.key k bs) →
    Completes (.fuseWriteDone ⟨true⟩) s fun t =>
      t.dbg = { s.dbg with fuse := none } ∧ t.die = { s.die with keys := s.die.keys.set k (some bs) } ∧
      bits t R.secKeyCtrl 28 2 = 1 ∧ keepsRegs [R.secKeyCtrl] s t) ∧
  (∀ (s : State) (k : Nat) (bs : List Byte), s.dbg.fuse = some (.key k bs) →
    Completes (.fuseWriteDone ⟨false⟩) s fun t =>
      t.dbg = { s.dbg with fuse := none } ∧ t.die = { s.die with keyErrors := s.die.keyErrors ++ [k] } ∧
      bits t R.secKeyCtrl 28 2 = 3 ∧
      t.flt.signals = s.flt.signals ++ [⟨203, (Config.freeBits 16 s.free).toNat, false⟩]) ∧
  (∀ (s : State) (l : Nat), s.dbg.fuse = some (.lifeCycle l) →
    Completes (.fuseWriteDone ⟨true⟩) s fun t =>
      t.dbg = { s.dbg with fuse := none, nextState := some l } ∧ t.die = s.die ∧ t.regs = s.regs)

/-- Footpath requests, replies and frames. PEEK and BURST_PEEK answer the registers without side effects, POKE writes; a
bad CRC answers status 2, a missing right status 1, a reserved operation status 3, a POKE that does not complete in
time status 5, and it completes after its reply (log entry 52). In BLANK an access opens a full-level session.
FOOTPATH_REPLY sends the oldest reply with its CRC-8. A frame timeout or framing error leaves the state. (Rests on
spec/13_lighthouse_debug_security.md) -/
def Obligations.FootpathRequests : Prop :=
  (∀ (a : Nat) (s : State), dbgLevel s ≠ 0 → mayPeek s a = true → consumes s = false → targetOff s a = false →
    exec (.peek a true) s = .next { s with dbg := { s.dbg with
      replies := s.dbg.replies ++ [⟨0, [readValue .footpath a s], none⟩] } }) ∧
  (∀ (a n : Nat) (s : State), dbgLevel s ≠ 0 → 1 ≤ n → n ≤ 32 → consumes s = false →
    (∀ k, k < n → mayPeek s (a + 4 * k) = true ∧ targetOff s (a + 4 * k) = false) →
    Completes (.burstPeek a n true) s fun t =>
      (∃ ws, t.dbg = { s.dbg with replies := s.dbg.replies ++ [⟨0, ws, none⟩] } ∧ ws.length = n ∧
        ws.headD 0 = readValue .footpath a s) ∧ t = { s with dbg := t.dbg }) ∧
  (∀ (v : Word) (s : State), dbgLevel s ≠ 0 → mayPoke s R.glbMsTokenTimeout = true →
    Completes (.poke R.glbMsTokenTimeout v ⟨true, false⟩) s fun t =>
      reg t R.glbMsTokenTimeout = v ∧ t.dbg = { s.dbg with replies := s.dbg.replies ++ [⟨0, [], none⟩] } ∧
      keepsRegs [R.glbMsTokenTimeout] s t ∧ t.clusters = s.clusters) ∧
  (∀ (a : Nat) (v : Word) (s : State), dbgLevel s ≠ 0 → mayPoke s a = true → pokeStatus s a v = 0 → a ≠ R.dbgFeed →
    exec (.poke a v ⟨true, true⟩) s = .next { s with dbg := { s.dbg with
      replies := s.dbg.replies ++ [⟨5, [], some (a, v)⟩] } }) ∧
  (∀ (a n : Nat) (v : Word) (slow : Bool) (op : Fin 8) (s : State) (i : Instr),
    (i ∈ [.peek a false, .poke a v ⟨false, slow⟩, .burstPeek a n false] ∨ (op.val ∉ [1, 2, 3] ∧ i = .reservedOp op false)) →
    exec i s = .next { s with dbg := { s.dbg with replies := s.dbg.replies ++ [⟨2, [], none⟩] } }) ∧
  (∀ (a : Nat) (v : Word) (slow : Bool) (s : State), dbgLevel s ≠ 0 →
    (mayPeek s a = false → exec (.peek a true) s =
      .next { s with dbg := { s.dbg with replies := s.dbg.replies ++ [⟨1, [], none⟩] } }) ∧
    (mayPoke s a = false → exec (.poke a v ⟨true, slow⟩) s =
      .next { s with dbg := { s.dbg with replies := s.dbg.replies ++ [⟨1, [], none⟩] } })) ∧
  (∀ (op : Fin 8) (s : State), dbgLevel s ≠ 0 → op.val ∉ [1, 2, 3] →
    exec (.reservedOp op true) s = .next { s with dbg := { s.dbg with replies := s.dbg.replies ++ [⟨3, [], none⟩] } }) ∧
  (∀ (a : Nat) (s : State), dbgLevel s = 0 → s.die.lifeCycle = 0 → consumes s = false →
    Completes (.peek a true) s fun t => dbgLevel t = 2 ∧ bits t R.dbgStatus 21 3 = 7) ∧
  (∀ (s : State) (r : Reply) (rest : List Reply), s.dbg.replies = r :: rest → r.late = none →
    Completes .footpathReply s fun t =>
      (∃ f, t.dbg = { s.dbg with replies := rest, sent := s.dbg.sent ++ [f] } ∧
        f.length = 2 + 4 * r.data.length ∧ f.headD 0 = BitVec.ofNat 8 r.status ∧ f.getLast? = some (crc8 f.dropLast)) ∧
      t = { s with dbg := t.dbg }) ∧
  (∀ (s : State) (v : Word) (rest : List Reply),
    s.dbg.replies = ⟨5, [], some (R.glbMsTokenTimeout, v)⟩ :: rest →
    Completes .footpathReply s fun t =>
      reg t R.glbMsTokenTimeout = v ∧ t.dbg.replies = rest ∧ keepsRegs [R.glbMsTokenTimeout] s t ∧
      t.clusters = s.clusters) ∧
  (∀ s, exec .footpathFrameTimeout s = .next s) ∧
  (∀ s, exec .framingError s = .next s)

/-- Trace messages, the trace buffer and its trigger. TRACE_MSG adds one message packet, or is lost and counted when its
FIFO has no room. TRACE_ROOM moves a packet into the buffer at TRC_WR. TRIG starts the post-trigger count. (Rests on
spec/13_lighthouse_debug_security.md) -/
def Obligations.TraceUnit : Prop :=
  (∀ (w : Fin 4) (v : Word) (s : State), (w.val = 0 → partyActs s .host = true) →
    (w.val = 1 ∨ w.val = 2 → lhHalted s = false) → traceRuns s = true →
    bit s R.trcCtrl 2 = true → bit s R.trcCtrl 30 = false → lostPackets s 2 = 0 → fifoBytes s 2 ≤ 55 →
    Completes (.traceMsg w v) s fun t =>
      look (fun _ => []) t.trc.fifos 2 = look (fun _ => []) s.trc.fifos 2 ++
        [packetHeader 4 0 w :: (bytesLE 4 v.toNat ++ bytesLE 4 (timeLow s).toNat)] ∧
      (∀ k, k ≠ 2 → look (fun _ => []) t.trc.fifos k = look (fun _ => []) s.trc.fifos k) ∧ t = { s with trc := t.trc }) ∧
  (∀ (w : Fin 4) (v : Word) (s : State), (w.val = 0 → partyActs s .host = true) →
    (w.val = 1 ∨ w.val = 2 → lhHalted s = false) → traceRuns s = true →
    bit s R.trcCtrl 2 = true → bit s R.trcCtrl 30 = false → 56 ≤ fifoBytes s 2 →
    Completes (.traceMsg w v) s fun t =>
      t.trc = { s.trc with lost := t.trc.lost } ∧
      look (fun _ => 0) t.trc.lost 2 = look (fun _ => 0) s.trc.lost 2 + 1 ∧
      (reg t R.trcLost).toNat = min ((reg s R.trcLost).toNat + 1) (2 ^ 32 - 1) ∧ keepsRegs [R.trcLost] s t) ∧
  (∀ (k : Fin 4) (s : State) (p : List Byte), traceOn s = true → look (fun _ => []) s.trc.fifos k = [p] →
    look (fun _ => 0) s.trc.lost k = 0 → bit s R.trcStatus 29 = false → bits s R.trcWr 0 17 + p.length < 2 ^ 17 →
    s.trc.postLeft = none → (∀ c, c < 2 → look (fun _ => 0) s.trc.sinceSync c + p.length < 4096) →
    Completes (.traceRoom k) s fun t =>
      look (fun _ => []) t.trc.fifos k = [] ∧ readBytes t.trc.buffer (bits s R.trcWr 0 17) p.length = p ∧
      (∀ a, ¬ (bits s R.trcWr 0 17 ≤ a ∧ a < bits s R.trcWr 0 17 + p.length) →
        readByte t.trc.buffer a = readByte s.trc.buffer a) ∧
      bits t R.trcWr 0 17 = bits s R.trcWr 0 17 + p.length ∧ keepsRegs [R.trcWr] s t) ∧
  (∀ s, traceOn s = true → bit s R.trcCtrl 31 = true → bit s R.trcCtrl 30 = false → bits s R.trcCtrl 26 2 = 0 →
    bit s R.trcStatus 30 = false →
    Completes .trig s fun t =>
      bit t R.trcStatus 30 = true ∧ t.trc = { s.trc with postLeft := some (reg s R.trcPost).toNat } ∧
      bit t R.trcStatus 29 = (bit s R.trcStatus 29 || reg s R.trcPost == 0) ∧ keepsRegs [R.trcStatus] s t)

/-- What the fault collector does with a signal, its commands, and the Cairn record. FAULT_EVENT of severity 0 to 2,
injected or not, counts, records first and last, sets the pending bit from severity 2 on, raises its interrupt cause
and queues a Cairn record when its interval allows. Severity 3 asks for a freeze with its cause and sets the cause
bit; severity 4 stops the design; severity 5 also puts the shore into its safe state; severity 6 takes the affected
reach into HOLD, invalid, with the shore safe, and leaves every other reach; severity 7 waits for its reset in a
stopped and safe device. FAULT_INJECT is accepted in MANUFACTURE with the strap and the right, else refused with its
flag, and raises nothing for a unit that is absent or off. SAFE_RELEASE, SEV_LOCK and SEVERITY_7_RESET act as their
rules say. CAIRN_COMMIT writes the oldest record into the next slot and no other, a failed read-back moves to the
next slot once and raises CAIRN_COMMIT_FAIL. ERASE is accepted in MANUFACTURE with its right, else refused with its
flag, and ERASE_DONE leaves a ring whose slot 0 holds the erase record of type 0x08 with sequence 1 and whose other
slots are zero. The order of several signals is the model's choice (log entry 5). (Rests on
spec/14_faults_bist_cairn.md) -/
def Obligations.FaultEvents : Prop :=
  (∀ (s : State) (k i : Nat) (q : Bool), k < 240 → i < 65536 → s.flt.signals = [⟨k, i, q⟩] → appliedSeverity s k ≤ 2 →
    traceOn s = false →
    Completes .faultEvent s fun t =>
      t.flt.signals = [] ∧
      bits t (R.fltCount (k / 2)) (16 * (k % 2)) 16 = min (bits s (R.fltCount (k / 2)) (16 * (k % 2)) 16 + 1) 65535 ∧
      reg t R.fltLastLo = eventWord ⟨k, i, 1, q, appliedSeverity s k⟩ ∧ reg t R.fltLastHi = timeLow s ∧
      bit t R.fltStatus 30 = true ∧
      (bit s R.fltStatus 30 = false → reg t R.fltFirstLo = reg t R.fltLastLo ∧ reg t R.fltFirstHi = timeLow s) ∧
      (bit s R.fltStatus 30 = true → reg t R.fltFirstLo = reg s R.fltFirstLo) ∧
      bit t (R.fltPend (k / 32)) (k % 32) = (bit s (R.fltPend (k / 32)) (k % 32) || decide (appliedSeverity s k = 2)) ∧
      (appliedSeverity s k = 2 → causeBit t (48 + k / 16) = true) ∧
      t.cairn.queue = (if 1 ≤ appliedSeverity s k ∧ mayLog s k = true ∧ s.cairn.queue.length < 16 then
        s.cairn.queue ++ [mkRecord s 1 q k (bytesLE 1 (appliedSeverity s k) ++ bytesLE 1 0 ++ bytesLE 2 i ++
          bytesLE 4 (look (fun _ => 0) s.flt.suppressed k))] else s.cairn.queue) ∧
      t.sched = s.sched ∧ t.flt.safe = s.flt.safe ∧ t.clusters = s.clusters ∧ t.banks = s.banks) ∧
  (∀ (s : State) (k i : Nat) (q : Bool), k < 240 → i < 65536 → s.flt.signals = [⟨k, i, q⟩] → appliedSeverity s k = 5 →
    traceOn s = false → s.sched.run = .running → s.sched.inSequence = false → s.sched.phase ≠ .milestone →
    Completes .faultEvent s fun t =>
      t.sched.run = .stopped ∧ t.flt.safe = true ∧ bit t R.trgRunStatus 7 = true ∧
      bit t (R.fltPend (k / 32)) (k % 32) = true ∧ t.flt.signals = [] ∧ t.clusters = s.clusters) ∧
  (∀ (s : State) (k i : Nat) (q : Bool), k < 240 → i < 65536 → s.flt.signals = [⟨k, i, q⟩] → appliedSeverity s k = 3 →
    traceOn s = false →
    Completes .faultEvent s fun t =>
      t.sched = { s.sched with freezeReq := true, freezeCause := withBit s.sched.freezeCause 5 true } ∧
      reg t R.fltLastLo = eventWord ⟨k, i, 1, q, 3⟩ ∧ bit t (R.fltPend (k / 32)) (k % 32) = true ∧
      causeBit t (48 + k / 16) = true ∧ t.flt.signals = [] ∧ t.flt.safe = s.flt.safe ∧ t.clusters = s.clusters ∧
      t.banks = s.banks) ∧
  (∀ (s : State) (k i : Nat) (q : Bool), k < 240 → i < 65536 → s.flt.signals = [⟨k, i, q⟩] → appliedSeverity s k = 4 →
    traceOn s = false → s.sched.run = .running → s.sched.inSequence = false → s.sched.phase ≠ .milestone →
    Completes .faultEvent s fun t =>
      t.sched.run = .stopped ∧ bit t R.trgRunStatus 7 = true ∧ reg t R.fltLastLo = eventWord ⟨k, i, 1, q, 4⟩ ∧
      bit t (R.fltPend (k / 32)) (k % 32) = true ∧ t.flt.signals = [] ∧ t.flt.safe = s.flt.safe ∧
      t.clusters = s.clusters ∧ t.banks = s.banks) ∧
  (∀ (s : State) (k i r : Nat) (q : Bool), k < 240 → i < 65536 → s.flt.signals = [⟨k, i, q⟩] → appliedSeverity s k = 6 →
    affectedReaches s k = [r] → r < 16 → traceOn s = false →
    Completes .faultEvent s fun t =>
      t.flt.safe = true ∧ t.flt.signals = [] ∧ inHold t r = true ∧ reachValid t r = false ∧
      (∀ p, p < 16 → p ≠ r → inHold t p = inHold s p ∧ reachValid t p = reachValid s p) ∧
      (∀ n, n / 8 ≠ r → clu t n = clu s n) ∧ t.sched = s.sched ∧ t.flt.sev7Pending = s.flt.sev7Pending ∧
      t.banks = s.banks) ∧
  (∀ (s : State) (k i : Nat) (q : Bool), k < 240 → i < 65536 → s.flt.signals = [⟨k, i, q⟩] → appliedSeverity s k = 7 →
    traceOn s = false → s.sched.run = .running → s.sched.inSequence = false → s.sched.phase ≠ .milestone →
    Completes .faultEvent s fun t =>
      t.flt.sev7Pending = true ∧ t.flt.safe = true ∧ t.sched.run = .stopped ∧ bit t R.trgRunStatus 7 = true ∧
      (∀ r, r < 16 → (affectedReaches s k).contains r = true → inHold t r = true ∧ reachValid t r = false) ∧
      t.banks = s.banks) ∧
  (∀ (f : Bool) (v : Word) (s : State), v.getLsbD 31 = true → s.die.lifeCycle = 1 → s.die.testStrap = true →
    holdsRight s f .te = true → bitsOf v 16 8 < 240 → injectGone s (bitsOf v 16 8) = false →
    Completes (.faultInject f v) s fun t =>
      t.flt = { s.flt with signals := s.flt.signals ++ [⟨bitsOf v 16 8, bitsOf v 0 16, true⟩] } ∧
      bits t R.fltInject 0 24 = bitsOf v 0 24 ∧ keepsRegs [R.fltInject] s t) ∧
  (∀ (f : Bool) (v : Word) (s : State), v.getLsbD 31 = true →
    (s.die.lifeCycle ≠ 1 ∨ s.die.testStrap = false ∨ holdsRight s f .te = false ∨ 240 ≤ bitsOf v 16 8) →
    Completes (.faultInject f v) s fun t =>
      bit t R.fltStatus 28 = true ∧ t.flt = s.flt ∧ keepsRegs [R.fltInject, R.fltStatus] s t) ∧
  (∀ s, (∀ k, k < 240 → pendingSource s k = true → severityOf s k < 5) → s.flt.safe = true →
    exec .safeRelease s = .next { s with flt := { s.flt with safe := false, releasing := true } }) ∧
  (∀ (s : State) (k : Nat), k < 240 → pendingSource s k = true → 5 ≤ severityOf s k →
    exec .safeRelease s = .next (setBit s R.fltStatus 27 true)) ∧
  (∀ s, exec .sevLock s = .next (setBit s R.fltCtrl 31 true)) ∧
  (∀ s, s.flt.sev7Pending = true →
    exec .severity7Reset s = .next (warmReset 4 { s with flt := { s.flt with
      sev7Resets := min 3 (s.flt.sev7Resets + 1), sev7Pending := false } }) ∧
    exec (.warmReset .severity7) s = exec .severity7Reset s) ∧
  (∀ (f : Bool) (v : Word) (s : State), v.getLsbD 31 = true → s.die.lifeCycle = 1 → s.die.testStrap = true →
    holdsRight s f .te = true → bitsOf v 16 8 < 240 → injectGone s (bitsOf v 16 8) = true →
    Completes (.faultInject f v) s fun t =>
      t.flt = s.flt ∧ bits t R.fltInject 0 24 = bitsOf v 0 24 ∧ keepsRegs [R.fltInject] s t) ∧
  (∀ (s : State) (r : CairnRecord) (rest : List CairnRecord), s.cairn.queue = r :: rest → s.cairn.erasing = false →
    Completes (.cairnCommit true) s fun t =>
      t.cairn.queue = rest ∧ t.cairn.newest = nextSlot s ∧ t.cairn.sequence = s.cairn.sequence + 1 ∧
      t.cairn.retrySlot = none ∧ slotBytes t (nextSlot s) = recordBytes (s.cairn.sequence + 1) r ∧
      (∀ k, k ≠ nextSlot s → slotBytes t k = slotBytes s k) ∧ t = { s with cairn := t.cairn }) ∧
  (∀ (s : State) (r : CairnRecord) (rest : List CairnRecord), s.cairn.queue = r :: rest → s.cairn.erasing = false →
    s.cairn.retrySlot = none → nextSlot s < 8192 →
    Completes (.cairnCommit false) s fun t =>
      t.cairn.queue = r :: rest ∧ t.cairn.retrySlot = some ((nextSlot s + 1) % 8192) ∧
      t.cairn.sequence = s.cairn.sequence ∧ bit t R.cairnStatus 27 = true ∧
      t.flt.signals = s.flt.signals ++ [⟨204, nextSlot s, false⟩] ∧ keepsRegs [R.cairnStatus] s t) ∧
  (∀ (f : Bool) (s : State), s.die.lifeCycle = 1 → holdsRight s f .ce = true →
    exec (.erase f) s = .next { s with cairn := { s.cairn with erasing := true } }) ∧
  (∀ (f : Bool) (s : State), (s.die.lifeCycle ≠ 1 ∨ holdsRight s f .ce = false) →
    exec (.erase f) s = .next (setBit s R.cairnStatus 28 true)) ∧
  (∀ s, s.cairn.erasing = true →
    Completes .eraseDone s fun t =>
      t.cairn.erasing = false ∧ t.cairn.sequence = 1 ∧ t.cairn.newest = 0 ∧ t.cairn.valid = 1 ∧ t.cairn.coldResets = 0 ∧
      slotBytes t 0 = recordBytes 1 (mkRecord { s with cairn := { s.cairn with coldResets := 0 } } 8 false 0xFFFF []) ∧
      (∀ k, 1 ≤ k → slotBytes t k = List.replicate 64 0) ∧ t.cairn.queue = s.cairn.queue ∧
      t = { s with cairn := t.cairn })

/-- A frame of a reserved type is acknowledged, discarded and reported. FRAME_RECEIVE of the expected frame of a
reserved type, on a lane in OPER of a link that is up, takes its sequence number as the one to acknowledge and an
acknowledgement becomes due; its payload goes nowhere (no VC0 word, no flit, no load byte, no link control word);
CW_BAD_FRAME (225) is raised with the link. The severity of CW_BAD_FRAME at reset is 2. (R166) -/
def Obligations.ReservedFrame : Prop :=
  (∀ (a : Fin 80) (s : State) (l : Nat) (f : FrameIn), laneState s a = laneOper → linkOfLane s a = some l →
    linkUp s l = true → laneLooped s a = false → f.aborted = false → f.rx.errors = [] → headerOk f.header = true →
    laneGone s (linkBase s l) = false → 6 ≤ bitsOf f.header 4 4 → bitsOf f.header 8 8 = (link s l).expectedSeq →
    Completes (.frameReceive a f) s fun t =>
      ackOf (link t l) = bitsOf f.header 8 8 ∧ (link t l).ackWait.isSome = true ∧
      (link t l).rxVc0 = (link s l).rxVc0 ∧ (link t l).rxFlits = (link s l).rxFlits ∧
      (link t l).rxLoad = (link s l).rxLoad ∧ (link t l).rxControl = (link s l).rxControl ∧
      t.flt.signals = s.flt.signals ++ [⟨225, l, false⟩]) ∧
  (severityOf State.reset 225 = 2)

/-- A software record is queued or refused. CAIRN_WRITE queues a type 0x07 record of the seven words of CAIRN_SW_DATA
and notes its time; when a software record was queued less than 10 ms earlier or the queue of 16 is full, nothing is
queued and CAIRN_STATUS.sw_refused is set. That 10 ms are 2,500,000 edges of the time clock, counted on through a
reset, and that the first record is always accepted are the model's choices (log entry 60, DEDUCED). (Rests on R364;
spec/14_faults_bist_cairn.md) -/
def Obligations.SoftwareCairnRecord : Prop :=
  (∀ s, softwareSpaced s = true → s.cairn.queue.length < 16 →
    Completes .cairnWrite s fun t =>
      t.cairn = { s.cairn with queue := s.cairn.queue ++ [mkRecord s 7 false 0xFFFF
        ((List.range 7).flatMap fun k => bytesLE 4 (reg s (R.cairnSwData k)).toNat)] } ∧
      t.time = { s.time with softwareAt := some s.time.ticks } ∧ t.regs = s.regs) ∧
  (∀ s, (softwareSpaced s = false ∨ 16 ≤ s.cairn.queue.length) →
    exec .cairnWrite s = .next (setBit s R.cairnStatus 29 true))

/-- Built-in self-test and the test engine. BIST_RUN starts BIST in HOLD with a scan of the Cairn slots and counts its
phases; BIST_DONE writes the presence of every unit, of reaches, banks, DDR4 channels, quads, Harbour, observation
and trace, maps the logical clusters that a spare serves to it and every other one to itself, and ends. The
assignment takes the reaches in ascending order, gives each as many of the next good spares as it has failing
clusters, and leaves a reach absent whose failing clusters exceed the spares that are left. A BIST_RUN outside HOLD,
with a valid reach or during a load, and a TEST_ENGINE_GO that may not start, are refused. TEST_ENGINE_GO tests one
cluster whose reach is no longer valid, with the seed of that moment, TEST_ENGINE_DONE gives its signature, which is
uninterpreted (log entry 3). That BIST_RUN counts the phases one by one, that BIST ends at phase 11 (log entry 44)
and that its start asks for the domains of units that were absent so far (log entry 98) are the model's choices.
(Rests on spec/14_faults_bist_cairn.md) -/
def Obligations.SelfTest : Prop :=
  (∀ s, allHold s = true → bits s R.ldReach 0 16 = 0 → loadInProgress s = false → bistRuns s = false →
    Completes .bistRun s fun t =>
      bistRuns t = true ∧ bistPhase t = 0 ∧ reg t R.glbUnitPresent0 = 0 ∧ reg t R.glbUnitPresent1 = 0 ∧
      (∀ d, d < 28 → bit t (R.pwrDomainCtrl d) 31 =
        (bit s (R.pwrDomainCtrl d) 31 || (gradeHas s d && !domainPresent s d))) ∧
      keepsRegs ([R.bistStatus, R.glbUnitPresent0, R.glbUnitPresent1] ++ (List.range 28).map R.pwrDomainCtrl) s t ∧
      t.bist = { s.bist with onRequest := true, restarts := 0 } ∧ t.cairn = (scanSlots s).cairn) ∧
  (∀ s, bistRuns s = true →
    Completes .bistRun s fun t =>
      bistPhase t = min 11 (bistPhase s + 1) ∧ bistRuns t = true ∧ keepsRegs [R.bistStatus] s t) ∧
  (∀ (x : BistResult) (s : State), bistRuns s = true → bistPhase s = 11 →
    Completes (.bistDone x) s fun t =>
      bits t R.bistStatus 28 4 = 2 ∧ bit t R.bistStatus 23 = x.meshFail ∧
      bits t R.bistStatus 16 4 = (assignSpares x).2.1.length % 16 ∧
      (∀ r, r < 16 → reachPresent t r = !(absentReaches x).contains r) ∧
      (∀ b, b < 256 → bankPresent t b = (!x.bankFail.getLsbD b && !(absentReaches x).contains (b / 16))) ∧
      harbourPresent t = (gradeHas s 26 && !x.harbourFail) ∧ causeBit t 35 = true ∧
      (∀ c, c < 4 → ddrPresent t c = (gradeHas s (16 + c) && !x.ddrFail.getLsbD c)) ∧
      (∀ q, q < 20 → quadPresent t q = (gradeQuad s q && !x.quadFail.getLsbD q)) ∧
      observationPresent t = !x.observationFail ∧ tracePresent t = (gradeTrace s && !x.traceFail) ∧
      (∀ k, k < 8 → t.bist.goodSpares.getLsbD k = !x.clusterFail.getLsbD (128 + k)) ∧
      (∀ p ∈ (assignSpares x).2.1, physicalOf t p.1 = 128 + p.2 ∧ logicalOf t (128 + p.2) = some p.1) ∧
      (∀ n, (∀ p ∈ (assignSpares x).2.1, p.1 ≠ n) → physicalOf t n = n) ∧
      (∀ k, k < 8 → (∀ p ∈ (assignSpares x).2.1, p.2 ≠ k) → logicalOf t (128 + k) = none) ∧
      t.bist.svcAbsent = (testedOnly s x).svcFail ∧ t.banks.design = [] ∧ t.banks.march = none) ∧
  (∀ (v : Word) (s : State), v.getLsbD 31 = true → s.pwr.test = none →
    testAllowed (writeFields R.bistTeCtrl v s) true = true →
    Completes (.testEngineGo true v) s fun t =>
      t.pwr = { s.pwr with test := some (bitsOf v 16 8) } ∧ bit t R.bistTeCtrl 30 = true ∧
      t.bist = { s.bist with testSeed := reg s R.bistTeSeed } ∧
      bits t R.bistTeCtrl 0 24 = bitsOf v 0 24 ∧
      (∀ n, logicalOf s (bitsOf v 16 8) = some n → n < 128 → reachValid t (n / 8) = false) ∧
      keepsRegs [R.bistTeCtrl, R.ldReach] s t) ∧
  (∀ (s : State) (p : Nat), s.pwr.test = some p →
    Completes .testEngineDone s fun t =>
      t.pwr = { s.pwr with test := none } ∧ bit t R.bistTeCtrl 30 = false ∧
      (let w := Config.misr p (if bits s R.bistTeCtrl 28 2 = 1 then 1 else 0) s.bist.testSeed.toNat
          (max 1 (bits s R.bistTeCtrl 0 16))
       reg t R.bistTeMisrLo = lowHalf w ∧ reg t R.bistTeMisrHi = highHalf w) ∧
      keepsRegs [R.bistTeCtrl, R.bistTeMisrLo, R.bistTeMisrHi] s t) ∧
  (∀ x : BistResult,
    (assignSpares x).2.1.map (·.1) =
      ((List.range 16).filter fun r => !(assignSpares x).2.2.contains r).flatMap (failingIn x) ∧
    (assignSpares x).2.1.map (·.2) = (goodSpares x).take (assignSpares x).2.1.length ∧
    (∀ r, r < 16 → (r ∈ (assignSpares x).2.2 ↔
      (goodSpares x).length < (((List.range r).filter fun q => !(assignSpares x).2.2.contains q).flatMap
        (failingIn x)).length + (failingIn x r).length))) ∧
  (∀ s : State, bistRuns s = false → (allHold s = false ∨ bits s R.ldReach 0 16 ≠ 0 ∨ loadInProgress s = true) →
    exec .bistRun s = .next (setBit s R.bistStatus 21 true)) ∧
  (∀ (f : Bool) (v : Word) (s : State), v.getLsbD 31 = true → s.pwr.test = none →
    testAllowed (writeFields R.bistTeCtrl v s) f = false →
    exec (.testEngineGo f v) s = .next (setBit (writeFields R.bistTeCtrl v s) R.bistStatus 21 true)) ∧
  (∀ (f : Bool) (v : Word) (s : State) (p : Nat), v.getLsbD 31 = true → s.pwr.test = some p →
    exec (.testEngineGo f v) s = .next (setBit s R.bistStatus 21 true))

/-- Power domain requests, transitions and rail failures. DOMAIN_REQUEST takes a permitted request, clears a failed
state, or sets req_refused. DOMAIN_CLOSE, DOMAIN_DRAIN_DONE and DOMAIN_OFF take a domain down with what it holds;
DOMAIN_OPEN, RAIL_IN_RANGE and DOMAIN_ON bring it up; RAIL_TIMEOUT and RAIL_OUT_OF_RANGE end in the failed state
with PWR_DOMAIN_FAIL. (Rests on spec/15_power_clocks_reset.md) -/
def Obligations.PowerDomains : Prop :=
  (∀ (d : Fin 28) (on : Bool) (s : State), requestRefused s d on = false →
    (on = false ∨ domainWanted s d = true ∨ domainState s d ≠ 4) →
    Completes (.domainRequest d on) s fun t =>
      domainWanted t d = on ∧ domainState t d = domainState s d ∧ keepsRegs [R.pwrDomainCtrl d] s t ∧
      t = { s with regs := t.regs }) ∧
  (∀ (d : Fin 28) (s : State), requestRefused s d true = false → domainWanted s d = false → domainState s d = 4 →
    Completes (.domainRequest d true) s fun t =>
      domainWanted t d = true ∧ domainState t d = 0 ∧ keepsRegs [R.pwrDomainCtrl d, R.pwrDomainStatus d] s t ∧
      t = { s with regs := t.regs }) ∧
  (∀ (d : Fin 28) (on : Bool) (s : State), requestRefused s d on = true →
    exec (.domainRequest d on) s = .next (setBit s (R.pwrDomainStatus d) 27 true)) ∧
  (∀ (r : Fin 16) (s : State), inHold s r = false →
    exec (.domainRequest (r.castLE (by decide)) false) s = .next (setBit s (R.pwrDomainStatus r) 27 true)) ∧
  (∀ (d : Fin 28) (s : State), domainNext s d = true → domainState s d = 2 →
    Completes (.domainClose d) s fun t =>
      domainState t d = 3 ∧ t.pwr = { s.pwr with ready := false } ∧
      (∀ k, k < 28 → k ≠ d.val → domainState t k = domainState s k) ∧
      (d.val = 26 → hbEnabled t = false) ∧ t.ddr = s.ddr ∧
      t.clusters = s.clusters ∧ t.banks = s.banks) ∧
  (∀ (d : Fin 28) (s : State), domainState s d = 3 → s.pwr.ready = false →
    Completes (.domainDrainDone d) s fun t =>
      t.pwr = { s.pwr with ready := true } ∧ domainState t d = 3 ∧ (∀ c, c < 4 → d.val = 16 + c → ddrReady t c = false) ∧
      (∀ b, b < 256 → b / 16 = d → bits s (R.bankCfg b) 28 2 = 0 →
        bits t (R.bankCfg b) 28 2 = if bit s (R.bankCfg b) 25 then 1 else 2) ∧ t.clusters = s.clusters) ∧
  (∀ (d : Fin 28) (s : State), domainState s d = 3 → s.pwr.ready = true →
    Completes (.domainOff d) s fun t =>
      domainState t d = 0 ∧ t.pwr.ready = false ∧ (∀ k, k < 28 → k ≠ d.val → domainState t k = domainState s k) ∧
      (d.val < 16 → reachValid t d = false ∧ ∀ n, n / 8 = d → domainOfCluster s n = d → clu t n = {}) ∧
      (d.val = 26 → t.hb = {}) ∧ (d.val = 25 → t.acq = {})) ∧
  (∀ (d : Fin 28) (s : State), domainNext s d = true → domainState s d = 0 →
    Completes (.domainOpen d) s fun t =>
      domainState t d = 1 ∧ t.pwr = { s.pwr with ready := false } ∧ keepsRegs [R.pwrDomainStatus d] s t ∧
      t.clusters = s.clusters) ∧
  (∀ (d : Fin 28) (s : State), domainState s d = 1 →
    exec (.railInRange d) s = .next { s with pwr := { s.pwr with ready := true } }) ∧
  (∀ (d : Fin 28) (s : State), domainState s d = 1 → s.pwr.ready = true → s.pwr.reopening = false →
    Completes (.domainOn d) s fun t =>
      domainState t d = 2 ∧ domainOn t d = true ∧ t.pwr = { s.pwr with ready := false } ∧
      (∀ k, k < 28 → k ≠ d.val → domainState t k = domainState s k) ∧
      (∀ b, b < 256 → b / 16 = d → bits t (R.bankCfg b) 28 2 = powerRequest s b) ∧ t.clusters = s.clusters) ∧
  (∀ (d : Fin 28) (s : State), domainState s d = 1 → s.pwr.ready = false →
    Completes (.railTimeout d) s fun t =>
      domainState t d = 4 ∧ bit t (R.pwrDomainStatus d) 26 = true ∧
      t.flt.signals = s.flt.signals ++ [⟨160 + d, 1, false⟩] ∧ keepsRegs [R.pwrDomainStatus d, R.lhStatus] s t ∧
      (s.pwr.reopening = false → reg t R.lhStatus = reg s R.lhStatus)) ∧
  (∀ (d : Fin 28) (s : State), domainState s d = 2 → 16 ≤ d.val → d.val ≠ 27 →
    Completes (.railOutOfRange d) s fun t =>
      domainState t d = 4 ∧ bit t (R.pwrDomainStatus d) 26 = true ∧ ⟨160 + d, 2, false⟩ ∈ t.flt.signals ∧
      (d.val = 26 → t.hb = {}) ∧ t.clusters = s.clusters ∧
      (bit s R.acqStatus 25 = false → t.sched = s.sched))

/-- Clock calibration, thermal control, reference clocks and domain commands out of their place. FLL_CALIBRATE counts a
calibration. THERMAL_DECISION moves each reach's divider by one step inside its limits. SENSOR_SAMPLE records,
raises THERMAL_HIGH once until a sample at or below t_high less hyst, trips at 110 degrees, and ends the limit of a
trip when every tripped sensor has cooled, with the settings of the reaches that may change theirs. REFCLK_LOSS of
the system, PCI Express or a Causeway clock sets its flag and raises its fault once, and the lanes of a lost
Causeway clock leave OPER; REFCLK_RETURN clears the flag. A command of a power domain in a state that it does not
belong to changes nothing. That a thermal decision is taken only with a valid sample (log entry 41) and the
discarding of an event out of its place are the model's choices. (Rests on spec/15_power_clocks_reset.md) -/
def Obligations.ClocksAndThermal : Prop :=
  (∀ (i : Fin 144) (s : State), bit s R.pwrClkCfg 30 = false →
    Completes (.fllCalibrate i) s fun t =>
      look (fun _ => 0) t.pwr.calibrations i = look (fun _ => 0) s.pwr.calibrations i + 1 ∧ t.regs = s.regs) ∧
  (∀ s, Completes .thermalDecision s fun t =>
    (∀ r, r < 16 → bit s (R.pwrThermTemp r) 31 = true →
      thermalOf t r = (if tThrottle s ≤ sensorTemp s r ∧ clkMin s r < thermalOf s r then thermalOf s r - 1
        else if sensorTemp s r + tHyst s ≤ tThrottle s ∧ thermalOf s r < clkMax s r then thermalOf s r + 1
        else thermalOf s r)) ∧
    (∀ r, r < 16 → bit s (R.pwrThermTemp r) 31 = false → thermalOf t r = thermalOf s r) ∧
    t.clusters = s.clusters ∧ t.flt = s.flt ∧ t.sched = s.sched) ∧
  (∀ (k : Fin 20) (c : Nat) (s : State), c < tHigh s → c < 110 → k.val ∉ s.pwr.tripped →
    bit s (R.pwrThermTemp k) 30 = false →
    Completes (.sensorSample k c) s fun t =>
      sensorTemp t k = c ∧ bit t (R.pwrThermTemp k) 31 = true ∧
      bits t (R.pwrThermTemp k) 8 8 = max c (bits s (R.pwrThermTemp k) 8 8) ∧ t.flt = s.flt ∧ t.pwr = s.pwr ∧
      keepsRegs [R.pwrThermTemp k] s t) ∧
  (∀ (k : Fin 20) (c : Nat) (s : State), tHigh s ≤ c → c < 110 → k.val ∉ s.pwr.tripped →
    bit s (R.pwrThermTemp k) 30 = false →
    Completes (.sensorSample k c) s fun t =>
      bit t (R.pwrThermTemp k) 30 = true ∧ t.flt.signals = s.flt.signals ++ [⟨140 + k, c, false⟩] ∧
      sensorTemp t k = c ∧ t.pwr = s.pwr) ∧
  (∀ (k : Fin 20) (c : Nat) (s : State), 110 ≤ c → c < 256 → k.val ∉ s.pwr.tripped → bit s (R.pwrThermTemp k) 30 = true →
    tHigh s ≤ c →
    Completes (.sensorSample k c) s fun t =>
      t.pwr = { s.pwr with tripped := k.val :: s.pwr.tripped } ∧
      t.flt.signals = s.flt.signals ++ [⟨200, k, false⟩] ∧ (∀ r, r < 16 → bits t (R.pwrReachClk r) 10 6 = 0)) ∧
  (∀ s, bit s R.pwrClkCfg 30 = false →
    Completes (.refclkLoss .sys) s fun t =>
      bit t R.pwrClkCfg 30 = true ∧ t.flt.signals = s.flt.signals ++ [⟨201, 0, false⟩] ∧
      keepsRegs [R.pwrClkCfg] s t ∧ t.cw = s.cw) ∧
  (∀ (c : RefClock) (s : State), exec (.refclkReturn c) s = .next (setBit s R.pwrClkCfg (clkBit c) false)) ∧
  (∀ s, bit s R.pwrClkCfg 25 = false →
    Completes (.refclkLoss .pcie) s fun t =>
      bit t R.pwrClkCfg 25 = true ∧ t.flt.signals = s.flt.signals ++ [⟨202, 0, false⟩] ∧
      keepsRegs [R.pwrClkCfg] s t ∧ t.cw = s.cw) ∧
  (∀ (k : Fin 4) (s : State), bit s R.pwrClkCfg (26 + k) = false →
    Completes (.refclkLoss (.cw k)) s fun t =>
      bit t R.pwrClkCfg (26 + k) = true ∧ ⟨196 + k, 0, false⟩ ∈ t.flt.signals ∧
      (∀ a, a < 80 → a / 20 = k → laneState t a ≠ laneOper) ∧
      (∀ a, a < 80 → a / 20 ≠ k → linkOfLane s a = none → laneState t a = laneState s a) ∧
      t.clusters = s.clusters ∧ t.banks = s.banks) ∧
  (∀ (c : RefClock) (s : State), bit s R.pwrClkCfg (clkBit c) = true → exec (.refclkLoss c) s = .next s) ∧
  (∀ (k : Fin 20) (c : Nat) (s : State), c < 110 → k.val ∉ s.pwr.tripped →
    Completes (.sensorSample k c) s fun t =>
      bit t (R.pwrThermTemp k) 30 = (if tHigh s ≤ c then true
        else if c + tHyst s ≤ tHigh s then false else bit s (R.pwrThermTemp k) 30) ∧
      t.flt.signals = s.flt.signals ++
        (if tHigh s ≤ c ∧ bit s (R.pwrThermTemp k) 30 = false then [⟨140 + k, c, false⟩] else []) ∧ t.pwr = s.pwr) ∧
  (∀ (k : Fin 20) (c : Nat) (s : State), c + tHyst s ≤ 110 → k.val ∈ s.pwr.tripped →
    Completes (.sensorSample k c) s fun t =>
      t.pwr.tripped = s.pwr.tripped.filter (· ≠ k.val) ∧
      (∀ r, r < 16 → bits t (R.pwrReachClk r) 10 6 =
        if clkFree s r then effectiveClk t r else bits s (R.pwrReachClk r) 10 6) ∧
      (t.pwr.tripped ≠ [] → ∀ r, effectiveClk t r = 0)) ∧
  (∀ (k : Fin 20) (c : Nat) (s : State), 110 < c + tHyst s → k.val ∈ s.pwr.tripped →
    Completes (.sensorSample k c) s fun t =>
      t.pwr = s.pwr ∧ (∀ r, r < 16 → reg t (R.pwrReachClk r) = reg s (R.pwrReachClk r)) ∧
      (∀ e ∈ t.flt.signals, e ∈ s.flt.signals ∨ e.source = 140 + k.val)) ∧
  (∀ (d : Fin 28) (on : Bool) (s : State), s.pwr.reopening = true →
    exec (.domainRequest d on) s = .next (setBit s (R.pwrDomainStatus d) 27 true)) ∧
  (∀ (d : Fin 28) (s : State), (domainNext s d = false ∨ domainState s d ≠ 2) → exec (.domainClose d) s = .next s) ∧
  (∀ (d : Fin 28) (s : State), (domainState s d ≠ 3 ∨ s.pwr.ready = true) → exec (.domainDrainDone d) s = .next s) ∧
  (∀ (d : Fin 28) (s : State), (domainState s d ≠ 3 ∨ s.pwr.ready = false) → exec (.domainOff d) s = .next s) ∧
  (∀ (d : Fin 28) (s : State), (domainNext s d = false ∨ domainState s d ≠ 0) → exec (.domainOpen d) s = .next s) ∧
  (∀ (d : Fin 28) (s : State), domainState s d ≠ 1 → exec (.railInRange d) s = .next s) ∧
  (∀ (d : Fin 28) (s : State), domainState s d = 1 → s.pwr.ready = true → s.pwr.reopening = true → bistRuns s = false →
    Completes (.domainOn d) s fun t =>
      domainState t d = 2 ∧ domainOn t d = true ∧ t.pwr.ready = false ∧
      t.pwr.reopening = ((List.range 28).any fun k => k != d.val && domainState s k != 2 && domainState s k != 4 &&
        domainPresent s k && domainWanted s k) ∧
      bits t R.lhStatus 28 4 = (if t.pwr.reopening = false ∧ bits s R.lhStatus 28 4 = 0 then 1 else bits s R.lhStatus 28 4)) ∧
  (∀ (d : Fin 28) (s : State), (domainState s d ≠ 1 ∨ s.pwr.ready = true) → exec (.railTimeout d) s = .next s) ∧
  (∀ (d : Fin 28) (s : State), domainState s d = 2 →
    Completes (.railOutOfRange d) s fun t =>
      domainState t d = 4 ∧ bit t (R.pwrDomainStatus d) 26 = true ∧ ⟨160 + d, 2, false⟩ ∈ t.flt.signals ∧
      (d.val < 16 → reachValid t d = false))

/-- What a cold reset leaves, and the type and cause that every reset records. A cold reset returns every register but
the reset status, BIST, the lockout and the domain requests to its reset word, empties clusters, mesh, Harbour,
loader and time, samples the straps, takes the life-cycle state that a fuse write prepared, counts itself and queues
its Cairn record of type 0x04. That the failures and the seconds of the lockout stand (log entry 39, DEDUCED), and
that the clock of the software records goes on unless the reset is a power-on (log entry 60, DEDUCED), are the
model's readings. In every state a cold, warm or function-level reset completes with its type and cause in
PWR_RESET_STATUS and an empty run state, and a reach reset with its reach in HOLD and invalid. (Rests on
spec/15_power_clocks_reset.md; spec/14_faults_bist_cairn.md; spec/13_lighthouse_debug_security.md) -/
def Obligations.ColdReset : Prop :=
  (∀ (src : ColdSource) (straps : BitVec 8) (s : State), s.dbg.fuse = none →
    Completes (.coldReset src straps) s fun t =>
      let cause := match src with | .powerOn => 1 | .footpath => 2 | .register => 5
      bits t R.pwrResetStatus 29 3 = 1 ∧ bits t R.pwrResetStatus 26 3 = cause ∧
      (∀ a, a ∉ [R.pwrResetStatus, R.dbgAuthStatus, R.bistStatus] → (∀ d, d < 28 → a ≠ R.pwrDomainCtrl d) →
        reg t a = resetWord a) ∧
      bits t R.dbgAuthStatus 16 8 = bits s R.dbgAuthStatus 16 8 ∧ bits t R.dbgAuthStatus 0 11 = bits s R.dbgAuthStatus 0 11 ∧
      t.clusters = [] ∧ t.sched = {} ∧ t.net = {} ∧ t.hb = {} ∧ t.rl = {} ∧ t.ld = {} ∧ t.flt = {} ∧
      t.time = (if src = .powerOn then {} else { ticks := s.time.ticks, softwareAt := s.time.softwareAt }) ∧
      t.die.straps = straps ∧ t.die.testStrap = straps.getLsbD 1 ∧
      t.die.lifeCycle = s.dbg.nextState.getD s.die.lifeCycle ∧ t.dbg.nextState = none ∧
      t.cairn.coldResets = s.cairn.coldResets + 1 ∧
      (∃ r, t.cairn.queue = [r] ∧ r.kind = 4 ∧ r.payload = [1, BitVec.ofNat 8 cause])) ∧
  (∀ (src : ColdSource) (straps : BitVec 8) (s : State),
    Completes (.coldReset src straps) s fun t =>
      bits t R.pwrResetStatus 29 3 = 1 ∧
      bits t R.pwrResetStatus 26 3 = (match src with | .powerOn => 1 | .footpath => 2 | .register => 5) ∧
      t.sched = {} ∧ t.clusters = [] ∧ t.net = {}) ∧
  (∀ (src : WarmSource) (s : State), (src = .severity7 → s.flt.sev7Pending = true) →
    Completes (.warmReset src) s fun t =>
      bits t R.pwrResetStatus 29 3 = 2 ∧
      bits t R.pwrResetStatus 26 3 = (match src with | .pcie => 3 | .severity7 => 4 | .register => 5) ∧
      t.sched = {} ∧ t.clusters = [] ∧ t.net = {}) ∧
  (∀ s : State,
    Completes .flr s fun t =>
      bits t R.pwrResetStatus 29 3 = 3 ∧ bits t R.pwrResetStatus 26 3 = 3 ∧ t.clusters = [] ∧
      t.sched = { hazardLog := s.sched.hazardLog, freezeLow := s.sched.freezeLow } ∧
      t.net = { activeBank := s.net.activeBank, traceBuf := s.net.traceBuf, traceCount := s.net.traceCount,
                probeHold := s.net.probeHold }) ∧
  (∀ (r : Fin 16) (s : State),
    Completes (.reachReset r) s fun t =>
      inHold t r = true ∧ reachValid t r = false ∧ t.sched = s.sched ∧ t.net = s.net)

/-- What warm, function-level and reach resets leave. A warm reset takes every domain off and keeps fuses, safe values,
presence and service contents as its table says while design banks lose theirs; a safe state that stands holds on,
and one whose release was accepted ends; a THERMAL_TRIP goes on. The clock of the software records goes on through
it (log entry 60, DEDUCED). Which registers and which state a warm and a function-level reset keep, the hazard log,
the freeze count, network and loader state among them, is the model's reading where the manual names none (log entry
42, DEDUCED). A function-level reset keeps time, faults, debug and the probe trace buffer, and stops the time
exchange of a parent link that was up. A reach reset puts the reach into HOLD, invalid, its banks lost and its
breakwater cells acting, and leaves every other reach. (Rests on spec/15_power_clocks_reset.md) -/
def Obligations.OtherResets : Prop :=
  (∀ (src : WarmSource) (s : State), src ≠ .severity7 → s.dbg.fuse = none → s.banks.march = none →
    bit s R.bistCtrl 30 = false → bistRuns s = false →
    Completes (.warmReset src) s fun t =>
      bits t R.pwrResetStatus 29 3 = 2 ∧ bits t R.pwrResetStatus 26 3 = (if src = .pcie then 3 else 5) ∧
      (∀ d, d < 28 → domainState t d = 0) ∧
      t.pwr.reopening = ((List.range 28).any fun d => domainExists t d && domainWanted t d) ∧
      bits t R.lhStatus 28 4 = (if t.pwr.reopening then 0 else 1) ∧
      (∀ i, i < 32 → reg t (R.fltSafe i) = reg s (R.fltSafe i)) ∧
      reg t R.glbUnitPresent0 = reg s R.glbUnitPresent0 ∧ reg t R.glbUnitPresent1 = reg s R.glbUnitPresent1 ∧
      t.clusters = [] ∧ t.sched = {} ∧ t.net = {} ∧ t.hb = {} ∧ t.rl = {} ∧ t.ld = {} ∧ t.die = s.die ∧
      t.pwr.tripped = s.pwr.tripped ∧
      t.time = { ticks := s.time.ticks, softwareAt := s.time.softwareAt } ∧
      t.flt = { safe := s.flt.safe, sev7Resets := s.flt.sev7Resets } ∧
      (∀ b, b < 256 → designMem t b = loseContents (designMem s b)) ∧
      (∀ k, k < 8 → serviceMem t k = serviceMem s k)) ∧
  (∀ s : State, s.banks.march = none → bistRuns s = false →
    Completes .flr s fun t =>
      bits t R.pwrResetStatus 29 3 = 3 ∧ (∀ d, d < 28 → [1, 2, 3].contains (domainState t d) = false) ∧
      t.pwr.reopening = ((List.range 28).any fun d =>
        domainState t d != 4 && domainExists t d && domainWanted t d) ∧
      bits t R.glbPcieStatus 16 8 = 0 ∧ reg t R.glbBar4Win = 0 ∧ reg t R.glbIrqCauseLo = 0 ∧ reg t R.glbIrqCauseHi = 0 ∧
      t.pcie.table = [] ∧ t.pcie.pendingBits = 0 ∧ t.pcie.rising = [] ∧
      (∀ r, r < 16 → inHold t r = inHold State.reset r ∧ reachValid t r = false) ∧
      t.clusters = [] ∧ t.sched = { hazardLog := s.sched.hazardLog, freezeLow := s.sched.freezeLow } ∧
      t.net = { activeBank := s.net.activeBank, traceBuf := s.net.traceBuf, traceCount := s.net.traceCount,
                probeHold := s.net.probeHold } ∧ t.hb = {} ∧ t.pcie.config = {} ∧ t.pcie.aer = s.pcie.aer ∧
      t.ld = { scrubSig := s.ld.scrubSig, scrubPasses := s.ld.scrubPasses, taken := s.ld.taken + streamPlace s } ∧
      t.time = (if timeParent s < 20 ∧ linkUp s (timeParent s) = true then { s.time with exchange := none } else s.time) ∧ ((∀ c, c < 4 → (ddr s c).queue = []) → t.flt = s.flt) ∧ t.die = s.die ∧ t.dbg = s.dbg ∧
      (∀ b, b < 256 → (designMem t b).cells = [] ∧ (designMem s b).epoch < (designMem t b).epoch) ∧
      (∀ k, k < 8 → serviceMem t k = serviceMem s k)) ∧
  (∀ (r : Fin 16) (s : State), reloadInProgress s = false → s.banks.march = none →
    Completes (.reachReset r) s fun t =>
      inHold t r = true ∧ reachValid t r = false ∧
      (∀ q, q < 16 → q ≠ r.val → inHold t q = inHold s q ∧ reachValid t q = reachValid s q) ∧
      (∀ n, n / 8 ≠ r.val → clu t n = clu s n) ∧
      (∀ b, b / 16 = r.val → designMem t b = loseContents (designMem s b)) ∧
      (∀ b, b / 16 ≠ r.val → designMem t b = designMem s b) ∧
      (inHold s r = false → reachLeft s r = false → (find t.rl.cells r).isSome = true) ∧ t.flt = s.flt ∧ t.sched = s.sched)

/-- Interrupt causes, MSI-X and the PCI Express function. IRQ_CAUSE_CLEAR clears the bits written as 1, but for those
that an event sets in the same cycle. MSIX_SEND sends one message for one rise of a vector, so that a cause raised
again before it gives a second one, or leaves it pending when masked, MSIX_PENDING_SEND sends it later. LH_DOORBELL
of firmware that is not halted writes its word and raises cause 63. Power state, command bits, link down and link up
change their fields of GLB_PCIE_STATUS. Configuration space identifies the part, with a Revision ID by stepping.
(Rests on spec/16_host_interface.md) -/
def Obligations.HostInterface : Prop :=
  (∀ (h : Bool) (x : CauseClear) (s : State), partyActs s .host = true →
    Completes (.irqCauseClear h x) s fun t =>
      let a := if h then R.glbIrqCauseHi else R.glbIrqCauseLo
      reg t a = reg s a &&& ~~~ (x.value &&& ~~~ x.meets) ∧ keepsRegs [a] s t ∧ t = { s with regs := t.regs }) ∧
  (∀ (v : Fin 64) (s : State), v.val ∈ s.pcie.rising → canSend s v = true →
    Completes (.msixSend v) s fun t =>
      t.pcie = { s.pcie with
        rising := s.pcie.rising.erase v.val
        messages := s.pcie.messages ++ [(ofHalves (msixWord s v 0) (msixWord s v 1), msixWord s v 2)] } ∧
      t = { s with pcie := t.pcie }) ∧
  (∀ (v : Fin 64) (s : State), v.val ∈ s.pcie.rising → canSend s v = false →
    Completes (.msixSend v) s fun t =>
      t.pcie.pendingBits.getLsbD v = true ∧
      (∀ k, k ≠ v.val → t.pcie.pendingBits.getLsbD k = s.pcie.pendingBits.getLsbD k) ∧
      t.pcie.messages = s.pcie.messages ∧ t.pcie.rising = s.pcie.rising.erase v.val ∧ t = { s with pcie := t.pcie }) ∧
  (∀ (v : Fin 64) (s : State), s.pcie.pendingBits.getLsbD v = true → canSend s v = true →
    Completes (.msixPendingSend v) s fun t =>
      t.pcie.pendingBits.getLsbD v = false ∧
      t.pcie.messages = s.pcie.messages ++ [(ofHalves (msixWord s v 0) (msixWord s v 1), msixWord s v 2)] ∧
      t = { s with pcie := t.pcie }) ∧
  (∀ (v : Word) (s : State), lhHalted s = false →
    Completes (.lhDoorbell v) s fun t =>
      reg t R.glbLhDoorbell = v ∧ causeBit t 63 = true ∧
      t.pcie.rising = (if causeBit s 63 then s.pcie.rising else s.pcie.rising ++ [63]) ∧
      keepsRegs [R.glbLhDoorbell, R.glbIrqCauseHi] s t) ∧
  (∀ (d : Bool) (s : State),
    exec (.powerStateChange d) s = .next (setBits s R.glbPcieStatus 16 2 (if d then 3 else 0))) ∧
  (∀ (b m x f : Bool) (s : State),
    Completes (.busMasterEnable b m x f) s fun t =>
      bit t R.glbPcieStatus 23 = b ∧ bit t R.glbPcieStatus 22 = m ∧ bit t R.glbPcieStatus 21 = x ∧
      bit t R.glbPcieStatus 20 = f ∧ bits t R.glbPcieStatus 0 20 = bits s R.glbPcieStatus 0 20 ∧
      bits t R.glbPcieStatus 24 8 = bits s R.glbPcieStatus 24 8 ∧ keepsRegs [R.glbPcieStatus] s t) ∧
  (∀ s, bits s R.glbPcieStatus 28 4 ≠ 0 →
    Completes .pcieLinkDown s fun t =>
      bits t R.glbPcieStatus 28 4 = 0 ∧ bits t R.glbPcieStatus 24 4 = 0 ∧
      bits t R.glbPcieStatus 8 8 = min (bits s R.glbPcieStatus 8 8 + 1) 255 ∧
      t.flt.signals = s.flt.signals ++ [⟨206, 0, false⟩] ∧ keepsRegs [R.glbPcieStatus] s t) ∧
  (∀ (g w : Nat) (s : State), bits s R.glbPcieStatus 28 4 = 0 → g ∈ [1, 2, 3] → w ∈ [1, 2, 4, 8] →
    Completes (.pcieLinkUp g w) s fun t =>
      bits t R.glbPcieStatus 28 4 = g ∧ bits t R.glbPcieStatus 24 4 = w ∧ keepsRegs [R.glbPcieStatus] s t ∧
      t = { s with regs := t.regs }) ∧
  (∀ s : State,
    (pcieIdentity s).vendorId = 0x1E97 ∧ (pcieIdentity s).deviceId = 0x7200 ∧ (pcieIdentity s).classCode = 0x120000 ∧
    (pcieIdentity s).revisionId = (if s.die.b0 then 0xB0 else 0xA1))

/-- The tides of the shore. TIDE_START begins the oldest waiting tide, PHASE_STROBE_RISE raises the strobes,
TIDE_PHASE_END samples the balls into the words being formed, a ball that the device drives at its driven level, and
the last phase hands them on. SHORE_WORD_ARRIVAL delivers the word to its cluster or drops it for a cluster that
takes none. (Rests on spec/17_package_pins_electrical.md) -/
def Obligations.ShoreTides : Prop :=
  (∀ (s : State) (x : Tide) (rest : List Tide), s.shore.tide = none → s.shore.waiting = x :: rest →
    s.sched.run ≠ .frozen →
    exec .tideStart s = .next { s with shore := { s.shore with
      tide := some (x, 0), waiting := rest, forming := [], strobes := 0 } }) ∧
  (∀ s : State, s.shore.tide.isSome = true →
    exec .phaseStrobeRise s = .next { s with shore := { s.shore with strobes := 0xF } }) ∧
  (∀ (x : ShoreIn) (s : State) (y : Tide) (p : Nat), s.shore.tide = some (y, p) → p + 1 < phaseCount s →
    Completes (.tidePhaseEnd x) s fun t =>
      t.shore.tide = some (y, p + 1) ∧ t.shore.strobes = 0 ∧ t.shore.words = s.shore.words ∧
      (∀ b, b < 512 →
        (ballNow s b = .z → x.driven.getLsbD b = true → (dword t.shore.forming (b / 4)).getLsbD (4 * p + b % 4) = x.levels.getLsbD b) ∧
        (ballNow s b = .high → (x.driven.getLsbD b = false ∨ x.levels.getLsbD b = true) → (dword t.shore.forming (b / 4)).getLsbD (4 * p + b % 4) = true) ∧
        (ballNow s b = .low → (x.driven.getLsbD b = false ∨ x.levels.getLsbD b = false) → (dword t.shore.forming (b / 4)).getLsbD (4 * p + b % 4) = false)) ∧
      (∀ n q, n < 128 → q < phaseCount s → q ≠ p →
        bitsOf (dword t.shore.forming n) (4 * q) 4 = bitsOf (dword s.shore.forming n) (4 * q) 4) ∧
      t = { s with shore := t.shore, free := t.free }) ∧
  (∀ (x : ShoreIn) (s : State) (y : Tide) (p : Nat), s.shore.tide = some (y, p) → p + 1 = phaseCount s →
    Completes (.tidePhaseEnd x) s fun t =>
      t.shore.tide = none ∧ t.shore.wordsEc = y.ec ∧
      (∀ n, n < 128 → (find t.shore.words n).isSome = true) ∧
      (∀ b, b < 512 →
        (ballNow s b = .z → x.driven.getLsbD b = true → ((find t.shore.words (b / 4)).getD 0).getLsbD (4 * p + b % 4) = x.levels.getLsbD b) ∧
        (ballNow s b = .high → (x.driven.getLsbD b = false ∨ x.levels.getLsbD b = true) → ((find t.shore.words (b / 4)).getD 0).getLsbD (4 * p + b % 4) = true) ∧
        (ballNow s b = .low → (x.driven.getLsbD b = false ∨ x.levels.getLsbD b = false) → ((find t.shore.words (b / 4)).getD 0).getLsbD (4 * p + b % 4) = false)) ∧
      (∀ b, b < 512 → ballNow t b = ballNow s b) ∧
      t = { s with shore := t.shore, free := t.free }) ∧
  (∀ (n : Fin 128) (s : State) (w : DWord), find s.shore.words n = some w → takesShore s n = true →
    Completes (.shoreWordArrival n) s fun t =>
      clu t n = deliverWord s n 255 w (clu s n) ∧ dword (clu t n).lastWord 255 = w ∧ find t.shore.words n = none ∧
      (∀ k, k ≠ n.val → clu t k = clu s k) ∧ t.regs = s.regs) ∧
  (∀ (n : Fin 128) (s : State) (w : DWord), find s.shore.words n = some w → takesShore s n = false →
    Completes (.shoreWordArrival n) s fun t => find t.shore.words n = none ∧ t.clusters = s.clusters ∧ t.regs = s.regs)

/-- Watchdog counts at resume, at a session end and at a kick. At RESUME of a halted Lighthouse, and at the end of a
full-level session while it is halted, each watchdog continues from its count, raised to 4096 when below; KICK
reloads the limit, and a limit below 4096 acts as 4096. That a slow feed ends at the resume is the model's choice
(log entry 53). (Rests on R334; R320; R331; spec/13_lighthouse_debug_security.md) -/
def Obligations.WatchdogLimits : Prop :=
  (∀ s, dbgLevel s = 2 → lhHalted s = true → traceRuns s = false →
    Completes .resume s fun t =>
      lhHalted t = false ∧ bit t R.lhStatus 22 = false ∧
      (∀ c, c < 2 → bits t (R.lhWdtCount c) 0 24 = max 4096 (bits s (R.lhWdtCount c) 0 24)) ∧
      keepsRegs [R.dbgStatus, R.lhStatus, R.lhWdtCount 0, R.lhWdtCount 1] s t ∧
      t = { s with regs := t.regs, dbg := { s.dbg with feeding := none } }) ∧
  (∀ (c : Fin 2) (s : State),
    Completes (.kick c) s fun t =>
      bits t (R.lhWdtCount c) 0 24 = max 4096 (bits s (R.lhWdtCfg c) 0 24) ∧ keepsRegs [R.lhWdtCount c] s t ∧
      t = { s with regs := t.regs }) ∧
  (∀ (s : State) (c : Instr), (c = .sessionEnd ∨ c = .sessionTimeout) → dbgLevel s = 2 → lhHalted s = true →
    traceRuns s = false →
    Completes c s fun t =>
      lhHalted t = false ∧ bit t R.lhStatus 22 = false ∧ dbgLevel t = 0 ∧
      (∀ d, d < 2 → bits t (R.lhWdtCount d) 0 24 = max 4096 (bits s (R.lhWdtCount d) 0 24)) ∧
      keepsRegs [R.dbgStatus, R.dbgSession, R.lhStatus, R.lhWdtCount 0, R.lhWdtCount 1] s t ∧
      t = { s with regs := t.regs, dbg := { s.dbg with feeding := none } })
end

