-- ==== Sys2Proof/Laws/Pcie.lean ====
section
/-! SUPPORT. What the error logging of the PCI Express function can change (R386, R398, R400): the AER registers, the status
bits of configuration space, the free values and the fault collector. -/
namespace Sys2Proof.Machine

/-- A recorded uncorrectable error changes the AER registers and the free values alone, and sets its own status bit. -/
theorem aerRecord_frame (b : Nat) (s : State) :
    ∃ a f, aerRecord b s = { s with pcie := { s.pcie with aer := a }, free := f } ∧
      a.uncorrectable = withBit s.pcie.aer.uncorrectable b true ∧ a.correctable = s.pcie.aer.correctable := by
  unfold aerRecord
  dsimp only
  split
  · exact ⟨_, s.free, rfl, rfl, rfl⟩
  · exact ⟨_, s.free + 1, rfl, rfl, rfl⟩

/-- The status bits of an error change nothing else. -/
theorem errorStatus_frame (b : Nat) (s : State) :
    ∃ c, errorStatus b s = { s with pcie := { s.pcie with config := c } } := ⟨_, rfl⟩

/-- A signalled source changes the list of signals alone. -/
theorem signal_frame (source info : Nat) (s : State) : ∃ l, signal source info s = { s with flt := { s.flt with signals := l } } := by
  unfold signal
  split
  · exact ⟨s.flt.signals, rfl⟩
  · exact ⟨_, rfl⟩

/-- PCIE_ERR changes configuration space, AER, the free values and the list of signals alone, and sets the status bit of its
cause. -/
theorem pcieError_frame (b : Nat) (s : State) :
    ∃ c a f l, pcieError b s = { s with
        pcie := { s.pcie with config := c, aer := a }, free := f, flt := { s.flt with signals := l } } ∧
      a.uncorrectable = withBit s.pcie.aer.uncorrectable b true := by
  obtain ⟨c, hc⟩ := errorStatus_frame b s
  obtain ⟨a, f, ha, hu, -⟩ := aerRecord_frame b (errorStatus b s)
  obtain ⟨l, hl⟩ := signal_frame 207 b (aerRecord b (errorStatus b s))
  refine ⟨c, a, f, l, ?_, ?_⟩
  · rw [pcieError, hl, ha, hc]
  · rw [hu, hc]

end Sys2Proof.Machine
end

