-- ==== Sys2Proof/Laws/PerInstr.lean ====
section
/-! SUPPORT. One lemma per constructor of Instr: which commands Footpath carries as request frames. -/
namespace Sys2Proof.Laws.FootpathFrame

open Sys2Proof.Machine

/-- A command has a Footpath request frame exactly when it is a request of Table 13.4. -/
def Statement (i : Instr) : Prop := (encodeFrame i).isSome = isRequest i

theorem clusterStep (n : Fin 128) : Statement (.clusterStep n) := rfl
theorem mrdLanding (n : Fin 128) : Statement (.mrdLanding n) := rfl
theorem vc0WordArrival (n : Fin 128) : Statement (.vc0WordArrival n) := rfl
theorem queueAppend (n : Fin 128) : Statement (.queueAppend n) := rfl
theorem wmTimeout (n : Fin 128) : Statement (.wmTimeout n) := rfl
theorem niRequestSend (n : Fin 128) : Statement (.niRequestSend n) := rfl
theorem acceptanceReceive (n : Fin 128) : Statement (.acceptanceReceive n) := rfl
theorem domainAsleepReceive (i : Fin 136) : Statement (.domainAsleepReceive i) := rfl
theorem niSourceHoldExpiry (i : Fin 136) : Statement (.niSourceHoldExpiry i) := rfl
theorem routerOutputSelect (r : Fin 144) : Statement (.routerOutputSelect r) := rfl
theorem probeTraceWrite (p : Fin 32) : Statement (.probeTraceWrite p) := rfl
theorem niPacketReceive (i : Fin 136) : Statement (.niPacketReceive i) := rfl
theorem mgmtWrite (i : Fin 136) (party : Party) (addr : Nat) (value : Word) : Statement (.mgmtWrite i party addr value) := rfl
theorem mgmtRead (i : Fin 136) (addr : Nat) : Statement (.mgmtRead i addr) := rfl
theorem reservationProbe (n : Fin 128) : Statement (.reservationProbe n) := rfl
theorem legDecision : Statement (.legDecision) := rfl
theorem milestone : Statement (.milestone) := rfl
theorem milestoneLeave : Statement (.milestoneLeave) := rfl
theorem tokenReceive (lane : Fin 80) (x : TokenIn) : Statement (.tokenReceive lane x) := rfl
theorem holdMarkerReceive (lane : Fin 80) (x : TokenIn) : Statement (.holdMarkerReceive lane x) := rfl
theorem msTokenTimeout : Statement (.msTokenTimeout) := rfl
theorem tokenRepeat (l : Fin 20) : Statement (.tokenRepeat l) := rfl
theorem registerWrite (r : Ref) (data : List Word) : Statement (.registerWrite r data) := rfl
theorem readClear (r : Ref) : Statement (.readClear r) := rfl
theorem captureRead (r : Ref) : Statement (.captureRead r) := rfl
theorem hazardLogRead (party : Party) : Statement (.hazardLogRead party) := rfl
theorem forceWrite (n : Fin 128) (f : Fin 64) (value : Word) : Statement (.forceWrite n f value) := rfl
theorem swellFlagsWrite (n : Fin 128) (value : Word) : Statement (.swellFlagsWrite n value) := rfl
theorem swellAll : Statement (.swellAll) := rfl
theorem vsViewAccess (n : Fin 128) (word : Fin 16384) (access : Access) : Statement (.vsViewAccess n word access) := rfl
theorem routeEntryWrite (i : Fin 136) (e : Fin 256) (value : Word) : Statement (.routeEntryWrite i e value) := rfl
theorem quiesce (i : Fin 136) : Statement (.quiesce i) := rfl
theorem niQuiet (i : Fin 136) : Statement (.niQuiet i) := rfl
theorem routerReset (r : Fin 144) : Statement (.routerReset r) := rfl
theorem routerDrainDone (r : Fin 144) : Statement (.routerDrainDone r) := rfl
theorem routerReopen (r : Fin 144) : Statement (.routerReopen r) := rfl
theorem switchReq : Statement (.switchReq) := rfl
theorem ptraceEnable (value : Word) : Statement (.ptraceEnable value) := rfl
theorem linkConfig (l : Fin 20) (value : Word) : Statement (.linkConfig l value) := rfl
theorem retrain (lane : Fin 80) : Statement (.retrain lane) := rfl
theorem loopChange (lane : Fin 80) (loop : Bool) : Statement (.loopChange lane loop) := rfl
theorem patternMode (lane : Fin 80) : Statement (.patternMode lane) := rfl
theorem prbsLock (lane : Fin 80) (bits : List Bool) : Statement (.prbsLock lane bits) := rfl
theorem inject (lane : Fin 80) (value : Word) : Statement (.inject lane value) := rfl
theorem laneLock (lane : Fin 80) : Statement (.laneLock lane) := rfl
theorem laneAlign (lane : Fin 80) (inverted : Bool) : Statement (.laneAlign lane inverted) := rfl
theorem trainingSetReceive (lane : Fin 80) (set : TrainingSet) : Statement (.trainingSetReceive lane set) := rfl
theorem laneDown (lane : Fin 80) : Statement (.laneDown lane) := rfl
theorem alignmentMarkerDue (l : Fin 20) : Statement (.alignmentMarkerDue l) := rfl
theorem alignmentMarkerReceive (l : Fin 20) (markers : List MarkerIn) : Statement (.alignmentMarkerReceive l markers) := rfl
theorem linkUp (l : Fin 20) : Statement (.linkUp l) := rfl
theorem delayExchange (l : Fin 20) (x : Exchange) : Statement (.delayExchange l x) := rfl
theorem delayMeasured (l : Fin 20) : Statement (.delayMeasured l) := rfl
theorem fillerDue (lane : Fin 80) : Statement (.fillerDue lane) := rfl
theorem fillerReceive (lane : FillerIn) : Statement (.fillerReceive lane) := rfl
theorem cwEbSlip (lane : Fin 80) (full : Bool) : Statement (.cwEbSlip lane full) := rfl
theorem unitBoundary (lane : Fin 80) : Statement (.unitBoundary lane) := rfl
theorem frameReceive (lane : Fin 80) (f : FrameIn) : Statement (.frameReceive lane f) := rfl
theorem vc0FrameReceive (l : Fin 20) : Statement (.vc0FrameReceive l) := rfl
theorem flitFrameReceive (l : Fin 20) : Statement (.flitFrameReceive l) := rfl
theorem linkControlReceive (l : Fin 20) : Statement (.linkControlReceive l) := rfl
theorem linkVc0Enter (l : Fin 20) : Statement (.linkVc0Enter l) := rfl
theorem nakReceive (l : Fin 20) : Statement (.nakReceive l) := rfl
theorem resendWindowExpiry (l : WindowEnd) : Statement (.resendWindowExpiry l) := rfl
theorem cwLinkTimeout (l : Fin 20) : Statement (.cwLinkTimeout l) := rfl
theorem ownerHandover (party : Party) (b : Fin 256) (value : Word) : Statement (.ownerHandover party b value) := rfl
theorem handoverDone (b : Fin 256) : Statement (.handoverDone b) := rfl
theorem bankPowerRequest (party : Party) (b : Fin 256) (value : Word) : Statement (.bankPowerRequest party b value) := rfl
theorem bankPowerDone (b : Fin 256) : Statement (.bankPowerDone b) := rfl
theorem controlViewAccess (party : Party) (word : Fin 65536) (access : Access) : Statement (.controlViewAccess party word access) := rfl
theorem setAliasWrite (party : Party) (target : AliasTarget) (word : Fin 65536) (value : Word) : Statement (.setAliasWrite party target word value) := rfl
theorem clearAliasWrite (party : Party) (target : AliasTarget) (word : Fin 65536) (value : Word) : Statement (.clearAliasWrite party target word value) := rfl
theorem serviceBankAccess (party : Party) (k : Fin 16) (word : Fin 65536) (access : Access) : Statement (.serviceBankAccess party k word access) := rfl
theorem marchGo (value : Word) : Statement (.marchGo value) := rfl
theorem marchDone (failures : List (Fin 6 × Fin 32768 × Fin 64)) : Statement (.marchDone failures) := rfl
theorem ddrTrain (c : Fin 4) (step : Nat) (ok : Bool) (lanes : Byte) : Statement (.ddrTrain c step ok lanes) := rfl
theorem ddrRefresh (c : Fin 4) : Statement (.ddrRefresh c) := rfl
theorem ddrRequest (c : Fin 4) : Statement (.ddrRequest c) := rfl
theorem ddrRequestDone (c : Fin 4) : Statement (.ddrRequestDone c) := rfl
theorem bar4Access (offset : Nat) (length : Nat) (write : Bar4Data) : Statement (.bar4Access offset length write) := rfl
theorem bar4WinWrite (value : Word) : Statement (.bar4WinWrite value) := rfl
theorem harbourCycle : Statement (.harbourCycle) := rfl
theorem dlistTick (list : Fin 4) : Statement (.dlistTick list) := rfl
theorem hostMessage (buffer : DWord) : Statement (.hostMessage buffer) := rfl
theorem blockMover : Statement (.blockMover) := rfl
theorem reloadFeed : Statement (.reloadFeed) := rfl
theorem loopBack : Statement (.loopBack) := rfl
theorem reservationAnswer : Statement (.reservationAnswer) := rfl
theorem parkReprobe : Statement (.parkReprobe) := rfl
theorem hbParkTimeout : Statement (.hbParkTimeout) := rfl
theorem actionEnd : Statement (.actionEnd) := rfl
theorem harbourEnable (on : Bool) : Statement (.harbourEnable on) := rfl
theorem flush : Statement (.flush) := rfl
theorem ringTailWrite (k : Fin 32) (value : Word) : Statement (.ringTailWrite k value) := rfl
theorem txDescriptorFetch (k : Fin 16) (irq : Bool) (words : List DWord) : Statement (.txDescriptorFetch k irq words) := rfl
theorem txWriteBack (k : Fin 16) : Statement (.txWriteBack k) := rfl
theorem ringEnable (k : Fin 32) (value : Word) : Statement (.ringEnable k value) := rfl
theorem dmaError (purpose : DmaPurpose) (cause : Fin 8) : Statement (.dmaError purpose cause) := rfl
theorem messageWindowWrite (low high : Option Word) : Statement (.messageWindowWrite low high) := rfl
theorem loadArm : Statement (.loadArm) := rfl
theorem loadGo : Statement (.loadGo) := rfl
theorem loadAbort : Statement (.loadAbort) := rfl
theorem loadStart : Statement (.loadStart) := rfl
theorem releaseStep : Statement (.releaseStep) := rfl
theorem streamFetch (bytes : List Byte) : Statement (.streamFetch bytes) := rfl
theorem sectionReceived : Statement (.sectionReceived) := rfl
theorem fetchFailure (sourceError : Bool) : Statement (.fetchFailure sourceError) := rfl
theorem backoffExpiry : Statement (.backoffExpiry) := rfl
theorem retry (message : DWord) : Statement (.retry message) := rfl
theorem rewind (message : DWord) : Statement (.rewind message) := rfl
theorem rewound (l : Fin 20) : Statement (.rewound l) := rfl
theorem endMessage (message : DWord) : Statement (.endMessage message) := rfl
theorem abort (l : Fin 20) : Statement (.abort l) := rfl
theorem report (l : Fin 20) (message : DWord) : Statement (.report l message) := rfl
theorem start : Statement (.start) := rfl
theorem enterHold : Statement (.enterHold) := rfl
theorem loadWrite : Statement (.loadWrite) := rfl
theorem loadComplete : Statement (.loadComplete) := rfl
theorem shoreWordTransfer (word : DWord) (last : Bool) : Statement (.shoreWordTransfer word last) := rfl
theorem scrubRead (n : Fin 128) : Statement (.scrubRead n) := rfl
theorem scrubPassEnd (n : Fin 128) : Statement (.scrubPassEnd n) := rfl
theorem reloadGo : Statement (.reloadGo) := rfl
theorem reloadLeaveRun : Statement (.reloadLeaveRun) := rfl
theorem reloadReceiving : Statement (.reloadReceiving) := rfl
theorem breakwaterLaunch (n : Fin 128) (w : Fin 32) : Statement (.breakwaterLaunch n w) := rfl
theorem reloadWindowWrite (source : Fin 3) (value : Word) : Statement (.reloadWindowWrite source value) := rfl
theorem reloadEnd : Statement (.reloadEnd) := rfl
theorem reloadReady : Statement (.reloadReady) := rfl
theorem reloadJoin : Statement (.reloadJoin) := rfl
theorem reloadAbort : Statement (.reloadAbort) := rfl
theorem slotPlan : Statement (.slotPlan) := rfl
theorem freeze : Statement (.freeze) := rfl
theorem run : Statement (.run) := rfl
theorem step : Statement (.step) := rfl
theorem stop : Statement (.stop) := rfl
theorem freezeAt (value : Word) : Statement (.freezeAt value) := rfl
theorem arm : Statement (.arm) := rfl
theorem disarm : Statement (.disarm) := rfl
theorem forceTrigger : Statement (.forceTrigger) := rfl
theorem acqStop : Statement (.acqStop) := rfl
theorem captureDrain : Statement (.captureDrain) := rfl
theorem pauseResume : Statement (.pauseResume) := rfl
theorem segmentRearm : Statement (.segmentRearm) := rfl
theorem timeTick : Statement (.timeTick) := rfl
theorem timeSet : Statement (.timeSet) := rfl
theorem servoReset : Statement (.servoReset) := rfl
theorem timeCfgWrite (sync : Bool) (value : Word) : Statement (.timeCfgWrite sync value) := rfl
theorem syncSend (l : Fin 20) : Statement (.syncSend l) := rfl
theorem syncReceive (l : Fin 20) (f : TimeFrame) : Statement (.syncReceive l f) := rfl
theorem followUpReceive (l : Fin 20) (f : TimeFrame) : Statement (.followUpReceive l f) := rfl
theorem delayReqReceive (l : Fin 20) (f : TimeFrame) : Statement (.delayReqReceive l f) := rfl
theorem delayRespReceive (l : Fin 20) (f : TimeFrame) : Statement (.delayRespReceive l f) := rfl
theorem timeSyncLost : Statement (.timeSyncLost) := rfl
theorem boot : Statement (.boot) := rfl
theorem firmwareVerified : Statement (.firmwareVerified) := rfl
theorem restart : Statement (.restart) := rfl
theorem kick (c : Fin 2) : Statement (.kick c) := rfl
theorem lhWatchdog (c : Fin 2) : Statement (.lhWatchdog c) := rfl
theorem peek (addr : Nat) (crcOk : Bool) : Statement (.peek addr crcOk) := rfl
theorem poke (addr : Nat) (value : Word) (frame : PokeIn) : Statement (.poke addr value frame) := rfl
theorem burstPeek (addr : Nat) (count : Nat) (crcOk : Bool) : Statement (.burstPeek addr count crcOk) := rfl
theorem reservedOp (op : Fin 8) (crcOk : Bool) : Statement (.reservedOp op crcOk) := rfl
theorem footpathReply : Statement (.footpathReply) := rfl
theorem footpathFrameTimeout : Statement (.footpathFrameTimeout) := rfl
theorem get : Statement (.get) := rfl
theorem go (slot : Fin 8) : Statement (.go slot) := rfl
theorem challengeExpiry : Statement (.challengeExpiry) := rfl
theorem lockoutExpiry : Statement (.lockoutExpiry) := rfl
theorem sessionEnd : Statement (.sessionEnd) := rfl
theorem sessionTimeout : Statement (.sessionTimeout) := rfl
theorem halt : Statement (.halt) := rfl
theorem haltComplete : Statement (.haltComplete) := rfl
theorem resume : Statement (.resume) := rfl
theorem feedReadRegister (core : Fin 2) (g : Fin 32) : Statement (.feedReadRegister core g) := rfl
theorem feedWriteRegister (core : Fin 2) (g : Fin 32) : Statement (.feedWriteRegister core g) := rfl
theorem feedReadPc (core : Fin 2) : Statement (.feedReadPc core) := rfl
theorem feedWritePc (core : Fin 2) : Statement (.feedWritePc core) := rfl
theorem feedLoad (core : Fin 2) (inc : Bool) : Statement (.feedLoad core inc) := rfl
theorem feedStore (core : Fin 2) (inc : Bool) : Statement (.feedStore core inc) := rfl
theorem feedCompleteStores (core : Fin 2) : Statement (.feedCompleteStores core) := rfl
theorem lcTransition (footpath : Bool) (value : Word) : Statement (.lcTransition footpath value) := rfl
theorem keyProgram (footpath : Bool) (slot : Fin 8) : Statement (.keyProgram footpath slot) := rfl
theorem fuseWriteDone (outcome : FuseOutcome) : Statement (.fuseWriteDone outcome) := rfl
theorem coreBranch (core : CoreAt) (exception : Bool) (notTaken : Nat) (target : Word) : Statement (.coreBranch core exception notTaken target) := rfl
theorem coreDataAccess (core : CoreAt) (kind : DataKind) (addr : Word) : Statement (.coreDataAccess core kind addr) := rfl
theorem coreSleep (core : CoreAt) : Statement (.coreSleep core) := rfl
theorem coreWake (core : Fin 2) : Statement (.coreWake core) := rfl
theorem traceMsg (writer : Fin 4) (value : Word) : Statement (.traceMsg writer value) := rfl
theorem traceRoom (source : Fin 4) : Statement (.traceRoom source) := rfl
theorem trig : Statement (.trig) := rfl
theorem faultEvent : Statement (.faultEvent) := rfl
theorem severity7Reset : Statement (.severity7Reset) := rfl
theorem faultInject (footpath : Bool) (value : Word) : Statement (.faultInject footpath value) := rfl
theorem safeRelease : Statement (.safeRelease) := rfl
theorem sevLock : Statement (.sevLock) := rfl
theorem cairnCommit (readBackOk : Bool) : Statement (.cairnCommit readBackOk) := rfl
theorem cairnWrite : Statement (.cairnWrite) := rfl
theorem erase (footpath : Bool) : Statement (.erase footpath) := rfl
theorem eraseDone : Statement (.eraseDone) := rfl
theorem bistRun : Statement (.bistRun) := rfl
theorem bistDone (result : BistResult) : Statement (.bistDone result) := rfl
theorem testEngineGo (footpath : Bool) (value : Word) : Statement (.testEngineGo footpath value) := rfl
theorem testEngineDone : Statement (.testEngineDone) := rfl
theorem domainRequest (d : Fin 28) (on : Bool) : Statement (.domainRequest d on) := rfl
theorem domainClose (d : Fin 28) : Statement (.domainClose d) := rfl
theorem domainDrainDone (d : Fin 28) : Statement (.domainDrainDone d) := rfl
theorem domainOff (d : Fin 28) : Statement (.domainOff d) := rfl
theorem domainOpen (d : Fin 28) : Statement (.domainOpen d) := rfl
theorem railInRange (d : Fin 28) : Statement (.railInRange d) := rfl
theorem railTimeout (d : Fin 28) : Statement (.railTimeout d) := rfl
theorem domainOn (d : Fin 28) : Statement (.domainOn d) := rfl
theorem railOutOfRange (d : Fin 28) : Statement (.railOutOfRange d) := rfl
theorem fllCalibrate (island : Fin 144) : Statement (.fllCalibrate island) := rfl
theorem thermalDecision : Statement (.thermalDecision) := rfl
theorem sensorSample (sensor : Fin 20) (celsius : Nat) : Statement (.sensorSample sensor celsius) := rfl
theorem refclkLoss (clock : RefClock) : Statement (.refclkLoss clock) := rfl
theorem refclkReturn (clock : RefClock) : Statement (.refclkReturn clock) := rfl
theorem coldReset (source : ColdSource) (straps : BitVec 8) : Statement (.coldReset source straps) := rfl
theorem warmReset (source : WarmSource) : Statement (.warmReset source) := rfl
theorem reachReset (r : Fin 16) : Statement (.reachReset r) := rfl
theorem flr : Statement (.flr) := rfl
theorem irqCauseClear (high : Bool) (value : CauseClear) : Statement (.irqCauseClear high value) := rfl
theorem msixSend (v : Fin 64) : Statement (.msixSend v) := rfl
theorem msixPendingSend (v : Fin 64) : Statement (.msixPendingSend v) := rfl
theorem lhDoorbell (value : Word) : Statement (.lhDoorbell value) := rfl
theorem powerStateChange (d3hot : Bool) : Statement (.powerStateChange d3hot) := rfl
theorem busMasterEnable (on memorySpace msix functionMask : Bool) : Statement (.busMasterEnable on memorySpace msix functionMask) := rfl
theorem pcieLinkDown : Statement (.pcieLinkDown) := rfl
theorem tideStart : Statement (.tideStart) := rfl
theorem tidePhaseEnd (levels : ShoreIn) : Statement (.tidePhaseEnd levels) := rfl
theorem shoreWordArrival (n : Fin 128) : Statement (.shoreWordArrival n) := rfl
theorem reloadChecked : Statement (.reloadChecked) := rfl
theorem pcieLinkUp (speed : Nat) (width : Nat) : Statement (.pcieLinkUp speed width) := rfl
theorem framingError : Statement (.framingError) := rfl
theorem phaseStrobeRise : Statement (.phaseStrobeRise) := rfl

end Sys2Proof.Laws.FootpathFrame
end

