-- ==== Sys2Proof/Laws/Run.lean ====
section
/-! SUPPORT. What a reach that loses its validity loses with it (R264): the words in its pending registers, and nothing else of
any cluster. -/
namespace Sys2Proof.Machine

/-- The clusters of reach `r` lose the words that wait, those of other reaches nothing. -/
theorem clu_dropWaiting (r n : Nat) (s : State) :
    clu (dropWaiting r s) n = if n / 8 = r then { clu s n with pending := [] } else clu s n := by
  have h : List.range 8 = [0, 1, 2, 3, 4, 5, 6, 7] := by decide
  by_cases hn : n / 8 = r
  · obtain ⟨k, hk, rfl⟩ : ∃ k, k < 8 ∧ n = 8 * r + k := ⟨n % 8, by omega, by omega⟩
    rcases k with _ | _ | _ | _ | _ | _ | _ | _ | k <;> first
      | omega
      | simp [dropWaiting, h, hn]
  · have e : ∀ k, k < 8 → n ≠ 8 * r + k := fun k hk => by omega
    have e0 : n ≠ 8 * r := by omega
    simp [dropWaiting, h, hn, e, e0]

/-- A reach that becomes invalid loses them when it was valid. -/
theorem clu_invalidate (r n : Nat) (s : State) :
    clu (invalidate r s) n =
      if reachValid s r = true ∧ n / 8 = r then { clu s n with pending := [] } else clu s n := by
  have f : ∀ (t : State) (a k : Nat) (b : Bool), clu (setBit t a k b) n = clu t n := fun _ _ _ _ => rfl
  unfold invalidate
  rw [f]
  by_cases hv : reachValid s r = true
  · simp [hv, clu_dropWaiting]
  · simp [hv]

end Sys2Proof.Machine
end

