-- ==== Sys2Proof/Tests/Slice0.lean ====
section
/-! SUPPORT. Tests: ill-formed commands are refused by `wellFormed`, single operations give the values that the manual
writes out, and the hypotheses of every obligation are met by a concrete state. -/
namespace Tests
set_option Elab.async false
set_option linter.unusedVariables false
open Sys2Proof Sys2Proof.Machine

/-! ## Small states -/

/-- The state with these registers. -/
def withRegs (l : List (Nat × Word)) (s : State) : State := l.foldl (fun acc x => setReg acc x.1 x.2) s

/-- Every reach is valid and runs. -/
def running (s : State) : State := withRegs [(R.ldReach, 0x0000FFFF)] { s with sched := { s.sched with run := .running } }

def withClu (n : Nat) (c : Cluster) (s : State) : State := setClu s n c
def withNi (n : Nat) (x : Ni) (s : State) : State := setNi s n x

/-- A packet of kind `kind` on virtual channel `vc`. -/
def packetTo (dst src kind vc tag : Nat) (ws : List DWord) : Packet := mkPacket vc kind [] src dst tag 0 0 ws

/-- Every unit is present, every domain on, the host may access, firmware runs. -/
def allOn (s : State) : State :=
  withRegs ([(R.glbUnitPresent0, 0x7FFFFF), (R.glbUnitPresent1, 0xFFFFF), (R.glbPcieStatus, 0x00C00000),
    (R.lhStatus, 0x40000000)] ++ (List.range 28).map fun d => (R.pwrDomainStatus d, 0x40000000)) s

/-- The description of the register at an offset. -/
def groupAt (a : Nat) : RegGroup := (regAt a).elim ⟨0, [], 0, 0, 0, 0, 0, 0⟩ fun x => x.1

/-- A section descriptor of an image. -/
def descB (ty fl ord reach off len : Nat) : List Byte :=
  bytesLE 1 ty ++ bytesLE 1 fl ++ bytesLE 2 ord ++ bytesLE 2 reach ++ bytesLE 2 0 ++ bytesLE 8 off ++ bytesLE 4 len ++
    List.replicate 44 0

/-- An image of `len` bytes for the device of ordinal `own`. -/
def imgOf (own len : Nat) (ds : List (List Byte)) (tail : List Byte) : List Byte :=
  List.replicate 0x20 0 ++ bytesLE 8 len ++ bytesLE 4 ds.length ++ List.replicate 0x20 0 ++ bytesLE 4 own ++
    List.replicate 4016 0 ++ ds.flatten ++ tail

/-- Two own sections: a ROUTES section that has come whole, and a LINKS section that has not. -/
def img2 : List Byte := imgOf 2 4544 [descB 3 0 0 1 4224 8, descB 6 0 0 0 4288 8] (List.replicate 20 0)

/-- The cluster at a step with its words arrived and its WSETs armed. -/
def armedAt (s : State) (n : Fin 128) (st : Nat) : Cluster :=
  (armWsets s n st (stepWords (arriveStep s n st (clu s n)) st) (arriveStep s n st (clu s n))).getD {}

/-- An option that holds something holds what `getD` gives. -/
theorem some_of_isSome {α : Type} {o : Option α} {d : α} (h : o.isSome = true) : o = some (o.getD d) := by
  cases o with
  | none => cases h
  | some x => rfl

/-- A parent that has sent no Sync yet sends its first when its sequencing starts. -/
theorem sync_due_at_start (s : State) (l : Nat) (h : look (fun _ => 0) s.time.syncDue l = 0) :
    syncIsDue s l = true := by
  simp [syncIsDue, h]

/-! ## The hypotheses of the obligations -/

def clusterWalk3 : State := running (withClu 3 { walk := .inLeg 5, bankDebt := 1 } State.reset)

/-- The hypotheses of ClusterWalk, clause by clause. -/
theorem wit_ClusterWalk :
    (∃ (n : Fin 128) (s : State) (k : Nat), clusterRuns s n = true ∧ s.sched.run = .running ∧ (clu s n).walk =
      .transition k ∧ k < 4 ∧ (clu s n).bankDebt = 0) ∧
    (∃ (n : Fin 128) (s : State) (p : Nat), clusterRuns s n = true ∧ s.sched.run = .running ∧ (clu s n).walk =
      .milestone p ∧ p < 48) ∧
    (∃ (n : Fin 128) (s : State) (st : Nat) (c : Cluster), clusterRuns s n = true ∧ s.sched.run = .running ∧ (clu s
      n).walk = .inLeg st ∧ armWsets s n st (stepWords (arriveStep s n st (clu s n)) st) (arriveStep s n st (clu s
      n)) = some c ∧ stallCauses s n c st (stepWords (arriveStep s n st (clu s n)) st) = [] ∧ 0 < c.bankDebt) ∧
    (∃ (n : Fin 128) (s : State) (k : Nat), clusterRuns s n = true ∧ s.sched.run = .running ∧ (((clu s n).walk =
      .transition k ∨ (clu s n).walk = .atEnd)) ∧ 0 < (clu s n).bankDebt) :=
  ⟨⟨3, running (withClu 3 { walk := .transition 3 } State.reset), 3, by decide +kernel⟩,
   ⟨127, running (withClu 127 { walk := .milestone 47 } State.reset), 47, by decide +kernel⟩,
   ⟨3, clusterWalk3, 5, armedAt clusterWalk3 3 5, by decide +kernel, by decide +kernel, by decide +kernel,
     some_of_isSome (by decide +kernel), by decide +kernel, by decide +kernel⟩,
   ⟨3, running (withClu 3 { walk := .transition 4, bankDebt := 2 } State.reset), 4, by decide +kernel⟩⟩

def stepResults1 : State := running (withRegs [(R.glbSchedDepth, 1024), (R.glbSchedStatus, 0x100)] (withClu 3 { walk := .inLeg 1023, imem := [(1023, 0x0400000000000000000000001#96 <<< 66), (511 * 1024 + 1023, 0x3#96 <<< 90 ||| 1#96 <<< 80)], dict := [(0, 1)], prev := [(5, true)], cur := [(1024, true)], forces := [(63, 0xC00193FF)] }
  State.reset))

/-- The hypotheses of StepResults. -/
theorem wit_StepResults :
    ∃ (n : Fin 128) (s : State) (st : Nat) (c : Cluster), clusterRuns s n = true ∧ s.sched.run = .running ∧ (clu s
      n).walk = .inLeg st ∧ st < 1024 ∧ armWsets s n st (stepWords (arriveStep s n st (clu s n)) st) (arriveStep s n
      st (clu s n)) = some c ∧ stallCauses s n c st (stepWords (arriveStep s n st (clu s n)) st) = [] ∧ c.bankDebt =
      0 :=
  ⟨3, stepResults1, 1023, armedAt stepResults1 3 1023, by decide +kernel, by decide +kernel, by decide +kernel,
    by decide +kernel, some_of_isSome (by decide +kernel), by decide +kernel, by decide +kernel⟩

/-- The hypotheses of ClusterArrivals, clause by clause. -/
theorem wit_ClusterArrivals :
    (∃ (n : Fin 128) (s : State) (st : Nat) (m : Mrd) (rest : List Mrd), (clu s n).mrds = m :: rest ∧ (clu s n).walk =
      .inLeg st ∧ m.step + 6 ≤ st) ∧
    (∃ (n : Fin 128) (s : State) (h : Held) (rest : List Held), (ni s n).words = h :: rest ∧ h.due ≤ routerPeriods s
      (routerOfNi s n) ∧ reachRuns s (n / 8) = true ∧ bit s (R.cluArrEntry n (headTag h.packet.head)) 31 = true ∧
      deadlinePassed s (clu s n) (bits s (R.cluArrEntry n (headTag h.packet.head)) 0 10) = false) ∧
    (∃ (n : Fin 128) (s : State) (p : Packet) (rest : List Packet) (o : Outstanding) (q : Nat), (ni s n).responses = p
      :: rest ∧ (ni s n).outstanding.find? (fun x => x.tag == headTag p.head % 64) = some o ∧ o.queue = some q ∧
      (queue (clu s n) q).places.length ≤ 32) ∧
    (∃ (n : Fin 128) (s : State) (m : Mrd) (rest : List Mrd) (k : Nat), (clu s n).mrds = m :: rest ∧ (((clu s n).walk =
      .transition k ∨ (clu s n).walk = .atEnd))) ∧
    (∃ (n : Fin 128) (s : State) (h : Held) (rest : List Held), (ni s n).words = h :: rest ∧ h.due ≤ routerPeriods s
      (routerOfNi s n) ∧ reachRuns s (n / 8) = false ∧ wordWaits s n = true) ∧
    (∃ (n : Fin 128) (s : State) (g : Held) (h : Held) (rest : List Held), (ni s n).words = g :: h :: rest ∧
      routerPeriods s (routerOfNi s n) < g.due ∧ h.due ≤ routerPeriods s (routerOfNi s n)) :=
  ⟨⟨0, withClu 0 { walk := .inLeg 1023, mrds := [⟨7, 1017, 0xABCD⟩, ⟨1, 1020, 3⟩], laneRdata := [(7, 1)] } State.reset,
     1023, ⟨7, 1017, 0xABCD⟩, [⟨1, 1020, 3⟩], by decide +kernel⟩,
   ⟨9, running (withRegs [(R.cluArrEntry 9 255, 0x80030005), (R.glbSchedStatus, 0x200), (R.cluSwellIn 9 255,
     0xFFFFFFFF)] (withNi 9 { words := [⟨packetTo 9 3 0 0 255 [0xFEED], 0⟩] } (withClu 9 { walk := .inLeg 5 } { State.reset with net := { State.reset.net with periods := [(9, 8)] } }))),
     ⟨packetTo 9 3 0 0 255 [0xFEED], 0⟩, [], by decide +kernel⟩,
   ⟨127, withNi 127 { responses := [packetTo 127 148 2 2 63 [77, 78, 79]], outstanding := [⟨1, 2, none, 0⟩, ⟨63, 148, some 15, 2⟩] }
     (withClu 127 { queues := [(15, { words := [1,2], places := [⟨63, none⟩, ⟨63, none⟩, ⟨5, some 9⟩, ⟨4, none⟩] })] }
     State.reset), packetTo 127 148 2 2 63 [77, 78, 79], [], ⟨63, 148, some 15, 2⟩, 15, by decide +kernel⟩,
   ⟨127, withClu 127 { walk := .transition 3, mrds := [⟨7, 1017, 0xABCD⟩, ⟨1, 1020, 3⟩], laneRdata := [(7, 1)] }
     State.reset, ⟨7, 1017, 0xABCD⟩, [⟨1, 1020, 3⟩], 3, by decide +kernel⟩,
   ⟨9, withRegs [(R.ldReach, 0x00020002)] (withNi 9 { words := [⟨packetTo 9 3 0 0 255 [0xFEED], 0⟩, ⟨packetTo 9 3 0 0 255 [1], 0⟩] }
     (withClu 9 { swell := 5, pending := [(3, 4)] } { State.reset with rl := {} })), ⟨packetTo 9 3 0 0 255 [0xFEED],
     0⟩, [⟨packetTo 9 3 0 0 255 [1], 0⟩], by decide +kernel⟩,
   ⟨9, running (withNi 9 { words := [⟨packetTo 9 3 0 0 254 [0xFEED], 1000000⟩, ⟨packetTo 9 3 0 0 255 [0xFEED], 0⟩, ⟨packetTo 9 3 0 0 255 [1], 0⟩] }
     State.reset), ⟨packetTo 9 3 0 0 254 [0xFEED], 1000000⟩, ⟨packetTo 9 3 0 0 255 [0xFEED], 0⟩, [⟨packetTo 9 3 0 0
     255 [1], 0⟩], by decide +kernel⟩⟩

/-- The hypotheses of ClusterRequests, clause by clause. -/
theorem wit_ClusterRequests :
    (∃ (n : Fin 128) (s : State) (k : Nat), (clu s n).waitFor = some k ∧ reg s (R.cluWmTimeout n) ≠ 0 ∧ (reg s
      (R.cluWmTimeout n)).toNat < (clu s n).waitPeriods ∧ (clu s n).waitRaised = false ∧ k < 64 ∧ domainOn s (n / 8)
      = true) ∧
    (∃ (n : Fin 128) (s : State) (g : Nat) (e : Nat), bit s (R.wfNiCtrl n) 0 = false ∧ freeTag (ni s n) = some g ∧
      nextSource s n (clu s n) = some 16 ∧ entryTo s n 152 1 = some e) ∧
    (∃ (n : Fin 128) (s : State) (p : Packet) (rest : List Packet), (ni s n).acceptances = p :: rest) ∧
    (∃ (i : Fin 136) (s : State) (p : Packet) (rest : List Packet), (ni s i).notices = p :: rest ∧ (p.payload.headD
      0).getLsbD 0 = false) ∧
    (∃ (i : Fin 136) (s : State) (h : Held), (ni s i).sourceHold = [h] ∧ h.due ≤ routerPeriods s (routerOfNi s i) ∧
      sealHead h.packet.head = h.packet.head) :=
  ⟨⟨64, withRegs [(R.cluWmTimeout 64, 1), (R.pwrDomainStatus 8, 0x40000000)] (withClu 64 { waitFor := some 63, waitPeriods := 2 }
     State.reset), 63, by decide +kernel⟩,
   ⟨0, withRegs [(R.wfRt0 0 255, 0xA2980000), (R.wfRt1 0 255, 0x2)] (withNi 0 { lastSource := 15 } (withClu 0 { sendFifo := [5, 6] }
     State.reset)), 0, 255, by decide +kernel⟩,
   ⟨5, withNi 5 { acceptances := [packetTo 5 152 4 2 0 []], outstanding := [⟨0, 152, none, 0⟩, ⟨1, 152, none, 0⟩] }
     State.reset, packetTo 5 152 4 2 0 [], [], by decide +kernel⟩,
   ⟨135, withNi 135 { notices := [packetTo 255 3 4 2 0 [0xFFFFFFFFFFFFFFFE]] } State.reset, packetTo 255 3 4 2 0
     [0xFFFFFFFFFFFFFFFE], [], by decide +kernel⟩,
   ⟨128, withNi 128 { sourceHold := [⟨packetTo 3 128 0 0 5 [9], 0⟩] } State.reset, ⟨packetTo 3 128 0 0 5 [9], 0⟩,
     by decide +kernel⟩⟩

def meshCommands1F : Flit := ⟨(packetTo 0 9 1 1 5 [9]).head, 1, true, true, false, false, 0⟩

def meshCommands2P : Packet := packetTo 127 3 0 0 255 [1]

def meshCommands3P : Packet := packetTo 3 3 1 1 255 [1]

def meshCommands4P : Packet := packetTo 8 152 6 3 1 [0x203]

def meshCommands4X : Ni := { outstanding := [⟨0, 1, none, 1⟩] }

/-- The hypotheses of MeshCommands, clause by clause. -/
theorem wit_MeshCommands :
    (∃ (r : Fin 144) (s : State) (i : Nat) (v : Nat) (f : Flit) (d : Fin 136), routerInReset s r = false ∧ chooseFlit s
      r 0 = some (i, v) ∧ ((∀ o, o < 5 → o ≠ 0 → chooseFlit s r o = none)) ∧ bufferAt s (vcKey r i v) = [f] ∧ f.tail
      = true ∧ niOfRouter s r = some d.val ∧ look (fun _ => []) (ni s d).partialIn f.vc = []) ∧
    (∃ (i : Fin 136) (s : State) (p : Packet) (rest : List Packet), (ni s i).arrived = p :: rest ∧ headKind p.head = 0 ∧
      niOfEndpoint s (headDst p.head) = some i.val ∧ endpointClosed s (headDst p.head) = false) ∧
    (∃ (i : Fin 136) (s : State) (p : Packet) (rest : List Packet), (ni s i).arrived = p :: rest ∧ headKind p.head ≤ 1 ∧
      niOfEndpoint s (headDst p.head) ≠ some i.val) ∧
    (∃ (n : Fin 128) (s : State) (p : Packet) (x : Ni) (g : Nat), takeManagement (ni s n) 6 = some (p, x) ∧ reachRuns s
      (n / 8) = true ∧ inboundQueue s n (bitsOf (p.payload.headD 0) 0 4) = true ∧ freeTag x = some g ∧ bitsOf
      (p.payload.headD 0) 4 6 ≤ queueRoom (clu s n) (bitsOf (p.payload.headD 0) 0 4)) :=
  ⟨⟨0, { State.reset with net := { State.reset.net with buffers := [(vcKey 0 1 1, [meshCommands1F])], locks := [], wheelsStopped := false, wheel := [(0, 63)] } },
     1, 1, meshCommands1F, 0, by decide +kernel⟩,
   ⟨127, withRegs [(R.pwrDomainStatus 15, 0x40000000)] (withNi 127 { arrived := [meshCommands2P, meshCommands2P] }
     State.reset), meshCommands2P, [meshCommands2P], by decide +kernel⟩,
   ⟨127, withNi 127 { arrived := [meshCommands3P] } State.reset, meshCommands3P, [], by decide +kernel⟩,
   ⟨8, running (withRegs [(R.cluQCfg 8 3, 0x80000000)] (withNi 8 { meshCommands4X with management := [meshCommands4P] }
     (withClu 8 {} State.reset))), meshCommands4P, meshCommands4X, 1, by decide +kernel⟩⟩

/-- The hypotheses of NiAndRouterControl, clause by clause. -/
theorem wit_NiAndRouterControl :
    (∃ (i : Fin 136) (s : State), ((128 ≤ i.val ∨ inHold s (i / 8) = true ∨ designFrozen s = true))) ∧
    (∃ (i : Fin 136) (s : State), i.val < 128 ∧ inHold s (i / 8) = false ∧ designFrozen s = false) ∧
    (∃ (i : Fin 136) (s : State), bit s (R.wfNiCtrl i) 0 = true ∧ (ni s i).outstanding = []) ∧
    (∃ (r : Fin 144) (s : State), bit s (R.wfRtrCtrl r) 0 = false) ∧
    (∃ (r : Fin 144) (s : State), routerDraining s r = true ∧ routerDrained s r = true) ∧
    (∃ (r : Fin 144) (s : State), routerInReset s r = true) :=
  ⟨⟨128, State.reset, by decide +kernel⟩,
   ⟨127, running State.reset, by decide +kernel⟩,
   ⟨135, withRegs [(R.wfNiCtrl 135, 1)] (withNi 135 {} State.reset), by decide +kernel⟩,
   ⟨143, State.reset, by decide +kernel⟩,
   ⟨143, withRegs [(R.wfRtrStatus 143, 0x40000000)] { State.reset with net := { State.reset.net with buffers := [], locks := [] } },
     by decide +kernel⟩,
   ⟨0, withRegs [(R.wfRtrStatus 0, 0x80000000), (R.wfRtrCtrl 0, 1)] State.reset, by decide +kernel⟩⟩

/-- The hypotheses of RouteAndSlotControl, clause by clause. -/
theorem wit_RouteAndSlotControl :
    (∃ (i : Fin 136) (e : Fin 256) (s : State) (v : Word), bit s (R.wfNiStatus i) 31 = false) ∧
    (∃ (i : Fin 136) (e : Fin 256) (s : State) (v : Word), bit s (R.wfNiStatus i) 31 = true ∧ v.getLsbD 31 = true ∧
      routeCheck s i e v = false) ∧
    (∃ (i : Fin 136) (e : Fin 256) (s : State) (v : Word), bit s (R.wfNiStatus i) 31 = true ∧ routeCheck s i e v = true) ∧
    (∃ (s : State) (v : Word), v.getLsbD 31 = true ∧ bit s R.wfPtraceCtrl 31 = false) ∧
    (∃ (p : Fin 32) (s : State) (r : ProbeRecord) (rest : List ProbeRecord), look (fun _ => []) s.net.probeHold p = r ::
      rest ∧ recordMayGo s p = true ∧ endpointClosed s 156 = false ∧ s.net.traceCount < 1024) ∧
    (∃ (p : Fin 32) (s : State), recordMayGo s p = false) :=
  ⟨⟨135, 255, State.reset, 0, by decide +kernel⟩,
   ⟨135, 255, withRegs [(R.wfNiStatus 135, 0x80000000)] State.reset, 0xFFFFFFFF, by decide +kernel⟩,
   ⟨0, 0, withRegs [(R.wfNiStatus 0, 0x80000000)] State.reset, 0x80000000, by decide +kernel⟩,
   ⟨State.reset, 0x80000000, by decide +kernel⟩,
   ⟨31, withRegs [(R.wfPtracePtr, 1023), (R.pwrDomainStatus 25, 0x40000000), (R.glbUnitPresent1, 0xFFFFF),
     (R.glbUnitPresent0, 0x7FFFFF)] { State.reset with net := { State.reset.net with probeHold := [(31, [⟨1,2,3,4⟩])], traceCount := 1023 } },
     ⟨1,2,3,4⟩, [], by decide +kernel⟩,
   ⟨31, withRegs [(R.wfNiCtrl 0, 1), (R.wfProbeCfg 31, 0)] { State.reset with net := { State.reset.net with probeHold := [(31, [⟨1,2,3,4⟩])] } },
     by decide +kernel⟩⟩

/-- The hypotheses of LegDecision, clause by clause. -/
theorem wit_LegDecision :
    (∃ (s : State) (a : Nat) (k : Nat), ((s.sched.run = .running ∨ s.sched.run = .stopped)) ∧ legFrom s = some a ∧ ((∀ n
      ∈ runningClusters s, inTransition (clu s n) = true)) ∧ decide_ s 33 a = .run k) ∧
    (∃ (s : State) (a : Nat) (k : Nat), ((s.sched.run = .running ∨ s.sched.run = .stopped)) ∧ legFrom s = some a ∧ ((∀ n
      ∈ runningClusters s, inTransition (clu s n) = true)) ∧ decide_ s 33 a = .wait k) ∧
    (∃ (s : State) (a : Nat), ((s.sched.run = .running ∨ s.sched.run = .stopped)) ∧ legFrom s = some a ∧ ((∀ n ∈
      runningClusters s, inTransition (clu s n) = true)) ∧ decide_ s 33 a = .none) :=
  ⟨⟨withRegs [(R.ldReach, 0xFFFE0001), (R.glbSchedDepth, 8), (R.glbSchedStatus, 0x100), (R.glbLeg 0, 0x80000000)]
     (forUpTo 8 (fun m t => withClu m { walk := .transition 4, swell := 1 } t) { State.reset with sched := { State.reset.sched with run := .running, phase := .deciding 0, awaited := [], edges := 1 } }),
     0, 0, by decide +kernel⟩,
   ⟨withRegs [(R.ldReach, 0xFFFE0001), (R.glbSchedDepth, 8), (R.glbSchedStatus, 0x100), (R.glbLeg 0, 0x80000000)]
     (forUpTo 8 (fun m t => withClu m { walk := .transition 3 } t) { State.reset with sched := { State.reset.sched with run := .running, phase := .deciding 0, edges := 1 } }),
     0, 0, by decide +kernel⟩,
   ⟨withRegs [(R.ldReach, 0xFFFE0001)] (forUpTo 8 (fun m t => withClu m { walk := .transition 4 } t) { State.reset with sched := { State.reset.sched with run := .running, phase := .deciding 0, awaited := [] } }),
     0, by decide +kernel⟩⟩

/-- The hypotheses of Milestone, clause by clause. -/
theorem wit_Milestone :
    (∃ (s : State), atMilestonePoint s = true ∧ ldState s ≠ 3 ∧ s.rl = {} ∧ s.sched.hazardFirst = []) ∧
    (∃ (s : State), mayLeave s = true) :=
  ⟨⟨withRegs [(R.ldReach, 0xFFFE0001)] (forUpTo 8 (fun m t => withClu m { walk := .milestone 48, cur := [(3, true)] }
     t) { State.reset with sched := { State.reset.sched with run := .running, phase := .walked, ec := -1, awaited := [], hazardLog := [], probes := [] } }),
     by decide +kernel⟩,
   ⟨withRegs [(R.ldReach, 0xFFFE0001)] (forUpTo 8 (fun m t => withClu m { walk := .milestone 48 } t) { State.reset with sched := { State.reset.sched with run := .running, phase := .milestone, awaited := [], ec := 9 }, net := {} }),
     by decide +kernel⟩⟩

/-- The hypotheses of Tokens, clause by clause. -/
theorem wit_Tokens :
    (∃ (a : Fin 80) (l : Nat) (s : State) (x : TokenIn), laneLooped s a = false ∧ laneState s a = laneOper ∧ linkOfLane
      s a = some l ∧ x.crcOk = true ∧ x.rx.errors = [] ∧ bit s R.glbMsLinks l = true ∧ x.count.toNat ∉ (link s
      l).tokensIn ∧ x.count.toNat = awaitedEc s l % 256) ∧
    (∃ (a : Fin 80) (l : Nat) (s : State) (x : TokenIn), laneLooped s a = false ∧ laneState s a = laneOper ∧ linkOfLane
      s a = some l ∧ x.crcOk = true ∧ x.rx.errors = [] ∧ bit s R.glbMsLinks l = true ∧ x.count.toNat ∉ (link s
      l).tokensIn ∧ x.count.toNat ≠ awaitedEc s l % 256) ∧
    (∃ (a : Fin 80) (s : State) (x : TokenIn), laneLooped s a = false ∧ laneState s a = laneOper ∧ x.crcOk = false ∧
      x.rx.errors = [] ∧ (lane s a).codeErrors = [] ∧ laneWasUp s a = true) ∧
    (∃ (a : Fin 80) (l : Nat) (s : State) (x : TokenIn), laneLooped s a = false ∧ laneState s a = laneOper ∧ linkOfLane
      s a = some l ∧ x.crcOk = true ∧ x.rx.errors = [] ∧ bit s R.glbMsLinks l = true ∧ x.count.toNat ∉ (link s
      l).holdsIn) ∧
    (∃ (s : State) (l : Nat), s.sched.run = .running ∧ s.sched.phase = .milestone ∧ periodsCounted s = true ∧
      s.sched.tokenRaised = false ∧ reg s R.glbMsTokenTimeout ≠ 0 ∧ l ∈ pendingTokens s ∧ l ∉ s.sched.holds) ∧
    (∃ (l : Fin 20) (s : State) (h : Bool) (c : Nat), (link s l).lastTokenOut = some (h, c) ∧ c < 256) :=
  ⟨⟨76, 19, withRegs [(R.glbMsLinks, 0x80000), (R.cwLinkCfg 19, 0xCC400000), (R.cwLaneStatus 76, 0xA0000003)] { State.reset with sched := { State.reset.sched with awaited := [] } },
     ⟨0, true, ⟨3, []⟩⟩, by decide +kernel⟩,
   ⟨76, 19, withRegs [(R.glbMsLinks, 0x80000), (R.cwLinkCfg 19, 0xCC400000), (R.cwLaneStatus 76, 0xA0000003)] { State.reset with sched := { State.reset.sched with awaited := [] } },
     ⟨255, true, ⟨3, []⟩⟩, by decide +kernel⟩,
   ⟨76, withRegs [(R.glbMsLinks, 0x80000), (R.cwLinkCfg 19, 0xCC400000), (R.cwLaneStatus 76, 0xA0000003)] State.reset,
     ⟨255, false, ⟨0, []⟩⟩, by decide +kernel⟩,
   ⟨76, 19, withRegs [(R.glbMsLinks, 0x80000), (R.cwLinkCfg 19, 0xCC400000), (R.cwLaneStatus 76, 0xA0000003)] { State.reset with sched := { State.reset.sched with awaited := [] } },
     ⟨255, true, ⟨3, []⟩⟩, by decide +kernel⟩,
   ⟨withRegs [(R.glbMsLinks, 0x80000)] { State.reset with sched := { State.reset.sched with run := .running, phase := .milestone, awaited := [] } },
     19, by decide +kernel⟩,
   ⟨0, withRegs [(R.cwLinkCfg 0, 0x80400000)] (setLink State.reset 0 { lastTokenOut := some (true, 255) }), true, 255,
     by decide +kernel⟩⟩

/-- The hypotheses of RegisterAccess, clause by clause. -/
theorem wit_RegisterAccess :
    (∃ (p : Party) (a : Nat) (v : Word) (s : State) (g : RegGroup) (ix : List Nat), partyActs s p = true ∧ a ∈
      [R.glbStatus, R.glbMsTokenTimeout, R.glbMsStatus, R.glbHazardStatus, R.glbIrqCauseLo, R.glbDmaErr,
      R.pwrClkCfg] ∧ regAt a = some (g, ix)) ∧
    (∃ (p : Party) (b : Bar) (a : Nat) (v : Word) (w : Word) (s : State), partyActs s p = true ∧ b ∈ [Bar.bar0, .bar2] ∧
      a % 4 = 0 ∧ refMapped ⟨p, b, a, 8, false, false⟩ = true) ∧
    (∃ (p : Party) (b : Bar) (a : Nat) (n : Nat) (v : Word) (s : State), partyActs s p = true ∧ b ∈ [Bar.bar0, .bar2] ∧
      ((n < 4 ∨ a % 4 ≠ 0)) ∧ n ≤ 4 ∧ refMapped ⟨p, b, a, n, false, false⟩ = true) ∧
    (∃ (p : Party) (a : Nat) (v : Word) (s : State), partyActs s p = true ∧ a % 4 = 0 ∧ 0x1000000 ≤ a ∧ a < 0x2000000 ∧
      clusterOn s ((a - 0x1000000) / 0x20000) = false) ∧
    (∃ (b : Bar) (a : Nat) (n : Nat) (vs : List Word) (s : State), partyActs s .host = false ∧ b ∈ [Bar.bar0, .bar2]) ∧
    (∃ (a : Nat) (n : Nat) (vs : List Word) (s : State), lhHalted s = false ∧ 0x2C00000 < a + n) ∧
    (∃ (b : Bar) (a : Nat) (n : Nat) (vs : List Word) (s : State), partyActs s .host = true ∧ b ∈ [Bar.bar0, .bar2]) ∧
    (∃ (s : State), configActs s .host = true) ∧
    (∃ (s : State), configActs s .host = true) ∧
    (∃ (b : Bar) (a : Nat) (n : Nat) (x : Bool) (vs : List Word) (s : State), s.pcie.aer.control.getLsbD 8 = true) ∧
    (∃ (p : Party) (b : Bar) (a : Nat) (n : Nat) (x : Bool) (vs : List Word) (s : State), s.pcie.aer.control.getLsbD 8 =
      false) ∧
    (∃ (a : Nat) (c : Nat) (o : Nat) (v : Word) (s : State), lhHalted s = false ∧ a + 4 ≤ 2 ^ 30 ∧ a % 4 = 0 ∧ c = bits
      s R.lhDdrWin 30 2 ∧ o = bits s R.lhDdrWin 0 6 * 2 ^ 30 + a ∧ ddrOn s c = true ∧ ddrReady s c = true ∧ o + 4 ≤
      ddrCapacity s c ∧ (ddr s c).queue = [] ∧ captureWaits s c = false) ∧
    (∃ (a : Nat) (v : Word) (s : State), lhHalted s = false ∧ a + 4 ≤ 2 ^ 30 ∧ ddrOn s (bits s R.lhDdrWin 30 2) = false) :=
  ⟨⟨.host, R.glbIrqCauseLo, 0xFFFFFFFF, allOn (withRegs [(R.glbIrqCauseLo, 7)] State.reset), groupAt R.glbIrqCauseLo,
     [], by decide +kernel⟩,
   ⟨.lighthouse, .bar0, R.glbMsTokenTimeout, 1, 2, State.reset, by decide +kernel⟩,
   ⟨.lighthouse, .bar0, 0x1025, 4, 1, State.reset, by decide +kernel⟩,
   ⟨.lighthouse, 0x1FFFFFC, 1, State.reset, by decide +kernel⟩,
   ⟨.bar2, 0, 4, [1], State.reset, by decide +kernel⟩,
   ⟨0x2C00000, 4, [1], State.reset, by decide +kernel⟩,
   ⟨.bar2, 0x10000, 4, [1], withRegs [(R.glbPcieStatus, 0x38C00000)] State.reset, by decide +kernel⟩,
   ⟨withRegs [(R.glbPcieStatus, 0x38C00000)] State.reset, by decide +kernel⟩,
   ⟨withRegs [(R.glbPcieStatus, 0x38C00000)] State.reset, by decide +kernel⟩,
   ⟨.bar2, 0x10000, 4, true, [1], { State.reset with pcie := { State.reset.pcie with aer := { State.reset.pcie.aer with control := 0x100 } } },
     by decide +kernel⟩,
   ⟨.host, .bar0, R.glbMsTokenTimeout, 4, false, [1], allOn State.reset, by decide +kernel⟩,
   ⟨4096, 2, 3 * 2 ^ 30 + 4096, 0xFFFFFFFF, withRegs [(R.lhDdrWin, 0x80000003), (R.ddrChStatus 2, 0x80000000),
     (R.ddrChCfg 2, 0x00800000)] (setDdr (allOn { State.reset with dbg := {} }) 2 { mem := { cells := [(3 * 2 ^ 30 + 4096, 9), (3 * 2 ^ 30 + 4100, 8)] } }),
     by decide +kernel⟩,
   ⟨2 ^ 30 - 4, 1, withRegs [(R.lhDdrWin, 0x80000003), (R.pwrDomainStatus 18, 0)] State.reset, by decide +kernel⟩⟩

/-- The hypotheses of ReadEffects, clause by clause. -/
theorem wit_ReadEffects :
    (∃ (p : Party) (s : State), partyActs s p = true ∧ find s.halves R.glbHazardCount = none) ∧
    (∃ (p : Party) (s : State), partyActs s p = true ∧ find s.halves R.timeNowLo = none) ∧
    (∃ (p : Party) (s : State) (h : Word), partyActs s p = true ∧ find s.halves R.timeNowHi = some h) ∧
    (∃ (p : Party) (s : State) (h : Hazard) (rest : List Hazard), partyActs s p = true ∧ find s.halves R.glbHazardLogLo
      = none ∧ s.sched.hazardLog = h :: rest ∧ h.kind < 8 ∧ h.cluster < 128 ∧ h.bp < 512 ∧ h.step < 1024) ∧
    (∃ (s : State), configActs s .host = true) ∧
    (∃ (s : State), configActs s .host = true) ∧
    (∃ (p : Party) (s : State) (c : Instr), ((c = .readClear ⟨p, .bar0, R.glbHazardCount, 4, false, true⟩ ∨ c =
      .captureRead ⟨p, .bar0, R.timeNowLo, 4, false, true⟩)) ∧ p = .host ∧ s.pcie.aer.control.getLsbD 8 = true) ∧
    (∃ (a : Nat) (c : Nat) (o : Nat) (s : State), lhHalted s = false ∧ a + 4 ≤ 2 ^ 30 ∧ a % 4 = 0 ∧ c = bits s
      R.lhDdrWin 30 2 ∧ o = bits s R.lhDdrWin 0 6 * 2 ^ 30 + a ∧ ddrOn s c = true ∧ ddrReady s c = true ∧ o + 4 ≤
      ddrCapacity s c ∧ (ddr s c).queue = [] ∧ captureWaits s c = false) ∧
    (∃ (r : ConfigReg) (v : Word) (s : State), configActs s .host = true ∧ (r, v) ∈ [(ConfigReg.msixTable, (0x3FF0000 :
      Word)), (.msixPba, 0x3FF0800)]) ∧
    (∃ (b : Bar) (a : Nat) (n : Nat) (s : State), partyActs s .host = false ∧ b ∈ [Bar.bar0, .bar2] ∧ bits s
      R.glbPcieStatus 28 4 ≠ 0 ∧ s.pcie.aer.severity.getLsbD 20 = false) :=
  ⟨⟨.host, allOn (withRegs [(R.glbHazardCount, 0xFFFFFFFF)] { State.reset with halves := [] }), by decide +kernel⟩,
   ⟨.lighthouse, { State.reset with halves := [], time := { State.reset.time with now := 0x112233445566778899AABBCC } },
     by decide +kernel⟩,
   ⟨.lighthouse, { State.reset with halves := [(R.timeNowHi, 99)] }, 99, by decide +kernel⟩,
   ⟨.lighthouse, { State.reset with halves := [], sched := { State.reset.sched with hazardLog := [⟨7, 127, 511, 1023, 0xABCDE⟩, ⟨1,2,3,4,5⟩] } },
     ⟨7, 127, 511, 1023, 0xABCDE⟩, [⟨1,2,3,4,5⟩], by decide +kernel⟩,
   ⟨withRegs [(R.glbPcieStatus, 0x38C00000)] State.reset, by decide +kernel⟩,
   ⟨withRegs [(R.glbPcieStatus, 0x38C00000)] State.reset, by decide +kernel⟩,
   ⟨.host, { State.reset with pcie := { State.reset.pcie with aer := { State.reset.pcie.aer with control := 0x100 } } },
     .captureRead ⟨.host, .bar0, R.timeNowLo, 4, false, true⟩, by decide +kernel⟩,
   ⟨4096, 2, 3 * 2 ^ 30 + 4096, withRegs [(R.lhDdrWin, 0x80000003), (R.ddrChStatus 2, 0x80000000), (R.ddrChCfg 2,
     0x00800000)] (setDdr (allOn { State.reset with dbg := {} }) 2 { mem := { cells := [(3 * 2 ^ 30 + 4096, 9), (3 * 2 ^ 30 + 4100, 8)] } }),
     by decide +kernel⟩,
   ⟨.msixPba, 0x3FF0800, withRegs [(R.glbPcieStatus, 0x10000000)] State.reset, by decide +kernel⟩,
   ⟨.bar2, 0, 8, withRegs [(R.glbPcieStatus, 0x38000000)] State.reset, by decide +kernel⟩⟩

/-- The hypotheses of ForceAndSwell, clause by clause. -/
theorem wit_ForceAndSwell :
    (∃ (n : Fin 128) (f : Fin 64) (v : Word) (s : State), clusterOn s n = true) ∧
    (∃ (n : Fin 128) (v : Word) (s : State), clusterOn s n = true) :=
  ⟨⟨127, 63, 0xFFFFFFFF, allOn (withRegs [(R.cluForce 127 63, 0)] State.reset), by decide +kernel⟩,
   ⟨127, 0x80000000, allOn State.reset, by decide +kernel⟩⟩

/-- The hypotheses of ValueStoreView, clause by clause. -/
theorem wit_ValueStoreView :
    (∃ (n : Fin 128) (w : Fin 16384) (s : State), clusterOn s n = true ∧ designFrozen s = true) ∧
    (∃ (n : Fin 128) (w : Fin 16384) (v : Word) (s : State), clusterOn s n = true ∧ designFrozen s = true) ∧
    (∃ (n : Fin 128) (w : Fin 16384) (v : Word) (s : State), clusterOn s n = true ∧ designFrozen s = false) :=
  ⟨⟨127, 16383, allOn (withClu 127 { cur := [(511 * 1024 + 1023, true)] } { State.reset with sched := { State.reset.sched with run := .frozen } }),
     by decide +kernel⟩,
   ⟨127, 16383, 0x80000001, withRegs [(R.cluVsSel 127, 1)] (allOn (withClu 127 { cur := [(511 * 1024 + 1023, true)], prev := [(511 * 1024 + 1022, true)] }
     { State.reset with sched := { State.reset.sched with run := .stopped } })), by decide +kernel⟩,
   ⟨0, 0, 0x80000001, allOn State.reset, by decide +kernel⟩⟩

/-- The hypotheses of ManagementPackets, clause by clause. -/
theorem wit_ManagementPackets :
    (∃ (i : Fin 136) (q : Party) (v : Word) (s : State) (p : Packet) (rest : List Packet), (ni s i).management = p ::
      rest ∧ headKind p.head = 5 ∧ headDst p.head ≠ 155) ∧
    (∃ (i : Fin 136) (s : State) (p : Packet) (rest : List Packet), (ni s i).management = p :: rest ∧ headKind p.head =
      6 ∧ headDst p.head ≠ 155 ∧ find s.halves R.glbMsTokenTimeout = none) :=
  ⟨⟨135, .host, 0xFFFFFFFF, withNi 135 { management := [packetTo 154 3 5 3 0 [1]] } State.reset, packetTo 154 3 5 3 0
     [1], [], by decide +kernel⟩,
   ⟨135, withNi 135 { management := [packetTo 154 3 6 3 7 [1]] } { State.reset with halves := [] }, packetTo 154 3 6 3
     7 [1], [], by decide +kernel⟩⟩

/-- The hypotheses of LaneBringUp, clause by clause. -/
theorem wit_LaneBringUp :
    (∃ (a : Fin 80) (s : State), laneState s a = laneLock ∧ laneActive s a = true ∧ laneClocked s a = true) ∧
    (∃ (a : Fin 80) (s : State) (inv : Bool), laneState s a = laneAlign ∧ laneClocked s a = true) ∧
    (∃ (a : Fin 80) (s : State) (x : TrainingSet), laneLooped s a = false ∧ laneState s a = laneTrain ∧ laneClocked s a
      = true ∧ takenAlong s a = false ∧ x.good = true ∧ x.errors = [] ∧ linkOfLane s a = none) ∧
    (∃ (a : Fin 80) (s : State) (l : Nat), laneState s a = laneOper ∧ linkOfLane s a = some l ∧ l < 20 ∧ laneGone s a =
      false) ∧
    (∃ (a : Fin 80) (s : State), blockOn s (R.cwLaneCtrl a) = true ∧ laneState s a ≠ laneOper ∧ takenAlong s a = false) ∧
    (∃ (a : Fin 80) (s : State), blockOn s (R.cwLaneCtrl a) = false) ∧
    (∃ (a : Fin 80) (s : State) (on : Bool), blockOn s (R.cwLaneCtrl a) = true ∧ bit s (R.cwLaneCtrl a) 27 ≠ on ∧
      laneState s a ≠ laneOper ∧ takenAlong s a = false ∧ patternHolds s a = false) :=
  ⟨⟨79, withRegs [(R.cwLaneStatus 79, 0x20000000), (R.cwLaneCtrl 79, 0x80000000)] (allOn State.reset),
     by decide +kernel⟩,
   ⟨79, withRegs [(R.cwLaneStatus 79, 0x40000000)] State.reset, true, by decide +kernel⟩,
   ⟨79, withRegs [(R.cwLaneStatus 79, 0x60000000)] (setLane State.reset 79 { goodSets := 63 }), ⟨true, [], 255, 127,
     255, 8, 7, true⟩, by decide +kernel⟩,
   ⟨79, allOn (withRegs [(R.cwLinkCfg 19, 0xCC400000), (R.cwLaneStatus 79, 0xA0000000), (R.cwLinkStatus 19,
     0x80000000)] State.reset), 19, by decide +kernel⟩,
   ⟨79, withRegs [(R.cwLaneStatus 79, 0x60000000), (R.cwLaneCtrl 79, 0x80000000)] (allOn State.reset),
     by decide +kernel⟩,
   ⟨79, withRegs [(R.cwLaneStatus 79, 0x60000000), (R.cwLaneCtrl 79, 0x80000000)] State.reset, by decide +kernel⟩,
   ⟨79, withRegs [(R.cwLaneStatus 79, 0x60000000), (R.cwLaneCtrl 79, 0x80000000)] (allOn State.reset), true,
     by decide +kernel⟩⟩

/-- The hypotheses of PatternCommands, clause by clause. -/
theorem wit_PatternCommands :
    (∃ (a : Fin 80) (s : State), blockOn s (R.cwLaneCtrl a) = true ∧ bits s (R.cwLaneCtrl a) 28 2 = 1 ∧ laneActive s a =
      true ∧ laneFree s a = true) ∧
    (∃ (a : Fin 80) (s : State) (b : Bool), laneState s a = lanePattern ∧ bit s (R.cwPrbsCtrl a) 31 = false ∧ bit s
      (R.cwPrbsCtrl a) 30 = true ∧ bit s (R.cwLaneCtrl a) 27 = false ∧ bit s (R.cwPrbsCtrl a) 27 = false ∧ bit s
      (R.cwPrbsCtrl a) 26 = true ∧ b ≠ prbsNext (bits s (R.cwPrbsCtrl a) 28 2) (lane s a).checker) ∧
    (∃ (a : Fin 80) (s : State) (v : Word), blockOn s (R.cwLaneCtrl a) = true ∧ v.getLsbD 31 = true ∧ bitsOf v 29 2 = 2
      ∧ laneState (writeFields (R.cwInject a) v s) a = laneOper) ∧
    (∃ (a : Fin 80) (s : State), laneState s a = laneOper ∧ 1216 ≤ (lane s a).sinceFiller) ∧
    (∃ (a : Fin 80) (s : State) (fill : Fin 17) (rx : LaneIn), laneLooped s a = false ∧ laneState s a = laneOper ∧
      takenAlong s a = false ∧ rx.errors = [] ∧ 0 < fill.val ∧ fill.val < 16) ∧
    (∃ (a : Fin 80) (s : State) (full : Bool), laneState s a = laneOper ∧ laneGone s a = false) :=
  ⟨⟨79, withRegs [(R.cwLaneCtrl 79, 0x90000000)] (allOn State.reset), by decide +kernel⟩,
   ⟨79, withRegs [(R.cwLaneStatus 79, 0xC0000000), (R.cwPrbsCtrl 79, 0x44000000)] (setLane State.reset 79 { checker := 0, checkSeen := 64 }),
     true, by decide +kernel⟩,
   ⟨79, withRegs [(R.cwLaneStatus 79, 0xA0000000)] (allOn State.reset), 0xC0000000, by decide +kernel⟩,
   ⟨79, withRegs [(R.cwLaneStatus 79, 0xA0000000)] (setLane State.reset 79 { sinceFiller := 1216 }), by decide +kernel⟩,
   ⟨79, withRegs [(R.cwLaneStatus 79, 0xA0080000)] State.reset, 9, ⟨3, []⟩, by decide +kernel⟩,
   ⟨79, allOn (withRegs [(R.cwLaneStatus 79, 0xA0090000)] State.reset), true, by decide +kernel⟩⟩

/-- The hypotheses of LinkControl, clause by clause. -/
theorem wit_LinkControl :
    (∃ (l : Fin 20) (s : State) (v : Word), ((allHold s = false ∨ loadInProgress s = true))) ∧
    (∃ (l : Fin 20) (s : State) (v : Word), allHold s = true ∧ loadInProgress s = false ∧ v.getLsbD 31 = true ∧
      linkConfigOk s l v = true) ∧
    (∃ (l : Fin 20) (s : State), linkEnabled s l = true ∧ ((∀ a ∈ linkLanes s l, laneState s a = laneOper))) ∧
    (∃ (l : Fin 20) (s : State) (ms : List MarkerIn), linkEnabled s l = true ∧ (ms.map fun m => m.lane.val).Perm
      (linkLanes s l) ∧ ((∀ m ∈ ms, laneState s m.lane = laneOper ∧ laneLooped s m.lane = false ∧ takenAlong s
      m.lane = false ∧ m.rx.errors = [] ∧ m.crcOk = true ∧ m.width = linkWidth s l)) ∧ indicesOk (linkWidth s l)
      (ms.map (·.index)) = true ∧ ((∀ m ∈ ms, ∀ k ∈ ms, m.lag ≤ k.lag + 32))) ∧
    (∃ (l : Fin 20) (s : State), linkEnabled s l = true ∧ linkUp s l = false ∧ loopsMixed s l = false ∧ ((∀ a ∈
      linkLanes s l, laneState s a = laneOper ∧ bit s (R.cwLaneFar a) 16 = true ∧ bits s (R.cwLaneFar a) 12 4 =
      linkWidth s l)) ∧ indicesOk (linkWidth s l) ((linkLanes s l).map fun a => bits s (R.cwLaneFar a) 9 3) = true ∧
      bit s (R.cwLinkStatus l) 30 = true ∧ (link s l).replay = [] ∧ (link s (parentLink s)).rxLoad = []) ∧
    (∃ (l : Fin 20) (s : State) (v : Word), allHold s = true ∧ loadInProgress s = false ∧ v.getLsbD 31 = true ∧
      linkConfigOk s l v = false) ∧
    (∃ (l : Fin 20) (s : State) (ms : List MarkerIn), linkEnabled s l = true ∧ (ms.map fun m => m.lane.val).Perm
      (linkLanes s l) ∧ ((∀ m ∈ ms, laneState s m.lane = laneOper ∧ laneLooped s m.lane = false ∧ takenAlong s
      m.lane = false ∧ m.rx.errors = [] ∧ m.crcOk = true ∧ m.width = linkWidth s l)) ∧ indicesOk (linkWidth s l)
      (ms.map (·.index)) = true ∧ ((∃ m ∈ ms, ∃ k ∈ ms, k.lag + 32 < m.lag)) ∧ laneGone s (linkBase s l) = false) :=
  ⟨⟨19, withRegs [(R.ldReach, 0)] State.reset, 0xFFFFFFFF, by decide +kernel⟩,
   ⟨19, allOn (withRegs [(R.ldReach, 0xFFFF0000)] State.reset), 0x80800000, by decide +kernel⟩,
   ⟨19, withRegs ((R.cwLinkCfg 19, 0xCC400000) :: (List.range 4).map fun k => (R.cwLaneStatus (76 + k), 0xA0000000))
     State.reset, by decide +kernel⟩,
   ⟨19, withRegs ((R.cwLinkCfg 19, 0xCC400000) :: (R.cwLinkStatus 19, 0x10000000) :: ((List.range 4).map fun k =>
     (R.cwLaneStatus (76 + k), 0xA0000000))) State.reset, [⟨77, 4, 3, 32, true, ⟨2, []⟩⟩, ⟨76, 4, 1, 0, true, ⟨2,
     []⟩⟩, ⟨79, 4, 0, 5, true, ⟨2, []⟩⟩, ⟨78, 4, 2, 31, true, ⟨2, []⟩⟩], by decide +kernel⟩,
   ⟨19, withRegs ([(R.cwLinkCfg 19, 0xCC400000), (R.cwLinkStatus 19, 0x40000000), (R.cwLaneFar 76, 0x00014600),
     (R.cwLaneFar 77, 0x00014000), (R.cwLaneFar 78, 0x00014400), (R.cwLaneFar 79, 0x00014200)] ++ ((List.range
     4).map fun k => (R.cwLaneStatus (76 + k), 0xA0000000))) State.reset, by decide +kernel⟩,
   ⟨19, withRegs ((R.ldReach, 0xFFFF0000) :: (R.cwLinkCfg 0, 0x80400000) :: (R.cwLinkCfg 19, 0xCC400000) :: (List.range
     80).map fun k => (R.cwLaneStatus k, 0xA0000000)) (allOn State.reset), 0x80400000, by decide +kernel⟩,
   ⟨19, withRegs ((R.cwLinkCfg 19, 0xCC400000) :: (R.cwLinkStatus 19, 0xD0000000) :: ((List.range 4).map fun k =>
     (R.cwLaneStatus (76 + k), 0xA0000000))) (allOn State.reset), [⟨77, 4, 3, 33, true, ⟨2, []⟩⟩, ⟨76, 4, 1, 0,
     true, ⟨2, []⟩⟩, ⟨79, 4, 0, 5, true, ⟨2, []⟩⟩, ⟨78, 4, 2, 31, true, ⟨2, []⟩⟩], by decide +kernel⟩⟩

/-- The hypotheses of LinkDelayAndResend, clause by clause. -/
theorem wit_LinkDelayAndResend :
    (∃ (l : Fin 20) (s : State) (a : Fin 80) (n : Nat), linkUp s l = true ∧ linkLooped s l = false) ∧
    (∃ (l : Fin 20) (s : State) (a : Fin 80) (n : Nat) (t1 : Nat) (t2 : Nat) (t3 : Nat) (h : Nat), linkUp s l = true ∧
      linkLooped s l = false ∧ (link s l).requestAt = some t1 ∧ (link s l).exchangeCount < 16) ∧
    (∃ (l : Fin 20) (s : State), linkUp s l = true ∧ (link s l).exchangeCount = 16 ∧ bit s (R.cwLinkDelay l) 31 = false
      ∧ (link s l).deadlineIn = none) ∧
    (∃ (l : Fin 20) (s : State) (f : Frame), linkUp s l = true ∧ (link s l).resend = none ∧ (link s l).replay = [f]) ∧
    (∃ (l : Fin 20) (s : State) (n : Nat) (rest : List Nat) (f : Frame), (link s l).rxNaks = n :: rest ∧ (link s
      l).resend = none ∧ (link s l).replay = [f]) ∧
    (∃ (l : Fin 20) (s : State) (f : Frame), (link s l).replay = [f] ∧ (link s l).timeoutRaised = false ∧ (link s
      l).resend = none) :=
  ⟨⟨19, withRegs [(R.cwLinkStatus 19, 0x80000000), (R.cwLinkCfg 19, 0xCF100000), (R.cwLaneCtrl 79, 0x80000000)]
     (setLink State.reset 19 { exchangeCount := 15, clock := 100 }), 79, 5, by decide +kernel⟩,
   ⟨19, withRegs [(R.cwLinkStatus 19, 0x80000000), (R.cwLinkCfg 19, 0xCF100000), (R.cwLaneCtrl 79, 0x80000000)]
     (setLink State.reset 19 { exchangeCount := 15, clock := 100, requestAt := some 10 }), 79, 7, 10, 20, 30, 4,
     by decide +kernel⟩,
   ⟨19, withRegs [(R.cwLinkStatus 19, 0x80000000)] (setLink State.reset 19 { exchangeCount := 16, exchangeSum := 1000 }),
     by decide +kernel⟩,
   ⟨19, withRegs [(R.cwLinkStatus 19, 0x80000000)] (setLink State.reset 19 { replay := [⟨1, 0, false, 5, 7, none⟩], nakSent := true }),
     ⟨1, 0, false, 5, 7, none⟩, by decide +kernel⟩,
   ⟨19, withRegs [(R.cwLinkStatus 19, 0x80000000)] (setLink State.reset 19 { replay := [⟨1, 0, false, 255, 7, none⟩], rxNaks := [255] }),
     255, [], ⟨1, 0, false, 255, 7, none⟩, by decide +kernel⟩,
   ⟨19, withRegs [(R.cwLinkStatus 19, 0x80000000)] (setLink State.reset 19 { replay := [⟨1, 0, false, 255, 7, none⟩] }),
     ⟨1, 0, false, 255, 7, none⟩, by decide +kernel⟩⟩

/-- The hypotheses of LinkFrames, clause by clause. -/
theorem wit_LinkFrames :
    (∃ (a : Fin 80) (s : State) (l : Nat) (w : DWord) (c : Nat) (e : Nat), laneState s a = laneOper ∧ linkOfLane s a =
      some l ∧ linkUp s l = true ∧ laneLooped s a = false ∧ (lane s a).tokenDue = [] ∧ (lane s a).markerDue = false
      ∧ (lane s a).fillerDue = false ∧ (link s l).resend = none ∧ reportDue (link s l) = false ∧ (link s l).vc0 =
      [(w, c, e)] ∧ (link s l).replay = []) ∧
    (∃ (a : Fin 80) (s : State) (l : Nat) (f : FrameIn), laneState s a = laneOper ∧ linkOfLane s a = some l ∧ linkUp s l
      = true ∧ laneLooped s a = false ∧ f.aborted = false ∧ f.rx.errors = [] ∧ headerOk f.header = true ∧ bitsOf
      f.header 4 4 = 1 ∧ f.header.getLsbD 1 = false ∧ bitsOf f.header 8 8 = (link s l).expectedSeq ∧ (link s
      l).replay = []) ∧
    (∃ (l : Fin 20) (s : State) (p : BitVec 256) (rest : List (BitVec 256)), (link s l).rxVc0 = p :: rest ∧ bitsOf p 0 8
      = 1 ∧ routeValid s (niOfLink s l) (bitsOf p 80 8) = true ∧ routeVc s (niOfLink s l) (bitsOf p 80 8) = 0) ∧
    (∃ (l : Fin 20) (s : State) (f : Frame) (rest : List Frame), (link s l).rxFlits = f :: rest ∧ f.last = false) ∧
    (∃ (l : Fin 20) (s : State) (f : Frame), (link s l).rxFlits = [f] ∧ f.last = true ∧ 1 ≤ f.vc ∧ niMaySend s (niOfLink
      s l) (((withFlit (link s l) f).head?.map (·.data)).getD 0) = true) ∧
    (∃ (l : Fin 20) (s : State) (p : BitVec 256) (rest : List (BitVec 256)), (link s l).rxControl = p :: rest ∧ (link s
      (parentLink s)).rxLoad = []) ∧
    (∃ (l : Fin 20) (s : State) (h : Held), (ni s (niOfLink s l)).words = [h] ∧ headDst h.packet.head = 128 + l ∧ h.due
      ≤ routerPeriods s (routerOfNi s (niOfLink s l)) ∧ bit s (R.cwVc0Map l (headTag h.packet.head)) 31 = true) ∧
    (∃ (l : Fin 20) (m : Fin 20) (s : State) (p : BitVec 256) (b : BitVec 256) (rest : List (BitVec 256)), ldMode s = 1
      ∧ s.ld.going = true ∧ parentLink s = m ∧ childLinks s = [l.val] ∧ l ≠ m ∧ linkUp s l = true ∧ s.ld.tail = [] ∧
      s.ld.endAt = none ∧ ldState s = 1 ∧ s.ld.headerOk = false ∧ headerHere (s.ld.data ++ List.replicate s.ld.gap 0
      ++ (bytesLE 32 b.toNat).drop (min 32 s.ld.skip)) = false ∧ (link s m).rxLoad = [b] ∧ (link s l).rxControl = p
      :: rest ∧ (link s l).load.length + look (fun _ => 0) (link s l).sentFrames 3 < 32 + continueCount (look (fun _
      => 0) (link s l).creditIn 3) (bitsOf p 24 8)) :=
  ⟨⟨79, withRegs [(R.cwLinkCfg 19, 0xCF100000), (R.cwLaneStatus 79, 0xA0000000), (R.cwLinkStatus 19, 0xC0000000)]
     (setLink State.reset 19 { vc0 := [(0xABCD, 127, 255)], nextSeq := 255 }), 19, 0xABCD, 127, 255,
     by decide +kernel⟩,
   ⟨79, withRegs [(R.cwLinkCfg 19, 0xCF100000), (R.cwLaneStatus 79, 0xA0000000), (R.cwLinkStatus 19, 0xC0000000)]
     (setLink State.reset 19 { expectedSeq := 255 }), 19, ⟨BitVec.ofNat 32 ((crc8 [0x10, 0xFF, 0x00]).toNat * 2 ^ 24
     + 0x00FF10), 5, ⟨2, []⟩, false⟩, by decide +kernel⟩,
   ⟨19, withRegs [(R.wfRt0 131 127, 0x84050500)] (withNi 131 {} (setLink State.reset 19 { rxVc0 := [BitVec.ofNat 256 (255 * 2 ^ 88 + 127 * 2 ^ 80 + 0xFEED * 2 ^ 16 + 1)] })),
     BitVec.ofNat 256 (255 * 2 ^ 88 + 127 * 2 ^ 80 + 0xFEED * 2 ^ 16 + 1), [], by decide +kernel⟩,
   ⟨19, setLink State.reset 19 { rxFlits := [⟨2, 3, false, 9, 77, none⟩], creditOut := [(2, 255)] }, ⟨2, 3, false, 9,
     77, none⟩, [], by decide +kernel⟩,
   ⟨19, setLink State.reset 19 { rxFlits := [⟨2, 1, true, 9, 77, none⟩], creditOut := [(0, 255)] }, ⟨2, 1, true, 9, 77,
     none⟩, by decide +kernel⟩,
   ⟨19, setLink State.reset 19 { rxControl := [0x01020304, 3], creditIn := [(2, 255)] }, 0x01020304, [3],
     by decide +kernel⟩,
   ⟨19, withRegs [(R.cwVc0Map 19 255, 0x807F00FF)] (withNi 131 { words := [⟨packetTo 147 3 0 0 255 [9], 0⟩] }
     State.reset), ⟨packetTo 147 3 0 0 255 [9], 0⟩, by decide +kernel⟩,
   ⟨5, 19, withRegs [(R.ldCfg, 0x53000020), (R.ldStatus, 0x10000000), (R.cwLinkStatus 5, 0x80000000)] (setLink (setLink
     { State.reset with ld := { State.reset.ld with going := true, data := [1, 2], skip := 5, gap := 2 } } 19 { rxLoad := [0xABC0000000000000000000000000000000000000000000000000000000000001], creditOut := [(3, 255)] })
     5 { rxControl := [0x01020304, 3], sentFrames := [(3, 30)], load := [7, 8] }), 0x01020304,
     0xABC0000000000000000000000000000000000000000000000000000000000001, [3], by decide +kernel⟩⟩

/-- The hypotheses of ReservedFrame. -/
theorem wit_ReservedFrame :
    ∃ (a : Fin 80) (s : State) (l : Nat) (f : FrameIn), laneState s a = laneOper ∧ linkOfLane s a = some l ∧ linkUp s l
      = true ∧ laneLooped s a = false ∧ f.aborted = false ∧ f.rx.errors = [] ∧ headerOk f.header = true ∧ laneGone s
      (linkBase s l) = false ∧ 6 ≤ bitsOf f.header 4 4 ∧ bitsOf f.header 8 8 = (link s l).expectedSeq :=
  ⟨79, allOn (withRegs [(R.cwLinkCfg 19, 0xCF100000), (R.cwLaneStatus 79, 0xA0000000), (R.cwLinkStatus 19,
    0xC0000000)] (setLink State.reset 19 { expectedSeq := 255 })), 19, ⟨BitVec.ofNat 32 ((crc8 [0xF0, 0xFF,
    0x00]).toNat * 2 ^ 24 + 0x00FFF0), 5, ⟨2, []⟩, false⟩, by decide +kernel⟩

/-- The hypotheses of BankOwnership, clause by clause. -/
theorem wit_BankOwnership :
    (∃ (p : Party) (b : Fin 256) (v : Word) (s : State), partyActs s p = true ∧ ((0x84 ≤ bitsOf v 0 8 ∨ 0x84 ≤ bitsOf v
      16 8 ∨ (bitsOf v 0 8 < 0x80 ∧ bitsOf v 0 8 / 8 ≠ b / 16) ∨ (bitsOf v 16 8 < 0x80 ∧ bitsOf v 16 8 / 8 ≠ b / 16)
      ∨ (b.val % 16 < 14 ∧ bitsOf v 16 8 ≠ 0x80)))) ∧
    (∃ (p : Party) (b : Fin 256) (v : Word) (s : State), partyActs s p = true ∧ ownerRefused b (bitsOf v 0 8) (bitsOf v
      16 8) = false ∧ bit s (R.bankOwner b) 31 = true ∧ ownerLocked s (ownerOf s b false) (bitsOf v 0 8) = false ∧
      ownerLocked s (ownerOf s b true) (bitsOf v 16 8) = false ∧ ((ownerOf s b false ≠ bitsOf v 0 8 ∨ ownerOf s b
      true ≠ bitsOf v 16 8))) ∧
    (∃ (p : Party) (b : Fin 256) (v : Word) (s : State), partyActs s p = true ∧ ownerRefused b (bitsOf v 0 8) (bitsOf v
      16 8) = false ∧ ((bit s (R.bankOwner b) 31 = false ∨ ownerLocked s (ownerOf s b false) (bitsOf v 0 8) = true ∨
      ownerLocked s (ownerOf s b true) (bitsOf v 16 8) = true))) ∧
    (∃ (b : Fin 256) (s : State), (s.banks.handovers.any fun h => h.bank == b.val) = true) :=
  ⟨⟨.host, 255, 0x00800084, allOn State.reset, by decide +kernel⟩,
   ⟨.host, 255, 0x0078007F, allOn State.reset, by decide +kernel⟩,
   ⟨.host, 255, 0x00800083, allOn (withRegs [(R.bankOwner 255, 0x00808080)] State.reset), by decide +kernel⟩,
   ⟨255, { withRegs [(R.bankOwner 255, 0x00808080)] State.reset with banks := { State.reset.banks with handovers := [⟨255, true, false⟩, ⟨3, true, true⟩] } },
     by decide +kernel⟩⟩

/-- The hypotheses of BankPowerAndMarch, clause by clause. -/
theorem wit_BankPowerAndMarch :
    (∃ (p : Party) (b : Fin 256) (v : Word) (s : State), partyActs s p = true ∧ liveOwner s b = false ∧ marchOn s false
      b = false ∧ (¬ (bits s (R.bankCfg b) 28 2 = 2 ∧ bitsOf v 26 2 = 1))) ∧
    (∃ (p : Party) (b : Fin 256) (v : Word) (s : State), partyActs s p = true ∧ ((liveOwner s b = true ∨ marchOn s false
      b = true))) ∧
    (∃ (b : Fin 256) (s : State), domainOn s (b / 16) = true) ∧
    (∃ (v : Word) (s : State), v.getLsbD 31 = true ∧ marchAllowed s v = true) ∧
    (∃ (s : State) (m : March), s.banks.march = some m ∧ m.service = false) ∧
    (∃ (s : State) (m : March) (e : Fin 6) (w : Fin 32768) (k : Fin 64) (fs : List (Fin 6 × Fin 32768 × Fin 64)),
      s.banks.march = some m ∧ m.preserving = false) ∧
    (∃ (p : Party) (b : Fin 256) (v : Word) (s : State), partyActs s p = true ∧ liveOwner s b = false ∧ marchOn s false
      b = false ∧ bits s (R.bankCfg b) 28 2 = 2 ∧ bitsOf v 26 2 = 1) :=
  ⟨⟨.host, 255, 0x0E000007, allOn State.reset, by decide +kernel⟩,
   ⟨.host, 255, 0x0E000007, allOn { State.reset with banks := { State.reset.banks with march := some ⟨false, 255, true⟩ } },
     by decide +kernel⟩,
   ⟨200, allOn (withRegs [(R.bankCfg 200, 0x08000002)] State.reset), by decide +kernel⟩,
   ⟨0xC00000FF, allOn State.reset, by decide +kernel⟩,
   ⟨allOn { State.reset with banks := { State.reset.banks with march := some ⟨false, 200, false⟩ } }, ⟨false, 200,
     false⟩, by decide +kernel⟩,
   ⟨allOn { State.reset with banks := { State.reset.banks with march := some ⟨true, 15, false⟩ } }, ⟨true, 15, false⟩,
     5, 32767, 63, [(0,0,0)], by decide +kernel⟩,
   ⟨.host, 255, 0x06000007, withRegs [(R.bankCfg 255, 0x28000000)] (allOn State.reset), by decide +kernel⟩⟩

/-- The hypotheses of MarchResult, clause by clause. -/
theorem wit_MarchResult :
    (∃ (s : State) (m : March) (fs : List (Fin 6 × Fin 32768 × Fin 64)), s.banks.march = some m) ∧
    (∃ (v : Word) (s : State), v.getLsbD 31 = true ∧ marchAllowed s v = true) :=
  ⟨⟨allOn { State.reset with banks := { State.reset.banks with march := some ⟨true, 15, true⟩ } }, ⟨true, 15, true⟩,
     [(5,32767,63),(0,0,0)], by decide +kernel⟩,
   ⟨0xC00000FF, allOn State.reset, by decide +kernel⟩⟩

def bankAccess2 : State := allOn (withRegs [(R.bankViewSel, 255), (R.bankOwner 255, 0x80808081)] { State.reset with banks := { State.reset.banks with design := [(255, { cells := [(262143, 9)] })] } })

/-- The hypotheses of BankAccess, clause by clause. -/
theorem wit_BankAccess :
    (∃ (p : Party) (w : Fin 65536) (s : State), partyActs s p = true ∧ viewCheck s p (bits s R.bankViewSel 0 8) = .ok) ∧
    (∃ (p : Party) (w : Fin 65536) (v : Word) (s : State) (c : Instr) (new : Word), partyActs s p = true ∧ viewCheck s p
      (bits s R.bankViewSel 0 8) = .ok ∧ ((let old := readWord (designMem s (bits s R.bankViewSel 0 8)) (4 * w); (c
      = .controlViewAccess p w (.write v) ∧ new = v) ∨ (c = .setAliasWrite p .view w v ∧ new = old ||| v) ∨ (c =
      .clearAliasWrite p .view w v ∧ new = old &&& ~~~ v)))) ∧
    (∃ (p : Party) (k : Fin 16) (w : Fin 65536) (s : State), partyActs s p = true ∧ serviceOn s k = true ∧ marchOn s
      true k = false) ∧
    (∃ (p : Party) (k : Fin 16) (w : Fin 65536) (v : Word) (s : State) (c : Instr) (new : Word), partyActs s p = true ∧
      serviceOn s k = true ∧ marchOn s true k = false ∧ (¬ (p = .host ∧ k < 4 ∧ bit s R.lhStatus 23 = true)) ∧
      ((let old := readWord (serviceMem s k) (4 * w); (c = .serviceBankAccess p k w (.write v) ∧ new = v) ∨ (c =
      .setAliasWrite p (.service k) w v ∧ new = old ||| v) ∨ (c = .clearAliasWrite p (.service k) w v ∧ new = old
      &&& ~~~ v)))) ∧
    (∃ (k : Fin 16) (w : Fin 65536) (v : Word) (s : State), partyActs s .host = true ∧ serviceOn s k = true ∧ k.val < 4
      ∧ bit s R.lhStatus 23 = true) :=
  ⟨⟨.host, 65535, allOn (withRegs [(R.bankViewSel, 255), (R.bankOwner 255, 0x80808081)] { State.reset with banks := { State.reset.banks with design := [(255, { cells := [(262143, 9)] })] } }),
     by decide +kernel⟩,
   ⟨.host, 65535, 0x80000001, bankAccess2, .setAliasWrite .host .view 65535 0x80000001, readWord (designMem bankAccess2
     255) (4 * 65535) ||| 0x80000001, by decide +kernel⟩,
   ⟨.lighthouse, 0, 65535, { State.reset with banks := { State.reset.banks with service := [(0, { cells := [(262143, 9)] })] } },
     by decide +kernel⟩,
   ⟨.host, 15, 65535, 0xFF, allOn { State.reset with banks := { State.reset.banks with service := [(15, { cells := [(262140, 9)] })] } },
     .setAliasWrite .host (.service 15) 65535 0xFF, 0xFF, by decide +kernel⟩,
   ⟨3, 1, 9, withRegs [(R.lhStatus, 0x00800000)] (allOn State.reset), by decide +kernel⟩⟩

/-- The hypotheses of ForeignBankAccess. -/
theorem wit_ForeignBankAccess :
    ∃ (p : Party) (w : Fin 65536) (v : Word) (s : State), partyActs s p = true ∧ viewCheck s p (bits s R.bankViewSel 0
      8) = .foreign ∧ domainOn s (bits s R.bankViewSel 0 8 / 16) = true :=
  ⟨.host, 0, 1, allOn (withRegs [(R.bankViewSel, 255), (R.bankOwner 255, 0x80828082)] State.reset), by decide +kernel⟩

def ddrChannels7 : State := allOn (setDdr State.reset 3 { queue := [packetTo 151 3 1 1 0 [0x3000000000000001]], mem := { cells := [(8, 9)] } })

def ddrChannels8 : State := allOn (setDdr State.reset 3 { queue := [packetTo 151 3 1 1 0 [0x4000000000000001, 0xABCDEF0123]], mem := { cells := [(8, 9)] } })

/-- The hypotheses of DdrChannels, clause by clause. -/
theorem wit_DdrChannels :
    (∃ (c : Fin 4) (step : Nat) (lanes : Byte) (s : State), firmwareRuns s = true ∧ ddrOn s c = true ∧ ddrReady s c =
      false ∧ 2 ≤ step ∧ step ≤ 8 ∧ step = bits s (R.ddrTrainStatus c) 28 4 + 1) ∧
    (∃ (c : Fin 4) (step : Nat) (lanes : Byte) (s : State), firmwareRuns s = true ∧ ddrOn s c = true ∧ ddrReady s c =
      false ∧ 2 ≤ step ∧ step ≤ 8 ∧ step = bits s (R.ddrTrainStatus c) 28 4 + 1) ∧
    (∃ (c : Fin 4) (s : State), ddrOn s c = true ∧ ddrReady s c = true) ∧
    (∃ (c : Fin 4) (s : State) (p : Packet), (ni s (ddrNi c)).requests = [p] ∧ headDst p.head = 148 + c ∧ (ddr s
      c).queue.length < 256 ∧ ddrOn s c = true ∧ ddrRefusal s c (p.payload.headD 0) = none ∧ ((ddrOp
      (p.payload.headD 0) = 0 ∨ 2 ≤ s.sched.stage))) ∧
    (∃ (c : Fin 4) (s : State) (p : Packet) (cause : Nat), (ni s (ddrNi c)).requests = [p] ∧ headDst p.head = 148 + c ∧
      (ddr s c).queue.length < 256 ∧ ddrOn s c = true ∧ ddrRefusal s c (p.payload.headD 0) = some cause ∧ ((ddrOp
      (p.payload.headD 0) = 0 ∨ 2 ≤ s.sched.stage))) ∧
    (∃ (c : Fin 4) (s : State) (p : Packet), (ni s (ddrNi c)).requests = [p] ∧ headDst p.head = 148 + c ∧ (ddr s
      c).queue.length < 256 ∧ ddrOn s c = true ∧ ddrOp (p.payload.headD 0) ≠ 0 ∧ s.sched.stage < 2) ∧
    (∃ (c : Fin 4) (s : State) (p : Packet) (x : DdrChannel), ddrPresent s c = true ∧ domainWorks s (16 + c) = true ∧
      (ddr s c).queue = [p] ∧ ddrTurn s c .design = some x ∧ ddrOp (p.payload.headD 0) = 0) ∧
    (∃ (c : Fin 4) (s : State) (p : Packet) (x : DdrChannel), ddrPresent s c = true ∧ domainWorks s (16 + c) = true ∧
      (ddr s c).queue = [p] ∧ ddrTurn s c .design = some x ∧ ddrOp (p.payload.headD 0) ≠ 0) ∧
    (∃ (c : Fin 4) (s : State), ddrWeight s c .design = 0 ∧ classWaits s c .capture = true ∧ ddrWeight s c .capture ≠ 0) ∧
    (∃ (c : Fin 4) (ok : Bool) (lanes : Byte) (s : State), firmwareRuns s = true ∧ ddrOn s c = true ∧ ddrReady s c =
      false) :=
  ⟨⟨3, 8, 0, allOn (withRegs [(R.ddrTrainStatus 3, 0x70000000)] State.reset), by decide +kernel⟩,
   ⟨3, 8, 0xFF, allOn (withRegs [(R.ddrTrainStatus 3, 0x70000000)] State.reset), by decide +kernel⟩,
   ⟨3, allOn (withRegs [(R.ddrChStatus 3, 0x80000000)] State.reset), by decide +kernel⟩,
   ⟨3, allOn (withRegs [(R.ddrChStatus 3, 0x80000000), (R.ddrRegionBase 3 0, 0xC0000000), (R.ddrRegionSize 3 0, 1)]
     (withNi 133 { requests := [packetTo 151 3 1 1 0 [0]] } State.reset)), packetTo 151 3 1 1 0 [0],
     by decide +kernel⟩,
   ⟨3, allOn (withRegs [(R.ddrErr 3, 0xFFFF)] (withNi 133 { requests := [packetTo 151 3 1 1 0 [0]] } State.reset)),
     packetTo 151 3 1 1 0 [0], 5, by decide +kernel⟩,
   ⟨3, allOn (withNi 133 { requests := [packetTo 151 3 1 1 0 [0x4000000000000001, 5]] } State.reset), packetTo 151 3 1
     1 0 [0x4000000000000001, 5], by decide +kernel⟩,
   ⟨3, ddrChannels7, packetTo 151 3 1 1 0 [0x3000000000000001], (ddrTurn ddrChannels7 3 .design).getD {},
     by decide +kernel⟩,
   ⟨3, ddrChannels8, packetTo 151 3 1 1 0 [0x4000000000000001, 0xABCDEF0123], (ddrTurn ddrChannels8 3 .design).getD {},
     by decide +kernel⟩,
   ⟨0, withRegs [(R.ddrArb 0, 0x01000000), (R.acqStatus, 0x80000000), (R.acqCfg, 0)] (setAcq { fifo := [7] } (setDdr
     (allOn State.reset) 0 { queue := [packetTo 148 3 1 1 0 [0x3000000000000001]] })), by decide +kernel⟩,
   ⟨3, true, 0xFF, allOn (withRegs [(R.ddrTrainStatus 3, 0xF80000FF), (R.ddrChStatus 3, 0x40000000)] State.reset),
     by decide +kernel⟩⟩

/-- The hypotheses of Bar4, clause by clause. -/
theorem wit_Bar4 :
    (∃ (o : Nat) (es : List Bool) (s : State), partyActs s .host = true ∧ o + es.length ≤ 2 ^ 32 ∧ ddrOn s (bar4Channel
      s) = true ∧ bar4Refused s o (enabledAt es) = false ∧ (ddr s (bar4Channel s)).queue = [] ∧ classWaits s
      (bar4Channel s) .capture = false) ∧
    (∃ (o : Nat) (bs : List (Option Byte)) (s : State), partyActs s .host = true ∧ o + bs.length ≤ 2 ^ 32 ∧ ddrOn s
      (bar4Channel s) = true ∧ bar4Refused s o (enabledAt (bs.map Option.isSome)) = false ∧ (ddr s (bar4Channel
      s)).queue = [] ∧ classWaits s (bar4Channel s) .capture = false) ∧
    (∃ (o : Nat) (bs : List (Option Byte)) (s : State), partyActs s .host = true ∧ o + bs.length ≤ 2 ^ 32 ∧ ddrOn s
      (bar4Channel s) = true ∧ bar4Refused s o (enabledAt (bs.map Option.isSome)) = true) ∧
    (∃ (v : Word) (s : State), partyActs s .host = true) ∧
    (∃ (o : Nat) (n : Nat) (bs : List (Option Byte)) (s : State), partyActs s .host = true ∧ o + n ≤ 2 ^ 32) :=
  ⟨⟨2, [true, false, true, true, false, true, true], allOn (withRegs [(R.glbBar4Win, 0xB0000000), (R.ddrChStatus 3,
     0x80000000), (R.ddrChCfg 3, 0xFFFFFFFF)] (setDdr State.reset 3 { mem := { cells := [(3, 9)] } })),
     by decide +kernel⟩,
   ⟨2, [some 1, none, some 3], allOn (withRegs [(R.glbBar4Win, 0xB0000000), (R.ddrChStatus 3, 0x80000000), (R.ddrChCfg
     3, 0xFFFFFFFF)] (setDdr State.reset 3 { mem := { cells := [(3, 9)] } })), by decide +kernel⟩,
   ⟨0xFFFFFFFD, [some 1, none, some 3], allOn State.reset, by decide +kernel⟩,
   ⟨0xFFFFFFFF, allOn State.reset, by decide +kernel⟩,
   ⟨0xFFFFFFFD, 3, [some 1, none, some 3], allOn State.reset, by decide +kernel⟩⟩

/-- The hypotheses of HarbourCycle, clause by clause. -/
theorem wit_HarbourCycle :
    (∃ (s : State) (o : HbOperand), harbourOn s = true ∧ bit s R.hbTraceCtrl 31 = false ∧ acceptBlocked s = false ∧
      s.hb.notifies = [] ∧ networkOperand s = none ∧ s.hb.window = [o] ∧ heldOf s 128 < bits s R.hbQuota 16 16 ∧
      s.hb.ready = [] ∧ s.hb.delays = [] ∧ classOn s (opTag o.word) = true ∧ opSlot o.word < classArity s (opTag
      o.word) ∧ takeTask (opTag o.word) (classArity s (opTag o.word)) 0 (s.hb.store ++ [⟨withBits o.word 40 5 0,
      o.source⟩]) = none) ∧
    (∃ (s : State) (o : HbOperand) (ws : List DWord) (rest : List HbOperand), harbourOn s = true ∧ bit s R.hbTraceCtrl
      31 = false ∧ acceptBlocked s = false ∧ s.hb.notifies = [] ∧ networkOperand s = none ∧ s.hb.window = [o] ∧
      heldOf s 128 < bits s R.hbQuota 16 16 ∧ s.hb.ready = [] ∧ s.hb.delays = [] ∧ classOn s (opTag o.word) = true ∧
      opSlot o.word < classArity s (opTag o.word) ∧ classDelayed s (opTag o.word) = false ∧ takeTask (opTag o.word)
      (classArity s (opTag o.word)) 0 (s.hb.store ++ [⟨withBits o.word 40 5 0, o.source⟩]) = some (ws, rest)) ∧
    (∃ (s : State) (o : HbOperand), harbourOn s = true ∧ bit s R.hbTraceCtrl 31 = false ∧ acceptBlocked s = false ∧
      s.hb.notifies = [] ∧ networkOperand s = none ∧ s.hb.window = [o] ∧ heldOf s 128 < bits s R.hbQuota 16 16 ∧
      s.hb.ready = [] ∧ s.hb.delays = [] ∧ ((classOn s (opTag o.word) = false ∨ classArity s (opTag o.word) ≤ opSlot
      o.word))) ∧
    (∃ (s : State) (p : Nat) (k : HbTask) (front : List HbTask) (rest : List HbTask), harbourOn s = true ∧ bit s
      R.hbTraceCtrl 31 = false ∧ hbEnabled s = true ∧ s.hb.notifies = [] ∧ networkOperand s = none ∧ hostOperand s =
      false ∧ s.hb.delays = [] ∧ ((∀ q, q < 16 → ∀ x ∈ readyList s q, parkedAhead s x.tag = false)) ∧ p < 16 ∧
      readyList s p = front ++ k :: rest ∧ ((∀ x ∈ front, eligible s x = false)) ∧ ((∀ q, q < 16 → p < q → ∀ x ∈
      readyList s q, eligible s x = false)) ∧ eligible s k = true ∧ classAction s k.tag ≠ 0) ∧
    (∃ (l : Fin 4) (s : State), 0 < (delayList s l).owed) ∧
    (∃ (s : State) (p : Packet), harbourOn s = true ∧ bit s R.hbTraceCtrl 31 = false ∧ acceptBlocked s = false ∧
      s.hb.notifies = [] ∧ networkOperand s = some p ∧ ((hostOperand s = false ∨ s.hb.hostLast = true)) ∧ s.hb.ready
      = [] ∧ s.hb.delays = [] ∧ classOn s (opTag (p.payload.headD 0)) = true ∧ opSlot (p.payload.headD 0) <
      classArity s (opTag (p.payload.headD 0)) ∧ takeTask (opTag (p.payload.headD 0)) (classArity s (opTag
      (p.payload.headD 0))) 0 (s.hb.store ++ [⟨withBits (p.payload.headD 0) 40 5 0, headSrc p.head⟩]) = none) ∧
    (∃ (s : State) (o : HbOperand) (later : List HbOperand), harbourOn s = true ∧ bit s R.hbTraceCtrl 31 = false ∧
      acceptBlocked s = false ∧ s.hb.notifies = o :: later ∧ s.hb.ready = [] ∧ s.hb.delays = [] ∧ classOn s (opTag
      o.word) = true ∧ opSlot o.word < classArity s (opTag o.word) ∧ takeTask (opTag o.word) (classArity s (opTag
      o.word)) 0 (s.hb.store ++ [⟨withBits o.word 40 5 0, o.source⟩]) = none) ∧
    (∃ (s : State) (k : Nat) (d : TxDescriptor) (w : DWord) (ws : List DWord), harbourOn s = true ∧ bit s R.hbTraceCtrl
      31 = false ∧ acceptBlocked s = false ∧ s.hb.notifies = [] ∧ networkOperand s = none ∧ s.hb.window = [] ∧
      nextRing s = some k ∧ find s.hb.tx k = some d ∧ d.words = w :: ws ∧ heldOf s 128 < bits s R.hbQuota 16 16 ∧
      s.hb.ready = [] ∧ s.hb.delays = [] ∧ classOn s (opTag w) = true ∧ opSlot w < classArity s (opTag w) ∧ takeTask
      (opTag w) (classArity s (opTag w)) 0 (s.hb.store ++ [⟨withBits w 40 5 0, 128⟩]) = none) :=
  ⟨⟨allOn (withRegs [(R.hbCtrl,1),(R.hbQuota,0x00040004),(R.hbTraceCtrl,0),(R.hbClassA 5, 0xA3000000)] { State.reset with hb := { State.reset.hb with window := [⟨0x1405200000000007, 128⟩], store := [⟨0x1405200000000009, 3⟩], ready := [], delays := [] } }),
     ⟨0x1405200000000007, 128⟩, by decide +kernel⟩,
   ⟨allOn (withRegs [(R.hbCtrl,1),(R.hbQuota,0x00040004),(R.hbTraceCtrl,0),(R.hbClassA 5, 0x93000000)] { State.reset with hb := { State.reset.hb with window := [⟨0x1405200000000007, 128⟩], store := [⟨0x1405000000000009, 3⟩, ⟨0x1405000000000011, 4⟩], ready := [], delays := [] } }),
     ⟨0x1405200000000007, 128⟩, [0x1405000000000009, 0x1405200000000007], [⟨0x1405000000000011, 4⟩],
     by decide +kernel⟩,
   ⟨allOn (withRegs [(R.hbCtrl,1),(R.hbQuota,0x00040004),(R.hbTraceCtrl,0),(R.hbClassA 5, 0x83000000)] { State.reset with hb := { State.reset.hb with window := [⟨0x14052FFF00000007, 128⟩], ready := [], delays := [] } }),
     ⟨0x14052FFF00000007, 128⟩, by decide +kernel⟩,
   ⟨allOn (withRegs [(R.hbCtrl,1),(R.hbQuota,0x00040004),(R.hbTraceCtrl,0),(R.hbClassA 5, 0x8F200000),(R.hbClassA 6,
     0x8F600000)] { State.reset with hb := { State.reset.hb with window := [], ready := [(0, [⟨0x1405, [4], 0⟩]), (3, [⟨0x1805, [7], 0⟩, ⟨0x1405, [1,2], 0⟩, ⟨0x1805, [8], 0⟩, ⟨0x1405, [9], 0⟩]), (15, [⟨0x1805, [5], 0⟩])], delays := [], actions := [⟨⟨1,[],0⟩, 3, .waiting⟩] } }),
     3, ⟨0x1405, [1,2], 0⟩, [⟨0x1805, [7], 0⟩], [⟨0x1805, [8], 0⟩, ⟨0x1405, [9], 0⟩], by decide +kernel⟩,
   ⟨3, { State.reset with hb := { State.reset.hb with delays := [(3, { ticks := 5, owed := 2, tasks := [] })] } },
     by decide +kernel⟩,
   ⟨allOn (withRegs [(R.hbCtrl,1),(R.hbQuota,0x00040004),(R.hbTraceCtrl,0),(R.hbClassA 5, 0xA3000000)] (withNi 134 { requests := [packetTo 155 3 1 1 9 [7], packetTo 152 3 1 1 9 [0x1405200000000007, 1]] }
     { State.reset with hb := { State.reset.hb with window := [], store := [⟨0x1405200000000009, 3⟩], ready := [], delays := [] } })),
     packetTo 152 3 1 1 9 [0x1405200000000007, 1], by decide +kernel⟩,
   ⟨allOn (withRegs [(R.hbCtrl,1),(R.hbQuota,0x00040004),(R.hbTraceCtrl,0),(R.hbClassA 5, 0xA3000000)] (withNi 134 { requests := [packetTo 152 3 1 1 9 [7]] }
     { State.reset with hb := { State.reset.hb with window := [⟨5, 128⟩], notifies := [⟨0x1405200000000007, 129⟩, ⟨5, 129⟩], store := [⟨0x1405200000000009, 3⟩], ready := [], delays := [] } })),
     ⟨0x1405200000000007, 129⟩, [⟨5, 129⟩], by decide +kernel⟩,
   ⟨allOn (withRegs [(R.hbCtrl,1),(R.hbQuota,0x00040004),(R.hbTraceCtrl,0),(R.hbClassA 5, 0xA3000000)] { State.reset with hb := { State.reset.hb with window := [], tx := [(15, { irq := true, count := 2, words := [0x1405200000000007, 3], accepted := 1 })], lastRing := 15, store := [⟨0x1405200000000009, 3⟩], ready := [], delays := [] } }),
     15, { irq := true, count := 2, words := [0x1405200000000007, 3], accepted := 1 }, 0x1405200000000007, [3],
     by decide +kernel⟩⟩

/-- The hypotheses of HarbourRings, clause by clause. -/
theorem wit_HarbourRings :
    (∃ (s : State) (b : DWord) (x : HbAction), busMaster s = true ∧ harbourOn s = true ∧ s.hb.parked = [] ∧ s.hb.actions
      = [x] ∧ x.action = 1 ∧ x.phase = .waiting ∧ ringReady s (16 + classRing s x.task.tag) = true ∧ bit s
      (R.hbRingCfg (16 + classRing s x.task.tag)) 30 = false) ∧
    (∃ (s : State) (b : DWord) (x : HbAction), busMaster s = true ∧ harbourOn s = true ∧ s.hb.parked = [] ∧ s.hb.actions
      = [x] ∧ x.action = 1 ∧ x.phase = .waiting ∧ bit s R.hbTraceCtrl 31 = false ∧ ringOn s (16 + classRing s
      x.task.tag) = true ∧ ringReady s (16 + classRing s x.task.tag) = false) ∧
    (∃ (k : Fin 16) (q : Bool) (ws : List DWord) (s : State), harbourOn s = true ∧ busMaster s = true ∧ ringReady s k =
      true ∧ find s.hb.tx k = none ∧ 1 ≤ ws.length ∧ ws.length ≤ 4096) ∧
    (∃ (k : Fin 16) (s : State) (d : TxDescriptor), find s.hb.tx k = some d ∧ d.words = [] ∧ busMaster s = true ∧
      harbourOn s = true ∧ d.irq = false) ∧
    (∃ (k : Fin 32) (v : Word) (s : State), partyActs s .host = true ∧ harbourOn s = true) ∧
    (∃ (k : Fin 32) (v : Word) (s : State), partyActs s .host = true ∧ harbourOn s = true ∧ v.getLsbD 31 = false) ∧
    (∃ (k : Fin 32) (c : Fin 8) (s : State), 1 ≤ c.val ∧ c.val ≤ 4 ∧ busMaster s = true ∧ ringReady s k = true ∧ ((c.val
      = 3 → s.pcie.config.deviceControl2.getLsbD 4 = false))) ∧
    (∃ (k : Fin 16) (q : Bool) (c : Fin 8) (s : State), 1 ≤ c.val ∧ c.val ≤ 4 ∧ busMaster s = true ∧ ringReady s k =
      true ∧ ((c.val = 3 → s.pcie.config.deviceControl2.getLsbD 4 = false)) ∧ find s.hb.tx k = none) ∧
    (∃ (p : DmaPurpose) (s : State), s.pcie.config.deviceControl2.getLsbD 4 = true) :=
  ⟨⟨allOn (withRegs [(R.hbTraceCtrl,0),(R.hbClassA 5, 0x9F200000),(R.hbClassB 5, 0x7),(R.hbRingCfg 23, 0x80000004),
     (R.hbRingHead 23, 15), (R.hbRingTail 23, 3), (R.hbRingBaseHi 23, 5), (R.hbRingBaseLo 23, 0x1000)] { State.reset with hb := { State.reset.hb with actions := [⟨⟨0x1405, [1,2], 77⟩, 1, .waiting⟩], parked := [] } }),
     0xFFFF00001111, ⟨⟨0x1405, [1,2], 77⟩, 1, .waiting⟩, by decide +kernel⟩,
   ⟨allOn (withRegs [(R.hbTraceCtrl,0),(R.hbClassA 5, 0x9F200000),(R.hbClassB 5, 0x7),(R.hbRingCfg 23, 0x80000004),
     (R.hbRingHead 23, 3), (R.hbRingTail 23, 3)] { State.reset with hb := { State.reset.hb with actions := [⟨⟨0x1405, [1,2], 77⟩, 1, .waiting⟩], parked := [] } }),
     0xFFFF00001111, ⟨⟨0x1405, [1,2], 77⟩, 1, .waiting⟩, by decide +kernel⟩,
   ⟨15, true, [1,2,3], allOn (withRegs [(R.hbRingCfg 15, 0x80000004), (R.hbRingHead 15, 15), (R.hbRingTail 15, 3)] { State.reset with hb := { State.reset.hb with tx := [(3, { irq := true, count := 2, words := [5] })] } }),
     by decide +kernel⟩,
   ⟨15, allOn (withRegs [(R.hbRingCfg 15, 0x80000004), (R.hbRingHead 15, 15), (R.hbRingTail 15, 3)] { State.reset with hb := { State.reset.hb with tx := [(3, { irq := true, count := 2, words := [5] }), (15, { irq := false, count := 2, words := [], accepted := 2, time := 12345 })] } }),
     { irq := false, count := 2, words := [], accepted := 2, time := 12345 }, by decide +kernel⟩,
   ⟨31, 0xFFFFFFFF, allOn State.reset, by decide +kernel⟩,
   ⟨3, 0x7FFFFFFF, allOn (withRegs [(R.hbRingCfg 3, 0x80000004), (R.hbRingHead 3, 15), (R.hbRingTail 3, 3)] { State.reset with hb := { State.reset.hb with tx := [(3, { irq := true, count := 2, words := [5] })], halted := [3] } }),
     by decide +kernel⟩,
   ⟨31, 4, allOn (withRegs [(R.glbPcieStatus, 0x38C00000), (R.glbDmaErr, 0xFFFF), (R.hbRingCfg 31, 0x80000004),
     (R.hbRingHead 31, 15), (R.hbRingTail 31, 3)] State.reset), by decide +kernel⟩,
   ⟨15, true, 1, allOn (withRegs [(R.glbPcieStatus, 0x38C00000), (R.glbDmaErr, 5), (R.hbRingCfg 15, 0x80000004),
     (R.hbRingHead 15, 15), (R.hbRingTail 15, 3)] { State.reset with hb := { State.reset.hb with tx := [] } }),
     by decide +kernel⟩,
   ⟨.ringDescriptor 3, allOn (withRegs [(R.glbPcieStatus, 0x38C00000), (R.hbRingCfg 3, 0x80000004)] { State.reset with pcie := { State.reset.pcie with config := { State.reset.pcie.config with deviceControl2 := 0x10 } } }),
     by decide +kernel⟩⟩

/-- The hypotheses of BlockMover, clause by clause. -/
theorem wit_BlockMover :
    (∃ (s : State) (x : HbAction) (k : Nat) (k' : Nat) (o : Nat) (o' : Nat), s.hb.actions = [x] ∧ x.action = 2 ∧ x.phase
      = .waiting ∧ ((let src := slotValue x.task 0; let dst := slotValue x.task 1; let n := slotValue x.task 2;
      hbRange src = .service k o ∧ hbRange dst = .service k' o' ∧ k ≠ k' ∧ rangeStatus s false src n = 0 ∧
      rangeStatus s true dst n = 0))) ∧
    (∃ (s : State) (x : HbAction), s.hb.actions = [x] ∧ x.action = 2 ∧ x.phase = .waiting ∧ inBank (slotValue x.task 0)
      = false ∧ rangeStatus s false (slotValue x.task 0) (slotValue x.task 2) ≠ 0) ∧
    (∃ (s : State) (x : HbAction) (k : Nat) (b : Nat) (o : Nat) (g : Nat), s.hb.actions = [x] ∧ x.action = 2 ∧ x.phase =
      .moving k ∧ k < moveWords x ∧ hbRange (slotValue x.task 0 + 8 * k) = .design b o ∧ hbTag s = some g ∧
      routeValid s 134 (8 * (b / 16)) = true) ∧
    (∃ (s : State) (x : HbAction) (k : Nat) (g : Nat) (p : Packet), s.hb.actions = [x] ∧ x.action = 2 ∧ x.phase =
      .reading k g ∧ hbAnswer s g = some p ∧ headKind p.head ≠ 4) ∧
    (∃ (s : State) (x : HbAction) (k : Nat) (g : Nat) (p : Packet), s.hb.actions = [x] ∧ x.action = 2 ∧ x.phase =
      .writing k g ∧ hbAnswer s g = some p ∧ headKind p.head = 4) ∧
    (∃ (s : State) (x : HbAction) (k : Nat) (c : Nat) (b : Nat) (g : Nat), s.hb.actions = [x] ∧ x.action = 2 ∧ x.phase =
      .moving k ∧ k < moveWords x ∧ hbRange (slotValue x.task 0 + 8 * k) = .ddr c b ∧ domainOn s (16 + c) = false ∧
      hbTag s = some g ∧ routeValid s 134 (148 + c) = true) :=
  ⟨⟨allOn (withRegs [(R.bankPresent 0, 0xFFFFFFFF)] { State.reset with hb := { State.reset.hb with actions := [⟨⟨0x1405, [0x40000C0008, 0x4003FFE0 + 0x40003C0000 - 0x40000000, 32], 77⟩, 2, .waiting⟩] }, banks := { State.reset.banks with service := [(3, { cells := [(9, 1), (39, 7)] }), (15, { cells := [(0x3FFDF, 5), (0x3FFE1, 6)] })] } }),
     ⟨⟨0x1405, [0x40000C0008, 0x4003FFE0 + 0x40003C0000 - 0x40000000, 32], 77⟩, 2, .waiting⟩, 3, 15, 8, 0x3FFE0,
     by decide +kernel⟩,
   ⟨allOn { State.reset with hb := { State.reset.hb with actions := [⟨⟨0x1405, [0x40000C0009, 1, 32], 77⟩, 2, .waiting⟩] } },
     ⟨⟨0x1405, [0x40000C0009, 1, 32], 77⟩, 2, .waiting⟩, by decide +kernel⟩,
   ⟨allOn (withRegs [(R.wfRt0 134 120, 0x84050500)] (withNi 134 { outstanding := [⟨0, 3, none, 1⟩] } { State.reset with hb := { State.reset.hb with actions := [⟨⟨0x1405, [0x5003FFFFF0, 0x40003FFFE0, 16], 77⟩, 2, .moving 1⟩] } })),
     ⟨⟨0x1405, [0x5003FFFFF0, 0x40003FFFE0, 16], 77⟩, 2, .moving 1⟩, 1, 255, 0x3FFF8, 1, by decide +kernel⟩,
   ⟨allOn (withNi 134 { outstanding := [⟨0, 3, none, 1⟩, ⟨63, 120, none, 1⟩], responses := [packetTo 152 3 2 2 0 [5], packetTo 152 120 2 2 63 [77]] }
     { State.reset with hb := { State.reset.hb with actions := [⟨⟨0x1405, [0x5003FFFFF0, 0x40003FFFE0, 16], 77⟩, 2, .reading 1 63⟩] } }),
     ⟨⟨0x1405, [0x5003FFFFF0, 0x40003FFFE0, 16], 77⟩, 2, .reading 1 63⟩, 1, 63, packetTo 152 120 2 2 63 [77],
     by decide +kernel⟩,
   ⟨allOn (withNi 134 { outstanding := [⟨0, 3, none, 1⟩, ⟨63, 120, none, 1⟩], acceptances := [packetTo 152 120 4 2 63 []] }
     { State.reset with hb := { State.reset.hb with actions := [⟨⟨0x1405, [0x5003FFFFF0, 0x40003FFFE0, 16], 77⟩, 2, .writing 1 63⟩] } }),
     ⟨⟨0x1405, [0x5003FFFFF0, 0x40003FFFE0, 16], 77⟩, 2, .writing 1 63⟩, 1, 63, packetTo 152 120 4 2 63 [],
     by decide +kernel⟩,
   ⟨withRegs [(R.pwrDomainStatus 19, 0), (R.wfRt0 134 151, 0x84050500)] (allOn (withNi 134 { outstanding := [⟨0, 3, none, 1⟩] }
     { State.reset with hb := { State.reset.hb with actions := [⟨⟨0x1405, [0x3FFFFFFFF0, 0x40003FFFE0, 16], 77⟩, 2, .moving 1⟩] } })),
     ⟨⟨0x1405, [0x3FFFFFFFF0, 0x40003FFFE0, 16], 77⟩, 2, .moving 1⟩, 1, 3, 0xFFFFFFFF8, 1, by decide +kernel⟩⟩

/-- The hypotheses of HarbourLoopBack, clause by clause. -/
theorem wit_HarbourLoopBack :
    (∃ (s : State) (x : HbAction) (g : Nat), s.hb.actions = [x] ∧ x.action = 4 ∧ x.phase = .waiting ∧ s.hb.parked = [] ∧
      hbTag s = some g ∧ routeValid s 134 (classCluster s x.task.tag) = true) ∧
    (∃ (s : State) (x : HbAction) (p : Packet) (rest : List Packet), (ni s 134).responses = p :: rest ∧ s.hb.actions =
      [x] ∧ x.phase = .probed (headTag p.head % 64) ∧ headKind p.head ≠ 4 ∧ (p.payload.headD 0).getLsbD 0 = true) ∧
    (∃ (s : State) (x : HbAction) (p : Packet) (rest : List Packet), (ni s 134).responses = p :: rest ∧ s.hb.actions =
      [x] ∧ x.phase = .probed (headTag p.head % 64) ∧ headKind p.head ≠ 4 ∧ (p.payload.headD 0).getLsbD 0 = false ∧
      bitsOf (p.payload.headD 0) 14 2 ≠ 1 ∧ bit s R.hbTraceCtrl 31 = false) ∧
    (∃ (s : State) (p : HbParked) (g : Nat), s.hb.parked = [p] ∧ p.action = 4 ∧ p.probe = none ∧ hbTag s = some g ∧
      routeValid s 134 (classCluster s p.task.tag) = true) ∧
    (∃ (s : State) (p : HbParked), s.hb.parked = [p] ∧ p.raised = false ∧ reg s R.hbParkTimeout ≠ 0 ∧ domainOn s 26 =
      true) :=
  ⟨⟨allOn (withRegs [(R.hbClassB 5, 0x7F07), (R.wfRt0 134 127, 0xFFFFFFFF)] { State.reset with hb := { State.reset.hb with actions := [⟨⟨0x1405, [1,2], 77⟩, 4, .waiting⟩], parked := [] } }),
     ⟨⟨0x1405, [1,2], 77⟩, 4, .waiting⟩, 0, by decide +kernel⟩,
   ⟨allOn (withNi 134 { responses := [packetTo 152 127 2 2 63 [0x3F01], packetTo 152 1 2 2 62 [0]], outstanding := [⟨62, 1, none, 1⟩, ⟨63, 127, none, 1⟩] }
     (withRegs [(R.hbClassB 5, 0x7F07), (R.wfRt0 134 127, 0xFFFFFFFF)] { State.reset with hb := { State.reset.hb with actions := [⟨⟨0x1405, [1,2], 77⟩, 4, .probed 63⟩], parked := [] } })),
     ⟨⟨0x1405, [1,2], 77⟩, 4, .probed 63⟩, packetTo 152 127 2 2 63 [0x3F01], [packetTo 152 1 2 2 62 [0]],
     by decide +kernel⟩,
   ⟨allOn (withNi 134 { responses := [packetTo 152 127 2 2 63 [0x8000], packetTo 152 1 2 2 62 [0]], outstanding := [⟨62, 1, none, 1⟩, ⟨63, 127, none, 1⟩] }
     (withRegs [(R.hbTraceCtrl,0),(R.hbClassB 5, 0x7F07), (R.wfRt0 134 127, 0xFFFFFFFF)] { State.reset with hb := { State.reset.hb with actions := [⟨⟨0x1405, [1,2], 77⟩, 4, .probed 63⟩], parked := [⟨⟨5,[],3⟩, 1, none, false⟩] } })),
     ⟨⟨0x1405, [1,2], 77⟩, 4, .probed 63⟩, packetTo 152 127 2 2 63 [0x8000], [packetTo 152 1 2 2 62 [0]],
     by decide +kernel⟩,
   ⟨allOn (withNi 134 { outstanding := [⟨0, 1, none, 1⟩] } (withRegs [(R.hbTraceCtrl,0),(R.hbClassB 5, 0x7F07),
     (R.wfRt0 134 127, 0xFFFFFFFF)] { State.reset with hb := { State.reset.hb with actions := [], parked := [⟨⟨0x1405, [1,2], 77⟩, 4, none, true⟩] } })),
     ⟨⟨0x1405, [1,2], 77⟩, 4, none, true⟩, 1, by decide +kernel⟩,
   ⟨allOn (withRegs [(R.hbParkTimeout, 1)] { State.reset with hb := { State.reset.hb with actions := [], parked := [⟨⟨0x1405, [1,2], 77⟩, 4, none, false⟩] } }),
     ⟨⟨0x1405, [1,2], 77⟩, 4, none, false⟩, by decide +kernel⟩⟩

/-- The hypotheses of HarbourControl, clause by clause. -/
theorem wit_HarbourControl :
    (∃ (s : State) (x : HbAction), s.hb.actions = [x] ∧ x.phase = .ended 0 ∧ bit s R.hbTraceCtrl 31 = false ∧ bit s
      (R.hbClassC (tagClass x.task.tag)) 31 = false) ∧
    (∃ (s : State) (x : HbAction) (k : Nat), s.hb.actions = [x] ∧ x.phase = .ended k ∧ k ≠ 0 ∧ k < 256 ∧ x.task.tag <
      65536 ∧ bit s R.hbTraceCtrl 31 = false ∧ bit s (R.hbClassC (tagClass x.task.tag)) 31 = false ∧ domainOn s 26 =
      true) ∧
    (∃ (s : State) (x : HbAction), s.hb.actions = [x] ∧ x.phase = .ended 0 ∧ bit s R.hbTraceCtrl 31 = false ∧ x.task.tag
      < 65536 ∧ bit s (R.hbClassC (tagClass x.task.tag)) 31 = true ∧ s.hb.notifies.length + heldOf s 129 < 16) ∧
    (∃ (s : State) (on : Bool), harbourOn s = true) ∧
    (∃ (s : State), harbourOn s = true ∧ hbEnabled s = false ∧ s.hb.actions = []) ∧
    (∃ (s : State), harbourOn s = true ∧ ((hbEnabled s = true ∨ s.hb.actions ≠ []))) ∧
    (∃ (lo : Word) (hi : Word) (s : State), partyActs s .host = true ∧ harbourOn s = true ∧ 0 < windowFree s) ∧
    (∃ (lo : Word) (hi : Word) (s : State), partyActs s .host = true ∧ harbourOn s = true ∧ windowFree s = 0) :=
  ⟨⟨allOn (withRegs [(R.hbTraceCtrl,0)] { State.reset with hb := { State.reset.hb with actions := [⟨⟨0x1405, [1,2], 77⟩, 4, .ended 0⟩] } }),
     ⟨⟨0x1405, [1,2], 77⟩, 4, .ended 0⟩, by decide +kernel⟩,
   ⟨allOn (withRegs [(R.hbTraceCtrl,0)] { State.reset with hb := { State.reset.hb with actions := [⟨⟨0x1405, [1,2], 77⟩, 4, .ended 255⟩] } }),
     ⟨⟨0x1405, [1,2], 77⟩, 4, .ended 255⟩, 255, by decide +kernel⟩,
   ⟨allOn (withRegs [(R.hbTraceCtrl,0), (R.hbClassC 5, 0xFFFFFFFF)] { State.reset with hb := { State.reset.hb with actions := [⟨⟨0x1405, [1,2], 77⟩, 4, .ended 0⟩], notifies := List.replicate 15 ⟨1, 129⟩ } }),
     ⟨⟨0x1405, [1,2], 77⟩, 4, .ended 0⟩, by decide +kernel⟩,
   ⟨allOn State.reset, true, by decide +kernel⟩,
   ⟨allOn (withRegs [(R.hbCtrl, 0)] { State.reset with hb := { State.reset.hb with store := [⟨1,2⟩], actions := [], delays := [(3, { ticks := 5, owed := 2, tasks := [(3, ⟨1,[],2⟩)] })] } }),
     by decide +kernel⟩,
   ⟨allOn (withRegs [(R.hbCtrl, 0)] { State.reset with hb := { State.reset.hb with actions := [⟨⟨0x1405, [1,2], 77⟩, 4, .ended 0⟩] } }),
     by decide +kernel⟩,
   ⟨0xFFFFFFFF, 0xFFFFFFFE, allOn (withRegs [(R.hbCtrl,1),(R.hbQuota,0x00040004)] { State.reset with hb := { State.reset.hb with window := [⟨1,128⟩,⟨1,128⟩,⟨1,128⟩] } }),
     by decide +kernel⟩,
   ⟨0xFFFFFFFF, 0xFFFFFFFE, allOn (withRegs [(R.hbCtrl,1),(R.hbQuota,0x00040004),(R.hbWinCredit, 0xFFFF0000)] { State.reset with hb := { State.reset.hb with window := [⟨1,128⟩,⟨1,128⟩,⟨1,128⟩,⟨1,128⟩] } }),
     by decide +kernel⟩⟩

/-- The hypotheses of LoadControl, clause by clause. -/
theorem wit_LoadControl :
    (∃ (s : State), loadInProgress s = false ∧ reloadInProgress s = false ∧ ldMode s = 0) ∧
    (∃ (s : State), loadInProgress s = true) ∧
    (∃ (s : State), loadInProgress s = false ∧ ldMode s = 0 ∧ s.ld.armed = true) ∧
    (∃ (s : State), loadInProgress s = true ∧ ldMode s = 0 ∧ childLinks s = [] ∧ s.ld.held = false ∧ s.ld.reports = [] ∧
      s.ld.prior < 16 ∧ s.ld.prior ≠ 6 ∧ s.ld.prior ≠ 8) ∧
    (∃ (l : Fin 20) (s : State), loadInProgress s = true ∧ ldMode s = 0 ∧ childLinks s = [l.val] ∧ s.ld.held = true ∧
      s.ld.cleared = true ∧ s.ld.reports = [] ∧ traceOn s = false) ∧
    (∃ (s : State), loadInProgress s = false) ∧
    (∃ (s : State), loadInProgress s = false ∧ reloadInProgress s = false ∧ ldMode s ≠ 0 ∧ ((ldMode s = 1 → (link s
      (parentLink s)).rxLoad = []))) ∧
    (∃ (s : State), loadInProgress s = true ∧ ldMode s = 0 ∧ childLinks s = [] ∧ s.ld.held = true ∧ s.ld.cleared = true
      ∧ s.ld.reports = [] ∧ traceOn s = false) :=
  ⟨⟨withRegs [(R.ldCfg, 0)] State.reset, by decide +kernel⟩,
   ⟨withRegs [(R.ldStatus, 0x50000000)] State.reset, by decide +kernel⟩,
   ⟨withRegs [(R.ldCfg, 0), (R.ldStatus, 0x60000000), (R.ldRetry, 7), (R.ldFail, 7)] { State.reset with ld := { State.reset.ld with armed := true } },
     by decide +kernel⟩,
   ⟨withRegs [(R.ldCfg, 0), (R.ldStatus, 0x30000000)] { State.reset with ld := { State.reset.ld with going := true, prior := 7 } },
     by decide +kernel⟩,
   ⟨19, withRegs [(R.ldCfg, 0x80000), (R.ldStatus, 0x40000000), (R.ldReach, 0xFFFFFFFF), (R.pwrDomainStatus 25, 0)] { State.reset with ld := { State.reset.ld with going := true, held := true, cleared := true, prior := 7 } },
     by decide +kernel⟩,
   ⟨withRegs [(R.ldStatus, 0x70000000)] State.reset, by decide +kernel⟩,
   ⟨withRegs [(R.ldCfg, 0x80000000), (R.ldStatus, 0x70000000), (R.ldRetry, 7), (R.ldFail, 7)] State.reset,
     by decide +kernel⟩,
   ⟨withRegs [(R.ldCfg, 0), (R.ldStatus, 0x40000000), (R.ldReach, 0x00FF00FF)] { State.reset with ld := { State.reset.ld with going := true, prior := 7, held := true, cleared := true } },
     by decide +kernel⟩⟩

/-- The hypotheses of LoadStream, clause by clause. -/
theorem wit_LoadStream :
    (∃ (bs : List Byte) (s : State), ldMode s = 0 ∧ s.ld.going = true ∧ s.ld.endAt = none ∧ sourceStopped s = false ∧
      busMaster s = true ∧ bs ≠ [] ∧ childLinks s = [] ∧ ldState s = 1 ∧ s.ld.headerOk = false ∧ s.ld.gap = 0 ∧
      s.ld.failing = none ∧ headerHere (s.ld.data ++ bs.drop (min bs.length s.ld.skip)) = false) ∧
    (∃ (s : State), ldMode s = 0 ∧ s.ld.going = true ∧ s.ld.endAt = none ∧ sourceStopped s = false ∧ childLinks s = [] ∧
      busMaster s = true ∧ s.ld.headerOk = false ∧ loadInProgress s = true ∧ s.ld.cleared = false ∧ s.ld.reports =
      [] ∧ traceOn s = false) ∧
    (∃ (w : DWord) (s : State), ldMode s = 2 ∧ s.die.straps.getLsbD 0 = true ∧ s.ld.skip = 0 ∧ s.ld.gap = 0 ∧
      s.ld.failing = none ∧ s.ld.going = true ∧ s.ld.endAt = none ∧ sourceStopped s = false ∧ childLinks s = [] ∧
      ldState s = 1 ∧ s.ld.headerOk = false ∧ headerHere (s.ld.data ++ bytesLE 8 w.toNat) = false) ∧
    (∃ (s : State) (i : Nat) (x : Descriptor), s.ld.tableOk = true ∧ s.ld.headerOk = true ∧ ldState s = 2 ∧ ldMode s = 0
      ∧ sourceStopped s = false ∧ s.ld.failed = [] ∧ s.ld.retry = none ∧ s.ld.endAt = none ∧ rlState s = 0 ∧
      s.ld.missing = [] ∧ s.ld.data.length ≤ imageLength s.ld.data ∧ completeSection s = some (i, x) ∧ stagedHere { s with ld := { s.ld with good := enter s.ld.good i (bytesAt s.ld.data x.offset x.length) } }
      = false) ∧
    (∃ (s : State) (o : Nat) (i : Nat), ldMode s = 0 ∧ s.ld.going = true ∧ sourceStopped s = false ∧ busMaster s = true
      ∧ sectionHere s = some (o, i) ∧ s.ld.failing = none) ∧
    (∃ (s : State) (o : Nat) (i : Nat), s.ld.backing = true ∧ ldMode s = 0 ∧ childLinks s = [] ∧ s.ld.retry = some (o,
      i)) ∧
    (∃ (s : State), s.ld.backing = true ∧ ldMode s = 2 ∧ childLinks s = []) ∧
    (∃ (bs : List Byte) (s : State) (k : Nat) (o : Nat) (i : Nat), ldMode s = 0 ∧ s.ld.going = true ∧ s.ld.endAt = none
      ∧ sourceStopped s = false ∧ busMaster s = true ∧ bs ≠ [] ∧ childLinks s = [] ∧ ldState s = 1 ∧ s.ld.headerOk =
      false ∧ headerHere (s.ld.data ++ List.replicate s.ld.gap 0 ++ bs.drop (min bs.length s.ld.skip)) = false ∧
      s.ld.failing = some (k, o, i) ∧ k < 4) :=
  ⟨⟨List.replicate 70 5, withRegs [(R.ldCfg, 0), (R.ldStatus, 0x10000000), (R.glbPcieStatus, 0x38C00000)] { State.reset with ld := { State.reset.ld with going := true, data := [1,2], tail := [1,2], skip := 3 } },
     by decide +kernel⟩,
   ⟨withRegs [(R.ldCfg, 0), (R.ldStatus, 0x10000000), (R.pwrDomainStatus 25, 0), (R.glbPcieStatus, 0x38C00000)] { State.reset with ld := { State.reset.ld with going := true, data := [1,2], tail := [1,2] } },
     by decide +kernel⟩,
   ⟨0x1122334455667788, withRegs [(R.ldCfg, 0x80000000), (R.ldStatus, 0x10000000)] { State.reset with die := { State.reset.die with straps := 0xC1 }, ld := { State.reset.ld with going := true, data := [1,2], tail := [1,2] } },
     by decide +kernel⟩,
   ⟨withRegs [(R.ldCfg, 0), (R.ldStatus, 0x20000000)] { State.reset with ld := { State.reset.ld with going := true, tableOk := true, headerOk := true, data := img2 } },
     0, descriptorAt img2 0, by decide +kernel⟩,
   ⟨withRegs [(R.ldCfg, 0), (R.ldStatus, 0x20000000), (R.ldRetry, 0x003FFFFF), (R.glbPcieStatus, 0x38C00000)] { State.reset with ld := { State.reset.ld with going := true, tableOk := true, headerOk := true, data := img2, retry := some (0, 1), consecutive := 10 } },
     0, 1, by decide +kernel⟩,
   ⟨withRegs [(R.ldCfg, 0), (R.ldStatus, 0x28000000), (R.ldRetry, 0xFFFFFFFF)] { State.reset with ld := { State.reset.ld with going := true, tableOk := true, headerOk := true, data := img2, retry := some (0, 1), consecutive := 10, backing := true } },
     0, 1, by decide +kernel⟩,
   ⟨withRegs [(R.ldCfg, 0x80000000), (R.ldStatus, 0x28000000), (R.ldRetry, 0xFFFFFFFF)] { State.reset with ld := { State.reset.ld with going := true, tableOk := true, headerOk := true, data := img2, retry := some (0, 1), consecutive := 10, backing := true, rewindBall := true } },
     by decide +kernel⟩,
   ⟨List.replicate 70 5, withRegs [(R.ldCfg, 0), (R.ldStatus, 0x10000000), (R.ldRetry, 0xFFFFFFFF), (R.glbPcieStatus,
     0x38C00000)] { State.reset with cairn := { State.reset.cairn with queue := [] }, ld := { State.reset.ld with going := true, data := [1,2], tail := [1,2], gap := 3, failing := some (2, 127, 16383), failures := 1024 } },
     2, 127, 16383, by decide +kernel⟩⟩

/-- The hypotheses of TreeMessages, clause by clause. -/
theorem wit_TreeMessages :
    (∃ (w : DWord) (s : State), ldMode s ≠ 1) ∧
    (∃ (w : DWord) (s : State), ldMode s = 1 ∧ s.ld.going = true ∧ childLinks s = [] ∧ parentLink s < 20) ∧
    (∃ (l : Fin 20) (s : State), s.ld.rewinding = [l.val] ∧ ldMode s = 0) ∧
    (∃ (w : DWord) (s : State), ldMode s = 1 ∧ s.ld.going = true ∧ childLinks s = [] ∧ s.ld.data.length < 64 * bitsOf w
      0 40) ∧
    (∃ (l : Fin 20) (w : DWord) (s : State), ldMode s = 0 ∧ childLinks s = [l.val] ∧ s.ld.reports = [(20, 0, 0)]) :=
  ⟨⟨0x1005000000000007, withRegs [(R.ldCfg, 0)] (withNi 135 { management := [packetTo 155 155 5 3 0 [0x1005000000000007]] }
     State.reset), by decide +kernel⟩,
   ⟨0x2000000000000001, withRegs [(R.ldCfg, 0x53000000)] { State.reset with ld := { State.reset.ld with going := true, tableOk := true, headerOk := true, data := img2 }, cw := { State.reset.cw with links := [(19, { rxLoad := [5,6] })] } },
     by decide +kernel⟩,
   ⟨19, withRegs [(R.ldCfg, 0), (R.ldStatus, 0x28000000)] { State.reset with ld := { State.reset.ld with rewinding := [19] } },
     by decide +kernel⟩,
   ⟨0x4000000000000100, withRegs [(R.ldCfg, 0x53000000)] { State.reset with ld := { State.reset.ld with going := true, tableOk := true, headerOk := true, data := img2 } },
     by decide +kernel⟩,
   ⟨19, 0x6005170000000000, withRegs [(R.ldCfg, 0x80000)] { State.reset with ld := { State.reset.ld with reports := [(20,0,0)] } },
     by decide +kernel⟩⟩

/-- The hypotheses of LoadPhases, clause by clause. -/
theorem wit_LoadPhases :
    (∃ (s : State), ldState s = 3 ∧ s.ld.held = false ∧ s.sched.run ≠ .running) ∧
    (∃ (s : State), ldState s = 3 ∧ s.ld.held = true ∧ clusterNisQuiet s = true ∧ firmwareRuns s = true ∧ rlState s = 0) ∧
    (∃ (s : State) (i : Nat) (x : Descriptor) (bs : List Byte), ldState s = 4 ∧ rlState s = 0 ∧ nextWrite s = some (i,
      x) ∧ find s.ld.good i = some bs ∧ x.type = 1 ∧ (plainBytes s s.ld.data i x bs).length = 65536) ∧
    (∃ (s : State), ldState s = 5 ∧ ldMode s = 0 ∧ childLinks s = [] ∧ s.ld.reports = [] ∧ bit s R.ldRelCfg 30 = false ∧
      traceOn s = false ∧ postCode s s.ld.units (clustersOf (reachList s.ld.reaches)) (clustersOf (reachList
      s.ld.reaches)) none = 0) ∧
    (∃ (s : State) (c : Nat), ldState s = 5 ∧ ldMode s = 0 ∧ childLinks s = [] ∧ s.ld.reports = [] ∧ traceOn s = false ∧
      postCode s s.ld.units (clustersOf (reachList s.ld.reaches)) (clustersOf (reachList s.ld.reaches)) none = c ∧ c
      ≠ 0 ∧ c < 256 ∧ s.ld.cleared = true) ∧
    (∃ (s : State) (i : Nat) (x : Descriptor) (bs : List Byte), ldState s = 4 ∧ rlState s = 0 ∧ nextWrite s = some (i,
      x) ∧ find s.ld.good i = some bs ∧ x.type = 0 ∧ (plainBytes s s.ld.data i x bs).length = 49152 * depth s) ∧
    (∃ (s : State) (i : Nat) (x : Descriptor) (bs : List Byte), ldState s = 4 ∧ rlState s = 0 ∧ nextWrite s = some (i,
      x) ∧ find s.ld.good i = some bs ∧ x.type = 7 ∧ (plainBytes s s.ld.data i x bs).length = 64) ∧
    (∃ (s : State) (i : Nat) (x : Descriptor) (bs : List Byte), ldState s = 4 ∧ rlState s = 0 ∧ nextWrite s = some (i,
      x) ∧ find s.ld.good i = some bs ∧ x.type ∈ [2, 3, 4, 5, 6, 8, 9] ∧ ((x.type = 3 → firmwareRuns s = true)) ∧
      (plainBytes s s.ld.data i x bs).length % 8 = 0 ∧ ((recordsOf (plainBytes s s.ld.data i x bs)).all fun y =>
      recordGood x.type (reachOfMask x.reach) s.ld.units s.ld.contract y) = true ∧ ((x.type = 6 → (((recordsOf
      (plainBytes s s.ld.data i x bs)).filter fun y => y.1.getLsbD 31).map fun y => (bitsOf y.1 8 5, bitsOf y.1 0
      2)).Nodup)) ∧ ((x.type = 2 → depthGood (((recordsOf (plainBytes s s.ld.data i x bs)).foldl (fun acc y => if
      y.1.getLsbD 31 then writeSpecial x.type y.1 y.2 acc else writeRecord y.1.toNat y.2 acc) s)) = true ∧ legsGood
      (((recordsOf (plainBytes s s.ld.data i x bs)).foldl (fun acc y => if y.1.getLsbD 31 then writeSpecial x.type
      y.1 y.2 acc else writeRecord y.1.toNat y.2 acc) s)) = true))) ∧
    (∃ (s : State) (i : Nat) (x : Descriptor) (bs : List Byte), ldState s = 4 ∧ rlState s = 0 ∧ nextWrite s = some (i,
      x) ∧ find s.ld.good i = some bs ∧ x.type ∈ [2, 3, 4, 5, 6, 8, 9] ∧ ((x.type = 3 → firmwareRuns s = true)) ∧
      childLinks s = [] ∧ s.ld.reports = [] ∧ ldMode s = 0 ∧ traceOn s = false ∧ (((plainBytes s s.ld.data i x
      bs).length % 8 ≠ 0 ∨ ((recordsOf (plainBytes s s.ld.data i x bs)).all fun y => recordGood x.type (reachOfMask
      x.reach) s.ld.units s.ld.contract y) = false))) ∧
    (∃ (c : Instr) (s : State), ((c = .enterHold ∨ c = .milestone)) ∧ ldState s = 3 ∧ s.ld.held = false ∧
      atMilestonePoint s = true) :=
  ⟨⟨withRegs [(R.ldStatus, 0x30000000)] { State.reset with sched := { State.reset.sched with run := .frozen } },
     by decide +kernel⟩,
   ⟨withRegs ([(R.ldStatus, 0x30000000), (R.lhStatus, 0x40000000), (R.ldReach, 0xFFFFFFFF), (R.bankPresent 0,
     0xFFFFFFFF)] ++ (List.range 128).map fun i => (R.wfNiStatus i, 0x80000000)) { State.reset with ld := { State.reset.ld with going := true, held := true, tableOk := true, headerOk := true, data := imgOf 2 4544 [descB 3 0 0 1 4224 8, descB 6 0 0 0 4288 8] [] } },
     by decide +kernel⟩,
   ⟨withRegs [(R.ldStatus, 0x40000000)] { State.reset with ld := { State.reset.ld with cleared := true, written := [0], good := [(1, List.replicate 65536 7)], data := imgOf 3 90000 [descB 6 0 0 0 4288 8, descB 1 0 0 8 4352 65536, descB 2 0 0 0 4288 8] [] } },
     1, descriptorAt (imgOf 3 90000 [descB 6 0 0 0 4288 8, descB 1 0 0 8 4352 65536, descB 2 0 0 0 4288 8] []) 1,
     List.replicate 65536 7, by decide +kernel, by decide +kernel, by decide +kernel, rfl, by decide +kernel,
     by rw [plainBytes, if_neg (by decide +kernel), List.length_replicate]⟩,
   ⟨withRegs [(R.ldStatus, 0x50000000), (R.ldCfg, 0), (R.ldRelCfg, 0), (R.pwrDomainStatus 25, 0), (R.glbSchedDepth,
     64), (R.glbLeg 0, 0x80000000), (R.ldReach, 0xFFFF0000)] { State.reset with ld := { State.reset.ld with cleared := true, reaches := 0x8001, units := 0 } },
     by decide +kernel⟩,
   ⟨withRegs [(R.ldStatus, 0x50000000), (R.ldCfg, 0), (R.ldRelCfg, 0), (R.pwrDomainStatus 25, 0), (R.glbSchedDepth, 0),
     (R.glbLeg 0, 0x80000000), (R.ldReach, 0xFFFF0000)] { State.reset with ld := { State.reset.ld with cleared := true, reaches := 0, units := 0 } },
     0x12, by decide +kernel⟩,
   ⟨withRegs [(R.ldStatus, 0x40000000), (R.glbSchedDepth, 1)] { State.reset with ld := { State.reset.ld with cleared := true, written := [], units := 0, contract := 3, good := [(0, List.replicate 49152 7)], data := imgOf 3 90000 [descB 0 0 0 8 4288 8, descB 1 0 0 8 4352 65536, descB 2 0 0 0 4288 8] [] } },
     0, descriptorAt (imgOf 3 90000 [descB 0 0 0 8 4288 8, descB 1 0 0 8 4352 65536, descB 2 0 0 0 4288 8] []) 0,
     List.replicate 49152 7, by decide +kernel, by decide +kernel, by decide +kernel, rfl, by decide +kernel,
     by rw [plainBytes, if_neg (by decide +kernel), List.length_replicate]; decide +kernel⟩,
   ⟨withRegs [(R.ldStatus, 0x40000000)] { State.reset with ld := { State.reset.ld with cleared := true, written := [], units := 0, contract := 3, good := [(0, List.replicate 64 7)], data := imgOf 3 90000 [descB 7 0 0 8 4288 8, descB 1 0 0 8 4352 65536, descB 2 0 0 0 4288 8] [] } },
     0, descriptorAt (imgOf 3 90000 [descB 7 0 0 8 4288 8, descB 1 0 0 8 4352 65536, descB 2 0 0 0 4288 8] []) 0,
     List.replicate 64 7, by decide +kernel⟩,
   ⟨withRegs [(R.ldStatus, 0x40000000)] { State.reset with ld := { State.reset.ld with cleared := true, written := [], units := 0, contract := 3, good := [(0, bytesLE 4 (R.bankCfg 63) ++ bytesLE 4 7)], data := imgOf 3 90000 [descB 5 0 0 8 4288 8, descB 1 0 0 8 4352 65536, descB 2 0 0 0 4288 8] [] } },
     0, descriptorAt (imgOf 3 90000 [descB 5 0 0 8 4288 8, descB 1 0 0 8 4352 65536, descB 2 0 0 0 4288 8] []) 0,
     bytesLE 4 (R.bankCfg 63) ++ bytesLE 4 7, by decide +kernel⟩,
   ⟨withRegs [(R.ldStatus, 0x40000000), (R.pwrDomainStatus 25, 0), (R.ldCfg, 0)] { State.reset with ld := { State.reset.ld with cleared := true, written := [], units := 0, contract := 3, good := [(0, bytesLE 4 (R.bankCfg 3) ++ bytesLE 4 7)], data := imgOf 3 90000 [descB 5 0 0 8 4288 8, descB 1 0 0 8 4352 65536, descB 2 0 0 0 4288 8] [] } },
     0, descriptorAt (imgOf 3 90000 [descB 5 0 0 8 4288 8, descB 1 0 0 8 4352 65536, descB 2 0 0 0 4288 8] []) 0,
     bytesLE 4 (R.bankCfg 3) ++ bytesLE 4 7, by decide +kernel⟩,
   ⟨.enterHold, withRegs [(R.ldStatus, 0x30000000), (R.ldReach, 0xFFFE0001)] (forUpTo 8 (fun m t => withClu m { walk := .milestone 48, cur := [(3, true)] }
     t) { State.reset with hb := { State.reset.hb with ready := [(3, [⟨0x1405, [1,2], 0⟩])], delays := [(2, { ticks := 5, owed := 1, tasks := [(7, ⟨0x1405, [3], 0⟩)], going := 1 })], parked := [⟨⟨0x1405, [4], 0⟩, 4, none, false⟩], notifies := [⟨5, 129⟩] }, sched := { State.reset.sched with run := .running, phase := .walked, ec := 7, awaited := [], hazardLog := [], probes := [], hazardFirst := [] } }),
     by decide +kernel⟩⟩

/-- The hypotheses of StartAndRelease, clause by clause. -/
theorem wit_StartAndRelease :
    (∃ (s : State) (c : Instr), ldState s = 6 ∧ childLinks s = [] ∧ ((c = .start ∨ (c = .loadStart ∧ ldMode s = 0 ∧ bit
      s R.ldStatus 26 = true ∧ bits s R.ldStatus 16 8 = 0)))) ∧
    (∃ (s : State), bit s R.ldRelCfg 31 = true ∧ s.sched.run ≠ .notStarted ∧ s.sched.stage + s.sched.stageReqs < 3) ∧
    (∃ (s : State), (¬ (bit s R.ldRelCfg 31 = true ∧ s.sched.run ≠ .notStarted ∧ s.sched.stage + s.sched.stageReqs <
      3))) :=
  ⟨⟨withRegs [(R.ldStatus, 0x60000000), (R.ldCfg, 0x40000000), (R.ldReach, 0x80018001)] State.reset, .start,
     by decide +kernel⟩,
   ⟨withRegs [(R.ldRelCfg, 0x80000000)] { State.reset with sched := { State.reset.sched with run := .running, stage := 1, stageReqs := 1 } },
     by decide +kernel⟩,
   ⟨withRegs [(R.ldRelCfg, 0x80000000)] { State.reset with sched := { State.reset.sched with run := .running, stage := 2, stageReqs := 1 } },
     by decide +kernel⟩⟩

/-- The hypotheses of Scrubber, clause by clause. -/
theorem wit_Scrubber :
    (∃ (n : Fin 128) (s : State), scrubs s n = true ∧ look (fun _ => 0) s.ld.scrubPos n < 787456) ∧
    (∃ (n : Fin 128) (s : State), scrubs s n = true ∧ look (fun _ => 0) s.ld.scrubPos n = 787456 ∧ dword s.ld.scrubCrc n
      = dword s.ld.golden n) ∧
    (∃ (n : Fin 128) (s : State), scrubs s n = true ∧ look (fun _ => 0) s.ld.scrubPos n = 787456 ∧ dword s.ld.scrubCrc n
      ≠ dword s.ld.golden n) :=
  ⟨⟨127, allOn (withRegs [(R.ldScrubCtrl, 0x80000000), (R.ldReach, 0xFFFF)] (withClu 127 { dict := [(1023, 0x1122334455667788)] }
     { State.reset with ld := { State.reset.ld with scrubPos := [(127, 787455)], scrubCrc := [(127, 99)] } })),
     by decide +kernel⟩,
   ⟨127, allOn (withRegs [(R.ldScrubCtrl, 0x80000000), (R.ldReach, 0xFFFF)] { State.reset with ld := { State.reset.ld with scrubPos := [(127, 787456)], scrubCrc := [(127, 99)], golden := [(127, 99)] } }),
     by decide +kernel⟩,
   ⟨127, allOn (withRegs [(R.ldScrubCtrl, 0x80000000), (R.ldReach, 0xFFFF)] { State.reset with ld := { State.reset.ld with scrubPos := [(127, 787456)], scrubCrc := [(127, 99)], golden := [(127, 98)] } }),
     by decide +kernel⟩⟩

/-- The hypotheses of ReloadBegin, clause by clause. -/
theorem wit_ReloadBegin :
    (∃ (s : State), reloadMayGo s = true ∧ s.sched.run = .running) ∧
    (∃ (s : State), reloadMayGo s = false) ∧
    (∃ (s : State), s.rl.leaving = true ∧ ((s.sched.run = .frozen ∨ atMilestonePoint s = true))) ∧
    (∃ (s : State), rlState s = 1 ∧ s.rl.left = true ∧ s.rl.data = [] ∧ s.rl.window = [] ∧ s.rl.tableOk = false ∧ ((∀ k,
      k < 8 → bit s (R.wfNiStatus (8 * rlReach s + k)) 31 = true))) ∧
    (∃ (s : State), reloadInProgress s = true ∧ s.rl.left = false ∧ inHold s (rlReach s) = false) ∧
    (∃ (s : State), reloadInProgress s = true ∧ inHold s (rlReach s) = true) ∧
    (∃ (s : State), reloadMayGo s = true ∧ s.sched.run = .frozen) ∧
    (∃ (s : State), reloadInProgress s = true ∧ s.rl.left = true ∧ inHold s (rlReach s) = false) :=
  ⟨⟨withRegs [(R.ldStatus, 0x70000000), (R.ldReloadCfg, 0x8000000F), (R.ldReach, 0xFFFF), (R.ldReloadStatus,
     0x50170000), (R.ldReloadFree, 0x50000)] { State.reset with sched := { State.reset.sched with run := .running } },
     by decide +kernel⟩,
   ⟨withRegs [(R.ldStatus, 0x70000000), (R.ldReloadCfg, 0xC000000F), (R.ldReach, 0xFFFF), (R.ldReloadStatus, 0)] { State.reset with sched := { State.reset.sched with run := .running } },
     by decide +kernel⟩,
   ⟨withRegs [(R.ldReloadCfg, 0x8000000F), (R.ldReloadStatus, 0x10000000), (R.cluObufCfg 127 31, 0x83FFFF00)] { State.reset with rl := { leaving := true }, sched := { State.reset.sched with run := .frozen } },
     by decide +kernel⟩,
   ⟨withRegs ([(R.ldReloadCfg, 0x8000000F), (R.ldReloadStatus, 0x10000000), (R.ldReach, 0xFFFF), (R.bankPresent 31,
     0xFFFFFFFF)] ++ (List.range 8).map fun k => (R.wfNiStatus (120 + k), 0x80000000)) { State.reset with rl := { left := true } },
     by decide +kernel⟩,
   ⟨withRegs [(R.ldReloadCfg, 0x8000000F), (R.ldReloadStatus, 0x10000000), (R.ldReach, 0x8000)] { State.reset with rl := { leaving := true, window := [1,2,3] } },
     by decide +kernel⟩,
   ⟨withRegs [(R.ldReloadCfg, 0x8000000F), (R.ldReloadStatus, 0x20000000), (R.ldReach, 0x80008000)] { State.reset with rl := { window := [1,2,3], cells := [(15, {})] } },
     by decide +kernel⟩,
   ⟨withRegs [(R.ldStatus, 0x70000000), (R.ldReloadCfg, 0x8000000F), (R.ldReach, 0xFFFF), (R.ldReloadStatus,
     0x50170000), (R.ldReloadFree, 0x50000), (R.cluObufCfg 127 31, 0x83FFFF00)] { State.reset with sched := { State.reset.sched with run := .frozen } },
     by decide +kernel⟩,
   ⟨withRegs [(R.ldReloadCfg, 0x8000000F), (R.ldReloadStatus, 0x10000000), (R.ldReach, 0x8000)] { State.reset with rl := { left := true, window := [1,2,3], cells := [(15, {})] } },
     by decide +kernel⟩⟩

/-- The hypotheses of ReloadStream, clause by clause. -/
theorem wit_ReloadStream :
    (∃ (src : Fin 3) (v : Word) (s : State), ((src.val = 0 → partyActs s .host = true)) ∧ ((src.val = 1 → partyActs s
      .lighthouse = true)) ∧ rlSource s = src ∧ rlState s = 1 ∧ s.rl.window.length + 4 ≤ 4096) ∧
    (∃ (src : Fin 3) (v : Word) (s : State), ((src.val = 0 → partyActs s .host = true)) ∧ ((src.val = 1 → partyActs s
      .lighthouse = true)) ∧ rlSource s ≠ src) ∧
    (∃ (s : State), windowTakes s = true ∧ headerHere (s.rl.data ++ s.rl.window) = false ∧ s.rl.left = false ∧ inHold s
      (rlReach s) = false) ∧
    (∃ (s : State) (x : HbAction), windowRequest s = none ∧ s.hb.actions = [x] ∧ x.action = 3 ∧ x.phase = .waiting ∧
      rangeStatus s false (slotValue x.task 0) (slotValue x.task 1) = 0) ∧
    (∃ (s : State) (x : HbAction) (k : Nat) (b : Nat) (o : Nat), windowRequest s = none ∧ s.hb.actions = [x] ∧ x.action
      = 3 ∧ x.phase = .moving k ∧ k < moveWords x ∧ hbRange (slotValue x.task 0 + 8 * k) = .service b o) ∧
    (∃ (s : State) (x : HbAction) (k : Nat) (g : Nat) (w : DWord), windowRequest s = none ∧ s.hb.actions = [x] ∧
      x.action = 3 ∧ x.phase = .holding k w ∧ hbTag s = some g ∧ routeValid s 134 155 = true) ∧
    (∃ (s : State) (p : Packet), windowRequest s = some p ∧ rlSource s = 2 ∧ rlState s = 1) ∧
    (∃ (src : Fin 3) (v : Word) (s : State), ((src.val = 0 → partyActs s .host = true)) ∧ ((src.val = 1 → partyActs s
      .lighthouse = true)) ∧ rlSource s = src ∧ windowTakes s = true ∧ src.val ≠ 2 ∧ 4096 < s.rl.window.length + 4) ∧
    (∃ (v : Word) (s : State), rlSource s = 2 ∧ windowTakes s = true ∧ 4096 < s.rl.window.length + 4) ∧
    (∃ (src : Fin 3) (v : Word) (s : State), ((src.val = 0 → partyActs s .host = true)) ∧ ((src.val = 1 → partyActs s
      .lighthouse = true)) ∧ rlSource s = src ∧ rlState s = 2 ∧ s.rl.window.length + 4 ≤ 4096 ∧ s.rl.tableOk = false
      ∧ headerHere (s.rl.data ++ (s.rl.window ++ bytesLE 4 v.toNat)) = false) :=
  ⟨⟨2, 0x11223344, withRegs [(R.ldReloadCfg, 0x8000000F), (R.ldReloadStatus, 0x10000000)] (setRl { window := [1,2,3] }
     State.reset), by decide +kernel⟩,
   ⟨2, 0x11223344, withRegs [(R.ldReloadFree, 0xFFFF1000), (R.ldReloadCfg, 0x4000000F), (R.ldReloadStatus, 0x10000000)]
     State.reset, by decide +kernel⟩,
   ⟨withRegs [(R.ldReloadCfg, 0x8000000F), (R.ldReloadStatus, 0x20000000), (R.ldReach, 0x8000)] (setRl { data := [1,2,3], window := [4] }
     State.reset), by decide +kernel⟩,
   ⟨allOn (withRegs [(R.ldReloadCfg, 0x8000000F), (R.ldReloadStatus, 0x10000000)] (withNi 134 {} { State.reset with hb := { State.reset.hb with actions := [⟨⟨0x1405, [0x40003FFFE0, 32], 77⟩, 3, .waiting⟩] } })),
     ⟨⟨0x1405, [0x40003FFFE0, 32], 77⟩, 3, .waiting⟩, by decide +kernel⟩,
   ⟨allOn (withRegs [(R.ldReloadCfg, 0x8000000F), (R.ldReloadStatus, 0x10000000)] (withNi 134 {} { State.reset with hb := { State.reset.hb with actions := [⟨⟨0x1405, [0x40003FFFE0, 32], 77⟩, 3, .moving 3⟩] }, banks := { State.reset.banks with service := [(15, { cells := [(0x3FFFF, 5)] })] } })),
     ⟨⟨0x1405, [0x40003FFFE0, 32], 77⟩, 3, .moving 3⟩, 3, 15, 0x3FFF8, by decide +kernel⟩,
   ⟨allOn (withRegs [(R.ldReloadCfg, 0x8000000F), (R.ldReloadStatus, 0x10000000), (R.wfRt0 134 155, 0x84050500)]
     (withNi 134 {} { State.reset with hb := { State.reset.hb with actions := [⟨⟨0x1405, [0x40003FFFE0, 32], 77⟩, 3, .holding 3 77⟩] } })),
     ⟨⟨0x1405, [0x40003FFFE0, 32], 77⟩, 3, .holding 3 77⟩, 3, 0, 77, by decide +kernel⟩,
   ⟨withRegs [(R.ldReloadCfg, 0x8000000F), (R.ldReloadStatus, 0x10000000)] (withNi 135 { requests := [packetTo 154 152 1 1 4 [0], packetTo 155 152 1 1 5 [0x4000000000000000, 77]] }
     (setRl { window := [1,2,3] } State.reset)), packetTo 155 152 1 1 5 [0x4000000000000000, 77], by decide +kernel⟩,
   ⟨0, 0x11223344, allOn (withRegs [(R.ldReloadFree, 0xFFFE0003), (R.ldReloadCfg, 0), (R.ldReloadStatus, 0x20000000)]
     (setRl { window := List.replicate 4093 1 } State.reset)), by decide +kernel⟩,
   ⟨0x11223344, allOn (withRegs [(R.ldReloadCfg, 0x8000000F), (R.ldReloadStatus, 0x20000000)] (setRl { window := List.replicate 4093 1 }
     State.reset)), by decide +kernel⟩,
   ⟨2, 0x11223344, allOn (withRegs [(R.ldReloadCfg, 0x8000000F), (R.ldReloadStatus, 0x20000000)] (setRl { data := [9,9], window := [1,2,3] }
     State.reset)), by decide +kernel⟩⟩

/-- The hypotheses of ReloadFinish, clause by clause. -/
theorem wit_ReloadFinish :
    (∃ (s : State), rlState s = 3 ∧ s.rl.checked = false ∧ postCode s (dirUnits s.rl.data (ownOrdinal s)) (clustersOf
      [rlReach s]) (clustersOf ((List.range 16).filter fun q => reachValid s q || q == rlReach s)) (some (rlReach
      s)) = 0) ∧
    (∃ (s : State), firmwareRuns s = true ∧ rlState s = 3 ∧ s.rl.checked = true ∧ bit s R.wfSlotCtrl 0 = false ∧ [4, 5,
      6].contains (ldState s) = false) ∧
    (∃ (s : State), rlState s = 3 ∧ s.rl.checked = true ∧ s.rl.planned = true ∧ bit s R.wfSlotCtrl 0 = true) ∧
    (∃ (s : State), reloadInProgress s = true) ∧
    (∃ (n : Fin 128) (w : Fin 32) (s : State) (b : Breakwater) (x : LatchedBuffer), latchedBuffer s n w = some (b, x) ∧
      s.sched.run = .running ∧ latchedLegRan s x = true ∧ (n.val, w.val) ∉ b.launched ∧ bit s (R.ldBwCfg (x.cluster
      / 8)) 31 = true ∧ (x.route.getD 0 0).getLsbD 31 = true ∧ bitsOf (x.route.getD 0 0) 29 2 = 0 ∧ bitsOf
      (x.route.getD 0 0) 16 8 ≤ 147) :=
  ⟨⟨withRegs [(R.ldReloadCfg, 0x8000000F), (R.ldReloadStatus, 0x30000000), (R.ldReach, 0x1), (R.glbSchedDepth, 64),
     (R.glbLeg 0, 0x80000000)] State.reset, by decide +kernel⟩,
   ⟨allOn (withRegs [(R.ldReloadCfg, 0x8000000F), (R.ldReloadStatus, 0x30000000), (R.ldReach, 0x1), (R.ldStatus,
     0x70000000)] { State.reset with rl := { checked := true } }), by decide +kernel⟩,
   ⟨allOn (withRegs [(R.ldReloadCfg, 0x8000000F), (R.ldReloadStatus, 0x30000000), (R.wfSlotCtrl, 1)] { State.reset with rl := { checked := true, planned := true } }),
     by decide +kernel⟩,
   ⟨allOn (withRegs [(R.ldReloadCfg, 0x8000000F), (R.ldReloadStatus, 0x40000000), (R.wfSlotCtrl, 1)] { State.reset with rl := { checked := true, planned := true } }),
     by decide +kernel⟩,
   ⟨127, 31, withRegs [(R.ldBwCfg 15, 0x80000000), (R.ldBwConstLo 15, 0xFFFFFFFF), (R.ldBwConstHi 15, 0x1),
     (R.glbSchedDepth, 64), (R.glbLeg 0, 0x80000000), (R.glbSchedStatus, 0x100)] { State.reset with rl := { cells := [(3, {}), (15, { buffers := [⟨127, 31, 0x80050000, [0x8093FF00, 0x1000, 0, 0x00050200], 77⟩], launched := [(126, 31)] })] }, sched := { State.reset.sched with run := .running, ranLegs := [0] } },
     { buffers := [⟨127, 31, 0x80050000, [0x8093FF00, 0x1000, 0, 0x00050200], 77⟩], launched := [(126, 31)] }, ⟨127,
     31, 0x80050000, [0x8093FF00, 0x1000, 0, 0x00050200], 77⟩, by decide +kernel⟩⟩

/-- The hypotheses of RunCommands, clause by clause. -/
theorem wit_RunCommands :
    (∃ (s : State), s.sched.run = .running) ∧
    (∃ (s : State) (c : Instr), designFrozen s = true ∧ s.sched.held = none ∧ ((c = .run ∨ (c = .step ∧ s.sched.run =
      .frozen)))) ∧
    (∃ (s : State), s.sched.run = .running ∧ s.sched.inSequence = true) ∧
    (∃ (s : State), s.sched.run = .running ∧ s.sched.inSequence = false) ∧
    (∃ (v : Word) (s : State), v.getLsbD 31 = true ∧ bitsOf v 0 16 * 2 ^ 32 + (reg s R.trgFreezeAtLo).toNat <
      s.sched.ec.toNat % 2 ^ 48) ∧
    (∃ (v : Word) (s : State), ((v.getLsbD 31 = false ∨ s.sched.ec.toNat % 2 ^ 48 ≤ bitsOf v 0 16 * 2 ^ 32 + (reg s
      R.trgFreezeAtLo).toNat))) ∧
    (∃ (s : State) (e : Nat) (c : Instr), designFrozen s = true ∧ s.sched.held = some e ∧ s.sched.phase = .milestone ∧ e
      + 1 = s.sched.ec.toNat ∧ ((c = .run ∨ (c = .step ∧ s.sched.run = .frozen)))) ∧
    (∃ (s : State) (e : Nat) (c : Instr), designFrozen s = true ∧ s.sched.held = some e ∧ ((s.sched.phase ≠ .milestone ∨
      e + 1 ≠ s.sched.ec.toNat)) ∧ ((c = .run ∨ (c = .step ∧ s.sched.run = .frozen)))) :=
  ⟨⟨{ State.reset with sched := { State.reset.sched with run := .running } }, by decide +kernel⟩,
   ⟨withRegs [(R.trgRunStatus, 0x000001FF), (R.acqStatus, 0x02000000)] { State.reset with sched := { State.reset.sched with run := .stopped } },
     .run, by decide +kernel⟩,
   ⟨{ State.reset with sched := { State.reset.sched with run := .running, phase := .milestone, inSequence := true } },
     by decide +kernel⟩,
   ⟨{ State.reset with sched := { State.reset.sched with run := .running, phase := .milestone } }, by decide +kernel⟩,
   ⟨0xFFFF0000, withRegs [(R.trgFreezeAtLo, 5)] { State.reset with sched := { State.reset.sched with ec := 6 } },
     by decide +kernel⟩,
   ⟨0xFFFF0000, withRegs [(R.trgFreezeAtLo, 5)] { State.reset with sched := { State.reset.sched with ec := 5 } },
     by decide +kernel⟩,
   ⟨withRegs [(R.trgRunStatus, 0x000001FF), (R.acqStatus, 0x02000000), (R.glbMsLinks, 0x00080003)] { State.reset with sched := { State.reset.sched with run := .frozen, ec := 5, phase := .milestone, held := some 4 } },
     4, .run, by decide +kernel⟩,
   ⟨withRegs [(R.trgRunStatus, 0x000001FF), (R.acqStatus, 0x02000000), (R.glbMsLinks, 0x00080003)] { State.reset with sched := { State.reset.sched with run := .stopped, ec := 5, phase := .deciding 0, held := some 5 } },
     5, .run, by decide +kernel⟩⟩

/-- The hypotheses of TriggerCommands, clause by clause. -/
theorem wit_TriggerCommands :
    (∃ (s : State), observationOn s = true ∧ ((bit s R.acqCtrl 31 = false ∨ armRefused s = false))) ∧
    (∃ (s : State), observationOn s = true ∧ bit s R.acqCtrl 31 = true ∧ armRefused s = true) ∧
    (∃ (s : State), observationOn s = true ∧ capturing s = false) ∧
    (∃ (s : State), observationOn s = true) :=
  ⟨⟨allOn (withRegs [(R.acqCtrl, 0x80000000), (R.acqSel 3, 0x80000000), (R.acqStatus, 0xFFFFFFFF), (R.trgChStatus 15,
     0xC0000000), (R.acqSegDone, 5), (R.acqCfg, 0xFFF00000), (R.ddrChStatus 3, 0x80000000), (R.ddrRegionBase 3 15,
     0xD0000000)] { State.reset with acq := { count := 5 } }), by decide +kernel⟩,
   ⟨allOn (withRegs [(R.acqCtrl, 0x80000000), (R.acqSel 3, 0x80000000), (R.acqStatus, 0xFFFFFFFF), (R.trgStatus,
     0xFFFFFFFF), (R.acqCfg, 0xFFF00000), (R.ddrChStatus 3, 0x80000000), (R.ddrRegionBase 3 15, 0xC0000000)] { State.reset with acq := { count := 5 } }),
     by decide +kernel⟩,
   ⟨allOn (withRegs [(R.trgStatus, 0xFFFFFFFF)] { State.reset with acq := { count := 5, post := some 3, force := true } }),
     by decide +kernel⟩,
   ⟨allOn { State.reset with acq := { count := 5, post := some 3 } }, by decide +kernel⟩⟩

/-- The hypotheses of CaptureCommands, clause by clause. -/
theorem wit_CaptureCommands :
    (∃ (s : State), observationOn s = true ∧ capturing s = true ∧ s.acq.ending = false ∧ segmented s = false) ∧
    (∃ (s : State), observationOn s = true ∧ capturing s = true ∧ s.acq.ending = false ∧ segmented s = true ∧
      s.acq.segment = none) ∧
    (∃ (s : State) (u : DWord), capturing s = true ∧ ddrOn s (dataPlace s).1 = true ∧ ddrReady s (dataPlace s).1 = true
      ∧ s.acq.fifo = [u] ∧ s.acq.records = [] ∧ s.acq.ending = false ∧ 0 < regionUnits s ∧ (ddr s (dataPlace
      s).1).queue = []) ∧
    (∃ (s : State), capturing s = true ∧ ddrOn s (dataPlace s).1 = true ∧ ddrReady s (dataPlace s).1 = true ∧ s.acq.fifo
      = [] ∧ s.acq.records = [] ∧ s.acq.ending = true) ∧
    (∃ (s : State), bit s R.acqStatus 25 = true ∧ fifoFill s < 65536 ∧ s.sched.run = .frozen ∧ bits s R.trgRunStatus 0 9
      = 0x100 ∧ s.sched.held = none) ∧
    (∃ (s : State) (e : Nat), bit s R.acqStatus 25 = true ∧ fifoFill s < 65536 ∧ s.sched.run = .frozen ∧ bits s
      R.trgRunStatus 0 9 = 0x100 ∧ s.sched.held = some e ∧ s.sched.phase = .milestone ∧ e + 1 = s.sched.ec.toNat) :=
  ⟨⟨allOn (withRegs [(R.acqStatus, 0x80000000), (R.acqCtrl, 0x80000000)] { State.reset with acq := { count := 5, post := some 3, coder := { last := some [1], run := 3, runEc := 5 }, fifo := [1,2], made := 9 } }),
     by decide +kernel⟩,
   ⟨allOn (withRegs [(R.acqStatus, 0x80000000), (R.acqCtrl, 0xC0000000)] { State.reset with acq := { count := 5, post := some 3, coder := { last := some [1], run := 3, runEc := 5 }, fifo := [1,2], made := 9 } }),
     by decide +kernel⟩,
   ⟨allOn (withRegs [(R.acqStatus, 0x80000000), (R.acqCtrl, 0xC0000000), (R.acqCfg, 0xFFF00000), (R.ddrChStatus 3,
     0x80000000), (R.ddrRegionBase 3 15, 0xD0000003), (R.ddrRegionSize 3 15, 1)] { State.reset with acq := { fifo := [0x1122334455667788], made := 131072, drained := 131071 } }),
     0x1122334455667788, by decide +kernel⟩,
   ⟨allOn (withRegs [(R.acqStatus, 0x80000000), (R.acqCtrl, 0xC0000000), (R.acqCfg, 0xFFF00000), (R.ddrChStatus 3,
     0x80000000), (R.ddrRegionBase 3 15, 0xD0000003), (R.ddrRegionSize 3 15, 1)] { State.reset with acq := { fifo := [], made := 131072, drained := 131072, ending := true } }),
     by decide +kernel⟩,
   ⟨allOn (withRegs [(R.acqStatus, 0x82000000), (R.trgRunStatus, 0x100)] { State.reset with acq := { fifo := List.replicate 8191 5 }, sched := { State.reset.sched with run := .frozen } }),
     by decide +kernel⟩,
   ⟨allOn (withRegs [(R.acqStatus, 0x82000000), (R.trgRunStatus, 0x100), (R.glbMsLinks, 0x00080003)] { State.reset with acq := { fifo := List.replicate 8191 5 }, sched := { State.reset.sched with run := .frozen, ec := 5, phase := .milestone, held := some 4 } }),
     4, by decide +kernel⟩⟩

/-- The hypotheses of TimeCounter, clause by clause. -/
theorem wit_TimeCounter :
    (∃ (s : State), s.time.setValue = none ∧ s.time.stepBy = none ∧ s.time.incPending = false) ∧
    (∃ (s : State) (v : DWord), s.time.setValue = some v ∧ s.time.incPending = false) ∧
    (∃ (s : State), timeRole s ≠ 2) ∧
    (∃ (s : State), timeRole s = 2) :=
  ⟨⟨withRegs [(R.lhWdtCfg 1, 0x80000000), (R.lhWdtCount 1, 5)] { State.reset with time := { State.reset.time with now := 0xFFFFFFFFFFFFFFFFFFFFFFFF, increment := 0xFFFFFFFFFF, ticks := 249 } },
     by decide +kernel⟩,
   ⟨{ State.reset with time := { State.reset.time with now := 0xFFFFFFFFFFFFFFFFFFFFFFFF, increment := 0xFFFFFFFFFF, ticks := 249, setValue := some 0xFFFFFFFFFFFFFFFF, stepBy := some 5 } },
     0xFFFFFFFFFFFFFFFF, by decide +kernel⟩,
   ⟨withRegs [(R.timeSetHi, 0xFFFFFFFF), (R.timeSetLo, 1)] State.reset, by decide +kernel⟩,
   ⟨withRegs [(R.timeSyncCfg, 0xC0000000), (R.timeCfg, 0x80000000)] State.reset, by decide +kernel⟩⟩

/-- The hypotheses of TimeExchange, clause by clause. -/
theorem wit_TimeExchange :
    (∃ (l : Fin 20) (s : State), timeMaster s l = true ∧ linkUp s l = true ∧ syncIsDue s l = true) ∧
    (∃ (l : Fin 20) (f : TimeFrame) (s : State), linkLooped s l = false ∧ timeFrameOk s 0 f = true ∧ timeSlave s l =
      true ∧ s.time.exchange = none) ∧
    (∃ (l : Fin 20) (f : TimeFrame) (s : State) (c : Instr), linkLooped s l = false ∧ (((c = .syncReceive l f ∧
      timeFrameOk s 0 f = false) ∨ (c = .followUpReceive l f ∧ timeFrameOk s 8 f = false) ∨ (c = .delayReqReceive l
      f ∧ timeFrameOk s 1 f = false) ∨ (c = .delayRespReceive l f ∧ timeFrameOk s 9 f = false)))) ∧
    (∃ (l : Fin 20) (f : TimeFrame) (s : State) (x : InExchange), linkLooped s l = false ∧ timeFrameOk s 8 f = true ∧
      timeSlave s l = true ∧ s.time.exchange = some x ∧ x.seq = f.sequence ∧ x.t1 = none) ∧
    (∃ (l : Fin 20) (f : TimeFrame) (s : State), linkLooped s l = false ∧ timeFrameOk s 1 f = true ∧ timeMaster s l =
      true) ∧
    (∃ (l : Fin 20) (f : TimeFrame) (s : State) (x : InExchange) (t1 : Nat) (t3 : Nat), linkLooped s l = false ∧
      timeFrameOk s 9 f = true ∧ timeSlave s l = true ∧ s.time.exchange = some x ∧ x.t1 = some t1 ∧ x.t3 = some t3 ∧
      x.seq = f.sequence ∧ bit s R.timeServoCfg 31 = false) ∧
    (∃ (s : State), timeRole s = 2 ∧ offsetMissing s = true ∧ bit s R.timeStatus 30 = false) ∧
    (∃ (l : Fin 20) (f : TimeFrame) (s : State) (c : Instr), linkLooped s l = true ∧ (link s l).rxTimes = [] ∧ c ∈
      [.syncReceive l f, .followUpReceive l f, .delayReqReceive l f, .delayRespReceive l f]) ∧
    (∃ (l : Fin 20) (f : TimeFrame) (s : State) (a : Nat) (g : Frame) (rest : List (Nat × Frame)), linkLooped s l = true
      ∧ (link s l).rxTimes = (a, g) :: rest ∧ g.type = 4 ∧ bitsOf g.payload 0 8 = 0 ∧ timeSlave s l = true ∧ bitsOf
      g.payload 8 8 = bits s R.timeSyncCfg 24 8 ∧ s.time.exchange = none) :=
  ⟨⟨19, withRegs [(R.cwLinkStatus 19, 0x80000000), (R.timeCfg, 0x400FFFFF), (R.timeSyncCfg, 0x40000000)] { State.reset with time := { State.reset.time with sequence := [(19, 65535)] } },
     by decide +kernel, by decide +kernel, sync_due_at_start _ _ (by decide +kernel)⟩,
   ⟨19, ⟨0, 0, 65535, 0, 1000, 5⟩, withRegs [(R.cwLinkStatus 19, 0x80000000), (R.timeCfg, 0x93000000)] { State.reset with time := { State.reset.time with exchange := none } },
     by decide +kernel⟩,
   ⟨19, ⟨8, 255, 65535, 0, 1000, 5⟩, withRegs [(R.timeExch, 0x0000FF00)] State.reset, .followUpReceive 19 ⟨8, 255,
     65535, 0, 1000, 5⟩, by decide +kernel⟩,
   ⟨19, ⟨8, 0, 65535, 7, 1000, 5⟩, withRegs [(R.cwLinkStatus 19, 0x80000000), (R.timeCfg, 0x93000000)] { State.reset with time := { State.reset.time with exchange := some { seq := 65535, t2 := 9 } } },
     { seq := 65535, t2 := 9 }, by decide +kernel⟩,
   ⟨19, ⟨1, 0, 65535, 7, 1000, 5⟩, withRegs [(R.timeCfg, 0x400FFFFF)] State.reset, by decide +kernel⟩,
   ⟨19, ⟨9, 0, 65535, 50, 1000, 5⟩, withRegs [(R.cwLinkStatus 19, 0x80000000), (R.timeCfg, 0x93000000),
     (R.timeServoCfg, 0)] { State.reset with time := { State.reset.time with exchange := some { seq := 65535, t2 := 9, t1 := some 3, t3 := some 20 } } },
     { seq := 65535, t2 := 9, t1 := some 3, t3 := some 20 }, 3, 20, by decide +kernel⟩,
   ⟨withRegs [(R.timeCfg, 0x93000000), (R.timeStatus, 0)] { State.reset with time := { State.reset.time with ticks := 100000000, offsetTick := 0 } },
     by decide +kernel⟩,
   ⟨19, ⟨8, 0, 65535, 7, 1000, 5⟩, withRegs [(R.cwLinkCfg 19, 0x4F000000), (R.cwLaneCtrl 79, 0x08000000)] State.reset,
     .delayReqReceive 19 ⟨8, 0, 65535, 7, 1000, 5⟩, by decide +kernel⟩,
   ⟨19, ⟨8, 0, 65535, 7, 1000, 5⟩, setLink (withRegs [(R.cwLinkStatus 19, 0x80000000), (R.timeCfg, 0x93000000),
     (R.timeSyncCfg, 0), (R.cwLinkCfg 19, 0x4F000000), (R.cwLaneCtrl 79, 0x08000000)] { State.reset with time := { State.reset.time with exchange := none } })
     19 { rxTimes := [(79, ⟨4, 0, true, 0, BitVec.ofNat 256 0xFFFF0000, none⟩), (0, ⟨4, 0, true, 0, BitVec.ofNat 256 0xFFFF0000, none⟩)] },
     79, ⟨4, 0, true, 0, BitVec.ofNat 256 0xFFFF0000, none⟩, [(0, ⟨4, 0, true, 0, BitVec.ofNat 256 0xFFFF0000,
     none⟩)], by decide +kernel⟩⟩

/-- The hypotheses of LighthouseFirmware, clause by clause. -/
theorem wit_LighthouseFirmware :
    (∃ (s : State), ((lhState s = 1 ∨ lhState s = 3))) ∧
    (∃ (s : State), lhState s = 2 ∧ lhHalted s = false ∧ traceOn s = false) ∧
    (∃ (s : State) (c : Nat), lhState s = 2 ∧ lhHalted s = false ∧ firmwareCode s = c ∧ (c = 1 ∨ c = 2 ∨ c = 4)) ∧
    (∃ (s : State) (c : Fin 2) (i : Instr), ((i = .restart ∨ (i = .lhWatchdog c ∧ bit s (R.lhWdtCfg c) 31 = true ∧ bits
      s (R.lhWdtCount c) 0 24 = 0 ∧ lhHalted s = false)))) ∧
    (∃ (c : Fin 2) (pc : Word) (s : State), coreStill s c = false ∧ traceOn s = false) ∧
    (∃ (c : Fin 2) (s : State), lhHalted s = false ∧ bit s R.lhStatus (20 + c) = true ∧ traceRuns s = false) ∧
    (∃ (c : Fin 2) (s : State), lhHalted s = false ∧ bit s R.lhStatus (20 + c) = true ∧ traceRuns s = true ∧ bits s
      R.trcCtrl 0 2 ≠ 0) :=
  ⟨⟨withRegs [(R.lhStatus, 0x3F000000)] State.reset, by decide +kernel⟩,
   ⟨withRegs [(R.lhStatus, 0x20800000), (R.lhFwLen, 256), (R.pwrDomainStatus 25, 0)] { State.reset with banks := { State.reset.banks with service := [(0, { cells := [(0, 0x57), (1, 0x46), (2, 0x48), (3, 0x4C), (4, 1), (9, 1), (12, 0xC0), (15, 0x20)] })] } },
     by decide +kernel⟩,
   ⟨withRegs [(R.lhStatus, 0x20800000), (R.lhFwLen, 256)] { State.reset with banks := { State.reset.banks with service := [] } },
     1, by decide +kernel⟩,
   ⟨withRegs [(R.lhStatus, 0x48F00000), (R.lhWdtCfg 1, 0x80000005), (R.lhWdtCount 1, 0)] State.reset, 1, .restart,
     by decide +kernel⟩,
   ⟨1, 0xFFFFFFFC, withRegs [(R.lhStatus, 0x40000000), (R.trcCtrl, 0)] State.reset, by decide +kernel⟩,
   ⟨1, withRegs [(R.lhStatus, 0x40200000), (R.trcCtrl, 0)] State.reset, by decide +kernel⟩,
   ⟨1, withRegs [(R.lhStatus, 0x40200000), (R.trcCtrl, 0x80000001), (R.trcStatus, 0)] (allOn State.reset),
     by decide +kernel⟩⟩

/-- The hypotheses of CoreEvents, clause by clause. -/
theorem wit_CoreEvents :
    (∃ (c : Fin 2) (pc : Word) (e : Bool) (n : Nat) (a : Word) (s : State), coreStill s c = false ∧ traceOn s = false) ∧
    (∃ (c : Fin 2) (pc : Word) (n : Nat) (a : Word) (s : State), coreStill s c = false ∧ traceRuns s = true ∧ bit s
      R.trcCtrl 0 = true ∧ s.trc.synced.contains c.val = true ∧ lostPackets s c = 0 ∧ fifoBytes s c ≤ 53 ∧
      comparatorHit s 0 c pc = false ∧ comparatorHit s 1 c pc = false) ∧
    (∃ (c : Fin 2) (pc : Word) (a : Word) (s : State), coreStill s c = false ∧ traceRuns s = false ∧ comparatorHit s 0 c
      pc = false ∧ comparatorHit s 1 c pc = false ∧ accessFaults .loadReserved a.toNat = false) ∧
    (∃ (c : Fin 2) (pc : Word) (a : Word) (s : State), coreStill s c = false ∧ traceRuns s = false ∧ comparatorHit s 0 c
      pc = false ∧ comparatorHit s 1 c pc = false ∧ accessFaults .storeConditional a.toNat = false) ∧
    (∃ (c : Fin 2) (pc : Word) (a : Word) (s : State), coreStill s c = false ∧ traceRuns s = false ∧ comparatorHit s 0 c
      pc = false ∧ comparatorHit s 1 c pc = false ∧ accessFaults .store a.toNat = false ∧ (lhCore s (1 -
      c)).reserved = some (wordPlace s a.toNat) ∧ wordPlace s a.toNat / 2 ^ 26 ≠ 1) ∧
    (∃ (c : Fin 2) (pc : Word) (a : Word) (s : State), coreStill s c = false ∧ traceRuns s = false ∧ comparatorHit s 0 c
      pc = false ∧ comparatorHit s 1 c pc = false ∧ accessFaults .load a.toNat = false) ∧
    (∃ (c : Fin 2) (pc : Word) (a : Word) (k : DataKind) (s : State), coreStill s c = false ∧ accessFaults k a.toNat =
      true ∧ traceOn s = false) ∧
    (∃ (c : Fin 2) (pc : Word) (o : Nat) (s : State), o < 0x400000 ∧ coreStill s c = false ∧ traceRuns s = false ∧
      comparatorHit s 0 c pc = false ∧ comparatorHit s 1 c pc = false ∧ (lhCore s (1 - c)).reserved = some
      (wordPlace s (0x20000000 + o))) :=
  ⟨⟨1, 0x1004, true, 5, 0xFFFFFFFC, withRegs [(R.lhStatus, 0x40000000), (R.pwrDomainStatus 25, 0)] { State.reset with dbg := { State.reset.dbg with cores := [(0, { pc := 5 }), (1, { pc := 6, reserved := some 3 })] } },
     by decide +kernel⟩,
   ⟨1, 0x1004, 128, 0x49F0, allOn (withRegs [(R.lhStatus, 0x40000000), (R.trcCtrl, 0x80000001), (R.trcStatus, 0)] { State.reset with trc := { State.reset.trc with synced := [1], lastTarget := [(1, 0x4A00)], sinceSync := [(1, 4095)], fifos := [(1, [List.replicate 53 7])] } }),
     by decide +kernel⟩,
   ⟨1, 0x1004, 0xBFFFFFFC, withRegs [(R.lhStatus, 0x40000000), (R.trcCtrl, 0)] State.reset, by decide +kernel⟩,
   ⟨1, 0x1004, 0xBFFFFFFC, withRegs [(R.lhStatus, 0x40000000), (R.trcCtrl, 0)] { State.reset with dbg := { State.reset.dbg with cores := [(0, { pc := 5, reserved := some 0x40FFFFFFF }), (1, { pc := 6, reserved := some 0x40FFFFFFF })] } },
     by decide +kernel⟩,
   ⟨1, 0x1004, 0xBFFFFFFC, withRegs [(R.lhStatus, 0x40000000), (R.trcCtrl, 0)] { State.reset with dbg := { State.reset.dbg with cores := [(0, { pc := 5, reserved := some 0x40FFFFFFF }), (1, { pc := 6, reserved := some 0x40FFFFFFF })] } },
     by decide +kernel⟩,
   ⟨1, 0x1004, 0xBFFFFFFC, withRegs [(R.lhStatus, 0x40000000), (R.trcCtrl, 0)] State.reset, by decide +kernel⟩,
   ⟨1, 0x20, 0, .store, withRegs [(R.lhStatus, 0x40000000), (R.trcCtrl, 0)] { State.reset with flt := { State.reset.flt with lhInterrupt := true } },
     by decide +kernel⟩,
   ⟨1, 0x1004, 0x3FFFFC, withRegs [(R.lhStatus, 0x40000000), (R.trcCtrl, 0)] { State.reset with dbg := { State.reset.dbg with cores := [(0, { pc := 5, reserved := some 0x80FFFFF }), (1, { pc := 6, reserved := some 3 })] } },
     by decide +kernel⟩⟩

/-- The hypotheses of DebugSessions, clause by clause. -/
theorem wit_DebugSessions :
    (∃ (s : State), bits s R.dbgAuthStatus 0 11 = 0) ∧
    (∃ (s : State), bits s R.dbgAuthStatus 0 11 ≠ 0) ∧
    (∃ (s : State) (c : Instr), ((c = .sessionEnd ∨ (c = .sessionTimeout ∧ dbgLevel s ≠ 0))) ∧ traceRuns s = false) :=
  ⟨⟨withRegs [(R.dbgAuthStatus, 0x60030000)] State.reset, by decide +kernel⟩,
   ⟨withRegs [(R.dbgAuthStatus, 0x60030001)] State.reset, by decide +kernel⟩,
   ⟨withRegs [(R.dbgStatus, 0xB8E00000), (R.dbgSession, 0xFFFFFFFF), (R.trcCtrl, 0)] State.reset, .sessionEnd,
     by decide +kernel⟩⟩

/-- The hypotheses of HaltMode, clause by clause. -/
theorem wit_HaltMode :
    (∃ (s : State), dbgLevel s = 2 ∧ lhHalted s = false) ∧
    (∃ (s : State), bit s R.dbgStatus 27 = true) ∧
    (∃ (s : State), dbgLevel s = 2 ∧ lhHalted s = true ∧ traceRuns s = false) ∧
    (∃ (c : Fin 2) (g : Fin 32) (s : State), dbgLevel s = 2 ∧ lhHalted s = true ∧ s.dbg.feeding = none) ∧
    (∃ (c : Fin 2) (g : Fin 32) (s : State), dbgLevel s = 2 ∧ lhHalted s = true ∧ s.dbg.feeding = none) ∧
    (∃ (c : Fin 2) (s : State), dbgLevel s = 2 ∧ lhHalted s = true ∧ s.dbg.feeding = none) ∧
    (∃ (c : Fin 2) (inc : Bool) (o : Nat) (s : State), dbgLevel s = 2 ∧ lhHalted s = true ∧ s.dbg.feeding = none ∧
      lhPlace (feedAddress s) = .local_ o) ∧
    (∃ (c : Fin 2) (inc : Bool) (o : Nat) (s : State), dbgLevel s = 2 ∧ lhHalted s = true ∧ s.dbg.feeding = none ∧
      lhPlace (feedAddress s) = .local_ o) ∧
    (∃ (c : Fin 2) (g : Fin 32) (s : State) (i : Instr), dbgLevel s = 2 ∧ lhHalted s = false ∧ i ∈ [.feedReadRegister c
      g, .feedWriteRegister c g, .feedReadPc c, .feedWritePc c, .feedLoad c true, .feedStore c true,
      .feedCompleteStores c]) ∧
    (∃ (c : Fin 2) (g : Fin 32) (w : Word) (s : State), dbgLevel s = 2 ∧ lhHalted s = true ∧ s.dbg.feeding = some w) ∧
    (∃ (s : State) (c : Instr), ((c = .sessionEnd ∨ c = .sessionTimeout)) ∧ dbgLevel s = 2 ∧ lhHalted s = true ∧
      traceRuns s = false) :=
  ⟨⟨withRegs [(R.dbgStatus, 0x80000000)] State.reset, by decide +kernel⟩,
   ⟨withRegs [(R.dbgStatus, 0x88000000), (R.lhStatus, 0x40300000)] State.reset, by decide +kernel⟩,
   ⟨withRegs [(R.dbgStatus, 0x90000000), (R.lhStatus, 0x40700000), (R.lhWdtCount 1, 4097), (R.lhWdtCount 0, 1),
     (R.trcCtrl, 0)] State.reset, by decide +kernel⟩,
   ⟨1, 31, withRegs [(R.dbgStatus, 0x90000000)] { State.reset with dbg := { State.reset.dbg with cores := [(0, { pc := 5 }), (1, { pc := 6, regs := [(31, 0xFFFFFFFF)] })] } },
     by decide +kernel⟩,
   ⟨1, 31, withRegs [(R.dbgStatus, 0x90000000), (R.dbgData, 7)] { State.reset with dbg := { State.reset.dbg with cores := [(0, { pc := 5 }), (1, { pc := 6, regs := [(31, 0xFFFFFFFF)] })] } },
     by decide +kernel⟩,
   ⟨1, withRegs [(R.dbgStatus, 0x90000000), (R.dbgData, 0xFFFFFFFF)] State.reset, by decide +kernel⟩,
   ⟨1, true, 0x3FFFC, withRegs [(R.dbgStatus, 0x90000000), (R.dbgData, 0xFFFFFFFF), (R.dbgAddr, 0x1003FFFC)] { State.reset with dbg := { State.reset.dbg with cores := [(1, { pc := 6, local_ := { cells := [(0x3FFFF, 7)] } })] } },
     by decide +kernel⟩,
   ⟨1, true, 0x3FFFC, withRegs [(R.dbgStatus, 0x90000000), (R.dbgData, 0xFFFFFFFF), (R.dbgAddr, 0x1003FFFC)] { State.reset with dbg := { State.reset.dbg with cores := [(1, { pc := 6, local_ := { cells := [(0x3FFFF, 7)] } })] } },
     by decide +kernel⟩,
   ⟨1, 31, withRegs [(R.dbgStatus, 0x80000000)] State.reset, .feedStore 1 true, by decide +kernel⟩,
   ⟨1, 31, feedWord 1 1 31 false, withRegs [(R.dbgStatus, 0x94000000)] { State.reset with dbg := { State.reset.dbg with cores := [(0, { pc := 5 }), (1, { pc := 6, regs := [(31, 0xFFFFFFFF)] })], feeding := some (feedWord 1 1 31 false) } },
     by decide +kernel⟩,
   ⟨withRegs [(R.dbgStatus, 0xB8E00000), (R.dbgSession, 0xFFFFFFFF), (R.lhStatus, 0x40700000), (R.lhWdtCount 1, 4097),
     (R.lhWdtCount 0, 1), (R.trcCtrl, 0)] { State.reset with dbg := { State.reset.dbg with feeding := some 7 } },
     .sessionEnd, by decide +kernel⟩⟩

/-- The hypotheses of FusesAndKeys, clause by clause. -/
theorem wit_FusesAndKeys :
    (∃ (f : Bool) (v : Word) (s : State), v.getLsbD 31 = true ∧ transitionAccepted s f v = true ∧ dbgLevel s ≠ 2) ∧
    (∃ (v : Word) (s : State), v.getLsbD 31 = true ∧ transitionAccepted s false v = false) ∧
    (∃ (v : Word) (s : State), v.getLsbD 31 = false ∧ hostHas s .lc = false) ∧
    (∃ (f : Bool) (k : Fin 8) (s : State), keyAllowed s f k = true) ∧
    (∃ (s : State) (k : Nat) (bs : List Byte), s.dbg.fuse = some (.key k bs)) ∧
    (∃ (s : State) (k : Nat) (bs : List Byte), s.dbg.fuse = some (.key k bs)) ∧
    (∃ (s : State) (l : Nat), s.dbg.fuse = some (.lifeCycle l)) :=
  ⟨⟨false, 0x8000A503, withRegs [(R.dbgStatus, 0x40000000)] { State.reset with die := { State.reset.die with lifeCycle := 2, keys := [none, some [1], some [2], some [3], some [4]] } },
     by decide +kernel⟩,
   ⟨0x8000A502, withRegs [(R.dbgStatus, 0x40000000)] { State.reset with die := { State.reset.die with lifeCycle := 2, keys := [none, some [1], some [2], some [3], some [4]] } },
     by decide +kernel⟩,
   ⟨0x7FFFFFFF, { State.reset with die := { State.reset.die with lifeCycle := 3 } }, by decide +kernel⟩,
   ⟨false, 4, withRegs [(R.dbgStatus, 0x40000000)] { State.reset with die := { State.reset.die with lifeCycle := 2 }, dbg := { State.reset.dbg with keyData := [(0, 5), (23, 7)] } },
     by decide +kernel⟩,
   ⟨{ State.reset with dbg := { State.reset.dbg with fuse := some (.key 4 [1,2]) } }, 4, [1,2], by decide +kernel⟩,
   ⟨{ State.reset with dbg := { State.reset.dbg with fuse := some (.key 4 [1,2]) } }, 4, [1,2], by decide +kernel⟩,
   ⟨{ State.reset with dbg := { State.reset.dbg with fuse := some (.lifeCycle 3) } }, 3, by decide +kernel⟩⟩

/-- The hypotheses of FootpathRequests, clause by clause. -/
theorem wit_FootpathRequests :
    (∃ (a : Nat) (s : State), dbgLevel s ≠ 0 ∧ mayPeek s a = true ∧ consumes s = false ∧ targetOff s a = false) ∧
    (∃ (a : Nat) (n : Nat) (s : State), dbgLevel s ≠ 0 ∧ 1 ≤ n ∧ n ≤ 32 ∧ consumes s = false ∧ ((∀ k, k < n → mayPeek s
      (a + 4 * k) = true ∧ targetOff s (a + 4 * k) = false))) ∧
    (∃ (v : Word) (s : State), dbgLevel s ≠ 0 ∧ mayPoke s R.glbMsTokenTimeout = true) ∧
    (∃ (a : Nat) (v : Word) (s : State), dbgLevel s ≠ 0 ∧ mayPoke s a = true ∧ pokeStatus s a v = 0 ∧ a ≠ R.dbgFeed) ∧
    (∃ (a : Nat) (n : Nat) (v : Word) (slow : Bool) (op : Fin 8) (s : State) (i : Instr), ((i ∈ [.peek a false, .poke a
      v ⟨false, slow⟩, .burstPeek a n false] ∨ (op.val ∉ [1, 2, 3] ∧ i = .reservedOp op false)))) ∧
    (∃ (a : Nat) (v : Word) (slow : Bool) (s : State), dbgLevel s ≠ 0) ∧
    (∃ (op : Fin 8) (s : State), dbgLevel s ≠ 0 ∧ op.val ∉ [1, 2, 3]) ∧
    (∃ (a : Nat) (s : State), dbgLevel s = 0 ∧ s.die.lifeCycle = 0 ∧ consumes s = false) :=
  ⟨⟨R.trgStepCount, withRegs [(R.dbgStatus, 0x40000000), (R.trgStepCount, 77)] { State.reset with die := { State.reset.die with lifeCycle := 2 } },
     by decide +kernel⟩,
   ⟨R.trgStepCount - 8, 4, withRegs [(R.dbgStatus, 0x40000000), (R.trgStepCount, 77), (R.dbgSession, 0)] { State.reset with die := { State.reset.die with lifeCycle := 3 } },
     by decide +kernel⟩,
   ⟨0xFFFFFFFF, withRegs [(R.dbgStatus, 0x80000000)] { State.reset with die := { State.reset.die with lifeCycle := 3 } },
     by decide +kernel⟩,
   ⟨R.trgStepCount, 0xFFFFFFFF, withRegs [(R.dbgStatus, 0x80000000)] { State.reset with die := { State.reset.die with lifeCycle := 3 } },
     by decide +kernel⟩,
   ⟨5, 32, 7, true, 7, State.reset, .reservedOp 7 false, by decide +kernel⟩,
   ⟨R.trgStepCount, 7, true, withRegs [(R.dbgStatus, 0x40000000)] { State.reset with die := { State.reset.die with lifeCycle := 0 } },
     by decide +kernel⟩,
   ⟨7, withRegs [(R.dbgStatus, 0x40000000)] State.reset, by decide +kernel⟩,
   ⟨R.trgStepCount, withRegs [(R.dbgStatus, 0x20000000)] { State.reset with die := { State.reset.die with lifeCycle := 0 } },
     by decide +kernel⟩⟩

/-- The hypotheses of FootpathFrames, clause by clause. -/
theorem wit_FootpathFrames :
    (∃ (s : State) (r : Reply) (rest : List Reply), s.dbg.replies = r :: rest ∧ r.late = none) ∧
    (∃ (s : State) (v : Word) (rest : List Reply), s.dbg.replies = ⟨5, [], some (R.glbMsTokenTimeout, v)⟩ :: rest) :=
  ⟨⟨{ State.reset with dbg := { State.reset.dbg with replies := [⟨4, [1, 0xFFFFFFFF], none⟩, ⟨2, [], none⟩] } }, ⟨4,
     [1, 0xFFFFFFFF], none⟩, [⟨2, [], none⟩], by decide +kernel⟩,
   ⟨{ State.reset with dbg := { State.reset.dbg with replies := [⟨5, [], some (R.glbMsTokenTimeout, 7)⟩] } }, 7, [],
     by decide +kernel⟩⟩

/-- The hypotheses of TraceUnit, clause by clause. -/
theorem wit_TraceUnit :
    (∃ (w : Fin 4) (v : Word) (s : State), ((w.val = 0 → partyActs s .host = true)) ∧ ((w.val = 1 ∨ w.val = 2 → lhHalted
      s = false)) ∧ traceRuns s = true ∧ bit s R.trcCtrl 2 = true ∧ bit s R.trcCtrl 30 = false ∧ lostPackets s 2 = 0
      ∧ fifoBytes s 2 ≤ 55) ∧
    (∃ (w : Fin 4) (v : Word) (s : State), ((w.val = 0 → partyActs s .host = true)) ∧ ((w.val = 1 ∨ w.val = 2 → lhHalted
      s = false)) ∧ traceRuns s = true ∧ bit s R.trcCtrl 2 = true ∧ bit s R.trcCtrl 30 = false ∧ 56 ≤ fifoBytes s 2) ∧
    (∃ (k : Fin 4) (s : State) (p : List Byte), traceOn s = true ∧ look (fun _ => []) s.trc.fifos k = [p] ∧ look (fun _
      => 0) s.trc.lost k = 0 ∧ bit s R.trcStatus 29 = false ∧ bits s R.trcWr 0 17 + p.length < 2 ^ 17 ∧
      s.trc.postLeft = none ∧ ((∀ c, c < 2 → look (fun _ => 0) s.trc.sinceSync c + p.length < 4096))) ∧
    (∃ (s : State), traceOn s = true ∧ bit s R.trcCtrl 31 = true ∧ bit s R.trcCtrl 30 = false ∧ bits s R.trcCtrl 26 2 =
      0 ∧ bit s R.trcStatus 30 = false) :=
  ⟨⟨3, 0xFFFFFFFF, allOn (withRegs [(R.trcCtrl, 0x80000004), (R.trcStatus, 0)] { State.reset with trc := { State.reset.trc with fifos := [(2, [List.replicate 55 7])] } }),
     by decide +kernel⟩,
   ⟨0, 0xFFFFFFFF, allOn (withRegs [(R.trcCtrl, 0x80000004), (R.trcStatus, 0), (R.trcLost, 0xFFFFFFFF)] { State.reset with trc := { State.reset.trc with fifos := [(2, [List.replicate 56 7])] } }),
     by decide +kernel⟩,
   ⟨3, allOn (withRegs [(R.trcCtrl, 0x80000004), (R.trcStatus, 0), (R.trcWr, 0x1FFF6)] { State.reset with trc := { State.reset.trc with fifos := [(3, [[0x50, 1,2,3,4,5,6,7,8]])] } }),
     [0x50, 1,2,3,4,5,6,7,8], by decide +kernel⟩,
   ⟨allOn (withRegs [(R.trcCtrl, 0x80000004), (R.trcStatus, 0), (R.trcPost, 0xFFFFFFFF)] State.reset),
     by decide +kernel⟩⟩

/-- The hypotheses of FrameRoundTrip. -/
theorem wit_FrameRoundTrip :
    ∃ (i : Instr), isRequest i = true ∧ wellFormed i = true ∧ ((∀ a v ok, i ≠ .poke a v ⟨ok, true⟩)) :=
  ⟨.burstPeek 0xFFFFFFFC 32 true, by decide, by decide, fun _ _ _ h => Instr.noConfusion h⟩

/-- The hypotheses of FaultCollector, clause by clause. -/
theorem wit_FaultCollector :
    (∃ (s : State) (k : Nat) (i : Nat) (q : Bool), k < 240 ∧ i < 65536 ∧ s.flt.signals = [⟨k, i, q⟩] ∧ appliedSeverity s
      k ≤ 2 ∧ traceOn s = false) ∧
    (∃ (s : State) (k : Nat) (i : Nat) (q : Bool), k < 240 ∧ i < 65536 ∧ s.flt.signals = [⟨k, i, q⟩] ∧ appliedSeverity s
      k = 5 ∧ traceOn s = false ∧ s.sched.run = .running ∧ s.sched.inSequence = false ∧ s.sched.phase ≠ .milestone) ∧
    (∃ (s : State) (k : Nat) (i : Nat) (q : Bool), k < 240 ∧ i < 65536 ∧ s.flt.signals = [⟨k, i, q⟩] ∧ appliedSeverity s
      k = 3 ∧ traceOn s = false) ∧
    (∃ (s : State) (k : Nat) (i : Nat) (q : Bool), k < 240 ∧ i < 65536 ∧ s.flt.signals = [⟨k, i, q⟩] ∧ appliedSeverity s
      k = 4 ∧ traceOn s = false ∧ s.sched.run = .running ∧ s.sched.inSequence = false ∧ s.sched.phase ≠ .milestone) ∧
    (∃ (s : State) (k : Nat) (i : Nat) (r : Nat) (q : Bool), k < 240 ∧ i < 65536 ∧ s.flt.signals = [⟨k, i, q⟩] ∧
      appliedSeverity s k = 6 ∧ affectedReaches s k = [r] ∧ r < 16 ∧ traceOn s = false) ∧
    (∃ (s : State) (k : Nat) (i : Nat) (q : Bool), k < 240 ∧ i < 65536 ∧ s.flt.signals = [⟨k, i, q⟩] ∧ appliedSeverity s
      k = 7 ∧ traceOn s = false ∧ s.sched.run = .running ∧ s.sched.inSequence = false ∧ s.sched.phase ≠ .milestone) :=
  ⟨⟨withRegs [(R.fltSev 29, 0x20000000), (R.fltCount 119, 0xFFFF0000), (R.pwrDomainStatus 25, 0), (R.fltStatus, 0)] { State.reset with flt := { State.reset.flt with signals := [⟨239, 65535, true⟩] } },
     239, 65535, true, by decide +kernel⟩,
   ⟨withRegs [(R.fltSev 29, 0x50000000), (R.pwrDomainStatus 25, 0)] { State.reset with flt := { State.reset.flt with signals := [⟨239, 65535, false⟩] }, sched := { State.reset.sched with run := .running, phase := .leg 3 } },
     239, 65535, false, by decide +kernel⟩,
   ⟨withRegs [(R.fltSev 29, 0x30000000), (R.pwrDomainStatus 25, 0)] { State.reset with flt := { State.reset.flt with signals := [⟨239, 65535, true⟩] }, sched := { State.reset.sched with run := .running, phase := .leg 3 } },
     239, 65535, true, by decide +kernel⟩,
   ⟨withRegs [(R.fltSev 29, 0x40000000), (R.pwrDomainStatus 25, 0)] { State.reset with flt := { State.reset.flt with signals := [⟨239, 65535, true⟩] }, sched := { State.reset.sched with run := .running, phase := .leg 3 } },
     239, 65535, true, by decide +kernel⟩,
   ⟨withRegs [(R.fltSev 19, 0x6000), (R.pwrDomainStatus 25, 0), (R.ldReach, 0xC000)] { State.reset with flt := { State.reset.flt with signals := [⟨155, 65535, true⟩] }, sched := { State.reset.sched with run := .running, phase := .leg 3 } },
     155, 65535, 15, true, by decide +kernel⟩,
   ⟨withRegs [(R.fltSev 17, 0x70000), (R.pwrDomainStatus 25, 0), (R.ldReach, 0x3)] { State.reset with flt := { State.reset.flt with signals := [⟨140, 65535, false⟩] }, sched := { State.reset.sched with run := .running, phase := .leg 3 } },
     140, 65535, false, by decide +kernel⟩⟩

/-- The hypotheses of FaultCommands, clause by clause. -/
theorem wit_FaultCommands :
    (∃ (f : Bool) (v : Word) (s : State), v.getLsbD 31 = true ∧ s.die.lifeCycle = 1 ∧ s.die.testStrap = true ∧
      holdsRight s f .te = true ∧ bitsOf v 16 8 < 240 ∧ injectGone s (bitsOf v 16 8) = false) ∧
    (∃ (f : Bool) (v : Word) (s : State), v.getLsbD 31 = true ∧ ((s.die.lifeCycle ≠ 1 ∨ s.die.testStrap = false ∨
      holdsRight s f .te = false ∨ 240 ≤ bitsOf v 16 8))) ∧
    (∃ (s : State), ((∀ k, k < 240 → pendingSource s k = true → severityOf s k < 5)) ∧ s.flt.safe = true) ∧
    (∃ (s : State) (k : Nat), k < 240 ∧ pendingSource s k = true ∧ 5 ≤ severityOf s k) ∧
    (∃ (s : State), s.flt.sev7Pending = true) ∧
    (∃ (f : Bool) (v : Word) (s : State), v.getLsbD 31 = true ∧ s.die.lifeCycle = 1 ∧ s.die.testStrap = true ∧
      holdsRight s f .te = true ∧ bitsOf v 16 8 < 240 ∧ injectGone s (bitsOf v 16 8) = true) :=
  ⟨⟨true, 0xFFEFFFFF, allOn (withRegs [(R.dbgStatus, 0x80000000)] { State.reset with die := { State.reset.die with lifeCycle := 1, testStrap := true } }),
     by decide +kernel⟩,
   ⟨true, 0xFFF0FFFF, allOn (withRegs [(R.dbgStatus, 0x80000000)] { State.reset with die := { State.reset.die with lifeCycle := 1, testStrap := true } }),
     by decide +kernel⟩,
   ⟨withRegs [(R.fltPend 7, 0x8000), (R.fltSev 29, 0x40000000)] { State.reset with flt := { State.reset.flt with safe := true } },
     by decide +kernel⟩,
   ⟨withRegs [(R.fltPend 7, 0x8000), (R.fltSev 29, 0x50000000)] { State.reset with flt := { State.reset.flt with safe := true } },
     239, by decide +kernel⟩,
   ⟨{ State.reset with flt := { State.reset.flt with sev7Pending := true } }, by decide +kernel⟩,
   ⟨true, 0xFFECFFFF, withRegs [(R.dbgStatus, 0x80000000), (R.glbUnitPresent0, 0)] { State.reset with die := { State.reset.die with lifeCycle := 1, testStrap := true } },
     by decide +kernel⟩⟩

/-- The hypotheses of CairnCommands, clause by clause. -/
theorem wit_CairnCommands :
    (∃ (s : State) (r : CairnRecord) (rest : List CairnRecord), s.cairn.queue = r :: rest ∧ s.cairn.erasing = false) ∧
    (∃ (s : State) (r : CairnRecord) (rest : List CairnRecord), s.cairn.queue = r :: rest ∧ s.cairn.erasing = false ∧
      s.cairn.retrySlot = none ∧ nextSlot s < 8192) ∧
    (∃ (s : State), softwareSpaced s = true ∧ s.cairn.queue.length < 16) ∧
    (∃ (s : State), ((softwareSpaced s = false ∨ 16 ≤ s.cairn.queue.length))) ∧
    (∃ (f : Bool) (s : State), s.die.lifeCycle = 1 ∧ holdsRight s f .ce = true) ∧
    (∃ (f : Bool) (s : State), ((s.die.lifeCycle ≠ 1 ∨ holdsRight s f .ce = false))) ∧
    (∃ (s : State), s.cairn.erasing = true) :=
  ⟨⟨{ State.reset with cairn := { queue := [⟨7, false, 0xFFFF, 1, 5, 6, [1,2,3]⟩, ⟨8, true, 3, 1, 5, 6, []⟩], sequence := 5, newest := 8191 } },
     ⟨7, false, 0xFFFF, 1, 5, 6, [1,2,3]⟩, [⟨8, true, 3, 1, 5, 6, []⟩], by decide +kernel⟩,
   ⟨{ State.reset with cairn := { queue := [⟨7, false, 0xFFFF, 1, 5, 6, [1,2,3]⟩, ⟨8, true, 3, 1, 5, 6, []⟩], sequence := 5, newest := 8190 } },
     ⟨7, false, 0xFFFF, 1, 5, 6, [1,2,3]⟩, [⟨8, true, 3, 1, 5, 6, []⟩], by decide +kernel⟩,
   ⟨withRegs [(R.cairnSwData 6, 0xFFFFFFFF)] { State.reset with cairn := { queue := List.replicate 15 ⟨7, false, 0xFFFF, 1, 5, 6, [1,2,3]⟩ }, time := { State.reset.time with ticks := 2500001, softwareAt := some 1 } },
     by decide +kernel⟩,
   ⟨withRegs [(R.cairnSwData 6, 0xFFFFFFFF)] { State.reset with time := { State.reset.time with ticks := 2500000, softwareAt := some 1 } },
     by decide +kernel⟩,
   ⟨true, allOn (withRegs [(R.dbgStatus, 0x80000000)] { State.reset with die := { State.reset.die with lifeCycle := 1 } }),
     by decide +kernel⟩,
   ⟨false, allOn (withRegs [(R.dbgStatus, 0x80000000)] { State.reset with die := { State.reset.die with lifeCycle := 1 } }),
     by decide +kernel⟩,
   ⟨{ State.reset with cairn := { State.reset.cairn with erasing := true, coldResets := 7, nvm := { cells := [(100, 5)] } } },
     by decide +kernel⟩⟩

/-- The hypotheses of SelfTest, clause by clause. -/
theorem wit_SelfTest :
    (∃ (s : State), allHold s = true ∧ bits s R.ldReach 0 16 = 0 ∧ loadInProgress s = false ∧ bistRuns s = false) ∧
    (∃ (s : State), bistRuns s = true) ∧
    (∃ (x : BistResult) (s : State), bistRuns s = true ∧ bistPhase s = 11) ∧
    (∃ (v : Word) (s : State), v.getLsbD 31 = true ∧ s.pwr.test = none ∧ testAllowed (writeFields R.bistTeCtrl v s) true
      = true) ∧
    (∃ (s : State) (p : Nat), s.pwr.test = some p) ∧
    (∃ (s : State), bistRuns s = false ∧ ((allHold s = false ∨ bits s R.ldReach 0 16 ≠ 0 ∨ loadInProgress s = true))) ∧
    (∃ (f : Bool) (v : Word) (s : State), v.getLsbD 31 = true ∧ s.pwr.test = none ∧ testAllowed (writeFields
      R.bistTeCtrl v s) f = false) ∧
    (∃ (f : Bool) (v : Word) (s : State) (p : Nat), v.getLsbD 31 = true ∧ s.pwr.test = some p) :=
  ⟨⟨withRegs [(R.bistStatus, 0x2B000000), (R.ldReach, 0xFFFF0000), (R.glbUnitPresent0, 5)] State.reset,
     by decide +kernel⟩,
   ⟨withRegs [(R.bistStatus, 0x1A000000)] State.reset, by decide +kernel⟩,
   ⟨{ clusterFail := 0xF0000000000000000000000000000001, bankFail := 2, svcFail := 0x8000, quadFail := 1, ddrFail := 8, harbourFail := false, observationFail := true, traceFail := false, meshFail := false, fuseFail := true },
     withRegs [(R.bistStatus, 0x1B000000)] State.reset, by decide +kernel⟩,
   ⟨0x80870000, allOn (withRegs [(R.dbgStatus, 0x80000000), (R.ldReach, 0xFFFFFFFF), (R.bistTeCtrl, 0)] { State.reset with die := { State.reset.die with lifeCycle := 1 }, bist := { State.reset.bist with assigned := [(7, 9)] } }),
     by decide +kernel⟩,
   ⟨withRegs [(R.bistTeCtrl, 0xD0870000)] { State.reset with pwr := { State.reset.pwr with test := some 135 } }, 135,
     by decide +kernel⟩,
   ⟨withRegs [(R.bistStatus, 0x2B000000), (R.ldReach, 0xFFFF8000)] State.reset, by decide +kernel⟩,
   ⟨false, 0x80870000, allOn (withRegs [(R.dbgStatus, 0x80000000), (R.ldReach, 0xFFFFFFFF), (R.bistTeCtrl, 0)] { State.reset with die := { State.reset.die with lifeCycle := 1 }, bist := { State.reset.bist with assigned := [(7, 9)] } }),
     by decide +kernel⟩,
   ⟨true, 0xFFFFFFFF, withRegs [(R.bistTeCtrl, 0xD0870000)] { State.reset with pwr := { State.reset.pwr with test := some 135 } },
     135, by decide +kernel⟩⟩

/-- The hypotheses of PowerRequests, clause by clause. -/
theorem wit_PowerRequests :
    (∃ (d : Fin 28) (on : Bool) (s : State), requestRefused s d on = false ∧ ((on = false ∨ domainWanted s d = true ∨
      domainState s d ≠ 4))) ∧
    (∃ (d : Fin 28) (s : State), requestRefused s d true = false ∧ domainWanted s d = false ∧ domainState s d = 4) ∧
    (∃ (d : Fin 28) (on : Bool) (s : State), requestRefused s d on = true) ∧
    (∃ (r : Fin 16) (s : State), inHold s r = false) :=
  ⟨⟨27, true, allOn (withRegs [(R.bistStatus, 0x20000000)] State.reset), by decide +kernel⟩,
   ⟨15, withRegs [(R.pwrDomainStatus 15, 0x84000000), (R.pwrDomainCtrl 15, 0)] (allOn (withRegs [(R.bistStatus,
     0x20000000), (R.ldReach, 0x80000000)] State.reset)), by decide +kernel⟩,
   ⟨15, false, allOn (withRegs [(R.bistStatus, 0x20000000), (R.ldReach, 0)] State.reset), by decide +kernel⟩,
   ⟨15, withRegs [(R.ldReach, 0)] State.reset, by decide +kernel⟩⟩

/-- The hypotheses of PowerTransitions, clause by clause. -/
theorem wit_PowerTransitions :
    (∃ (d : Fin 28) (s : State), domainNext s d = true ∧ domainState s d = 2) ∧
    (∃ (d : Fin 28) (s : State), domainState s d = 3 ∧ s.pwr.ready = false) ∧
    (∃ (d : Fin 28) (s : State), domainState s d = 3 ∧ s.pwr.ready = true) ∧
    (∃ (d : Fin 28) (s : State), domainNext s d = true ∧ domainState s d = 0) ∧
    (∃ (d : Fin 28) (s : State), domainState s d = 1) ∧
    (∃ (d : Fin 28) (s : State), domainState s d = 1 ∧ s.pwr.ready = true ∧ s.pwr.reopening = false) :=
  ⟨⟨26, withRegs [(R.hbCtrl, 0x80000001), (R.bistStatus, 0x20000000), (R.pwrDomainCtrl 27, 0x80000000),
     (R.pwrDomainCtrl 26, 0)] (withRegs ((List.range 26).map fun x => (R.pwrDomainCtrl x, 0x80000000)) (allOn
     State.reset)), by decide +kernel⟩,
   ⟨15, withRegs [(R.pwrDomainStatus 15, 0x60000000), (R.bankCfg 240, 0), (R.bankCfg 255, 0x02000000)] { State.reset with pwr := { State.reset.pwr with ready := false } },
     by decide +kernel⟩,
   ⟨15, withRegs [(R.pwrDomainStatus 15, 0x60000000), (R.ldReach, 0xFFFFFFFF)] (withClu 127 { legRan := 7 } { State.reset with pwr := { State.reset.pwr with ready := true } }),
     by decide +kernel⟩,
   ⟨27, withRegs [(R.bistStatus, 0x20000000), (R.pwrDomainStatus 27, 0), (R.pwrDomainCtrl 27, 0x80000000)] (withRegs
     ((List.range 27).map fun x => (R.pwrDomainCtrl x, 0x80000000)) (allOn State.reset)), by decide +kernel⟩,
   ⟨27, withRegs [(R.pwrDomainStatus 27, 0x20000000)] State.reset, by decide +kernel⟩,
   ⟨15, withRegs [(R.pwrDomainStatus 15, 0x20000000), (R.bankCfg 255, 0x24000000)] { State.reset with pwr := { State.reset.pwr with ready := true, reopening := false } },
     by decide +kernel⟩⟩

/-- The hypotheses of RailFailures, clause by clause. -/
theorem wit_RailFailures :
    (∃ (d : Fin 28) (s : State), domainState s d = 1 ∧ s.pwr.ready = false) ∧
    (∃ (d : Fin 28) (s : State), domainState s d = 2 ∧ 16 ≤ d.val ∧ d.val ≠ 27) :=
  ⟨⟨27, withRegs [(R.pwrDomainStatus 27, 0x20000000)] { State.reset with pwr := { State.reset.pwr with ready := false } },
     by decide +kernel⟩,
   ⟨16, withRegs [(R.pwrDomainStatus 16, 0x40000000)] State.reset, by decide +kernel⟩⟩

/-- The hypotheses of DomainSequence, clause by clause. -/
theorem wit_DomainSequence :
    (∃ (d : Fin 28) (on : Bool) (s : State), s.pwr.reopening = true) ∧
    (∃ (d : Fin 28) (s : State), ((domainNext s d = false ∨ domainState s d ≠ 2))) ∧
    (∃ (d : Fin 28) (s : State), ((domainState s d ≠ 3 ∨ s.pwr.ready = true))) ∧
    (∃ (d : Fin 28) (s : State), ((domainState s d ≠ 3 ∨ s.pwr.ready = false))) ∧
    (∃ (d : Fin 28) (s : State), ((domainNext s d = false ∨ domainState s d ≠ 0))) ∧
    (∃ (d : Fin 28) (s : State), domainState s d ≠ 1) ∧
    (∃ (d : Fin 28) (s : State), domainState s d = 1 ∧ s.pwr.ready = true ∧ s.pwr.reopening = true ∧ bistRuns s = false) ∧
    (∃ (d : Fin 28) (s : State), ((domainState s d ≠ 1 ∨ s.pwr.ready = true))) ∧
    (∃ (d : Fin 28) (s : State), domainState s d = 2) :=
  ⟨⟨27, true, { State.reset with pwr := { State.reset.pwr with ready := false, reopening := true } },
     by decide +kernel⟩,
   ⟨26, withRegs [(R.pwrDomainStatus 26, 0)] State.reset, by decide +kernel⟩,
   ⟨15, withRegs [(R.pwrDomainStatus 15, 0x60000000)] { State.reset with pwr := { State.reset.pwr with ready := true } },
     by decide +kernel⟩,
   ⟨15, withRegs [(R.pwrDomainStatus 15, 0x60000000)] { State.reset with pwr := { State.reset.pwr with ready := false } },
     by decide +kernel⟩,
   ⟨27, withRegs [(R.pwrDomainStatus 27, 0x40000000)] State.reset, by decide +kernel⟩,
   ⟨27, withRegs [(R.pwrDomainStatus 27, 0x40000000)] State.reset, by decide +kernel⟩,
   ⟨15, withRegs [(R.pwrDomainStatus 15, 0x20000000), (R.bistStatus, 0x20000000), (R.pwrDomainStatus 3, 0x80000000)] { State.reset with pwr := { State.reset.pwr with ready := true, reopening := true } },
     by decide +kernel⟩,
   ⟨27, withRegs [(R.pwrDomainStatus 27, 0x20000000)] { State.reset with pwr := { State.reset.pwr with ready := true } },
     by decide +kernel⟩,
   ⟨16, withRegs [(R.pwrDomainStatus 16, 0x40000000)] State.reset, by decide +kernel⟩⟩

/-- The hypotheses of ClocksAndThermal, clause by clause. -/
theorem wit_ClocksAndThermal :
    (∃ (i : Fin 144) (s : State), bit s R.pwrClkCfg 30 = false) ∧
    (∃ (k : Fin 20) (c : Nat) (s : State), c < tHigh s ∧ c < 110 ∧ k.val ∉ s.pwr.tripped ∧ bit s (R.pwrThermTemp k) 30 =
      false) ∧
    (∃ (k : Fin 20) (c : Nat) (s : State), tHigh s ≤ c ∧ c < 110 ∧ k.val ∉ s.pwr.tripped ∧ bit s (R.pwrThermTemp k) 30 =
      false) ∧
    (∃ (k : Fin 20) (c : Nat) (s : State), 110 ≤ c ∧ c < 256 ∧ k.val ∉ s.pwr.tripped ∧ bit s (R.pwrThermTemp k) 30 =
      true ∧ tHigh s ≤ c) ∧
    (∃ (s : State), bit s R.pwrClkCfg 30 = false) ∧
    (∃ (s : State), bit s R.pwrClkCfg 25 = false) ∧
    (∃ (k : Fin 4) (s : State), bit s R.pwrClkCfg (26 + k) = false) ∧
    (∃ (c : RefClock) (s : State), bit s R.pwrClkCfg (clkBit c) = true) ∧
    (∃ (k : Fin 20) (c : Nat) (s : State), c < 110 ∧ k.val ∉ s.pwr.tripped) ∧
    (∃ (k : Fin 20) (c : Nat) (s : State), c + tHyst s ≤ 110 ∧ k.val ∈ s.pwr.tripped) ∧
    (∃ (k : Fin 20) (c : Nat) (s : State), 110 < c + tHyst s ∧ k.val ∈ s.pwr.tripped) :=
  ⟨⟨143, withRegs [(R.pwrClkCfg, 0)] State.reset, by decide +kernel⟩,
   ⟨19, 50, withRegs [(R.pwrThermTemp 19, 0), (R.pwrThermCfg, 0x5F333000)] State.reset, by decide +kernel⟩,
   ⟨0, 109, withRegs [(R.pwrThermTemp 0, 0), (R.pwrThermCfg, 0x5F6D3000)] State.reset, by decide +kernel⟩,
   ⟨19, 255, withRegs [(R.pwrThermTemp 19, 0x40000000), (R.pwrThermCfg, 0x5FFF3000)] State.reset, by decide +kernel⟩,
   ⟨withRegs [(R.pwrClkCfg, 0)] State.reset, by decide +kernel⟩,
   ⟨withRegs [(R.pwrClkCfg, 0x3C000000)] State.reset, by decide +kernel⟩,
   ⟨3, withRegs ([(R.pwrClkCfg, 0x5C000000), (R.cwLinkCfg 19, 0xCC400000), (R.cwLinkStatus 19, 0x80000000),
     (R.cwLinkCfg 3, 0x94400000)] ++ (List.range 80).map fun a => (R.cwLaneStatus a, 0xA0080003)) (allOn
     State.reset), by decide +kernel⟩,
   ⟨.pcie, withRegs [(R.pwrClkCfg, 0x02000000)] State.reset, by decide +kernel⟩,
   ⟨19, 48, withRegs [(R.pwrThermTemp 19, 0x40000000), (R.pwrThermCfg, 0x5F333000)] State.reset, by decide +kernel⟩,
   ⟨19, 107, withRegs [(R.pwrThermTemp 19, 0x40000000), (R.pwrThermCfg, 0x5FFF3000), (R.pwrReachClk 15, 0x81000000)]
     (allOn { State.reset with sched := { State.reset.sched with run := .frozen }, pwr := { State.reset.pwr with tripped := [19] } }),
     by decide +kernel⟩,
   ⟨19, 108, withRegs [(R.pwrThermTemp 19, 0), (R.pwrThermCfg, 0x5F333000)] { State.reset with pwr := { State.reset.pwr with tripped := [19] } },
     by decide +kernel⟩⟩

/-- The hypotheses of ColdReset. -/
theorem wit_ColdReset :
    ∃ (src : ColdSource) (straps : BitVec 8) (s : State), s.dbg.fuse = none :=
  ⟨.footpath, 0xC3, { State.reset with dbg := { State.reset.dbg with nextState := some 3 } }, by decide +kernel⟩

/-- The hypotheses of ResetTypes. -/
theorem wit_ResetTypes :
    ∃ (src : WarmSource) (s : State), ((src = .severity7 → s.flt.sev7Pending = true)) :=
  ⟨.pcie, State.reset, by decide +kernel⟩

/-- The hypotheses of WarmReset. -/
theorem wit_WarmReset :
    ∃ (src : WarmSource) (s : State), src ≠ .severity7 ∧ s.dbg.fuse = none ∧ s.banks.march = none ∧ bit s R.bistCtrl 30
      = false ∧ bistRuns s = false :=
  ⟨.pcie, withRegs [(R.bistStatus, 0x20000000), (R.fltSafe 31, 5), (R.glbUnitPresent0, 0x7FFFFF)] { State.reset with flt := { State.reset.flt with releasing := true, sev7Resets := 1 } },
    by decide +kernel⟩

/-- The hypotheses of FunctionLevelReset. -/
theorem wit_FunctionLevelReset :
    ∃ (s : State), s.banks.march = none ∧ bistRuns s = false :=
  ⟨allOn (withRegs [(R.bistStatus, 0x20000000), (R.ldReach, 0xFFFF)] State.reset), by decide +kernel⟩

/-- The hypotheses of ReachReset. -/
theorem wit_ReachReset :
    ∃ (r : Fin 16) (s : State), reloadInProgress s = false ∧ s.banks.march = none :=
  ⟨15, withRegs [(R.ldReach, 0x0000FFFF)] State.reset, by decide +kernel⟩

/-- The hypotheses of Interrupts, clause by clause. -/
theorem wit_Interrupts :
    (∃ (h : Bool) (x : CauseClear) (s : State), partyActs s .host = true) ∧
    (∃ (v : Fin 64) (s : State), v.val ∈ s.pcie.rising ∧ canSend s v = true) ∧
    (∃ (v : Fin 64) (s : State), v.val ∈ s.pcie.rising ∧ canSend s v = false) ∧
    (∃ (v : Fin 64) (s : State), s.pcie.pendingBits.getLsbD v = true ∧ canSend s v = true) ∧
    (∃ (v : Word) (s : State), lhHalted s = false) :=
  ⟨⟨true, ⟨0x80000000, 0⟩, allOn (withRegs [(R.glbIrqCauseHi, 0xFFFFFFFF)] State.reset), by decide +kernel⟩,
   ⟨63, withRegs [(R.glbPcieStatus, 0x00E00000)] { State.reset with pcie := { State.reset.pcie with rising := [3, 63], table := [(252, 0xFEE00000), (253, 1), (254, 0x41), (255, 0)] } },
     by decide +kernel⟩,
   ⟨63, withRegs [(R.glbPcieStatus, 0x00E00000)] { State.reset with pcie := { State.reset.pcie with rising := [3, 63], table := [(252, 0xFEE00000), (253, 1), (254, 0x41)] } },
     by decide +kernel⟩,
   ⟨63, withRegs [(R.glbPcieStatus, 0x00E00000)] { State.reset with pcie := { State.reset.pcie with pendingBits := 0x8000000000000001, table := [(252, 0xFEE00000), (253, 1), (254, 0x41), (255, 0)] } },
     by decide +kernel⟩,
   ⟨0xFFFFFFFF, withRegs [(R.glbIrqCauseHi, 0)] State.reset, by decide +kernel⟩⟩

/-- The hypotheses of PcieFunction, clause by clause. -/
theorem wit_PcieFunction :
    (∃ (s : State), bits s R.glbPcieStatus 28 4 ≠ 0) ∧
    (∃ (g : Nat) (w : Nat) (s : State), bits s R.glbPcieStatus 28 4 = 0 ∧ g ∈ [1, 2, 3] ∧ w ∈ [1, 2, 4, 8]) :=
  ⟨⟨withRegs [(R.glbPcieStatus, 0x1100FF00)] State.reset, by decide +kernel⟩,
   ⟨3, 8, withRegs [(R.glbPcieStatus, 0)] State.reset, by decide +kernel⟩⟩

/-- The hypotheses of ShoreTides, clause by clause. -/
theorem wit_ShoreTides :
    (∃ (s : State) (x : Tide) (rest : List Tide), s.shore.tide = none ∧ s.shore.waiting = x :: rest ∧ s.sched.run ≠
      .frozen) ∧
    (∃ (s : State), s.shore.tide.isSome = true) ∧
    (∃ (x : ShoreIn) (s : State) (y : Tide) (p : Nat), s.shore.tide = some (y, p) ∧ p + 1 < phaseCount s) ∧
    (∃ (x : ShoreIn) (s : State) (y : Tide) (p : Nat), s.shore.tide = some (y, p) ∧ p + 1 = phaseCount s) ∧
    (∃ (n : Fin 128) (s : State) (w : DWord), find s.shore.words n = some w ∧ takesShore s n = true) ∧
    (∃ (n : Fin 128) (s : State) (w : DWord), find s.shore.words n = some w ∧ takesShore s n = false) :=
  ⟨⟨{ State.reset with sched := { State.reset.sched with run := .running }, shore := { State.reset.shore with tide := none, waiting := [⟨7, [], true⟩, ⟨8, [], true⟩] } },
     ⟨7, [], true⟩, [⟨8, [], true⟩], by decide +kernel⟩,
   ⟨{ State.reset with flt := { State.reset.flt with safe := false }, shore := { State.reset.shore with tide := some (⟨7, [], true⟩, 0) } },
     by decide +kernel⟩,
   ⟨⟨0xFF, 0xFF00, 0x123456789ABCDEF⟩, { State.reset with die := { State.reset.die with straps := 0xC1 }, shore := { State.reset.shore with tide := some (⟨7, [], true⟩, 6), forming := [(0, 0xFFFFFFFFFFFFFFFF)] } },
     ⟨7, [], true⟩, 6, by decide +kernel⟩,
   ⟨⟨0xFF, 0xFF00, 0x123456789ABCDEF⟩, { State.reset with die := { State.reset.die with straps := 0xC1 }, shore := { State.reset.shore with tide := some (⟨7, [], true⟩, 7), forming := [(0, 0xFFFFFFFFFFFFFFFF)] } },
     ⟨7, [], true⟩, 7, by decide +kernel⟩,
   ⟨127, running (withRegs [(R.cluArrEntry 127 255, 0x80030005), (R.glbSchedStatus, 0x200)] (withClu 127 { walk := .inLeg 1022 }
     { State.reset with sched := { State.reset.sched with ec := 7, ranLegs := [0, 1], phase := .leg 2 }, shore := { State.reset.shore with words := [(3, 9), (127, 0xFF)], wordsEc := 7 } })),
     0xFF, by decide +kernel⟩,
   ⟨0, withRegs [(R.cluArrEntry 0 255, 0)] { State.reset with shore := { State.reset.shore with words := [(0, 0xFF)] } },
     0xFF, by decide +kernel⟩⟩

/-- The hypotheses of StepRunsFrontCommand, clause by clause. -/
theorem wit_StepRunsFrontCommand :
    (∃ (c : Instr) (rest : List Instr) (s : State), s.pending = c :: rest) ∧
    (∃ (s : State), s.pending = []) :=
  ⟨⟨.flr, [.thermalDecision], { State.reset with pending := [.flr, .thermalDecision] }, by decide +kernel⟩,
   ⟨State.reset, by decide +kernel⟩⟩

def instructionResults1 : State := running (withRegs [(R.glbSchedDepth, 1024), (R.glbSchedStatus, 0x100)] (withClu 3
  { walk := .inLeg 1023, imem := [(1023, 0x0400000000000000000000001#96 <<< 66), (511 * 1024 + 1023, 0x3#96 <<< 90 ||| 1#96 <<< 80)], dict := [(0, 1)], prev := [(5, true)], cur := [(1024, true)], forces := [(63, 0xC00193FF)] }
  State.reset))

/-- The hypotheses of InstructionResults. -/
theorem wit_InstructionResults :
    ∃ (n : Fin 128) (s : State) (st : Nat) (c : Cluster), clusterRuns s n = true ∧ s.sched.run = .running ∧ (clu s
      n).walk = .inLeg st ∧ st < 1024 ∧ (clu s n).bankDebt = 0 ∧ armWsets s n st (stepWords (arriveStep s n st (clu
      s n)) st) (arriveStep s n st (clu s n)) = some c ∧ stallCauses s n c st (stepWords (arriveStep s n st (clu s
      n)) st) = [] :=
  ⟨3, instructionResults1, 1023, armedAt instructionResults1 3 1023, by decide +kernel, by decide +kernel,
    by decide +kernel, by decide +kernel, by decide +kernel, some_of_isSome (by decide +kernel), by decide +kernel⟩

/-- The hypotheses of FeedWords. -/
theorem wit_FeedWords :
    ∃ (c : Fin 2) (g : Fin 32) (inc : Bool) (s : State), s.dbg.feeding = none :=
  ⟨1, 31, true, withRegs [(R.dbgStatus, 0x90000000), (R.dbgAddr, 0x10000000)] State.reset, by decide +kernel⟩

/-- A state with a waiting command and canonical memories. -/
def waiting : State := { State.reset with pending := [.quiesce 3], banks := {} }

/-- The hypotheses of StepTakesOneCommand. -/
theorem wit_StepTakesOneCommand : ∃ s t : State, queueOk s ∧ step s = .next t ∧ t.pending = [] :=
  ⟨waiting, _, by intro c h; simp only [waiting, List.mem_singleton] at h; subst h; decide, rfl, rfl⟩

/-- The hypotheses of StepKeepsRegisterMap. -/
theorem wit_StepKeepsRegisterMap : ∃ s t : State, regsOk s ∧ step s = .next t ∧ t.pending = [] :=
  ⟨waiting, _, by show sparseWf _ _ = true; decide +kernel, rfl, rfl⟩

/-- The hypotheses of StepKeepsMemories. -/
theorem wit_StepKeepsMemories : ∃ s t : State, memoriesOk s ∧ step s = .next t ∧ t.pending = [] := by
  refine ⟨waiting, _, ⟨fun _ => ⟨.nil, ?_⟩, fun _ => ⟨.nil, ?_⟩, fun _ => ⟨.nil, ?_⟩, fun _ => ⟨.nil, ?_⟩, ⟨.nil, ?_⟩,
    ⟨.nil, ?_⟩⟩, rfl, rfl⟩ <;> exact fun _ h => nomatch h

/-- A register description and a bit of it, of every access code of Table 0.3. -/
theorem wit_AccessCodes : (∃ g ∈ regTable, g.rw.testBit 0 = true) ∧ (∃ g ∈ regTable, g.w1c.testBit 0 = true) ∧
    (∃ g ∈ regTable, g.w1s.testBit 31 = true) ∧ (∃ g ∈ regTable, g.rc.testBit 31 = true) := by
  decide +kernel

/-! ## Ill-formed commands -/

/-- An access beyond its BAR, of no bytes, or with data of the wrong length is refused (R9, R388, R389, R393). -/
theorem test_ill_formed_accesses :
    wellFormed (.registerWrite ⟨.host, .bar0, 0, 0, false, false⟩ []) = false ∧
    wellFormed (.registerWrite ⟨.host, .bar0, 0x4000000, 4, false, false⟩ [0]) = false ∧
    wellFormed (.registerWrite ⟨.host, .bar2, 0x1FFFE, 4, false, false⟩ [0, 0]) = false ∧
    wellFormed (.registerWrite ⟨.host, .bar0, 0, 8, false, false⟩ [0]) = false ∧
    wellFormed (.readClear ⟨.host, .bar2, 0x20000, 4, false, false⟩) = false ∧
    wellFormed (.captureRead ⟨.host, .bar0, 0, 0, false, false⟩) = false ∧
    wellFormed (.mgmtWrite 3 .host 0x4000000 0) = false ∧ wellFormed (.mgmtRead 3 0x4000000) = false ∧
    wellFormed (.registerWrite ⟨.host, .config .command, 2, 4, false, false⟩ [0, 0]) = false ∧
    wellFormed (.bar4Access 0 0 (.read [])) = false ∧ wellFormed (.bar4Access 0xFFFFFFFF 2 (.read [true, true])) = false ∧
    wellFormed (.bar4Access 0 2 (.write [some 7] false)) = false ∧
    wellFormed (.bar4Access 0 2 (.ecrcBad (.read [true]))) = false ∧
    wellFormed (.readClear ⟨.lighthouse, .ddrWin, 0x3FFFFFFE, 4, false, false⟩) = false := by
  decide

/-- A link unit with a field wider than its place, or with times that run backwards, is refused. -/
theorem test_ill_formed_link_units :
    wellFormed (.trainingSetReceive 0 ⟨true, [], 256, 0, 0, 1, 0, true⟩) = false ∧
    wellFormed (.trainingSetReceive 0 ⟨true, [], 0, 256, 0, 1, 0, true⟩) = false ∧
    wellFormed (.trainingSetReceive 0 ⟨true, [], 0, 0, 256, 1, 0, true⟩) = false ∧
    wellFormed (.trainingSetReceive 0 ⟨true, [], 0, 0, 0, 256, 0, true⟩) = false ∧
    wellFormed (.trainingSetReceive 0 ⟨true, [], 0, 0, 0, 1, 256, true⟩) = false ∧
    wellFormed (.alignmentMarkerReceive 0 []) = false ∧
    wellFormed (.alignmentMarkerReceive 0 [⟨0, 16, 0, 0, true, ⟨0, []⟩⟩]) = false ∧
    wellFormed (.alignmentMarkerReceive 0 [⟨0, 1, 8, 0, true, ⟨0, []⟩⟩]) = false ∧
    wellFormed (.delayExchange 0 (.answer 0 0 5 4 0)) = false ∧
    wellFormed (.syncReceive 0 ⟨16, 0, 0, 0, 0, 0⟩) = false ∧
    wellFormed (.followUpReceive 0 ⟨0, 256, 0, 0, 0, 0⟩) = false ∧
    wellFormed (.delayReqReceive 0 ⟨0, 0, 65536, 0, 0, 0⟩) = false ∧
    wellFormed (.delayRespReceive 0 ⟨0, 0, 0, 2 ^ 96, 0, 0⟩) = false ∧
    wellFormed (.prbsLock 0 []) = false := by
  decide

/-- Every other operand outside its place is refused. -/
theorem test_ill_formed_operands :
    wellFormed (.ddrTrain 0 16 true 0) = false ∧ wellFormed (.txDescriptorFetch 0 false []) = false ∧
    wellFormed (.messageWindowWrite none none) = false ∧ wellFormed (.peek (2 ^ 32) true) = false ∧
    wellFormed (.poke (2 ^ 32) 0 ⟨true, false⟩) = false ∧ wellFormed (.burstPeek (2 ^ 32) 1 true) = false ∧
    wellFormed (.burstPeek 0 0 true) = false ∧ wellFormed (.burstPeek 0 33 true) = false ∧
    wellFormed (.reservedOp 1 true) = false ∧ wellFormed (.coreBranch ⟨0, 0⟩ false (2 ^ 32) 0) = false ∧
    wellFormed (.sensorSample 0 256) = false ∧ wellFormed (.pcieLinkUp 4 1) = false ∧
    wellFormed (.pcieLinkUp 1 3) = false := by
  decide

theorem test_ill_formed_fetch : wellFormed (.txDescriptorFetch 0 false (List.replicate 4097 0)) = false := by
  decide +kernel

/-! ## Values written outside the model -/

/-- Example 2.1: operand selectors read the entry that they name. -/
theorem test_operand_selectors :
    (0x0784 / 1024, 0x0784 % 1024) = (1, 900) ∧ (0x1E03 / 1024, 0x1E03 % 1024 / 256, 0x1E03 % 4) = (7, 2, 3) ∧
    readOperand State.reset 5 { slots := [(5, 0x20000)] } 0 0 0x0D51 = true ∧
    readOperand { State.reset with sched := { State.reset.sched with ec := 8 } } 5 {} 0 0 0x1883 = true := by
  decide +kernel

/-- Example 7.1: M = 90 symbols is 32,000 ps; D_req is 64 steps; the resend window of width 4 is 281 ns. -/
theorem test_link_delay : delayPs (16 * 180) = 32000 ∧ delayReqSteps (16 * 180) = 64 ∧ resendWindow (16 * 180) 4 = 281 := by
  decide

/-- Example 13.1: the CRC-8 of the request and the bytes of the reply. -/
theorem test_footpath_frames : crc8 [0x20, 0x00, 0x92, 0x00, 0x00] = 0x1B ∧
    replyFrame { status := 0, data := [3] } = [0x00, 0x00, 0x00, 0x00, 0x03, 0x09] := by
  decide +kernel

/-- Example 13.2: the varints of two branch packets of core 0. -/
theorem test_branch_packets : packetHeader 2 0 0 = 0x20 ∧ varint 2 = [0x02] ∧ signedVarint (-4) = [0x07] ∧
    signedVarint 11780 = [0x88, 0xB8, 0x01] := by
  decide +kernel

/-- Example 8.2: the byte address of a read of region 3 of channel 1. -/
theorem test_ddr_address :
    ddrAddress (withRegs [(R.ddrRegionBase 1 3, 0x00000800)] State.reset) 1 0x2300000000040010 = 0x80200080 := by
  decide +kernel

/-- 8b/10b (R161): K28.5, D10.2 and K28.1 leaving a negative running disparity, a first. -/
theorem test_code_groups : codeGroup true 0xBC false = 0b0011111010 ∧ codeGroup true 0xBC true = 0b1100000101 ∧
    codeGroup false 0x4A false = 0b0101010101 ∧ codeGroup true 0x3C false = 0b0011111001 := by
  decide +kernel

/-- SHA-256 of the bytes "abc" (FIPS 180-4). -/
theorem test_sha256 : sha256 [0x61, 0x62, 0x63] =
    0xBA7816BF8F01CFEA414140DE5DAE2223B00361A396177A9CB410FF61F20015AD := by
  decide +kernel

/-- AES-256 of the block 00112233 … EEFF (FIPS 197, appendix C.3). -/
theorem test_aes256 :
    aes256 0x000102030405060708090A0B0C0D0E0F101112131415161718191A1B1C1D1E1F 0x00112233445566778899AABBCCDDEEFF =
      0x8EA2B7CA516745BFEAFC49904B496089 := by
  decide +kernel
end Tests
end

/-! # What an executed step writes as its result

An executed step runs its effects in the order of R65. The value store is written by `writeResults` alone, so the proof
has two halves: every other effect leaves the current bank and the force entries as they are, and every writer of one
entry in one step writes the same value. -/

section
namespace Sys2Proof.Machine

/-! ## Folds that keep a part of what they fold over -/

/-- What every step of a fold keeps, the fold keeps. -/
theorem foldl_keeps {α σ β : Type} (g : σ → β) (f : σ → α → σ) (hf : ∀ a x, g (f a x) = g a) (l : List α) (a : σ) :
    g (l.foldl f a) = g a := by
  induction l generalizing a with
  | nil => rfl
  | cons x rest ih => rw [List.foldl_cons, ih, hf]

/-! ## Arrivals and armed waymarks: the current bank and the periods owed stay -/

theorem landDue_cur_bankDebt (t : Nat) (c : Cluster) :
    (landDue t c).cur = c.cur ∧ (landDue t c).bankDebt = c.bankDebt := by
  unfold landDue
  dsimp only
  exact ⟨foldl_keeps Cluster.cur landMrd (fun _ _ => rfl) _ _,
    foldl_keeps Cluster.bankDebt landMrd (fun _ _ => rfl) _ _⟩

theorem deadlineWrite_cur_bankDebt (s : State) (x : Nat × Word) (c : Cluster) :
    (deadlineWrite s x c).cur = c.cur ∧ (deadlineWrite s x c).bankDebt = c.bankDebt := by
  unfold deadlineWrite
  split
  · split
    · exact ⟨rfl, rfl⟩
    · split <;> exact ⟨rfl, rfl⟩
  · split <;> exact ⟨rfl, rfl⟩

@[simp] theorem arriveStep_cur (s : State) (n t : Nat) (c : Cluster) : (arriveStep s n t c).cur = c.cur := by
  unfold arriveStep
  rw [foldl_keeps Cluster.cur _ fun a x => (deadlineWrite_cur_bankDebt s x a).1]
  exact (landDue_cur_bankDebt t c).1

@[simp] theorem arriveStep_bankDebt (s : State) (n t : Nat) (c : Cluster) :
    (arriveStep s n t c).bankDebt = c.bankDebt := by
  unfold arriveStep
  rw [foldl_keeps Cluster.bankDebt _ fun a x => (deadlineWrite_cur_bankDebt s x a).2]
  exact (landDue_cur_bankDebt t c).2

@[simp] theorem armWaymark_bankDebt (s : State) (n k : Nat) (c : Cluster) :
    (armWaymark s n k c).bankDebt = c.bankDebt := by
  unfold armWaymark
  split <;> rfl

/-- The arming of the WSETs of a step pays no period and owes none (R65, R198). -/
theorem armWsets_bankDebt {s : State} {n st : Nat} {ws : List (Nat × Insn)} {c c' : Cluster}
    (h : armWsets s n st ws c = some c') : c'.bankDebt = c.bankDebt := by
  unfold armWsets at h
  split at h
  · cases h; rfl
  · dsimp only at h
    split at h
    · cases h
    · cases h
      exact foldl_keeps Cluster.bankDebt _ (fun a k => armWaymark_bankDebt s n k a) _ _

/-! ## The effects of an executed step before its results: the current bank and the force entries stay -/

/-- The part of a cluster that decides what an entry of the current bank holds after a step: the bank and the force
entries (R54, R64). -/
def bankAndForces (c : Cluster) : Sparse Bool × Sparse (BitVec 32) := (c.cur, c.forces)

theorem stepFaults_bankAndForces (n : Nat) (ws : List (Nat × Insn)) (c : Cluster) (s : State) :
    bankAndForces (stepFaults n ws c s).1 = bankAndForces c := by
  unfold stepFaults
  dsimp only
  split <;> rfl

theorem applyBitWrites_bankAndForces (s : State) (n : Nat) (rs : Results) (c : Cluster) :
    bankAndForces (applyBitWrites s n rs c) = bankAndForces c := by
  unfold applyBitWrites
  exact foldl_keeps bankAndForces _ (by intros; rfl) _ _

theorem laneAccesses_bankAndForces (n st : Nat) (wl rl : List Nat) (c : Cluster) (s : State) :
    bankAndForces (laneAccesses n st wl rl c s).1 = bankAndForces c := rfl

theorem applyCommits_bankAndForces (s : State) (n : Nat) (rs : Results) (c : Cluster) :
    bankAndForces (applyCommits s n rs c) = bankAndForces c := by
  unfold applyCommits
  dsimp only
  rw [foldl_keeps bankAndForces _ (by intros; rfl)]
  exact foldl_keeps bankAndForces _ (fun _ _ => by split <;> rfl) _ _

theorem popQueue_bankAndForces (n q : Nat) (c : Cluster) (s : State) :
    bankAndForces (popQueue n q c s).1 = bankAndForces c := by
  unfold popQueue
  split <;> rfl

theorem applyGets_bankAndForces (n : Nat) (rs : Results) (c : Cluster) (s : State) :
    bankAndForces (applyGets n rs c s).1 = bankAndForces c := by
  unfold applyGets
  refine foldl_keeps (fun acc : Cluster × State => bankAndForces acc.1) _ (fun acc q => ?_) _ _
  split
  · exact popQueue_bankAndForces n q acc.1 acc.2
  · rfl

/-! ## The effects of an executed step after its results: the current bank stays -/

@[simp] theorem passSteps_cur (s : State) (n a b : Nat) (c : Cluster) : (passSteps s n a b c).cur = c.cur := by
  unfold passSteps
  exact foldl_keeps Cluster.cur _ (fun acc t => arriveStep_cur s n t acc) _ _

@[simp] theorem afterStep_cur (s : State) (n st : Nat) (c : Cluster) : (afterStep s n st c).cur = c.cur := by
  unfold afterStep
  split
  · rfl
  · split
    · rfl
    · split
      · rfl
      · exact passSteps_cur s n _ _ c

@[simp] theorem clu_launch (n e : Nat) (w : DWord) (s : State) (j : Nat) : clu (launch n e w s) j = clu s j := by
  unfold launch
  split
  · exact clu_setNi _ _ _ _
  · exact clu_signal _ _ _ _

@[simp] theorem clu_recordHazard (n st : Nat) (h : Nat × Nat) (s : State) (j : Nat) :
    clu (recordHazard n st h s) j = clu s j := by
  unfold recordHazard
  dsimp only
  split
  · exact clu_bumpBits s R.glbHazardCount 0 32 1 j
  · rw [clu_setBit]
    exact clu_bumpBits s R.glbHazardCount 0 32 1 j

@[simp] theorem clu_launches (n : Nat) (word : Nat × Nat → DWord) (l : List (Nat × Nat)) (s : State) (j : Nat) :
    clu (l.foldl (fun acc x => launch n x.2 (word x) acc) s) j = clu s j := by
  induction l generalizing s with
  | nil => rfl
  | cons x rest ih => rw [List.foldl_cons, ih, clu_launch]

@[simp] theorem clu_hazards (n st : Nat) (l : List (Nat × Nat)) (s : State) (j : Nat) :
    clu (l.foldl (fun acc h => recordHazard n st h acc) s) j = clu s j := by
  induction l generalizing s with
  | nil => rfl
  | cons h rest ih => rw [List.foldl_cons, ih, clu_recordHazard]

/-! ## An executed step as its results -/

/-- The results of the words of a step: BP, word, result (R65). -/
def resultsOf (s : State) (n : Nat) (c : Cluster) (st : Nat) (ws : List (Nat × Insn)) : Results :=
  ws.map fun x => (x.1, x.2, presentResult s n c st x.1 x.2)

/-- The cluster of a step with every effect that comes before the writes of its results (R65). -/
def beforeResults (n st : Nat) (ws : List (Nat × Insn)) (c : Cluster) (s : State) : Cluster :=
  let rs := resultsOf s n c st ws
  let faults := stepFaults n ws c s
  let lanes := laneAccesses n st (enabledTargets .mwd true (fun b _ => b / 64) rs)
    (enabledTargets .mrd false (fun b _ => b / 64) rs) (applyBitWrites s n rs faults.1) faults.2
  let gets := (applyGets n rs (applyCommits s n rs lanes.1) lanes.2).1
  if swellReport gets st rs then addSwell s (reg s (R.cluSwellStep n st)) gets else gets

theorem beforeResults_bankAndForces (n st : Nat) (ws : List (Nat × Insn)) (c : Cluster) (s : State) :
    bankAndForces (beforeResults n st ws c s) = bankAndForces c := by
  have swell (flags : BitVec 32) (g : Cluster) : bankAndForces (addSwell s flags g) = bankAndForces g := rfl
  unfold beforeResults
  dsimp only
  rw [apply_ite bankAndForces, swell, ite_self, applyGets_bankAndForces, applyCommits_bankAndForces,
    laneAccesses_bankAndForces, applyBitWrites_bankAndForces, stepFaults_bankAndForces]

/-- The current bank after an executed step: its results written over the cluster that the effects before them leave. -/
theorem executeStep_cur (n st : Nat) (ws : List (Nat × Insn)) (c : Cluster) (s : State) :
    (clu (executeStep n st ws c s) n).cur =
      (writeResults st (resultsOf s n c st ws) (beforeResults n st ws c s)).cur := by
  unfold executeStep
  dsimp only
  rw [clu_hazards, clu_launches, clu_setClu, if_pos rfl]
  exact afterStep_cur s n st _

/-! ## The value store -/

/-- An entry of step `t` after an entry of that step was written. -/
theorem entry_setEntry (m : Sparse Bool) (b b' t : Nat) (v : Bool) :
    entry (setEntry m b' t v) b t = if b = b' then v else entry m b t := by
  simp [entry, setEntry]

/-- When every writer of BP `b` in a step writes `v`, and one writes or the entry holds `v` already, the entry holds `v`
afterwards. -/
theorem entry_after_writes (kept : Nat × Insn × Bool → Bool) (b t : Nat) (v : Bool) (rs : Results) (m : Sparse Bool)
    (hv : ∀ x ∈ rs, x.1 = b → kept x = false ∧ x.2.2 = v) (h : entry m b t = v ∨ ∃ x ∈ rs, x.1 = b) :
    entry (rs.foldl (fun acc x => if kept x then acc else setEntry acc x.1 t x.2.2) m) b t = v := by
  induction rs generalizing m with
  | nil => simpa using h
  | cons y rest ih =>
    rw [List.foldl_cons]
    refine ih _ (fun x hx => hv x (List.mem_cons_of_mem _ hx)) ?_
    by_cases hy : y.1 = b
    · obtain ⟨hk, hw⟩ := hv y List.mem_cons_self hy
      left
      rw [hk, if_neg Bool.false_ne_true, entry_setEntry, if_pos hy.symm, hw]
    · refine h.imp (fun hm => ?_) fun ⟨x, hx, hb⟩ => ⟨x, ?_, hb⟩
      · split
        · exact hm
        · rw [entry_setEntry, if_neg (Ne.symm hy), hm]
      · exact (List.mem_cons.1 hx).resolve_left fun e => hy (e ▸ hb)

/-- The word of a BP at a step is that of its instruction memory. -/
theorem insnAt_of_mem_stepWords {c : Cluster} {st b : Nat} {i : Insn} (h : (b, i) ∈ stepWords c st) :
    i = insnAt c b st := by
  obtain ⟨a, -, e⟩ := List.mem_map.1 h
  cases e
  rfl

/-- The result of a word other than WSET is that of the present edge (R65). -/
theorem presentResult_of_ne_wset {s : State} {n : Nat} {c : Cluster} {st b : Nat} {i : Insn} (h : insnOp i ≠ .wset) :
    presentResult s n c st b i = resultOf s n c b st i := by
  unfold presentResult
  split
  · exact if_neg h
  · rfl

/-- An executed step stores the result of every word that is no WSET, and no NOP without a force entry (R54, R64). -/
theorem executeStep_stores_result {s : State} {n st b : Nat} {c c₀ : Cluster} {i : Insn}
    (hmem : (b, i) ∈ stepWords c₀ st) (hset : insnOp i ≠ .wset)
    (hwrites : insnOp i ≠ .nop ∨ (forced c b st).isSome) :
    entry (clu (executeStep n st (stepWords c₀ st) c s) n).cur b st = resultOf s n c b st i := by
  have hforces : forced (beforeResults n st (stepWords c₀ st) c s) b st = forced c b st := by
    unfold forced
    rw [(Prod.mk.inj (beforeResults_bankAndForces n st (stepWords c₀ st) c s)).2]
  rw [executeStep_cur]
  refine entry_after_writes _ b st _ _ _ (fun x hx hb => ?_) (Or.inr ?_)
  · obtain ⟨⟨b', i'⟩, hy, rfl⟩ := List.mem_map.1 hx
    obtain rfl : b' = b := hb
    obtain rfl : i' = i := (insnAt_of_mem_stepWords hy).trans (insnAt_of_mem_stepWords hmem).symm
    refine ⟨?_, presentResult_of_ne_wset hset⟩
    dsimp only
    rw [hforces]
    rcases hwrites with hop | hf
    · simp [hop]
    · simp [Option.isNone_eq_false_iff.2 hf]
  · exact ⟨_, List.mem_map.2 ⟨(b, i), hmem, rfl⟩, rfl⟩

/-- A running cluster with no period owed and no stall condition executes its step (R65, R424). -/
theorem exec_clusterStep_executes {n : Fin 128} {s : State} {st : Nat} {c : Cluster} (hruns : clusterRuns s n = true)
    (hrun : s.sched.run = .running) (hwalk : (clu s n).walk = .inLeg st) (hdebt : (clu s n).bankDebt = 0)
    (harm : armWsets s n st (stepWords (arriveStep s n st (clu s n)) st) (arriveStep s n st (clu s n)) = some c)
    (hstall : stallCauses s n c st (stepWords (arriveStep s n st (clu s n)) st) = []) :
    exec (.clusterStep n) s = .next (executeStep n st (stepWords (arriveStep s n st (clu s n)) st) c s) := by
  have hedge : clusterEdge n s = stepEdge n st s := by simp [clusterEdge, hruns, hrun, hwalk]
  have howes : c.bankDebt = 0 := by rw [armWsets_bankDebt harm, arriveStep_bankDebt, hdebt]
  have hstep : stepEdge n st s = executeStep n st (stepWords (arriveStep s n st (clu s n)) st) c s := by
    simp [stepEdge, harm, hstall, howes]
  show Host.Outcome.next (clusterEdge n s) = _
  rw [hedge, hstep]

/-! ## Results by opcode (R27, R62, R69 to R71) -/

/-- The index of a lookup is the sum of its operand bits by weight (R27). -/
theorem lookupIndex_eq_sum (s : State) (n : Nat) (c : Cluster) (b st : Nat) (i : Insn) (m : Nat) :
    lookupIndex s n c b st i m = ∑ k ∈ Finset.range m, (readOperand s n c b st (opSel i k)).toNat * 2 ^ k := by
  induction m with
  | zero => rfl
  | succ m ih =>
    rw [Finset.sum_range_succ, ← ih]
    simp [lookupIndex, List.range_succ, Nat.shiftLeft_eq]

/-- A lookup is the bit of the dictionary entry at that sum. -/
theorem tableResult_eq (s : State) (n : Nat) (c : Cluster) (b st : Nat) (i : Insn) (m : Nat) :
    tableResult s n c b st i m = (dword c.dict (fidx i)).getLsbD
      (∑ k ∈ Finset.range m, (readOperand s n c b st (opSel i k)).toNat * 2 ^ k) := by
  rw [tableResult, lookupIndex_eq_sum]

section
variable {s : State} {n : Nat} {c : Cluster} {b st : Nat} {i : Insn}

theorem resultOf_forced {v : Bool} (h : forced c b st = some v) : resultOf s n c b st i = v := by
  simp [resultOf, h]

theorem resultOf_unforced (h : forced c b st = none) : resultOf s n c b st i = computed s n c b st i := by
  simp [resultOf, h]

theorem computed_six_operands (h : insnOp i ∈ [.eval, .madr, .mrd]) :
    computed s n c b st i = tableResult s n c b st i 6 := by
  simp only [List.mem_cons, List.not_mem_nil, or_false] at h
  unfold computed
  rcases h with h | h | h <;> rw [h]

theorem computed_evalx (h : insnOp i = .evalx) :
    computed s n c b st i =
      if readOperand s n c b st (opSel i 5) then tableResult s n c b st i 5 else entry c.cur b st := by
  unfold computed
  rw [h]

theorem computed_copy (h : insnOp i = .copy) :
    computed s n c b st i = (readOperand s n c b st (opSel i 0) != (fidx i).testBit 0) := by
  unfold computed
  rw [h, Nat.testBit_zero, beq_eq_decide]

theorem computed_five_operands (h : insnOp i ∈ [.send, .hsend, .mwd, .qput, .qget, .wwait, .probe, .brk]) :
    computed s n c b st i = tableResult s n c b st i 5 := by
  simp only [List.mem_cons, List.not_mem_nil, or_false] at h
  unfold computed
  rcases h with h | h | h | h | h | h | h | h <;> rw [h]

end

/-- Settles O8: the entry of an executed word is its result, and the result is a force value or the opcode's. -/
theorem instructionResults : Obligations.InstructionResults := by
  intro n s st c hruns hrun hwalk _ hdebt harm hstall
  refine ⟨_, exec_clusterStep_executes hruns hrun hwalk hdebt harm hstall, fun b i hmem => ⟨fun v hv hset => ?_,
    fun hfree => ?_⟩⟩
  · rw [executeStep_stores_result hmem hset (Or.inr (by rw [hv]; rfl)), resultOf_forced hv]
  · have stored {ops : List Op} (hop : insnOp i ∈ ops) (hops : ∀ o ∈ ops, o ≠ .wset ∧ o ≠ .nop) :
        entry (clu (executeStep n st (stepWords (arriveStep s n st (clu s n)) st) c s) n).cur b st =
          computed s n c b st i :=
      (executeStep_stores_result hmem (hops _ hop).1 (Or.inl (hops _ hop).2)).trans (resultOf_unforced hfree)
    refine ⟨fun hop => ?_, fun hop => ?_, fun hop => ?_, fun hop => ?_⟩
    · rw [stored hop (by decide), computed_six_operands hop, tableResult_eq]
    · rw [stored (List.mem_singleton.2 hop) (by decide), computed_evalx hop, tableResult_eq]
    · rw [stored (List.mem_singleton.2 hop) (by decide), computed_copy hop]
    · rw [stored hop (by decide), computed_five_operands hop, tableResult_eq]

end Sys2Proof.Machine
end

/-! # A frame of a reserved type (R166)

FRAME_RECEIVE ends by letting a child device take the load frames that wait from its parent link (R257), whatever the
frame was. So the obligation fails in a state where such a frame waits and can be taken: the load bytes that wait on
the link shrink with a frame of a reserved type, too. Where no load frame waits from the parent, all that the obligation
says of the frame holds. -/

section
namespace Sys2Proof.Machine

/-! ## What the parts of FRAME_RECEIVE do -/

theorem exec_frameReceive (a : Fin 80) (f : FrameIn) (s : State) :
    exec (.frameReceive a f) s = .next (feedParent (frameHeard a f s)) := rfl

theorem feedParent_of_none_waiting {s : State} (h : (link s (parentLink s)).rxLoad = []) : feedParent s = s := by
  rw [feedParent, h]
  rfl

theorem linkOfLane_lt {s : State} {a l : Nat} (h : linkOfLane s a = some l) : l < 20 :=
  List.mem_range.1 (List.mem_filter.1 (List.mem_of_mem_head? h)).1

/-- A unit without code errors is counted on its lane, and changes nothing else. -/
theorem unitArrives_frame (a n : Nat) {rx : LaneIn} (s : State) (h : rx.errors = []) :
    ∃ m, unitArrives a n rx s = { s with cw := { s.cw with lanes := m } } := by
  have counted (k : Nat) :
      symbolsArrive a k [] s = setLane s a { lane s a with received := (lane s a).received + k } := rfl
  unfold unitArrives
  rw [h, counted]
  split
  · exact ⟨_, rfl⟩
  · dsimp only
    split <;> exact ⟨_, rfl⟩

/-- A whole frame whose symbols and header are right comes to its link as a good frame; its lane counts the symbols. -/
theorem frameHeard_good {a l : Nat} {f : FrameIn} {s : State} (hoper : laneState s a = laneOper)
    (hlink : linkOfLane s a = some l) (hup : linkUp s l = true) (hloop : laneLooped s a = false)
    (hwhole : f.aborted = false) (hclean : f.rx.errors = []) (hcrc : headerOk f.header = true) :
    ∃ m, frameHeard a f s = goodFrame l f.header f.payload { s with cw := { s.cw with lanes := m } } := by
  obtain ⟨m, hm⟩ := unitArrives_frame a 38 s hclean
  have hhit : unitHit f.rx = false := by simp [unitHit, hclean]
  refine ⟨m, ?_⟩
  rw [frameHeard, receiveUnit, if_neg (by simp [hloop]), frameReceive, hm]
  generalize ht : ({ s with cw := { s.cw with lanes := m } } : State) = t
  have hoper' : laneState t a = laneOper := ht ▸ hoper
  have hlink' : linkOfLane t a = some l := ht ▸ hlink
  have hup' : linkUp t l = true := ht ▸ hup
  simp [hoper', hlink', hup', hwhole, hhit, hcrc]

/-- `u` is `s` but for what a frame reports of the frames that link `l` has sent (R180, R181). -/
structure SameButReports (l : Nat) (s u : State) : Prop where
  flt : u.flt = s.flt
  pwr : u.pwr = s.pwr
  regs : keepsRegs [R.cwLinkStatus l] s u
  others : ∀ j, j ≠ l → link u j = link s j
  own : ∃ r q b ns, link u l = { link s l with replay := r, resend := q, timeoutRaised := b, rxNaks := ns }

theorem takeAck_sameButReports (l ack : Nat) (s : State) : SameButReports l s (takeAck l ack s) where
  flt := rfl
  pwr := rfl
  regs := fun x hx => by rw [takeAck, reg_setBit_ne _ _ _ _ _ (by simpa using hx), reg_setLink]
  others := fun j hj => by rw [takeAck, link_setBit, link_setLink, if_neg hj]
  own := ⟨_, _, _, _, by rw [takeAck, link_setBit, link_setLink, if_pos rfl]⟩

theorem SameButReports.addNak {l : Nat} {s u : State} (h : SameButReports l s u) (naks : List Nat) :
    SameButReports l s (setLink u l { link u l with rxNaks := naks }) where
  flt := h.flt
  pwr := h.pwr
  regs := fun x hx => by rw [reg_setLink, h.regs x hx]
  others := fun j hj => by rw [link_setLink, if_neg hj, h.others j hj]
  own := by
    obtain ⟨r, q, b, ns, hown⟩ := h.own
    exact ⟨r, q, b, naks, by rw [link_setLink, if_pos rfl, hown]⟩

/-- The expected sequenced frame is accepted, once its reports have been taken (R180). -/
theorem goodFrame_expected {l : Nat} {header : BitVec 32} {s : State} (h0 : bitsOf header 4 4 ≠ 0)
    (h45 : ¬ (bitsOf header 4 4 = 4 ∨ bitsOf header 4 4 = 5)) (hseq : bitsOf header 8 8 = (link s l).expectedSeq)
    (p : BitVec 256) :
    ∃ u, SameButReports l s u ∧
      goodFrame l header p s = acceptFrame l (bitsOf header 4 4) (bitsOf header 2 2) (header.getLsbD 0) p u := by
  have hack := takeAck_sameButReports l (bitsOf header 16 8) s
  have inSequence {u : State} (hu : SameButReports l s u) :
      (bitsOf header 8 8 + 256 - (link u l).expectedSeq) % 256 = 0 := by
    obtain ⟨r, q, b, ns, hown⟩ := hu.own
    rw [hown, ← hseq, Nat.add_sub_cancel_left]
  unfold goodFrame
  dsimp only
  rw [if_neg h0, if_neg h45]
  split
  · exact ⟨_, hack.addNak _, if_pos (inSequence (hack.addNak _))⟩
  · exact ⟨_, hack, if_pos (inSequence hack)⟩

/-- The link after the expected sequenced frame: its number is the one to acknowledge, and an ack waits (R180). -/
def expectedTaken (k : Link) : Link :=
  ackWaits { k with expectedSeq := (k.expectedSeq + 1) % 256, nakSent := false }

theorem acceptFrame_reserved {type : Nat} (h : 6 ≤ type) (l vc : Nat) (last : Bool) (p : BitVec 256) (s : State) :
    acceptFrame l type vc last p s = signal 225 l (setLink s l (expectedTaken (link s l))) := by
  unfold acceptFrame
  split
  · omega
  · omega
  · omega
  · rfl

/-- A link whose lowest lane works is heard when it signals CW_BAD_FRAME (R345). -/
theorem signal_badFrame {l : Nat} {s : State} (hl : l < 20) (h : laneGone s (linkBase s l) = false) :
    (signal 225 l s).flt.signals = s.flt.signals ++ [⟨225, l, false⟩] := by
  have hgone : sourceGone s 225 l = false := by simp [sourceGone, h]
  simp [signal, hgone, Nat.mod_eq_of_lt (show l < 65536 by omega)]

/-- A link's status register is none of those that say whether its lowest lane works. -/
theorem laneGone_linkBase_congr {l : Nat} {s u : State} (hpwr : u.pwr = s.pwr)
    (hregs : keepsRegs [R.cwLinkStatus l] s u) :
    laneGone u (linkBase u l) = laneGone s (linkBase s l) := by
  have kept (x : Nat) (hx : x ≠ R.cwLinkStatus l) : reg u x = reg s x := hregs x (by simpa using hx)
  have hlt : linkBase s l < 2 ^ 7 := bitsOf_lt _ _ _
  have hbase : linkBase u l = linkBase s l := by
    rw [linkBase, linkBase, bits, bits, kept _ (by simp)]
  have hdomain := kept (R.pwrDomainStatus (20 + linkBase s l / 16))
    (by simp only [R.pwrDomainStatus, R.cwLinkStatus]; omega)
  have hquads := kept R.glbUnitPresent1 (by simp only [R.glbUnitPresent1, R.cwLinkStatus]; omega)
  simp only [laneGone, domainSignals, domainOn, domainWorks, bits, bit, hbase, hdomain, hquads, hpwr]

/-! ## A reserved frame while no load frame waits -/

/-- The hypotheses of O51: a good expected frame `f` of a reserved type comes to link `l` on its lane `a`. -/
structure ReservedFrameArrives (a : Nat) (s : State) (l : Nat) (f : FrameIn) : Prop where
  oper : laneState s a = laneOper
  ofLink : linkOfLane s a = some l
  up : linkUp s l = true
  unlooped : laneLooped s a = false
  whole : f.aborted = false
  clean : f.rx.errors = []
  header : headerOk f.header = true
  present : laneGone s (linkBase s l) = false
  reserved : 6 ≤ bitsOf f.header 4 4
  expected : bitsOf f.header 8 8 = (link s l).expectedSeq

/-- Before waiting load frames are taken, the frame has made an ack due, signalled CW_BAD_FRAME and gone nowhere (R166). -/
theorem ReservedFrameArrives.frameHeard_eq {a l : Nat} {f : FrameIn} {s : State} (h : ReservedFrameArrives a s l f) :
    ∃ u, SameButReports l s u ∧ frameHeard a f s = signal 225 l (setLink u l (expectedTaken (link u l))) := by
  have htype := h.reserved
  obtain ⟨m, hheard⟩ := frameHeard_good h.oper h.ofLink h.up h.unlooped h.whole h.clean h.header
  obtain ⟨u, hu, hgood⟩ := goodFrame_expected (s := { s with cw := { s.cw with lanes := m } }) (by omega) (by omega)
    h.expected f.payload
  exact ⟨u, { hu with }, by rw [hheard, hgood, acceptFrame_reserved htype]⟩

/-- While no load frame waits from the parent, a frame of a reserved type is acknowledged, discarded and reported
(R166). -/
theorem ReservedFrameArrives.discarded {a : Fin 80} {s : State} {l : Nat} {f : FrameIn}
    (h : ReservedFrameArrives a s l f) (hload : (link s (parentLink s)).rxLoad = []) :
    Completes (.frameReceive a f) s fun t =>
      ackOf (link t l) = bitsOf f.header 8 8 ∧ (link t l).ackWait.isSome = true ∧
      (link t l).rxVc0 = (link s l).rxVc0 ∧ (link t l).rxFlits = (link s l).rxFlits ∧
      (link t l).rxLoad = (link s l).rxLoad ∧ (link t l).rxControl = (link s l).rxControl ∧
      t.flt.signals = s.flt.signals ++ [⟨225, l, false⟩] := by
  obtain ⟨u, hu, hheard⟩ := h.frameHeard_eq
  obtain ⟨r, q, b, ns, hown⟩ := hu.own
  have hpresent : laneGone u (linkBase u l) = false := (laneGone_linkBase_congr hu.pwr hu.regs).trans h.present
  have hsignals : (frameHeard a f s).flt.signals = s.flt.signals ++ [⟨225, l, false⟩] := by
    rw [hheard, signal_badFrame (s := setLink u l _) (linkOfLane_lt h.ofLink) hpresent, setLink_flt, hu.flt]
  have hlink (j : Nat) : link (frameHeard a f s) j = if j = l then expectedTaken (link u l) else link s j := by
    rw [hheard, link_signal, link_setLink]
    split
    · rfl
    · exact hu.others j ‹_›
  have hparent : parentLink (frameHeard a f s) = parentLink s := by
    rw [hheard, parentLink, bits_signal, bits_setLink, parentLink, bits, bits,
      hu.regs _ (by simp only [List.mem_singleton, R.ldCfg, R.cwLinkStatus]; omega)]
  have hnone : (link (frameHeard a f s) (parentLink (frameHeard a f s))).rxLoad = [] := by
    rw [hparent, hlink, ← hload, hown]
    split
    · rw [‹parentLink s = l›]; rfl
    · rfl
  have hack : (((link s l).expectedSeq + 1) % 256 + 255) % 256 = bitsOf f.header 8 8 := by
    have hlt : bitsOf f.header 8 8 < 2 ^ 8 := bitsOf_lt _ _ _
    rw [← h.expected]
    omega
  refine ⟨_, by rw [exec_frameReceive, feedParent_of_none_waiting hnone], ?_⟩
  dsimp only
  rw [hlink, if_pos rfl, hown]
  exact ⟨hack, rfl, rfl, rfl, rfl, rfl, hsignals⟩

/-! ## A load frame that waits -/

/-- A child device in the header phase of a load, with lane 79 in OPER on its parent link 19, over which `frames` have
come and wait. -/
def childOnLink19 (frames : List (BitVec 256)) : State :=
  let registers : List (Nat × Word) := [(R.pwrDomainStatus 24, 0x40000000), (R.glbUnitPresent1, 0x80000),
    (R.cwLinkCfg 19, 0xCF100000), (R.cwLinkStatus 19, 0x80000000), (R.cwLaneStatus 79, 0xA0000000),
    (R.ldCfg, 0x53000000), (R.ldStatus, 0x10000000)]
  setLink (registers.foldl (fun s x => setReg s x.1 x.2)
    { State.reset with ld := { State.reset.ld with going := true } }) 19 { rxLoad := frames }

/-- A frame of type 6 with sequence number 0. -/
def reservedIn : FrameIn := ⟨0xC5000060, 0, ⟨0, []⟩, false⟩

theorem reservedIn_arrives_waiting : ReservedFrameArrives 79 (childOnLink19 [0]) 19 reservedIn := by
  constructor <;> decide +kernel

/-- The same device while nothing waits: `ReservedFrameArrives.discarded` applies. -/
theorem reservedIn_reported :
    Completes (.frameReceive 79 reservedIn) (childOnLink19 []) fun t => t.flt.signals = [⟨225, 19, false⟩] := by
  have harrives : ReservedFrameArrives 79 (childOnLink19 []) 19 reservedIn := by constructor <;> decide +kernel
  obtain ⟨t, hexec, -, -, -, -, -, -, hsignals⟩ := harrives.discarded (a := 79) (by decide +kernel)
  exact ⟨t, hexec, hsignals⟩

/-- The load takes the frame that waits when the frame of a reserved type comes. -/
theorem reservedIn_takes_waiting :
    (link (feedParent (frameHeard 79 reservedIn (childOnLink19 [0]))) 19).rxLoad = [] := by
  decide +kernel

/-- Refutes O51: with the frame of a reserved type a child takes the load frame that waits from its parent link (R257), so
the load bytes that wait on the link do not stay. -/
theorem not_reservedFrame : ¬ Obligations.ReservedFrame := by
  intro h
  have hr := reservedIn_arrives_waiting
  obtain ⟨t, hexec, -, -, -, -, hload, -⟩ := h.1 79 (childOnLink19 [0]) 19 reservedIn hr.oper hr.ofLink hr.up
    hr.unlooped hr.whole hr.clean hr.header hr.present hr.reserved hr.expected
  have ht : feedParent (frameHeard 79 reservedIn (childOnLink19 [0])) = t := Host.Outcome.next.inj hexec
  rw [← ht, reservedIn_takes_waiting] at hload
  exact absurd hload (by decide +kernel)

end Sys2Proof.Machine
end

/-! # What a march reports at its end

MARCH_DONE works in two parts: it takes the bank out of the march, and it then reports whether a read failed. Neither
the end of a march nor its start writes a register BANK_PRESENT (R211): each writes registers of a short list, and no
BANK_PRESENT is on it. -/

section
namespace Sys2Proof.Machine

/-! ## Registers outside a list, through a chain of updates -/

theorem keepsRegs_refl (L : List Nat) (s : State) : keepsRegs L s s := fun _ _ => rfl

section
variable {L : List Nat} {s t : State}

theorem keepsRegs.trans {u : State} (h : keepsRegs L s t) (h' : keepsRegs L t u) : keepsRegs L s u :=
  fun x hx => (h' x hx).trans (h x hx)

theorem keepsRegs.setReg (h : keepsRegs L s t) {a : Nat} (ha : a ∈ L) (w : Word) : keepsRegs L s (setReg t a w) :=
  fun x hx => by rw [reg_setReg, if_neg (ne_of_mem_of_not_mem ha hx).symm, h x hx]

theorem keepsRegs.setBits (h : keepsRegs L s t) {a : Nat} (ha : a ∈ L) (lo n v : Nat) :
    keepsRegs L s (setBits t a lo n v) := h.setReg ha _

theorem keepsRegs.setBit (h : keepsRegs L s t) {a : Nat} (ha : a ∈ L) (i : Nat) (b : Bool) :
    keepsRegs L s (setBit t a i b) := h.setReg ha _

theorem keepsRegs.withBanks (h : keepsRegs L s t) (x : Banks) : keepsRegs L s { t with banks := x } := h

theorem keepsRegs.signal (h : keepsRegs L s t) (source info : Nat) : keepsRegs L s (signal source info t) :=
  fun x hx => by rw [reg_signal, h x hx]

theorem keepsRegs.writeFields (h : keepsRegs L s t) {a : Nat} (ha : a ∈ L) (v : Word) :
    keepsRegs L s (writeFields a v t) := by
  unfold Machine.writeFields
  split
  · exact h.setReg ha _
  · exact h

theorem keepsRegs.setMarchInt (h : keepsRegs L s t) {b : Nat} (hservice : R.bankSvcMarchInt ∈ L)
    (hdesign : R.bankCfg b ∈ L) (service on : Bool) : keepsRegs L s (setMarchInt service b on t) := by
  cases service
  · exact h.setBit hdesign 30 on
  · exact h.setBit hservice b on

end

/-! ## The start of a march -/

/-- The registers that a write of BANK_MARCH_CTRL can reach. -/
def marchGoRegs : List Nat := [R.bankMarchCtrl, R.bankMarchStatus, R.bankStatus]

/-- A write that starts no march reaches no further than one that starts a march (R210). -/
theorem marchWrite_keepsRegs (v : Word) (s : State) : keepsRegs marchGoRegs s (marchWrite v s) := by
  have hctrl : R.bankMarchCtrl ∈ marchGoRegs := by simp [marchGoRegs]
  have hmarch : R.bankMarchStatus ∈ marchGoRegs := by simp [marchGoRegs]
  have hstatus : R.bankStatus ∈ marchGoRegs := by simp [marchGoRegs]
  have hfields := (keepsRegs_refl marchGoRegs s).writeFields hctrl v
  unfold marchWrite
  split
  · exact hfields
  · split
    · have hruns := hfields.setBit hmarch 31 true
      exact (((hruns.setBit hmarch 8 _).setBits hmarch 0 8 _).setBit hstatus 3 true).withBanks _
    · exact (keepsRegs_refl marchGoRegs s).setBit hstatus 0 true

/-! ## The end of a march -/

/-- The marks that the end of march `m` leaves in the registers: it is done and runs no more (R211), and its bank is no
longer MARCH_INTERRUPTED (R212). -/
def marchMarked (m : March) (s : State) : State :=
  setMarchInt m.service m.bank false
    (setBit (setBit (setBit s R.bankMarchStatus 31 false) R.bankMarchStatus 30 true) R.bankStatus 3 false)

/-- March `m` no longer runs; its destructive form has left zeros (R209). -/
def marchRetired (m : March) (s : State) : State :=
  let s := marchMarked m { s with banks := { s.banks with march := none } }
  if m.preserving then s
  else if m.service then setServiceMem s m.bank zeroContents else setDesignMem s m.bank zeroContents

/-- March `m`, with `place` as the word for BANK_MARCH_FAIL, reports whether a read failed (R211). -/
def marchReported (m : March) (place : Word) (failed : Bool) (s : State) : State :=
  let s := setBit (setReg s R.bankMarchFail place) R.bankMarchStatus 29 failed
  if failed then signal 229 (m.bank + if m.service then 256 else 0) s else s

/-- MARCH_DONE retires the march in progress and reports on it. -/
theorem marchDone_of_march {s : State} {m : March} (h : s.banks.march = some m) (fs : List (Nat × Nat × Nat)) :
    ∃ place, marchDone fs s = marchReported m place (!fs.isEmpty) (marchRetired m s) := by
  unfold marchDone
  rw [h]
  exact ⟨_, rfl⟩

/-- The registers that the end of a march on bank `b` can write. -/
def marchDoneRegs (b : Nat) : List Nat :=
  [R.bankMarchStatus, R.bankStatus, R.bankSvcMarchInt, R.bankCfg b, R.bankMarchFail]

theorem marchMarked_keepsRegs (m : March) (s : State) : keepsRegs (marchDoneRegs m.bank) s (marchMarked m s) := by
  have hmarch : R.bankMarchStatus ∈ marchDoneRegs m.bank := by simp [marchDoneRegs]
  have hstatus : R.bankStatus ∈ marchDoneRegs m.bank := by simp [marchDoneRegs]
  have hmarks := (((keepsRegs_refl _ s).setBit hmarch 31 false).setBit hmarch 30 true).setBit hstatus 3 false
  exact hmarks.setMarchInt (by simp [marchDoneRegs]) (by simp [marchDoneRegs]) m.service false

theorem bit_setMarchInt_ne {a b : Nat} (hservice : a ≠ R.bankSvcMarchInt) (hdesign : a ≠ R.bankCfg b)
    (service on : Bool) (s : State) (i : Nat) : bit (setMarchInt service b on s) a i = bit s a i := by
  cases service
  · exact bit_setBit_ne _ _ _ _ _ _ (.inl hdesign)
  · exact bit_setBit_ne _ _ _ _ _ _ (.inl hservice)

/-- The marks after `done` go to other registers, so `done` stands. -/
theorem marchMarked_done (m : March) (s : State) : bit (marchMarked m s) R.bankMarchStatus 30 = true := by
  have hint : bit (marchMarked m s) R.bankMarchStatus 30 = bit (setBit (setBit (setBit s R.bankMarchStatus 31 false)
      R.bankMarchStatus 30 true) R.bankStatus 3 false) R.bankMarchStatus 30 :=
    bit_setMarchInt_ne (by decide) (by simp only [R.bankMarchStatus, R.bankCfg]; omega) m.service false _ 30
  rw [hint, bit_setBit_ne _ _ _ _ _ _ (.inl (by decide))]
  exact bit_setBit _ _ 30 true (by decide)

/-- The contents of a bank are no registers. -/
theorem reg_marchRetired (m : March) (s : State) (a : Nat) : reg (marchRetired m s) a = reg (marchMarked m s) a := by
  obtain ⟨service, b, preserving⟩ := m
  cases preserving <;> cases service <;> rfl

theorem marchRetired_flt (m : March) (s : State) : (marchRetired m s).flt = s.flt := by
  obtain ⟨service, b, preserving⟩ := m
  cases preserving <;> cases service <;> rfl

/-- The report of a march goes into two registers; the signal of a failure is no register. -/
theorem reg_marchReported (m : March) (place : Word) (failed : Bool) (s : State) (a : Nat) :
    reg (marchReported m place failed s) a =
      reg (setBit (setReg s R.bankMarchFail place) R.bankMarchStatus 29 failed) a := by
  unfold marchReported
  dsimp only
  split
  · exact reg_signal _ _ _ a
  · rfl

theorem marchReported_keepsRegs (m : March) (place : Word) (failed : Bool) (s : State) :
    keepsRegs (marchDoneRegs m.bank) s (marchReported m place failed s) := fun a ha => by
  have hplace := (keepsRegs_refl (marchDoneRegs m.bank) s).setReg (a := R.bankMarchFail) (by simp [marchDoneRegs]) place
  have hfail := hplace.setBit (a := R.bankMarchStatus) (by simp [marchDoneRegs]) 29 failed
  rw [reg_marchReported, hfail a ha]

theorem marchReported_fail (m : March) (place : Word) (failed : Bool) (s : State) :
    bit (marchReported m place failed s) R.bankMarchStatus 29 = failed := by
  rw [bit, reg_marchReported]
  exact bit_setBit _ _ 29 failed (by decide)

theorem marchReported_done (m : March) (place : Word) (failed : Bool) (s : State) :
    bit (marchReported m place failed s) R.bankMarchStatus 30 = bit s R.bankMarchStatus 30 := by
  rw [bit, reg_marchReported]
  calc bit (setBit (setReg s R.bankMarchFail place) R.bankMarchStatus 29 failed) R.bankMarchStatus 30
      = bit (setReg s R.bankMarchFail place) R.bankMarchStatus 30 := bit_setBit_ne _ _ _ _ _ _ (.inr (by decide))
    _ = bit s R.bankMarchStatus 30 := by rw [bit, reg_setReg, if_neg (by decide), bit]

/-- BANK_MARCH_FAIL is a source that no power domain silences (R345). -/
theorem signal_marchFail (info : Nat) (s : State) :
    (signal 229 info s).flt.signals = s.flt.signals ++ [⟨229, info % 65536, false⟩] := by
  simp [signal, sourceGone]

/-- The march signals BANK_MARCH_FAIL, with its bank, when a read failed and only then. -/
theorem marchReported_signals (m : March) (place : Word) (failed : Bool) (s : State) :
    (marchReported m place failed s).flt.signals = s.flt.signals ++
      if failed then [⟨229, (m.bank + if m.service then 256 else 0) % 65536, false⟩] else [] := by
  cases failed
  · exact (List.append_nil _).symm
  · exact signal_marchFail _ _

/-- What the end of a march reports (R211), and the registers that it leaves. -/
theorem marchDone_reports {s : State} {m : March} (h : s.banks.march = some m) (fs : List (Nat × Nat × Nat)) :
    bit (marchDone fs s) R.bankMarchStatus 30 = true ∧ bit (marchDone fs s) R.bankMarchStatus 29 = !fs.isEmpty ∧
    (marchDone fs s).flt.signals = s.flt.signals ++
      (if !fs.isEmpty then [⟨229, (m.bank + if m.service then 256 else 0) % 65536, false⟩] else []) ∧
    keepsRegs (marchDoneRegs m.bank) s (marchDone fs s) := by
  obtain ⟨place, hdone⟩ := marchDone_of_march h fs
  have hretired : keepsRegs (marchDoneRegs m.bank) s (marchRetired m s) := fun a ha => by
    rw [reg_marchRetired, marchMarked_keepsRegs m s a ha]
  rw [hdone]
  refine ⟨?_, marchReported_fail .., ?_, hretired.trans (marchReported_keepsRegs m place _ _)⟩
  · rw [marchReported_done, bit, reg_marchRetired]
    exact marchMarked_done m s
  · rw [marchReported_signals, marchRetired_flt]

/-! ## BANK_PRESENT is on neither list -/

theorem bankPresent_notMem_marchGoRegs {i : Nat} : R.bankPresent i ∉ marchGoRegs := by
  simp only [marchGoRegs, R.bankPresent, R.bankMarchCtrl, R.bankMarchStatus, R.bankStatus, List.mem_cons,
    List.not_mem_nil, or_false]
  omega

/-- The eight registers BANK_PRESENT stand between those of the march engine and those of the single banks. -/
theorem bankPresent_notMem_marchDoneRegs {i : Nat} (h : i < 8) (b : Nat) : R.bankPresent i ∉ marchDoneRegs b := by
  simp only [marchDoneRegs, R.bankPresent, R.bankMarchStatus, R.bankStatus, R.bankSvcMarchInt, R.bankCfg,
    R.bankMarchFail, List.mem_cons, List.not_mem_nil, or_false]
  omega

/-- Settles O27: the end of a march is its marks and its report, and BANK_PRESENT is no register of theirs nor of
the start. -/
theorem marchResult : Obligations.MarchResult := by
  refine ⟨fun s m fs hmarch => ⟨_, rfl, ?_⟩, fun v s _ _ => ⟨_, rfl, fun i _ => ?_⟩, by decide +kernel⟩
  · obtain ⟨hdone, hfail, hsignals, hregs⟩ :=
      marchDone_reports hmarch (fs.map fun x => (x.1.val, x.2.1.val, x.2.2.val))
    rw [List.isEmpty_map] at hfail hsignals
    refine ⟨hdone, hfail, ?_, fun i hi => hregs _ (bankPresent_notMem_marchDoneRegs hi m.bank)⟩
    rw [hsignals]
    cases fs <;> rfl
  · exact marchWrite_keepsRegs v s _ bankPresent_notMem_marchGoRegs

end Sys2Proof.Machine
end

/-! # Watchdog counts when cores go on (R320, R331, R334)

RESUME and the end of a full-level session let the cores go on by the same operation, `resumeCores`. The end of a session
first closes the session, which writes DBG_STATUS and DBG_SESSION alone: it leaves the halt, the counts and the run of
trace as they were. So what holds of `resumeCores` is proved once, and both commands follow. -/

section
namespace Sys2Proof.Machine

/-! ## Registers outside a list -/

theorem keepsRegs.mono {L L' : List Nat} {s t : State} (h : keepsRegs L s t) (hsub : L ⊆ L') : keepsRegs L' s t :=
  fun a ha => h a fun hmem => ha (hsub hmem)

theorem keepsRegs.endFeed {L : List Nat} {s t : State} (h : keepsRegs L s t) (ha : R.dbgStatus ∈ L) :
    keepsRegs L s (endFeed t) :=
  keepsRegs.setBit (t := { t with dbg := { t.dbg with feeding := none } }) h ha 26 false

/-! ## Counts raised to the floor -/

/-- A count of 24 bits raised to the floor is a count of 24 bits (R334). -/
theorem raised_mod_eq (s : State) (a : Nat) : max 4096 (bits s a 0 24) % 2 ^ 24 = max 4096 (bits s a 0 24) :=
  Nat.mod_eq_of_lt (max_lt (by decide) (bitsOf_lt _ _ _))

/-- The count of watchdog `c`, raised to the floor of 4,096 (R334). -/
def raiseCount (c : Nat) (s : State) : State :=
  setBits s (R.lhWdtCount c) 0 24 (max 4096 (bits s (R.lhWdtCount c) 0 24))

theorem bits_raiseCount (c : Nat) (s : State) :
    bits (raiseCount c s) (R.lhWdtCount c) 0 24 = max 4096 (bits s (R.lhWdtCount c) 0 24) := by
  rw [raiseCount, bits_setBits _ _ _ _ _ (by decide), raised_mod_eq]

/-- The raise of a count leaves every other register. -/
theorem reg_raiseCount_ne {c a : Nat} (h : a ≠ R.lhWdtCount c) (s : State) : reg (raiseCount c s) a = reg s a :=
  reg_setBits_ne _ _ _ _ _ _ h

/-- The counts of the two watchdogs, raised one after the other. -/
theorem bits_raiseCounts {c : Nat} (hc : c < 2) (s : State) :
    bits (raiseCount 1 (raiseCount 0 s)) (R.lhWdtCount c) 0 24 = max 4096 (bits s (R.lhWdtCount c) 0 24) := by
  obtain rfl | rfl : c = 0 ∨ c = 1 := by omega
  · rw [bits, reg_raiseCount_ne (by decide)]
    exact bits_raiseCount 0 s
  · rw [bits_raiseCount, bits, bits, reg_raiseCount_ne (by decide)]

/-! ## The cores go on -/

/-- The registers that a resume writes. -/
def resumeRegs : List Nat := [R.dbgStatus, R.lhStatus, R.lhWdtCount 0, R.lhWdtCount 1]

/-- The registers that the end of a session writes. -/
def sessionEndRegs : List Nat := [R.dbgStatus, R.dbgSession, R.lhStatus, R.lhWdtCount 0, R.lhWdtCount 1]

theorem resumeRegs_subset : resumeRegs ⊆ sessionEndRegs := by decide

/-- Whether trace runs is told by registers that the end of a session does not write. -/
theorem traceRuns_congr {s t : State} (h : keepsRegs sessionEndRegs s t) : traceRuns t = traceRuns s := by
  have hpresent : reg t R.glbUnitPresent0 = reg s R.glbUnitPresent0 := h _ (by decide)
  have hdomain : reg t (R.pwrDomainStatus 25) = reg s (R.pwrDomainStatus 25) := h _ (by decide)
  have hctrl : reg t R.trcCtrl = reg s R.trcCtrl := h _ (by decide)
  have hstatus : reg t R.trcStatus = reg s R.trcStatus := h _ (by decide)
  have hstate : traceState t = traceState s := by rw [traceState, traceState, bits, bits, hstatus]
  have hmachine : reg t (R.trcSm (traceState s)) = reg s (R.trcSm (traceState s)) := by
    refine h _ ?_
    have hlt : traceState s < 2 ^ 2 := bitsOf_lt _ _ _
    simp only [sessionEndRegs, R.trcSm, R.dbgStatus, R.dbgSession, R.lhStatus, R.lhWdtCount, List.mem_cons,
      List.not_mem_nil, or_false]
    omega
  simp only [traceRuns, traceOn, tracePresent, domainOn, bits, bit, hpresent, hdomain, hctrl, hstatus, hstate, hmachine]

/-- The halt is over and no feed executes any more (R332, log entry 53). -/
def haltLifted (s : State) : State := endFeed (setBit (setBit s R.dbgStatus 28 false) R.lhStatus 22 false)

/-- What lifting a halt writes in LH_STATUS stands through the end of the feed, which writes DBG_STATUS. -/
theorem haltLifted_lhStatus (s : State) : bit (haltLifted s) R.lhStatus 22 = false := by
  rw [haltLifted, endFeed, bit_setBit_ne _ _ _ _ _ _ (.inl (by decide))]
  exact bit_setBit _ _ 22 false (by decide)

theorem lhHalted_haltLifted (s : State) : lhHalted (haltLifted s) = false := by
  rw [lhHalted, haltLifted, endFeed, bit_setBit_ne _ _ _ _ _ _ (.inr (by decide))]
  calc bit (setBit (setBit s R.dbgStatus 28 false) R.lhStatus 22 false) R.dbgStatus 28
      = bit (setBit s R.dbgStatus 28 false) R.dbgStatus 28 := bit_setBit_ne _ _ _ _ _ _ (.inl (by decide))
    _ = false := bit_setBit _ _ 28 false (by decide)

theorem dbgLevel_haltLifted (s : State) : dbgLevel (haltLifted s) = dbgLevel s := by
  rw [dbgLevel, haltLifted, endFeed, bits_setBit_ne _ _ _ _ _ _ _ (.inr (.inr (by decide)))]
  calc bits (setBit (setBit s R.dbgStatus 28 false) R.lhStatus 22 false) R.dbgStatus 30 2
      = bits (setBit s R.dbgStatus 28 false) R.dbgStatus 30 2 := bits_setBit_ne _ _ _ _ _ _ _ (.inl (by decide))
    _ = dbgLevel s := bits_setBit_ne _ _ _ _ _ _ _ (.inr (.inr (by decide)))

theorem haltLifted_keepsRegs (s : State) : keepsRegs [R.dbgStatus, R.lhStatus] s (haltLifted s) :=
  (((keepsRegs_refl _ s).setBit (a := R.dbgStatus) (by simp) 28 false).setBit (a := R.lhStatus) (by simp) 22 false).endFeed
    (by simp)

/-- What has happened when the cores of a halted Lighthouse go on from `s` to `t`, and trace does not run. -/
structure CoresResumed (s t : State) : Prop where
  running : lhHalted t = false
  unmarked : bit t R.lhStatus 22 = false
  level : dbgLevel t = dbgLevel s
  counts : ∀ c, c < 2 → bits t (R.lhWdtCount c) 0 24 = max 4096 (bits s (R.lhWdtCount c) 0 24)
  regs : keepsRegs resumeRegs s t
  frame : t = { s with regs := t.regs, dbg := { s.dbg with feeding := none } }

theorem coresResumed_raiseCounts (s : State) : CoresResumed s (raiseCount 1 (raiseCount 0 (haltLifted s))) := by
  have kept {a : Nat} (h0 : a ≠ R.lhWdtCount 0) (h1 : a ≠ R.lhWdtCount 1) :
      reg (raiseCount 1 (raiseCount 0 (haltLifted s))) a = reg (haltLifted s) a := by
    rw [reg_raiseCount_ne h1, reg_raiseCount_ne h0]
  have hlifted : keepsRegs resumeRegs s (haltLifted s) := (haltLifted_keepsRegs s).mono (by decide)
  refine ⟨?_, ?_, ?_, fun c hc => ?_, ?_, rfl⟩
  · rw [← lhHalted_haltLifted s, lhHalted, lhHalted, bit, bit, kept (by decide) (by decide)]
  · rw [← haltLifted_lhStatus s, bit, bit, kept (by decide) (by decide)]
  · rw [← dbgLevel_haltLifted s, dbgLevel, dbgLevel, bits, bits, kept (by decide) (by decide)]
  · rw [bits_raiseCounts hc, bits, bits, haltLifted_keepsRegs s _ (by
      simp only [R.lhWdtCount, R.dbgStatus, R.lhStatus, List.mem_cons, List.not_mem_nil, or_false]
      omega)]
  · exact (hlifted.setBits (by simp [resumeRegs]) 0 24 _).setBits (by simp [resumeRegs]) 0 24 _

/-- While trace does not run, the cores of a halted Lighthouse go on without a SYNC. -/
theorem coresResumed_resumeCores {s : State} (hhalt : lhHalted s = true) (htrace : traceRuns s = false) :
    CoresResumed s (resumeCores s) := by
  have hresumed := coresResumed_raiseCounts s
  have hraised : traceRuns (raiseCount 1 (raiseCount 0 (haltLifted s))) = false := by
    rw [traceRuns_congr (hresumed.regs.mono resumeRegs_subset), htrace]
  have heq : resumeCores s = raiseCount 1 (raiseCount 0 (haltLifted s)) := by
    rw [resumeCores, if_pos hhalt]
    exact if_neg fun h => absurd h.1 (Bool.eq_false_iff.1 hraised)
  rwa [heq]

/-! ## The session ends -/

/-- A full-level session is closed, and no halt is asked for any more (R331). -/
def sessionClosed (s : State) : State :=
  setBit (setBit (setBits (setBit (setBits s R.dbgStatus 30 2 0) R.dbgStatus 29 false) R.dbgStatus 21 3 0)
    R.dbgSession 30 false) R.dbgStatus 27 false

/-- The end of a full-level session closes it and lets the cores go on. -/
theorem endSession_of_full {s : State} (h : dbgLevel s = 2) : endSession s = resumeCores (sessionClosed s) :=
  if_pos (by rw [h]; rfl)

theorem sessionClosed_keepsRegs (s : State) : keepsRegs [R.dbgStatus, R.dbgSession] s (sessionClosed s) := by
  have hlevel := (keepsRegs_refl [R.dbgStatus, R.dbgSession] s).setBits (a := R.dbgStatus) (by simp) 30 2 0
  have hslot := (hlevel.setBit (a := R.dbgStatus) (by simp) 29 false).setBits (a := R.dbgStatus) (by simp) 21 3 0
  exact (hslot.setBit (by simp) 30 false).setBit (by simp) 27 false

/-- The close of a session leaves the halt as it is. -/
theorem lhHalted_sessionClosed (s : State) : lhHalted (sessionClosed s) = lhHalted s := by
  rw [lhHalted, sessionClosed, bit_setBit_ne _ _ _ _ _ _ (.inr (by decide)),
    bit_setBit_ne _ _ _ _ _ _ (.inl (by decide)), bit_setBits_ne _ _ _ _ _ _ _ (.inr (.inr (by decide))),
    bit_setBit_ne _ _ _ _ _ _ (.inr (by decide)), bit_setBits_ne _ _ _ _ _ _ _ (.inr (.inl (by decide))), lhHalted]

theorem dbgLevel_sessionClosed (s : State) : dbgLevel (sessionClosed s) = 0 := by
  rw [dbgLevel, sessionClosed, bits_setBit_ne _ _ _ _ _ _ _ (.inr (.inr (by decide))),
    bits_setBit_ne _ _ _ _ _ _ _ (.inl (by decide)), bits_setBits_ne _ _ _ _ _ _ _ _ (.inr (.inr (by decide))),
    bits_setBit_ne _ _ _ _ _ _ _ (.inr (.inr (by decide))), bits_setBits _ _ _ _ _ (by decide),
    Nat.zero_mod]

/-- The two commands that end a session end one of the full level alike. -/
theorem exec_sessionEnds {s : State} {c : Instr} (hc : c = .sessionEnd ∨ c = .sessionTimeout) (hfull : dbgLevel s = 2) :
    exec c s = .next (resumeCores (sessionClosed s)) := by
  rw [← endSession_of_full hfull]
  rcases hc with rfl | rfl
  · rfl
  · exact congrArg Host.Outcome.next (if_pos (by rw [hfull]; decide))

/-- Settles O60: a resume and the end of a full-level session let the cores go on in the same way. -/
theorem watchdogLimits : Obligations.WatchdogLimits := by
  refine ⟨fun s hfull hhalt htrace => ?_, fun c s => ?_, fun s c hc hfull hhalt htrace => ?_⟩
  · have h := coresResumed_resumeCores hhalt htrace
    exact ⟨_, congrArg Host.Outcome.next (if_pos hfull), h.running, h.unmarked, h.counts, h.regs, h.frame⟩
  · refine ⟨kick c s, rfl, ?_, (keepsRegs_refl _ s).setBits (by simp) 0 24 _, rfl⟩
    rw [kick, bits_setBits _ _ _ _ _ (by decide)]
    exact raised_mod_eq s _
  · have hclosed : keepsRegs sessionEndRegs s (sessionClosed s) := (sessionClosed_keepsRegs s).mono (by decide)
    have h := coresResumed_resumeCores ((lhHalted_sessionClosed s).trans hhalt) ((traceRuns_congr hclosed).trans htrace)
    refine ⟨_, exec_sessionEnds hc hfull, h.running, h.unmarked, h.level.trans (dbgLevel_sessionClosed s), fun d hd => ?_,
      hclosed.trans (h.regs.mono resumeRegs_subset), h.frame⟩
    rw [h.counts d hd, bits, bits, sessionClosed_keepsRegs s _ (by
      simp only [R.lhWdtCount, R.dbgStatus, R.dbgSession, List.mem_cons, List.not_mem_nil, or_false]
      omega)]

end Sys2Proof.Machine
end

/-! # A software record is queued or refused (R364)

CAIRN_WRITE makes its record before it asks whether the last one lies 10 ms back and whether the queue has room. So what
the queue does with a record is said first, once for a queue with room and once for a full one, and the command has one
equation for each of its two outcomes. -/

section
namespace Sys2Proof.Machine

/-! ## The Cairn queue -/

theorem queueRecord_of_room {s : State} (hroom : s.cairn.queue.length < 16) (r : CairnRecord) :
    queueRecord r s = (true, { s with cairn := { s.cairn with queue := s.cairn.queue ++ [r] } }) := if_pos hroom

theorem queueRecord_of_full {s : State} (hfull : 16 ≤ s.cairn.queue.length) (r : CairnRecord) :
    queueRecord r s = (false, s) := if_neg hfull.not_gt

/-! ## The two outcomes of CAIRN_WRITE -/

/-- The record that CAIRN_WRITE makes: type 0x07, with the seven words of CAIRN_SW_DATA. -/
def softwareRecord (s : State) : CairnRecord :=
  mkRecord s 7 false 0xFFFF ((List.range 7).flatMap fun k => bytesLE 4 (reg s (R.cairnSwData k)).toNat)

theorem cairnWrite_accepted {s : State} (hspaced : softwareSpaced s = true) (hroom : s.cairn.queue.length < 16) :
    cairnWrite s = { s with
      cairn := { s.cairn with queue := s.cairn.queue ++ [softwareRecord s] }
      time := { s.time with softwareAt := some s.time.ticks } } := by
  simp only [cairnWrite, softwareRecord, queueRecord_of_room hroom, hspaced, Bool.and_self, if_true]

/-- Too early after the last record, the answer of the queue does not count; a full queue refuses by its own answer. -/
theorem cairnWrite_refused {s : State} (h : softwareSpaced s = false ∨ 16 ≤ s.cairn.queue.length) :
    cairnWrite s = setBit s R.cairnStatus 29 true := by
  rcases h with hearly | hfull
  · simp only [cairnWrite, hearly, Bool.false_and, Bool.false_eq_true, if_false]
  · simp only [cairnWrite, queueRecord_of_full hfull, Bool.and_false, Bool.false_eq_true, if_false]

theorem exec_cairnWrite (s : State) : exec .cairnWrite s = .next (cairnWrite s) := rfl

/-- Settles O52: the two outcomes of CAIRN_WRITE, by the time since the last software record and the room in the queue. -/
theorem softwareCairnRecord : Obligations.SoftwareCairnRecord := by
  refine ⟨fun s hspaced hroom => ?_, fun s hrefused => ?_⟩
  · exact ⟨_, (exec_cairnWrite s).trans (congrArg _ (cairnWrite_accepted hspaced hroom)), rfl, rfl, rfl⟩
  · rw [exec_cairnWrite, cairnWrite_refused hrefused]

end Sys2Proof.Machine
end

/-! # What every command keeps: the queue, the register map, the byte memories

`Keeps s t` says that `t` has the queue of `s` and that its register map and its byte memories are canonical when those of
`s` are. It is closed under every operation of the model: one lemma for each, in the order of the model's files, so that a
chain of operations is a chain of lemmas (`h.setBit.signal`). -/

section
namespace Sys2Proof.Machine

/-- What every command keeps of a state: the queue, and the canonical form of the register map and of every byte memory. -/
structure Keeps (s t : State) : Prop where
  pending : t.pending = s.pending
  regs : regsOk s → regsOk t
  memories : memoriesOk s → memoriesOk t

/-- The part of a state that `Keeps` speaks of. -/
def keptPart (s : State) :=
  (s.pending, s.regs, s.banks.design, s.banks.service, s.ddr, s.dbg.cores, s.trc.buffer, s.cairn.nvm)

/-- A memory is canonical when those of a state are. -/
def MemOk (s : State) (m : Mem) : Prop := memoriesOk s → m.wf

/-- A command answers a next state that keeps what every command keeps. -/
def Answers (s : State) (o : Out) : Prop := ∃ t, o = .next t ∧ Keeps s t

set_option autoImplicit true
variable {s t u : State}

protected theorem Answers.next (h : Keeps s t) : Answers s (.next t) := ⟨t, rfl, h⟩

protected theorem Keeps.refl (s : State) : Keeps s s := ⟨rfl, id, id⟩

/-- What an update outside queue, registers and byte memories keeps. -/
protected theorem Keeps.update (h : Keeps s t) (e : keptPart u = keptPart t := by exact rfl) : Keeps s u := by
  simp only [keptPart, Prod.mk.injEq] at e
  obtain ⟨hp, hr, hd, hv, hc, hl, ht, hn⟩ := e
  refine ⟨hp.trans h.pending, fun hs => ?_, fun hs => ?_⟩
  · rw [regsOk, hr]
    exact h.regs hs
  · have kept := h.memories hs
    simp only [memoriesOk, designMem, serviceMem, ddr, lhCore] at kept ⊢
    rwa [hd, hv, hc, hl, ht, hn]

protected theorem Keeps.ite {c : Prop} [Decidable c] (ht : Keeps s t) (hu : Keeps s u) : Keeps s (if c then t else u) := by
  split <;> assumption

protected theorem Keeps.itePair {α : Type} {c : Prop} [Decidable c] {p q : α × State} (hp : Keeps s p.2)
    (hq : Keeps s q.2) : Keeps s (if c then p else q).2 := by
  split <;> assumption

protected theorem Keeps.foldl {α : Type} {f : State → α → State} {l : List α} (h : Keeps s t)
    (hf : ∀ a x, Keeps s a → Keeps s (f a x)) : Keeps s (l.foldl f t) := by
  induction l generalizing t with
  | nil => exact h
  | cons x l ih => exact ih (hf t x h)

protected theorem Keeps.foldlPair {α β : Type} {f : β × State → α → β × State} {l : List α} {p : β × State}
    (h : Keeps s p.2) (hf : ∀ a x, Keeps s a.2 → Keeps s (f a x).2) : Keeps s (l.foldl f p).2 := by
  induction l generalizing p with
  | nil => exact h
  | cons x l ih => exact ih (hf p x h)

protected theorem Keeps.forUpTo {f : Nat → State → State} {n : Nat} (h : Keeps s t)
    (hf : ∀ k a, Keeps s a → Keeps s (f k a)) : Keeps s (forUpTo n f t) :=
  h.foldl fun a k => hf k a


/-! ## Memories -/

protected theorem Keeps.designMem (h : Keeps s t) : MemOk s (designMem t b) := fun hs => (h.memories hs).1 b
protected theorem Keeps.serviceMem (h : Keeps s t) : MemOk s (serviceMem t k) := fun hs => (h.memories hs).2.1 k
protected theorem Keeps.ddrMem (h : Keeps s t) : MemOk s (ddr t c).mem := fun hs => (h.memories hs).2.2.1 c
protected theorem Keeps.localMem (h : Keeps s t) : MemOk s (lhCore t c).local_ := fun hs => (h.memories hs).2.2.2.1 c
protected theorem Keeps.traceBuffer (h : Keeps s t) : MemOk s t.trc.buffer := fun hs => (h.memories hs).2.2.2.2.1
protected theorem Keeps.cairnNvm (h : Keeps s t) : MemOk s t.cairn.nvm := fun hs => (h.memories hs).2.2.2.2.2

/-- A memory that every state holds in canonical form. -/
protected theorem MemOk.of_wf (h : m.wf) : MemOk s m := fun _ => h
protected theorem MemOk.zeroContents : MemOk s zeroContents := .of_wf zeroContents_wf
protected theorem MemOk.loseContents : MemOk s m → MemOk s (loseContents m) := fun _ => .of_wf (loseContents_wf m)
protected theorem MemOk.writeByte (h : MemOk s m) : MemOk s (writeByte m a v) := fun hs => writeByte_wf _ _ _ (h hs)
protected theorem MemOk.writeBytes (h : MemOk s m) : MemOk s (writeBytes m a l) := fun hs => writeBytes_wf _ _ _ (h hs)
protected theorem MemOk.writeEnabled (h : MemOk s m) : MemOk s (writeEnabled m a l) :=
  fun hs => writeEnabled_wf _ _ _ (h hs)
protected theorem MemOk.writeWord (h : MemOk s m) : MemOk s (writeWord m a w) := fun hs => writeWord_wf _ _ _ (h hs)
protected theorem MemOk.writeDWord (h : MemOk s m) : MemOk s (writeDWord m a w) := fun hs => writeDWord_wf _ _ _ (h hs)
protected theorem MemOk.writeFlat (h : MemOk s m) : MemOk s (writeFlat m a w v) := h.writeBytes
protected theorem MemOk.ite {c : Prop} [Decidable c] (hm : MemOk s m) (hn : MemOk s n) :
    MemOk s (if c then m else n) := by
  split <;> assumption

protected theorem MemOk.foldl {α : Type} {f : Mem → α → Mem} {l : List α} (h : MemOk s m)
    (hf : ∀ a x, MemOk s a → MemOk s (f a x)) : MemOk s (l.foldl f m) := by
  induction l generalizing m with
  | nil => exact h
  | cons x l ih => exact ih (hf m x h)

/-! ## States whose registers or memories change -/

/-- Entries taken out of a canonical map leave it canonical. -/
theorem sparseWf_filter {α : Type} [DecidableEq α] {d : Nat → α} {m : Sparse α} {p : Nat × α → Bool}
    (h : sparseWf d m = true) : sparseWf d (m.filter p) = true := by
  simp only [sparseWf, Bool.and_eq_true, decide_eq_true_eq, List.all_eq_true] at h ⊢
  exact ⟨h.1.sublist List.filter_sublist, fun x hx => h.2 x (List.mem_of_mem_filter hx)⟩

protected theorem Keeps.withRegs (h : Keeps s t) (hp : u.pending = t.pending) (hr : regsOk t → regsOk u)
    (hm : memoriesOk t → memoriesOk u) : Keeps s u :=
  ⟨hp.trans h.pending, fun hs => hr (h.regs hs), fun hs => hm (h.memories hs)⟩

/-- A state whose memories are those of canonical form keeps the queue and the registers of another. -/
protected theorem Keeps.withMemories (h : Keeps s t) (hp : u.pending = t.pending) (hr : u.regs = t.regs)
    (hd : ∀ b, MemOk s (designMem u b)) (hv : ∀ k, MemOk s (serviceMem u k)) (hc : ∀ c, MemOk s (ddr u c).mem)
    (hl : ∀ c, MemOk s (lhCore u c).local_) (ht : MemOk s u.trc.buffer) (hn : MemOk s u.cairn.nvm) : Keeps s u :=
  ⟨hp.trans h.pending, fun hs => by unfold regsOk; rw [hr]; exact h.regs hs,
    fun hs => ⟨fun b => hd b hs, fun k => hv k hs, fun c => hc c hs, fun c => hl c hs, ht hs, hn hs⟩⟩

end Sys2Proof.Machine
end

/-! # Every operation of the model keeps the queue and every canonical form -/

section
namespace Sys2Proof.Machine
set_option autoImplicit true
set_option Elab.async false
variable {s t u : State}

/-! ## Machine/Ops -/

protected theorem Keeps.setReg (h : Keeps s t) : Keeps s (setReg t a w) :=
  h.withRegs rfl (setReg_wf t a w) id

protected theorem Keeps.setBits (h : Keeps s t) : Keeps s (setBits t a lo n v) :=
  h.setReg

protected theorem Keeps.setBit (h : Keeps s t) : Keeps s (setBit t a i b) :=
  h.setBits

protected theorem Keeps.bumpBits (h : Keeps s t) : Keeps s (bumpBits t a lo n by_) :=
  h.setBits

protected theorem Keeps.writeFields (h : Keeps s t) : Keeps s (writeFields a v t) := by
  unfold writeFields
  split
  · exact h.setReg
  · exact h

protected theorem Keeps.takeFree (h : Keeps s t) : Keeps s (takeFree w t).2 :=
  h.update

protected theorem Keeps.setClu (h : Keeps s t) : Keeps s (setClu t n c) :=
  h.update

protected theorem Keeps.mapClusters (h : Keeps s t) : Keeps s (mapClusters f t) :=
  h.foldl fun _ _ h1 => h1.setClu

protected theorem Keeps.setNi (h : Keeps s t) : Keeps s (setNi t i x) :=
  h.update

protected theorem Keeps.setLink (h : Keeps s t) : Keeps s (setLink t l x) :=
  h.update

protected theorem Keeps.setLane (h : Keeps s t) : Keeps s (setLane t a x) :=
  h.update

protected theorem Keeps.signal (h : Keeps s t) : Keeps s (signal source info t) := by
  unfold signal
  split
  · exact h
  · exact h.update

protected theorem Keeps.signals (h : Keeps s t) : Keeps s (signals l t) :=
  h.foldl fun _ _ h1 => h1.signal

/-! ## Machine/Blocks -/

protected theorem Keeps.offAccess (h : Keeps s t) : Keeps s (offAccess t) :=
  h.setBit

protected theorem Keeps.setAer (h : Keeps s t) : Keeps s (setAer x t) :=
  h.update

protected theorem Keeps.setConfig (h : Keeps s t) : Keeps s (setConfig x t) :=
  h.update

protected theorem Keeps.pcieStatus (h : Keeps s t) : Keeps s (pcieStatus status device t) :=
  h.setConfig

protected theorem Keeps.aerRecord (h : Keeps s t) : Keeps s (aerRecord b t) := by
  unfold aerRecord
  dsimp only
  split
  · exact h.setAer
  · exact h.takeFree.setAer

protected theorem Keeps.errorStatus (h : Keeps s t) : Keeps s (errorStatus b t) :=
  h.pcieStatus

protected theorem Keeps.pcieError (h : Keeps s t) : Keeps s (pcieError b t) :=
  h.errorStatus.aerRecord.signal

protected theorem Keeps.advisoryError (h : Keeps s t) : Keeps s (advisoryError t) := by
  unfold advisoryError
  dsimp only
  split
  · exact h.pcieError
  · exact (Keeps.ite h.pcieStatus.setAer h.pcieStatus.setAer.aerRecord).signal

protected theorem Keeps.unsupportedRequest (h : Keeps s t) : Keeps s (unsupportedRequest p t) := by
  unfold unsupportedRequest
  split
  · exact h.pcieError
  · exact h

protected theorem Keeps.unsupportedRead (h : Keeps s t) : Keeps s (unsupportedRead p t) := by
  unfold unsupportedRead
  split
  · exact h.advisoryError
  · exact h

protected theorem Keeps.performed (ht : Keeps s t) (hu : Keeps s u) : Keeps s (performed p t u) := by
  unfold performed
  split
  · exact hu
  · exact ht.unsupportedRequest

protected theorem Keeps.performedRead (ht : Keeps s t) (hu : Keeps s u) : Keeps s (performedRead p t u) := by
  unfold performedRead
  split
  · exact hu
  · exact ht.unsupportedRead

protected theorem Keeps.answer (h : Keeps s t) : Keeps s (answer ws t) :=
  h.update

protected theorem Keeps.setCause (h : Keeps s t) : Keeps s (setCause v b t) :=
  h.setBit

protected theorem Keeps.raiseCause (h : Keeps s t) : Keeps s (raiseCause v t) := by
  unfold raiseCause
  dsimp only
  split
  · exact h
  · exact h.setCause.update

protected theorem Keeps.setMsixWord (h : Keeps s t) : Keeps s (setMsixWord v k w t) :=
  h.update

protected theorem Keeps.sendMsix (h : Keeps s t) : Keeps s (sendMsix v t) :=
  h.update

protected theorem Keeps.setPendingBit (h : Keeps s t) : Keeps s (setPendingBit v b t) :=
  h.update

protected theorem Keeps.msixSend (h : Keeps s t) : Keeps s (msixSend v t) := by
  unfold msixSend
  dsimp only
  split
  · split
    · exact h.update.sendMsix
    · exact h.update.setPendingBit
  · exact h

protected theorem Keeps.execMsixSend (h : Keeps s t) : Answers s (execMsixSend v t) :=
  .next h.msixSend

protected theorem Keeps.msixPendingSend (h : Keeps s t) : Keeps s (msixPendingSend v t) := by
  unfold msixPendingSend
  split
  · exact h.setPendingBit.sendMsix
  · exact h

protected theorem Keeps.execMsixPendingSend (h : Keeps s t) : Answers s (execMsixPendingSend v t) :=
  .next h.msixPendingSend

protected theorem Keeps.irqCauseClear (h : Keeps s t) : Keeps s (irqCauseClear high x t) :=
  h.performed h.writeFields

protected theorem Keeps.execIrqCauseClear (h : Keeps s t) : Answers s (execIrqCauseClear high value t) :=
  .next h.irqCauseClear

protected theorem Keeps.lhDoorbell (h : Keeps s t) : Keeps s (lhDoorbell v t) :=
  h.setReg.raiseCause

protected theorem Keeps.execLhDoorbell (h : Keeps s t) : Answers s (execLhDoorbell value t) :=
  .next (by split; exacts [h, h.lhDoorbell])

protected theorem Keeps.powerStateChange (h : Keeps s t) : Keeps s (powerStateChange d3 t) :=
  h.setBits

protected theorem Keeps.execPowerStateChange (h : Keeps s t) : Answers s (execPowerStateChange d3hot t) :=
  .next h.powerStateChange

protected theorem Keeps.busMasterEnable (h : Keeps s t) : Keeps s (busMasterEnable on memorySpace msix functionMask t) :=
  h.setBit.setBit.setBit.setBit

protected theorem Keeps.execBusMasterEnable (h : Keeps s t) : Answers s (execBusMasterEnable on memorySpace msix functionMask t) :=
  .next h.busMasterEnable

protected theorem Keeps.pcieLinkDown (h : Keeps s t) : Keeps s (pcieLinkDown t) := by
  unfold pcieLinkDown
  split
  · exact h
  · exact h.setBits.setBits.bumpBits.signal

protected theorem Keeps.execPcieLinkDown (h : Keeps s t) : Answers s (execPcieLinkDown t) :=
  .next h.pcieLinkDown

protected theorem Keeps.pcieLinkUp (h : Keeps s t) : Keeps s (pcieLinkUp speed width t) := by
  unfold pcieLinkUp
  split
  · exact h.setBits.setBits
  · exact h

protected theorem Keeps.execPcieLinkUp (h : Keeps s t) : Answers s (execPcieLinkUp speed width t) :=
  .next h.pcieLinkUp

/-! ## Machine/Endpoint -/

protected theorem Keeps.setBarBase (h : Keeps s t) : Keeps s (setBarBase k v t) :=
  h.update

protected theorem Keeps.configWrite (h : Keeps s t) : Keeps s (configWrite mask v r t) := by
  unfold configWrite
  dsimp only
  split
  · exact h.setBit.setBit.setConfig
  · exact h.setConfig
  · exact h.setBarBase
  · split
    · exact h.powerStateChange
    · exact h
  · exact h.setBit.setBit
  · exact h.setConfig
  · exact h.setConfig
  · exact h.setConfig
  · exact h.setConfig
  · exact h.setAer
  · exact h.setAer
  · exact h.setAer
  · exact h.setAer
  · exact h.setAer
  · exact h.setAer
  · exact h
  · exact h
  · exact h
  · exact h
  · exact h
  · exact h
  · exact h
  · exact h
  · exact h
  · exact h
  · exact h
  · exact h
  · exact h
  · exact h
  · exact h
  · exact h

/-! ## Machine/Banks -/

protected theorem Keeps.setDesignMem (h : Keeps s t) (hm : MemOk s m) : Keeps s (setDesignMem t b m) := by
  refine h.withMemories rfl rfl (fun b' => ?_) (fun _ => h.serviceMem) (fun _ => h.ddrMem) (fun _ => h.localMem)
    h.traceBuffer h.cairnNvm
  rw [show designMem (setDesignMem t b m) b' = if b' = b then m else designMem t b' from look_put ..]
  exact hm.ite h.designMem

protected theorem Keeps.laneWrite (h : Keeps s t) : Keeps s (laneWrite n c m t) :=
  h.setDesignMem h.designMem.writeFlat

protected theorem Keeps.notOwned (h : Keeps s t) : Keeps s (notOwned b t) :=
  h.setBit.signal

protected theorem Keeps.laneAccesses (h : Keeps s t) : Keeps s (laneAccesses n st ws rs c t).2 := by
  unfold laneAccesses
  dsimp only
  split
  · exact (h.foldl fun _ _ h1 => h1.notOwned).foldl fun _ _ h2 => h2.laneWrite
  · exact h.foldl fun _ _ h3 => h3.notOwned

/-! ## Machine/Net -/

protected theorem Keeps.setBuffer (h : Keeps s t) : Keeps s (setBuffer t k fs) :=
  h.update

protected theorem Keeps.holdRecord (h : Keeps s t) : Keeps s (holdRecord p h' t) := by
  unfold holdRecord
  dsimp only
  split
  · exact h
  · split
    · exact h.update
    · exact h.bumpBits

protected theorem Keeps.probeSees (h : Keeps s t) : Keeps s (probeSees r port input h' p t) := by
  unfold probeSees
  dsimp only
  split
  · split
    · exact h
    · exact h.bumpBits
    · split
      · exact h.bumpBits
      · exact h
    · split
      · exact h.bumpBits.holdRecord
      · exact h
  · exact h

protected theorem Keeps.probesSee (h : Keeps s t) : Keeps s (probesSee r port input f t) := by
  unfold probesSee
  split
  · exact h.foldl fun _ _ h1 => h1.probeSees
  · exact h

protected theorem Keeps.headerError (h : Keeps s t) : Keeps s (headerError r port vc cause t) :=
  h.setReg

protected theorem Keeps.arriveAt (h : Keeps s t) : Keeps s (arriveAt r port f t) := by
  unfold arriveAt
  dsimp only
  split
  · exact h.probesSee.setBit.signal.headerError.update
  · split
    · exact h.probesSee.setBit.signal.headerError.update
    · split <;> exact h.probesSee.update

protected theorem Keeps.inject (h : Keeps s t) : Keeps s (inject i p t) :=
  h.foldl fun _ _ h1 => h1.arriveAt

protected theorem Keeps.respond (h : Keeps s t) : Keeps s (respond i request' kind' payload t) :=
  h.inject

protected theorem Keeps.launch (h : Keeps s t) : Keeps s (launch n e w t) := by
  unfold launch
  dsimp only
  split
  · exact h.setNi
  · exact h.signal

protected theorem Keeps.ejectAt (h : Keeps s t) : Keeps s (ejectAt r f t) := by
  unfold ejectAt
  dsimp only
  split
  · exact h
  · split
    · split
      · exact h
      · exact h.setNi
    · exact h.setNi

protected theorem Keeps.markLate (h : Keeps s t) : Keeps s (markLate r i t) := by
  unfold markLate
  split
  · exact h
  · split
    · exact h.setBuffer
    · exact h

protected theorem Keeps.sendFlit (h : Keeps s t) : Keeps s (sendFlit r o i vc t) := by
  unfold sendFlit
  dsimp only
  split
  · exact h
  · split
    · exact h.update.probesSee.ejectAt
    · split
      · exact h.update.probesSee
      · exact h.update.probesSee.arriveAt

protected theorem Keeps.withNet (h : Keeps s t) : Keeps s { t with net := y } :=
  h.update

protected theorem Keeps.routerPeriod (h : Keeps s t) : Keeps s (routerPeriod r t) := by
  unfold routerPeriod
  extract_lets choices s1 s2
  have h1 : Keeps s s1 := .ite h (h.foldl fun _ _ h1 => h1.sendFlit)
  have h2 : Keeps s s2 := h1.foldl fun _ _ h2 => h2.markLate
  exact h2.withNet

protected theorem Keeps.setWheels (h : Keeps s t) : Keeps s (setWheels start t) :=
  h.withNet

/-! ## Machine/Flags -/


protected theorem Keeps.recordHazard (h : Keeps s t) : Keeps s (recordHazard n st h' t) := by
  unfold recordHazard
  dsimp only
  split
  · exact h.bumpBits.update
  · exact h.bumpBits.update.setBit

/-! ## Machine/Cluster -/

protected theorem Keeps.popQueue (h : Keeps s t) : Keeps s (popQueue n q c t).2 := by
  unfold popQueue
  dsimp only
  split
  · exact h.setBit
  · exact h

protected theorem Keeps.applyGets (h : Keeps s t) : Keeps s (applyGets n rs c t).2 :=
  h.foldlPair fun _ _ h1 => (Keeps.itePair h1.popQueue h1)

protected theorem Keeps.stallPeriod (h : Keeps s t) : Keeps s (stallPeriod n c t) :=
  h.setClu.bumpBits

protected theorem Keeps.stepFaults (h : Keeps s t) : Keeps s (stepFaults n ws c t).2 := by
  unfold stepFaults
  dsimp only
  split
  · exact (h.foldl fun _ _ h1 => h1.signal).signal
  · exact h.foldl fun _ _ h2 => h2.signal

protected theorem Keeps.executeStep (h : Keeps s t) : Keeps s (executeStep n st ws c t) := by
  unfold executeStep
  dsimp only
  refine Keeps.foldl (Keeps.foldl (Keeps.setClu ?_) fun _ _ h1 => h1.launch) fun _ _ h2 => h2.recordHazard
  exact h.stepFaults.laneAccesses.applyGets


protected theorem Keeps.stepEdge (h : Keeps s t) : Keeps s (stepEdge n st t) := by
  unfold stepEdge
  dsimp only
  split
  · exact h.stallPeriod
  · split
    · split
      · exact h.stallPeriod
      · exact h.executeStep
    · exact h.stallPeriod

protected theorem Keeps.transitionEdge (h : Keeps s t) : Keeps s (transitionEdge n sc c t) := by
  unfold transitionEdge
  split
  · exact h.stallPeriod
  · split
    · exact h.setClu
    · exact h.stallPeriod

protected theorem Keeps.stoppedTransition (h : Keeps s t) : Keeps s (stoppedTransition n sc c t) := by
  unfold stoppedTransition
  split
  · exact h.setClu
  · split
    · exact h.transitionEdge
    · exact h

protected theorem Keeps.endEdge (h : Keeps s t) : Keeps s (endEdge n c t) := by
  unfold endEdge
  split
  · exact h.stallPeriod
  · split
    · exact h.setClu
    · exact h.stallPeriod

protected theorem Keeps.clusterEdge (h : Keeps s t) : Keeps s (clusterEdge n t) := by
  unfold clusterEdge
  dsimp only
  split
  · exact h
  · split
    · split
      · split
        · exact h.setClu
        · exact h
      · exact h
    · split
      · split
        · exact h.stoppedTransition
        · exact h
      · split
        · split
          · exact h
          · exact h.transitionEdge
          · exact h.stepEdge
          · exact h.endEdge
          · split
            · exact h.setClu
            · exact h
        · exact h

protected theorem Keeps.execClusterStep (h : Keeps s t) : Answers s (execClusterStep n t) :=
  .next h.clusterEdge

protected theorem Keeps.mrdLanding (h : Keeps s t) : Keeps s (mrdLanding n t) := by
  unfold mrdLanding
  dsimp only
  split
  · exact h
  · refine Keeps.ite ?_ ?_
    · exact h.setClu
    · exact h

protected theorem Keeps.execMrdLanding (h : Keeps s t) : Answers s (execMrdLanding n t) :=
  .next h.mrdLanding

protected theorem Keeps.vc0WordArrival (h : Keeps s t) : Keeps s (vc0WordArrival n t) := by
  unfold vc0WordArrival
  dsimp only
  split
  · exact h
  · split
    · split
      · exact h.setNi.setClu
      · exact h.setNi
    · exact h.setNi.setClu

protected theorem Keeps.admitAll (h : Keeps s t) : Keeps s (admitAll t) :=
  h.foldl fun _ _ h1 => h1.setClu

protected theorem Keeps.execVc0WordArrival (h : Keeps s t) : Answers s (execVc0WordArrival n t) :=
  .next h.vc0WordArrival

protected theorem Keeps.wmTimeout (h : Keeps s t) : Keeps s (wmTimeout n t) := by
  unfold wmTimeout
  dsimp only
  split
  · split
    · exact h.setClu.setBit.signal
    · exact h
  · exact h

protected theorem Keeps.execWmTimeout (h : Keeps s t) : Answers s (execWmTimeout n t) :=
  .next h.wmTimeout

/-! ## Machine/Legs -/

protected theorem Keeps.passLegs (h : Keeps s t) : Keeps s (passLegs a b t) :=
  h.foldl fun _ _ h1 => h1.setClu

protected theorem Keeps.runLeg (h : Keeps s t) : Keeps s (runLeg k t) :=
  (h.mapClusters.foldl fun _ _ h1 => h1.setClu).update.setWheels

protected theorem Keeps.legDecision (h : Keeps s t) : Keeps s (legDecision t) := by
  unfold legDecision
  dsimp only
  split
  · exact h
  · refine Keeps.ite ?_ ?_
    · split
      · exact h.passLegs.update
      · exact h.passLegs.runLeg
      · exact (h.passLegs.foldl fun _ _ h1 => h1.setClu).update
    · exact h

protected theorem Keeps.execLegDecision (h : Keeps s t) : Answers s (execLegDecision t) :=
  .next h.legDecision

protected theorem Keeps.takeToken (h : Keeps s t) : Keeps s (takeToken l count t) := by
  unfold takeToken
  dsimp only
  split
  · exact h
  · split
    · exact h.update
    · exact h.setLink.setBit.signal

protected theorem Keeps.takeHoldMarker (h : Keeps s t) : Keeps s (takeHoldMarker l count t) := by
  unfold takeHoldMarker
  dsimp only
  split
  · exact h
  · exact h.update

protected theorem Keeps.msTokenTimeout (h : Keeps s t) : Keeps s (msTokenTimeout t) := by
  unfold msTokenTimeout
  dsimp only
  split
  · exact h
  · split
    · exact h.update.setBit.signal
    · exact h

protected theorem Keeps.execMsTokenTimeout (h : Keeps s t) : Answers s (execMsTokenTimeout t) :=
  .next h.msTokenTimeout

/-! ## Machine/Time -/

protected theorem Keeps.setIncrement (h : Keeps s t) : Keeps s (setIncrement n t) :=
  h.setReg.setReg.update

protected theorem Keeps.oweTicks (h : Keeps s t) : Keeps s (oweTicks milestone' t) := by
  unfold oweTicks
  dsimp only
  split
  · exact h
  · exact h.forUpTo fun _ _ h1 => (Keeps.ite h1.update h1)

protected theorem Keeps.countWatchdogs (h : Keeps s t) : Keeps s (countWatchdogs t) := by
  unfold countWatchdogs
  split
  · exact h
  · exact h.forUpTo fun _ _ h1 => (Keeps.ite h1.setBits h1)

protected theorem Keeps.timeTick (h : Keeps s t) : Keeps s (timeTick t) := by
  unfold timeTick
  dsimp only
  refine Keeps.ite ?_ ?_
  · exact h.update.countWatchdogs.oweTicks
  · exact h.update.countWatchdogs

protected theorem Keeps.execTimeTick (h : Keeps s t) : Answers s (execTimeTick t) :=
  .next h.timeTick

protected theorem Keeps.timeSet (h : Keeps s t) : Keeps s (timeSet t) := by
  unfold timeSet
  split
  · exact h.setBit
  · exact h.update

protected theorem Keeps.execTimeSet (h : Keeps s t) : Answers s (execTimeSet t) :=
  .next h.timeSet

protected theorem Keeps.showServo (h : Keeps s t) : Keeps s (showServo t) :=
  h.setBit.setBit.setReg.setBits

protected theorem Keeps.servoInit (h : Keeps s t) : Keeps s (servoInit t) :=
  h.update.setIncrement.showServo

protected theorem Keeps.execServoReset (h : Keeps s t) : Answers s (execServoReset t) :=
  .next h.servoInit

protected theorem Keeps.servoUpdate (h : Keeps s t) : Keeps s (servoUpdate o t) := by
  unfold servoUpdate
  dsimp only
  refine Keeps.ite ?_ ?_
  · exact h.update.servoInit.bumpBits.setBit.signal
  · refine Keeps.ite ?_ ?_
    · refine Keeps.ite ?_ ?_
      · exact h.update.setIncrement.showServo.signal
      · exact h.update.setIncrement.showServo
    · exact h.update.showServo

protected theorem Keeps.timeLost (h : Keeps s t) : Keeps s (timeLost t) :=
  h.bumpBits

protected theorem Keeps.queueTime (h : Keeps s t) : Keeps s (queueTime l x t) :=
  h.setLink

protected theorem Keeps.syncSend (h : Keeps s t) : Keeps s (syncSend l t) := by
  unfold syncSend
  split
  · extract_lets n due s1
    have h1 : Keeps s s1 := h.queueTime
    exact h1.update
  · exact h

protected theorem Keeps.execSyncSend (h : Keeps s t) : Answers s (execSyncSend l t) :=
  .next h.syncSend

protected theorem Keeps.abandonExchange (h : Keeps s t) : Keeps s (abandonExchange t) := by
  unfold abandonExchange
  split
  · exact h.update.timeLost
  · exact h

protected theorem Keeps.receiveTime (h : Keeps s t) (htake : ∀ {x a}, Keeps s a → Keeps s (take x a)) : Keeps s (receiveTime l type f take t) := by
  unfold receiveTime
  split
  · split
    · split
      · exact (htake h.setLink)
      · exact h
    · exact h
  · exact (htake h)

protected theorem Keeps.syncReceive (h : Keeps s t) : Keeps s (syncReceive l f t) := by
  unfold syncReceive
  dsimp only
  split
  · exact h.timeLost
  · split
    · exact h.abandonExchange.update
    · exact h

protected theorem Keeps.execSyncReceive (h : Keeps s t) : Answers s (execSyncReceive l f t) :=
  .next (h.receiveTime fun h1 => h1.syncReceive)

protected theorem Keeps.followUpReceive (h : Keeps s t) : Keeps s (followUpReceive l f t) := by
  unfold followUpReceive
  split
  · exact h.timeLost
  · split
    · split
      · split
        · exact h.update.queueTime
        · exact h
      · exact h
    · exact h

protected theorem Keeps.execFollowUpReceive (h : Keeps s t) : Answers s (execFollowUpReceive l f t) :=
  .next (h.receiveTime fun h1 => h1.followUpReceive)

protected theorem Keeps.delayReqReceive (h : Keeps s t) : Keeps s (delayReqReceive l f t) := by
  unfold delayReqReceive
  split
  · exact h.timeLost
  · split
    · exact h.queueTime
    · exact h

protected theorem Keeps.execDelayReqReceive (h : Keeps s t) : Answers s (execDelayReqReceive l f t) :=
  .next (h.receiveTime fun h1 => h1.delayReqReceive)

protected theorem Keeps.takeOffset (h : Keeps s t) : Keeps s (takeOffset o p t) := by
  unfold takeOffset
  dsimp only
  refine Keeps.ite ?_ ?_
  · exact h.update.setReg.setReg.setBit.bumpBits.servoUpdate
  · exact h.update.setReg.setReg.setBit.bumpBits

protected theorem Keeps.delayRespReceive (h : Keeps s t) : Keeps s (delayRespReceive l f t) := by
  unfold delayRespReceive
  split
  · exact h.timeLost
  · split
    · split
      · split
        · split
          · exact h.takeOffset
          · exact h
        · exact h
      · exact h
    · exact h

protected theorem Keeps.execDelayRespReceive (h : Keeps s t) : Answers s (execDelayRespReceive l f t) :=
  .next (h.receiveTime fun h1 => h1.delayRespReceive)

protected theorem Keeps.timeFrameSent (h : Keeps s t) : Keeps s (timeFrameSent l x t) := by
  unfold timeFrameSent
  dsimp only
  split
  · exact h.queueTime
  · split
    · split
      · exact h.update
      · exact h
    · exact h
  · exact h.setLink
  · exact h

protected theorem Keeps.dropTimeFrames (h : Keeps s t) : Keeps s (dropTimeFrames l t) :=
  h.setLink

protected theorem Keeps.timeSyncLost (h : Keeps s t) : Keeps s (timeSyncLost t) := by
  unfold timeSyncLost
  split
  · exact h.setBit.setBit.signal
  · exact h

protected theorem Keeps.execTimeSyncLost (h : Keeps s t) : Answers s (execTimeSyncLost t) :=
  .next h.timeSyncLost

protected theorem Keeps.timeCfgWrite (h : Keeps s t) : Keeps s (timeCfgWrite sync v t) := by
  unfold timeCfgWrite
  extract_lets s1 _
  have h1 : Keeps s s1 := h.writeFields.forUpTo fun _ _ h1 => h1.dropTimeFrames
  exact Keeps.servoInit (h1.update (by simp only [keptPart]))

protected theorem Keeps.execTimeCfgWrite (h : Keeps s t) : Answers s (execTimeCfgWrite sync value t) :=
  .next h.timeCfgWrite

protected theorem Keeps.timeIncWrite (h : Keeps s t) : Keeps s (timeIncWrite a v t) := by
  unfold timeIncWrite
  dsimp only
  split
  · exact h.setBit
  · split
    · exact h.writeFields.update
    · exact h.writeFields

protected theorem Keeps.timeLinkDown (h : Keeps s t) : Keeps s (timeLinkDown l t) := by
  unfold timeLinkDown
  dsimp only
  split
  · exact h.update
  · exact h.setLink

/-! ## Machine/Links -/

protected theorem Keeps.setLaneState (h : Keeps s t) : Keeps s (setLaneState a v t) :=
  h.setBits

protected theorem Keeps.resetLane (h : Keeps s t) : Keeps s (resetLane a t) :=
  h.setLane

protected theorem Keeps.cutFrame (h : Keeps s t) : Keeps s (cutFrame a t) := by
  unfold cutFrame
  dsimp only
  split
  · exact h.takeFree.setLane
  · exact h

protected theorem Keeps.laneToLock (h : Keeps s t) : Keeps s (laneToLock a t) := by
  unfold laneToLock
  dsimp only
  split
  · exact h
  · exact (Keeps.ite h.cutFrame h).setLaneState.setBit.setBit.setBits.setLane

protected theorem Keeps.linkLeavesUp (h : Keeps s t) : Keeps s (linkLeavesUp l t) := by
  unfold linkLeavesUp
  dsimp only
  split
  · exact h.setBit.setBit.setBit.setLink.bumpBits.timeLinkDown
  · exact h.setBit.setBit.setBit.setLink

protected theorem Keeps.linkToLock (h : Keeps s t) : Keeps s (linkToLock l t) :=
  (h.foldl fun _ _ h1 => (Keeps.ite h1.setBit h1).laneToLock).linkLeavesUp

protected theorem Keeps.takeAlong (h : Keeps s t) : Keeps s (takeAlong l a t) :=
  h.update

protected theorem Keeps.resetLink (h : Keeps s t) : Keeps s (resetLink l t) :=
  h.linkLeavesUp.setLink

protected theorem Keeps.laneTrains (h : Keeps s t) : Keeps s (laneTrains a t) := by
  unfold laneTrains
  split
  · split
    · exact h.linkToLock
    · exact h.laneToLock
  · exact h.laneToLock

protected theorem Keeps.notTaken (h : Keeps s t) : Keeps s (notTaken a t) :=
  h.update

protected theorem Keeps.laneLeaves (h : Keeps s t) : Keeps s (laneLeaves a t) := by
  unfold laneLeaves
  dsimp only
  split
  · split
    · exact h.setBit.signal.takeAlong.linkToLock
    · exact h.setBit.laneToLock
  · split
    · exact (Keeps.ite h.signal.notTaken h).laneToLock
    · exact h.laneToLock

protected theorem Keeps.codeError (h : Keeps s t) : Keeps s (codeError a t) := by
  unfold codeError
  dsimp only
  refine Keeps.ite ?_ ?_
  · exact (Keeps.ite h.bumpBits.signal h.bumpBits).setLane.laneLeaves
  · exact (Keeps.ite h.bumpBits.signal h.bumpBits).setLane

protected theorem Keeps.symbolsArrive (h : Keeps s t) : Keeps s (symbolsArrive a n errors t) :=
  (h.foldl fun _ _ h1 => (Keeps.ite h1.setLane.codeError h1)).setLane

protected theorem Keeps.unitArrives (h : Keeps s t) : Keeps s (unitArrives a n rx t) := by
  unfold unitArrives
  dsimp only
  split
  · exact h
  · split
    · exact h.symbolsArrive.setLane
    · exact h.symbolsArrive

protected theorem Keeps.receiveUnit (h : Keeps s t) (hown : ∀ {n u a}, Keeps s a → Keeps s (own n u a))
    (hpair : ∀ {a}, Keeps s a → Keeps s (pair a)) : Keeps s (receiveUnit a want own pair t) := by
  unfold receiveUnit
  split
  · split
    · exact hown h.setLane
    · exact h
  · exact hpair h

protected theorem Keeps.checkLoops (h : Keeps s t) : Keeps s (checkLoops l t) := by
  unfold checkLoops
  split
  · exact h.setBit
  · exact h

protected theorem Keeps.checkLoopsOf (h : Keeps s t) : Keeps s (checkLoopsOf a t) := by
  unfold checkLoopsOf
  split
  · exact h.checkLoops
  · exact h

protected theorem Keeps.linkConfig (h : Keeps s t) : Keeps s (linkConfig l v t) := by
  unfold linkConfig
  dsimp only
  split
  · exact h.setBit
  · exact (Keeps.ite (h.foldl fun _ _ h1 => h1.laneTrains).linkLeavesUp.setReg (h.foldl fun _ _ h2 => h2.laneTrains).linkLeavesUp.setReg.setBit.signal).setBit.checkLoops.foldl fun _ _ h3 => h3.laneTrains

protected theorem Keeps.execLinkConfig (h : Keeps s t) : Answers s (execLinkConfig l value t) :=
  .next h.linkConfig

protected theorem Keeps.onLane (h : Keeps s t) (hf : ∀ {a}, Keeps s a → Keeps s (f a)) : Keeps s (onLane a f t) := by
  unfold onLane
  split
  · exact (hf h)
  · exact h.offAccess

protected theorem Keeps.execRetrain (h : Keeps s t) : Answers s (execRetrain a t) :=
  .next (h.onLane fun h1 => h1.laneLeaves)

protected theorem Keeps.loopChange (h : Keeps s t) : Keeps s (loopChange a loop t) := by
  unfold loopChange
  split
  · exact h
  · exact h.setBit.checkLoopsOf.laneLeaves

protected theorem Keeps.execLoopChange (h : Keeps s t) : Answers s (execLoopChange a loop t) :=
  .next (h.onLane fun h1 => h1.loopChange)

protected theorem Keeps.laneCtrlWrite (h : Keeps s t) : Keeps s (laneCtrlWrite a v t) := by
  unfold laneCtrlWrite
  dsimp only
  split
  · exact h.loopChange.writeFields.laneLeaves
  · split
    · exact h.loopChange.writeFields.laneToLock
    · exact h.loopChange.writeFields

protected theorem Keeps.patternMode (h : Keeps s t) : Keeps s (patternMode a t) := by
  unfold patternMode
  dsimp only
  split
  · exact h.setLaneState.setBit.setLane
  · exact h

protected theorem Keeps.execPatternMode (h : Keeps s t) : Answers s (execPatternMode a t) :=
  .next (h.onLane fun h1 => h1.patternMode)

protected theorem Keeps.checkBit (h : Keeps s t) : Keeps s (checkBit a b t) := by
  unfold checkBit
  dsimp only
  refine Keeps.ite ?_ ?_
  · refine Keeps.ite ?_ ?_
    · exact h.setLane
    · exact h.setLane.bumpBits
  · refine Keeps.ite ?_ ?_
    · exact h.setLane
    · refine Keeps.ite ?_ ?_
      · exact h.setLane.setBit
      · exact h.setLane

protected theorem Keeps.driveLine (h : Keeps s t) : Keeps s (driveLine a bs t) := by
  unfold driveLine
  split
  · exact h
  · exact h.setLane

protected theorem Keeps.patternBit (h : Keeps s t) : Keeps s (patternBit a b t) := by
  unfold patternBit
  dsimp only
  refine Keeps.ite ?_ ?_
  · exact (Keeps.ite h.setLane.driveLine h.setLane).checkBit
  · refine Keeps.ite ?_ ?_
    · exact h.setLane.driveLine
    · exact h.setLane

protected theorem Keeps.prbsLock (h : Keeps s t) : Keeps s (prbsLock a bs t) := by
  unfold prbsLock
  refine Keeps.ite ?_ ?_
  · exact h.foldl fun _ _ h1 => h1.patternBit
  · exact h

protected theorem Keeps.execPrbsLock (h : Keeps s t) : Answers s (execPrbsLock a bits' t) :=
  .next h.prbsLock

protected theorem Keeps.inject_ (h : Keeps s t) : Keeps s (inject_ a v t) := by
  unfold inject_
  dsimp only
  split
  · exact h.writeFields
  · split <;>
      (split; exacts [h.writeFields.setLane, h.writeFields.setBit])

protected theorem Keeps.execInject (h : Keeps s t) : Answers s (execInject a value t) :=
  .next (h.onLane fun h1 => h1.inject_)

protected theorem Keeps.execLaneLock (h : Keeps s t) : Answers s (execLaneLock a t) :=
  .next (by split; exacts [h.setLaneState, h])

protected theorem Keeps.laneAligned (h : Keeps s t) : Keeps s (laneAligned a inverted t) := by
  unfold laneAligned
  split
  · exact h.setLaneState.setBit.setLane
  · exact h

protected theorem Keeps.execLaneAlign (h : Keeps s t) : Answers s (execLaneAlign a inverted t) :=
  .next h.laneAligned

protected theorem Keeps.confirmDone (h : Keeps s t) : Keeps s (confirmDone a t) := by
  unfold confirmDone
  dsimp only
  split
  · exact h.setLane.setLaneState.bumpBits
  · exact h

protected theorem Keeps.peerReset (h : Keeps s t) : Keeps s (peerReset l ordinal t) :=
  h.setLink.setBit.signal

protected theorem Keeps.showFar (h : Keeps s t) : Keeps s (showFar a t' t) :=
  h.setReg

protected theorem Keeps.trainingSet (h : Keeps s t) : Keeps s (trainingSet a t' t) := by
  unfold trainingSet
  dsimp only
  refine Keeps.ite ?_ ?_
  · refine Keeps.ite ?_ ?_
    · exact h.symbolsArrive.laneLeaves
    · exact h.symbolsArrive
  · refine Keeps.ite ?_ ?_
    · exact h
    · refine Keeps.ite ?_ ?_
      · refine Keeps.ite ?_ ?_
        · exact h.symbolsArrive.setLane
        · refine Keeps.ite ?_ ?_
          · exact h.symbolsArrive.setLane.setLaneState.setBit
          · exact h.symbolsArrive
      · refine Keeps.ite ?_ ?_
        · refine Keeps.ite ?_ ?_
          · exact (Keeps.ite (Keeps.setBit (by split; exacts [(Keeps.ite h.symbolsArrive.showFar.peerReset h.symbolsArrive.showFar), h.symbolsArrive.showFar])) (by split; exacts [(Keeps.ite h.symbolsArrive.showFar.peerReset h.symbolsArrive.showFar), h.symbolsArrive.showFar])).setLane.setLaneState.setBit
          · exact (Keeps.ite (Keeps.setBit (by split; exacts [(Keeps.ite h.symbolsArrive.showFar.peerReset h.symbolsArrive.showFar), h.symbolsArrive.showFar])) (by split; exacts [(Keeps.ite h.symbolsArrive.showFar.peerReset h.symbolsArrive.showFar), h.symbolsArrive.showFar])).setLane
        · refine Keeps.ite ?_ ?_
          · exact (Keeps.ite (Keeps.setBit (by split; exacts [(Keeps.ite h.symbolsArrive.showFar.peerReset h.symbolsArrive.showFar), h.symbolsArrive.showFar])) (by split; exacts [(Keeps.ite h.symbolsArrive.showFar.peerReset h.symbolsArrive.showFar), h.symbolsArrive.showFar])).setLane.confirmDone
          · refine Keeps.ite ?_ ?_
            · exact (Keeps.ite (Keeps.setBit (by split; exacts [(Keeps.ite h.symbolsArrive.showFar.peerReset h.symbolsArrive.showFar), h.symbolsArrive.showFar])) (by split; exacts [(Keeps.ite h.symbolsArrive.showFar.peerReset h.symbolsArrive.showFar), h.symbolsArrive.showFar])).laneLeaves
            · refine Keeps.ite ?_ ?_
              · exact (Keeps.setBit (by split; exacts [(Keeps.ite h.symbolsArrive.showFar.peerReset h.symbolsArrive.showFar), h.symbolsArrive.showFar]))
              · split
                · refine Keeps.ite ?_ ?_
                  · exact h.symbolsArrive.showFar.peerReset
                  · exact h.symbolsArrive.showFar
                · exact h.symbolsArrive.showFar

protected theorem Keeps.execTrainingSetReceive (h : Keeps s t) : Answers s (execTrainingSetReceive a set' t) :=
  .next (h.receiveUnit (fun h1 => h1.trainingSet) fun h2 => h2.trainingSet)

protected theorem Keeps.execLaneDown (h : Keeps s t) : Answers s (execLaneDown a t) :=
  .next (by split; exacts [h.laneLeaves, h])

protected theorem Keeps.fillerDue (h : Keeps s t) : Keeps s (fillerDue a t) := by
  unfold fillerDue
  split
  · exact h.setLane
  · exact h

protected theorem Keeps.execFillerDue (h : Keeps s t) : Answers s (execFillerDue a t) :=
  .next h.fillerDue

protected theorem Keeps.ebSlip (h : Keeps s t) : Keeps s (ebSlip a full t) := by
  unfold ebSlip
  split
  · exact h.setBits.laneLeaves.signal
  · exact h

protected theorem Keeps.execCwEbSlip (h : Keeps s t) : Answers s (execCwEbSlip a full t) :=
  .next h.ebSlip

protected theorem Keeps.correctFill (h : Keeps s t) : Keeps s (correctFill a fill t) := by
  unfold correctFill
  split
  · exact h.ebSlip
  · split
    · exact h.setBits.bumpBits
    · split
      · exact h.setBits.bumpBits
      · exact h.setBits

protected theorem Keeps.fillerReceive (h : Keeps s t) : Keeps s (fillerReceive a fill rx t) := by
  unfold fillerReceive
  dsimp only
  split
  · exact h.unitArrives.correctFill
  · exact h.unitArrives

protected theorem Keeps.execFillerReceive (h : Keeps s t) : Answers s (execFillerReceive x t) :=
  .next (h.receiveUnit (fun h1 => h1.fillerReceive) fun h2 => h2.fillerReceive)

protected theorem Keeps.markerDue (h : Keeps s t) : Keeps s (markerDue l t) := by
  unfold markerDue
  split
  · exact h.foldl fun _ _ h1 => (Keeps.ite h1.setLane h1)
  · exact h

protected theorem Keeps.execAlignmentMarkerDue (h : Keeps s t) : Answers s (execAlignmentMarkerDue l t) :=
  .next h.markerDue

protected theorem Keeps.markerArrives (h : Keeps s t) : Keeps s (markerArrives m t) := by
  unfold markerArrives
  dsimp only
  refine Keeps.ite ?_ ?_
  · exact (Keeps.ite (by split; exacts [h.setLane, h]) h).unitArrives.codeError
  · exact (Keeps.ite (by split; exacts [h.setLane, h]) h).unitArrives

protected theorem Keeps.markerMismatch (h : Keeps s t) : Keeps s (markerMismatch l t) :=
  h.setBit.linkLeavesUp

protected theorem Keeps.deskew (h : Keeps s t) : Keeps s (deskew l good t) := by
  unfold deskew
  dsimp only
  split
  · exact h.setBits.linkLeavesUp.signal
  · exact (h.setBits.foldl fun _ _ h1 => h1.setLane).setBit.setBit

protected theorem Keeps.markerReceive (h : Keeps s t) : Keeps s (markerReceive l ms t) := by
  unfold markerReceive
  dsimp only
  split
  · exact h.foldl fun _ _ h1 => h1.markerArrives
  · split
    · exact (h.foldl fun _ _ h2 => h2.markerArrives).markerMismatch
    · exact (h.foldl fun _ _ h3 => h3.markerArrives).deskew

protected theorem Keeps.execAlignmentMarkerReceive (h : Keeps s t) : Answers s (execAlignmentMarkerReceive l markers t) :=
  .next h.markerReceive

protected theorem Keeps.startResend (h : Keeps s t) : Keeps s (startResend l t) := by
  unfold startResend
  dsimp only
  split
  · exact h
  · split
    · exact h.setLink.setBit.bumpBits.signal
    · exact h.setLink.setBit

protected theorem Keeps.linkComesUp (h : Keeps s t) : Keeps s (linkComesUp l t) := by
  unfold linkComesUp
  dsimp only
  split
  · exact h
  · split
    · exact h.setBit
    · split
      · exact h
      · exact h.setLink.setBit.setBit.setBit.startResend

protected theorem Keeps.delayExchange (h : Keeps s t) : Keeps s (delayExchange l x t) := by
  unfold delayExchange
  dsimp only
  split
  · exact h
  · split
    · exact h.queueTime
    · split
      · split
        · split
          · exact h.setLink.queueTime
          · exact h.setLink
        · exact h
      · exact h

protected theorem Keeps.exchangeHeard (h : Keeps s t) : Keeps s (exchangeHeard l x t) := by
  unfold exchangeHeard
  split
  · split
    · exact h.setLink.delayExchange
    · exact h
  · exact h.delayExchange

protected theorem Keeps.execDelayExchange (h : Keeps s t) : Answers s (execDelayExchange l x t) :=
  .next h.exchangeHeard

protected theorem Keeps.delayMeasured (h : Keeps s t) : Keeps s (delayMeasured l t) := by
  unfold delayMeasured
  dsimp only
  split
  · split
    · split
      · exact h.setReg.setBits.setLink.signal
      · exact h.setReg.setBits.setLink
    · exact h.setReg.setBits.setLink
  · exact h

protected theorem Keeps.execDelayMeasured (h : Keeps s t) : Answers s (execDelayMeasured l t) :=
  .next h.delayMeasured

protected theorem Keeps.ageReports (h : Keeps s t) : Keeps s (ageReports l n t) :=
  h.setLink

protected theorem Keeps.sendUnit (h : Keeps s t) : Keeps s (sendUnit a u' t) := by
  unfold sendUnit
  extract_lets x symbols code y s1
  have h1 : Keeps s s1 := .ite h.setLane h.setLane.driveLine
  split
  · exact .ite h1.ageReports h1
  · exact h1

protected theorem Keeps.sendFrame (h : Keeps s t) : Keeps s (sendFrame l a f t) :=
  h.setLane.sendUnit.setLink

protected theorem Keeps.sendSequenced (h : Keeps s t) : Keeps s (sendSequenced l a type vc last payload t) :=
  h.setLink.sendFrame

protected theorem Keeps.sendLinkFlit (h : Keeps s t) : Keeps s (sendLinkFlit l a vc t) := by
  unfold sendLinkFlit
  dsimp only
  split
  · exact h
  · exact h.setLink.sendSequenced

protected theorem Keeps.sendLoadFrame (h : Keeps s t) : Keeps s (sendLoadFrame l a t) := by
  unfold sendLoadFrame
  dsimp only
  split
  · exact h
  · exact h.setLink.sendSequenced

protected theorem Keeps.scheduleNew (h : Keeps s t) : Keeps s (scheduleNew l a t) := by
  unfold scheduleNew
  dsimp only
  refine Keeps.ite ?_ ?_
  · exact h.sendFrame
  · refine Keeps.ite ?_ ?_
    · exact h.setLink.sendSequenced
    · split
      · exact h.setLink.sendFrame.timeFrameSent
      · refine Keeps.ite ?_ ?_
        · exact h.sendUnit
        · refine Keeps.ite ?_ ?_
          · exact h.sendLinkFlit
          · split
            · exact h.sendLinkFlit
            · exact h.sendLinkFlit
            · exact h.sendLoadFrame
            · exact h.sendUnit

protected theorem Keeps.scheduleFrame (h : Keeps s t) : Keeps s (scheduleFrame l a t) := by
  unfold scheduleFrame
  dsimp only
  split
  · exact h.setLink.bumpBits.sendFrame
  · exact h.scheduleNew

protected theorem Keeps.markerBoundary (h : Keeps s t) : Keeps s (markerBoundary l a t) := by
  unfold markerBoundary
  dsimp only
  refine Keeps.ite ?_ ?_
  · exact h.setLane.foldl fun _ _ h1 => h1.setLane.sendUnit
  · exact h.setLane.sendUnit

protected theorem Keeps.endUnit (h : Keeps s t) : Keeps s (endUnit a t) := by
  unfold endUnit
  split
  · exact h.setLink
  · exact h

protected theorem Keeps.operUnit (h : Keeps s t) : Keeps s (operUnit a t) := by
  unfold operUnit
  dsimp only
  split
  · exact h.setLane.sendUnit
  · refine Keeps.ite ?_ ?_
    · exact h.markerBoundary
    · refine Keeps.ite ?_ ?_
      · exact h.setLane.sendUnit
      · refine Keeps.ite ?_ ?_
        · exact h.scheduleFrame
        · exact h.sendUnit
  · refine Keeps.ite ?_ ?_
    · exact h.setLane.sendUnit
    · exact h.sendUnit

protected theorem Keeps.unitBoundary (h : Keeps s t) : Keeps s (unitBoundary a t) := by
  unfold unitBoundary
  dsimp only
  refine Keeps.ite ?_ ?_
  · exact h
  · refine Keeps.ite ?_ ?_
    · exact h.endUnit.operUnit
    · refine Keeps.ite ?_ ?_
      · exact h.endUnit.sendUnit.setLane.confirmDone
      · exact h.endUnit.sendUnit

protected theorem Keeps.execUnitBoundary (h : Keeps s t) : Answers s (execUnitBoundary a t) :=
  .next h.unitBoundary

protected theorem Keeps.takeAck (h : Keeps s t) : Keeps s (takeAck l ack' t) :=
  h.setLink.setBit

protected theorem Keeps.discardFrame (h : Keeps s t) : Keeps s (discardFrame l t) := by
  unfold discardFrame
  dsimp only
  split
  · exact h
  · exact h.setLink

protected theorem Keeps.acceptFrame (h : Keeps s t) : Keeps s (acceptFrame l type vc last payload t) := by
  unfold acceptFrame
  dsimp only
  split
  · exact h.setLink
  · exact h.setLink
  · exact h.setLink
  · exact h.setLink.signal

protected theorem Keeps.returnCredit (h : Keeps s t) : Keeps s (returnCredit l c t) :=
  h.setLink

protected theorem Keeps.acceptedBefore (h : Keeps s t) : Keeps s (acceptedBefore l seq type vc t) := by
  unfold acceptedBefore
  dsimp only
  split
  · split
    · exact h.setLink.setLink.returnCredit
    · exact h.setLink.setLink
  · exact h.setLink

protected theorem Keeps.goodFrame (h : Keeps s t) : Keeps s (goodFrame l header payload t) := by
  unfold goodFrame
  dsimp only
  refine Keeps.ite ?_ ?_
  · exact (Keeps.ite h.takeAck.setLink h.takeAck).setLink
  · refine Keeps.ite ?_ ?_
    · refine Keeps.ite ?_ ?_
      · exact h.takeAck.setLink
      · exact h.takeAck
    · refine Keeps.ite ?_ ?_
      · exact (Keeps.ite h.takeAck.setLink h.takeAck).acceptFrame
      · refine Keeps.ite ?_ ?_
        · exact (Keeps.ite h.takeAck.setLink h.takeAck).discardFrame
        · exact (Keeps.ite h.takeAck.setLink h.takeAck).acceptedBefore

protected theorem Keeps.frameReceive (h : Keeps s t) : Keeps s (frameReceive a f t) := by
  unfold frameReceive
  dsimp only
  split
  · exact h.unitArrives
  · split
    · exact h.unitArrives
    · split
      · exact h.unitArrives
      · split
        · exact h.unitArrives.discardFrame
        · exact h.unitArrives.goodFrame

protected theorem Keeps.keepTimeFrame (h : Keeps s t) : Keeps s (keepTimeFrame a u' t) := by
  unfold keepTimeFrame
  split
  · split
    · exact h.setLink
    · exact h
  · exact h

protected theorem Keeps.frameHeard (h : Keeps s t) : Keeps s (frameHeard a f t) :=
  h.receiveUnit (fun h1 => h1.frameReceive.keepTimeFrame) fun h2 => h2.frameReceive


protected theorem Keeps.deliverLinkWord (h : Keeps s t) : Keeps s (deliverLinkWord l w cluster e t) := by
  unfold deliverLinkWord
  dsimp only
  split
  · exact h.setNi
  · exact h.signal

protected theorem Keeps.vc0FrameReceive (h : Keeps s t) : Keeps s (vc0FrameReceive l t) := by
  unfold vc0FrameReceive
  dsimp only
  split
  · exact h
  · exact h.setLink.forUpTo fun _ _ h1 => h1.deliverLinkWord

protected theorem Keeps.execVc0FrameReceive (h : Keeps s t) : Answers s (execVc0FrameReceive l t) :=
  .next h.vc0FrameReceive

protected theorem Keeps.forwardPacket (h : Keeps s t) : Keeps s (forwardPacket l p t) := by
  unfold forwardPacket
  dsimp only
  split
  · exact (Keeps.ite h.setLink.setNi h).inject
  · exact h.signal

protected theorem Keeps.flitFrameReceive (h : Keeps s t) : Keeps s (flitFrameReceive l t) := by
  unfold flitFrameReceive
  dsimp only
  split
  · exact h
  · split
    · exact (h.setLink.forUpTo fun _ _ h1 => h1.returnCredit).forwardPacket
    · exact h.setLink

protected theorem Keeps.execFlitFrameReceive (h : Keeps s t) : Answers s (execFlitFrameReceive l t) :=
  .next h.flitFrameReceive

protected theorem Keeps.linkControlReceive (h : Keeps s t) : Keeps s (linkControlReceive l t) := by
  unfold linkControlReceive
  dsimp only
  split
  · exact h
  · exact h.setLink

protected theorem Keeps.nakReceive (h : Keeps s t) : Keeps s (nakReceive l t) := by
  unfold nakReceive
  split
  · exact h
  · exact h.setLink.startResend

protected theorem Keeps.execNakReceive (h : Keeps s t) : Answers s (execNakReceive l t) :=
  .next h.nakReceive

protected theorem Keeps.resendWindowExpiry (h : Keeps s t) : Keeps s (resendWindowExpiry l receiver t) := by
  unfold resendWindowExpiry
  split
  · exact h.setLink
  · split
    · exact h.startResend
    · exact h

protected theorem Keeps.execResendWindowExpiry (h : Keeps s t) : Answers s (execResendWindowExpiry x t) :=
  .next h.resendWindowExpiry

protected theorem Keeps.linkTimeout (h : Keeps s t) : Keeps s (linkTimeout l t) := by
  unfold linkTimeout
  dsimp only
  split
  · exact h
  · split
    · split
      · exact h.setLink.setBit.linkToLock.setBit.setBit
      · exact h.setLink.setBit.linkToLock.setBit
    · exact (Keeps.ite h.setLink.setBit.linkToLock.setBit.setBit h.setLink.setBit.linkToLock.setBit).signal

protected theorem Keeps.execCwLinkTimeout (h : Keeps s t) : Answers s (execCwLinkTimeout l t) :=
  .next h.linkTimeout

protected theorem Keeps.sendTokenOn (h : Keeps s t) : Keeps s (sendTokenOn l hold count t) :=
  h.setLink.foldl fun _ _ h1 => h1.setLane

protected theorem Keeps.sendTokens (h : Keeps s t) : Keeps s (sendTokens hold e t) :=
  h.foldl fun _ _ h1 => h1.sendTokenOn

protected theorem Keeps.tokenRepeat (h : Keeps s t) : Keeps s (tokenRepeat l t) := by
  unfold tokenRepeat
  split
  · exact h.sendTokenOn
  · exact h

protected theorem Keeps.execTokenRepeat (h : Keeps s t) : Answers s (execTokenRepeat l t) :=
  .next h.tokenRepeat

protected theorem Keeps.setArrives (h : Keeps s t) (htake : ∀ {l c a}, Keeps s a → Keeps s (take l c a)) :
    Keeps s (setArrives take a x t) := by
  unfold setArrives
  extract_lets s1
  have h1 : Keeps s s1 := h.unitArrives
  split
  · exact h1
  · split
    · exact h1.codeError
    · split
      · exact htake h1
      · exact h1

protected theorem Keeps.tokenReceive (h : Keeps s t) : Keeps s (tokenReceive a x t) :=
  h.receiveUnit (fun h1 => h1.setArrives fun h2 => h2.takeToken) fun h1 => h1.setArrives fun h2 => h2.takeToken

protected theorem Keeps.execTokenReceive (h : Keeps s t) : Answers s (execTokenReceive a x t) :=
  .next h.tokenReceive

protected theorem Keeps.holdMarkerReceive (h : Keeps s t) : Keeps s (holdMarkerReceive a x t) :=
  h.receiveUnit (fun h1 => h1.setArrives fun h2 => h2.takeHoldMarker) fun h1 =>
    h1.setArrives fun h2 => h2.takeHoldMarker

protected theorem Keeps.execHoldMarkerReceive (h : Keeps s t) : Answers s (execHoldMarkerReceive a x t) :=
  .next h.holdMarkerReceive

/-! ## Machine/Interfaces -/

protected theorem Keeps.sendQueueRequest (h : Keeps s t) : Keeps s (sendQueueRequest n q t' t) := by
  unfold sendQueueRequest
  dsimp only
  split
  · exact h.setClu.setNi.inject
  · exact h.setClu.setNi.signal

protected theorem Keeps.sendMessage (h : Keeps s t) : Keeps s (sendMessage n t' t) := by
  unfold sendMessage
  dsimp only
  split
  · exact h.setClu.setNi.inject
  · exact h.setClu.setNi.signal

protected theorem Keeps.niRequestSend (h : Keeps s t) : Keeps s (niRequestSend n t) := by
  unfold niRequestSend
  split
  · exact h
  · split
    · split
      · exact h.sendQueueRequest
      · exact h.sendMessage
    · exact h

protected theorem Keeps.execNiRequestSend (h : Keeps s t) : Answers s (execNiRequestSend n t) :=
  .next h.niRequestSend

protected theorem Keeps.releaseTag (h : Keeps s t) : Keeps s (releaseTag n t' t) :=
  h.setNi

protected theorem Keeps.queueAppend (h : Keeps s t) : Keeps s (queueAppend n t) := by
  unfold queueAppend
  dsimp only
  split
  · exact h
  · split
    · exact h.setNi.setClu.releaseTag
    · exact h.setNi.releaseTag

protected theorem Keeps.execQueueAppend (h : Keeps s t) : Answers s (execQueueAppend n t) :=
  .next h.queueAppend

protected theorem Keeps.acceptanceReceive (h : Keeps s t) : Keeps s (acceptanceReceive n t) := by
  unfold acceptanceReceive
  dsimp only
  split
  · exact h
  · exact h.setNi.releaseTag

protected theorem Keeps.execAcceptanceReceive (h : Keeps s t) : Answers s (execAcceptanceReceive n t) :=
  .next h.acceptanceReceive

protected theorem Keeps.logAsleep (h : Keeps s t) : Keeps s (logAsleep src dst t) :=
  h.setReg

protected theorem Keeps.answerZeros (h : Keeps s t) : Keeps s (answerZeros n t' t) := by
  unfold answerZeros
  dsimp only
  split
  · exact h.setClu.releaseTag
  · exact h.releaseTag

protected theorem Keeps.domainAsleepReceive (h : Keeps s t) : Keeps s (domainAsleepReceive i t) := by
  unfold domainAsleepReceive
  dsimp only
  split
  · exact h
  · split
    · exact h.setNi.logAsleep.setBit.signal
    · split
      · exact h.setNi.logAsleep.setBit.signal.setNi
      · exact h.setNi.logAsleep.setBit.signal.answerZeros

protected theorem Keeps.execDomainAsleepReceive (h : Keeps s t) : Answers s (execDomainAsleepReceive i t) :=
  .next h.domainAsleepReceive

protected theorem Keeps.niSourceHoldExpiry (h : Keeps s t) : Keeps s (niSourceHoldExpiry i t) := by
  unfold niSourceHoldExpiry
  split
  · exact h.setNi.inject
  · exact h

protected theorem Keeps.execNiSourceHoldExpiry (h : Keeps s t) : Answers s (execNiSourceHoldExpiry i t) :=
  .next h.niSourceHoldExpiry

protected theorem Keeps.execRouterOutputSelect (h : Keeps s t) : Answers s (execRouterOutputSelect r t) :=
  .next h.routerPeriod

protected theorem Keeps.enterLink (h : Keeps s t) : Keeps s (enterLink l vc p t) :=
  h.setLink

protected theorem Keeps.announceAsleep (h : Keeps s t) : Keeps s (announceAsleep i p t) :=
  h.respond

protected theorem Keeps.receiveClosed (h : Keeps s t) : Keeps s (receiveClosed i p t) := by
  unfold receiveClosed
  dsimp only
  split
  · exact h.respond
  · split
    · exact h.setNi
    · split
      · split
        · exact h.bumpBits
        · split <;> exact h.setNi
      · split
        · exact h.announceAsleep
        · exact h

protected theorem Keeps.bankServe (h : Keeps s t) : Keeps s (bankServe n p t) := by
  unfold bankServe
  dsimp only
  split
  · exact (Keeps.ite ((Keeps.ite h h.notOwned).setDesignMem ((Keeps.ite h h.notOwned).designMem.foldl fun _ _ h1 => h1.writeDWord)) (Keeps.ite h h.notOwned)).respond
  · exact (Keeps.ite h h.notOwned).respond

protected theorem Keeps.receiveOpen (h : Keeps s t) : Keeps s (receiveOpen i p t) := by
  unfold receiveOpen
  dsimp only
  split
  · exact h.setNi
  · split
    · exact h.bankServe
    · split
      · exact h.enterLink
      · exact h.setNi
  · exact h.setNi
  · exact h.setNi
  · exact h.setNi
  · split
    · exact h.enterLink
    · exact h.setNi
  · split
    · exact h.enterLink
    · exact h.setNi
  · split
    · exact h.enterLink
    · exact h.setNi
  · split
    · exact h.enterLink
    · exact h.setNi
  · exact h

protected theorem Keeps.misrouted (h : Keeps s t) : Keeps s (misrouted i p t) :=
  h.setBit.signal.headerError

protected theorem Keeps.answerOver (h : Keeps s t) : Keeps s (answerOver i l p t) := by
  unfold answerOver
  dsimp only
  split
  · exact h.setLink.setNi.bumpBits
  · exact h.setLink.setNi.enterLink

protected theorem Keeps.niPacketReceive (h : Keeps s t) : Keeps s (niPacketReceive i t) := by
  unfold niPacketReceive
  dsimp only
  split
  · exact h
  · split
    · exact h.setNi.answerOver
    · split
      · exact h.setNi.setNi.bumpBits
      · split
        · exact h.setNi.misrouted
        · split
          · exact h.setNi.receiveClosed
          · exact h.setNi.receiveOpen

protected theorem Keeps.execNiPacketReceive (h : Keeps s t) : Answers s (execNiPacketReceive i t) :=
  .next h.niPacketReceive

protected theorem Keeps.linkVc0Enter (h : Keeps s t) : Keeps s (linkVc0Enter l t) := by
  unfold linkVc0Enter
  dsimp only
  split
  · exact h
  · split
    · exact h.setNi.setLink
    · exact h.setNi.signal

protected theorem Keeps.execLinkVc0Enter (h : Keeps s t) : Answers s (execLinkVc0Enter l t) :=
  .next h.linkVc0Enter

protected theorem Keeps.reservationProbe (h : Keeps s t) : Keeps s (reservationProbe n t) := by
  unfold reservationProbe
  dsimp only
  split
  · exact h
  · split
    · exact h.setNi.respond
    · split
      · exact h.setNi.respond
      · split
        · exact h.setNi.respond
        · split
          · exact h.setNi.respond
          · exact h.setNi.setClu.setNi.respond

protected theorem Keeps.execReservationProbe (h : Keeps s t) : Answers s (execReservationProbe n t) :=
  .next h.reservationProbe

protected theorem Keeps.sendTree (h : Keeps s t) : Keeps s (sendTree l w t) := by
  unfold sendTree
  split
  · exact h
  · split
    · exact h.update
    · exact h.enterLink

protected theorem Keeps.sendWaiting (h : Keeps s t) : Keeps s (sendWaiting t) :=
  h.update.foldl fun _ _ h1 => h1.sendTree

protected theorem Keeps.niCtrlWrite (h : Keeps s t) : Keeps s (niCtrlWrite i on t) := by
  unfold niCtrlWrite
  dsimp only
  split
  · split
    · exact h.setBit.setBit.sendWaiting
    · exact h.setBit.setBit
  · split <;> exact h.setBit

protected theorem Keeps.execQuiesce (h : Keeps s t) : Answers s (execQuiesce i t) :=
  .next h.niCtrlWrite

protected theorem Keeps.niQuiet (h : Keeps s t) : Keeps s (niQuiet i t) := by
  unfold niQuiet
  split
  · exact h.setBit
  · exact h

protected theorem Keeps.execNiQuiet (h : Keeps s t) : Answers s (execNiQuiet i t) :=
  .next h.niQuiet

protected theorem Keeps.routerReset (h : Keeps s t) : Keeps s (routerReset r t) := by
  unfold routerReset
  split
  · exact h
  · exact h.setBit.setBit

protected theorem Keeps.execRouterReset (h : Keeps s t) : Answers s (execRouterReset r t) :=
  .next h.routerReset

protected theorem Keeps.routerDrainDone (h : Keeps s t) : Keeps s (routerDrainDone r t) := by
  unfold routerDrainDone
  dsimp only
  split
  · exact ((h.foldl fun _ _ h1 => h1.update).foldl fun _ _ h2 => h2.update).setBit.setBit
  · exact h

protected theorem Keeps.execRouterDrainDone (h : Keeps s t) : Answers s (execRouterDrainDone r t) :=
  .next h.routerDrainDone

protected theorem Keeps.routerReopen (h : Keeps s t) : Keeps s (routerReopen r t) := by
  unfold routerReopen
  split
  · exact h.setBit.setBit
  · exact h

protected theorem Keeps.execRouterReopen (h : Keeps s t) : Answers s (execRouterReopen r t) :=
  .next h.routerReopen

protected theorem Keeps.routeWordWrite (h : Keeps s t) : Keeps s (routeWordWrite i e w v t) := by
  unfold routeWordWrite
  split
  · exact h.setBit
  · split
    · exact h.writeFields
    · split
      · exact h.writeFields
      · exact h.writeFields.setBit.setBit

protected theorem Keeps.execRouteEntryWrite (h : Keeps s t) : Answers s (execRouteEntryWrite i e value t) :=
  .next h.routeWordWrite

protected theorem Keeps.slotWrite (h : Keeps s t) : Keeps s (slotWrite a bank v t) := by
  unfold slotWrite
  split
  · exact h.writeFields
  · exact h.setBit

protected theorem Keeps.execSwitchReq (h : Keeps s t) : Answers s (execSwitchReq t) :=
  .next h.setBit

protected theorem Keeps.switchSlots (h : Keeps s t) : Keeps s (switchSlots t) := by
  unfold switchSlots
  dsimp only
  split
  · exact h.setBit.update
  · exact h

protected theorem Keeps.showFull (h : Keeps s t) : Keeps s (showFull t) :=
  h.setBit

protected theorem Keeps.ptraceWrite (h : Keeps s t) : Keeps s (ptraceWrite v t) := by
  unfold ptraceWrite
  dsimp only
  split
  · exact h.writeFields.setBit.setReg.update
  · exact h.writeFields.showFull

protected theorem Keeps.execPtraceEnable (h : Keeps s t) : Answers s (execPtraceEnable value t) :=
  .next h.ptraceWrite

protected theorem Keeps.traceRefused (h : Keeps s t) : Keeps s (traceRefused r t) := by
  unfold traceRefused
  split
  · exact h.setNi
  · exact h

protected theorem Keeps.crossMesh (h : Keeps s t) : Keeps s (crossMesh cs r f t) := by
  induction cs generalizing r f t with
  | nil => exact h.probesSee
  | cons c cs ih =>
    unfold crossMesh
    dsimp only
    split
    · exact ih h.probesSee.probesSee
    · exact h.probesSee

protected theorem Keeps.sendRecord (h : Keeps s t) : Keeps s (sendRecord p r t) :=
  h.foldl fun _ _ h1 => h1.probesSee.crossMesh

protected theorem Keeps.probeTraceWrite (h : Keeps s t) : Keeps s (probeTraceWrite p t) := by
  unfold probeTraceWrite
  split
  · exact h
  · extract_lets _ s1 next s2 _ s3
    have h1 : Keeps s s1 := h.withNet.sendRecord
    have h2 : Keeps s s2 := h1.setReg
    have h3 : Keeps s s3 := h2.withNet
    exact .ite h1.traceRefused (.ite h1.bumpBits h3.showFull)


protected theorem Keeps.execProbeTraceWrite (h : Keeps s t) : Answers s (execProbeTraceWrite p t) :=
  .next h.probeTraceWrite

/-! ## Machine/Memory -/

protected theorem Keeps.ownerWrite (h : Keeps s t) : Keeps s (ownerWrite b v t) := by
  unfold ownerWrite
  dsimp only
  split
  · exact h.setBit
  · split
    · exact h.setBit
    · split
      · exact h
      · exact h.setBits.setBits.setBit.update

protected theorem Keeps.execOwnerHandover (h : Keeps s t) : Answers s (execOwnerHandover party b value t) :=
  .next (h.performed h.ownerWrite)

protected theorem Keeps.handoverDone (h : Keeps s t) : Keeps s (handoverDone b t) := by
  unfold handoverDone
  dsimp only
  split
  · exact h.setBit.update
  · exact h

protected theorem Keeps.execHandoverDone (h : Keeps s t) : Answers s (execHandoverDone b t) :=
  .next h.handoverDone

protected theorem Keeps.bankCfgWrite (h : Keeps s t) : Keeps s (bankCfgWrite b v t) := by
  unfold bankCfgWrite
  dsimp only
  split
  · exact h.setBit.setBit
  · split
    · exact h.setBit.setBits.setBit
    · exact h.setBit.setBits.setBits

protected theorem Keeps.execBankPowerRequest (h : Keeps s t) : Answers s (execBankPowerRequest party b value t) :=
  .next (h.performed h.bankCfgWrite)

protected theorem Keeps.loseBank (h : Keeps s t) : Keeps s (loseBank b t) :=
  h.setDesignMem h.designMem.loseContents

protected theorem Keeps.bankPower (h : Keeps s t) : Keeps s (bankPower b p t) :=
  (Keeps.ite h.loseBank h).setBits

protected theorem Keeps.bankPowerDone (h : Keeps s t) : Keeps s (bankPowerDone b t) := by
  unfold bankPowerDone
  split
  · exact h.bankPower
  · exact h

protected theorem Keeps.execBankPowerDone (h : Keeps s t) : Answers s (execBankPowerDone b t) :=
  .next h.bankPowerDone

protected theorem Keeps.busyAccess (h : Keeps s t) : Keeps s (busyAccess t) :=
  h.setBit

protected theorem Keeps.viewAccess (h : Keeps s t) (hx : ∀ {a}, Keeps s a → Keeps s (x a)) : Keeps s (viewAccess p b x t) := by
  unfold viewAccess
  split
  · exact (hx h)
  · exact h.offAccess
  · exact h
  · exact h.busyAccess
  · exact (Keeps.ite h.busyAccess h).notOwned

protected theorem Keeps.viewRead (h : Keeps s t) : Keeps s (viewRead p word t) :=
  (h.viewAccess fun h1 => h1).answer

protected theorem Keeps.viewWrite (h : Keeps s t) : Keeps s (viewWrite p word f t) :=
  h.viewAccess fun h1 => h1.setDesignMem h1.designMem.writeWord

protected theorem Keeps.execControlViewAccess (h : Keeps s t) : Answers s (execControlViewAccess party word access t) :=
  .next (by split; exacts [h.performedRead h.viewRead, h.performed h.viewWrite])

protected theorem Keeps.setServiceMem (h : Keeps s t) (hm : MemOk s m) : Keeps s (setServiceMem t k m) := by
  refine h.withMemories rfl rfl (fun _ => h.designMem) (fun k' => ?_) (fun _ => h.ddrMem) (fun _ => h.localMem)
    h.traceBuffer h.cairnNvm
  rw [show serviceMem (setServiceMem t k m) k' = if k' = k then m else serviceMem t k' from look_put ..]
  exact hm.ite h.serviceMem

protected theorem Keeps.serviceRead (h : Keeps s t) : Keeps s (serviceRead k word t) :=
  (Keeps.ite h.offAccess (Keeps.ite h.busyAccess h)).answer

protected theorem Keeps.serviceWrite (h : Keeps s t) : Keeps s (serviceWrite p k word f t) := by
  unfold serviceWrite
  split
  · exact h.offAccess
  · split
    · exact h
    · split
      · exact h.busyAccess
      · exact h.setServiceMem h.serviceMem.writeWord

protected theorem Keeps.execServiceBankAccess (h : Keeps s t) : Answers s (execServiceBankAccess party k word access t) :=
  .next (by split; exacts [h.performedRead h.serviceRead, h.performed h.serviceWrite])

protected theorem Keeps.aliasWrite (h : Keeps s t) : Keeps s (aliasWrite p t' word set_ v t) := by
  unfold aliasWrite
  dsimp only
  split
  · exact h.viewWrite
  · exact h.serviceWrite

protected theorem Keeps.execSetAliasWrite (h : Keeps s t) : Answers s (execSetAliasWrite party target word value t) :=
  .next (h.performed h.aliasWrite)

protected theorem Keeps.execClearAliasWrite (h : Keeps s t) : Answers s (execClearAliasWrite party target word value t) :=
  .next (h.performed h.aliasWrite)

protected theorem Keeps.marchWrite (h : Keeps s t) : Keeps s (marchWrite v t) := by
  unfold marchWrite
  dsimp only
  split
  · exact h.writeFields
  · split
    · exact h.writeFields.setBit.setBit.setBits.setBit.update
    · exact h.setBit

protected theorem Keeps.execMarchGo (h : Keeps s t) : Answers s (execMarchGo value t) :=
  .next h.marchWrite

protected theorem Keeps.setMarchInt (h : Keeps s t) : Keeps s (setMarchInt service b on t) := by
  unfold setMarchInt
  split <;> exact h.setBit

protected theorem Keeps.marchDone (h : Keeps s t) : Keeps s (marchDone failures t) := by
  unfold marchDone
  dsimp only
  split
  · exact h
  · split
    · exact (Keeps.ite h.update.setBit.setBit.setBit.setMarchInt (Keeps.ite (h.update.setBit.setBit.setBit.setMarchInt.setServiceMem .zeroContents) (h.update.setBit.setBit.setBit.setMarchInt.setDesignMem .zeroContents))).setReg.setBit.signal
    · exact (Keeps.ite h.update.setBit.setBit.setBit.setMarchInt (Keeps.ite (h.update.setBit.setBit.setBit.setMarchInt.setServiceMem .zeroContents) (h.update.setBit.setBit.setBit.setMarchInt.setDesignMem .zeroContents))).setReg.setBit

protected theorem Keeps.execMarchDone (h : Keeps s t) : Answers s (execMarchDone failures t) :=
  .next h.marchDone

protected theorem Keeps.setDdr (h : Keeps s t) (hm : MemOk s x.mem) : Keeps s (setDdr t c x) := by
  refine h.withMemories rfl rfl (fun _ => h.designMem) (fun _ => h.serviceMem) (fun c' => ?_) (fun _ => h.localMem)
    h.traceBuffer h.cairnNvm
  rw [show ddr (setDdr t c x) c' = if c' = c then x else ddr t c' from look_put ..]
  split
  · exact hm
  · exact h.ddrMem

protected theorem Keeps.ddrTrain (h : Keeps s t) : Keeps s (ddrTrain c step' ok lanes t) := by
  unfold ddrTrain
  dsimp only
  split
  · exact h
  · split
    · split
      · split
        · exact (Keeps.ite h.setReg.setBit h).setBits.setBit.setBit
        · exact (Keeps.ite h.setReg.setBit h).setBits.setBit
      · exact (Keeps.ite h.setReg.setBit h).setBit.setBits.signal
    · exact h

protected theorem Keeps.execDdrTrain (h : Keeps s t) : Answers s (execDdrTrain c step' ok lanes t) :=
  .next h.ddrTrain

protected theorem Keeps.ddrRefresh (h : Keeps s t) : Keeps s (ddrRefresh c t) := by
  unfold ddrRefresh
  split
  · exact h.setDdr h.ddrMem
  · exact h

protected theorem Keeps.execDdrRefresh (h : Keeps s t) : Answers s (execDdrRefresh c t) :=
  .next h.ddrRefresh

protected theorem Keeps.ddrAnswer (h : Keeps s t) : Keeps s (ddrAnswer i p data status t) := by
  unfold ddrAnswer
  split <;> exact h.respond

protected theorem Keeps.ddrRequest (h : Keeps s t) : Keeps s (ddrRequest c t) := by
  unfold ddrRequest
  dsimp only
  split
  · exact h
  · split
    · exact h
    · split
      · exact h.setNi.receiveClosed
      · split
        · exact h.setNi.ddrAnswer
        · split
          · exact h.setNi.setBits.setBits.bumpBits.signal.ddrAnswer
          · exact h.setNi.setDdr h.setNi.ddrMem

protected theorem Keeps.execDdrRequest (h : Keeps s t) : Answers s (execDdrRequest c t) :=
  .next h.ddrRequest

protected theorem Keeps.ddrServe (h : Keeps s t) : Keeps s (ddrServe c p t) := by
  unfold ddrServe
  extract_lets x a n m _ s1
  have h1 : Keeps s s1 := h.setDdr h.ddrMem
  have hm : MemOk s m := h.ddrMem
  split
  · exact h1.ddrAnswer
  · exact (h1.setDdr hm.writeBytes).ddrAnswer

/-- A turn of the arbiter counts, and leaves the memory of the channel as it is. -/
theorem ddrTurn_mem (h : ddrTurn t c k = some x) : x.mem = (ddr t c).mem := by
  have count : ∀ y : DdrChannel, (countBurst k y).mem = y.mem := fun _ => rfl
  unfold ddrTurn at h
  dsimp only at h
  split at h
  · cases h; exact count _
  · split at h
    · cases h; exact count _
    · cases h

/-- The channel whose turn has been counted takes its place. -/
protected theorem Keeps.setTurn (h : Keeps s t) (e : ddrTurn t c k = some x) : Keeps s (setDdr t c x) :=
  h.setDdr (by rw [ddrTurn_mem e]; exact h.ddrMem)

protected theorem Keeps.designBurst (h : Keeps s t) : Keeps s (designBurst c t) := by
  unfold designBurst
  dsimp only
  split
  next e => exact (Keeps.setDdr (t := { t with free := t.free + 1 }) h.update (by rw [ddrTurn_mem e]; exact h.ddrMem)).ddrServe
  next => exact h

protected theorem Keeps.ddrRequestDone (h : Keeps s t) : Keeps s (ddrRequestDone c t) := by
  unfold ddrRequestDone
  split
  · exact h
  · exact h.designBurst

protected theorem Keeps.execDdrRequestDone (h : Keeps s t) : Answers s (execDdrRequestDone c t) :=
  .next h.ddrRequestDone

protected theorem Keeps.ddrSettle (h : Keeps s t) : Keeps s (ddrSettle c a n t) :=
  h.foldl fun _ _ h1 => (Keeps.ite h1.ddrServe h1)

protected theorem Keeps.ddrDrain (h : Keeps s t) : Keeps s (ddrDrain c t) :=
  h.foldl fun _ _ h1 => h1.ddrServe

protected theorem Keeps.ddrAbandon (h : Keeps s t) : Keeps s (ddrAbandon c t) := by
  have emptied : Keeps s (setDdr t c { ddr t c with queue := [] }) := h.setDdr h.ddrMem
  exact emptied.foldl fun _ _ h1 => h1.receiveClosed

protected theorem Keeps.ddrCfgWrite (h : Keeps s t) : Keeps s (ddrCfgWrite c a v t) := by
  unfold ddrCfgWrite
  dsimp only
  split
  · exact h.writeFields
  · split
    · exact h.setBit.setBit
    · exact h.setBit

protected theorem Keeps.ddrRegionWrite (h : Keeps s t) : Keeps s (ddrRegionWrite c a v t) := by
  unfold ddrRegionWrite
  split
  · exact h.writeFields
  · exact h.setBit

/-! ## Machine/Trace -/

protected theorem Keeps.emit (h : Keeps s t) : Keeps s (emit source p t) := by
  unfold emit
  dsimp only
  split
  · exact h.update
  · exact h.setReg.update

protected theorem Keeps.setLhCore (h : Keeps s t) (hm : MemOk s x.local_) : Keeps s (setLhCore t c x) := by
  refine h.withMemories rfl rfl (fun _ => h.designMem) (fun _ => h.serviceMem) (fun _ => h.ddrMem) (fun c' => ?_)
    h.traceBuffer h.cairnNvm
  rw [show lhCore (setLhCore t c x) c' = if c' = c then x else lhCore t c' from look_put ..]
  split
  · exact hm
  · exact h.localMem

protected theorem Keeps.setPc (h : Keeps s t) : Keeps s (setPc core' pc t) :=
  h.setLhCore h.localMem

protected theorem Keeps.emitSync (h : Keeps s t) : Keeps s (emitSync core' reason t) :=
  h.emit.update

protected theorem Keeps.startSync (h : Keeps s t) : Keeps s (startSync core' t) := by
  unfold startSync
  split
  · exact h.emitSync
  · exact h

protected theorem Keeps.powerSync (h : Keeps s t) : Keeps s (powerSync t) := by
  unfold powerSync
  split
  · exact h.update.emitSync.emitSync
  · exact h

protected theorem Keeps.traceRestart (h : Keeps s t) : Keeps s (traceRestart t) :=
  h.update

protected theorem Keeps.watchRun (h : Keeps s t) (hf : ∀ {a}, Keeps s a → Keeps s (f a)) : Keeps s (watchRun f t) := by
  unfold watchRun
  dsimp only
  split
  · exact (hf h).traceRestart
  · exact (hf h)

protected theorem Keeps.traceStop (h : Keeps s t) : Keeps s (traceStop t) :=
  h.setBit

protected theorem Keeps.traceEvents (h : Keeps s t) : Keeps s (traceEvents codes t) := by
  unfold traceEvents
  split
  · exact h
  · split
    · exact h
    · exact h.watchRun fun h1 => h1.powerSync.setBits.emit

protected theorem Keeps.traceEvent (h : Keeps s t) : Keeps s (traceEvent code t) :=
  h.traceEvents

protected theorem Keeps.traceTrigger (h : Keeps s t) : Keeps s (traceTrigger source t) := by
  unfold traceTrigger
  dsimp only
  split
  · split
    · exact h.setBit.update.traceStop
    · exact h.setBit.update
  · exact h

protected theorem Keeps.execTrig (h : Keeps s t) : Answers s (execTrig t) :=
  .next (by split; exacts [h.traceTrigger, h.offAccess])

protected theorem Keeps.putPacket (h : Keeps s t) : Keeps s (putPacket p t) := by
  have bytes : ∀ (l : List Byte) (x : Mem × Nat), MemOk s x.1 →
      MemOk s (l.foldl (fun (acc : Mem × Nat) b => (writeByte acc.1 (acc.2 % 2 ^ 17) b, acc.2 + 1)) x).1 := by
    intro l
    induction l with
    | nil => exact fun _ hx => hx
    | cons b l ih => exact fun x hx => ih _ hx.writeByte
  unfold putPacket
  extract_lets next m _ s1
  have h1 : Keeps s s1 := Keeps.setBits (h.withMemories rfl rfl (fun _ => h.designMem) (fun _ => h.serviceMem)
    (fun _ => h.ddrMem) (fun _ => h.localMem) (bytes p (t.trc.buffer, next) h.traceBuffer) h.cairnNvm)
  exact .ite h1.setBit h1

protected theorem Keeps.countBytes (h : Keeps s t) : Keeps s (countBytes n core' t) := by
  unfold countBytes
  dsimp only
  split
  · exact h.update.emitSync
  · exact h.update

protected theorem Keeps.countPost (h : Keeps s t) : Keeps s (countPost t) := by
  unfold countPost
  dsimp only
  split
  · exact h.update.traceStop
  · exact h.update

protected theorem Keeps.writePacket (h : Keeps s t) : Keeps s (writePacket p t) := by
  unfold writePacket
  dsimp only
  split
  · exact h
  · split
    · exact h.putPacket.countBytes.countBytes.countPost
    · split
      · exact h.putPacket.countBytes.countBytes.countPost.traceStop
      · exact h.traceStop

protected theorem Keeps.traceRoom (h : Keeps s t) : Keeps s (traceRoom source t) := by
  unfold traceRoom
  split
  · exact h
  · extract_lets ps _ s1 s2 n _ s3 s4
    have h1 : Keeps s s1 := h.update
    have h2 : Keeps s s2 := h1.foldl fun _ _ h2 => h2.writePacket
    have h3 : Keeps s s3 := h2.update
    have h4 : Keeps s s4 := h3.emit
    exact .ite h2 (.ite h4.emitSync h4)


protected theorem Keeps.execTraceRoom (h : Keeps s t) : Answers s (execTraceRoom source t) :=
  .next h.traceRoom

protected theorem Keeps.comparators (h : Keeps s t) : Keeps s (comparators core' pc t) := by
  unfold comparators
  dsimp only
  split
  · exact h.traceEvents.traceTrigger
  · exact h.traceEvents

protected theorem Keeps.branchPacket (h : Keeps s t) : Keeps s (branchPacket core' notTaken' target t) := by
  unfold branchPacket
  dsimp only
  split
  · exact h.powerSync.startSync.emit.update
  · exact h

protected theorem Keeps.takeInterrupt (h : Keeps s t) : Keeps s (takeInterrupt t) :=
  h.update

protected theorem Keeps.coreBranch (h : Keeps s t) : Keeps s (coreBranch core' pc exception notTaken' target t) := by
  unfold coreBranch
  split
  · exact h
  · extract_lets x s1 s2
    have h1 : Keeps s s1 := h.setLhCore h.localMem
    have h2 : Keeps s s2 := h1.branchPacket.setPc
    exact .ite h2.takeInterrupt.traceEvent h2.comparators

protected theorem Keeps.execCoreBranch (h : Keeps s t) : Answers s (execCoreBranch x exception notTaken' target t) :=
  .next h.coreBranch

protected theorem Keeps.accessException (h : Keeps s t) : Keeps s (accessException core' pc t) :=
  h.takeFree.takeFree.coreBranch

protected theorem Keeps.dataPacket (h : Keeps s t) : Keeps s (dataPacket core' store addr t) := by
  unfold dataPacket
  dsimp only
  split
  · exact h.powerSync.startSync.emit.update
  · exact h

protected theorem Keeps.reservations (h : Keeps s t) : Keeps s (reservations core' kind' addr t) := by
  unfold reservations
  dsimp only
  split
  · exact (Keeps.setLhCore (by split; exacts [h.setLhCore h.localMem, h.setLhCore h.localMem, h]) h.localMem)
  · split
    · exact h.setLhCore h.localMem
    · exact h.setLhCore h.localMem
    · exact h

protected theorem Keeps.coreDataAccess (h : Keeps s t) : Keeps s (coreDataAccess core' pc kind' addr t) := by
  unfold coreDataAccess
  dsimp only
  split
  · exact h
  · split
    · exact h.accessException
    · exact h.setPc.reservations.dataPacket.setPc.comparators

protected theorem Keeps.execCoreDataAccess (h : Keeps s t) : Answers s (execCoreDataAccess x kind' addr t) :=
  .next h.coreDataAccess

protected theorem Keeps.coreSleep (h : Keeps s t) : Keeps s (coreSleep core' pc t) := by
  unfold coreSleep
  dsimp only
  split
  · exact h
  · exact (Keeps.ite h.setBit.setPc.powerSync.emit h.setBit.setPc).comparators

protected theorem Keeps.execCoreSleep (h : Keeps s t) : Answers s (execCoreSleep x t) :=
  .next h.coreSleep

protected theorem Keeps.coreWake (h : Keeps s t) : Keeps s (coreWake core' t) := by
  unfold coreWake
  dsimp only
  split
  · exact h
  · split
    · exact h.setBit.takeInterrupt.powerSync.emitSync
    · exact h.setBit.takeInterrupt

protected theorem Keeps.execCoreWake (h : Keeps s t) : Answers s (execCoreWake core' t) :=
  .next h.coreWake

/-! ## Machine/Regs -/

protected theorem Keeps.traceMsg (h : Keeps s t) : Keeps s (traceMsg writer v t) := by
  unfold traceMsg
  dsimp only
  split
  · exact h
  · split
    · exact h.offAccess
    · exact (Keeps.ite h.powerSync.emit h).traceEvent

/-! ## Machine/Trace -/

protected theorem Keeps.execTraceMsg (h : Keeps s t) : Answers s (execTraceMsg writer value t) :=
  .next (by split; exacts [h.traceMsg, h.performed h.traceMsg])

protected theorem Keeps.traceHarbour (h : Keeps s t) : Keeps s (traceHarbour record t).2 := by
  unfold traceHarbour
  split
  · exact h.powerSync.emit
  · exact h

protected theorem Keeps.traceCtrlWrite (h : Keeps s t) : Keeps s (traceCtrlWrite v t) := by
  unfold traceCtrlWrite
  dsimp only
  split
  · exact (Keeps.ite h.writeFields.setBit.setBits.update.traceRestart h.writeFields).traceTrigger
  · split
    · exact h.writeFields.setBit.setBits.update.traceRestart
    · exact h.writeFields

protected theorem Keeps.traceLost (h : Keeps s t) : Keeps s (traceLost t) :=
  h.withMemories rfl rfl (fun _ => h.designMem) (fun _ => h.serviceMem) (fun _ => h.ddrMem) (fun _ => h.localMem)
    h.traceBuffer.loseContents h.cairnNvm

/-! ## Machine/Capture -/

protected theorem Keeps.setAcq (h : Keeps s t) : Keeps s (setAcq x t) :=
  h.update

protected theorem Keeps.captureBytes (h : Keeps s t) : Keeps s (captureBytes p offset bs t) :=
  h.ddrSettle.setDdr h.ddrSettle.ddrMem.writeBytes

protected theorem Keeps.showOffsets (h : Keeps s t) : Keeps s (showOffsets t) :=
  h.setReg.setReg.setReg.setReg

protected theorem Keeps.recordAwait (h : Keeps s t) : Keeps s (recordAwait c n t) := by
  induction n generalizing t with
  | zero => exact h
  | succ n ih =>
    unfold recordAwait
    split
    next e => exact h.setTurn e
    next => exact ih h.designBurst

protected theorem Keeps.writeAcqRecord (h : Keeps s t) : Keeps s (writeAcqRecord index bs t) :=
  h.recordAwait.captureBytes

protected theorem Keeps.writeAcqRecords (h : Keeps s t) : Keeps s (writeAcqRecords t) :=
  (h.foldl fun _ _ h1 => h1.writeAcqRecord).bumpBits.setAcq

protected theorem Keeps.captureDone (h : Keeps s t) : Keeps s (captureDone t) := by
  unfold captureDone
  split
  · exact h.setAcq.setBit.setBit.raiseCause
  · exact h

protected theorem Keeps.drainBurst (h : Keeps s t) : Keeps s (drainBurst t) :=
  (h.foldl fun _ _ h1 => h1.captureBytes).setAcq.showOffsets.writeAcqRecords.captureDone

protected theorem Keeps.captureBurst (h : Keeps s t) : Keeps s (captureBurst c t) := by
  unfold captureBurst
  split
  next e => exact (h.setTurn e).drainBurst
  next => exact h

protected theorem Keeps.ddrAwait (h : Keeps s t) : Keeps s (ddrAwait c k n t) := by
  induction n generalizing t with
  | zero => exact h
  | succ n ih =>
    unfold ddrAwait
    split
    next e => exact h.setTurn e
    next => exact ih (.ite h.designBurst h.captureBurst)

protected theorem Keeps.ddrReach (h : Keeps s t) : Keeps s (ddrReach c k a n t) :=
  (h.forUpTo fun _ _ h1 => h1.ddrAwait).ddrSettle

protected theorem Keeps.bar4Read (h : Keeps s t) : Keeps s (bar4Read offset es t) := by
  unfold bar4Read
  dsimp only
  split
  · exact h.offAccess.answer
  · split
    · exact h.setBit.answer
    · exact h.ddrReach.answer

protected theorem Keeps.bar4Write (h : Keeps s t) : Keeps s (bar4Write offset bs t) := by
  unfold bar4Write
  dsimp only
  split
  · exact h.offAccess
  · split
    · exact h.setBit
    · exact h.ddrReach.setDdr h.ddrReach.ddrMem.writeEnabled

protected theorem Keeps.bar4Access (h : Keeps s t) : Keeps s (bar4Access offset length x t) := by
  induction x with
  | ecrcBad y ih =>
    unfold bar4Access
    exact .ite h.pcieError ih
  | read es =>
    unfold bar4Access
    exact .ite h (h.performedRead h.bar4Read)
  | write bs poisoned =>
    unfold bar4Access
    exact .ite h (h.performed (.ite h.pcieError h.bar4Write))

protected theorem Keeps.execBar4Access (h : Keeps s t) : Answers s (execBar4Access offset length write t) :=
  .next h.bar4Access

protected theorem Keeps.bar4WinWrite (h : Keeps s t) : Keeps s (bar4WinWrite v t) :=
  h.performed h.writeFields

protected theorem Keeps.execBar4WinWrite (h : Keeps s t) : Answers s (execBar4WinWrite value t) :=
  .next h.bar4WinWrite

protected theorem Keeps.lhDdrRead (h : Keeps s t) : Keeps s (lhDdrRead offset n t).2 := by
  unfold lhDdrRead
  extract_lets p
  split
  · exact h.offAccess
  · split
    · exact h.ddrReach
    · exact h.update

protected theorem Keeps.lhDdrWrite (h : Keeps s t) : Keeps s (lhDdrWrite offset bs t) := by
  unfold lhDdrWrite
  dsimp only
  split
  · exact h.offAccess
  · split
    · exact h.ddrReach.setDdr h.ddrReach.ddrMem.writeBytes
    · exact h

/-! ## Machine/Harbour -/

protected theorem Keeps.setHb (h : Keeps s t) : Keeps s (setHb t h') :=
  h.update

protected theorem Keeps.setDelayList (h : Keeps s t) : Keeps s (setDelayList t l d) :=
  h.setHb

protected theorem Keeps.addReady (h : Keeps s t) : Keeps s (addReady p t' t) :=
  h.setHb

protected theorem Keeps.hbTrace (h : Keeps s t) : Keeps s (hbTrace event tag aux t) := by
  unfold hbTrace
  dsimp only
  split
  · split
    · exact h.traceHarbour
    · exact h.traceHarbour.bumpBits
  · exact h

protected theorem Keeps.hbError (h : Keeps s t) : Keeps s (hbError tag status t) :=
  h.setBits.setBits.bumpBits

protected theorem Keeps.placeTask (h : Keeps s t) : Keeps s (placeTask t' t) := by
  unfold placeTask
  dsimp only
  split
  · exact h.setDelayList.hbTrace
  · exact h.addReady

protected theorem Keeps.acceptOperand (h : Keeps s t) : Keeps s (acceptOperand o t).2 := by
  unfold acceptOperand
  dsimp only
  split
  · exact h.hbTrace.hbError.signal.hbTrace
  · split
    · exact h.hbTrace.setHb.setBits
    · exact h.hbTrace.setHb.setBits.setHb.hbTrace.placeTask

protected theorem Keeps.acceptPacket (h : Keeps s t) : Keeps s (acceptPacket p t) := by
  unfold acceptPacket
  dsimp only
  split <;> exact h.setNi.setHb.acceptOperand.respond

protected theorem Keeps.acceptHost (h : Keeps s t) : Keeps s (acceptHost t) := by
  unfold acceptHost
  dsimp only
  split
  · exact h.setHb.setHb.acceptOperand
  · split
    · exact h.setHb
    · split
      · exact h.setHb
      · exact h.setHb.setHb.acceptOperand

protected theorem Keeps.acceptOne (h : Keeps s t) : Keeps s (acceptOne t) := by
  unfold acceptOne
  split
  · exact h
  · split
    · exact h.setHb.acceptOperand
    · split
      · split
        · exact h.acceptHost
        · exact h.acceptPacket
      · split
        · exact h.acceptHost
        · exact h

protected theorem Keeps.releaseFrom (h : Keeps s t) (e : releaseFrom l t = some u) : Keeps s u := by
  unfold releaseFrom at e
  dsimp only at e
  split at e <;> cases e
  exact h.setDelayList.addReady.hbTrace

protected theorem Keeps.releaseOne (h : Keeps s t) : Keeps s (releaseOne t) := by
  unfold releaseOne
  cases e : (List.range 4).findSome? fun l => releaseFrom l t with
  | none => exact h
  | some u =>
    obtain ⟨l, -, hl⟩ := List.exists_of_findSome?_eq_some e
    exact h.releaseFrom hl

protected theorem Keeps.parkTask (h : Keeps s t) : Keeps s (parkTask t' action t) :=
  h.setHb.hbTrace

protected theorem Keeps.endTask (h : Keeps s t) : Keeps s (endTask t' status t) := by
  unfold endTask
  dsimp only
  refine Keeps.ite ?_ ?_
  · exact (Keeps.ite h.hbTrace h.hbTrace.hbError.signal).setHb
  · refine Keeps.ite ?_ ?_
    · exact h.hbTrace
    · exact h.hbTrace.hbError.signal

protected theorem Keeps.joinPark (h : Keeps s t) : Keeps s (joinPark before t) :=
  h.foldl fun _ _ h1 => h1.foldl fun _ _ h2 => (Keeps.ite h2.setHb.parkTask h2)

protected theorem Keeps.dispatchOne (h : Keeps s t) : Keeps s (dispatchOne before t) := by
  unfold dispatchOne
  dsimp only
  split
  · exact h
  · split
    · exact h.joinPark
    · split
      · exact h.joinPark.setHb.hbTrace.endTask
      · exact h.joinPark.setHb.hbTrace.setHb

protected theorem Keeps.harbourCycle (h : Keeps s t) : Keeps s (harbourCycle t) := by
  unfold harbourCycle
  split
  · exact h
  · exact h.acceptOne.releaseOne.dispatchOne

protected theorem Keeps.execHarbourCycle (h : Keeps s t) : Answers s (execHarbourCycle t) :=
  .next h.harbourCycle

protected theorem Keeps.dlistTick (h : Keeps s t) : Keeps s (dlistTick l t) := by
  unfold dlistTick
  dsimp only
  split
  · exact h
  · exact h.setDelayList

protected theorem Keeps.execDlistTick (h : Keeps s t) : Answers s (execDlistTick list t) :=
  .next h.dlistTick

protected theorem Keeps.setAction (h : Keeps s t) : Keeps s (setAction x phase t) :=
  h.setHb

protected theorem Keeps.setParked (h : Keeps s t) : Keeps s (setParked p q t) :=
  h.setHb

protected theorem Keeps.park (h : Keeps s t) : Keeps s (park x t) :=
  h.setHb.parkTask

protected theorem Keeps.unpark (h : Keeps s t) : Keeps s (unpark p status t) :=
  h.setHb.hbTrace

protected theorem Keeps.actionEnd (h : Keeps s t) : Keeps s (actionEnd t) := by
  unfold actionEnd
  split
  · exact h
  · split
    · exact h.setHb.endTask
    · exact h

protected theorem Keeps.execActionEnd (h : Keeps s t) : Answers s (execActionEnd t) :=
  .next h.actionEnd

protected theorem Keeps.advanceHead (h : Keeps s t) : Keeps s (advanceHead k t) :=
  h.setBits

protected theorem Keeps.hostWrite_ (h : Keeps s t) : Keeps s (hostWrite_ a bs t) :=
  h.update

protected theorem Keeps.writeBack (h : Keeps s t) : Keeps s (writeBack k time low high t) :=
  h.hostWrite_.hostWrite_.advanceHead

protected theorem Keeps.deliverMessage (h : Keeps s t) : Keeps s (deliverMessage t' buffer t) := by
  unfold deliverMessage
  dsimp only
  split
  · exact h.hostWrite_.writeBack.raiseCause
  · exact h.hostWrite_.writeBack

protected theorem Keeps.hostMessage (h : Keeps s t) : Keeps s (hostMessage buffer t) := by
  unfold hostMessage
  dsimp only
  split
  · exact h
  · split
    · split
      · exact h.deliverMessage.unpark
      · exact h.unpark
    · split
      · exact h
      · split
        · exact h.setAction
        · split
          · exact h.deliverMessage.setAction
          · exact h.park

protected theorem Keeps.execHostMessage (h : Keeps s t) : Answers s (execHostMessage buffer t) :=
  .next h.hostMessage

protected theorem Keeps.txFetch (h : Keeps s t) : Keeps s (txFetch k irq ws t) := by
  unfold txFetch
  split
  · exact h.setHb
  · exact h

protected theorem Keeps.execTxDescriptorFetch (h : Keeps s t) : Answers s (execTxDescriptorFetch k irq words t) :=
  .next h.txFetch

protected theorem Keeps.txEnd (h : Keeps s t) : Keeps s (txEnd k status d t) := by
  unfold txEnd
  dsimp only
  split
  · exact h.setHb.writeBack.raiseCause
  · exact h.setHb.writeBack

protected theorem Keeps.txWriteBack (h : Keeps s t) : Keeps s (txWriteBack k t) := by
  unfold txWriteBack
  split
  · split
    · exact h.txEnd
    · exact h
  · exact h

protected theorem Keeps.execTxWriteBack (h : Keeps s t) : Answers s (execTxWriteBack k t) :=
  .next h.txWriteBack

protected theorem Keeps.ringTailWrite (h : Keeps s t) : Keeps s (ringTailWrite k v t) := by
  unfold ringTailWrite
  split
  · exact h.writeFields
  · exact h.offAccess

protected theorem Keeps.execRingTailWrite (h : Keeps s t) : Answers s (execRingTailWrite k value t) :=
  .next (h.performed h.ringTailWrite)

protected theorem Keeps.ringCfgWrite (h : Keeps s t) : Keeps s (ringCfgWrite k v t) := by
  unfold ringCfgWrite
  dsimp only
  split
  · exact h.offAccess
  · split
    · exact h.writeFields
    · exact h.writeFields.setHb.setBits.setBits

protected theorem Keeps.execRingEnable (h : Keeps s t) : Answers s (execRingEnable k value t) :=
  .next (h.performed h.ringCfgWrite)

protected theorem Keeps.haltRing (h : Keeps s t) : Keeps s (haltRing k t) :=
  h.setHb

protected theorem Keeps.operandError (h : Keeps s t) : Keeps s (operandError k irq t) :=
  h.txEnd

protected theorem Keeps.windowDeliver (h : Keeps s t) : Keeps s (windowDeliver high t) := by
  unfold windowDeliver
  dsimp only
  split
  · exact h.bumpBits.signal
  · exact h.setHb

protected theorem Keeps.windowWrite (h : Keeps s t) : Keeps s (windowWrite low high t) := by
  unfold windowWrite
  dsimp only
  split
  · exact h.offAccess
  · split
    · exact (Keeps.windowDeliver (by split; exacts [h.setHb, h]))
    · split
      · exact h.setHb
      · exact h

protected theorem Keeps.execMessageWindowWrite (h : Keeps s t) : Answers s (execMessageWindowWrite low high t) :=
  .next (h.performed h.windowWrite)

protected theorem Keeps.hbWriteWord (h : Keeps s t) : Keeps s (hbWriteWord a w t) := by
  unfold hbWriteWord
  split
  · exact h.setDdr h.ddrMem.writeDWord
  · exact h.setServiceMem h.serviceMem.writeDWord
  · exact h
  · exact h

protected theorem Keeps.hbTouch (h : Keeps s t) : Keeps s (hbTouch turn a n t) := by
  unfold hbTouch
  split
  · split
    · exact h.ddrReach
    · exact h.ddrSettle
  · exact h

protected theorem Keeps.hbCopy (h : Keeps s t) : Keeps s (hbCopy src dst n t) :=
  h.forUpTo fun _ _ h1 => h1.hbWriteWord

protected theorem Keeps.refuseRange (h : Keeps s t) : Keeps s (refuseRange a status t) := by
  unfold refuseRange
  split
  · split
    · exact h.notOwned
    · exact h
  · exact h

protected theorem Keeps.hbRequest (h : Keeps s t) : Keeps s (hbRequest vc kind' dst tag payload t) := by
  unfold hbRequest
  dsimp only
  split
  · exact h.setNi.inject
  · exact h.setNi.setNi.signal

protected theorem Keeps.hbTake (h : Keeps s t) : Keeps s (hbTake tag p t) :=
  h.setNi.releaseTag

protected theorem Keeps.moveFetch (h : Keeps s t) : Keeps s (moveFetch x k t) := by
  unfold moveFetch
  dsimp only
  split
  · split
    · exact h
    · exact h.hbRequest.setAction
  · exact h.hbTouch.setAction

protected theorem Keeps.moveStore (h : Keeps s t) : Keeps s (moveStore x k w t) := by
  unfold moveStore
  dsimp only
  split
  · split
    · exact h
    · exact h.hbRequest.setAction
  · split
    · split
      · exact h
      · exact h.hbRequest.setAction
    · exact h.hbTouch.hbWriteWord.setAction

protected theorem Keeps.takeAnswer (h : Keeps s t) : Keeps s (takeAnswer x tag next t) := by
  unfold takeAnswer
  split
  · exact h
  · exact h.hbTake.setAction

protected theorem Keeps.moveOn (h : Keeps s t) : Keeps s (moveOn x t) := by
  unfold moveOn
  split
  · split
    · exact h.setAction
    · exact h.moveFetch
  · exact h.takeAnswer
  · exact h.moveStore
  · exact h.takeAnswer
  · exact h
  · exact h
  · exact h

protected theorem Keeps.moverStart (h : Keeps s t) : Keeps s (moverStart x t) := by
  unfold moverStart
  dsimp only
  split
  · exact h.refuseRange.setAction
  · split
    · exact h.refuseRange.setAction
    · split
      · exact h.setAction
      · exact h.hbTouch.hbTouch.hbCopy.setAction

protected theorem Keeps.blockMover (h : Keeps s t) : Keeps s (blockMover t) := by
  unfold blockMover
  split
  · exact h
  · split
    · exact h.moverStart
    · exact h.moveOn

protected theorem Keeps.execBlockMover (h : Keeps s t) : Answers s (execBlockMover t) :=
  .next h.blockMover

protected theorem Keeps.sendProbe (h : Keeps s t) : Keeps s (sendProbe t' tag t) :=
  h.hbRequest

protected theorem Keeps.loopBack (h : Keeps s t) : Keeps s (loopBack t) := by
  unfold loopBack
  split
  · exact h
  · split
    · exact h.park
    · split
      · exact h
      · exact h.sendProbe.setAction

protected theorem Keeps.execLoopBack (h : Keeps s t) : Answers s (execLoopBack t) :=
  .next h.loopBack

protected theorem Keeps.sendWords (h : Keeps s t) : Keeps s (sendWords t' tag t) :=
  h.inject

protected theorem Keeps.answerAction (h : Keeps s t) : Keeps s (answerAction x p t) := by
  unfold answerAction
  dsimp only
  split
  · exact h.setAction
  · split
    · exact h.sendWords.setAction
    · split
      · exact h.setAction
      · exact h.park

protected theorem Keeps.answerParked (h : Keeps s t) : Keeps s (answerParked q p t) := by
  unfold answerParked
  dsimp only
  split
  · exact h.unpark
  · split
    · exact h.sendWords.unpark
    · split
      · exact h.unpark
      · exact h.setParked

protected theorem Keeps.reservationAnswer (h : Keeps s t) : Keeps s (reservationAnswer t) := by
  unfold reservationAnswer
  dsimp only
  split
  · exact h
  · split
    · exact h.hbTake.answerAction
    · split
      · exact h.hbTake.answerParked
      · exact h.hbTake

protected theorem Keeps.execReservationAnswer (h : Keeps s t) : Answers s (execReservationAnswer t) :=
  .next h.reservationAnswer

protected theorem Keeps.parkReprobe (h : Keeps s t) : Keeps s (parkReprobe t) :=
  h.foldl fun _ _ h1 => (Keeps.ite h1 (by split; exacts [h1, h1.setParked.sendProbe]))

protected theorem Keeps.execParkReprobe (h : Keeps s t) : Answers s (execParkReprobe t) :=
  .next h.parkReprobe

protected theorem Keeps.parkTimeout (h : Keeps s t) : Keeps s (parkTimeout t) := by
  unfold parkTimeout
  split
  · exact h
  · split
    · exact h
    · exact h.setParked.signal

protected theorem Keeps.execHbParkTimeout (h : Keeps s t) : Answers s (execHbParkTimeout t) :=
  .next h.parkTimeout

protected theorem Keeps.harbourEnable (h : Keeps s t) : Keeps s (harbourEnable on t) := by
  unfold harbourEnable
  split
  · exact h.setBit
  · exact h.offAccess

protected theorem Keeps.execHarbourEnable (h : Keeps s t) : Answers s (execHarbourEnable on t) :=
  .next h.harbourEnable

protected theorem Keeps.hbEmpty (h : Keeps s t) : Keeps s (hbEmpty t) :=
  h.setHb

protected theorem Keeps.flush (h : Keeps s t) : Keeps s (flush t) := by
  unfold flush
  split
  · exact h.offAccess
  · split
    · exact h.hbEmpty
    · exact h.setBit

protected theorem Keeps.execFlush (h : Keeps s t) : Answers s (execFlush t) :=
  .next h.flush

protected theorem Keeps.hbLost (h : Keeps s t) : Keeps s (hbLost t) :=
  h.setHb

protected theorem Keeps.hbCfgWrite (h : Keeps s t) : Keeps s (hbCfgWrite a v t) := by
  unfold hbCfgWrite
  split
  · exact h.setBit
  · split
    · exact h.setBit
    · exact h.writeFields

/-! ## Machine/Run -/

protected theorem Keeps.setThermal (h : Keeps s t) : Keeps s (setThermal r f t) :=
  h.update

protected theorem Keeps.applyClk (h : Keeps s t) : Keeps s (applyClk r t) :=
  h.setBits.setBit

protected theorem Keeps.clkOpportunity (h : Keeps s t) : Keeps s (clkOpportunity r t) :=
  (Keeps.ite h.setThermal h).applyClk

protected theorem Keeps.applyClocks (h : Keeps s t) : Keeps s (applyClocks t) :=
  h.forUpTo fun _ _ h1 => h1.clkOpportunity

protected theorem Keeps.applyFree (h : Keeps s t) : Keeps s (applyFree t) :=
  h.forUpTo fun _ _ h1 => (Keeps.ite h1.clkOpportunity h1)

protected theorem Keeps.setRun (h : Keeps s t) : Keeps s (setRun r t) := by
  unfold setRun
  dsimp only
  split
  · exact h.update.applyFree.raiseCause
  · exact h.update.raiseCause
  · exact h.update

protected theorem Keeps.addCause (h : Keeps s t) : Keeps s (addCause b t) :=
  h.setBit

protected theorem Keeps.cmdRefused (h : Keeps s t) : Keeps s (cmdRefused t) :=
  h.setBit

protected theorem Keeps.freezeRequest (h : Keeps s t) : Keeps s (freezeRequest b t) :=
  h.update

protected theorem Keeps.sendHold (h : Keeps s t) : Keeps s (sendHold t) :=
  h.update.sendTokens

protected theorem Keeps.stopDevice (h : Keeps s t) : Keeps s (stopDevice b t) := by
  unfold stopDevice
  dsimp only
  split
  · exact h.update
  · split
    · exact h.update.addCause.setRun.sendHold
    · exact h

protected theorem Keeps.freezeCmd (h : Keeps s t) : Keeps s (freezeCmd t) := by
  unfold freezeCmd
  split
  · exact h.freezeRequest
  · exact h.cmdRefused

protected theorem Keeps.execFreeze (h : Keeps s t) : Answers s (execFreeze t) :=
  .next h.freezeCmd

protected theorem Keeps.resumeRun (h : Keeps s t) : Keeps s (resumeRun steps t) := by
  unfold resumeRun
  dsimp only
  split
  · split
    · exact h.setBits.setBit.update.sendTokens
    · exact h.setBits.setBit.update
  · exact h.setBits.setBit.update

protected theorem Keeps.endPause (h : Keeps s t) : Keeps s (endPause t) := by
  unfold endPause
  dsimp only
  split
  · split
    · exact h.setBit.resumeRun
    · exact h.setBit
  · exact h

protected theorem Keeps.runCmd (h : Keeps s t) : Keeps s (runCmd t) := by
  unfold runCmd
  split
  · exact h.resumeRun
  · exact h.cmdRefused

protected theorem Keeps.execRun (h : Keeps s t) : Answers s (execRun t) :=
  .next h.runCmd

protected theorem Keeps.stepCmd (h : Keeps s t) : Keeps s (stepCmd t) := by
  unfold stepCmd
  split
  · exact h.resumeRun
  · exact h.cmdRefused

protected theorem Keeps.execStep (h : Keeps s t) : Answers s (execStep t) :=
  .next h.stepCmd

protected theorem Keeps.stopCmd (h : Keeps s t) : Keeps s (stopCmd t) := by
  unfold stopCmd
  split
  · exact h.stopDevice
  · exact h.cmdRefused

protected theorem Keeps.execStop (h : Keeps s t) : Answers s (execStop t) :=
  .next h.stopCmd

protected theorem Keeps.freezeAt (h : Keeps s t) : Keeps s (freezeAt v t) := by
  unfold freezeAt
  dsimp only
  split
  · exact h.writeFields.update.setBit.freezeRequest
  · exact h.writeFields.update

protected theorem Keeps.execFreezeAt (h : Keeps s t) : Answers s (execFreezeAt value t) :=
  .next h.freezeAt

protected theorem Keeps.runCtrlWrite (h : Keeps s t) : Keeps s (runCtrlWrite v t) := by
  unfold runCtrlWrite
  split
  · exact h
  · exact h.stopCmd
  · exact h.stepCmd
  · exact h.runCmd
  · exact h.freezeCmd
  · exact h.cmdRefused

protected theorem Keeps.disableForces (h : Keeps s t) : Keeps s (disableForces n t) :=
  h.foldl fun _ _ h1 => h1.setBit

protected theorem Keeps.enterHold (h : Keeps s t) : Keeps s (enterHold r t) := by
  unfold enterHold
  dsimp only
  split
  · exact (h.foldl fun _ _ h1 => h1.setClu.disableForces).setBit.clkOpportunity
  · exact (h.foldl fun _ _ h2 => h2.setClu.disableForces).setBit

protected theorem Keeps.dropWaiting (h : Keeps s t) : Keeps s (dropWaiting r t) :=
  h.foldl fun _ _ h1 => h1.setClu

protected theorem Keeps.invalidate (h : Keeps s t) : Keeps s (invalidate r t) :=
  (Keeps.ite h.dropWaiting h).setBit

protected theorem Keeps.invalidateAll (h : Keeps s t) : Keeps s (invalidateAll t) :=
  (h.forUpTo fun _ _ h1 => h1.dropWaiting).setBits

protected theorem Keeps.raiseBreakwater (h : Keeps s t) : Keeps s (raiseBreakwater r safe t) :=
  h.update

protected theorem Keeps.dropBreakwater (h : Keeps s t) : Keeps s (dropBreakwater r t) :=
  h.update

protected theorem Keeps.reloadFails (h : Keeps s t) : Keeps s (reloadFails code t) :=
  (Keeps.ite (Keeps.ite h h.raiseBreakwater) (Keeps.ite h h.raiseBreakwater).enterHold).invalidate.setBits.setBits.setBits.update.raiseCause

protected theorem Keeps.removeReach (h : Keeps s t) : Keeps s (removeReach r safe t) :=
  (Keeps.ite (Keeps.ite (Keeps.ite h.raiseBreakwater (Keeps.ite h.update h)).enterHold (Keeps.ite h.raiseBreakwater (Keeps.ite h.update h))).reloadFails (Keeps.ite (Keeps.ite h.raiseBreakwater (Keeps.ite h.update h)).enterHold (Keeps.ite h.raiseBreakwater (Keeps.ite h.update h)))).invalidate

/-! ## Machine/Faults -/

protected theorem Keeps.queueRecord (h : Keeps s t) : Keeps s (queueRecord r t).2 := by
  unfold queueRecord
  dsimp only
  split
  · exact h.update
  · exact h

protected theorem Keeps.addRecord (h : Keeps s t) : Keeps s (addRecord kind' payload t) :=
  h.queueRecord

protected theorem Keeps.scanSlots (h : Keeps s t) : Keeps s (scanSlots t) :=
  h.update

/-- The bytes of the Cairn ring are replaced. -/
protected theorem Keeps.withNvm (h : Keeps s t) {y : Cairn} (hm : MemOk s y.nvm) : Keeps s { t with cairn := y } :=
  h.withMemories rfl rfl (fun _ => h.designMem) (fun _ => h.serviceMem) (fun _ => h.ddrMem) (fun _ => h.localMem)
    h.traceBuffer hm

protected theorem Keeps.writeSlotBytes (h : Keeps s t) : Keeps s (writeSlotBytes slot bs t) :=
  h.withNvm h.cairnNvm.writeBytes

protected theorem Keeps.cairnCommit (h : Keeps s t) : Keeps s (cairnCommit ok t) := by
  unfold cairnCommit
  split
  · exact h
  · split
    · exact h
    · extract_lets slot n s1 _ x s2 s3 _
      have h1 : Keeps s s1 := h.writeSlotBytes
      have h3 : Keeps s s3 := h.takeFree.writeSlotBytes.setBit.signal
      clear_value s1
      split
      · exact h1.update
      · clear_value s3
        split <;> exact h3.update


protected theorem Keeps.execCairnCommit (h : Keeps s t) : Answers s (execCairnCommit readBackOk t) :=
  .next h.cairnCommit

protected theorem Keeps.commitAll (h : Keeps s t) : Keeps s (commitAll t) :=
  h.foldl fun _ _ h1 => h1.cairnCommit

protected theorem Keeps.cairnWrite (h : Keeps s t) : Keeps s (cairnWrite t) := by
  unfold cairnWrite
  dsimp only
  split
  · exact h.queueRecord.update
  · exact h.setBit

protected theorem Keeps.execCairnWrite (h : Keeps s t) : Answers s (execCairnWrite t) :=
  .next h.cairnWrite

protected theorem Keeps.cairnErase (h : Keeps s t) : Keeps s (cairnErase footpath t) := by
  unfold cairnErase
  split
  · exact h.update
  · exact h.setBit

protected theorem Keeps.execErase (h : Keeps s t) : Answers s (execErase footpath t) :=
  .next h.cairnErase

protected theorem Keeps.eraseDone (h : Keeps s t) : Keeps s (eraseDone t) := by
  unfold eraseDone
  dsimp only
  split
  · exact h.withNvm (MemOk.of_wf zeroContents_wf).writeBytes
  · exact h

protected theorem Keeps.execEraseDone (h : Keeps s t) : Answers s (execEraseDone t) :=
  .next h.eraseDone

protected theorem Keeps.countEvent (h : Keeps s t) : Keeps s (countEvent e t) := by
  unfold countEvent
  dsimp only
  split
  · exact h.bumpBits.setReg.setReg
  · exact h.bumpBits.setReg.setReg.setReg.setReg.setBit

protected theorem Keeps.logEvent (h : Keeps s t) : Keeps s (logEvent e t) := by
  unfold logEvent
  dsimp only
  split
  · exact h
  · split
    · exact h.queueRecord.update
    · exact h.update

protected theorem Keeps.pendEvent (h : Keeps s t) : Keeps s (pendEvent e t) := by
  unfold pendEvent
  dsimp only
  split
  · exact h
  · exact h.setBit.update.raiseCause

protected theorem Keeps.enterSafe (h : Keeps s t) : Keeps s (enterSafe t) :=
  h.update

protected theorem Keeps.react (h : Keeps s t) : Keeps s (react es t) := by
  unfold react
  dsimp only
  split
  · exact ((Keeps.ite (Keeps.ite (Keeps.ite (Keeps.ite h.addCause h.freezeRequest) h).stopDevice (Keeps.ite (Keeps.ite h.addCause h.freezeRequest) h)).enterSafe (Keeps.ite (Keeps.ite (Keeps.ite h.addCause h.freezeRequest) h).stopDevice (Keeps.ite (Keeps.ite h.addCause h.freezeRequest) h))).foldl fun _ _ h1 => h1.removeReach).update
  · exact (Keeps.ite (Keeps.ite (Keeps.ite (Keeps.ite h.addCause h.freezeRequest) h).stopDevice (Keeps.ite (Keeps.ite h.addCause h.freezeRequest) h)).enterSafe (Keeps.ite (Keeps.ite (Keeps.ite h.addCause h.freezeRequest) h).stopDevice (Keeps.ite (Keeps.ite h.addCause h.freezeRequest) h))).foldl fun _ _ h2 => h2.removeReach

protected theorem Keeps.collectFaults (h : Keeps s t) : Keeps s (collectFaults t) := by
  unfold collectFaults
  dsimp only
  split
  · exact h.update
  · exact (Keeps.ite (Keeps.ite (h.update.foldl fun _ _ h1 => h1.countEvent.logEvent.pendEvent).traceEvent (h.update.foldl fun _ _ h2 => h2.countEvent.logEvent.pendEvent)).traceTrigger (Keeps.ite (h.update.foldl fun _ _ h3 => h3.countEvent.logEvent.pendEvent).traceEvent (h.update.foldl fun _ _ h4 => h4.countEvent.logEvent.pendEvent))).react

protected theorem Keeps.execFaultEvent (h : Keeps s t) : Answers s (execFaultEvent t) :=
  .next h.collectFaults

protected theorem Keeps.setSched (h : Keeps s t) : Keeps s (setSched x t) :=
  h.update

protected theorem Keeps.raiseHazards (h : Keeps s t) : Keeps s (raiseHazards t) := by
  unfold raiseHazards
  dsimp only
  split
  · exact h
  · exact (h.foldl fun _ _ h1 => (by split; exacts [h1.signal, h1])).setSched.collectFaults

protected theorem Keeps.dmaRecord (h : Keeps s t) : Keeps s (dmaRecord ring cause loader descriptor t) :=
  h.setReg

protected theorem Keeps.completionStatus (h : Keeps s t) : Keeps s (completionStatus cause t) :=
  h.pcieStatus

protected theorem Keeps.dmaFault (h : Keeps s t) : Keeps s (dmaFault ring cause loader descriptor t) := by
  unfold dmaFault
  dsimp only
  split
  · exact h.dmaRecord.completionStatus.pcieError.raiseCause
  · exact h.dmaRecord.completionStatus.pcieError

protected theorem Keeps.faultInject (h : Keeps s t) : Keeps s (faultInject footpath v t) := by
  unfold faultInject
  dsimp only
  split
  · exact h.writeFields
  · split
    · split
      · exact h.writeFields
      · exact h.writeFields.update
    · exact h.writeFields.setBit

protected theorem Keeps.execFaultInject (h : Keeps s t) : Answers s (execFaultInject footpath value t) :=
  .next h.faultInject

protected theorem Keeps.safeRelease (h : Keeps s t) : Keeps s (safeRelease t) := by
  unfold safeRelease
  split
  · exact h.setBit
  · split
    · exact h.update
    · exact h

protected theorem Keeps.execSafeRelease (h : Keeps s t) : Answers s (execSafeRelease t) :=
  .next h.safeRelease

protected theorem Keeps.execSevLock (h : Keeps s t) : Answers s (execSevLock t) :=
  .next h.setBit

protected theorem Keeps.keepCycleSev (h : Keeps s t) : Keeps s (keepCycleSev a t) := by
  unfold keepCycleSev
  split
  · exact h
  · exact h.update

protected theorem Keeps.sevWrite (h : Keeps s t) : Keeps s (sevWrite a v t) := by
  unfold sevWrite
  split
  · exact h.setBit
  · exact h.keepCycleSev.writeFields

/-! ## Machine/Selftest -/

protected theorem Keeps.bistStart (h : Keeps s t) : Keeps s (bistStart requested t) := by
  unfold bistStart
  extract_lets s1 s2 s3 s4
  have h1 : Keeps s s1 := h.scanSlots
  have h2 : Keeps s s2 := h1.forUpTo fun _ _ h2 => .ite h2.setBit h2
  have h4 : Keeps s s4 := h2.setBits.setBits.setReg.setReg.setBit
  exact h4.update

protected theorem Keeps.bistGo (h : Keeps s t) : Keeps s (bistGo t) := by
  unfold bistGo
  refine Keeps.ite ?_ ?_
  · exact h.bistStart
  · exact h.setBit

protected theorem Keeps.bistRun (h : Keeps s t) : Keeps s (bistRun t) := by
  unfold bistRun
  split
  · exact h.setBits
  · exact h.bistGo

protected theorem Keeps.execBistRun (h : Keeps s t) : Answers s (execBistRun t) :=
  .next h.bistRun

protected theorem Keeps.setMapping (h : Keeps s t) : Keeps s (setMapping x t) :=
  h.update

protected theorem Keeps.setPresence (h : Keeps s t) : Keeps s (setPresence x t) :=
  h.setReg.setReg.forUpTo fun _ _ h1 => h1.setReg

protected theorem Keeps.setDomains (h : Keeps s t) : Keeps s (setDomains t) :=
  h.forUpTo fun _ _ h1 => (Keeps.ite h1.setBit h1.setBit.setBit.setBits)

protected theorem Keeps.enableLinks (h : Keeps s t) : Keeps s (enableLinks t) :=
  h.forUpTo fun _ _ h1 => h1.setBit.checkLoops

/-- What a list without the entries of some keys shows of a key. -/
theorem look_filter {α : Type} {d : Nat → α} {m : Sparse α} {p : Nat → Bool} {k : Nat} :
    look d (m.filter fun x => p x.1) k = if p k then look d m k else d k := by
  induction m with
  | nil => simp [look]
  | cons x rest ih =>
    obtain ⟨a, v⟩ := x
    by_cases hp : p a <;> by_cases hk : k = a <;> simp_all [look]

protected theorem Keeps.bistMemories (h : Keeps s t) : Keeps s (bistMemories t) := by
  unfold bistMemories
  extract_lets _ s1
  have h1 : Keeps s s1 := by
    refine h.withMemories rfl rfl (fun _ => .zeroContents) (fun k => ?_) (fun _ => h.ddrMem) (fun _ => h.localMem)
      h.traceBuffer h.cairnNvm
    rw [show serviceMem s1 k = if decide (k < 8) then serviceMem t k else zeroContents from
      look_filter (p := fun k => decide (k < 8))]
    exact .ite h.serviceMem .zeroContents
  exact (h1.forUpTo fun _ _ h2 => .ite h2.setBit h2).setReg

protected theorem Keeps.showResults (h : Keeps s t) : Keeps s (showResults x t) :=
  (h.forUpTo fun _ _ h1 => h1.setReg).setReg.setReg.setBit.setBits.setBits

protected theorem Keeps.setLhState (h : Keeps s t) : Keeps s (setLhState v t) := by
  unfold setLhState
  dsimp only
  split
  · exact (Keeps.ite h.setBits.raiseCause h.setBits).traceEvent
  · split
    · exact h.setBits.raiseCause
    · exact h.setBits

protected theorem Keeps.startLanes (h : Keeps s t) : Keeps s (startLanes t) :=
  h.forUpTo fun _ _ h1 => (Keeps.ite h1.laneTrains h1)

protected theorem Keeps.bistDone (h : Keeps s t) : Keeps s (bistDone result t) := by
  unfold bistDone
  split
  · exact h
  · extract_lets x s1 s2 _ s3 _ s4 s5 s6 s7
    have h2 : Keeps s s2 := h.setMapping.bistMemories.showResults.setPresence.setDomains.enableLinks.startLanes
    have h3 : Keeps s s3 := h2.update
    have h4 : Keeps s s4 := .ite h3.takeFree.signal h3
    have h5 : Keeps s s5 := .ite h4.signal h4
    have h7 : Keeps s s7 := h5.addRecord.setBits.raiseCause.traceEvent
    exact .ite h7.setLhState h7

protected theorem Keeps.execBistDone (h : Keeps s t) : Answers s (execBistDone result t) :=
  .next h.bistDone

protected theorem Keeps.testGo (h : Keeps s t) : Keeps s (testGo footpath v t) := by
  unfold testGo
  dsimp only
  refine Keeps.ite ?_ ?_
  · refine Keeps.ite ?_ ?_
    · exact h.writeFields
    · exact h
  · refine Keeps.ite ?_ ?_
    · split
      · exact (Keeps.ite h.writeFields h).update.setBit.invalidate
      · exact (Keeps.ite h.writeFields h).update.setBit
    · exact (Keeps.ite h.writeFields h).setBit

protected theorem Keeps.execTestEngineGo (h : Keeps s t) : Answers s (execTestEngineGo footpath value t) :=
  .next h.testGo

protected theorem Keeps.marchCluster (h : Keeps s t) : Keeps s (marchCluster p t) := by
  unfold marchCluster
  split
  · exact h.setClu
  · exact h

protected theorem Keeps.testDone (h : Keeps s t) : Keeps s (testDone t) := by
  unfold testDone
  dsimp only
  split
  · exact h
  · split
    · exact h.setReg.setReg.update.setBit.marchCluster
    · exact h.setReg.setReg.update.setBit

protected theorem Keeps.execTestEngineDone (h : Keeps s t) : Answers s (execTestEngineDone t) :=
  .next h.testDone

/-! ## Machine/Power -/

protected theorem Keeps.setDomainState (h : Keeps s t) : Keeps s (setDomainState d v t) :=
  h.setBits

protected theorem Keeps.domainRequest (h : Keeps s t) : Keeps s (domainRequest d on t) := by
  unfold domainRequest
  dsimp only
  split
  · exact h.setBit
  · split
    · exact h.setBit.setDomainState
    · exact h.setBit

protected theorem Keeps.execDomainRequest (h : Keeps s t) : Answers s (execDomainRequest d on t) :=
  .next h.domainRequest

protected theorem Keeps.refuseWaiting (h : Keeps s t) : Keeps s (refuseWaiting d t) :=
  h.foldl fun _ _ h1 => h1.setNi.foldl fun _ _ h2 => h2.receiveClosed

protected theorem Keeps.domainClose (h : Keeps s t) : Keeps s (domainClose d t) := by
  unfold domainClose
  dsimp only
  split
  · split
    · exact h.update.setDomainState.refuseWaiting.setBit
    · exact h.update.setDomainState
  · exact h

protected theorem Keeps.execDomainClose (h : Keeps s t) : Answers s (execDomainClose d t) :=
  .next h.domainClose

protected theorem Keeps.dropBanks (h : Keeps s t) : Keeps s (dropBanks r t) :=
  h.forUpTo fun _ _ h1 => (Keeps.ite h1.bankPower h1)

protected theorem Keeps.selfRefresh (h : Keeps s t) : Keeps s (selfRefresh c t) :=
  h.setBit.setBit

protected theorem Keeps.drainDone (h : Keeps s t) : Keeps s (drainDone d t) := by
  unfold drainDone
  dsimp only
  split
  · exact (Keeps.ite h.dropBanks (Keeps.ite h.ddrDrain.selfRefresh h)).update
  · exact h

protected theorem Keeps.execDomainDrainDone (h : Keeps s t) : Answers s (execDomainDrainDone d t) :=
  .next h.drainDone

protected theorem Keeps.clearRegs (h : Keeps s t) : Keeps s (clearRegs lo hi t) :=
  h.withRegs rfl sparseWf_filter id

protected theorem Keeps.captureLost (h : Keeps s t) : Keeps s (captureLost t) :=
  h.update.endPause

protected theorem Keeps.loseCluster (h : Keeps s t) : Keeps s (loseCluster n t) :=
  h.setClu.clearRegs

protected theorem Keeps.domainLoses (h : Keeps s t) : Keeps s (domainLoses d t) := by
  unfold domainLoses
  dsimp only
  split
  · exact h.invalidate.foldl fun _ _ h1 => (Keeps.ite h1.loseCluster h1)
  · split
    · exact h.clearRegs.ddrAbandon.refuseWaiting.setBit
    · split
      · exact (((h.forUpTo fun _ _ h2 => h2.laneLeaves).clearRegs.foldl fun _ _ h3 => h3.resetLink).forUpTo fun _ _ h4 => h4.checkLoops).forUpTo fun _ _ h5 => h5.resetLane.setLaneState
      · split
        · exact h.traceLost.captureLost.clearRegs
        · split
          · exact (h.refuseWaiting.hbLost.foldl fun _ _ h6 => h6.setServiceMem h6.serviceMem.loseContents).clearRegs
          · exact h.foldl fun _ _ h7 => h7.invalidate.loseCluster

protected theorem Keeps.stampDomain (h : Keeps s t) : Keeps s (stampDomain d t) :=
  h.takeFree.setBits

protected theorem Keeps.domainClk (h : Keeps s t) : Keeps s (domainClk d t) := by
  unfold domainClk
  split
  · exact h.applyClk
  · exact h

protected theorem Keeps.domainOff (h : Keeps s t) : Keeps s (domainOff d t) := by
  unfold domainOff
  split
  · exact h.update.setDomainState.stampDomain.domainLoses.domainClk
  · exact h

protected theorem Keeps.execDomainOff (h : Keeps s t) : Answers s (execDomainOff d t) :=
  .next h.domainOff

protected theorem Keeps.domainOpen (h : Keeps s t) : Keeps s (domainOpen d t) := by
  unfold domainOpen
  split
  · exact h.update.setDomainState
  · exact h

protected theorem Keeps.execDomainOpen (h : Keeps s t) : Answers s (execDomainOpen d t) :=
  .next h.domainOpen

protected theorem Keeps.railInRange (h : Keeps s t) : Keeps s (railInRange d t) := by
  unfold railInRange
  split
  · exact h.update
  · exact h

protected theorem Keeps.execRailInRange (h : Keeps s t) : Answers s (execRailInRange d t) :=
  .next h.railInRange

protected theorem Keeps.domainFails (h : Keeps s t) : Keeps s (domainFails d info t) :=
  h.setBit.setDomainState.signal

protected theorem Keeps.raiseBanks (h : Keeps s t) : Keeps s (raiseBanks r t) :=
  h.forUpTo fun _ _ h1 => h1.bankPower

protected theorem Keeps.reopenDone (h : Keeps s t) : Keeps s (reopenDone t) := by
  unfold reopenDone
  dsimp only
  split
  · split
    · exact h.update.setLhState
    · exact h.update
  · exact h

protected theorem Keeps.railTimeout (h : Keeps s t) : Keeps s (railTimeout d t) := by
  unfold railTimeout
  split
  · exact h.domainFails.reopenDone
  · exact h

protected theorem Keeps.execRailTimeout (h : Keeps s t) : Answers s (execRailTimeout d t) :=
  .next h.railTimeout

protected theorem Keeps.domainOnDone (h : Keeps s t) : Keeps s (domainOnDone d t) := by
  unfold domainOnDone
  dsimp only
  split
  · exact (Keeps.ite h.update.setDomainState.stampDomain.domainClk.raiseBanks (Keeps.ite (h.update.setDomainState.stampDomain.forUpTo fun _ _ h1 => h1.laneToLock) h.update.setDomainState.stampDomain)).reopenDone
  · exact h

protected theorem Keeps.execDomainOn (h : Keeps s t) : Answers s (execDomainOn d t) :=
  .next h.domainOnDone

protected theorem Keeps.loseChannel (h : Keeps s t) : Keeps s (loseChannel c t) :=
  (h.setDdr h.ddrMem.loseContents).setBit

protected theorem Keeps.railOut (h : Keeps s t) : Keeps s (railOut d t) := by
  unfold railOut
  dsimp only
  split
  · exact (Keeps.ite (Keeps.ite (h.foldl fun _ _ h1 => h1.removeReach).dropBanks (h.foldl fun _ _ h2 => h2.removeReach)).domainFails.domainLoses.domainClk.loseChannel (Keeps.ite (h.foldl fun _ _ h3 => h3.removeReach).dropBanks (h.foldl fun _ _ h4 => h4.removeReach)).domainFails.domainLoses.domainClk).reopenDone
  · exact h

protected theorem Keeps.execRailOutOfRange (h : Keeps s t) : Answers s (execRailOutOfRange d t) :=
  .next h.railOut

protected theorem Keeps.reachClkWrite (h : Keeps s t) : Keeps s (reachClkWrite r v t) := by
  unfold reachClkWrite
  dsimp only
  split
  · exact h.writeFields.clkOpportunity
  · exact h.writeFields

protected theorem Keeps.fllCalibrate (h : Keeps s t) : Keeps s (fllCalibrate i t) := by
  unfold fllCalibrate
  split
  · exact h
  · exact h.update

protected theorem Keeps.execFllCalibrate (h : Keeps s t) : Answers s (execFllCalibrate island t) :=
  .next h.fllCalibrate

protected theorem Keeps.thermalStep (h : Keeps s t) : Keeps s (thermalStep r t) := by
  unfold thermalStep
  dsimp only
  refine Keeps.ite ?_ ?_
  · exact h
  · refine Keeps.ite ?_ ?_
    · exact (Keeps.ite h.setBit.setThermal (Keeps.ite h.setBit.setThermal h.setBit)).applyClk
    · refine Keeps.ite ?_ ?_
      · exact h.setBit.setThermal
      · refine Keeps.ite ?_ ?_
        · exact h.setBit.setThermal
        · exact h.setBit

protected theorem Keeps.thermalDecision (h : Keeps s t) : Keeps s (thermalDecision t) :=
  h.forUpTo fun _ _ h1 => h1.thermalStep

protected theorem Keeps.execThermalDecision (h : Keeps s t) : Answers s (execThermalDecision t) :=
  .next h.thermalDecision

protected theorem Keeps.sampleHigh (h : Keeps s t) : Keeps s (sampleHigh k t' t) := by
  unfold sampleHigh
  split
  · split
    · exact h
    · exact h.setBit.signal
  · split
    · exact h.setBit
    · exact h

protected theorem Keeps.sampleTrip (h : Keeps s t) : Keeps s (sampleTrip k t' t) := by
  unfold sampleTrip
  split
  · split
    · exact h
    · exact h.update.signal.forUpTo fun _ _ h1 => h1.applyClk
  · split
    · exact h.update.applyFree
    · exact h

protected theorem Keeps.sensorSample (h : Keeps s t) : Keeps s (sensorSample k celsius t) :=
  h.setBits.setBit.setBits.sampleHigh.sampleTrip

protected theorem Keeps.execSensorSample (h : Keeps s t) : Answers s (execSensorSample sensor celsius t) :=
  .next h.sensorSample

protected theorem Keeps.refclkLoss (h : Keeps s t) : Keeps s (refclkLoss c t) := by
  unfold refclkLoss
  dsimp only
  split
  · exact h
  · split
    · exact h.setBit.signal.forUpTo fun _ _ h1 => (Keeps.ite h1.laneLeaves h1)
    · exact h.setBit.signal

protected theorem Keeps.execRefclkLoss (h : Keeps s t) : Answers s (execRefclkLoss clock t) :=
  .next h.refclkLoss

protected theorem Keeps.execRefclkReturn (h : Keeps s t) : Answers s (execRefclkReturn clock t) :=
  .next h.setBit

/-! ## Machine/Observe -/

protected theorem Keeps.evaluateChannel (h : Keeps s t) : Keeps s (evaluateChannel c t) := by
  unfold evaluateChannel
  dsimp only
  split
  · exact (Keeps.ite (Keeps.ite h.setBit h.setBit).bumpBits (Keeps.ite h.setBit h.setBit)).setReg.setReg
  · exact h

protected theorem Keeps.resetComparators (h : Keeps s t) : Keeps s (resetComparators t) :=
  h.forUpTo fun _ _ h1 => h1.setBits

protected theorem Keeps.pushUnits (h : Keeps s t) : Keeps s (pushUnits us t) :=
  h.setAcq

protected theorem Keeps.noteHead (h : Keeps s t) : Keeps s (noteHead us raw w e t) := by
  unfold noteHead
  split
  · exact h.setAcq
  · exact h

protected theorem Keeps.noteTail (h : Keeps s t) : Keeps s (noteTail t) := by
  unfold noteTail
  split
  · exact h.setAcq
  · exact h

protected theorem Keeps.pushSample (h : Keeps s t) : Keeps s (pushSample raw x t) :=
  h.noteHead.setAcq.pushUnits.noteTail

protected theorem Keeps.pushMarker (h : Keeps s t) : Keeps s (pushMarker code e t) :=
  h.setAcq.pushUnits

protected theorem Keeps.pad (h : Keeps s t) : Keeps s (pad t) :=
  h.pushUnits

protected theorem Keeps.queueAcqRecord (h : Keeps s t) : Keeps s (queueAcqRecord index bs t) :=
  h.setAcq

protected theorem Keeps.endCapture (h : Keeps s t) : Keeps s (endCapture t) :=
  h.setAcq

protected theorem Keeps.finishNormal (h : Keeps s t) : Keeps s (finishNormal e t) :=
  h.pushMarker.pad.queueAcqRecord.endCapture

protected theorem Keeps.discardSegment (h : Keeps s t) : Keeps s (discardSegment t) := by
  unfold discardSegment
  dsimp only
  split
  · exact h
  · exact h.setAcq

protected theorem Keeps.finishFull (h : Keeps s t) : Keeps s (finishFull t) :=
  h.setBit.setBit.endCapture

protected theorem Keeps.finishSegment (h : Keeps s t) : Keeps s (finishSegment e t) := by
  unfold finishSegment
  dsimp only
  split
  · exact h
  · split
    · exact h.pushMarker.pad.discardSegment.finishFull
    · split
      · exact h.pushMarker.pad.queueAcqRecord.setAcq.finishFull
      · exact h.pushMarker.pad.queueAcqRecord.setAcq

protected theorem Keeps.checkRegion (h : Keeps s t) : Keeps s (checkRegion t) := by
  unfold checkRegion
  split
  · exact h.discardSegment.finishFull
  · exact h

protected theorem Keeps.arm (h : Keeps s t) : Keeps s (arm t) := by
  unfold arm
  dsimp only
  split
  · exact h.offAccess
  · split
    · exact h.resetComparators.setBit.setBit.setAcq.setBit.setBit
    · split
      · exact h.resetComparators.setBit.setBit.setAcq.setBit.setBit.setBit.setReg.showOffsets
      · exact h.resetComparators.setBit.setBit.setAcq.setBit.setBit.setBit.setReg

protected theorem Keeps.execArm (h : Keeps s t) : Answers s (execArm t) :=
  .next h.arm

protected theorem Keeps.stopCapture (h : Keeps s t) : Keeps s (stopCapture t) := by
  unfold stopCapture
  split
  · split
    · exact h.discardSegment.endCapture
    · exact h.finishNormal
  · exact h

protected theorem Keeps.disarm (h : Keeps s t) : Keeps s (disarm t) := by
  unfold disarm
  dsimp only
  split
  · exact h.offAccess
  · exact h.stopCapture.setAcq.setBit

protected theorem Keeps.execDisarm (h : Keeps s t) : Answers s (execDisarm t) :=
  .next h.disarm

protected theorem Keeps.forceTrigger (h : Keeps s t) : Keeps s (forceTrigger t) := by
  unfold forceTrigger
  split
  · exact h.setAcq
  · exact h.offAccess

protected theorem Keeps.execForceTrigger (h : Keeps s t) : Answers s (execForceTrigger t) :=
  .next h.forceTrigger

protected theorem Keeps.acqStop (h : Keeps s t) : Keeps s (acqStop t) := by
  unfold acqStop
  split
  · exact h.stopCapture
  · exact h.offAccess

protected theorem Keeps.execAcqStop (h : Keeps s t) : Answers s (execAcqStop t) :=
  .next h.acqStop

protected theorem Keeps.segmentRearm (h : Keeps s t) : Keeps s (segmentRearm t) :=
  h.setAcq

protected theorem Keeps.execSegmentRearm (h : Keeps s t) : Answers s (execSegmentRearm t) :=
  .next h.segmentRearm

protected theorem Keeps.dropAcq (h : Keeps s t) : Keeps s (dropAcq t) :=
  h.setBit.setBit.setBit.setAcq.resetComparators

protected theorem Keeps.captureDrain (h : Keeps s t) : Keeps s (captureDrain t) := by
  unfold captureDrain
  dsimp only
  split
  · split
    · exact h.drainBurst
    · exact h.captureBurst
  · exact h

protected theorem Keeps.execCaptureDrain (h : Keeps s t) : Answers s (execCaptureDrain t) :=
  .next h.captureDrain

protected theorem Keeps.pauseResume (h : Keeps s t) : Keeps s (pauseResume t) := by
  unfold pauseResume
  split
  · exact h.endPause
  · exact h

protected theorem Keeps.execPauseResume (h : Keeps s t) : Answers s (execPauseResume t) :=
  .next h.pauseResume

protected theorem Keeps.captureSample (h : Keeps s t) : Keeps s (captureSample first x t) := by
  unfold captureSample
  dsimp only
  refine Keeps.ite ?_ ?_
  · exact h.bumpBits.signal.setAcq
  · exact (Keeps.setAcq (by split; exacts [h.pushMarker.setAcq, h])).pushSample

protected theorem Keeps.normalSample (h : Keeps s t) : Keeps s (normalSample x fired t) :=
  (Keeps.ite (Keeps.ite h.pushMarker h).pushMarker (Keeps.ite h.pushMarker h)).captureSample

protected theorem Keeps.openSegment (h : Keeps s t) : Keeps s (openSegment x t) :=
  h.setAcq.pushMarker.foldl fun _ _ h1 => h1.setAcq.pushSample

protected theorem Keeps.keepSample (h : Keeps s t) : Keeps s (keepSample x t) :=
  h.setAcq

protected theorem Keeps.segmentSample (h : Keeps s t) : Keeps s (segmentSample x fired t) :=
  (Keeps.ite (Keeps.ite h.openSegment.pushMarker h).captureSample (Keeps.ite h.openSegment.pushMarker h)).checkRegion.keepSample

protected theorem Keeps.triggered (h : Keeps s t) : Keeps s (triggered e fires t) :=
  h.setBits.setReg.setReg.setBit.raiseCause.setAcq.traceEvent.traceTrigger

protected theorem Keeps.judgePre (h : Keeps s t) : Keeps s (judgePre e t) := by
  unfold judgePre
  split
  · exact h
  · exact h.setBit

protected theorem Keeps.postEnds (h : Keeps s t) : Keeps s (postEnds e t) := by
  unfold postEnds
  dsimp only
  refine Keeps.ite ?_ ?_
  · refine Keeps.ite ?_ ?_
    · exact (Keeps.ite (Keeps.ite h.setAcq.setBit.freezeRequest h.setAcq.setBit) (Keeps.ite h.setAcq.setBit.freezeRequest h.setAcq.setBit).setBit).finishSegment
    · exact (Keeps.ite (Keeps.ite h.setAcq.setBit.freezeRequest h.setAcq.setBit) (Keeps.ite h.setAcq.setBit.freezeRequest h.setAcq.setBit).setBit).finishNormal
  · refine Keeps.ite ?_ ?_
    · refine Keeps.ite ?_ ?_
      · exact h.setAcq.setBit.freezeRequest
      · exact h.setAcq.setBit
    · exact (Keeps.ite h.setAcq.setBit.freezeRequest h.setAcq.setBit).setBit

protected theorem Keeps.breakFreeze (h : Keeps s t) : Keeps s (breakFreeze t) := by
  unfold breakFreeze
  split
  · exact h.freezeRequest
  · exact h

protected theorem Keeps.checkPause (h : Keeps s t) : Keeps s (checkPause t) := by
  unfold checkPause
  split
  · exact h.setBit.freezeRequest
  · exact h

protected theorem Keeps.observe (h : Keeps s t) : Keeps s (observe e t) := by
  unfold observe
  dsimp only
  refine Keeps.ite ?_ ?_
  · exact h
  · split
    · refine Keeps.ite ?_ ?_
      · exact (Keeps.ite (Keeps.ite (Keeps.ite (Keeps.ite (h.breakFreeze.checkPause.forUpTo fun _ _ h1 => h1.evaluateChannel).triggered (h.breakFreeze.checkPause.forUpTo fun _ _ h2 => h2.evaluateChannel)).setAcq.segmentSample (Keeps.ite (Keeps.ite (h.breakFreeze.checkPause.forUpTo fun _ _ h3 => h3.evaluateChannel).triggered (h.breakFreeze.checkPause.forUpTo fun _ _ h4 => h4.evaluateChannel)).setAcq.normalSample.judgePre (Keeps.ite (h.breakFreeze.checkPause.forUpTo fun _ _ h5 => h5.evaluateChannel).triggered (h.breakFreeze.checkPause.forUpTo fun _ _ h6 => h6.evaluateChannel)).setAcq.normalSample)) (Keeps.ite (h.breakFreeze.checkPause.forUpTo fun _ _ h7 => h7.evaluateChannel).triggered (h.breakFreeze.checkPause.forUpTo fun _ _ h8 => h8.evaluateChannel)).setAcq).setAcq (Keeps.ite (Keeps.ite (Keeps.ite (h.breakFreeze.checkPause.forUpTo fun _ _ h9 => h9.evaluateChannel).triggered (h.breakFreeze.checkPause.forUpTo fun _ _ h10 => h10.evaluateChannel)).setAcq.segmentSample (Keeps.ite (Keeps.ite (h.breakFreeze.checkPause.forUpTo fun _ _ h11 => h11.evaluateChannel).triggered (h.breakFreeze.checkPause.forUpTo fun _ _ h12 => h12.evaluateChannel)).setAcq.normalSample.judgePre (Keeps.ite (h.breakFreeze.checkPause.forUpTo fun _ _ h13 => h13.evaluateChannel).triggered (h.breakFreeze.checkPause.forUpTo fun _ _ h14 => h14.evaluateChannel)).setAcq.normalSample)) (Keeps.ite (h.breakFreeze.checkPause.forUpTo fun _ _ h15 => h15.evaluateChannel).triggered (h.breakFreeze.checkPause.forUpTo fun _ _ h16 => h16.evaluateChannel)).setAcq)).setBit.postEnds
      · exact (Keeps.ite (Keeps.ite (Keeps.ite (Keeps.ite (h.breakFreeze.checkPause.forUpTo fun _ _ h17 => h17.evaluateChannel).triggered (h.breakFreeze.checkPause.forUpTo fun _ _ h18 => h18.evaluateChannel)).setAcq.segmentSample (Keeps.ite (Keeps.ite (h.breakFreeze.checkPause.forUpTo fun _ _ h19 => h19.evaluateChannel).triggered (h.breakFreeze.checkPause.forUpTo fun _ _ h20 => h20.evaluateChannel)).setAcq.normalSample.judgePre (Keeps.ite (h.breakFreeze.checkPause.forUpTo fun _ _ h21 => h21.evaluateChannel).triggered (h.breakFreeze.checkPause.forUpTo fun _ _ h22 => h22.evaluateChannel)).setAcq.normalSample)) (Keeps.ite (h.breakFreeze.checkPause.forUpTo fun _ _ h23 => h23.evaluateChannel).triggered (h.breakFreeze.checkPause.forUpTo fun _ _ h24 => h24.evaluateChannel)).setAcq).setAcq (Keeps.ite (Keeps.ite (Keeps.ite (h.breakFreeze.checkPause.forUpTo fun _ _ h25 => h25.evaluateChannel).triggered (h.breakFreeze.checkPause.forUpTo fun _ _ h26 => h26.evaluateChannel)).setAcq.segmentSample (Keeps.ite (Keeps.ite (h.breakFreeze.checkPause.forUpTo fun _ _ h27 => h27.evaluateChannel).triggered (h.breakFreeze.checkPause.forUpTo fun _ _ h28 => h28.evaluateChannel)).setAcq.normalSample.judgePre (Keeps.ite (h.breakFreeze.checkPause.forUpTo fun _ _ h29 => h29.evaluateChannel).triggered (h.breakFreeze.checkPause.forUpTo fun _ _ h30 => h30.evaluateChannel)).setAcq.normalSample)) (Keeps.ite (h.breakFreeze.checkPause.forUpTo fun _ _ h31 => h31.evaluateChannel).triggered (h.breakFreeze.checkPause.forUpTo fun _ _ h32 => h32.evaluateChannel)).setAcq)).setBit.setAcq
    · exact (Keeps.ite (Keeps.ite (Keeps.ite (Keeps.ite (h.breakFreeze.checkPause.forUpTo fun _ _ h33 => h33.evaluateChannel).triggered (h.breakFreeze.checkPause.forUpTo fun _ _ h34 => h34.evaluateChannel)).setAcq.segmentSample (Keeps.ite (Keeps.ite (h.breakFreeze.checkPause.forUpTo fun _ _ h35 => h35.evaluateChannel).triggered (h.breakFreeze.checkPause.forUpTo fun _ _ h36 => h36.evaluateChannel)).setAcq.normalSample.judgePre (Keeps.ite (h.breakFreeze.checkPause.forUpTo fun _ _ h37 => h37.evaluateChannel).triggered (h.breakFreeze.checkPause.forUpTo fun _ _ h38 => h38.evaluateChannel)).setAcq.normalSample)) (Keeps.ite (h.breakFreeze.checkPause.forUpTo fun _ _ h39 => h39.evaluateChannel).triggered (h.breakFreeze.checkPause.forUpTo fun _ _ h40 => h40.evaluateChannel)).setAcq).setAcq (Keeps.ite (Keeps.ite (Keeps.ite (h.breakFreeze.checkPause.forUpTo fun _ _ h41 => h41.evaluateChannel).triggered (h.breakFreeze.checkPause.forUpTo fun _ _ h42 => h42.evaluateChannel)).setAcq.segmentSample (Keeps.ite (Keeps.ite (h.breakFreeze.checkPause.forUpTo fun _ _ h43 => h43.evaluateChannel).triggered (h.breakFreeze.checkPause.forUpTo fun _ _ h44 => h44.evaluateChannel)).setAcq.normalSample.judgePre (Keeps.ite (h.breakFreeze.checkPause.forUpTo fun _ _ h45 => h45.evaluateChannel).triggered (h.breakFreeze.checkPause.forUpTo fun _ _ h46 => h46.evaluateChannel)).setAcq.normalSample)) (Keeps.ite (h.breakFreeze.checkPause.forUpTo fun _ _ h47 => h47.evaluateChannel).triggered (h.breakFreeze.checkPause.forUpTo fun _ _ h48 => h48.evaluateChannel)).setAcq)).setBit.postEnds
    · exact (Keeps.ite (Keeps.ite (Keeps.ite (Keeps.ite (h.breakFreeze.checkPause.forUpTo fun _ _ h49 => h49.evaluateChannel).triggered (h.breakFreeze.checkPause.forUpTo fun _ _ h50 => h50.evaluateChannel)).setAcq.segmentSample (Keeps.ite (Keeps.ite (h.breakFreeze.checkPause.forUpTo fun _ _ h51 => h51.evaluateChannel).triggered (h.breakFreeze.checkPause.forUpTo fun _ _ h52 => h52.evaluateChannel)).setAcq.normalSample.judgePre (Keeps.ite (h.breakFreeze.checkPause.forUpTo fun _ _ h53 => h53.evaluateChannel).triggered (h.breakFreeze.checkPause.forUpTo fun _ _ h54 => h54.evaluateChannel)).setAcq.normalSample)) (Keeps.ite (h.breakFreeze.checkPause.forUpTo fun _ _ h55 => h55.evaluateChannel).triggered (h.breakFreeze.checkPause.forUpTo fun _ _ h56 => h56.evaluateChannel)).setAcq).setAcq (Keeps.ite (Keeps.ite (Keeps.ite (h.breakFreeze.checkPause.forUpTo fun _ _ h57 => h57.evaluateChannel).triggered (h.breakFreeze.checkPause.forUpTo fun _ _ h58 => h58.evaluateChannel)).setAcq.segmentSample (Keeps.ite (Keeps.ite (h.breakFreeze.checkPause.forUpTo fun _ _ h59 => h59.evaluateChannel).triggered (h.breakFreeze.checkPause.forUpTo fun _ _ h60 => h60.evaluateChannel)).setAcq.normalSample.judgePre (Keeps.ite (h.breakFreeze.checkPause.forUpTo fun _ _ h61 => h61.evaluateChannel).triggered (h.breakFreeze.checkPause.forUpTo fun _ _ h62 => h62.evaluateChannel)).setAcq.normalSample)) (Keeps.ite (h.breakFreeze.checkPause.forUpTo fun _ _ h63 => h63.evaluateChannel).triggered (h.breakFreeze.checkPause.forUpTo fun _ _ h64 => h64.evaluateChannel)).setAcq)).setBit

/-! ## Machine/PostCheck -/

protected theorem Keeps.whenQuiet (h : Keeps s t) (hf : ∀ {a}, Keeps s a → Keeps s (f a)) : Keeps s (whenQuiet i f t) := by
  unfold whenQuiet
  split
  · exact (hf h)
  · exact h.setBit

protected theorem Keeps.writeRoute (h : Keeps s t) : Keeps s (writeRoute i e vc dst tag t) :=
  h.whenQuiet fun h1 => (by split; exacts [h1.setReg, (Keeps.ite h1.setReg.setReg.setReg.setReg h1.setReg.setReg.setReg.setReg.setBit)])

protected theorem Keeps.fillServiceTables (h : Keeps s t) : Keeps s (fillServiceTables t) :=
  h.foldl fun _ _ h1 => h1.foldl fun _ _ h2 => h2.writeRoute

protected theorem Keeps.notePlace (h : Keeps s t) : Keeps s (notePlace f late os t) :=
  h.update

protected theorem Keeps.planFlow (h : Keeps s a.2.2) : Keeps s (planFlow a f).2.2 := by
  unfold planFlow
  dsimp only
  split
  · exact h.notePlace.whenQuiet fun h1 => h1.setBits
  · exact h.notePlace.whenQuiet fun h1 => h1.setBits.setBits

protected theorem Keeps.keepFlow (h : Keeps s a.2.2) : Keeps s (keepFlow a f).2.2 := by
  unfold keepFlow
  dsimp only
  split
  · exact h
  · split <;> exact h

protected theorem Keeps.writePlan (h : Keeps s t) : Keeps s (writePlan bank p t) := by
  unfold writePlan
  extract_lets shown s1
  have h1 : Keeps s s1 := h.withRegs rfl sparseWf_filter id
  exact h1.foldl fun _ _ h2 => h2.setBits

protected theorem Keeps.foldlTriple {α β γ : Type} {f : β × γ × State → α → β × γ × State} {l : List α}
    {p : β × γ × State} (h : Keeps s p.2.2) (hf : ∀ a x, Keeps s a.2.2 → Keeps s (f a x).2.2) :
    Keeps s (l.foldl f p).2.2 := by
  induction l generalizing p with
  | nil => exact h
  | cons x l ih => exact ih (hf p x h)
protected theorem Keeps.runPlanner (h : Keeps s t) : Keeps s (runPlanner kept placed banks t) := by
  unfold runPlanner
  dsimp only
  refine (Keeps.foldl ?_ fun _ _ h1 => h1.writePlan).setBits
  exact Keeps.foldlTriple (Keeps.foldlTriple h fun _ _ h1 => h1.keepFlow) fun _ _ h2 => h2.planFlow

/-! ## Machine/Loader -/


protected theorem Keeps.ldLocked (h : Keeps s t) : Keeps s (ldLocked t) :=
  h.setBit

protected theorem Keeps.setLd (h : Keeps s t) : Keeps s (setLd x t) :=
  h.update

protected theorem Keeps.setLdState (h : Keeps s t) : Keeps s (setLdState v t) := by
  unfold setLdState
  dsimp only
  split
  · exact h.setBits.raiseCause.traceEvent
  · exact h.setBits

protected theorem Keeps.setRetrying (h : Keeps s t) : Keeps s (setRetrying b t) :=
  h.setBit

protected theorem Keeps.toChildren (h : Keeps s t) : Keeps s (toChildren w t) :=
  h.foldl fun _ _ h1 => h1.sendTree

protected theorem Keeps.toParent (h : Keeps s t) : Keeps s (toParent w t) := by
  unfold toParent
  split
  · exact h.sendTree
  · exact h

protected theorem Keeps.takeTree (h : Keeps s t) : Keeps s (takeTree w t) := by
  unfold takeTree
  dsimp only
  split
  · exact h.setNi
  · exact h

protected theorem Keeps.maybeReport (h : Keeps s t) : Keeps s (maybeReport t) := by
  unfold maybeReport
  dsimp only
  split
  · split
    · exact h.toParent
    · exact (Keeps.ite h.setLd h).setBits.setBits.setBit
  · exact h

protected theorem Keeps.finalStatus (h : Keeps s t) : Keeps s (finalStatus who code ordinal t) :=
  h.setLd.maybeReport

protected theorem Keeps.failLoad (h : Keeps s t) : Keeps s (failLoad code t) :=
  (Keeps.ite (Keeps.ite h (Keeps.ite h.invalidateAll h.setBits)).setBits.setBits.setLdState.setLd (Keeps.ite h (Keeps.ite h.invalidateAll h.setBits)).setBits.setBits.setLdState).finalStatus

protected theorem Keeps.beginLoad (h : Keeps s t) : Keeps s (beginLoad t) := by
  unfold beginLoad
  extract_lets s1 s2
  have h2 : Keeps s s2 := h.setReg.setReg.setBits.setBits
  exact h2.setLd.setLdState

protected theorem Keeps.checkHeader (h : Keeps s t) : Keeps s (checkHeader t) := by
  unfold checkHeader
  split
  · split
    · exact h.setLd
    · exact h.failLoad
  · exact h

protected theorem Keeps.trimStream (h : Keeps s t) : Keeps s (trimStream t) := by
  unfold trimStream
  split
  · exact h.setLd
  · exact h

protected theorem Keeps.checkTable (h : Keeps s t) : Keeps s (checkTable t) := by
  unfold checkTable
  split
  · split
    · exact h.setLd.setLdState
    · exact h.failLoad
  · exact h

protected theorem Keeps.checkStaged (h : Keeps s t) : Keeps s (checkStaged t) := by
  unfold checkStaged
  split
  · split
    · exact h.setLd.setLdState
    · exact h.failLoad
  · exact h

protected theorem Keeps.checkEnd (h : Keeps s t) : Keeps s (checkEnd t) := by
  unfold checkEnd
  split
  · split
    · exact h.failLoad
    · exact h
  · exact h

protected theorem Keeps.advanceLoad (h : Keeps s t) : Keeps s (advanceLoad t) :=
  h.checkHeader.trimStream.checkTable.checkStaged.checkEnd

protected theorem Keeps.forwardBytes (h : Keeps s t) : Keeps s (forwardBytes bs t) :=
  (h.foldl fun _ _ h1 => h1.setLink).setLd

protected theorem Keeps.countFailure (h : Keeps s t) : Keeps s (countFailure t) := by
  unfold countFailure
  dsimp only
  split
  · exact h
  · split
    · exact h.setBits.setReg.setLd.addRecord
    · exact h.setBits.setReg.setLd

protected theorem Keeps.takeStream (h : Keeps s t) : Keeps s (takeStream bs t) := by
  unfold takeStream
  dsimp only
  split
  · exact h.countFailure.forwardBytes.setLd.advanceLoad
  · exact h

protected theorem Keeps.takeLoadFrame (h : Keeps s t) : Keeps s (takeLoadFrame t) := by
  unfold takeLoadFrame
  dsimp only
  split
  · exact h
  · split
    · exact h.setLink.returnCredit.takeStream
    · exact h

protected theorem Keeps.feedParent (h : Keeps s t) : Keeps s (feedParent t) :=
  h.forUpTo fun _ _ h1 => h1.takeLoadFrame

protected theorem Keeps.execLinkUp (h : Keeps s t) : Answers s (execLinkUp l t) :=
  .next h.linkComesUp.feedParent

protected theorem Keeps.execLinkControlReceive (h : Keeps s t) : Answers s (execLinkControlReceive l t) :=
  .next h.linkControlReceive.feedParent

protected theorem Keeps.loadArm (h : Keeps s t) : Keeps s (loadArm t) := by
  unfold loadArm
  dsimp only
  refine Keeps.ite ?_ ?_
  · exact h.ldLocked
  · refine Keeps.ite ?_ ?_
    · exact (Keeps.ite h.reloadFails h).setLd
    · exact (Keeps.ite h.reloadFails h).setLd.beginLoad.feedParent

protected theorem Keeps.execLoadArm (h : Keeps s t) : Answers s (execLoadArm t) :=
  .next h.loadArm

protected theorem Keeps.loadGo (h : Keeps s t) : Keeps s (loadGo t) := by
  unfold loadGo
  split
  · exact h.ldLocked
  · split
    · exact h.beginLoad
    · exact h

protected theorem Keeps.execLoadGo (h : Keeps s t) : Answers s (execLoadGo t) :=
  .next h.loadGo

protected theorem Keeps.dropChildFrames (h : Keeps s t) : Keeps s (dropChildFrames t) :=
  h.foldl fun _ _ h1 => h1.setLink

protected theorem Keeps.dropLoadFrames (h : Keeps s t) : Keeps s (dropLoadFrames t) := by
  unfold dropLoadFrames
  dsimp only
  split
  · exact h.dropChildFrames.setLink.forUpTo fun _ _ h1 => h1.returnCredit
  · exact h.dropChildFrames

protected theorem Keeps.abortLoad (h : Keeps s t) : Keeps s (abortLoad t) := by
  unfold abortLoad
  dsimp only
  split
  · exact h.dropLoadFrames.setRetrying.setLd.failLoad
  · split
    · exact h.dropLoadFrames.setRetrying.setLd
    · split
      · exact h.dropLoadFrames.setRetrying.setLd.failLoad
      · exact h.dropLoadFrames.setRetrying.setLd.setBits.setLd.setLdState.finalStatus

protected theorem Keeps.loadAbort (h : Keeps s t) : Keeps s (loadAbort t) := by
  unfold loadAbort
  split
  · exact h.toChildren.toParent.abortLoad
  · exact h.ldLocked

protected theorem Keeps.execLoadAbort (h : Keeps s t) : Answers s (execLoadAbort t) :=
  .next h.loadAbort

protected theorem Keeps.abortReceived (h : Keeps s t) : Keeps s (abortReceived l t) :=
  (h.foldl fun _ _ h1 => h1.sendTree).abortLoad

protected theorem Keeps.execAbort (h : Keeps s t) : Answers s (execAbort l t) :=
  .next h.abortReceived

protected theorem Keeps.streamEnded (h : Keeps s t) : Keeps s (streamEnded t) := by
  unfold streamEnded
  dsimp only
  split
  · exact h.setLd.toChildren.failLoad
  · exact h.setLd.toChildren

protected theorem Keeps.streamFetch (h : Keeps s t) : Keeps s (streamFetch bs t) := by
  unfold streamFetch
  split
  · split
    · exact h.streamEnded
    · exact h.takeStream
  · exact h

protected theorem Keeps.execStreamFetch (h : Keeps s t) : Answers s (execStreamFetch bytes t) :=
  .next h.streamFetch

protected theorem Keeps.shoreWord (h : Keeps s t) : Keeps s (shoreWord w last t) := by
  unfold shoreWord
  dsimp only
  split
  · split
    · split
      · exact h.takeStream.streamEnded
      · exact h.takeStream
    · exact h
  · exact h

protected theorem Keeps.execShoreWordTransfer (h : Keeps s t) : Answers s (execShoreWordTransfer word last t) :=
  .next h.shoreWord

protected theorem Keeps.execFrameReceive (h : Keeps s t) : Answers s (execFrameReceive a f t) :=
  .next h.frameHeard.feedParent

protected theorem Keeps.endReceived (h : Keeps s t) : Keeps s (endReceived w t) := by
  unfold endReceived
  dsimp only
  split
  · exact h.takeTree.toChildren.setLd.checkEnd
  · exact h.takeTree.toChildren

protected theorem Keeps.execEndMessage (h : Keeps s t) : Answers s (execEndMessage message t) :=
  .next h.endReceived

protected theorem Keeps.sectionReceived (h : Keeps s t) : Keeps s (sectionReceived t) := by
  unfold sectionReceived
  dsimp only
  split
  · split
    · exact h
    · split
      · exact h.setLd.advanceLoad
      · exact h.setLd.toParent
  · exact h

protected theorem Keeps.retryReceived (h : Keeps s t) : Keeps s (retryReceived w t) := by
  unfold retryReceived
  dsimp only
  split
  · exact h.takeTree.toParent
  · exact h.takeTree.setLd

protected theorem Keeps.execRetry (h : Keeps s t) : Answers s (execRetry message t) :=
  .next h.retryReceived

protected theorem Keeps.fetchFailed (h : Keeps s t) : Keeps s (fetchFailed cause which t) :=
  (Keeps.ite h.countFailure.takeFree h.countFailure).setBits.setRetrying.signal.setLd

protected theorem Keeps.sourceFault (h : Keeps s t) : Keeps s (sourceFault t) :=
  h.takeFree.dmaFault

protected theorem Keeps.fetchFailure (h : Keeps s t) : Keeps s (fetchFailure sourceError t) := by
  unfold fetchFailure
  split
  · split
    · split
      · exact h.sourceFault.fetchFailed
      · exact h
    · split
      · exact h
      · exact h.fetchFailed
  · exact h

protected theorem Keeps.execFetchFailure (h : Keeps s t) : Answers s (execFetchFailure sourceError t) :=
  .next h.fetchFailure

protected theorem Keeps.rewindTo (h : Keeps s t) : Keeps s (rewindTo offset t) :=
  h.dropChildFrames.toChildren.setLd

protected theorem Keeps.rewindDone (h : Keeps s t) : Keeps s (rewindDone t) := by
  unfold rewindDone
  split
  · exact h.setRetrying.toParent
  · exact h.setRetrying

protected theorem Keeps.backoffExpiry (h : Keeps s t) : Keeps s (backoffExpiry t) := by
  unfold backoffExpiry
  dsimp only
  split
  · exact h.setLd.setBits.rewindTo.rewindDone
  · exact h

protected theorem Keeps.execBackoffExpiry (h : Keeps s t) : Answers s (execBackoffExpiry t) :=
  .next h.backoffExpiry

protected theorem Keeps.rewindReceived (h : Keeps s t) : Keeps s (rewindReceived w t) := by
  unfold rewindReceived
  dsimp only
  split
  · exact h.takeTree.dropLoadFrames.rewindTo.rewindDone
  · exact h.takeTree

protected theorem Keeps.execRewind (h : Keeps s t) : Answers s (execRewind message t) :=
  .next h.rewindReceived

protected theorem Keeps.rewoundReceived (h : Keeps s t) : Keeps s (rewoundReceived l t) := by
  unfold rewoundReceived
  split
  · exact h.setLd.rewindDone
  · exact h

protected theorem Keeps.execRewound (h : Keeps s t) : Answers s (execRewound l t) :=
  .next h.rewoundReceived

protected theorem Keeps.reportReceived (h : Keeps s t) : Keeps s (reportReceived l w t) := by
  unfold reportReceived
  dsimp only
  split
  · exact h.takeTree.finalStatus
  · exact h.takeTree

protected theorem Keeps.execReport (h : Keeps s t) : Answers s (execReport l message t) :=
  .next h.reportReceived

protected theorem Keeps.holdAll (h : Keeps s t) : Keeps s (holdAll t) := by
  unfold holdAll
  extract_lets s1 _ s2 s3 s4
  have h1 : Keeps s s1 := h.forUpTo fun _ _ h1 => h1.enterHold
  clear_value s1
  have h2 : Keeps s s2 := Keeps.applyFree h1.update
  have h4 : Keeps s s4 := h2.setBits.dropAcq.hbEmpty
  exact h4.forUpTo fun _ _ h5 => h5.setBit

protected theorem Keeps.enterHoldNow (h : Keeps s t) : Keeps s (enterHoldNow t) := by
  unfold enterHoldNow
  split
  · exact (Keeps.ite h.raiseHazards h).holdAll
  · exact h

protected theorem Keeps.execEnterHold (h : Keeps s t) : Answers s (execEnterHold t) :=
  .next h.enterHoldNow

protected theorem Keeps.resetBankCfg (h : Keeps s t) : Keeps s (resetBankCfg t) :=
  h.forUpTo fun _ _ h1 => h1.setBits.setBits

protected theorem Keeps.newTokens (h : Keeps s t) : Keeps s (newTokens t) :=
  h.update.forUpTo fun _ _ h1 => h1.setLink

protected theorem Keeps.resetForLoad (h : Keeps s t) : Keeps s (resetForLoad t) := by
  unfold resetForLoad
  extract_lets keepDdr gone _ s1 s2
  have h1 : Keeps s s1 := Keeps.resetBankCfg (h.withRegs rfl sparseWf_filter id)
  have h2 : Keeps s s2 := h1.forUpTo fun _ _ h2 => h2.setLink
  exact h2.newTokens.setBit.setBits

protected theorem Keeps.clearBanks (h : Keeps s t) : Keeps s (clearBanks r t) :=
  h.forUpTo fun _ _ h1 => (Keeps.ite (h1.setDesignMem .zeroContents).setBit h1)

protected theorem Keeps.clearMemories (h : Keeps s t) : Keeps s (clearMemories t) :=
  h.mapClusters

protected theorem Keeps.firstWrite (h : Keeps s t) : Keeps s (firstWrite t) :=
  (h.invalidateAll.setLdState.resetForLoad.clearMemories.forUpTo fun _ _ h1 => (Keeps.ite h1.clearBanks h1)).setLd.fillServiceTables

protected theorem Keeps.ownerLoad (h : Keeps s t) : Keeps s (ownerLoad b v t) :=
  h.setBits.setBits.setBit.update

protected theorem Keeps.writeRecord (h : Keeps s t) : Keeps s (writeRecord a v t) := by
  unfold writeRecord
  split
  · split
    · exact h.ownerLoad
    · split
      · exact h.bankCfgWrite
      · exact h.writeFields
  · split
    · exact h.freezeAt
    · exact h.writeFields

protected theorem Keeps.writeSpecial (h : Keeps s t) : Keeps s (writeSpecial type k v t) := by
  unfold writeSpecial
  split
  · exact h.writeRoute
  · exact h.setLd
  · exact h

protected theorem Keeps.writeRecords (h : Keeps s t) : Keeps s (writeRecords type reach units contract l t).2 := by
  induction l generalizing t with
  | nil => exact h
  | cons x l ih =>
    unfold writeRecords
    split
    · exact ih (.ite h.writeSpecial h.writeRecord)
    · exact h

protected theorem Keeps.writeDeadlines (h : Keeps s t) : Keeps s (writeDeadlines rs t) :=
  h.foldl fun _ _ h1 => h1.setLink

protected theorem Keeps.writeImem (h : Keeps s t) : Keeps s (writeImem r bs t) :=
  h.forUpTo fun _ _ h1 => h1.setClu

protected theorem Keeps.writeDict (h : Keeps s t) : Keeps s (writeDict r bs t) :=
  h.forUpTo fun _ _ h1 => h1.setClu

protected theorem Keeps.writeRecordSection (h : Keeps s t) : Keeps s (writeRecordSection type reach units contract bs t).2 := by
  unfold writeRecordSection
  dsimp only
  split
  · exact h
  · split
    · exact h
    · split
      · exact h.writeRecords
      · split
        · exact h.writeRecords.writeDeadlines
        · split
          · exact h.writeRecords.setBits
          · exact h.writeRecords

protected theorem Keeps.writeSection (h : Keeps s t) : Keeps s (writeSection x bs t).2 := by
  unfold writeSection
  dsimp only
  split
  · split
    · exact h.writeImem
    · exact h
  · split
    · exact h.writeDict
    · exact h
  · split
    · exact h.setLd
    · exact h
  · exact h.writeRecordSection

protected theorem Keeps.writeNext (h : Keeps s t) : Keeps s (writeNext t) := by
  unfold writeNext
  dsimp only
  split
  · exact h.setLdState
  · split
    · exact h
    · split
      · exact h.writeSection.failLoad
      · split
        · exact h.writeSection.setLd.setLdState
        · exact h.writeSection.setLd

protected theorem Keeps.loadWrite (h : Keeps s t) : Keeps s (loadWrite t) := by
  unfold loadWrite
  split
  · exact h.firstWrite
  · split
    · exact h.writeNext
    · exact h

protected theorem Keeps.setAnchors (h : Keeps s t) : Keeps s (setAnchors a t) :=
  h.forUpTo fun _ _ h1 => h1.setBit

protected theorem Keeps.startScrub (h : Keeps s t) : Keeps s (startScrub r t) :=
  h.setLd

protected theorem Keeps.startReach (h : Keeps s t) : Keeps s (startReach r t) := by
  unfold startReach
  dsimp only
  split
  · exact h
  · exact h.setBit.forUpTo fun _ _ h1 => h1.setClu

protected theorem Keeps.beginRun (h : Keeps s t) : Keeps s (beginRun t) := by
  unfold beginRun
  extract_lets s1 s2 _ s3 s4
  have h1 : Keeps s s1 := h.forUpTo fun _ _ h1 => h1.setClu
  have h2 : Keeps s s2 := h1.forUpTo fun _ _ h2 => .ite h2.startReach h2
  clear_value s2
  have h4 : Keeps s s4 := Keeps.admitAll (Keeps.setRun h2.update)
  exact h4.setLd.setLdState

protected theorem Keeps.startTree (h : Keeps s t) : Keeps s (startTree t) :=
  h.toChildren.beginRun

protected theorem Keeps.loadStart (h : Keeps s t) : Keeps s (loadStart t) := by
  unfold loadStart
  split
  · exact h.startTree
  · exact h.ldLocked

protected theorem Keeps.execLoadStart (h : Keeps s t) : Answers s (execLoadStart t) :=
  .next h.loadStart

protected theorem Keeps.startReceived (h : Keeps s t) : Keeps s (startReceived t) := by
  unfold startReceived
  dsimp only
  split
  · exact h.takeTree.startTree
  · exact h.takeTree.toChildren

protected theorem Keeps.execStart (h : Keeps s t) : Answers s (execStart t) :=
  .next h.startReceived

protected theorem Keeps.loaded (h : Keeps s t) : Keeps s (loaded anchors t) := by
  unfold loaded
  dsimp only
  refine Keeps.ite ?_ ?_
  · exact (Keeps.ite ((h.setBits.setAnchors.foldl fun _ _ h1 => h1.startScrub).forUpTo fun _ _ h2 => h2.niCtrlWrite).setLd ((h.setBits.setAnchors.foldl fun _ _ h3 => h3.startScrub).forUpTo fun _ _ h4 => h4.niCtrlWrite)).setBits.setLdState.finalStatus.startTree
  · exact (Keeps.ite ((h.setBits.setAnchors.foldl fun _ _ h5 => h5.startScrub).forUpTo fun _ _ h6 => h6.niCtrlWrite).setLd ((h.setBits.setAnchors.foldl fun _ _ h7 => h7.startScrub).forUpTo fun _ _ h8 => h8.niCtrlWrite)).setBits.setLdState.finalStatus

protected theorem Keeps.loadComplete (h : Keeps s t) : Keeps s (loadComplete t) := by
  unfold loadComplete
  dsimp only
  split
  · split
    · exact h.setBit.loaded
    · exact h.setBit.failLoad
  · exact h

protected theorem Keeps.execLoadComplete (h : Keeps s t) : Answers s (execLoadComplete t) :=
  .next h.loadComplete

protected theorem Keeps.releaseStep (h : Keeps s t) : Keeps s (releaseStep t) := by
  unfold releaseStep
  split
  · exact h.update
  · exact h.ldLocked

protected theorem Keeps.execReleaseStep (h : Keeps s t) : Answers s (execReleaseStep t) :=
  .next h.releaseStep

protected theorem Keeps.scrubRead (h : Keeps s t) : Keeps s (scrubRead n t) := by
  unfold scrubRead
  dsimp only
  split
  · exact h.setLd
  · exact h

protected theorem Keeps.execScrubRead (h : Keeps s t) : Answers s (execScrubRead n t) :=
  .next h.scrubRead

protected theorem Keeps.scrubPassEnd (h : Keeps s t) : Keeps s (scrubPassEnd n t) := by
  unfold scrubPassEnd
  dsimp only
  split
  · split
    · exact h.setLd
    · exact h.setLd.setBit.signal
  · exact h

protected theorem Keeps.execScrubPassEnd (h : Keeps s t) : Answers s (execScrubPassEnd n t) :=
  .next h.scrubPassEnd

/-! ## Machine/Reload -/

protected theorem Keeps.rlLocked (h : Keeps s t) : Keeps s (rlLocked t) :=
  h.setBit

protected theorem Keeps.setRl (h : Keeps s t) : Keeps s (setRl x t) :=
  h.update.setBits

protected theorem Keeps.leaveRun (h : Keeps s t) : Keeps s (leaveRun t) :=
  h.raiseBreakwater.setRl.forUpTo fun _ _ h1 => h1.setBit

protected theorem Keeps.reloadGo (h : Keeps s t) : Keeps s (reloadGo t) := by
  unfold reloadGo
  dsimp only
  split
  · split
    · exact h.setBits.setBits.setRl.leaveRun
    · exact h.setBits.setBits.setRl
  · exact h.rlLocked

protected theorem Keeps.execReloadGo (h : Keeps s t) : Answers s (execReloadGo t) :=
  .next h.reloadGo

protected theorem Keeps.reloadLeaveRun (h : Keeps s t) : Keeps s (reloadLeaveRun t) := by
  unfold reloadLeaveRun
  split
  · exact h.leaveRun
  · exact h

protected theorem Keeps.execReloadLeaveRun (h : Keeps s t) : Answers s (execReloadLeaveRun t) :=
  .next h.reloadLeaveRun

protected theorem Keeps.failUnless (h : Keeps s t) (hk : ∀ {a}, Keeps s a → Keeps s (k a)) : Keeps s (failUnless code k t) := by
  unfold failUnless
  split
  · exact (hk h)
  · exact h.reloadFails

protected theorem Keeps.reloadTable (h : Keeps s t) : Keeps s (reloadTable t) := by
  unfold reloadTable
  dsimp only
  split
  · exact h
  · exact h.failUnless fun h1 => (Keeps.ite h1 (h1.failUnless fun h2 => h2.failUnless fun h3 => h3.setRl))

protected theorem Keeps.resetReachRegs (h : Keeps s t) : Keeps s (resetReachRegs r t) := by
  unfold resetReachRegs
  extract_lets gone _ s1
  have h1 : Keeps s s1 := h.withRegs rfl sparseWf_filter id
  exact h1.forUpTo fun _ _ h2 => h2.setBits.setBits

protected theorem Keeps.writeReloadSection (h : Keeps s t) : Keeps s (writeReloadSection x bs t).2 := by
  unfold writeReloadSection
  dsimp only
  split
  · exact h
  · split
    · exact h
    · exact h.setRl
  · split
    · exact h.setRl
    · exact h
  · exact h.writeSection
  · exact h.writeSection
  · exact h.writeRecordSection

protected theorem Keeps.stageReload (h : Keeps s t) : Keeps s (stageReload bs t) := by
  unfold stageReload
  refine Keeps.ite ?_ ?_
  · exact h
  · exact h.failUnless fun h1 => h1.setRl.resetReachRegs

protected theorem Keeps.reloadSection (h : Keeps s t) : Keeps s (reloadSection t) := by
  unfold reloadSection
  dsimp only
  split
  · exact h
  · split
    · exact h
    · split
      · exact h.reloadFails
      · split
        · exact h.stageReload
        · exact h.stageReload.writeReloadSection.failUnless fun h1 => h1.setRl

protected theorem Keeps.reloadAdvance (h : Keeps s t) : Keeps s (reloadAdvance t) := by
  unfold reloadAdvance
  dsimp only
  refine Keeps.ite ?_ ?_
  · exact ((Keeps.ite h.reloadTable h).forUpTo fun _ _ h1 => (Keeps.ite h1.reloadSection h1)).setBits
  · exact (Keeps.ite h.reloadTable h).forUpTo fun _ _ h2 => (Keeps.ite h2.reloadSection h2)

protected theorem Keeps.consumeWindow (h : Keeps s t) : Keeps s (consumeWindow t) := by
  unfold consumeWindow
  dsimp only
  split
  · exact h.setRl.reloadAdvance
  · exact h

protected theorem Keeps.reloadReceiving (h : Keeps s t) : Keeps s (reloadReceiving t) := by
  unfold reloadReceiving
  dsimp only
  split
  · exact h.enterHold.invalidate.clearBanks.setRl.setBits.consumeWindow
  · exact h

protected theorem Keeps.execReloadReceiving (h : Keeps s t) : Answers s (execReloadReceiving t) :=
  .next h.reloadReceiving

protected theorem Keeps.execSectionReceived (h : Keeps s t) : Answers s (execSectionReceived t) :=
  .next h.sectionReceived.reloadAdvance

protected theorem Keeps.execLoadWrite (h : Keeps s t) : Answers s (execLoadWrite t) :=
  .next h.loadWrite.reloadAdvance

protected theorem Keeps.windowAppend (h : Keeps s t) : Keeps s (windowAppend bs t) :=
  h.setRl.consumeWindow

protected theorem Keeps.windowOverrun (h : Keeps s t) : Keeps s (windowOverrun source t) :=
  h.bumpBits.signal

protected theorem Keeps.reloadWindowWrite (h : Keeps s t) : Keeps s (reloadWindowWrite source v t) := by
  unfold reloadWindowWrite
  split
  · exact h.windowOverrun
  · split
    · exact h
    · split
      · split
        · exact h
        · exact h.windowOverrun
      · exact h.windowAppend

protected theorem Keeps.execReloadWindowWrite (h : Keeps s t) : Answers s (execReloadWindowWrite source value t) :=
  .next (by split; exacts [h.reloadWindowWrite, h.performed h.reloadWindowWrite])

protected theorem Keeps.reloadEnd (h : Keeps s t) : Keeps s (reloadEnd t) := by
  unfold reloadEnd
  dsimp only
  split
  · exact h.reloadFails
  · exact h

protected theorem Keeps.execReloadEnd (h : Keeps s t) : Answers s (execReloadEnd t) :=
  .next h.reloadEnd

protected theorem Keeps.reloadAbort (h : Keeps s t) : Keeps s (reloadAbort t) := by
  unfold reloadAbort
  split
  · exact h.reloadFails
  · exact h

protected theorem Keeps.execReloadAbort (h : Keeps s t) : Answers s (execReloadAbort t) :=
  .next h.reloadAbort

protected theorem Keeps.reloadChecked (h : Keeps s t) : Keeps s (reloadChecked t) := by
  unfold reloadChecked
  dsimp only
  split
  · exact h.failUnless fun h1 => h1.setRl
  · exact h

protected theorem Keeps.execReloadChecked (h : Keeps s t) : Answers s (execReloadChecked t) :=
  .next h.reloadChecked

protected theorem Keeps.slotPlan (h : Keeps s t) : Keeps s (slotPlan t) := by
  unfold slotPlan
  dsimp only
  split
  · exact h
  · split
    · exact h.setLd.runPlanner
    · split
      · exact h.runPlanner.setRl
      · exact h

protected theorem Keeps.execSlotPlan (h : Keeps s t) : Answers s (execSlotPlan t) :=
  .next h.slotPlan

protected theorem Keeps.reloadReady (h : Keeps s t) : Keeps s (reloadReady t) := by
  unfold reloadReady
  split
  · exact h.setBits.raiseCause
  · exact h

protected theorem Keeps.execReloadReady (h : Keeps s t) : Answers s (execReloadReady t) :=
  .next h.reloadReady

protected theorem Keeps.reloadJoin (h : Keeps s t) : Keeps s (reloadJoin t) := by
  unfold reloadJoin
  split
  · exact h.setRl
  · exact h

protected theorem Keeps.execReloadJoin (h : Keeps s t) : Answers s (execReloadJoin t) :=
  .next h.reloadJoin

protected theorem Keeps.switchIn (h : Keeps s t) : Keeps s (switchIn t) :=
  (h.startReach.forUpTo fun _ _ h1 => h1.setClu).setBit.setAnchors.setLd.startScrub.dropBreakwater.setRl.setBits.setBits.forUpTo fun _ _ h2 => h2.niCtrlWrite

protected theorem Keeps.launchLatched (h : Keeps s t) : Keeps s (launchLatched x w t) := by
  unfold launchLatched
  dsimp only
  split
  · exact h.setNi
  · exact h.signal

protected theorem Keeps.markLaunched (h : Keeps s t) : Keeps s (markLaunched b n w t) :=
  h.update

protected theorem Keeps.breakwaterLaunch (h : Keeps s t) : Keeps s (breakwaterLaunch n w t) := by
  unfold breakwaterLaunch
  split
  · exact h
  · split
    · exact h.markLaunched.launchLatched
    · exact h

protected theorem Keeps.execBreakwaterLaunch (h : Keeps s t) : Answers s (execBreakwaterLaunch n w t) :=
  .next h.breakwaterLaunch

protected theorem Keeps.newCellEc (h : Keeps s t) : Keeps s (newCellEc t) :=
  h.update

protected theorem Keeps.windowServe (h : Keeps s t) : Keeps s (windowServe p t) :=
  (Keeps.ite h.setNi.windowOverrun (Keeps.ite h.setNi.windowAppend h.setNi)).respond

protected theorem Keeps.feedStart (h : Keeps s t) : Keeps s (feedStart x t) := by
  unfold feedStart
  dsimp only
  split
  · exact h.refuseRange.setAction
  · exact h.setAction

protected theorem Keeps.reloadFeed (h : Keeps s t) : Keeps s (reloadFeed t) := by
  unfold reloadFeed
  split
  · exact h.windowServe
  · split
    · exact h
    · split
      · exact h.feedStart
      · exact h.moveOn

protected theorem Keeps.execReloadFeed (h : Keeps s t) : Answers s (execReloadFeed t) :=
  .next h.reloadFeed

protected theorem Keeps.dmaError (h : Keeps s t) : Keeps s (dmaError purpose cause t) := by
  unfold dmaError
  split
  · exact h
  · split
    · split
      · exact h.dmaFault.fetchFailed
      · exact h
    · split
      · exact h.dmaFault.operandError
      · exact h
    · split
      · exact h.dmaFault.haltRing
      · exact h

protected theorem Keeps.execDmaError (h : Keeps s t) : Answers s (execDmaError purpose cause t) :=
  .next h.dmaError

/-! ## Machine/Shore -/

protected theorem Keeps.setShore (h : Keeps s t) : Keeps s (setShore x t) :=
  h.update

protected theorem Keeps.tideStart (h : Keeps s t) : Keeps s (tideStart t) := by
  unfold tideStart
  split
  · split
    · exact h
    · exact h.setShore
  · exact h

protected theorem Keeps.execTideStart (h : Keeps s t) : Answers s (execTideStart t) :=
  .next h.tideStart

protected theorem Keeps.strobeRise (h : Keeps s t) : Keeps s (strobeRise t) := by
  unfold strobeRise
  split
  · exact h.setShore
  · exact h

protected theorem Keeps.execPhaseStrobeRise (h : Keeps s t) : Answers s (execPhaseStrobeRise t) :=
  .next h.strobeRise

protected theorem Keeps.tidePhaseEnd (h : Keeps s t) : Keeps s (tidePhaseEnd x t) := by
  unfold tidePhaseEnd
  dsimp only
  split
  · exact h
  · split <;> exact h.takeFree.setShore

protected theorem Keeps.execTidePhaseEnd (h : Keeps s t) : Answers s (execTidePhaseEnd x t) :=
  .next h.tidePhaseEnd

protected theorem Keeps.shoreWordArrival (h : Keeps s t) : Keeps s (shoreWordArrival n t) := by
  unfold shoreWordArrival
  dsimp only
  split
  · exact h
  · split
    · exact h.setShore.setClu
    · exact h.setShore

protected theorem Keeps.execShoreWordArrival (h : Keeps s t) : Answers s (execShoreWordArrival n t) :=
  .next h.shoreWordArrival

/-! ## Machine/Milestone -/

protected theorem Keeps.sampleProbes (h : Keeps s t) : Keeps s (sampleProbes t) :=
  h.setSched

protected theorem Keeps.sampleShore (h : Keeps s t) : Keeps s (sampleShore t) :=
  h.update

protected theorem Keeps.dueFreezes (h : Keeps s t) : Keeps s (dueFreezes e t) := by
  unfold dueFreezes
  dsimp only
  split
  · split
    · exact (Keeps.ite h.freezeRequest h).setSched.freezeRequest
    · exact (Keeps.ite h.freezeRequest h).setSched
  · split
    · exact h.freezeRequest
    · exact h

protected theorem Keeps.sendToken (h : Keeps s t) : Keeps s (sendToken e t) :=
  h.setSched.sendTokens

protected theorem Keeps.copyBanks (h : Keeps s t) : Keeps s (copyBanks t) :=
  h.mapClusters

protected theorem Keeps.forceAction (h : Keeps s t) : Keeps s (forceAction t) :=
  h.forUpTo fun _ _ h1 => h1.setClu

protected theorem Keeps.releaseAction (h : Keeps s t) : Keeps s (releaseAction e t) := by
  unfold releaseAction
  dsimp only
  split
  · exact h
  · split <;>
      (split; exacts [h.setSched, h])

protected theorem Keeps.freezeAction (h : Keeps s t) : Keeps s (freezeAction t) := by
  unfold freezeAction
  dsimp only
  split
  · exact (Keeps.ite (h.foldl fun _ _ h1 => (Keeps.ite h1.addCause h1)).setBit (h.foldl fun _ _ h2 => (Keeps.ite h2.addCause h2))).setSched.setRun
  · exact h

protected theorem Keeps.actions (h : Keeps s t) : Keeps s (actions e t) :=
  (Keeps.ite (Keeps.ite h.forceAction h.forceAction.switchSlots).switchIn (Keeps.ite h.forceAction h.forceAction.switchSlots)).releaseAction.freezeAction

protected theorem Keeps.nextEc (h : Keeps s t) : Keeps s (nextEc e t) :=
  h.mapClusters.newCellEc.setSched.admitAll.update.applyClocks.oweTicks

protected theorem Keeps.sequence (h : Keeps s t) : Keeps s (sequence e t) :=
  h.sampleProbes.sampleShore.observe.dueFreezes.sendToken.copyBanks.actions.nextEc

protected theorem Keeps.endSequence (h : Keeps s t) : Keeps s (endSequence t) := by
  unfold endSequence
  dsimp only
  split
  · exact h.setSched
  · split
    · exact h.setSched.addCause
    · exact h.setSched.stopDevice

protected theorem Keeps.milestone (h : Keeps s t) : Keeps s (milestone t) := by
  unfold milestone
  dsimp only
  split
  · exact h
  · split
    · exact h.raiseHazards.holdAll
    · exact (Keeps.ite h.setSched.leaveRun h.setSched).raiseHazards.sequence.endSequence

protected theorem Keeps.execMilestone (h : Keeps s t) : Answers s (execMilestone t) :=
  .next h.milestone

protected theorem Keeps.queueTide (h : Keeps s t) : Keeps s (queueTide t) :=
  h.update

protected theorem Keeps.milestoneLeave (h : Keeps s t) : Keeps s (milestoneLeave t) := by
  unfold milestoneLeave
  dsimp only
  split
  · exact (h.foldl fun _ _ h1 => h1.setClu).setSched.queueTide
  · exact h

protected theorem Keeps.execMilestoneLeave (h : Keeps s t) : Answers s (execMilestoneLeave t) :=
  .next h.milestoneLeave

/-! ## Machine/Reset -/

protected theorem Keeps.recordReset (h : Keeps s t) : Keeps s (recordReset type cause t) :=
  h.setBits.setBits.addRecord

protected theorem Keeps.cairnScan (h : Keeps s t) : Keeps s (cairnScan t) :=
  h.update

protected theorem Keeps.cutErase (h : Keeps s t) : Keeps s (cutErase t) := by
  unfold cutErase
  dsimp only
  split
  · refine (Keeps.withNvm (t := (takeFree 14 t).2) h.takeFree fun hs => ?_).scanSlots
    have ring := h.cairnNvm hs
    rw [Mem.wf_iff] at ring ⊢
    exact sparseWf_filter ring
  · exact h

protected theorem Keeps.cutFuse (h : Keeps s t) : Keeps s (cutFuse t) := by
  unfold cutFuse
  dsimp only
  split
  · exact h
  · split
    · exact h.update
    · split <;> exact h.update

protected theorem Keeps.marchEnds (h : Keeps s t) : Keeps s (marchEnds t) :=
  h.update.setBit.setBit

protected theorem Keeps.cutMarch (h : Keeps s t) : Keeps s (cutMarch t) := by
  unfold cutMarch
  dsimp only
  split
  · exact h
  · split
    · exact (Keeps.ite h.marchEnds.setMarchInt h.marchEnds).setServiceMem (Keeps.ite h.marchEnds.setMarchInt h.marchEnds).serviceMem.loseContents
    · exact (Keeps.ite h.marchEnds.setMarchInt h.marchEnds).loseBank

protected theorem Keeps.loseBanks (h : Keeps s t) : Keeps s (loseBanks k t) :=
  (h.forUpTo fun _ _ h1 => h1.loseBank).foldl fun _ _ h2 => h2.setServiceMem h2.serviceMem.loseContents

protected theorem Keeps.setMarchFlags (h : Keeps s t) : Keeps s (setMarchFlags f t) :=
  (h.foldl fun _ _ h1 => h1.setBit).setReg

protected theorem Keeps.drainChannels (h : Keeps s t) : Keeps s (drainChannels t) :=
  h.foldl fun _ _ h1 => (Keeps.ite h1.ddrDrain h1)

protected theorem Keeps.closedDomain (h : Keeps s t) : Keeps s (closedDomain d t) := by
  unfold closedDomain
  split
  · exact h.dropBanks.domainClk
  · split
    · exact h.setBit
    · exact h

protected theorem Keeps.keepRefresh (h : Keeps s t) : Keeps s (keepRefresh cs t) :=
  h.foldl fun _ _ h1 => h1.setBit

protected theorem Keeps.closeDomains (h : Keeps s t) : Keeps s (closeDomains tested was t) :=
  (h.forUpTo fun _ _ h1 => h1.setReg.setReg).foldl fun _ _ h2 => h2.closedDomain

protected theorem Keeps.closeOpen (h : Keeps s t) : Keeps s (closeOpen was t) :=
  (h.forUpTo fun _ _ h1 => (Keeps.ite h1.setDomainState h1)).foldl fun _ _ h2 => h2.closedDomain

/-- The memory of a channel whose entry in the list is replaced by one with the same memory. -/
theorem look_map_mem {m : Sparse DdrChannel} {f : DdrChannel → DdrChannel} {k : Nat} (hf : ∀ x, (f x).mem = x.mem) :
    (look (fun _ => {}) (m.map fun x => (x.1, f x.2)) k).mem = (look (fun _ => {}) m k).mem := by
  induction m with
  | nil => rfl
  | cons x rest ih =>
    simp only [List.map_cons, look]
    split
    · exact hf _
    · exact ih

protected theorem Keeps.resetUnits (h : Keeps s t) : Keeps s (resetUnits t) := by
  refine h.withMemories rfl rfl (fun _ => h.designMem) (fun _ => h.serviceMem) (fun c => ?_) (fun _ => h.localMem)
    h.traceBuffer.loseContents h.cairnNvm
  rw [show (ddr (resetUnits t) c).mem = (ddr t c).mem from
    look_map_mem (f := fun x => { x with queue := [] }) fun _ => rfl]
  exact h.ddrMem

protected theorem Keeps.resetPcie (h : Keeps s t) : Keeps s (resetPcie table t) :=
  h.update

protected theorem Keeps.resetAer (h : Keeps s t) : Keeps s (resetAer on t) := by
  unfold resetAer
  split
  · exact h.update
  · exact h

protected theorem Keeps.resetBist (h : Keeps s t) : Keeps s (resetBist run t) := by
  unfold resetBist
  dsimp only
  refine Keeps.ite ?_ ?_
  · refine Keeps.ite ?_ ?_
    · exact h.bistStart.setBit.update
    · exact h.bistStart
  · exact h

protected theorem Keeps.warmRegs (h : Keeps s t) : Keeps s (warmRegs pcie t) := by
  have kept := Keeps.withRegs (u := { t with regs := t.regs.filter fun x => warmKeeps x.1 }) h rfl sparseWf_filter id
  unfold warmRegs
  dsimp only
  split
  · exact kept.setReg.setBits.setBits.setBits.setReg
  · exact kept.setReg.setBits.setBits.setBits

protected theorem Keeps.resetDebug (h : Keeps s t) : Keeps s (resetDebug t) :=
  h.withMemories rfl rfl (fun _ => h.designMem) (fun _ => h.serviceMem) (fun _ => h.ddrMem) (fun _ => .zeroContents)
    h.traceBuffer h.cairnNvm

protected theorem Keeps.warmReset (h : Keeps s t) : Keeps s (warmReset cause t) := by
  unfold warmReset
  extract_lets was cold s1 flags on s2 s3 s4 s5 s6
  have h2 : Keeps s s2 := h.cutErase.commitAll.cutMarch.cutFuse.drainChannels.loseBanks.resetUnits.resetDebug
  clear_value s2
  have h3 : Keeps s s3 := h2.update
  have h4 : Keeps s s4 := h3.resetPcie.resetAer.warmRegs.setMarchFlags
  clear_value s4
  have h5 : Keeps s s5 := h4.update
  have h6 : Keeps s s6 := h5.closeDomains.keepRefresh
  exact h6.resetBist.enableLinks.reopenDone.recordReset

protected theorem Keeps.severity7Reset (h : Keeps s t) : Keeps s (severity7Reset t) := by
  unfold severity7Reset
  split
  · exact h.update.warmReset
  · exact h

protected theorem Keeps.execSeverity7Reset (h : Keeps s t) : Answers s (execSeverity7Reset t) :=
  .next h.severity7Reset

protected theorem Keeps.warmResetFrom (h : Keeps s t) : Keeps s (warmResetFrom source t) := by
  unfold warmResetFrom
  split
  · exact h.warmReset
  · exact h.severity7Reset
  · exact h.warmReset

protected theorem Keeps.execWarmReset (h : Keeps s t) : Answers s (execWarmReset source t) :=
  .next h.warmResetFrom

protected theorem Keeps.linksLeave (h : Keeps s t) : Keeps s (linksLeave t) :=
  h.forUpTo fun _ _ h1 => (Keeps.ite h1.timeLinkDown h1)

protected theorem Keeps.flr (h : Keeps s t) : Keeps s (flr t) := by
  unfold flr
  extract_lets was cold s1 flags handovers active sched net ld s2 _ s3 s4 s5 s6 s7 s8 s9 s10 _ s11
  have h2 : Keeps s s2 := h.cutErase.commitAll.cutMarch.drainChannels.linksLeave.loseBanks.resetUnits
  clear_value s2
  have h3 : Keeps s s3 := h2.update
  clear_value s3
  have h4 : Keeps s s4 := h3.withRegs rfl sparseWf_filter id
  have h7 : Keeps s s7 := h4.resetPcie.setMarchFlags.setBits.setBits.setBits.setReg.setBits
  have h10 : Keeps s s10 := h7.setBit.setBits.setBit.setBits.closeOpen.keepRefresh
  clear_value s10
  have h11 : Keeps s s11 := h10.update
  exact h11.resetBist.enableLinks.reopenDone.recordReset

protected theorem Keeps.execFlr (h : Keeps s t) : Answers s (execFlr t) :=
  .next h.flr

protected theorem Keeps.losePower (h : Keeps s t) : Keeps s (losePower t) := by
  unfold losePower
  dsimp only
  split
  · exact h
  · split
    · exact h.takeFree.cairnCommit
    · exact h.takeFree

protected theorem Keeps.applyLifeCycle (h : Keeps s t) : Keeps s (applyLifeCycle t) := by
  unfold applyLifeCycle
  dsimp only
  split
  · exact h
  · exact h.update

protected theorem Keeps.coldReset (h : Keeps s t) : Keeps s (coldReset cause straps t) := by
  unfold coldReset
  extract_lets was s1 s2 fails lock s3 _ _ s4 s5 s6 s7 s8
  have h1 : Keeps s s1 := .ite h.losePower h.cutErase.commitAll
  have h3 : Keeps s s3 := h1.cutMarch.cutFuse.cutErase.applyLifeCycle.loseBanks.resetUnits.resetDebug
  clear_value s3
  have channels : ∀ (l : List Nat) (m : Sparse DdrChannel), (∀ c, (look (fun _ => {}) m c).mem.wf) →
      ∀ c, (look (fun _ => {}) (l.foldl (fun m c => put (fun _ => {}) m c
        { mem := loseContents (ddr s3 c).mem }) m) c).mem.wf := by
    intro l
    induction l with
    | nil => exact fun _ hm => hm
    | cons k l ih =>
      refine fun m hm => ih _ fun c => ?_
      rw [look_put]
      split
      · exact loseContents_wf _
      · exact hm c
  have empty : ∀ e, Mem.wf { epoch := e } := fun e => ⟨.nil, nofun⟩
  have h4 : Keeps s s4 := ⟨h3.pending, fun _ => rfl, fun hs => ⟨fun _ => h3.designMem hs, fun _ => h3.serviceMem hs,
    channels _ [] fun _ => empty 1, fun _ => h3.localMem hs, h3.traceBuffer hs, h3.cairnNvm hs⟩⟩
  have h8 : Keeps s s8 := h4.cairnScan.setBits.setBits.setBit.forUpTo fun _ _ h8 => .ite h8 h8.setReg
  exact h8.recordReset

protected theorem Keeps.coldResetFrom (h : Keeps s t) : Keeps s (coldResetFrom source straps t) := by
  unfold coldResetFrom
  split <;> exact h.coldReset

protected theorem Keeps.execColdReset (h : Keeps s t) : Answers s (execColdReset source straps t) :=
  .next h.coldResetFrom

protected theorem Keeps.cutReachMarch (h : Keeps s t) : Keeps s (cutReachMarch r t) := by
  unfold cutReachMarch
  split
  · split
    · exact h.cutMarch
    · exact h
  · exact h

protected theorem Keeps.reachReset (h : Keeps s t) : Keeps s (reachReset r t) :=
  h.removeReach.cutReachMarch.forUpTo fun _ _ h1 => h1.loseBank

protected theorem Keeps.execReachReset (h : Keeps s t) : Answers s (execReachReset r t) :=
  .next h.reachReset

protected theorem Keeps.coldByRegister (h : Keeps s t) : Keeps s (coldByRegister t) :=
  h.takeFree.coldReset

protected theorem Keeps.resetCtrlWrite (h : Keeps s t) : Keeps s (resetCtrlWrite v t) := by
  unfold resetCtrlWrite
  split
  · split
    · exact h.coldByRegister
    · exact h
  · split
    · exact h.warmReset
    · exact h
  · exact h.reachReset
  · exact h

/-! ## Machine/Security -/

protected theorem Keeps.setProtect (h : Keeps s t) : Keeps s (setProtect b t) :=
  h.setBit

protected theorem Keeps.boot (h : Keeps s t) : Keeps s (boot t) := by
  unfold boot
  split
  · exact h.setLhState.setProtect
  · exact h

protected theorem Keeps.execBoot (h : Keeps s t) : Answers s (execBoot t) :=
  .next h.boot

protected theorem Keeps.firmwareVerified (h : Keeps s t) : Keeps s (firmwareVerified t) := by
  unfold firmwareVerified
  split
  · exact h
  · extract_lets code s1 entry
    have h1 : Keeps s s1 := h.setBits
    split
    · have h2 : Keeps s (setLhCore s1 0 { lhCore s1 0 with pc := entry }) := h1.setLhCore h1.localMem
      have h3 := h2.setLhCore (c := 1) (x := { lhCore s1 1 with pc := entry }) h1.localMem
      exact h3.setLhState
    · exact h1.setLhState.setProtect.signal

protected theorem Keeps.execFirmwareVerified (h : Keeps s t) : Answers s (execFirmwareVerified t) :=
  .next h.firmwareVerified

protected theorem Keeps.restart (h : Keeps s t) : Keeps s (restart t) := by
  unfold restart
  extract_lets s1 s2 s3
  have h2 : Keeps s s2 := h.setBits.forUpTo fun _ _ h2 => h2.setReg.setReg
  have h0 : Keeps s (setLhCore s2 0 { local_ := (lhCore s2 0).local_ }) := h2.setLhCore h2.localMem
  have h3 : Keeps s s3 := h0.setLhCore h2.localMem
  exact .ite h3.setLhState h3

protected theorem Keeps.restartRequest (h : Keeps s t) : Keeps s (restartRequest t) :=
  h.bumpBits.restart

protected theorem Keeps.execRestart (h : Keeps s t) : Answers s (execRestart t) :=
  .next h.restartRequest

protected theorem Keeps.kick (h : Keeps s t) : Keeps s (kick c t) :=
  h.setBits

protected theorem Keeps.execKick (h : Keeps s t) : Answers s (execKick c t) :=
  .next h.kick

protected theorem Keeps.lhWatchdog (h : Keeps s t) : Keeps s (lhWatchdog c t) := by
  unfold lhWatchdog
  refine Keeps.ite ?_ ?_
  · exact h.signal.bumpBits.restart
  · exact h

protected theorem Keeps.execLhWatchdog (h : Keeps s t) : Answers s (execLhWatchdog c t) :=
  .next h.lhWatchdog

protected theorem Keeps.halt (h : Keeps s t) : Keeps s (halt t) := by
  unfold halt
  split
  · exact h.setBit
  · exact h

protected theorem Keeps.execHalt (h : Keeps s t) : Answers s (execHalt t) :=
  .next h.halt

protected theorem Keeps.freeCore (h : Keeps s t) : Keeps s (freeCore c t) :=
  h.update.setLhCore h.localMem.loseContents

protected theorem Keeps.haltComplete (h : Keeps s t) : Keeps s (haltComplete t) := by
  unfold haltComplete
  dsimp only
  split
  · exact h.setBit.setBit.setBit.freeCore.freeCore.setBits
  · exact h

protected theorem Keeps.execHaltComplete (h : Keeps s t) : Answers s (execHaltComplete t) :=
  .next h.haltComplete

protected theorem Keeps.endFeed (h : Keeps s t) : Keeps s (endFeed t) :=
  h.update.setBit

protected theorem Keeps.resumeCores (h : Keeps s t) : Keeps s (resumeCores t) := by
  unfold resumeCores
  dsimp only
  split
  · split
    · exact (h.setBit.setBit.endFeed.forUpTo fun _ _ h1 => h1.setBits).powerSync.emitSync.emitSync
    · exact h.setBit.setBit.endFeed.forUpTo fun _ _ h2 => h2.setBits
  · exact h

protected theorem Keeps.execResume (h : Keeps s t) : Answers s (execResume t) :=
  .next (by split; exacts [h.resumeCores, h])

protected theorem Keeps.endSession (h : Keeps s t) : Keeps s (endSession t) := by
  unfold endSession
  dsimp only
  split
  · exact h.setBits.setBit.setBits.setBit.setBit.resumeCores
  · exact h.setBits.setBit.setBits.setBit

protected theorem Keeps.execSessionEnd (h : Keeps s t) : Answers s (execSessionEnd t) :=
  .next h.endSession

protected theorem Keeps.execSessionTimeout (h : Keeps s t) : Answers s (execSessionTimeout t) :=
  .next (by split; exacts [h.endSession, h])

protected theorem Keeps.openSession (h : Keeps s t) : Keeps s (openSession level slot t) := by
  unfold openSession
  split
  · exact h
  · exact h.setBits.setBits

protected theorem Keeps.getChallenge (h : Keeps s t) : Keeps s (getChallenge t) := by
  unfold getChallenge
  dsimp only
  split
  · exact h.setBits
  · exact (h.takeFree.forUpTo fun _ _ h1 => h1.setReg).setBit

protected theorem Keeps.execGet (h : Keeps s t) : Answers s (execGet t) :=
  .next h.getChallenge

protected theorem Keeps.authRecord (h : Keeps s t) : Keeps s (authRecord failures t) :=
  h.addRecord

protected theorem Keeps.go (h : Keeps s t) : Keeps s (go slot t) := by
  unfold go
  dsimp only
  split
  · exact (Keeps.ite h.setBits.setBit.setBits.setBits h.setBits.setBit.setBits.setBits.authRecord).openSession
  · exact h.setBits.setBit.setBits.setBits.setBits.signal.authRecord

protected theorem Keeps.execGo (h : Keeps s t) : Answers s (execGo slot t) :=
  .next h.go

protected theorem Keeps.execChallengeExpiry (h : Keeps s t) : Answers s (execChallengeExpiry t) :=
  .next h.setBit

protected theorem Keeps.execLockoutExpiry (h : Keeps s t) : Answers s (execLockoutExpiry t) :=
  .next h.setBits

protected theorem Keeps.hostRefused (h : Keeps s t) : Keeps s (hostRefused t) :=
  h.setBit

protected theorem Keeps.lcTransition (h : Keeps s t) : Keeps s (lcTransition footpath v t) := by
  unfold lcTransition
  dsimp only
  split
  · split
    · exact h
    · exact h.hostRefused
  · split
    · exact h.endSession.update
    · split
      · exact h
      · exact h.hostRefused

protected theorem Keeps.execLcTransition (h : Keeps s t) : Answers s (execLcTransition footpath value t) :=
  .next h.lcTransition

protected theorem Keeps.keyProgram (h : Keeps s t) : Keeps s (keyProgram footpath slot t) := by
  unfold keyProgram
  dsimp only
  split
  · exact h.update.setBits.update
  · split
    · exact h.update.setBits.setBits.hostRefused
    · exact h.update.setBits.setBits

protected theorem Keeps.execKeyProgram (h : Keeps s t) : Answers s (execKeyProgram footpath slot t) :=
  .next h.keyProgram

protected theorem Keeps.fuseError (h : Keeps s t) : Keeps s (fuseError t) :=
  h.takeFree.signal

protected theorem Keeps.fuseDone (h : Keeps s t) : Keeps s (fuseDone ok t) := by
  unfold fuseDone
  dsimp only
  split
  · exact h
  · split
    · split
      · exact h.update.setBits
      · exact h.update.setBits.fuseError
    · split
      · exact h.update.addRecord
      · exact h.update.fuseError

protected theorem Keeps.execFuseWriteDone (h : Keeps s t) : Answers s (execFuseWriteDone outcome t) :=
  .next h.fuseDone

/-! ## Machine/Read -/

protected theorem Keeps.capture (h : Keeps s t) : Keeps s (capture t a) := by
  unfold capture
  dsimp only
  split
  · split
    · exact h.update
    · exact h
  · exact h

protected theorem Keeps.storeBusy (h : Keeps s t) : Keeps s (storeBusy n t) :=
  h.setBit

protected theorem Keeps.clearRead (h : Keeps s t) : Keeps s (clearRead a t) := by
  unfold clearRead
  dsimp only
  split
  · exact h
  · split
    · exact (Keeps.ite h h.setReg).update
    · split
      · exact h
      · exact h.setReg

protected theorem Keeps.readEffect (h : Keeps s t) : Keeps s (readEffect g a t) := by
  unfold readEffect
  split
  · exact h
  · split
    · exact h.offAccess
    · split
      · split
        · exact h.busyAccess
        · exact h
      · split
        · exact h.viewAccess fun h1 => h1
        · split
          · split
            · exact h
            · exact h.storeBusy
          · exact h.capture.clearRead

protected theorem Keeps.readWord32 (h : Keeps s t) : Keeps s (readWord32 g a t).2 :=
  h.readEffect

protected theorem Keeps.readWords (h : Keeps s t) : Keeps s (readWords g a n t).2 := by
  induction n generalizing a t with
  | zero => exact h
  | succ n ih => exact ih h.readWord32

protected theorem Keeps.readRef (h : Keeps s t) : Keeps s (readRef r t) := by
  unfold readRef
  dsimp only
  refine Keeps.ite ?_ ?_
  · exact h.pcieError
  · split
    · refine Keeps.ite ?_ ?_
      · exact h.answer
      · exact h
    · refine Keeps.ite ?_ ?_
      · exact h
      · refine Keeps.ite ?_ ?_
        · exact h.accessException
        · exact h.lhDdrRead.answer
    · refine Keeps.ite ?_ ?_
      · exact h.unsupportedRead
      · refine Keeps.ite ?_ ?_
        · exact h.accessException
        · exact (Keeps.itePair h.readWords (Keeps.ite h h.offAccess)).answer
    · refine Keeps.ite ?_ ?_
      · exact h.unsupportedRead
      · refine Keeps.ite ?_ ?_
        · exact h.accessException
        · exact (Keeps.itePair h.readWords (Keeps.ite h h.offAccess)).answer

protected theorem Keeps.execReadClear (h : Keeps s t) : Answers s (execReadClear r t) :=
  .next h.readRef

protected theorem Keeps.execCaptureRead (h : Keeps s t) : Answers s (execCaptureRead r t) :=
  .next h.readRef

protected theorem Keeps.execHazardLogRead (h : Keeps s t) : Answers s (execHazardLogRead party t) :=
  .next h.readRef

/-! ## Machine/Access -/

protected theorem Keeps.onBit (h : Keeps s t) (hf : ∀ {a}, Keeps s a → Keeps s (f a)) : Keeps s (onBit v k f t) := by
  unfold onBit
  split
  · exact (hf h)
  · exact h

protected theorem Keeps.cluLocked (h : Keeps s t) : Keeps s (cluLocked n t) :=
  h.setBit

protected theorem Keeps.setSwell (h : Keeps s t) : Keeps s (setSwell n v t) :=
  h.setClu

protected theorem Keeps.writeClu (h : Keeps s t) : Keeps s (writeClu b n a v t) := by
  unfold writeClu
  split
  · split
    · exact h.writeFields
    · exact h.cluLocked
  · split
    · exact h.setSwell
    · exact h.writeFields

protected theorem Keeps.schedLocked (h : Keeps s t) : Keeps s (schedLocked t) :=
  h.setBit

protected theorem Keeps.swellAll (h : Keeps s t) : Keeps s (swellAll t) :=
  h.forUpTo fun _ _ h1 => h1.setSwell

protected theorem Keeps.hazardCfgWrite (h : Keeps s t) : Keeps s (hazardCfgWrite v t) := by
  unfold hazardCfgWrite
  dsimp only
  split
  · exact h.writeFields
  · split
    · exact h.writeFields.setBit.applyFree
    · exact h.writeFields.setBit

protected theorem Keeps.writeGlb (h : Keeps s t) : Keeps s (writeGlb g b i a v t) := by
  unfold writeGlb
  dsimp only
  split
  · split
    · exact h.writeFields
    · exact h.schedLocked
  · split
    · split
      · exact h.writeFields.setBits
      · exact h.schedLocked
    · split
      · exact h.writeFields.onBit fun h1 => h1.swellAll
      · split
        · exact h.hazardCfgWrite
        · split
          · split
            · exact h.writeFields
            · exact h.setBit
          · split
            · split
              · exact h.lhDoorbell
              · exact h
            · split
              · exact h.domainRequest
              · split
                · exact h.resetCtrlWrite
                · split
                  · exact h.reachClkWrite
                  · exact h.writeFields

protected theorem Keeps.writeFlt (h : Keeps s t) : Keeps s (writeFlt g b a v t) := by
  unfold writeFlt
  split
  · exact h.writeFields.onBit fun h1 => h1.safeRelease
  · split
    · exact h.sevWrite
    · split
      · exact h.faultInject
      · exact h.writeFields

protected theorem Keeps.writeWf (h : Keeps s t) : Keeps s (writeWf b ix a v t) := by
  unfold writeWf
  dsimp only
  split
  · exact h.ptraceWrite
  · split
    · exact h.onBit fun h1 => h1.routerReset
    · split
      · exact h.niCtrlWrite
      · split
        · exact h.routeWordWrite
        · split
          · exact h.routeWordWrite
          · split
            · exact h.routeWordWrite
            · split
              · exact h.routeWordWrite
              · split
                · exact h.slotWrite
                · exact h.writeFields

protected theorem Keeps.writeCw (h : Keeps s t) : Keeps s (writeCw b i a v t) := by
  unfold writeCw
  split
  · exact h.laneCtrlWrite.patternMode
  · split
    · exact h.inject_
    · split
      · exact h.linkConfig
      · split
        · split
          · exact h.writeFields
          · exact h.setBit
        · exact h.writeFields

protected theorem Keeps.writeMem (h : Keeps s t) : Keeps s (writeMem b i a v t) := by
  unfold writeMem
  split
  · exact h.ddrCfgWrite
  · split
    · exact h.ddrRegionWrite
    · split
      · exact h.bankCfgWrite
      · split
        · exact h.ownerWrite
        · split
          · exact h.marchWrite
          · exact h.writeFields

protected theorem Keeps.writeHb (h : Keeps s t) : Keeps s (writeHb b i a v t) := by
  unfold writeHb
  split
  · exact (h.onBit fun h1 => h1.flush).harbourEnable
  · split
    · exact h.hbCfgWrite
    · split
      · split
        · exact h
        · exact h.writeFields
      · split
        · split
          · exact h
          · exact h.writeFields
        · split
          · exact h.ringCfgWrite
          · split
            · exact h.ringTailWrite
            · exact h.writeFields

protected theorem Keeps.writeObs (h : Keeps s t) : Keeps s (writeObs b a v t) := by
  unfold writeObs
  dsimp only
  split
  · exact h.runCtrlWrite
  · split
    · exact h.freezeAt
    · split
      · exact ((h.writeFields.onBit fun h1 => h1.arm).onBit fun h2 => h2.disarm).onBit fun h3 => h3.forceTrigger
      · split
        · exact (Keeps.ite h.setBit.setBit h.writeFields).onBit fun h4 => h4.acqStop
        · split
          · exact h.setBit
          · exact h.writeFields

protected theorem Keeps.writeTime (h : Keeps s t) : Keeps s (writeTime g b a v t) := by
  unfold writeTime
  split
  · exact h.watchRun fun h1 => h1.traceCtrlWrite
  · split
    · exact h.traceMsg
    · split
      · exact (h.onBit fun h2 => h2.timeSet).onBit fun h3 => h3.servoInit
      · split
        · exact h.timeCfgWrite
        · split
          · exact h.timeCfgWrite
          · split
            · exact h.timeIncWrite
            · exact h.watchRun fun h4 => h4.writeFields

protected theorem Keeps.writeLoad (h : Keeps s t) : Keeps s (writeLoad b i a v t) := by
  unfold writeLoad
  split
  · exact ((((h.onBit fun h1 => h1.loadArm).onBit fun h2 => h2.loadGo).onBit fun h3 => h3.loadAbort).onBit fun h4 => h4.loadStart).onBit fun h5 => h5.releaseStep
  · split
    · split
      · exact h.writeFields.feedParent
      · exact h.ldLocked
    · split
      · exact h.writeFields
      · split
        · split
          · exact h.writeFields
          · exact h.ldLocked
        · split
          · split
            · exact h.rlLocked
            · exact h.writeFields
          · split
            · split
              · exact h.rlLocked
              · exact h.writeFields
            · split
              · exact (((h.onBit fun h6 => h6.reloadGo).onBit fun h7 => h7.reloadEnd).onBit fun h8 => h8.reloadJoin).onBit fun h9 => h9.reloadAbort
              · exact h.writeFields

protected theorem Keeps.setConsume (h : Keeps s t) : Keeps s (setConsume on t) :=
  h.setBit.setBit

protected theorem Keeps.writeDbg (h : Keeps s t) : Keeps s (writeDbg b i a v t) := by
  unfold writeDbg
  dsimp only
  split
  · exact (h.onBit fun h1 => h1.halt).onBit fun h2 => (Keeps.ite h2.resumeCores h2)
  · split
    · exact (Keeps.ite h.setConsume h).onBit fun h3 => h3.endSession
    · split
      · exact (h.writeFields.onBit fun h4 => h4.getChallenge).onBit fun h5 => h5.go
      · split
        · exact h.update
        · exact h.writeFields

protected theorem Keeps.writeLh (h : Keeps s t) : Keeps s (writeLh b i a v t) := by
  unfold writeLh
  split
  · exact (h.onBit fun h1 => h1.boot).onBit fun h2 => h2.restartRequest
  · split
    · split
      · exact h
      · exact h.writeFields
    · split
      · exact h.onBit fun h3 => h3.kick
      · exact h.writeFields

protected theorem Keeps.writeSec (h : Keeps s t) : Keeps s (writeSec footpath b i v t) := by
  unfold writeSec
  split
  · exact h.lcTransition
  · split
    · split
      · exact h.keyProgram
      · split
        · exact h.writeFields
        · split
          · exact h
          · exact h.hostRefused
    · split
      · split
        · exact h.update
        · split
          · exact h
          · exact h.hostRefused
      · split
        · exact h.hostRefused
        · exact h

protected theorem Keeps.writeLhBlock (h : Keeps s t) : Keeps s (writeLhBlock g b i a v t) := by
  unfold writeLhBlock
  split
  · exact h.writeLh
  · split
    · exact h.writeFields
    · split
      · split
        · exact h.writeDbg
        · exact h.hostRefused
      · exact h.writeSec

protected theorem Keeps.writeBist (h : Keeps s t) : Keeps s (writeBist g b a v t) := by
  unfold writeBist
  split
  · exact h.writeFields.onBit fun h1 => h1.bistGo
  · split
    · exact h.testGo
    · split
      · exact (h.onBit fun h2 => h2.cairnWrite).onBit fun h3 => h3.cairnErase
      · exact h.writeFields

protected theorem Keeps.writeReg (h : Keeps s t) : Keeps s (writeReg x g ix a v t) := by
  unfold writeReg
  dsimp only
  split
  · exact h.writeClu
  · split
    · exact h.writeGlb
    · split
      · exact h.writeFlt
      · split
        · exact h.writeWf
        · split
          · exact h.writeCw
          · split
            · exact h.writeMem
            · split
              · exact h.writeHb
              · split
                · exact h.writeObs
                · split
                  · exact h.writeTime
                  · split
                    · exact h.writeLoad
                    · split
                      · exact h.writeLhBlock
                      · exact h.writeBist

protected theorem Keeps.setStoreWord (h : Keeps s t) : Keeps s (setStoreWord n word v t) :=
  h.setClu

protected theorem Keeps.storeAccess (h : Keeps s t) : Keeps s (storeAccess n word x t) := by
  unfold storeAccess
  split
  · split
    · exact h.offAccess.answer
    · exact h.offAccess
  · split
    · split
      · exact h.answer
      · exact h.setStoreWord
    · split
      · exact h.storeBusy.answer
      · exact h.storeBusy

protected theorem Keeps.writeWord32 (h : Keeps s t) : Keeps s (writeWord32 g a v t) := by
  unfold writeWord32
  split
  · exact h
  · split
    · exact h
    · split
      · exact h.serviceWrite
      · split
        · exact h.offAccess
        · split
          · exact h.setMsixWord
          · split
            · exact h.viewWrite
            · split
              · exact h.storeAccess
              · split
                · exact h.reloadWindowWrite
                · split
                  · exact h.writeReg
                  · exact h

protected theorem Keeps.bar2Write (h : Keeps s t) : Keeps s (bar2Write a v t) := by
  unfold bar2Write
  split
  · exact h.offAccess
  · split
    · exact h.ringTailWrite
    · split
      · exact h.windowWrite
      · split
        · exact h.windowWrite
        · exact h

protected theorem Keeps.badSize (h : Keeps s t) : Keeps s (badSize t) :=
  h.setBit

protected theorem Keeps.writeBarWord (h : Keeps s t) : Keeps s (writeBarWord p bar a v t) := by
  unfold writeBarWord
  split
  · exact h.writeWord32
  · exact h.bar2Write
  · exact h
  · exact h

protected theorem Keeps.writeWords (h : Keeps s t) : Keeps s (writeWords r a l t) := by
  induction l generalizing a t with
  | nil => exact h
  | cons v l ih => exact ih (.ite h.writeBarWord h.badSize)

protected theorem Keeps.configRequest (h : Keeps s t) : Keeps s (configRequest c mask v t) := by
  unfold configRequest
  dsimp only
  split
  · exact h.configWrite.flr
  · exact h.configWrite

protected theorem Keeps.writeRef (h : Keeps s t) : Keeps s (writeRef r data t) := by
  unfold writeRef
  split
  · exact h.pcieError
  · split
    · split
      · split
        · exact h.pcieError
        · exact h.configRequest
      · exact h
    · split
      · exact h
      · split
        · exact h.accessException
        · exact h.lhDdrWrite
    · split
      · exact h.unsupportedRequest
      · split
        · exact h.pcieError
        · split
          · exact h.accessException
          · exact h.writeWords
    · split
      · exact h.unsupportedRequest
      · split
        · exact h.pcieError
        · split
          · exact h.accessException
          · exact h.writeWords

protected theorem Keeps.execRegisterWrite (h : Keeps s t) : Answers s (execRegisterWrite r data t) :=
  .next h.writeRef

protected theorem Keeps.execForceWrite (h : Keeps s t) : Answers s (execForceWrite n f value t) :=
  .next h.writeWord32

protected theorem Keeps.execSwellFlagsWrite (h : Keeps s t) : Answers s (execSwellFlagsWrite n value t) :=
  .next h.writeWord32

protected theorem Keeps.execSwellAll (h : Keeps s t) : Answers s (execSwellAll t) :=
  .next h.swellAll

protected theorem Keeps.execVsViewAccess (h : Keeps s t) : Answers s (execVsViewAccess n word access t) :=
  .next h.storeAccess

protected theorem Keeps.takeMgmt (h : Keeps s t) (e : takeMgmt t i k = some x) : Keeps s x.2 := by
  unfold takeMgmt at e
  obtain ⟨p, -, rfl⟩ := Option.map_eq_some_iff.1 e
  exact h.setNi

protected theorem Keeps.mgmtWrite (h : Keeps s t) : Keeps s (mgmtWrite i party a v t) := by
  unfold mgmtWrite
  split
  next => exact h
  next e => exact (h.takeMgmt e).writeWord32

protected theorem Keeps.execMgmtWrite (h : Keeps s t) : Answers s (execMgmtWrite i party addr value t) :=
  .next h.mgmtWrite

protected theorem Keeps.mgmtRead (h : Keeps s t) : Keeps s (mgmtRead i a t) := by
  unfold mgmtRead
  split
  next => exact h
  next e => exact (h.takeMgmt e).readWord32.respond

protected theorem Keeps.execMgmtRead (h : Keeps s t) : Answers s (execMgmtRead i addr t) :=
  .next h.mgmtRead

/-! ## Machine/Footpath -/

protected theorem Keeps.feedError (h : Keeps s t) : Keeps s (feedError t) :=
  h.setBit

protected theorem Keeps.stepAddress (h : Keeps s t) : Keeps s (stepAddress inc t) := by
  unfold stepAddress
  split
  · exact h.setReg
  · exact h

protected theorem Keeps.peekOnly (h : Keeps s t) : Keeps s (peekOnly t u) :=
  h.update

protected theorem Keeps.feedReadReg (h : Keeps s t) : Keeps s (feedReadReg c g t) :=
  h.setReg

protected theorem Keeps.feedWriteReg (h : Keeps s t) : Keeps s (feedWriteReg c g t) :=
  h.setLhCore h.localMem

protected theorem Keeps.feedPc (h : Keeps s t) : Keeps s (feedPc c t) :=
  h.setReg

protected theorem Keeps.feedSetPc (h : Keeps s t) : Keeps s (feedSetPc c t) :=
  h.setLhCore h.localMem

protected theorem Keeps.lhLoad (h : Keeps s t) (e : lhLoad c a t = some x) : Keeps s x.2 := by
  unfold lhLoad at e
  split at e <;> cases e
  · exact h
  · exact h
  · exact h.readWord32
  · exact h.lhDdrRead

protected theorem Keeps.feedLoadWord (h : Keeps s t) : Keeps s (feedLoadWord c inc t) := by
  unfold feedLoadWord
  split
  next => exact h.feedError
  next e => exact (Keeps.ite (h.lhLoad e) h.peekOnly).setReg.stepAddress

protected theorem Keeps.lhStore (h : Keeps s t) (e : lhStore c a v t = some u) : Keeps s u := by
  unfold lhStore at e
  split at e <;> cases e
  · exact h.setLhCore h.localMem.writeWord
  · exact h.writeWord32
  · exact h.lhDdrWrite

protected theorem Keeps.feedStoreWord (h : Keeps s t) : Keeps s (feedStoreWord c inc t) := by
  unfold feedStoreWord
  split
  next => exact h.feedError
  next e => exact (h.lhStore e).stepAddress

protected theorem Keeps.feedOperation (h : Keeps s t) : Keeps s (feedOperation v t) := by
  unfold feedOperation
  generalize bitsOf v 28 4 = k
  rcases k with _ | _ | _ | _ | _ | _ | _ | _ | k
  · exact h.feedError
  · exact h.feedReadReg
  · exact h.feedWriteReg
  · exact h.feedPc
  · exact h.feedSetPc
  · exact h.feedLoadWord
  · exact h.feedStoreWord
  · exact h
  · exact h.feedError


protected theorem Keeps.feed (h : Keeps s t) : Keeps s (feed v t) := by
  unfold feed
  split
  · exact h
  · split
    · exact h.feedError
    · split
      · exact h.feedOperation
      · split
        · exact h.endFeed.feedOperation
        · exact h.feedError

protected theorem Keeps.feedWrite (h : Keeps s t) : Keeps s (feedWrite slow v t) := by
  unfold feedWrite
  split
  · exact h
  · split
    · exact h.feedError
    · split
      · exact h.update.setBit
      · exact h.feedOperation

protected theorem Keeps.execFeedReadRegister (h : Keeps s t) : Answers s (execFeedReadRegister core' g t) :=
  .next h.feed

protected theorem Keeps.execFeedWriteRegister (h : Keeps s t) : Answers s (execFeedWriteRegister core' g t) :=
  .next h.feed

protected theorem Keeps.execFeedReadPc (h : Keeps s t) : Answers s (execFeedReadPc core' t) :=
  .next h.feed

protected theorem Keeps.execFeedWritePc (h : Keeps s t) : Answers s (execFeedWritePc core' t) :=
  .next h.feed

protected theorem Keeps.execFeedLoad (h : Keeps s t) : Answers s (execFeedLoad core' inc t) :=
  .next h.feed

protected theorem Keeps.execFeedStore (h : Keeps s t) : Answers s (execFeedStore core' inc t) :=
  .next h.feed

protected theorem Keeps.execFeedCompleteStores (h : Keeps s t) : Answers s (execFeedCompleteStores core' t) :=
  .next h.feed

protected theorem Keeps.firstFrame (h : Keeps s t) : Keeps s (firstFrame t) := by
  unfold firstFrame
  split
  · exact h
  · split
    · exact h.openSession
    · split
      · exact h.openSession
      · exact h

protected theorem Keeps.reply (h : Keeps s t) : Keeps s (reply status data t) :=
  h.update

protected theorem Keeps.request (h : Keeps s t) (hf : ∀ {a}, Keeps s a → Keeps s (f a)) : Keeps s (request crcOk f t) := by
  unfold request
  split
  · exact (hf h.firstFrame)
  · exact h.reply

protected theorem Keeps.peekWords (h : Keeps s t) : Keeps s (peekWords t a n).2 := by
  unfold peekWords
  dsimp only
  split
  · exact h.readWords
  · exact h

protected theorem Keeps.peekRequest (h : Keeps s t) : Keeps s (peekRequest a n t) := by
  unfold peekRequest
  dsimp only
  split
  · exact h.peekWords.reply
  · exact h.reply

protected theorem Keeps.execPeek (h : Keeps s t) : Answers s (execPeek addr crcOk t) :=
  .next (h.request fun h1 => h1.peekRequest)

protected theorem Keeps.execBurstPeek (h : Keeps s t) : Answers s (execBurstPeek addr count crcOk t) :=
  .next (h.request fun h1 => h1.peekRequest)

protected theorem Keeps.pokeWrite (h : Keeps s t) : Keeps s (pokeWrite slow a v t) := by
  unfold pokeWrite
  split
  · exact h.feedWrite
  · exact h.writeWord32

protected theorem Keeps.pokeLate (h : Keeps s t) : Keeps s (pokeLate a v t) :=
  h.update

protected theorem Keeps.pokeRequest (h : Keeps s t) : Keeps s (pokeRequest slow a v t) := by
  unfold pokeRequest
  split
  · split
    · exact h.pokeLate
    · exact h.pokeWrite.reply
  · exact h.reply

protected theorem Keeps.execPoke (h : Keeps s t) : Answers s (execPoke addr value frame t) :=
  .next (h.request fun h1 => h1.pokeRequest)

protected theorem Keeps.execReservedOp (h : Keeps s t) : Answers s (execReservedOp op crcOk t) :=
  .next (by split; exacts [h, h.request fun h1 => h1.reply])

protected theorem Keeps.footpathReply (h : Keeps s t) : Keeps s (footpathReply t) := by
  unfold footpathReply
  dsimp only
  split
  · exact h
  · split
    · exact h.update
    · exact h.update.pokeWrite

protected theorem Keeps.execFootpathReply (h : Keeps s t) : Answers s (execFootpathReply t) :=
  .next h.footpathReply

protected theorem Keeps.execFootpathFrameTimeout (h : Keeps s t) : Answers s (execFootpathFrameTimeout t) :=
  .next h

protected theorem Keeps.execFramingError (h : Keeps s t) : Answers s (execFramingError t) :=
  .next h

end Sys2Proof.Machine
end

/-! # Every step: one command, and every canonical form stays -/

section
namespace Sys2Proof.Machine
set_option Elab.async false

/-- Every command answers a next state that keeps the queue and every canonical form (log entry 1). -/
theorem exec_answers : ∀ (c : Instr) (s : State), Answers s (exec c s)
  | .clusterStep _, s => (Keeps.refl s).execClusterStep
  | .mrdLanding _, s => (Keeps.refl s).execMrdLanding
  | .vc0WordArrival _, s => (Keeps.refl s).execVc0WordArrival
  | .queueAppend _, s => (Keeps.refl s).execQueueAppend
  | .wmTimeout _, s => (Keeps.refl s).execWmTimeout
  | .niRequestSend _, s => (Keeps.refl s).execNiRequestSend
  | .acceptanceReceive _, s => (Keeps.refl s).execAcceptanceReceive
  | .domainAsleepReceive _, s => (Keeps.refl s).execDomainAsleepReceive
  | .niSourceHoldExpiry _, s => (Keeps.refl s).execNiSourceHoldExpiry
  | .routerOutputSelect _, s => (Keeps.refl s).execRouterOutputSelect
  | .probeTraceWrite _, s => (Keeps.refl s).execProbeTraceWrite
  | .niPacketReceive _, s => (Keeps.refl s).execNiPacketReceive
  | .mgmtWrite _ _ _ _, s => (Keeps.refl s).execMgmtWrite
  | .mgmtRead _ _, s => (Keeps.refl s).execMgmtRead
  | .reservationProbe _, s => (Keeps.refl s).execReservationProbe
  | .legDecision, s => (Keeps.refl s).execLegDecision
  | .milestone, s => (Keeps.refl s).execMilestone
  | .milestoneLeave, s => (Keeps.refl s).execMilestoneLeave
  | .tokenReceive _ _, s => (Keeps.refl s).execTokenReceive
  | .holdMarkerReceive _ _, s => (Keeps.refl s).execHoldMarkerReceive
  | .msTokenTimeout, s => (Keeps.refl s).execMsTokenTimeout
  | .tokenRepeat _, s => (Keeps.refl s).execTokenRepeat
  | .registerWrite _ _, s => (Keeps.refl s).execRegisterWrite
  | .readClear _, s => (Keeps.refl s).execReadClear
  | .captureRead _, s => (Keeps.refl s).execCaptureRead
  | .hazardLogRead _, s => (Keeps.refl s).execHazardLogRead
  | .forceWrite _ _ _, s => (Keeps.refl s).execForceWrite
  | .swellFlagsWrite _ _, s => (Keeps.refl s).execSwellFlagsWrite
  | .swellAll, s => (Keeps.refl s).execSwellAll
  | .vsViewAccess _ _ _, s => (Keeps.refl s).execVsViewAccess
  | .routeEntryWrite _ _ _, s => (Keeps.refl s).execRouteEntryWrite
  | .quiesce _, s => (Keeps.refl s).execQuiesce
  | .niQuiet _, s => (Keeps.refl s).execNiQuiet
  | .routerReset _, s => (Keeps.refl s).execRouterReset
  | .routerDrainDone _, s => (Keeps.refl s).execRouterDrainDone
  | .routerReopen _, s => (Keeps.refl s).execRouterReopen
  | .switchReq, s => (Keeps.refl s).execSwitchReq
  | .ptraceEnable _, s => (Keeps.refl s).execPtraceEnable
  | .linkConfig _ _, s => (Keeps.refl s).execLinkConfig
  | .retrain _, s => (Keeps.refl s).execRetrain
  | .loopChange _ _, s => (Keeps.refl s).execLoopChange
  | .patternMode _, s => (Keeps.refl s).execPatternMode
  | .prbsLock _ _, s => (Keeps.refl s).execPrbsLock
  | .inject _ _, s => (Keeps.refl s).execInject
  | .laneLock _, s => (Keeps.refl s).execLaneLock
  | .laneAlign _ _, s => (Keeps.refl s).execLaneAlign
  | .trainingSetReceive _ _, s => (Keeps.refl s).execTrainingSetReceive
  | .laneDown _, s => (Keeps.refl s).execLaneDown
  | .alignmentMarkerDue _, s => (Keeps.refl s).execAlignmentMarkerDue
  | .alignmentMarkerReceive _ _, s => (Keeps.refl s).execAlignmentMarkerReceive
  | .linkUp _, s => (Keeps.refl s).execLinkUp
  | .delayExchange _ _, s => (Keeps.refl s).execDelayExchange
  | .delayMeasured _, s => (Keeps.refl s).execDelayMeasured
  | .fillerDue _, s => (Keeps.refl s).execFillerDue
  | .fillerReceive _, s => (Keeps.refl s).execFillerReceive
  | .cwEbSlip _ _, s => (Keeps.refl s).execCwEbSlip
  | .unitBoundary _, s => (Keeps.refl s).execUnitBoundary
  | .frameReceive _ _, s => (Keeps.refl s).execFrameReceive
  | .vc0FrameReceive _, s => (Keeps.refl s).execVc0FrameReceive
  | .flitFrameReceive _, s => (Keeps.refl s).execFlitFrameReceive
  | .linkControlReceive _, s => (Keeps.refl s).execLinkControlReceive
  | .linkVc0Enter _, s => (Keeps.refl s).execLinkVc0Enter
  | .nakReceive _, s => (Keeps.refl s).execNakReceive
  | .resendWindowExpiry _, s => (Keeps.refl s).execResendWindowExpiry
  | .cwLinkTimeout _, s => (Keeps.refl s).execCwLinkTimeout
  | .ownerHandover _ _ _, s => (Keeps.refl s).execOwnerHandover
  | .handoverDone _, s => (Keeps.refl s).execHandoverDone
  | .bankPowerRequest _ _ _, s => (Keeps.refl s).execBankPowerRequest
  | .bankPowerDone _, s => (Keeps.refl s).execBankPowerDone
  | .controlViewAccess _ _ _, s => (Keeps.refl s).execControlViewAccess
  | .setAliasWrite _ _ _ _, s => (Keeps.refl s).execSetAliasWrite
  | .clearAliasWrite _ _ _ _, s => (Keeps.refl s).execClearAliasWrite
  | .serviceBankAccess _ _ _ _, s => (Keeps.refl s).execServiceBankAccess
  | .marchGo _, s => (Keeps.refl s).execMarchGo
  | .marchDone _, s => (Keeps.refl s).execMarchDone
  | .ddrTrain _ _ _ _, s => (Keeps.refl s).execDdrTrain
  | .ddrRefresh _, s => (Keeps.refl s).execDdrRefresh
  | .ddrRequest _, s => (Keeps.refl s).execDdrRequest
  | .ddrRequestDone _, s => (Keeps.refl s).execDdrRequestDone
  | .bar4Access _ _ _, s => (Keeps.refl s).execBar4Access
  | .bar4WinWrite _, s => (Keeps.refl s).execBar4WinWrite
  | .harbourCycle, s => (Keeps.refl s).execHarbourCycle
  | .dlistTick _, s => (Keeps.refl s).execDlistTick
  | .hostMessage _, s => (Keeps.refl s).execHostMessage
  | .blockMover, s => (Keeps.refl s).execBlockMover
  | .reloadFeed, s => (Keeps.refl s).execReloadFeed
  | .loopBack, s => (Keeps.refl s).execLoopBack
  | .reservationAnswer, s => (Keeps.refl s).execReservationAnswer
  | .parkReprobe, s => (Keeps.refl s).execParkReprobe
  | .hbParkTimeout, s => (Keeps.refl s).execHbParkTimeout
  | .actionEnd, s => (Keeps.refl s).execActionEnd
  | .harbourEnable _, s => (Keeps.refl s).execHarbourEnable
  | .flush, s => (Keeps.refl s).execFlush
  | .ringTailWrite _ _, s => (Keeps.refl s).execRingTailWrite
  | .txDescriptorFetch _ _ _, s => (Keeps.refl s).execTxDescriptorFetch
  | .txWriteBack _, s => (Keeps.refl s).execTxWriteBack
  | .ringEnable _ _, s => (Keeps.refl s).execRingEnable
  | .dmaError _ _, s => (Keeps.refl s).execDmaError
  | .messageWindowWrite _ _, s => (Keeps.refl s).execMessageWindowWrite
  | .loadArm, s => (Keeps.refl s).execLoadArm
  | .loadGo, s => (Keeps.refl s).execLoadGo
  | .loadAbort, s => (Keeps.refl s).execLoadAbort
  | .loadStart, s => (Keeps.refl s).execLoadStart
  | .releaseStep, s => (Keeps.refl s).execReleaseStep
  | .streamFetch _, s => (Keeps.refl s).execStreamFetch
  | .sectionReceived, s => (Keeps.refl s).execSectionReceived
  | .fetchFailure _, s => (Keeps.refl s).execFetchFailure
  | .backoffExpiry, s => (Keeps.refl s).execBackoffExpiry
  | .retry _, s => (Keeps.refl s).execRetry
  | .rewind _, s => (Keeps.refl s).execRewind
  | .rewound _, s => (Keeps.refl s).execRewound
  | .endMessage _, s => (Keeps.refl s).execEndMessage
  | .abort _, s => (Keeps.refl s).execAbort
  | .report _ _, s => (Keeps.refl s).execReport
  | .start, s => (Keeps.refl s).execStart
  | .enterHold, s => (Keeps.refl s).execEnterHold
  | .loadWrite, s => (Keeps.refl s).execLoadWrite
  | .loadComplete, s => (Keeps.refl s).execLoadComplete
  | .shoreWordTransfer _ _, s => (Keeps.refl s).execShoreWordTransfer
  | .scrubRead _, s => (Keeps.refl s).execScrubRead
  | .scrubPassEnd _, s => (Keeps.refl s).execScrubPassEnd
  | .reloadGo, s => (Keeps.refl s).execReloadGo
  | .reloadLeaveRun, s => (Keeps.refl s).execReloadLeaveRun
  | .reloadReceiving, s => (Keeps.refl s).execReloadReceiving
  | .breakwaterLaunch _ _, s => (Keeps.refl s).execBreakwaterLaunch
  | .reloadWindowWrite _ _, s => (Keeps.refl s).execReloadWindowWrite
  | .reloadEnd, s => (Keeps.refl s).execReloadEnd
  | .reloadReady, s => (Keeps.refl s).execReloadReady
  | .reloadJoin, s => (Keeps.refl s).execReloadJoin
  | .reloadAbort, s => (Keeps.refl s).execReloadAbort
  | .slotPlan, s => (Keeps.refl s).execSlotPlan
  | .freeze, s => (Keeps.refl s).execFreeze
  | .run, s => (Keeps.refl s).execRun
  | .step, s => (Keeps.refl s).execStep
  | .stop, s => (Keeps.refl s).execStop
  | .freezeAt _, s => (Keeps.refl s).execFreezeAt
  | .arm, s => (Keeps.refl s).execArm
  | .disarm, s => (Keeps.refl s).execDisarm
  | .forceTrigger, s => (Keeps.refl s).execForceTrigger
  | .acqStop, s => (Keeps.refl s).execAcqStop
  | .captureDrain, s => (Keeps.refl s).execCaptureDrain
  | .pauseResume, s => (Keeps.refl s).execPauseResume
  | .segmentRearm, s => (Keeps.refl s).execSegmentRearm
  | .timeTick, s => (Keeps.refl s).execTimeTick
  | .timeSet, s => (Keeps.refl s).execTimeSet
  | .servoReset, s => (Keeps.refl s).execServoReset
  | .timeCfgWrite _ _, s => (Keeps.refl s).execTimeCfgWrite
  | .syncSend _, s => (Keeps.refl s).execSyncSend
  | .syncReceive _ _, s => (Keeps.refl s).execSyncReceive
  | .followUpReceive _ _, s => (Keeps.refl s).execFollowUpReceive
  | .delayReqReceive _ _, s => (Keeps.refl s).execDelayReqReceive
  | .delayRespReceive _ _, s => (Keeps.refl s).execDelayRespReceive
  | .timeSyncLost, s => (Keeps.refl s).execTimeSyncLost
  | .boot, s => (Keeps.refl s).execBoot
  | .firmwareVerified, s => (Keeps.refl s).execFirmwareVerified
  | .restart, s => (Keeps.refl s).execRestart
  | .kick _, s => (Keeps.refl s).execKick
  | .lhWatchdog _, s => (Keeps.refl s).execLhWatchdog
  | .peek _ _, s => (Keeps.refl s).execPeek
  | .poke _ _ _, s => (Keeps.refl s).execPoke
  | .burstPeek _ _ _, s => (Keeps.refl s).execBurstPeek
  | .reservedOp _ _, s => (Keeps.refl s).execReservedOp
  | .footpathReply, s => (Keeps.refl s).execFootpathReply
  | .footpathFrameTimeout, s => (Keeps.refl s).execFootpathFrameTimeout
  | .get, s => (Keeps.refl s).execGet
  | .go _, s => (Keeps.refl s).execGo
  | .challengeExpiry, s => (Keeps.refl s).execChallengeExpiry
  | .lockoutExpiry, s => (Keeps.refl s).execLockoutExpiry
  | .sessionEnd, s => (Keeps.refl s).execSessionEnd
  | .sessionTimeout, s => (Keeps.refl s).execSessionTimeout
  | .halt, s => (Keeps.refl s).execHalt
  | .haltComplete, s => (Keeps.refl s).execHaltComplete
  | .resume, s => (Keeps.refl s).execResume
  | .feedReadRegister _ _, s => (Keeps.refl s).execFeedReadRegister
  | .feedWriteRegister _ _, s => (Keeps.refl s).execFeedWriteRegister
  | .feedReadPc _, s => (Keeps.refl s).execFeedReadPc
  | .feedWritePc _, s => (Keeps.refl s).execFeedWritePc
  | .feedLoad _ _, s => (Keeps.refl s).execFeedLoad
  | .feedStore _ _, s => (Keeps.refl s).execFeedStore
  | .feedCompleteStores _, s => (Keeps.refl s).execFeedCompleteStores
  | .lcTransition _ _, s => (Keeps.refl s).execLcTransition
  | .keyProgram _ _, s => (Keeps.refl s).execKeyProgram
  | .fuseWriteDone _, s => (Keeps.refl s).execFuseWriteDone
  | .coreBranch _ _ _ _, s => (Keeps.refl s).execCoreBranch
  | .coreDataAccess _ _ _, s => (Keeps.refl s).execCoreDataAccess
  | .coreSleep _, s => (Keeps.refl s).execCoreSleep
  | .coreWake _, s => (Keeps.refl s).execCoreWake
  | .traceMsg _ _, s => (Keeps.refl s).execTraceMsg
  | .traceRoom _, s => (Keeps.refl s).execTraceRoom
  | .trig, s => (Keeps.refl s).execTrig
  | .faultEvent, s => (Keeps.refl s).execFaultEvent
  | .severity7Reset, s => (Keeps.refl s).execSeverity7Reset
  | .faultInject _ _, s => (Keeps.refl s).execFaultInject
  | .safeRelease, s => (Keeps.refl s).execSafeRelease
  | .sevLock, s => (Keeps.refl s).execSevLock
  | .cairnCommit _, s => (Keeps.refl s).execCairnCommit
  | .cairnWrite, s => (Keeps.refl s).execCairnWrite
  | .erase _, s => (Keeps.refl s).execErase
  | .eraseDone, s => (Keeps.refl s).execEraseDone
  | .bistRun, s => (Keeps.refl s).execBistRun
  | .bistDone _, s => (Keeps.refl s).execBistDone
  | .testEngineGo _ _, s => (Keeps.refl s).execTestEngineGo
  | .testEngineDone, s => (Keeps.refl s).execTestEngineDone
  | .domainRequest _ _, s => (Keeps.refl s).execDomainRequest
  | .domainClose _, s => (Keeps.refl s).execDomainClose
  | .domainDrainDone _, s => (Keeps.refl s).execDomainDrainDone
  | .domainOff _, s => (Keeps.refl s).execDomainOff
  | .domainOpen _, s => (Keeps.refl s).execDomainOpen
  | .railInRange _, s => (Keeps.refl s).execRailInRange
  | .railTimeout _, s => (Keeps.refl s).execRailTimeout
  | .domainOn _, s => (Keeps.refl s).execDomainOn
  | .railOutOfRange _, s => (Keeps.refl s).execRailOutOfRange
  | .fllCalibrate _, s => (Keeps.refl s).execFllCalibrate
  | .thermalDecision, s => (Keeps.refl s).execThermalDecision
  | .sensorSample _ _, s => (Keeps.refl s).execSensorSample
  | .refclkLoss _, s => (Keeps.refl s).execRefclkLoss
  | .refclkReturn _, s => (Keeps.refl s).execRefclkReturn
  | .coldReset _ _, s => (Keeps.refl s).execColdReset
  | .warmReset _, s => (Keeps.refl s).execWarmReset
  | .reachReset _, s => (Keeps.refl s).execReachReset
  | .flr, s => (Keeps.refl s).execFlr
  | .irqCauseClear _ _, s => (Keeps.refl s).execIrqCauseClear
  | .msixSend _, s => (Keeps.refl s).execMsixSend
  | .msixPendingSend _, s => (Keeps.refl s).execMsixPendingSend
  | .lhDoorbell _, s => (Keeps.refl s).execLhDoorbell
  | .powerStateChange _, s => (Keeps.refl s).execPowerStateChange
  | .busMasterEnable _ _ _ _, s => (Keeps.refl s).execBusMasterEnable
  | .pcieLinkDown, s => (Keeps.refl s).execPcieLinkDown
  | .tideStart, s => (Keeps.refl s).execTideStart
  | .tidePhaseEnd _, s => (Keeps.refl s).execTidePhaseEnd
  | .shoreWordArrival _, s => (Keeps.refl s).execShoreWordArrival
  | .reloadChecked, s => (Keeps.refl s).execReloadChecked
  | .pcieLinkUp _ _, s => (Keeps.refl s).execPcieLinkUp
  | .framingError, s => (Keeps.refl s).execFramingError
  | .phaseStrobeRise, s => (Keeps.refl s).execPhaseStrobeRise

/-- A step keeps every canonical form and takes the front command out of the queue. -/
theorem step_keeps {s t : State} (h : step s = .next t) : Keeps { s with pending := s.pending.tail } t := by
  unfold step at h
  split at h
  next e =>
    cases h
    rw [e, List.tail_nil, ← e]
    exact .refl s
  next c rest e =>
    obtain ⟨u, hu, kept⟩ := exec_answers c { s with pending := rest }
    rw [hu] at h
    cases h
    rw [e]
    exact kept

/-- Settles O1: both cases of a step are its definition. -/
theorem stepRunsFrontCommand : Obligations.StepRunsFrontCommand := by
  unfold Obligations.StepRunsFrontCommand step
  exact ⟨fun c rest s h => by rw [h], fun s h => by rw [h]⟩

/-- Settles O2: every arm of exec answers a next state. -/
theorem commandsAlwaysComplete : Obligations.CommandsAlwaysComplete := fun c s => by
  obtain ⟨t, ht, -⟩ := exec_answers c s
  exact ⟨t, ht⟩

/-- Settles O3: no command touches the queue, so a step leaves its tail. -/
theorem stepTakesOneCommand : Obligations.StepTakesOneCommand := by
  intro s t h
  have kept := (step_keeps h).pending
  refine ⟨kept, fun ok c hc => ok c ?_⟩
  rw [kept] at hc
  exact List.mem_of_mem_tail hc

/-- Settles O4: every command keeps the canonical form of the register map. -/
theorem stepKeepsRegisterMap : Obligations.StepKeepsRegisterMap := fun _ _ ok h => (step_keeps h).regs ok

/-- Settles O5: every command keeps the canonical form of every byte memory. -/
theorem stepKeepsMemories : Obligations.StepKeepsMemories := fun _ _ ok h => (step_keeps h).memories ok

end Sys2Proof.Machine
end

/-! # The reset state, access codes, feed words and request frames -/

section
namespace Sys2Proof.Machine
set_option Elab.async false

/-! ## Reset -/

/-- Every design bank and service bank of the reset state has no cells. -/
theorem look_fresh_wf (l : List Nat) (k : Nat) :
    (look (fun _ => ({} : Mem)) (l.map fun b => (b, { epoch := 1 })) k).wf := by
  induction l with
  | nil => exact zeroContents_wf
  | cons b l ih =>
    rw [List.map_cons, look]
    split
    · exact ⟨.nil, nofun⟩
    · exact ih

theorem memoriesOk_reset : memoriesOk State.reset :=
  ⟨look_fresh_wf _, look_fresh_wf _, fun _ => ⟨.nil, nofun⟩, fun _ => zeroContents_wf, zeroContents_wf, zeroContents_wf⟩

/-- PWR_RESET_STATUS alone is listed at reset. -/
theorem reg_reset_of_ne {a : Nat} (h : a ≠ R.pwrResetStatus) : reg State.reset a = resetWord a := if_neg h

/-- Settles O6: the lists of State.reset are short, and each named register is evaluated. -/
theorem resetState : Obligations.ResetState := by
  unfold Obligations.ResetState
  refine ⟨List.forall_mem_nil _, by unfold regsOk; decide +kernel, memoriesOk_reset, rfl, fun a => reg_reset_of_ne, ?_⟩
  decide +kernel

/-! ## Access codes -/

/-- Settles O7: the masks of the table are compared, and a bit of a written word is an expression in the bits of the masks. -/
theorem accessCodes : Obligations.AccessCodes := by
  unfold Obligations.AccessCodes
  have disjoint : ∀ g ∈ regTable, g.rw &&& g.w1c = 0 ∧ g.rw &&& g.w1s = 0 ∧ g.w1c &&& g.w1s = 0 ∧
      (g.rw ||| g.w1c ||| g.w1s) &&& g.rc = 0 := by decide +kernel
  refine ⟨disjoint, fun g hg old v b hb => ?_⟩
  obtain ⟨hc, hs, hcs, -⟩ := disjoint g hg
  have apart : ∀ {x y : Nat}, x &&& y = 0 → x.testBit b = true → y.testBit b = false := fun h hx => by
    have := congrArg (·.testBit b) h
    simpa [hx] using this
  simp only [writtenWord, BitVec.getLsbD_or, BitVec.getLsbD_and, BitVec.getLsbD_not, BitVec.getLsbD_ofNat, hb,
    decide_true, Bool.true_and]
  by_cases hrw : g.rw.testBit b = true
  · simp [hrw, apart hc hrw, apart hs hrw]
  · by_cases hw1c : g.w1c.testBit b = true
    · simp [hrw, hw1c, apart hcs hw1c]
    · by_cases hw1s : g.w1s.testBit b = true <;> simp [hrw, hw1c, hw1s]

/-! ## Feed words -/

/-- The fields of DBG_FEED that its operation uses: two words that agree in them are one operation (R335). -/
theorem feedOperation_congr {v w : Word} {s : State} (hop : bitsOf v 28 4 = bitsOf w 28 4)
    (hcore : bitsOf v 27 1 = bitsOf w 27 1)
    (hg : bitsOf w 28 4 = 1 ∨ bitsOf w 28 4 = 2 → bitsOf v 16 5 = bitsOf w 16 5)
    (hinc : bitsOf w 28 4 = 5 ∨ bitsOf w 28 4 = 6 → v.getLsbD 26 = w.getLsbD 26) :
    feedOperation v s = feedOperation w s := by
  unfold feedOperation
  rw [hop, hcore]
  revert hg hinc
  generalize bitsOf w 28 4 = k
  intro hg hinc
  rcases k with _ | _ | _ | _ | _ | _ | _ | _ | k <;> simp_all

/-- While no feed executes, a feed command acts as the write of a word that spells the same operation. -/
theorem feed_eq_feedWrite {v w : Word} {s : State} (idle : s.dbg.feeding = none)
    (h : feedOperation v s = feedOperation w s) : feed v s = feedWrite false w s := by
  unfold feed feedWrite
  simp [idle, h]

/-- A word of DBG_FEED by its fields (Table 13.6). -/
def feedFields (op c : Nat) (inc : Bool) (g : Nat) : Word :=
  BitVec.ofNat 32 (op * 2 ^ 28 + c * 2 ^ 27 + inc.toNat * 2 ^ 26 + g * 2 ^ 16)

theorem feedFields_read {op c g : Nat} {inc : Bool} (ho : op < 16) (hc : c < 2) (hg : g < 32) :
    bitsOf (feedFields op c inc g) 28 4 = op ∧ bitsOf (feedFields op c inc g) 27 1 = c ∧
      bitsOf (feedFields op c inc g) 16 5 = g ∧ (feedFields op c inc g).getLsbD 26 = inc := by
  have hi : inc.toNat < 2 := Bool.toNat_lt inc
  have word : (feedFields op c inc g).toNat = op * 2 ^ 28 + c * 2 ^ 27 + inc.toNat * 2 ^ 26 + g * 2 ^ 16 := by
    rw [feedFields, BitVec.toNat_ofNat]
    exact Nat.mod_eq_of_lt (by omega)
  have bit26 : (feedFields op c inc g).getLsbD 26 = (bitsOf (feedFields op c inc g) 26 1).testBit 0 := by
    rw [testBit_bitsOf]
    simp
  rw [bit26]
  simp only [bitsOf, word, Nat.shiftRight_eq_div_pow]
  refine ⟨by omega, by omega, by omega, ?_⟩
  rw [show (op * 2 ^ 28 + c * 2 ^ 27 + inc.toNat * 2 ^ 26 + g * 2 ^ 16) / 2 ^ 26 % 2 ^ 1 = inc.toNat by omega]
  cases inc <;> rfl

/-- The word of a feed command holds its register number and inc only where its operation uses them. -/
theorem feedWord_eq (op c g : Nat) (inc : Bool) :
    feedWord op c g inc = feedFields op c (inc && (op == 5 || op == 6)) (if op = 1 ∨ op = 2 then g else 0) := by
  simp only [feedWord, feedFields, Nat.shiftLeft_eq]

/-- A feed command acts as the write of its fields, whatever the fields hold that its operation does not use. -/
theorem feed_feedWord {s : State} {op c g n : Nat} {i inc : Bool} (idle : s.dbg.feeding = none) (ho : op < 16) (hc : c < 2)
    (hg : g < 32) (hn : op = 1 ∨ op = 2 → n = g) (hni : op = 5 ∨ op = 6 → i = inc) :
    feed (feedWord op c n i) s = feedWrite false (feedFields op c inc g) s := by
  have hused : (if op = 1 ∨ op = 2 then n else 0) < 32 := by
    split
    next h => rw [hn h]; exact hg
    next => decide
  obtain ⟨o1, c1, g1, i1⟩ := feedFields_read (inc := i && (op == 5 || op == 6)) ho hc hused
  obtain ⟨o2, c2, g2, i2⟩ := feedFields_read (inc := inc) ho hc hg
  refine feed_eq_feedWrite idle ?_
  rw [feedWord_eq]
  refine feedOperation_congr (o1.trans o2.symm) (c1.trans c2.symm) (fun h => ?_) (fun h => ?_)
  · rw [o2] at h
    rw [g1, g2, if_pos h, hn h]
  · rw [o2] at h
    rw [i1, i2, hni h]
    rcases h with rfl | rfl <;> simp

/-- Settles O9: every feed command is the write of the fields that its operation uses. -/
theorem feedWords : Obligations.FeedWords := by
  unfold Obligations.FeedWords
  intro c g inc s idle
  have word : ∀ (op n : Nat) (i : Bool), op < 16 → (op = 1 ∨ op = 2 → n = g) → (op = 5 ∨ op = 6 → i = inc) →
      feed (feedWord op c n i) s = feedWrite false (feedFields op c inc g) s :=
    fun op n i ho hn hi => feed_feedWord idle ho c.isLt g.isLt hn hi
  exact ⟨congrArg _ (word 1 g false (by decide) (by simp) (by simp)),
    congrArg _ (word 2 g false (by decide) (by simp) (by simp)),
    congrArg _ (word 3 0 false (by decide) (by simp) (by simp)),
    congrArg _ (word 4 0 false (by decide) (by simp) (by simp)),
    congrArg _ (word 5 0 inc (by decide) (by simp) (by simp)),
    congrArg _ (word 6 0 inc (by decide) (by simp) (by simp)),
    congrArg _ (word 7 0 false (by decide) (by simp) (by simp))⟩

/-! ## Request frames of Footpath -/

theorem toNat_append_byte {n : Nat} (x : BitVec n) (y : Byte) : (x ++ y).toNat = x.toNat * 256 + y.toNat := by
  rw [BitVec.toNat_append, ← Nat.shiftLeft_add_eq_or_of_lt y.isLt, Nat.shiftLeft_eq]

/-- A word is the four bytes that carry it, the highest first. -/
theorem bytesBE_spec (w : Word) : ∃ a b c d, bytesBE w = [a, b, c, d] ∧ wordBE a b c d = w := by
  refine ⟨_, _, _, _, rfl, BitVec.eq_of_toNat_eq ?_⟩
  have hw := w.isLt
  simp only [wordBE, toNat_append_byte, BitVec.toNat_ofNat]
  omega

/-- The last byte of a closed frame tells a right CRC from a wrong one, and the rest is the body. -/
theorem decodeFrame_closeFrame (ok : Bool) (body : List Byte) :
    decodeFrame (closeFrame ok body) = decodeBody ok body := by
  unfold decodeFrame closeFrame
  rw [List.dropLast_concat, List.getLast?_concat]
  cases ok <;> simp

/-- The operation and the count of a request header. -/
theorem bitsOf_replyHeader (op n : Nat) :
    bitsOf (replyHeader op n) 5 3 = op % 8 ∧ bitsOf (replyHeader op n) 0 5 = n % 32 := by
  simp only [bitsOf, replyHeader, BitVec.toNat_ofNat, Nat.shiftRight_eq_div_pow]
  omega

/-- A body of a header and an address (PEEK, BURST_PEEK). -/
theorem decodeBody_address (op n a : Nat) (ok : Bool) (ha : a < 2 ^ 32) :
    decodeBody ok (replyHeader op n :: bytesBE (BitVec.ofNat 32 a)) =
      if op % 8 = 1 then some (.peek a ok) else if op % 8 = 3 then some (.burstPeek a (n % 32 + 1) ok) else none := by
  obtain ⟨b3, b2, b1, b0, hb, hw⟩ := bytesBE_spec (BitVec.ofNat 32 a)
  obtain ⟨hop, hn⟩ := bitsOf_replyHeader op n
  rw [hb, decodeBody, hw, hop, hn, BitVec.toNat_ofNat, Nat.mod_eq_of_lt ha]

/-- The body of a POKE: whether it completes in time is no part of it. -/
theorem decodeBody_poke (a : Nat) (v : Word) (ok : Bool) (ha : a < 2 ^ 32) :
    decodeBody ok (replyHeader 2 0 :: bytesBE (BitVec.ofNat 32 a) ++ bytesBE v) = some (.poke a v ⟨ok, false⟩) := by
  obtain ⟨b3, b2, b1, b0, hb, hw⟩ := bytesBE_spec (BitVec.ofNat 32 a)
  obtain ⟨d3, d2, d1, d0, hd, hv⟩ := bytesBE_spec v
  rw [hb, hd]
  simp only [List.cons_append, List.nil_append, decodeBody, hw, hv, (bitsOf_replyHeader 2 0).1, BitVec.toNat_ofNat,
    Nat.mod_eq_of_lt ha]
  rfl

/-- Settles O10: each of the four requests is decoded from the body and the CRC that it was encoded with. -/
theorem frameRoundTrip : Obligations.FrameRoundTrip := by
  unfold Obligations.FrameRoundTrip
  refine ⟨fun i hr hw late => ?_, fun a v ok => rfl⟩
  cases i <;> try cases hr
  case peek a ok =>
    exact (decodeFrame_closeFrame ok _).trans (decodeBody_address 1 0 a ok (of_decide_eq_true hw))
  case poke a v f =>
    obtain ⟨ok, slow⟩ := f
    cases slow with
    | false => exact (decodeFrame_closeFrame ok _).trans (decodeBody_poke a v ok (of_decide_eq_true hw))
    | true => exact absurd rfl (late a v ok)
  case burstPeek a n ok =>
    simp only [wellFormed, Bool.and_eq_true, decide_eq_true_eq] at hw
    obtain ⟨⟨ha, h1⟩, h32⟩ := hw
    refine (decodeFrame_closeFrame ok _).trans ((decodeBody_address 3 (n - 1) a ok ha).trans ?_)
    simp [show (n - 1) % 32 + 1 = n by omega]
  case reservedOp op ok =>
    refine (decodeFrame_closeFrame ok _).trans ?_
    have hop : bitsOf (replyHeader op.val 0) 5 3 = op.val := (bitsOf_replyHeader _ _).1.trans (Nat.mod_eq_of_lt op.isLt)
    simp only [wellFormed, Bool.not_eq_true'] at hw
    rw [decodeBody, hop, hw]
    simp

end Sys2Proof.Machine
end

/-! # Cluster steps: the periods outside steps, and what an executed step leaves -/

section
namespace Sys2Proof.Machine
set_option Elab.async false

/-! ## Counters -/

/-- A saturating counter after an addition. -/
theorem bits_bumpBits (s : State) (a lo n k : Nat) (h : lo + n ≤ 32) :
    bits (bumpBits s a lo n k) a lo n = min (bits s a lo n + k) (2 ^ n - 1) := by
  rw [bumpBits, bits_setBits _ _ _ _ _ h, satAdd, Nat.mod_eq_of_lt]
  have := Nat.two_pow_pos n
  omega

theorem keepsRegs.bumpBits {L : List Nat} {s t : State} (h : keepsRegs L s t) {a : Nat} (ha : a ∈ L) (lo n k : Nat) :
    keepsRegs L s (bumpBits t a lo n k) := h.setBits ha lo n _

/-- A command that answers this state completes with what holds of it. -/
theorem Completes.of_eq {c : Instr} {s t : State} {P : State → Prop} (h : exec c s = .next t) (hP : P t) :
    Completes c s P := ⟨t, h, hP⟩

/-! ## Periods -/

/-- A period in which a cluster stalls: it is counted, and no other register changes (R20, R198). -/
theorem stallPeriod_spec (n : Nat) (c : Cluster) (s : State) :
    clu (stallPeriod n c s) n = { c with stalled := true } ∧
      bits (stallPeriod n c s) (R.cluStallCnt n) 0 32 = min (bits s (R.cluStallCnt n) 0 32 + 1) (2 ^ 32 - 1) ∧
      keepsRegs [R.cluStallCnt n] s (stallPeriod n c s) := by
  refine ⟨by simp [stallPeriod], ?_, ?_⟩
  · rw [stallPeriod, bits_bumpBits _ _ _ _ _ (by decide), bits_setClu]
  · exact keepsRegs.bumpBits (keepsRegs_refl _ s) (List.mem_singleton_self _) 0 32 1

section Edges
variable {n : Fin 128} {s : State} (hruns : clusterRuns s n = true) (hrun : s.sched.run = .running)
include hruns hrun

theorem exec_clusterStep_transition {k : Nat} (h : (clu s n).walk = .transition k) :
    exec (.clusterStep n) s = .next (transitionEdge n k (clu s n) s) := by
  show Host.Outcome.next (clusterEdge n s) = _
  simp [clusterEdge, hruns, hrun, h]

theorem exec_clusterStep_atEnd (h : (clu s n).walk = .atEnd) :
    exec (.clusterStep n) s = .next (endEdge n (clu s n) s) := by
  show Host.Outcome.next (clusterEdge n s) = _
  simp [clusterEdge, hruns, hrun, h]

theorem exec_clusterStep_milestone {p : Nat} (h : (clu s n).walk = .milestone p) (hp : p < 48) :
    exec (.clusterStep n) s = .next (setClu s n { clu s n with walk := .milestone (p + 1), stalled := false }) := by
  show Host.Outcome.next (clusterEdge n s) = _
  simp [clusterEdge, hruns, hrun, h, hp]

/-- A step that no condition stalls, with a period owed to a bank, pays it (R198). -/
theorem exec_clusterStep_pays {st : Nat} {c : Cluster} (hwalk : (clu s n).walk = .inLeg st)
    (harm : armWsets s n st (stepWords (arriveStep s n st (clu s n)) st) (arriveStep s n st (clu s n)) = some c)
    (hstall : stallCauses s n c st (stepWords (arriveStep s n st (clu s n)) st) = []) (howes : 0 < c.bankDebt) :
    exec (.clusterStep n) s = .next (stallPeriod n (payBank (waitOn [] c)) s) := by
  have hedge : clusterEdge n s = stepEdge n st s := by simp [clusterEdge, hruns, hrun, hwalk]
  show Host.Outcome.next (clusterEdge n s) = _
  rw [hedge]
  simp [stepEdge, harm, hstall, howes]

end Edges

/-- Settles O11: outside a step a period is counted, or paid to a bank, and in a step it is paid. -/
theorem clusterWalk : Obligations.ClusterWalk := by
  unfold Obligations.ClusterWalk
  refine ⟨fun n s k hruns hrun hwalk hk hdebt => ?_, fun n s p hruns hrun hwalk hp => ?_,
    fun n s st c hruns hrun hwalk harm hstall howes => ?_, fun n s k hruns hrun hwalk howes => ?_⟩
  · rw [exec_clusterStep_transition hruns hrun hwalk]
    simp [transitionEdge, hdebt, hk]
  · exact exec_clusterStep_milestone hruns hrun hwalk hp
  · exact .of_eq (exec_clusterStep_pays hruns hrun hwalk harm hstall howes) (stallPeriod_spec n _ s)
  · have hedge : exec (.clusterStep n) s = .next (stallPeriod n (payBank (clu s n)) s) := by
      rcases hwalk with hwalk | hwalk
      · rw [exec_clusterStep_transition hruns hrun hwalk, transitionEdge, if_pos howes]
      · rw [exec_clusterStep_atEnd hruns hrun hwalk, endEdge, if_pos howes]
    exact .of_eq hedge (stallPeriod_spec n _ s)

/-! ## What the effects of a step leave besides the value store -/

/-- The part of a cluster that no effect of a step but the write of its results touches: the previous bank, the way
tracks, the step executed last and the stall flag. -/
def walkView (c : Cluster) : Sparse Bool × List (BitVec 128) × Option Nat × Bool := (c.prev, c.way, c.lastStep, c.stalled)

/-- `walkView` with the swell flags, which an executed step may set. -/
def swellView (c : Cluster) : BitVec 32 × Sparse Bool × List (BitVec 128) × Option Nat × Bool := (c.swell, walkView c)

theorem writeSlot_swellView (e k : Nat) (w : DWord) (c : Cluster) : swellView (writeSlot e k w c) = swellView c := by
  rfl

theorem landDue_swellView (t : Nat) (c : Cluster) : swellView (landDue t c) = swellView c :=
  foldl_keeps swellView landMrd (fun _ _ => rfl) _ _

theorem deadlineWrite_swellView (s : State) (x : Nat × Word) (c : Cluster) :
    swellView (deadlineWrite s x c) = swellView c := by
  unfold deadlineWrite
  split
  · split
    · rfl
    · split <;> rfl
  · split <;> rfl

theorem arriveStep_swellView (s : State) (n t : Nat) (c : Cluster) : swellView (arriveStep s n t c) = swellView c :=
  (foldl_keeps swellView _ (fun a x => deadlineWrite_swellView s x a) _ _).trans (landDue_swellView t c)

theorem armWsets_swellView {s : State} {n st : Nat} {ws : List (Nat × Insn)} {c c' : Cluster}
    (h : armWsets s n st ws c = some c') : swellView c' = swellView c := by
  have arms : ∀ a k, swellView (armWaymark s n k a) = swellView a := fun a k => by unfold armWaymark; split <;> rfl
  unfold armWsets at h
  split at h
  · cases h; rfl
  · dsimp only at h
    split at h
    · cases h
    · cases h
      exact foldl_keeps swellView _ arms _ _

/-- Before its results a step adds the swell flags of its report, and leaves `swellView` otherwise. -/
theorem beforeResults_report (n st : Nat) (ws : List (Nat × Insn)) (c : Cluster) (s : State) :
    ∃ g, beforeResults n st ws c s =
        (if swellReport g st (resultsOf s n c st ws) then addSwell s (reg s (R.cluSwellStep n st)) g else g) ∧
      swellView g = swellView c := by
  have faults : swellView (stepFaults n ws c s).1 = swellView c := by
    unfold stepFaults; dsimp only; split <;> rfl
  have writes : ∀ rs c, swellView (applyBitWrites s n rs c) = swellView c := fun rs c =>
    foldl_keeps swellView _ (by intros; rfl) _ _
  have commits : ∀ rs c, swellView (applyCommits s n rs c) = swellView c := fun rs c =>
    (foldl_keeps swellView _ (by intros; rfl) _ _).trans
      (foldl_keeps swellView _ (fun _ _ => by split <;> rfl) _ _)
  have gets : ∀ rs c u, swellView (applyGets n rs c u).1 = swellView c := fun rs c u => by
    refine foldl_keeps (fun acc : Cluster × State => swellView acc.1) _ (fun acc q => ?_) _ _
    split
    · unfold popQueue
      split <;> rfl
    · rfl
  refine ⟨_, rfl, ?_⟩
  rw [gets, commits]
  exact (writes _ _).trans faults

theorem beforeResults_walkView (n st : Nat) (ws : List (Nat × Insn)) (c : Cluster) (s : State) :
    walkView (beforeResults n st ws c s) = walkView c := by
  obtain ⟨g, e, hg⟩ := beforeResults_report n st ws c s
  have hw : walkView g = walkView c := congrArg Prod.snd hg
  rw [e]
  split
  · exact hw
  · exact hw

theorem beforeResults_swell {n st : Nat} {ws : List (Nat × Insn)} {c : Cluster} {s : State}
    (h : swellReport c st (resultsOf s n c st ws) = false) : (beforeResults n st ws c s).swell = c.swell := by
  obtain ⟨g, e, hg⟩ := beforeResults_report n st ws c s
  have hp : g.prev = c.prev := congrArg (fun x => x.2.1) hg
  have hs : g.swell = c.swell := congrArg Prod.fst hg
  rw [e, swellReport, hp]
  rw [swellReport] at h
  rw [h, if_neg Bool.false_ne_true, hs]

/-! ## What follows the results -/

theorem afterStep_swellView (s : State) (n st : Nat) (c : Cluster) : swellView (afterStep s n st c) = swellView c := by
  have pass : ∀ a b, swellView (passSteps s n a b c) = swellView c := fun a b =>
    foldl_keeps swellView _ (fun a t => arriveStep_swellView s n t a) _ _
  unfold afterStep
  split
  · rfl
  · split
    · rfl
    · split
      · rfl
      · exact pass _ _

/-- The cluster after an executed step: its results are written, and it does not stall. -/
theorem executeStep_swellView (n st : Nat) (ws : List (Nat × Insn)) (c : Cluster) (s : State) :
    swellView (clu (executeStep n st ws c s) n) =
      swellView { writeResults st (resultsOf s n c st ws) (beforeResults n st ws c s) with stalled := false } := by
  unfold executeStep
  dsimp only
  rw [clu_hazards, clu_launches, clu_setClu, if_pos rfl]
  exact afterStep_swellView s n st _

theorem executeStep_swell (n st : Nat) (ws : List (Nat × Insn)) (c : Cluster) (s : State) :
    (clu (executeStep n st ws c s) n).swell = (beforeResults n st ws c s).swell :=
  congrArg Prod.fst (executeStep_swellView n st ws c s)

/-! ## The entries and the way that the results write -/

/-- Writes of results at step `st` leave every entry of another step. -/
theorem entry_writes_other {kept : Nat × Insn × Bool → Bool} {b j st : Nat} (hj : j < 1024) (hst : st < 1024) (hne : j ≠ st)
    (rs : Results) (m : Sparse Bool) :
    entry (rs.foldl (fun acc x => if kept x then acc else setEntry acc x.1 st x.2.2) m) b j = entry m b j := by
  refine foldl_keeps (fun m => entry m b j) _ (fun acc x => ?_) _ _
  split
  · rfl
  · simp only [entry, setEntry, look_put]
    exact if_neg (by omega)

/-- Bit `k` of a way track list folded over results. -/
theorem way_bit {drives : Nat × Insn × Bool → Bool} {k : Nat} (hk : k < 128) (rs : Results) (w : BitVec 128) :
    (rs.foldl (fun acc x => if drives x then withBit acc (x.1 % 128) true else acc) w).getLsbD k =
      (w.getLsbD k || rs.any fun x => drives x && x.1 % 128 == k) := by
  induction rs generalizing w with
  | nil => simp
  | cons x rest ih =>
    rw [List.foldl_cons, ih, List.any_cons]
    by_cases hd : drives x = true
    · have hbit : (withBit w (x.1 % 128) true).getLsbD k = (w.getLsbD k || x.1 % 128 == k) := by
        rw [withBit, getLsbD_withBits]
        by_cases e : x.1 % 128 = k
        · subst e; simp [hk]
        · rw [if_neg (by omega)]; simp [e]
      simp [hd, hbit, Bool.or_assoc]
    · simp [hd]

theorem armWsets_cur {s : State} {n st : Nat} {ws : List (Nat × Insn)} {c c' : Cluster}
    (h : armWsets s n st ws c = some c') : c'.cur = c.cur := by
  have arms : ∀ a k, (armWaymark s n k a).cur = a.cur := fun a k => by unfold armWaymark; split <;> rfl
  unfold armWsets at h
  split at h
  · cases h; rfl
  · dsimp only at h
    split at h
    · cases h
    · cases h
      exact foldl_keeps Cluster.cur _ arms _ _

/-- An executed step stores the present result of every word but a NOP without a force entry (R54, R64, R65). -/
theorem executeStep_stores_presentResult {s : State} {n st b : Nat} {c c₀ : Cluster} {i : Insn}
    (hmem : (b, i) ∈ stepWords c₀ st) (hwrites : insnOp i ≠ .nop ∨ (forced c b st).isSome) :
    entry (clu (executeStep n st (stepWords c₀ st) c s) n).cur b st = presentResult s n c st b i := by
  have hforces : forced (beforeResults n st (stepWords c₀ st) c s) b st = forced c b st := by
    unfold forced
    rw [(Prod.mk.inj (beforeResults_bankAndForces n st (stepWords c₀ st) c s)).2]
  rw [executeStep_cur]
  refine entry_after_writes _ b st _ _ _ (fun x hx hb => ?_) (Or.inr ⟨_, List.mem_map.2 ⟨(b, i), hmem, rfl⟩, rfl⟩)
  obtain ⟨⟨b', i'⟩, hy, rfl⟩ := List.mem_map.1 hx
  obtain rfl : b' = b := hb
  obtain rfl : i' = i := (insnAt_of_mem_stepWords hy).trans (insnAt_of_mem_stepWords hmem).symm
  refine ⟨?_, rfl⟩
  dsimp only
  rw [hforces]
  rcases hwrites with hop | hf
  · simp [hop]
  · simp [Option.isNone_eq_false_iff.2 hf]

/-- A forced NOP has the value of its force entry as its result (R54). -/
theorem presentResult_nop {s : State} {n st b : Nat} {c : Cluster} {i : Insn} {v : Bool} (hop : insnOp i = .nop)
    (hf : forced c b st = some v) : presentResult s n c st b i = v := by
  rw [presentResult_of_ne_wset (by rw [hop]; decide), resultOf_forced hf]

/-- Settles O12: the effects before the results leave what it speaks of, and the results write it. -/
theorem stepResults : Obligations.StepResults := by
  unfold Obligations.StepResults
  intro n s st c hruns hrun hwalk hst harm hstall hdebt
  have hdebt' : (clu s n).bankDebt = 0 := by rw [← hdebt, armWsets_bankDebt harm, arriveStep_bankDebt]
  refine .of_eq (exec_clusterStep_executes hruns hrun hwalk hdebt' harm hstall) ?_
  have after := executeStep_swellView n st (stepWords (arriveStep s n st (clu s n)) st) c s
  have armed : swellView c = swellView (clu s n) := (armWsets_swellView harm).trans (arriveStep_swellView s n st _)
  have hprev := (congrArg Prod.fst (beforeResults_walkView n st (stepWords (arriveStep s n st (clu s n)) st) c s)).trans
    (congrArg (fun x => x.2.1) armed)
  have hcur := (congrArg Prod.fst
    (beforeResults_bankAndForces n st (stepWords (arriveStep s n st (clu s n)) st) c s)).trans
    ((armWsets_cur harm).trans (arriveStep_cur s n st _))
  refine ⟨congrArg (fun x => x.2.2.2.1) after, congrArg (fun x => x.2.2.2.2) after,
    (congrArg (fun x => x.2.1) after).trans hprev, fun b i hmem hop => ?_, fun b i hmem hop hf => ?_, fun k hk => ?_,
    fun hall => ?_, fun b j hj hne => ?_⟩
  · exact executeStep_stores_presentResult hmem (.inl hop)
  · obtain ⟨v, hv⟩ := Option.ne_none_iff_exists'.1 hf
    rw [executeStep_stores_presentResult hmem (.inr (by rw [hv]; rfl)), presentResult_nop hop hv, hv]
  · have hway := congrArg (fun x => (x.2.2.1.headD 0).getLsbD k) after
    refine hway.trans ((way_bit hk _ 0).trans ?_)
    rw [resultsOf, List.any_map]
    rw [show (0 : BitVec 128).getLsbD k = false from BitVec.getLsbD_zero, Bool.false_or]
    refine congrArg (List.any _) (funext fun x => ?_)
    simp only [Function.comp_apply]
    ac_rfl
  · rw [executeStep_swell]
    refine beforeResults_swell ?_
    rw [swellReport, resultsOf, List.any_map, List.any_eq_false]
    intro x hx
    have := List.all_eq_true.1 hall x hx
    simp only [Function.comp_apply]
    simp only [Bool.or_eq_true, Bool.not_eq_true', beq_iff_eq] at this
    simp only [Bool.and_eq_true, bne_iff_ne, ne_eq]
    rintro ⟨⟨hop, hsw⟩, hdiff⟩
    rcases this with (hnop | hsw') | hsame
    · exact hop hnop
    · exact absurd hsw (by simp [hsw'])
    · exact hdiff hsame
  · rw [executeStep_cur]
    exact (entry_writes_other hj hst hne _ _).trans (congrArg (fun m => entry m b j) hcur)

end Sys2Proof.Machine
end

/-! # Arrivals and requests of a cluster -/

section
namespace Sys2Proof.Machine
set_option Elab.async false

/-! ## Reads that land -/

/-- MRD_LANDING of the oldest read when the walk has reached its step lands it (R77). -/
theorem mrdLanding_lands {n : Nat} {s : State} {m : Mrd} {rest : List Mrd} (h : (clu s n).mrds = m :: rest)
    (hdue : (∃ st, (clu s n).walk = .inLeg st ∧ m.step + 6 ≤ st) ∨ (∃ k, (clu s n).walk = .transition k) ∨
      (clu s n).walk = .atEnd) :
    mrdLanding n s = setClu s n (landMrd { clu s n with mrds := rest } m) := by
  unfold mrdLanding
  rcases hdue with ⟨st, hw, hst⟩ | ⟨k, hw⟩ | hw <;> simp [*]

/-- What a landed read leaves: the data in its lane, and nothing else changed. -/
theorem lands_leaves (n : Nat) (s : State) (m : Mrd) (rest : List Mrd) :
    let t := setClu s n (landMrd { clu s n with mrds := rest } m)
    (clu t n).mrds = rest ∧ dword (clu t n).laneRdata m.lane = m.data ∧
      (∀ k, k ≠ m.lane → dword (clu t n).laneRdata k = dword (clu s n).laneRdata k) ∧
      (∀ k, k ≠ n → clu t k = clu s k) ∧ t = { s with clusters := t.clusters } := by
  refine ⟨by simp [landMrd], by simp [landMrd, setDword, dword], fun k hk => ?_, fun k hk => by simp [hk], rfl⟩
  simp [landMrd, setDword, dword, hk]

/-! ## Words of VC0 -/

/-- The part of a cluster that a deadline is compared with. -/
def deadlineView (c : Cluster) := (c.walk, c.stalled)

theorem deadlinePassed_congr {s : State} {c d : Cluster} (h : deadlineView c = deadlineView d) (t : Nat) :
    deadlinePassed s c t = deadlinePassed s d t := by
  obtain ⟨hw, hs⟩ := Prod.mk.inj h
  simp only [deadlinePassed, hw, hs]

theorem noteLate_eq (s : State) (e : Nat) (x : Word) (c : Cluster) : ∃ k, noteLate s e x c = { c with walkLate := k } := by
  unfold noteLate
  split
  · split
    · exact ⟨_, rfl⟩
    · exact ⟨_, rfl⟩
  · exact ⟨_, rfl⟩

/-- A word compared with the last one of a valid entry becomes the last one and sets swell flags when it differs (R41). -/
theorem compareWord_valid {s : State} {n e : Nat} (hv : bit s (R.cluArrEntry n e) 31 = true) (w : DWord) (c : Cluster) :
    dword (compareWord s n e w c).lastWord e = w ∧
      (compareWord s n e w c).swell =
        (if w = dword c.lastWord e then c.swell else c.swell ||| (reg s (R.cluSwellIn n e) &&& legMask s)) ∧
      (compareWord s n e w c).pending = c.pending ∧ deadlineView (compareWord s n e w c) = deadlineView c := by
  unfold compareWord
  by_cases hw : w = dword c.lastWord e
  · rw [if_neg (fun h => h.2 hw), if_pos hw]
    exact ⟨hw.symm, rfl, rfl, rfl⟩
  · rw [if_pos ⟨hv, hw⟩, if_neg hw]
    exact ⟨by simp [addSwell, dword, setDword], rfl, rfl, rfl⟩

/-- A word before its deadline waits in the pending register of its entry (R40). -/
theorem deliverWord_early {s : State} {n e : Nat} {c : Cluster} (w : DWord) (hv : bit s (R.cluArrEntry n e) 31 = true)
    (hd : deadlinePassed s c (deadlineOf (reg s (R.cluArrEntry n e))) = false) :
    find (deliverWord s n e w c).pending e = some w ∧ dword (deliverWord s n e w c).lastWord e = w ∧
      (deliverWord s n e w c).swell =
        (if w = dword c.lastWord e then c.swell else c.swell ||| (reg s (R.cluSwellIn n e) &&& legMask s)) := by
  unfold deliverWord
  dsimp only
  obtain ⟨k, hk⟩ := noteLate_eq s e (reg s (R.cluArrEntry n e)) c
  obtain ⟨hlast, hswell, -, hview⟩ := compareWord_valid hv w { c with walkLate := k }
  rw [hk, deadlinePassed_congr (d := c) (hview.trans rfl), hd, if_neg (by simp)]
  exact ⟨by simp, hlast, hswell⟩

theorem find?_due {s : State} {n : Nat} {h : Held} {rest : List Held} (hw : (ni s n).words = h :: rest)
    (hdue : h.due ≤ routerPeriods s (routerOfNi s n)) :
    ((ni s n).words.find? fun h => decide (h.due ≤ routerPeriods s (routerOfNi s n))) = some h := by
  simp [hw, hdue]

/-! ## Queue responses -/

/-- A count of the words of a queue leaves the queues. -/
theorem countWord_queues (s : State) (n q : Nat) (c : Cluster) : (countWord s n q c).queues = c.queues := by
  refine foldl_keeps Cluster.queues _ (fun acc k => ?_) _ _
  dsimp only
  split
  · split <;> rfl
  · rfl

/-- The queue `q` of a cluster after one word more has joined it. -/
theorem queue_appendWord (s : State) (n q : Nat) (w : DWord) (c : Cluster) (k : Nat) :
    queue (appendWord s n q w c) k =
      if k = q then { queue c q with words := (queue c q).words ++ [w] } else queue c k := by
  rw [appendWord, queue, countWord_queues]
  simp [setQueue, queue]

theorem queue_setQueue (c : Cluster) (q : Nat) (x : Queue) (k : Nat) :
    queue (setQueue c q x) k = if k = q then x else queue c k := by simp [setQueue, queue]

/-- The filled places at the front of a queue join its words, in order (R52). -/
theorem queue_showPlaces (s : State) (n q m : Nat) (c : Cluster) (h : (queue c q).places.length ≤ m) :
    (queue (showPlaces s n q m c) q).words =
        (queue c q).words ++ ((queue c q).places.takeWhile fun x => x.word.isSome).filterMap Place.word ∧
      (queue (showPlaces s n q m c) q).places = (queue c q).places.dropWhile (fun x => x.word.isSome) ∧
      (∀ k, k ≠ q → queue (showPlaces s n q m c) k = queue c k) := by
  induction m generalizing c with
  | zero =>
    rw [showPlaces, List.eq_nil_of_length_eq_zero (Nat.le_zero.1 h)]
    exact ⟨by simp, rfl, fun _ _ => rfl⟩
  | succ m ih =>
    rw [showPlaces]
    split
    · next t w rest hp =>
      obtain ⟨hw, hpl, ho⟩ := ih (appendWord s n q w (setQueue c q { queue c q with places := rest })) (by
        rw [queue_appendWord, if_pos rfl, queue_setQueue, if_pos rfl]
        rw [hp] at h
        exact Nat.le_of_succ_le_succ h)
      rw [queue_appendWord, if_pos rfl, queue_setQueue, if_pos rfl] at hw hpl
      refine ⟨?_, ?_, fun k hk => ?_⟩
      · rw [hw, hp]
        simp [List.takeWhile, List.append_assoc]
      · rw [hpl, hp]
        simp [List.dropWhile]
      · rw [ho k hk, queue_appendWord, if_neg hk, queue_setQueue, if_neg hk]
    · next hne =>
      have hfront : ∀ p rest, (queue c q).places = p :: rest → p.word = none := fun p rest hp => by
        obtain ⟨t, w⟩ := p
        cases w with
        | none => rfl
        | some w => exact absurd hp (hne t w rest)
      cases hp : (queue c q).places with
      | nil => exact ⟨by simp, rfl, fun _ _ => rfl⟩
      | cons p rest =>
        have hnone := hfront p rest hp
        exact ⟨by simp [List.takeWhile, hnone], by simp [List.dropWhile, hnone], fun _ _ => rfl⟩

theorem fillPlaces_length (t : Nat) (ps : List Place) (ws : List DWord) : (fillPlaces t ps ws).length = ps.length := by
  induction ps generalizing ws with
  | nil => rfl
  | cons p ps ih =>
    cases ws with
    | nil => rfl
    | cons w ws =>
      rw [fillPlaces]
      split <;> simp [ih]

/-- QUEUE_APPEND of a response of a queue request. -/
theorem queueAppend_response {n : Nat} {s : State} {p : Packet} {rest : List Packet} {o : Outstanding} {q : Nat}
    (hr : (ni s n).responses = p :: rest)
    (ho : (ni s n).outstanding.find? (fun x => x.tag == headTag p.head % 64) = some o) (hq : o.queue = some q) :
    queueAppend n s = releaseTag n (headTag p.head % 64) (setClu (setNi s n { ni s n with responses := rest }) n
      (showPlaces (setNi s n { ni s n with responses := rest }) n q 32 (setQueue (clu s n) q { queue (clu s n) q with
        places := fillPlaces (headTag p.head % 64) (queue (clu s n) q).places (p.payload.take o.words) }))) := by
  obtain ⟨tag, dst, oq, k⟩ := o
  obtain rfl : oq = some q := hq
  simp only [queueAppend, hr, ho, clu_setNi]

/-- Settles O13: each command does its one update, and what it speaks of is read off that update. -/
theorem clusterArrivals : Obligations.ClusterArrivals := by
  unfold Obligations.ClusterArrivals
  refine ⟨fun n s st m rest h hw hst => ⟨_, rfl, ?_⟩, fun n s h rest hw hdue hrun hv hd => ⟨_, rfl, ?_⟩,
    fun n s p rest o q hr ho hq hlen => ⟨_, rfl, ?_⟩, fun n s m rest k h hw => ⟨_, rfl, ?_⟩,
    fun n s h rest hw hdue hrun hwait => ⟨_, rfl, ?_⟩, fun n s g h rest hw hg hh => ⟨_, rfl, ?_⟩⟩
  · rw [mrdLanding_lands h (.inl ⟨st, hw, hst⟩)]
    exact lands_leaves n s m rest
  · have hrun' : reachRuns (setNi s n { ni s n with words := rest }) (n / 8) = true := hrun
    obtain ⟨hp, hl, hs⟩ := deliverWord_early (s := setNi s n { ni s n with words := rest }) (h.packet.payload.headD 0)
      (c := clu s n) hv hd
    simp only [vc0WordArrival, find?_due hw hdue]
    simp only [hw, List.erase_cons_head, hrun', Bool.not_true, Bool.false_eq_true, if_false, clu_setNi, clu_setClu, ni_setClu,
      ni_setNi, if_true]
    exact ⟨trivial, hp, hl, hs, rfl⟩
  · rw [queueAppend_response hr ho hq]
    obtain ⟨hw, hp, hk⟩ := queue_showPlaces (setNi s n { ni s n with responses := rest }) n q 32
      (setQueue (clu s n) q { queue (clu s n) q with
        places := fillPlaces (headTag p.head % 64) (queue (clu s n) q).places (p.payload.take o.words) })
      (by rwa [queue_setQueue, if_pos rfl, fillPlaces_length])
    simp only [queue_setQueue, if_true] at hw hp
    refine ⟨by simp [releaseTag], by simp [releaseTag], ?_, ?_, fun k hne => ?_, rfl⟩
    · simpa [releaseTag] using hw
    · simpa [releaseTag] using hp
    · simpa [releaseTag, queue_setQueue, hne] using hk k hne
  · rw [mrdLanding_lands h (.inr (hw.imp (fun h => ⟨k, h⟩) id))]
    exact lands_leaves n s m rest
  · have hrun' : reachRuns (setNi s n { ni s n with words := rest }) (n / 8) = false := hrun
    have hwait' : wordWaits (setNi s n { ni s n with words := rest }) n = true := hwait
    simp only [vc0WordArrival, find?_due hw hdue]
    simp only [hw, List.erase_cons_head, hrun', hwait', Bool.not_false, if_true]
    exact ⟨by simp, by simp, fun k hk => by simp [hk], rfl⟩
  · have hfind : ((ni s n).words.find? fun h => decide (h.due ≤ routerPeriods s (routerOfNi s n))) = some h := by
      rw [hw, List.find?_cons_of_neg (by simpa using hg), List.find?_cons_of_pos (by simpa using hh)]
    have herase : (g :: h :: rest).erase h = g :: rest := by
      have hne : (g == h) = false := beq_eq_false_iff_ne.2 (by rintro rfl; omega)
      rw [List.erase_cons_tail (by simp [hne]), List.erase_cons_head]
    simp only [vc0WordArrival, hfind]
    rw [hw, herase]
    split
    · split
      · exact ⟨by simp, rfl⟩
      · exact ⟨by simp, rfl⟩
    · exact ⟨by simp, rfl⟩

/-! ## A route that overflows its header field -/

/-- A die without fuses or straps set. -/
def bareDie : Die := ⟨true, true, [], 0, [], [], [], 0, false, 0, none, 0⟩

/-- A cluster that has one message to send over entry 0 of its route table, which leads to endpoint 152 on VC1 and holds 28
hops. No route check stands before NI_REQUEST_SEND, and hop code 27 is 1. -/
def longRoute : State where
  die := bareDie
  regs := [(R.wfRt0 0 0, 0xBC980000), (R.wfRt3 0 0, 0x200000)]
  clusters := [(0, { sendFifo := [5] })]

/-- Hop code 27 lies in the VC field of the header, so that the packet enters VC3. -/
theorem longRoute_leaves_vc1 : bufferAt (niRequestSend 0 longRoute) (vcKey (routerOfNi longRoute 0) 0 1) = [] := by
  decide +kernel

/-- Refutes O14: a route of 28 hops, as the entry's register can hold, overflows the route field of the header,
and the packet enters the local input of VC3 instead of that of VC1. -/
theorem not_clusterRequests : ¬ Obligations.ClusterRequests := by
  unfold Obligations.ClusterRequests
  rintro ⟨-, sends, -⟩
  obtain ⟨t, he, -, -, hb⟩ := sends 0 longRoute 0 0 (by decide +kernel) (by decide +kernel) (by decide +kernel)
    (by decide +kernel)
  obtain rfl : niRequestSend 0 longRoute = t := by
    injection he
  obtain ⟨f, body, hflits, -⟩ := packetFlits_eq
    (mkPacket 1 1 (routeCodes longRoute 0 0) 0 152 0 0 0 [(clu longRoute 0).sendFifo.headD 0])
  have hb' := longRoute_leaves_vc1.symm.trans hb
  rw [Fin.val_zero, hflits] at hb'
  simp at hb'

end Sys2Proof.Machine
end

/-! # Commands of the mesh -/

section
namespace Sys2Proof.Machine
set_option Elab.async false

/-! ## One period of a router -/

theorem niOfRouter_congr {s t : State} (hd : t.die = s.die) (hb : t.bist = s.bist) (r : Nat) :
    niOfRouter t r = niOfRouter s r := by
  simp only [niOfRouter, routerOfNi, routerOfCluster, physicalOf, hd, hb]

/-- What marking a late word changes: a buffer of its router, and no empty one. -/
theorem markLate_frame (r i : Nat) (s : State) : ∃ b, markLate r i s = { s with net := { s.net with buffers := b } } ∧
    ∀ k, bufferAt s k = [] → look (fun _ => []) b k = [] := by
  unfold markLate
  split
  · exact ⟨s.net.buffers, rfl, fun k hk => hk⟩
  · next f rest hf =>
    split
    · refine ⟨_, rfl, fun k hk => ?_⟩
      rw [look_put, if_neg (by rintro rfl; rw [hf] at hk; cases hk)]
      exact hk
    · exact ⟨s.net.buffers, rfl, fun k hk => hk⟩

theorem markLates_frame (r : Nat) (l : List Nat) (s : State) :
    ∃ b, l.foldl (fun acc i => markLate r i acc) s = { s with net := { s.net with buffers := b } } ∧
      ∀ k, bufferAt s k = [] → look (fun _ => []) b k = [] := by
  induction l generalizing s with
  | nil => exact ⟨s.net.buffers, rfl, fun k hk => hk⟩
  | cons i l ih =>
    obtain ⟨b, e, hb⟩ := markLate_frame r i s
    obtain ⟨b', e', hb'⟩ := ih { s with net := { s.net with buffers := b } }
    exact ⟨b', by rw [List.foldl_cons, e, e'], fun k hk => hb' k (hb k hk)⟩

/-- The end of a router's period: late words are marked, the period is counted, and the wheel advances (R144). -/
theorem periodEnd_frame (r : Nat) (s : State) (hr : routerInReset s r = false) (choices : List (Nat × Nat × Nat))
    (hc : (List.range 5).filterMap (fun o => (chooseFlit s r o).map fun x => (o, x.1, x.2)) = choices) {t : State}
    (ht : choices.foldl (fun acc x => sendFlit r x.1 x.2.1 x.2.2 acc) s = t) :
    ∃ b, routerPeriod r s = { t with net := { t.net with
        buffers := b
        periods := put (fun _ => 0) t.net.periods r (routerPeriods t r + 1)
        wheel := if t.net.wheelsStopped then t.net.wheel
          else put (fun _ => 0) t.net.wheel r ((wheelAt t r + 1) % 64) } } ∧
      ∀ k, bufferAt t k = [] → look (fun _ => []) b k = [] := by
  obtain ⟨b, e, hb⟩ := markLates_frame r (List.range 5) t
  refine ⟨b, ?_, hb⟩
  unfold routerPeriod
  dsimp only
  rw [hc, hr, if_neg Bool.false_ne_true, ht, e]
  rfl

/-- A single flit that leaves a router for its NI arrives as a whole packet. -/
theorem ejectAt_single {r d : Nat} {s : State} {f : Flit} (htail : f.tail = true)
    (hd : niOfRouter s r = some d) (hp : look (fun _ => []) (ni s d).partialIn f.vc = []) :
    ejectAt r f s = setNi s d { ni s d with
      partialIn := put (fun _ => []) (ni s d).partialIn f.vc []
      arrived := (ni s d).arrived ++ [⟨f.data, payloadOf [f]⟩] } := by
  simp [ejectAt, hd, hp, htail]

/-- A single flit at the local output goes to its NI as a whole packet (R142). -/
theorem sendFlit_local {r i v d : Nat} {s : State} {f : Flit} (hf : bufferAt s (vcKey r i v) = [f]) (htail : f.tail = true)
    (hd : niOfRouter s r = some d) (hp : look (fun _ => []) (ni s d).partialIn f.vc = []) :
    ∃ g y k₁ k₂ k₃ k₄, sendFlit r 0 i v s = { s with
      regs := g
      net := { s.net with
        buffers := put (fun _ => []) s.net.buffers (vcKey r i v) []
        locks := k₁
        lastInput := k₂
        lastBest := k₃
        probeHold := y
        nis := put (fun _ => {}) s.net.nis d { ni s d with
          partialIn := k₄
          arrived := (ni s d).arrived ++ [⟨f.data, payloadOf [f]⟩] } } } := by
  unfold sendFlit
  rw [hf]
  dsimp only
  generalize hs₁ : ({ setBuffer s (vcKey r i v) [] with net := _ } : State) = s₁
  obtain ⟨g, y, e⟩ := probesSee_frame r 0 false f s₁
  have hdie : s₁.die = s.die := by rw [← hs₁]; rfl
  have hbist : s₁.bist = s.bist := by rw [← hs₁]; rfl
  have hnis : s₁.net.nis = s.net.nis := by rw [← hs₁]; rfl
  have hni : ni { s₁ with regs := g, net := { s₁.net with probeHold := y } } d = ni s d := by simp only [ni, hnis]
  rw [e, if_pos rfl, ejectAt_single (s := { s₁ with regs := g, net := { s₁.net with probeHold := y } }) htail
    ((niOfRouter_congr (by exact hdie) (by exact hbist) r).trans hd) (by rw [hni, hp]), hni]
  subst hs₁
  exact ⟨_, _, _, _, _, _, rfl⟩

/-! ## Packets of a reservation -/

theorem takeManagement_mem {x y : Ni} {kind : Nat} {p : Packet} (h : takeManagement x kind = some (p, y)) :
    y = { x with management := x.management.erase p } := by
  unfold takeManagement at h
  obtain ⟨q, -, hq⟩ := Option.map_eq_some_iff.1 h
  obtain ⟨rfl, rfl⟩ := Prod.mk.inj hq
  rfl

/-- A response enters the mesh: it changes routers and probes only. -/
theorem respond_frame (i : Nat) (request : Packet) (kind : Nat) (payload : List DWord) (s : State) :
    ∃ g y d b, respond i request kind payload s = { s with
      regs := g
      net := { s.net with probeHold := y, discarding := d, buffers := b } } := by
  obtain ⟨g, y, d, b, e, -⟩ := inject_frame i (mkPacket 2 kind (reverseRoute request.head) (headDst request.head)
    (headSrc request.head) (headTag request.head % 64) 0 0 payload) s (sealHead_mkPacket _ _ _ _ _ _ _ _ _)
  exact ⟨g, y, d, b, e⟩

/-- A probe with room reserves its places under the free tag (R145). -/
theorem reservationProbe_grants {n g : Nat} {s : State} {p : Packet} {x : Ni}
    (hp : takeManagement (ni s n) 6 = some (p, x)) (hrun : reachRuns s (n / 8) = true)
    (hq : inboundQueue s n (bitsOf (p.payload.headD 0) 0 4) = true) (hg : freeTag x = some g)
    (hroom : bitsOf (p.payload.headD 0) 4 6 ≤ queueRoom (clu s n) (bitsOf (p.payload.headD 0) 0 4)) :
    reservationProbe n s = respond n p 2 [BitVec.ofNat 64 (1 + g <<< 8)]
      (setNi (setClu (setNi s n x) n
        (reservePlaces (clu s n) (bitsOf (p.payload.headD 0) 0 4) g (bitsOf (p.payload.headD 0) 4 6) none)) n { x with
          outstanding := x.outstanding ++
            [⟨g, headSrc p.head, some (bitsOf (p.payload.headD 0) 0 4), bitsOf (p.payload.headD 0) 4 6⟩] }) := by
  have hrun' : reachRuns (setNi s n x) (n / 8) = true := hrun
  have hq' : inboundQueue (setNi s n x) n (bitsOf (p.payload.headD 0) 0 4) = true := hq
  simp only [reservationProbe, hp, hrun', hq', hg, clu_setNi, ni_setNi, ni_setClu, if_true, Bool.not_true,
    Bool.false_eq_true, not_true_eq_false, if_false, if_neg (Nat.not_lt.2 hroom)]

/-! ## Packets that a network interface receives -/

/-- A header error is named by its cause (Table 6.5). -/
theorem bits_headerError (r port vc cause : Nat) (s : State) (hc : cause < 8) :
    bits (headerError r port vc cause s) R.wfHdrErr 16 3 = cause := by
  have hs : satAdd 16 (bits s R.wfHdrErr 0 16) 1 < 2 ^ 16 := by
    unfold satAdd; omega
  rw [headerError, bits, reg_setReg, if_pos rfl, bitsOf, BitVec.toNat_ofNat]
  simp only [Nat.shiftLeft_eq, Nat.shiftRight_eq_div_pow]
  omega

/-- A signal of a source that can signal joins the present collector cycle. -/
theorem signals_signal {source info : Nat} {s : State} (h : sourceGone s source info = false) (hs : source < 240)
    (hi : info < 65536) : (signal source info s).flt.signals = s.flt.signals ++ [⟨source, info, false⟩] := by
  rw [signal, h, if_neg (by simp; omega), Nat.mod_eq_of_lt hi]

/-- Settles O15. -/
theorem meshCommands : Obligations.MeshCommands := by
  unfold Obligations.MeshCommands
  refine ⟨fun r s i v f d hr hc hnone hf htail hd hp => ⟨_, rfl, ?_⟩, fun i s p rest ha hk hn hopen => ⟨_, rfl, ?_⟩,
    fun i s p rest ha hk hn => ⟨_, rfl, ?_⟩, fun n s p x g hp hrun hq hg hroom => ⟨_, rfl, ?_⟩⟩
  · have hchoices : (List.range 5).filterMap (fun o => (chooseFlit s r o).map fun x => (o, x.1, x.2)) = [(0, i, v)] := by
      simp [List.range_succ, hc, hnone]
    obtain ⟨g, y, k₁, k₂, k₃, k₄, e⟩ := sendFlit_local hf htail hd hp
    obtain ⟨b, eq, hb⟩ := periodEnd_frame r s hr _ hchoices e
    rw [eq]
    refine ⟨hb _ (by simp [bufferAt]), ?_, ?_, fun hw => ?_, rfl, rfl⟩
    · simp [ni]
    · simp [routerPeriods]
    · simp [wheelAt, hw]
  · have hn' : niOfEndpoint (setNi s i { ni s i with arrived := rest }) (headDst p.head) = some i.val := hn
    have hopen' : endpointClosed (setNi s i { ni s i with arrived := rest }) (headDst p.head) = false := hopen
    have e : niPacketReceive i s = setNi (setNi s i { ni s i with arrived := rest }) i { ni s i with
        arrived := rest
        words := (ni s i).words ++ [⟨p, routerPeriods s (routerOfNi s i) + headDstHold p.head⟩] } := by
      simp only [niPacketReceive, ha]
      simp only [hk, (by decide : ¬ (0 = 2 ∨ 0 = 3 ∨ 0 = 4)), decide_false, Bool.false_and, Bool.false_eq_true, if_false,
        hn', hopen', ne_eq, not_true_eq_false, receiveOpen, ni_setNi, if_true]
      rfl
    rw [e]
    exact ⟨by simp, fun j hj => by simp [hj], rfl⟩
  · have hn' : niOfEndpoint (setNi s i { ni s i with arrived := rest }) (headDst p.head) ≠ some i.val := hn
    have h2 : ¬ (headKind p.head = 2 ∨ headKind p.head = 3 ∨ headKind p.head = 4) := by omega
    have e : niPacketReceive i s = misrouted i p (setNi s i { ni s i with arrived := rest }) := by
      simp only [niPacketReceive, ha, h2, decide_false, Bool.false_and, Bool.false_eq_true, if_false, hn', if_true, ne_eq,
        not_false_eq_true]
    rw [e, misrouted]
    have hsig := signals_signal (source := 221) (info := i) (s := setBit (setNi s i { ni s i with arrived := rest })
      R.wfStatus 3 true) (by simp [sourceGone]) (by decide) (by omega)
    refine ⟨?_, bits_headerError _ _ _ _ _ (by decide), ?_, ?_, ?_⟩
    · simp only [bit, headerError, reg_setReg, reg_signal]
      exact bit_setBit _ R.wfStatus 3 true (by decide)
    · simp [headerError]
    · exact hsig
    · simp [headerError]
  · rw [reservationProbe_grants hp hrun hq hg hroom]
    obtain ⟨g', y, d, b, e⟩ := respond_frame n p 2 [BitVec.ofNat 64 (1 + g <<< 8)]
      (setNi (setClu (setNi s n x) n
        (reservePlaces (clu s n) (bitsOf (p.payload.headD 0) 0 4) g (bitsOf (p.payload.headD 0) 4 6) none)) n { x with
          outstanding := x.outstanding ++
            [⟨g, headSrc p.head, some (bitsOf (p.payload.headD 0) 0 4), bitsOf (p.payload.headD 0) 4 6⟩] })
    rw [e]
    refine ⟨?_, ?_, ?_⟩
    · simp [clu, reservePlaces, queue, setQueue]
    · simp [ni]
    · simp [clu, reservePlaces, queue, setQueue]

end Sys2Proof.Machine
end

/-! # Network interfaces, routers and the packet trace -/

section
namespace Sys2Proof.Machine
set_option Elab.async false

/-! ## Fields of a written register -/

/-- Bit `i` of the register at `a` is an RW bit and nothing else. -/
def plainBit (a i : Nat) : Bool :=
  match regAt a with
  | some (g, _) => g.rw.testBit i && !g.w1c.testBit i && !g.w1s.testBit i
  | none => false

/-- A write stores the written value of an RW bit. -/
theorem bit_writeFields {a i : Nat} (h : plainBit a i = true) (hi : i < 32) (v : Word) (s : State) :
    bit (writeFields a v s) a i = v.getLsbD i := by
  unfold plainBit at h
  unfold writeFields
  split at h
  · next g ix hg =>
    simp only [Bool.and_eq_true, Bool.not_eq_true'] at h
    obtain ⟨⟨hrw, hc⟩, hs⟩ := h
    simp only [hg, bit, reg_setReg, if_true, writtenWord, BitVec.getLsbD_or, BitVec.getLsbD_and, BitVec.getLsbD_not,
      BitVec.getLsbD_ofNat, hrw, hc, hs, hi]
    simp
  · cases h

theorem bit_setReg_ne (s : State) (a : Nat) (w : Word) (b i : Nat) (h : b ≠ a) : bit (setReg s a w) b i = bit s b i := by
  rw [bit, reg_setReg, if_neg h, bit]

/-! ## What probes do when they see a packet -/

/-- The registers that probes write: the lost count of the trace and the probe counts. -/
def probeRegs : List Nat := R.wfPtraceCtrl :: (List.range 32).map R.wfProbeCnt

/-- No probe is set to record. -/
def NoRecorder (s : State) : Prop := ∀ k, k < 32 → bits s (R.wfProbeCfg k) 30 2 < 3

/-- Probes have seen a packet between the states. -/
def ProbesSaw (s t : State) : Prop := keepsRegs probeRegs s t ∧ (NoRecorder s → t.net.probeHold = s.net.probeHold)

theorem wfProbeCnt_mem {p : Nat} (h : p < 32) : R.wfProbeCnt p ∈ probeRegs :=
  List.mem_cons_of_mem _ (List.mem_map_of_mem (List.mem_range.2 h))

theorem wfProbeCfg_not_mem (p : Nat) : R.wfProbeCfg p ∉ probeRegs := by
  simp only [probeRegs, List.mem_cons, List.mem_map, List.mem_range, R.wfProbeCfg, R.wfPtraceCtrl, R.wfProbeCnt]
  omega

theorem ProbesSaw.noRecorder {s t : State} (h : ProbesSaw s t) (hn : NoRecorder s) : NoRecorder t := fun k hk => by
  rw [bits, h.1 _ (wfProbeCfg_not_mem k)]
  exact hn k hk

theorem ProbesSaw.refl (s : State) : ProbesSaw s s := ⟨keepsRegs_refl _ _, fun _ => rfl⟩

theorem ProbesSaw.trans {s t u : State} (h : ProbesSaw s t) (h' : ProbesSaw t u) : ProbesSaw s u :=
  ⟨h.1.trans h'.1, fun hn => (h'.2 (h.noRecorder hn)).trans (h.2 hn)⟩

theorem ProbesSaw.foldl {α : Type} {f : State → α → State} (l : List α) (h : ∀ s, ∀ a ∈ l, ProbesSaw s (f s a)) (s : State) :
    ProbesSaw s (l.foldl f s) := by
  induction l generalizing s with
  | nil => exact .refl s
  | cons a l ih =>
    exact (h s a List.mem_cons_self).trans (ih (fun s b hb => h s b (List.mem_cons_of_mem _ hb)) (f s a))

theorem probeSees_saw (r port : Nat) (input : Bool) (h : BitVec 256) {p : Nat} (hp : p < 32) (s : State) :
    ProbesSaw s (probeSees r port input h p s) := by
  have counts : keepsRegs probeRegs s (bumpBits s (R.wfProbeCnt p) 0 32 1) :=
    (keepsRegs_refl _ _).bumpBits (wfProbeCnt_mem hp) _ _ _
  unfold probeSees
  dsimp only
  split
  · split
    · exact .refl s
    · exact ⟨counts, fun _ => rfl⟩
    · split
      · exact ⟨counts, fun _ => rfl⟩
      · exact .refl s
    · next h0 h1 h2 =>
      have recorder : ¬ NoRecorder s := fun hn => by
        have h3 : bitsOf (reg s (R.wfProbeCfg p)) 30 2 < 3 := hn p hp
        rcases (by omega : bitsOf (reg s (R.wfProbeCfg p)) 30 2 = 0 ∨ bitsOf (reg s (R.wfProbeCfg p)) 30 2 = 1 ∨
          bitsOf (reg s (R.wfProbeCfg p)) 30 2 = 2) with e | e | e
        exacts [h0 e, h1 e, h2 e]
      split
      · refine ⟨?_, fun hn => absurd hn recorder⟩
        unfold holdRecord
        dsimp only
        split
        · exact counts
        · split
          · exact counts
          · exact counts.bumpBits List.mem_cons_self _ _ _
      · exact .refl s
  · exact .refl s

theorem listed_lt {s : State} {base n : Nat} {x : Nat × Word} (h : x ∈ listed s base n) : x.1 < n := by
  obtain ⟨y, -, hy⟩ := List.mem_filterMap.1 h
  split at hy
  · obtain rfl := Option.some.inj hy
    dsimp only
    omega
  · cases hy

theorem probesSee_saw (r port : Nat) (input : Bool) (f : Flit) (s : State) : ProbesSaw s (probesSee r port input f s) := by
  unfold probesSee
  split
  · refine ProbesSaw.foldl _ (fun t p hp => probeSees_saw _ _ _ _ ?_ t) s
    obtain ⟨x, hx, hxp⟩ := List.mem_filterMap.1 hp
    have := listed_lt hx
    split at hxp
    · obtain rfl := Option.some.inj hxp
      omega
    · cases hxp
  · exact .refl s

theorem crossMesh_saw (cs : List Nat) (r : Nat) (f : Flit) (s : State) : ProbesSaw s (crossMesh cs r f s) := by
  induction cs generalizing r f s with
  | nil => exact probesSee_saw _ _ _ _ _
  | cons c rest ih =>
    unfold crossMesh
    dsimp only
    split
    · exact ((probesSee_saw _ _ _ _ _).trans (probesSee_saw _ _ _ _ _)).trans (ih _ _ _)
    · exact probesSee_saw _ _ _ _ _

theorem sendRecord_saw (p : Nat) (r : ProbeRecord) (s : State) : ProbesSaw s (sendRecord p r s) :=
  ProbesSaw.foldl _ (fun _ _ _ => (probesSee_saw _ _ _ _ _).trans (crossMesh_saw _ _ _ _)) s

theorem ProbesSaw.bits_eq {s t : State} (h : ProbesSaw s t) {a : Nat} (ha : a ∉ probeRegs) (lo n : Nat) :
    bits t a lo n = bits s a lo n := by rw [bits, h.1 a ha, bits]

theorem ProbesSaw.bit_eq {s t : State} (h : ProbesSaw s t) {a : Nat} (ha : a ∉ probeRegs) (i : Nat) :
    bit t a i = bit s a i := by rw [bit, h.1 a ha, bit]

/-- Whether the observation domain is closed is no concern of the probes. -/
theorem ProbesSaw.endpointClosed_156 {s t : State} (h : ProbesSaw s t) : endpointClosed t 156 = endpointClosed s 156 := by
  have hd : domainOn t 25 = domainOn s 25 := by
    rw [domainOn, h.bits_eq (by decide), domainOn]
  have hu : unitAbsent t 156 = unitAbsent s 156 := by
    simp only [unitAbsent, h.bit_eq (show R.glbUnitPresent0 ∉ probeRegs by decide)]
    rfl
  show (!domainOn t 25 || unitAbsent t 156) = (!domainOn s 25 || unitAbsent s 156)
  rw [hd, hu]

/-- The trace buffer with room takes the oldest record of a probe (R156). -/
theorem probeTraceWrite_stores {p : Nat} {s : State} {r : ProbeRecord} {rest : List ProbeRecord}
    (hr : look (fun _ => []) s.net.probeHold p = r :: rest) (hg : recordMayGo s p = true)
    (ho : endpointClosed s 156 = false) (hn : s.net.traceCount < 1024) :
    ∃ u, ProbesSaw { s with net := { s.net with probeHold := put (fun _ => []) s.net.probeHold p rest } } u ∧
      probeTraceWrite p s = showFull { setReg u R.wfPtracePtr (BitVec.ofNat 32
          ((if bits s R.wfPtracePtr 0 10 = 1023 ∨ bit u R.wfPtracePtr 31 then 2 ^ 31 else 0) +
            (bits s R.wfPtracePtr 0 10 + 1) % 1024)) with
        net := { u.net with
          traceBuf := enter s.net.traceBuf (bits s R.wfPtracePtr 0 10) r
          traceCount := s.net.traceCount + 1 } } := by
  generalize hs₁ : ({ s with net := { s.net with probeHold := put (fun _ => []) s.net.probeHold p rest } } : State) = s₁
  have hsaw := sendRecord_saw p r s₁
  obtain ⟨g, y, e⟩ := sendRecord_frame p r s₁
  have hbuf : (sendRecord p r s₁).net.traceBuf = s.net.traceBuf := by rw [e, ← hs₁]
  have hcount : (sendRecord p r s₁).net.traceCount = s.net.traceCount := by rw [e, ← hs₁]
  have hptr : bits (sendRecord p r s₁) R.wfPtracePtr 0 10 = bits s R.wfPtracePtr 0 10 := by
    rw [hsaw.bits_eq (by decide), ← hs₁]; rfl
  have hopen : endpointClosed (sendRecord p r s₁) 156 = false := by
    rw [hsaw.endpointClosed_156, ← hs₁]; exact ho
  rw [probeTraceWrite, hg, if_pos rfl, hr]
  dsimp only
  rw [hs₁, hopen, if_neg Bool.false_ne_true, if_neg (by omega), hptr]
  generalize sendRecord p r s₁ = u at hsaw hbuf hcount
  rw [setReg_net, hbuf, hcount]
  exact ⟨u, hsaw, rfl⟩

/-- The pointer of the trace buffer, below its wrapped flag. -/
theorem bits_tracePointer (s : State) (wrapped : Prop) [Decidable wrapped] (k : Nat) :
    bits (setReg s R.wfPtracePtr (BitVec.ofNat 32 ((if wrapped then 2 ^ 31 else 0) + k % 1024))) R.wfPtracePtr 0 10 =
      k % 1024 := by
  rw [bits, reg_setReg, if_pos rfl, bitsOf, BitVec.toNat_ofNat, Nat.shiftRight_zero]
  split <;> omega

theorem wfRtrCtrl_ne_wfRtrStatus (r : Nat) : R.wfRtrCtrl r ≠ R.wfRtrStatus r := by
  simp only [R.wfRtrCtrl, R.wfRtrStatus]; omega

/-- Settles O16. -/
theorem niAndRouterControl : Obligations.NiAndRouterControl := by
  unfold Obligations.NiAndRouterControl
  refine ⟨fun i s h => ?_, fun i s hi hh hf => ?_, fun i s hq ho => ?_, fun r s h => ⟨_, rfl, ?_⟩,
    fun r s hd hdd => ⟨_, rfl, ?_⟩, fun r s h => ⟨_, rfl, ?_⟩, fun i e s v h => ?_, fun i e s v h hv hc => ⟨_, rfl, ?_⟩,
    fun i e s v h hc => ?_, fun s => rfl, fun s v hv h => ⟨_, rfl, ?_⟩, fun p s r rest hr hg ho hn => ⟨_, rfl, ?_⟩,
    fun p s h => ?_⟩
  · show Host.Outcome.next (niCtrlWrite i true s) = _
    rw [niCtrlWrite, if_neg (by simp), if_pos h]
  · show Host.Outcome.next (niCtrlWrite i true s) = _
    rw [niCtrlWrite, if_neg (by simp), if_neg (by simp [hh, hf]; omega)]
  · show Host.Outcome.next (niQuiet i s) = _
    rw [niQuiet, if_pos ⟨hq, ho⟩]
  · rw [routerReset, h, if_neg Bool.false_ne_true]
    exact ⟨(bit_setBit_ne _ _ _ _ _ _ (.inl (wfRtrCtrl_ne_wfRtrStatus r))).trans (bit_setBit _ _ _ _ (by decide)),
      bit_setBit _ _ _ _ (by decide), ((keepsRegs_refl _ s).setBit (by simp) 0 true).setBit (by simp) 30 true, rfl⟩
  · rw [routerDrainDone, if_pos ⟨hd, hdd⟩]
    extract_lets keys s₁ s₂
    have h₁ : (s₁.net.nis, s₁.regs) = (s.net.nis, s.regs) := by
      refine foldl_keeps (fun t : State => (t.net.nis, t.regs)) _ (fun _ _ => ?_) _ _
      rfl
    have h₂ : (s₂.net.nis, s₂.regs) = (s₁.net.nis, s₁.regs) := by
      refine foldl_keeps (fun t : State => (t.net.nis, t.regs)) _ (fun _ _ => ?_) _ _
      rfl
    obtain ⟨hnis, hregs⟩ := Prod.mk.inj (h₂.trans h₁)
    have keeps : keepsRegs [R.wfRtrStatus r] s s₂ := fun a _ => by rw [reg, hregs, reg]
    exact ⟨(bit_setBit_ne _ _ _ _ _ _ (.inr (by decide))).trans (bit_setBit _ _ _ _ (by decide)),
      bit_setBit _ _ _ _ (by decide), hnis, (keeps.setBit (by simp) 30 false).setBit (by simp) 31 true⟩
  · rw [routerReopen, h, if_pos rfl]
    exact ⟨(bit_setBit_ne _ _ _ _ _ _ (.inl (wfRtrCtrl_ne_wfRtrStatus r).symm)).trans (bit_setBit _ _ _ _ (by decide)),
      bit_setBit _ _ _ _ (by decide), ((keepsRegs_refl _ s).setBit (by simp) 31 false).setBit (by simp) 0 false, rfl⟩
  · show Host.Outcome.next (routeWordWrite i e 0 v s) = _
    rw [routeWordWrite, h, if_pos (by simp)]
  · have he : routeWordWrite i e 0 v s =
        setBit (setBit (writeFields (R.wfRt0 i e) v s) (R.wfRt0 i e) 31 false) (R.wfNiStatus i) 28 true := by
      rw [routeWordWrite, h, if_neg (by simp), if_neg (by simp), hv, hc, if_neg (by simp)]
    have apart : R.wfRt0 i e ≠ R.wfNiStatus i := by
      simp only [R.wfRt0, R.wfNiStatus]; omega
    rw [he]
    exact ⟨(bit_setBit_ne _ _ _ _ _ _ (.inl apart)).trans (bit_setBit _ _ _ _ (by decide)), bit_setBit _ _ _ _ (by decide),
      (((keepsRegs_refl _ s).writeFields (by simp) v).setBit (by simp) 31 false).setBit (by simp) 28 true⟩
  · show Host.Outcome.next (routeWordWrite i e 0 v s) = _
    simp [routeWordWrite, h, hc]
  · rw [ptraceWrite, h, if_pos (by simp [hv])]
    refine ⟨?_, ?_, ?_, rfl, ?_⟩
    · refine (bit_setReg_ne _ _ _ _ _ (by decide)).trans ((bit_setBit_ne _ _ _ _ _ _ (.inr (by decide))).trans ?_)
      rw [bit_writeFields (by decide +kernel) (by decide), hv]
    · exact (bit_setReg_ne _ _ _ _ _ (by decide)).trans (bit_setBit _ _ _ _ (by decide))
    · simp [reg, setReg]
    · exact (((keepsRegs_refl _ s).writeFields (by simp) v).setBit (by simp) 29 false).setReg (by simp) 0
  · obtain ⟨u, ⟨hk, hhold⟩, e⟩ := probeTraceWrite_stores hr hg ho hn
    rw [e]
    refine ⟨?_, ?_, rfl, fun hmodes => ?_, ?_⟩
    · simp [showFull]
    · exact (bits_setBit_ne _ _ _ _ _ _ _ (.inl (by decide))).trans (bits_tracePointer _ _ _)
    · show look _ u.net.probeHold p = rest
      rw [hhold hmodes, look_put, if_pos rfl]
    · refine keepsRegs.setBit (keepsRegs.setReg (t := u) ?_ (by simp) _) (by simp) _ _
      exact fun a ha => (keepsRegs.mono hk (by simp [probeRegs])) a ha
  · show Host.Outcome.next (probeTraceWrite p s) = _
    rw [probeTraceWrite, h, if_neg Bool.false_ne_true]

end Sys2Proof.Machine
end

/-! # Leg decisions, the milestone and tokens -/

section
namespace Sys2Proof.Machine
set_option Elab.async false

/-! ## A leg without steps -/

/-- A design of one leg and depth 0, so that the leg ends where it starts. The eight clusters of reach 0 run and have made
their transition, and leg 0 is anchored. -/
def emptyLeg : State where
  die := bareDie
  regs := [(R.glbSchedStatus, 1 <<< 8), (R.glbLeg 0, 1 <<< 29), (R.ldReach, 0xFFFE0000)]
  sched := { run := .running, edges := 1 }
  clusters := (List.range 8).map fun n => (n, { walk := .transition 4 })

/-- Refutes O17: a leg without steps runs, and its clusters are at the end of their walk at once, never in the leg. -/
theorem not_legDecision : ¬ Obligations.LegDecision := by
  unfold Obligations.LegDecision
  rintro ⟨runs, -⟩
  obtain ⟨t, he, -, -, -, hrun, -⟩ := runs emptyLeg 0 0 (.inl rfl) rfl (by decide +kernel) (by decide +kernel)
  obtain rfl : legDecision emptyLeg = t := by
    injection he
  have walks := (hrun 0 (by decide +kernel)).1
  have ends : (clu (legDecision emptyLeg) 0).walk = .atEnd := by decide +kernel
  rw [ends] at walks
  cases walks

end Sys2Proof.Machine
end

/-! # The current and the previous bank through a milestone

`SameBanks s t` says that every cluster has the current and the previous bank of `s` in `t`: one lemma for each operation of
the milestone sequence, so that a chain of operations is a chain of lemmas. -/

section
namespace Sys2Proof.Machine
set_option Elab.async false
set_option autoImplicit true

/-- The banks of a cluster. -/
def bankView (c : Cluster) : Sparse Bool × Sparse Bool := (c.cur, c.prev)

/-- Every cluster keeps its banks. -/
def SameBanks (s t : State) : Prop := ∀ n, bankView (clu t n) = bankView (clu s n)

variable {s t u : State}

protected theorem SameBanks.refl : SameBanks s s := fun _ => rfl

protected theorem SameBanks.update (h : SameBanks s t) (e : u.clusters = t.clusters := by rfl) : SameBanks s u :=
  fun n => by rw [clu, e]; exact h n

protected theorem SameBanks.ite {c : Prop} [Decidable c] (ht : SameBanks s t) (hu : SameBanks s u) :
    SameBanks s (if c then t else u) := by
  split <;> assumption

protected theorem SameBanks.foldl {α : Type} {f : State → α → State} {l : List α} (h : SameBanks s t)
    (hf : ∀ a x, SameBanks s a → SameBanks s (f a x)) : SameBanks s (l.foldl f t) := by
  induction l generalizing t with
  | nil => exact h
  | cons x l ih => exact ih (hf t x h)

protected theorem SameBanks.forUpTo {f : Nat → State → State} {n : Nat} (h : SameBanks s t)
    (hf : ∀ k a, SameBanks s a → SameBanks s (f k a)) : SameBanks s (forUpTo n f t) :=
  h.foldl fun a k => hf k a

protected theorem SameBanks.setReg (h : SameBanks s t) : SameBanks s (setReg t a w) :=
  h.update

protected theorem SameBanks.setBits (h : SameBanks s t) : SameBanks s (setBits t a lo n v) :=
  h.setReg

protected theorem SameBanks.setBit (h : SameBanks s t) : SameBanks s (setBit t a i b) :=
  h.setBits

protected theorem SameBanks.bumpBits (h : SameBanks s t) : SameBanks s (bumpBits t a lo n by_) :=
  h.setBits

protected theorem SameBanks.setClu (h : SameBanks s t) (hc : bankView c = bankView (clu s n)) :
    SameBanks s (setClu t n c) := fun k => by
  rw [clu_setClu]
  split
  · next e => rw [e, hc]
  · exact h k

protected theorem SameBanks.setLink (h : SameBanks s t) : SameBanks s (setLink t l x) :=
  h.update

protected theorem SameBanks.setLane (h : SameBanks s t) : SameBanks s (setLane t a x) :=
  h.update

protected theorem SameBanks.signal (h : SameBanks s t) : SameBanks s (signal source info t) := by
  unfold signal
  refine SameBanks.ite ?_ ?_
  · exact h
  · exact h.update

protected theorem SameBanks.setCause (h : SameBanks s t) : SameBanks s (setCause v b t) :=
  h.setBit

protected theorem SameBanks.raiseCause (h : SameBanks s t) : SameBanks s (raiseCause v t) := by
  unfold raiseCause
  dsimp only
  refine SameBanks.ite ?_ ?_
  · exact h
  · exact h.update

protected theorem SameBanks.oweTicks (h : SameBanks s t) : SameBanks s (oweTicks milestone' t) := by
  unfold oweTicks
  dsimp only
  refine SameBanks.ite ?_ ?_
  · exact h
  · exact h.forUpTo fun _ _ h1 => (SameBanks.ite h1.update h1)

protected theorem SameBanks.sendTokenOn (h : SameBanks s t) : SameBanks s (sendTokenOn l hold count t) :=
  h.setLink.foldl fun _ _ h1 => h1.setLane

protected theorem SameBanks.sendTokens (h : SameBanks s t) : SameBanks s (sendTokens hold e t) :=
  h.foldl fun _ _ h1 => h1.sendTokenOn

protected theorem SameBanks.enterLink (h : SameBanks s t) : SameBanks s (enterLink l vc p t) :=
  h.setLink

protected theorem SameBanks.sendTree (h : SameBanks s t) : SameBanks s (sendTree l w t) := by
  unfold sendTree
  refine SameBanks.ite ?_ ?_
  · exact h
  · refine SameBanks.ite ?_ ?_
    · exact h.update
    · exact h.enterLink

protected theorem SameBanks.sendWaiting (h : SameBanks s t) : SameBanks s (sendWaiting t) :=
  h.update.foldl fun _ _ h1 => h1.sendTree

protected theorem SameBanks.niCtrlWrite (h : SameBanks s t) : SameBanks s (niCtrlWrite i on t) := by
  unfold niCtrlWrite
  dsimp only
  refine SameBanks.ite ?_ ?_
  · refine SameBanks.ite ?_ ?_
    · exact h.setBit.setBit.sendWaiting
    · exact h.setBit.setBit
  · refine SameBanks.ite ?_ ?_ <;> exact h.setBit

protected theorem SameBanks.switchSlots (h : SameBanks s t) : SameBanks s (switchSlots t) := by
  unfold switchSlots
  dsimp only
  refine SameBanks.ite ?_ ?_
  · exact h.update
  · exact h

protected theorem SameBanks.emit (h : SameBanks s t) : SameBanks s (emit source p t) := by
  unfold emit
  dsimp only
  refine SameBanks.ite ?_ ?_ <;> exact h.update

protected theorem SameBanks.emitSync (h : SameBanks s t) : SameBanks s (emitSync core' reason t) :=
  h.emit.update

protected theorem SameBanks.powerSync (h : SameBanks s t) : SameBanks s (powerSync t) := by
  unfold powerSync
  refine SameBanks.ite ?_ ?_
  · exact h.update.emitSync.emitSync
  · exact h

protected theorem SameBanks.traceRestart (h : SameBanks s t) : SameBanks s (traceRestart t) :=
  h.update

protected theorem SameBanks.watchRun (h : SameBanks s t) (hf : ∀ {a}, SameBanks s a → SameBanks s (f a)) : SameBanks s (watchRun f t) := by
  unfold watchRun
  dsimp only
  refine SameBanks.ite ?_ ?_
  · exact (hf h).traceRestart
  · exact (hf h)

protected theorem SameBanks.traceStop (h : SameBanks s t) : SameBanks s (traceStop t) :=
  h.setBit

protected theorem SameBanks.traceEvents (h : SameBanks s t) : SameBanks s (traceEvents codes t) := by
  unfold traceEvents
  refine SameBanks.ite ?_ ?_
  · exact h
  · split
    · exact h
    · exact h.watchRun fun h1 => h1.powerSync.setBits.emit

protected theorem SameBanks.traceEvent (h : SameBanks s t) : SameBanks s (traceEvent code t) :=
  h.traceEvents

protected theorem SameBanks.traceTrigger (h : SameBanks s t) : SameBanks s (traceTrigger source t) := by
  unfold traceTrigger
  dsimp only
  refine SameBanks.ite ?_ ?_
  · refine SameBanks.ite ?_ ?_
    · exact h.update.traceStop
    · exact h.update
  · exact h

protected theorem SameBanks.setAcq (h : SameBanks s t) : SameBanks s (setAcq x t) :=
  h.update

protected theorem SameBanks.setThermal (h : SameBanks s t) : SameBanks s (setThermal r f t) :=
  h.update

protected theorem SameBanks.applyClk (h : SameBanks s t) : SameBanks s (applyClk r t) :=
  h.setBits.setBit

protected theorem SameBanks.clkOpportunity (h : SameBanks s t) : SameBanks s (clkOpportunity r t) :=
  (SameBanks.ite h.setThermal h).applyClk

protected theorem SameBanks.applyClocks (h : SameBanks s t) : SameBanks s (applyClocks t) :=
  h.forUpTo fun _ _ h1 => h1.clkOpportunity

protected theorem SameBanks.applyFree (h : SameBanks s t) : SameBanks s (applyFree t) :=
  h.forUpTo fun _ _ h1 => (SameBanks.ite h1.clkOpportunity h1)

protected theorem SameBanks.setRun (h : SameBanks s t) : SameBanks s (setRun r t) := by
  unfold setRun
  dsimp only
  split
  · exact h.update.applyFree.raiseCause
  · exact h.update.raiseCause
  · exact h.update

protected theorem SameBanks.addCause (h : SameBanks s t) : SameBanks s (addCause b t) :=
  h.setBit

protected theorem SameBanks.freezeRequest (h : SameBanks s t) : SameBanks s (freezeRequest b t) :=
  h.update

protected theorem SameBanks.sendHold (h : SameBanks s t) : SameBanks s (sendHold t) :=
  h.update.sendTokens

protected theorem SameBanks.stopDevice (h : SameBanks s t) : SameBanks s (stopDevice b t) := by
  unfold stopDevice
  dsimp only
  refine SameBanks.ite ?_ ?_
  · exact h.update
  · refine SameBanks.ite ?_ ?_
    · exact h.update.addCause.setRun.sendHold
    · exact h

protected theorem SameBanks.dropBreakwater (h : SameBanks s t) : SameBanks s (dropBreakwater r t) :=
  h.update

protected theorem SameBanks.setSched (h : SameBanks s t) : SameBanks s (setSched x t) :=
  h.update

protected theorem SameBanks.evaluateChannel (h : SameBanks s t) : SameBanks s (evaluateChannel c t) := by
  unfold evaluateChannel
  dsimp only
  refine SameBanks.ite ?_ ?_
  · exact (SameBanks.ite (SameBanks.ite h.setBit h.setBit).bumpBits (SameBanks.ite h.setBit h.setBit)).setReg.setReg
  · exact h

protected theorem SameBanks.pushUnits (h : SameBanks s t) : SameBanks s (pushUnits us t) :=
  h.setAcq

protected theorem SameBanks.noteHead (h : SameBanks s t) : SameBanks s (noteHead us raw w e t) := by
  unfold noteHead
  refine SameBanks.ite ?_ ?_
  · exact h.setAcq
  · exact h

protected theorem SameBanks.noteTail (h : SameBanks s t) : SameBanks s (noteTail t) := by
  unfold noteTail
  refine SameBanks.ite ?_ ?_
  · exact h.setAcq
  · exact h

protected theorem SameBanks.pushSample (h : SameBanks s t) : SameBanks s (pushSample raw x t) :=
  h.noteHead.setAcq.pushUnits.noteTail

protected theorem SameBanks.pushMarker (h : SameBanks s t) : SameBanks s (pushMarker code e t) :=
  h.setAcq.pushUnits

protected theorem SameBanks.pad (h : SameBanks s t) : SameBanks s (pad t) :=
  h.pushUnits

protected theorem SameBanks.queueAcqRecord (h : SameBanks s t) : SameBanks s (queueAcqRecord index bs t) :=
  h.setAcq

protected theorem SameBanks.endCapture (h : SameBanks s t) : SameBanks s (endCapture t) :=
  h.setAcq

protected theorem SameBanks.finishNormal (h : SameBanks s t) : SameBanks s (finishNormal e t) :=
  h.pushMarker.pad.queueAcqRecord.endCapture

protected theorem SameBanks.discardSegment (h : SameBanks s t) : SameBanks s (discardSegment t) := by
  unfold discardSegment
  dsimp only
  split
  · exact h
  · exact h.setAcq

protected theorem SameBanks.finishFull (h : SameBanks s t) : SameBanks s (finishFull t) :=
  h.setBit.setBit.endCapture

protected theorem SameBanks.finishSegment (h : SameBanks s t) : SameBanks s (finishSegment e t) := by
  unfold finishSegment
  dsimp only
  split
  · exact h
  · refine SameBanks.ite ?_ ?_
    · exact h.pushMarker.pad.discardSegment.finishFull
    · refine SameBanks.ite ?_ ?_
      · exact h.pushMarker.pad.queueAcqRecord.setAcq.finishFull
      · exact h.pushMarker.pad.queueAcqRecord.setAcq

protected theorem SameBanks.checkRegion (h : SameBanks s t) : SameBanks s (checkRegion t) := by
  unfold checkRegion
  refine SameBanks.ite ?_ ?_
  · exact h.discardSegment.finishFull
  · exact h

protected theorem SameBanks.captureSample (h : SameBanks s t) : SameBanks s (captureSample first x t) := by
  unfold captureSample
  dsimp only
  refine SameBanks.ite ?_ ?_
  · exact h.bumpBits.signal.setAcq
  · exact (SameBanks.setAcq (by split; exacts [h.pushMarker.setAcq, h])).pushSample

protected theorem SameBanks.normalSample (h : SameBanks s t) : SameBanks s (normalSample x fired t) :=
  (SameBanks.ite (SameBanks.ite h.pushMarker h).pushMarker (SameBanks.ite h.pushMarker h)).captureSample

protected theorem SameBanks.openSegment (h : SameBanks s t) : SameBanks s (openSegment x t) :=
  h.setAcq.pushMarker.foldl fun _ _ h1 => h1.setAcq.pushSample

protected theorem SameBanks.keepSample (h : SameBanks s t) : SameBanks s (keepSample x t) :=
  h.setAcq

protected theorem SameBanks.segmentSample (h : SameBanks s t) : SameBanks s (segmentSample x fired t) :=
  (SameBanks.ite (SameBanks.ite h.openSegment.pushMarker h).captureSample (SameBanks.ite h.openSegment.pushMarker h)).checkRegion.keepSample

protected theorem SameBanks.triggered (h : SameBanks s t) : SameBanks s (triggered e fires t) :=
  h.setBits.setReg.setReg.setBit.raiseCause.setAcq.traceEvent.traceTrigger

protected theorem SameBanks.judgePre (h : SameBanks s t) : SameBanks s (judgePre e t) := by
  unfold judgePre
  refine SameBanks.ite ?_ ?_
  · exact h
  · exact h.setBit

protected theorem SameBanks.postEnds (h : SameBanks s t) : SameBanks s (postEnds e t) := by
  unfold postEnds
  dsimp only
  refine SameBanks.ite ?_ ?_
  · refine SameBanks.ite ?_ ?_
    · exact (SameBanks.ite (SameBanks.ite h.setAcq.setBit.freezeRequest h.setAcq.setBit) (SameBanks.ite h.setAcq.setBit.freezeRequest h.setAcq.setBit).setBit).finishSegment
    · exact (SameBanks.ite (SameBanks.ite h.setAcq.setBit.freezeRequest h.setAcq.setBit) (SameBanks.ite h.setAcq.setBit.freezeRequest h.setAcq.setBit).setBit).finishNormal
  · refine SameBanks.ite ?_ ?_
    · refine SameBanks.ite ?_ ?_
      · exact h.setAcq.setBit.freezeRequest
      · exact h.setAcq.setBit
    · exact (SameBanks.ite h.setAcq.setBit.freezeRequest h.setAcq.setBit).setBit

protected theorem SameBanks.breakFreeze (h : SameBanks s t) : SameBanks s (breakFreeze t) := by
  unfold breakFreeze
  refine SameBanks.ite ?_ ?_
  · exact h.freezeRequest
  · exact h

protected theorem SameBanks.checkPause (h : SameBanks s t) : SameBanks s (checkPause t) := by
  unfold checkPause
  refine SameBanks.ite ?_ ?_
  · exact h.setBit.freezeRequest
  · exact h

protected theorem SameBanks.observe (h : SameBanks s t) : SameBanks s (observe e t) := by
  unfold observe
  split
  · exact h
  · extract_lets s1 m found fires s2 waiting fired s3 _ s4 x s5 _ s6 s7
    have h2 : SameBanks s s2 := h.breakFreeze.checkPause.forUpTo fun _ _ h1 => h1.evaluateChannel
    have h4 : SameBanks s s4 := (SameBanks.ite h2.triggered h2).setAcq
    have h5 : SameBanks s s5 :=
      .ite (.ite h4.segmentSample (.ite h4.normalSample.judgePre h4.normalSample)) h4
    have h6 : SameBanks s s6 := .ite h5.setAcq h5
    have h7 : SameBanks s s7 := h6.setBit
    split
    · exact .ite h7.postEnds h7.setAcq
    · exact h7.postEnds
    · exact h7


protected theorem SameBanks.setLd (h : SameBanks s t) : SameBanks s (setLd x t) :=
  h.update

protected theorem SameBanks.setAnchors (h : SameBanks s t) : SameBanks s (setAnchors a t) :=
  h.forUpTo fun _ _ h1 => h1.setBit

protected theorem SameBanks.startScrub (h : SameBanks s t) : SameBanks s (startScrub r t) :=
  h.setLd

protected theorem SameBanks.startReach (h : SameBanks s t) : SameBanks s (startReach r t) := by
  unfold startReach
  dsimp only
  split
  · exact h
  · exact h.setBit.forUpTo fun _ _ h1 => h1.setClu (h1 _)

protected theorem SameBanks.setRl (h : SameBanks s t) : SameBanks s (setRl x t) :=
  h.update.setBits

protected theorem SameBanks.switchIn (h : SameBanks s t) : SameBanks s (switchIn t) := by
  have joined : ∀ r, SameBanks s (forUpTo 8 (fun k acc =>
      setClu acc (8 * r + k) { clu acc (8 * r + k) with walk := .milestone 48 }) (startReach r t)) := fun r =>
    h.startReach.forUpTo fun _ _ h1 => h1.setClu (h1 _)
  unfold switchIn
  exact (joined _).setBit.setAnchors.setLd.startScrub.dropBreakwater.setRl.setBits.setBits.forUpTo
    fun _ _ h1 => h1.niCtrlWrite

protected theorem SameBanks.sampleProbes (h : SameBanks s t) : SameBanks s (sampleProbes t) :=
  h.setSched

protected theorem SameBanks.sampleShore (h : SameBanks s t) : SameBanks s (sampleShore t) :=
  h.update

protected theorem SameBanks.dueFreezes (h : SameBanks s t) : SameBanks s (dueFreezes e t) := by
  unfold dueFreezes
  dsimp only
  split
  · refine SameBanks.ite ?_ ?_
    · exact (SameBanks.ite h.freezeRequest h).setSched.freezeRequest
    · exact (SameBanks.ite h.freezeRequest h).setSched
  · refine SameBanks.ite ?_ ?_
    · exact h.freezeRequest
    · exact h

protected theorem SameBanks.sendToken (h : SameBanks s t) : SameBanks s (sendToken e t) :=
  h.setSched.sendTokens

protected theorem SameBanks.forceAction (h : SameBanks s t) : SameBanks s (forceAction t) :=
  h.forUpTo fun k _ h1 => h1.setClu (h k)

protected theorem SameBanks.releaseAction (h : SameBanks s t) : SameBanks s (releaseAction e t) := by
  unfold releaseAction
  dsimp only
  refine SameBanks.ite ?_ ?_
  · exact h
  · refine SameBanks.ite ?_ ?_ <;>
      (refine SameBanks.ite ?_ ?_; exacts [h.setSched, h])

protected theorem SameBanks.freezeAction (h : SameBanks s t) : SameBanks s (freezeAction t) := by
  unfold freezeAction
  dsimp only
  refine SameBanks.ite ?_ ?_
  · exact (SameBanks.ite (h.foldl fun _ _ h1 => (SameBanks.ite h1.addCause h1)).setBit (h.foldl fun _ _ h2 => (SameBanks.ite h2.addCause h2))).setSched.setRun
  · exact h

protected theorem SameBanks.actions (h : SameBanks s t) : SameBanks s (actions e t) :=
  (SameBanks.ite (SameBanks.ite h.forceAction h.forceAction.switchSlots).switchIn (SameBanks.ite h.forceAction h.forceAction.switchSlots)).releaseAction.freezeAction

protected theorem SameBanks.endSequence (h : SameBanks s t) : SameBanks s (endSequence t) := by
  unfold endSequence
  dsimp only
  split
  · exact h.setSched
  · refine SameBanks.ite ?_ ?_
    · exact h.setSched.addCause
    · exact h.setSched.stopDevice

end Sys2Proof.Machine
end

/-! # The milestone -/

section
namespace Sys2Proof.Machine
set_option Elab.async false

/-! ## The banks -/

theorem clu_of_not_listed {s : State} {n : Nat} (h : n ∉ s.clusters.map (·.1)) : clu s n = {} := by
  unfold clu
  generalize s.clusters = m at h
  induction m with
  | nil => rfl
  | cons x m ih =>
    obtain ⟨hx, hm⟩ := not_or.1 (fun h' => h (List.mem_cons.2 h'))
    rw [look, if_neg hx]
    exact ih hm

/-- Clusters whose current bank is copied one after the other. -/
theorem foldl_copyBank (l : List Nat) (s : State) (n : Nat) :
    let t := l.foldl (fun acc k => setClu acc k { clu acc k with prev := (clu acc k).cur }) s
    (clu t n).cur = (clu s n).cur ∧ (n ∈ l ∨ (clu s n).prev = (clu s n).cur → (clu t n).prev = (clu s n).cur) := by
  induction l generalizing s with
  | nil => exact ⟨rfl, fun h => h.resolve_left List.not_mem_nil⟩
  | cons k l ih =>
    obtain ⟨hcur, hprev⟩ := ih (setClu s k { clu s k with prev := (clu s k).cur })
    rw [clu_setClu] at hcur hprev
    by_cases hk : n = k
    · subst hk
      rw [if_pos rfl] at hcur hprev
      exact ⟨hcur, fun _ => hprev (.inr rfl)⟩
    · rw [if_neg hk] at hcur hprev
      exact ⟨hcur, fun h => hprev (h.imp_left fun h => (List.mem_cons.1 h).resolve_left hk)⟩

/-- The current bank of every cluster is its previous bank after the copy (R16). -/
theorem copyBanks_bankView (s : State) (n : Nat) : bankView (clu (copyBanks s) n) = ((clu s n).cur, (clu s n).cur) := by
  obtain ⟨hcur, hprev⟩ := foldl_copyBank (s.clusters.map (·.1)) s n
  refine Prod.ext hcur (hprev ?_)
  by_cases h : n ∈ s.clusters.map (·.1)
  · exact .inl h
  · rw [clu_of_not_listed h]
    exact .inr rfl

theorem admitWords_bankView (s : State) (n : Nat) (c : Cluster) : bankView (admitWords s n c) = bankView c := by
  refine foldl_keeps bankView _ (fun c p => ?_) _ _
  unfold compareWord
  split
  · split <;> rfl
  · rfl

protected theorem SameBanks.nextEc {s t : State} (h : SameBanks s t) (e : Nat) : SameBanks s (nextEc e t) := by
  have fresh : SameBanks s (mapClusters newEcCluster t) := h.foldl fun _ _ h1 => h1.setClu (h1 _)
  have admitted : ∀ u, SameBanks s u → SameBanks s (admitAll u) := fun u hu =>
    hu.foldl fun _ _ h1 => h1.setClu ((admitWords_bankView _ _ _).trans (h1 _))
  unfold nextEc
  extract_lets s1 _ s2 s3 _ _ s4
  have h2 : SameBanks s s2 := fresh.update
  have h4 : SameBanks s s4 := (admitted s2 h2).update
  exact h4.applyClocks.oweTicks

/-! ## The schedule of the new ec -/

/-- The part of the state that shows the ec. -/
def ecView (s : State) :=
  (s.sched.phase, s.sched.ec, s.sched.ranLegs, s.sched.edges, s.sched.stage, s.sched.stageShown, s.net.wheelsStopped)

/-- The registers of the wheels. -/
abbrev wheelReg (a : Nat) : Prop := (0x1200 ≤ a ∧ a < 0x1300) ∨ (0x2000 ≤ a ∧ a < 0x4000)

/-- `t` shows the ec of `s`, and its wheels are set as those of `s`. -/
def InEc (s t : State) : Prop := ecView t = ecView s ∧ ∀ a, wheelReg a → reg t a = reg s a

section
set_option autoImplicit true
variable {s t u : State}

protected theorem InEc.refl : InEc s s := ⟨rfl, fun _ _ => rfl⟩

protected theorem InEc.trans (h : InEc s t) (h' : InEc t u) : InEc s u :=
  ⟨h'.1.trans h.1, fun a ha => (h'.2 a ha).trans (h.2 a ha)⟩

protected theorem InEc.update (h : InEc s t) (e : ecView u = ecView t := by rfl) (hr : u.regs = t.regs := by rfl) : InEc s u :=
  ⟨e.trans h.1, fun a ha => by rw [reg, hr]; exact h.2 a ha⟩

protected theorem InEc.setReg (h : InEc s t) (ha : ¬ wheelReg a) (w : Word) : InEc s (setReg t a w) :=
  ⟨h.1, fun b hb => by rw [reg_setReg, if_neg (by rintro rfl; exact ha hb), h.2 b hb]⟩

protected theorem InEc.ite {c : Prop} [Decidable c] (ht : InEc s t) (hu : InEc s u) : InEc s (if c then t else u) := by
  split <;> assumption

protected theorem InEc.foldl {α : Type} {f : State → α → State} {l : List α} (h : InEc s t)
    (hf : ∀ a, ∀ x ∈ l, InEc s a → InEc s (f a x)) : InEc s (l.foldl f t) := by
  induction l generalizing t with
  | nil => exact h
  | cons x l ih => exact ih (hf t x List.mem_cons_self h) fun a y hy => hf a y (List.mem_cons_of_mem _ hy)

protected theorem InEc.oweTicks (h : InEc s t) : InEc s (oweTicks b t) := by
  unfold Machine.oweTicks
  split
  · exact h
  · exact h.foldl fun _ _ _ h1 => .ite h1.update h1

protected theorem InEc.clkOpportunity (h : InEc s t) (hr : r < 16) : InEc s (clkOpportunity r t) := by
  unfold Machine.clkOpportunity applyClk
  refine InEc.setReg (InEc.setReg (.ite h.update h) ?_ _) (by decide) _
  simp only [wheelReg, R.pwrReachClk]
  omega

protected theorem InEc.applyClocks (h : InEc s t) : InEc s (applyClocks t) :=
  h.foldl fun _ _ hr h1 => h1.clkOpportunity (List.mem_range.1 hr)

protected theorem InEc.applyFree (h : InEc s t) : InEc s (applyFree t) :=
  h.foldl fun _ _ hr h1 => .ite (h1.clkOpportunity (List.mem_range.1 hr)) h1

protected theorem InEc.raiseCause (h : InEc s t) : InEc s (raiseCause v t) := by
  have hset : InEc s (setCause v true t) := by
    unfold setCause
    exact h.setReg (by split <;> decide) _
  exact .ite h hset.update

protected theorem InEc.addCause (h : InEc s t) : InEc s (addCause b t) := h.setReg (by decide) _

protected theorem InEc.setRun (h : InEc s t) : InEc s (setRun r t) := by
  unfold Machine.setRun
  dsimp only
  split
  · exact InEc.raiseCause (InEc.applyFree h.update)
  · exact InEc.raiseCause h.update
  · exact h.update

protected theorem InEc.sendHold (h : InEc s t) : InEc s (sendHold t) :=
  (h.update : InEc s { t with sched := { t.sched with held := some t.sched.ec.toNat } }).foldl fun _ _ _ h1 =>
    InEc.foldl h1.update fun _ _ _ h2 => h2.update

protected theorem InEc.stopDevice (h : InEc s t) : InEc s (stopDevice b t) := by
  unfold Machine.stopDevice
  refine .ite h.update (.ite ?_ h)
  exact InEc.sendHold (InEc.setRun (InEc.addCause h.update))

protected theorem InEc.endSequence (h : InEc s t) : InEc s (endSequence t) := by
  unfold Machine.endSequence
  dsimp only
  split
  · exact h.update
  · exact .ite (InEc.addCause h.update) (InEc.stopDevice h.update)

/-- The edge flags of an ec are those of the wheels as they are set. -/
theorem wheelEdges_congr (h : ∀ a, wheelReg a → reg t a = reg s a) (e : Nat) : wheelEdges t e = wheelEdges s e := by
  unfold wheelEdges
  refine List.foldl_ext _ _ _ fun acc w hw => ?_
  have hw := List.mem_range.1 hw
  have hcfg : reg t (R.glbWheelCfg w) = reg s (R.glbWheelCfg w) := h _ (.inl (by simp only [R.glbWheelCfg]; omega))
  have hpat : ∀ p, p < 4096 → reg t (R.glbWheelPat w (p / 32)) = reg s (R.glbWheelPat w (p / 32)) := fun p hp =>
    h _ (.inr (by simp only [R.glbWheelPat]; omega))
  have hlt : (bitsOf (reg s (R.glbWheelCfg w)) 16 12 + e) % (bitsOf (reg s (R.glbWheelCfg w)) 0 12 + 1) < 4096 := by
    have := bitsOf_lt (reg s (R.glbWheelCfg w)) 0 12
    exact lt_of_lt_of_le (Nat.mod_lt _ (Nat.succ_pos _)) this
  rw [wheelEdge, wheelEdge, hcfg, bit, hpat _ hlt, bit]

end

/-- The new ec (R91, R33): its count, its edge flags, its stage, and wheels that stand. -/
theorem nextEc_ecView (e : Nat) (s : State) :
    ecView (nextEc e s) = (.milestone, BitVec.ofNat 64 (e + 1), [], wheelEdges (nextEc e s) (e + 1), s.sched.stage,
      s.sched.stage, true) := by
  have mapped : ∀ l : List Nat, (l.foldl (fun acc n => setClu acc n (newEcCluster (clu acc n))) s).sched = s.sched := fun l => by
    refine foldl_keeps State.sched _ (fun _ _ => ?_) _ _
    rfl
  unfold nextEc
  extract_lets s1 _ s2 s3 _ _ s4
  have h₁ : s1.sched = s.sched := mapped _
  have h₃ : (s3.sched, s3.regs) = (s2.sched, s2.regs) := by
    refine foldl_keeps (fun t : State => (t.sched, t.regs)) _ (fun _ _ => ?_) _ _
    rfl
  obtain ⟨hsched, hregs⟩ := Prod.mk.inj h₃
  have hedges : wheelEdges s4 (e + 1) = wheelEdges s1 (e + 1) :=
    wheelEdges_congr (fun a _ => by
      unfold reg
      rw [show s4.regs = s1.regs from hregs]) _
  have hend : InEc s4 (oweTicks true (applyClocks s4)) := InEc.refl.applyClocks.oweTicks
  rw [hend.1, wheelEdges_congr hend.2, hedges]
  show (s3.sched.phase, s3.sched.ec, s3.sched.ranLegs, s3.sched.edges, s3.sched.stage, s3.sched.stageShown, true) = _
  rw [hsched]
  show (_, _, _, _, s1.sched.stage, s1.sched.stage, _) = _
  rw [h₁]
  rfl

/-- The milestone of a design without a load staged, a reload or a hazard is the sequence of Table 4.2. -/
theorem milestone_eq_sequence {s : State} (hp : atMilestonePoint s = true) (hld : ldState s ≠ 3) (hrl : s.rl = {})
    (hz : s.sched.hazardFirst = []) :
    milestone s = endSequence (sequence s.sched.ec.toNat (setSched { s.sched with inSequence := true } s)) := by
  have hleaving : (setSched { s.sched with inSequence := true } s).rl.leaving = false := by
    show s.rl.leaving = false
    rw [hrl]
  have hazards : raiseHazards (setSched { s.sched with inSequence := true } s) =
      setSched { s.sched with inSequence := true } s := by
    rw [raiseHazards, show (setSched { s.sched with inSequence := true } s).sched.hazardFirst = [] from hz]
  unfold milestone
  rw [hp, if_neg (by simp), if_neg (fun h => hld h.1)]
  dsimp only
  rw [hleaving, if_neg Bool.false_ne_true, hazards]
  rfl

/-- The banks after the milestone sequence: every current bank, and its copy (R16). -/
theorem sequence_bankView (e : Nat) (s : State) (n : Nat) :
    bankView (clu (endSequence (sequence e s)) n) = ((clu s n).cur, (clu s n).cur) := by
  have before : SameBanks s (sendToken e (dueFreezes e (observe e (sampleShore (sampleProbes s))))) :=
    SameBanks.refl.sampleProbes.sampleShore.observe.dueFreezes.sendToken
  have after := (SameBanks.refl (s := copyBanks (sendToken e (dueFreezes e (observe e (sampleShore (sampleProbes s))))))
    |>.actions (e := e) |>.nextEc e).endSequence n
  have hcur : (clu (sendToken e (dueFreezes e (observe e (sampleShore (sampleProbes s))))) n).cur = (clu s n).cur :=
    congrArg Prod.fst (before n)
  refine after.trans ((copyBanks_bankView _ n).trans ?_)
  rw [hcur]

theorem mem_runningClusters {s : State} {n : Nat} : n ∈ runningClusters s ↔ n < 128 ∧ clusterRuns s n = true := by
  simp [runningClusters]

/-- Clusters set to `f` of what they are, one after the other. -/
theorem clu_foldl_setClu (f : Nat → Cluster) (l : List Nat) (s : State) (n : Nat) :
    clu (l.foldl (fun acc k => setClu acc k (f k)) s) n = if n ∈ l then f n else clu s n := by
  induction l generalizing s with
  | nil => simp
  | cons k l ih =>
    rw [List.foldl_cons, ih, clu_setClu]
    by_cases hl : n ∈ l
    · simp [hl]
    · by_cases hk : n = k
      · simp [hk]
      · simp [hl, hk]

/-- Settles O18. -/
theorem milestone_settled : Obligations.Milestone := by
  unfold Obligations.Milestone
  refine ⟨fun s hp hld hrl hz => ⟨_, rfl, ?_⟩, fun s hl => ⟨_, rfl, ?_⟩⟩
  · rw [milestone_eq_sequence hp hld hrl hz]
    generalize hs₁ : setSched { s.sched with inSequence := true } s = s₁
    have hbanks := fun n => sequence_bankView s.sched.ec.toNat s₁ n
    generalize he : s.sched.ec.toNat = e at hbanks
    have hec : InEc (sequence e s₁) (endSequence (sequence e s₁)) := InEc.refl.endSequence
    have hview := hec.1.trans (nextEc_ecView e _)
    rw [show nextEc e _ = sequence e s₁ from rfl, ← wheelEdges_congr hec.2] at hview
    simp only [ecView, Prod.mk.injEq] at hview
    obtain ⟨hphase, hcount, hran, hedges, hstage, hshown, hwheels⟩ := hview
    refine ⟨hcount, hphase, hran, hedges, hshown.trans hstage.symm, hwheels, fun n _ => ?_⟩
    have hclu : clu s₁ n = clu s n := by rw [← hs₁]; rfl
    have := hbanks n
    rw [hclu] at this
    exact ⟨congrArg Prod.snd this, congrArg Prod.fst this⟩
  · have hsched : ((runningClusters s).foldl (fun acc n => setClu acc n { clu s n with walk := .transition 0 }) s).sched =
        s.sched := by
      refine foldl_keeps State.sched _ (fun _ _ => ?_) _ _
      rfl
    have hshore : ((runningClusters s).foldl (fun acc n => setClu acc n { clu s n with walk := .transition 0 }) s).shore =
        s.shore := by
      refine foldl_keeps State.shore _ (fun _ _ => ?_) _ _
      rfl
    have hregs : ((runningClusters s).foldl (fun acc n => setClu acc n { clu s n with walk := .transition 0 }) s).regs =
        s.regs := by
      refine foldl_keeps State.regs _ (fun _ _ => ?_) _ _
      rfl
    have hclu := clu_foldl_setClu (fun n => { clu s n with walk := .transition 0 }) (runningClusters s) s
    rw [milestoneLeave, hl, if_pos rfl]
    dsimp only
    rw [hsched]
    generalize (runningClusters s).foldl _ s = t at hshore hregs hclu
    refine ⟨rfl, fun n hn => (hclu n).trans (if_pos hn), ?_, hregs⟩
    show t.shore.waiting ++ [⟨s.sched.ec.toNat, t.shore.sampled, decide (1 ≤ s.sched.stageShown)⟩] = _
    rw [hshore]

end Sys2Proof.Machine
end

/-! # Tokens and hold markers -/

section
namespace Sys2Proof.Machine
set_option Elab.async false

/-! ## A set that arrives on a lane -/

/-- A unit without code errors is counted on its lane. -/
theorem unitArrives_lane (a n : Nat) {rx : LaneIn} (s : State) (h : rx.errors = []) (hst : laneState s a ≠ laneTrain) :
    ∃ k, unitArrives a n rx s = setLane s a { lane s a with received := k } ∨ unitArrives a n rx s = s := by
  have counted (k : Nat) :
      symbolsArrive a k [] s = setLane s a { lane s a with received := (lane s a).received + k } := rfl
  unfold unitArrives
  rw [h, counted]
  split
  · exact ⟨0, .inr rfl⟩
  · exact ⟨_, .inl (if_neg hst)⟩

theorem receiveUnit_unlooped {a : Nat} {s : State} (h : laneLooped s a = false) (want : LaneUnit → Bool)
    (own : Nat → LaneUnit → State → State) (pair : State → State) : receiveUnit a want own pair s = pair s := by
  rw [receiveUnit, h, if_neg Bool.false_ne_true]

/-- A good set on a lane in OPER comes to its link. -/
theorem setArrives_good {take : Nat → Byte → State → State} {a l : Nat} {s : State} {x : TokenIn}
    (ho : laneState s a = laneOper) (hl : linkOfLane s a = some l) (hc : x.crcOk = true) (he : x.rx.errors = []) :
    ∃ m, setArrives take a x s = take l x.count { s with cw := { s.cw with lanes := m } } := by
  obtain ⟨m, hm⟩ := unitArrives_frame a 4 s he
  have hl' : linkOfLane { s with cw := { s.cw with lanes := m } } a = some l := hl
  have ho' : laneState { s with cw := { s.cw with lanes := m } } a = laneOper := ho
  refine ⟨m, ?_⟩
  unfold setArrives
  rw [hm]
  simp only [ho', hl', hc, ne_eq, not_true_eq_false, false_or, if_false, unitHit, he, List.any_nil, Bool.false_eq_true]

/-- A copy whose CRC fails is a code error of its lane, whatever it was (R163). -/
theorem setArrives_bad {take : Nat → Byte → State → State} {a : Nat} {s : State} {x : TokenIn}
    (ho : laneState s a = laneOper) (hc : x.crcOk = false) (he : x.rx.errors = []) :
    setArrives take a x s = codeError a (unitArrives a 4 x.rx s) := by
  obtain ⟨m, hm⟩ := unitArrives_frame a 4 s he
  have ho' : laneState (unitArrives a 4 x.rx s) a = laneOper := by rw [hm]; exact ho
  unfold setArrives
  simp only [ho', hc, ne_eq, not_true_eq_false, false_or, if_false, unitHit, he, List.any_nil, Bool.false_eq_true,
    not_false_eq_true, if_true]

/-- The first code error of a lane that has been up is counted and signalled, and the lane stays (R163). -/
theorem codeError_first {a : Nat} {s : State} (h : (lane s a).codeErrors = []) :
    ∃ errs, codeError a s =
      setLane (if laneWasUp (bumpBits s (R.cwLaneErr a) 16 16 1) a
        then signal 224 a (bumpBits s (R.cwLaneErr a) 16 16 1) else bumpBits s (R.cwLaneErr a) 16 16 1) a
        { lane s a with codeErrors := errs } := by
  unfold codeError
  extract_lets s1 s2 x errs s3
  have hx : x = lane s a := by
    show lane s2 a = _
    simp only [s2, s1]
    split <;> simp
  have hlen : errs.length < 16 := by
    have : errs.length ≤ (x.received :: x.codeErrors).length := List.length_filter_le _ _
    rw [hx, h] at this
    exact lt_of_le_of_lt this (by simp)
  refine ⟨errs, ?_⟩
  rw [if_neg (fun hc => absurd hc.2 (by omega))]
  show setLane s2 a { x with codeErrors := errs } = _
  rw [hx]

theorem codeError_counts {a : Nat} {s : State} (h : (lane s a).codeErrors = []) :
    (codeError a s).sched = s.sched ∧ (codeError a s).cw.links = s.cw.links ∧
      bits (codeError a s) (R.cwLaneErr a) 16 16 = min (bits s (R.cwLaneErr a) 16 16 + 1) (2 ^ 16 - 1) ∧
      keepsRegs [R.cwLaneErr a] s (codeError a s) := by
  obtain ⟨errs, e⟩ := codeError_first h
  have counted := bits_bumpBits s (R.cwLaneErr a) 16 16 1 (by decide)
  have kept : keepsRegs [R.cwLaneErr a] s (bumpBits s (R.cwLaneErr a) 16 16 1) :=
    (keepsRegs_refl _ s).bumpBits (by simp) _ _ _
  rw [e]
  split
  · exact ⟨by simp, by simp, by simpa using counted, kept.signal 224 a⟩
  · exact ⟨rfl, rfl, counted, kept⟩

/-! ## Tokens -/

/-- A token set sent on a link waits once on each of its lanes. -/
theorem sendTokenOn_lanes (l : Nat) (hold : Bool) (count : Nat) (s : State) (a : Nat) :
    lane (sendTokenOn l hold count s) a =
      if a ∈ linkLanes s l then { lane s a with tokenDue := queueSet (lane s a).tokenDue (hold, count % 256) } else lane s a := by
  have once : ∀ sets x, queueSet (queueSet sets x) x = queueSet sets x := fun sets x => by
    unfold queueSet
    by_cases h : sets.contains x = true
    · simp only [h, if_true]
    · simp only [h, if_false, Bool.false_eq_true, List.contains_append, List.contains_cons, beq_self_eq_true, Bool.true_or,
        Bool.or_true, if_true]
  have fold : ∀ (L : List Nat) (u : State), lane (L.foldl (fun acc a =>
      setLane acc a { lane acc a with tokenDue := queueSet (lane acc a).tokenDue (hold, count % 256) }) u) a =
      if a ∈ L then { lane u a with tokenDue := queueSet (lane u a).tokenDue (hold, count % 256) } else lane u a := by
    intro L
    induction L with
    | nil => intro u; simp
    | cons b L ih =>
      intro u
      rw [List.foldl_cons, ih, lane_setLane]
      by_cases hb : a = b
      · subst hb
        simp [once]
      · simp [hb]
  unfold sendTokenOn
  exact fold _ _

/-- A link after it has taken a new token set. -/
def tokenTaken (s : State) (l : Nat) (c : Byte) : State :=
  setLink s l { link s l with
    tokensIn := (c.toNat :: (link s l).tokensIn).take 2
    holdsIn := (link s l).holdsIn.filter (· = c.toNat) }

/-- The token that a link awaits is held, and its hold marker ends. -/
theorem takeToken_awaited {l : Nat} {c : Byte} {s : State} (hms : bit s R.glbMsLinks l = true)
    (hnew : c.toNat ∉ (link s l).tokensIn) (hc : c.toNat = awaitedEc s l % 256) :
    takeToken l c s = { tokenTaken s l c with sched := { s.sched with
      awaited := put (fun _ => 0) s.sched.awaited l (awaitedEc s l + 1)
      holds := s.sched.holds.filter (· ≠ l) } } := by
  unfold takeToken
  rw [if_neg (by simp [hms, hnew])]
  exact if_pos hc

/-- A new token with another count is out of sequence. -/
theorem takeToken_other {l : Nat} {c : Byte} {s : State} (hms : bit s R.glbMsLinks l = true)
    (hnew : c.toNat ∉ (link s l).tokensIn) (hc : c.toNat ≠ awaitedEc s l % 256) :
    takeToken l c s = signal 216 l (setBit (tokenTaken s l c) R.glbMsStatus 28 true) := by
  unfold takeToken
  rw [if_neg (by simp [hms, hnew])]
  exact if_neg hc

/-- A hold marker that its link has not taken before. -/
theorem takeHoldMarker_new {l : Nat} {c : Byte} {s : State} (hms : bit s R.glbMsLinks l = true)
    (hnew : c.toNat ∉ (link s l).holdsIn) :
    takeHoldMarker l c s =
      let u := setLink s l { link s l with holdsIn := (c.toNat :: (link s l).holdsIn).take 2 }
      { u with sched := { s.sched with holds := if s.sched.holds.contains l then s.sched.holds else l :: s.sched.holds } } := by
  unfold takeHoldMarker
  rw [if_neg (by simp [hms, hnew])]
  rfl

theorem pendingTokens_lt {s : State} {l : Nat} (h : l ∈ pendingTokens s) : l < 20 := by
  simp only [pendingTokens, msLinks, List.mem_filter, List.mem_range] at h
  exact h.1.1

/-- Settles O19. -/
theorem tokens : Obligations.Tokens := by
  unfold Obligations.Tokens
  refine ⟨fun a l s x hloop ho hl hc he hms hnew hcount => ⟨_, rfl, ?_⟩,
    fun a l s x hloop ho hl hc he hms hnew hcount => ⟨_, rfl, ?_⟩,
    fun a s x hloop ho hc he herr hup => ⟨⟨_, rfl, ?_⟩, ?_⟩,
    fun a l s x hloop ho hl hc he hms hnew => ⟨_, rfl, ?_⟩, fun s l hrun hphase hper hraised hlim hpend hhold => ⟨_, rfl, ?_⟩,
    fun l s h c hlast hc => ⟨_, rfl, ?_⟩⟩
  · obtain ⟨m, e⟩ := setArrives_good (take := takeToken) ho hl hc he
    rw [tokenReceive, receiveUnit_unlooped hloop, e,
      takeToken_awaited (s := { s with cw := { s.cw with lanes := m } }) hms hnew hcount]
    refine ⟨?_, ?_, ?_, rfl, rfl⟩
    · simp [awaitedEc]
    · simp
    · simp [link, tokenTaken]
  · obtain ⟨m, e⟩ := setArrives_good (take := takeToken) ho hl hc he
    rw [tokenReceive, receiveUnit_unlooped hloop, e,
      takeToken_other (s := { s with cw := { s.cw with lanes := m } }) hms hnew hcount]
    refine ⟨by simp [tokenTaken], ?_, ?_⟩
    · rw [bit, reg_signal]
      exact bit_setBit _ _ _ _ (by decide)
    · exact (keepsRegs.setBit (keepsRegs_refl _ s) (by simp) 28 true).signal 216 l
  · rw [tokenReceive, receiveUnit_unlooped hloop, setArrives_bad ho hc he]
    obtain ⟨k, e | e⟩ := unitArrives_lane a 4 s he (by rw [ho]; decide)
    · have := codeError_counts (a := a) (s := setLane s a { lane s a with received := k }) (by simpa using herr)
      rw [e]
      exact this
    · rw [e]
      exact codeError_counts herr
  · show Host.Outcome.next (holdMarkerReceive a x s) = .next (tokenReceive a x s)
    rw [tokenReceive, holdMarkerReceive, receiveUnit_unlooped hloop, receiveUnit_unlooped hloop, setArrives_bad ho hc he,
      setArrives_bad ho hc he]
  · obtain ⟨m, e⟩ := setArrives_good (take := takeHoldMarker) ho hl hc he
    rw [holdMarkerReceive, receiveUnit_unlooped hloop, e,
      takeHoldMarker_new (s := { s with cw := { s.cw with lanes := m } }) hms hnew]
    refine ⟨?_, rfl, rfl⟩
    show l ∈ if s.sched.holds.contains l = true then s.sched.holds else l :: s.sched.holds
    split
    · next h => exact List.contains_iff_mem.1 h
    · exact List.mem_cons_self
  · have hwait : waitsForTokens s = true := by
      simp [waitsForTokens, hphase, hrun, hper, List.ne_nil_of_mem hpend]
    have hlate : l ∈ (pendingTokens s).filter fun l => !s.sched.holds.contains l := by
      simp [hpend, hhold]
    have e : msTokenTimeout s = signal 217 ((pendingTokens s).headD 0)
        (setBit { s with sched := { s.sched with tokenRaised := true } } R.glbMsStatus 29 true) := by
      obtain ⟨b, rest, hf⟩ := List.exists_cons_of_ne_nil (List.ne_nil_of_mem hlate)
      unfold msTokenTimeout
      dsimp only
      rw [hf]
      exact if_pos ⟨hwait, hlim, by simp [hraised]⟩
    have hhead : (pendingTokens s).headD 0 < 20 := by
      cases hp : pendingTokens s with
      | nil => rw [hp] at hpend; cases hpend
      | cons b rest => exact pendingTokens_lt (by rw [hp]; exact List.mem_cons_self)
    have kept : keepsRegs [R.glbMsStatus] s
        (setBit { s with sched := { s.sched with tokenRaised := true } } R.glbMsStatus 29 true) :=
      keepsRegs.setBit (fun _ _ => rfl) (by simp) 29 true
    rw [e]
    refine ⟨by rw [signal_sched]; rfl, ?_,
      signals_signal (s := setBit { s with sched := { s.sched with tokenRaised := true } } R.glbMsStatus 29 true)
        (by simp [sourceGone]) (by decide) (by omega), kept.signal _ _⟩
    · rw [bit, reg_signal]
      exact bit_setBit _ _ _ _ (by decide)
  · have e : tokenRepeat l s = sendTokenOn l h c s := by rw [tokenRepeat, hlast]
    rw [e]
    refine ⟨fun a ha => ?_, fun a ha => ?_, fun k => ?_, ?_⟩
    · rw [sendTokenOn_lanes, if_pos ha, Nat.mod_eq_of_lt hc]
      exact if_congr List.contains_iff_mem rfl rfl
    · rw [sendTokenOn_lanes, if_neg ha]
    · have hlinks : (sendTokenOn l h c s).cw.links =
          (setLink s l { link s l with lastTokenOut := some (h, c % 256) }).cw.links := by
        refine foldl_keeps (fun u : State => u.cw.links) _ (fun _ _ => ?_) _ _
        rfl
      have hk : link (sendTokenOn l h c s) k = link (setLink s l { link s l with lastTokenOut := some (h, c % 256) }) k := by
        unfold link
        rw [hlinks]
        rfl
      rw [hk, link_setLink]
      split
      · next hkl =>
        subst hkl
        rw [Nat.mod_eq_of_lt hc, ← hlast]
      · rfl
    · refine foldl_keeps State.regs _ (fun _ _ => ?_) _ _
      rfl

end Sys2Proof.Machine
end

/-! # Register accesses through a BAR, configuration space and management packets -/

section
namespace Sys2Proof.Machine
set_option Elab.async false

/-! ## Plain registers of the first blocks -/

/-- The bases of the GLB and PWR registers whose write does more than store its fields. -/
def actingGlb : List Nat := [R.glbSchedDepth, R.glbWheelCfg 0, R.glbWheelPat 0 0, R.glbMsLinks, R.glbLeg 0, R.glbSchedCfg,
  R.glbHazardCfg, R.glbDeviceOrdinal, R.glbLhDoorbell, R.pwrDomainCtrl 0, R.pwrResetCtrl, R.pwrReachClk 0]

theorem writeGlb_plain {b : Nat} (h : b ∉ actingGlb) (g : Agent) (i a : Nat) (v : Word) (s : State) :
    writeGlb g b i a v s = writeFields a v s := by
  simp only [actingGlb, List.mem_cons, List.not_mem_nil, or_false, not_or] at h
  obtain ⟨h1, h2, h3, h4, h5, h6, h7, h8, h9, h10, h11, h12⟩ := h
  have hcfg : ¬ [R.glbSchedDepth, R.glbWheelCfg 0, R.glbWheelPat 0 0, R.glbMsLinks].contains b = true := by
    simp only [List.contains_iff_mem, List.mem_cons, List.not_mem_nil, or_false, not_or]
    exact ⟨h1, h2, h3, h4⟩
  unfold writeGlb
  rw [if_neg hcfg, if_neg h5, if_neg h6, if_neg h7, if_neg h8, if_neg h9, if_neg h10, if_neg h11, if_neg h12]

/-- A block that no power domain closes: GLB, PWR and PCIe. -/
theorem blockOn_glb {a : Nat} (h : a < 0x100000) (s : State) : blockOn s a = true := by
  unfold blockOn
  simp only [show ¬ 0x300000 ≤ a by omega, show ¬ 0x400000 ≤ a by omega, show ¬ 0x600000 ≤ a by omega,
    show ¬ 0x700000 ≤ a by omega, show ¬ 0x700020 ≤ a by omega, show ¬ 0x780000 ≤ a by omega,
    show ¬ 0x1000000 ≤ a by omega, show ¬ 0x2000000 ≤ a by omega, false_and, if_false]

/-- A write of a register of the blocks GLB and PWR goes to that register. -/
theorem writeWord32_glb {a : Nat} {r : RegGroup} {ix : List Nat} (ha : a < 0x100000) (h4 : a % 4 = 0)
    (hr : regAt a = some (r, ix)) (g : Agent) (v : Word) (s : State) :
    writeWord32 g a v s = writeReg g r ix a v s := by
  have htrace : ¬ a = R.traceMsg := by simp only [R.traceMsg]; omega
  have hservice : inService a = false := by simp [inService]; omega
  have hmsix : inMsix a = false := by simp [inMsix]; omega
  have hview : inView a = false := by simp [inView]; omega
  have hstore : inStoreView a = false := by simp [inStoreView]; omega
  simp only [writeWord32, h4, htrace, hservice, hmsix, hview, hstore, blockOn_glb ha, hr, ne_eq, not_true_eq_false, if_false,
    false_and, Bool.not_true, Bool.false_eq_true, show ¬ 0x801000 ≤ a by omega]

/-- The registers whose write stores its fields and does nothing else, and which no power domain closes. -/
def plainGlb : List Nat :=
  [R.glbStatus, R.glbMsTokenTimeout, R.glbMsStatus, R.glbHazardStatus, R.glbIrqCauseLo, R.glbDmaErr, R.pwrClkCfg]

theorem plainGlb_base : ∀ a ∈ plainGlb, (regAt a).map (fun x => x.1.base) = some a := by decide +kernel

theorem writeWord32_plainGlb {a : Nat} (ha : a ∈ plainGlb) (g : Agent) (v : Word) (s : State) :
    writeWord32 g a v s = writeFields a v s := by
  obtain ⟨⟨r, ix⟩, hr, hb⟩ := Option.map_eq_some_iff.1 (plainGlb_base a ha)
  obtain rfl : r.base = a := hb
  have hlow : r.base < 0x100000 ∧ r.base % 4 = 0 ∧ r.base ∉ actingGlb := by
    revert ha
    generalize r.base = b
    revert b
    decide
  rw [writeWord32_glb hlow.1 hlow.2.1 hr, writeReg]
  rw [if_neg (by omega), if_pos hlow.1, writeGlb_plain hlow.2.2]

/-! ## Bytes and words -/

theorem bytesLE_length (n v : Nat) : (bytesLE n v).length = n := by
  induction n generalizing v with
  | zero => rfl
  | succ n ih => simp [bytesLE, ih]

theorem ofBytesLE_bytesLE (n v : Nat) : ofBytesLE (bytesLE n v) = v % 256 ^ n := by
  induction n generalizing v with
  | zero => simp [bytesLE, ofBytesLE, Nat.mod_one]
  | succ n ih =>
    rw [bytesLE, ofBytesLE, ih, BitVec.toNat_ofNat, show 256 ^ (n + 1) = 256 * 256 ^ n from Nat.pow_succ', Nat.mod_mul]

theorem readBytes_writeBytes (m : Mem) (a : Nat) (l : List Byte) : readBytes (writeBytes m a l) a l.length = l := by
  refine List.ext_getElem (by simp [readBytes]) fun i hi hl => ?_
  simp only [readBytes, List.getElem_map, List.getElem_range, readByte_writeBytes]
  rw [if_pos (by omega), Nat.add_sub_cancel_left, List.getD_eq_getElem _ _ hl]

theorem readWord_writeWord (m : Mem) (a : Nat) (v : Word) : readWord (writeWord m a v) a = v := by
  have h := readBytes_writeBytes m a (bytesLE 4 v.toNat)
  rw [bytesLE_length] at h
  rw [readWord, writeWord, h, ofBytesLE_bytesLE, Nat.mod_eq_of_lt (by simpa using v.isLt), BitVec.ofNat_toNat,
    BitVec.setWidth_eq]

theorem readByte_writeWord_ne (m : Mem) (a : Nat) (v : Word) {k : Nat} (h : k < a ∨ a + 4 ≤ k) :
    readByte (writeWord m a v) k = readByte m k := by
  rw [writeWord, readByte_writeBytes, bytesLE_length, if_neg (by omega)]

/-! ## A write of the fields of a register -/

theorem writeFields_frame (a : Nat) (v : Word) (s : State) :
    ∃ g, writeFields a v s = { s with regs := g } := by
  unfold writeFields
  split
  · exact ⟨_, rfl⟩
  · exact ⟨_, rfl⟩

@[simp] theorem ni_writeFields (a : Nat) (v : Word) (s : State) (j : Nat) : ni (writeFields a v s) j = ni s j := by
  obtain ⟨g, e⟩ := writeFields_frame a v s
  rw [e]; rfl

@[simp] theorem writeFields_clusters (a : Nat) (v : Word) (s : State) : (writeFields a v s).clusters = s.clusters := by
  obtain ⟨g, e⟩ := writeFields_frame a v s
  rw [e]

/-- A register of RW bits alone takes the word written. -/
theorem reg_writeFields {a : Nat} (h : ∀ i, i < 32 → plainBit a i = true) (v : Word) (s : State) :
    reg (writeFields a v s) a = v :=
  BitVec.eq_of_getLsbD_eq fun i hi => bit_writeFields (h i hi) hi v s

/-! ## The words of an access -/

theorem writeRef_bar {p : Party} {b : Bar} {a n : Nat} {vs : List Word} {s : State} (hp : partyActs s p = true)
    (hb : b ∈ [Bar.bar0, .bar2]) (hm : refMapped ⟨p, b, a, n, false, false⟩ = true) :
    writeRef ⟨p, b, a, n, false, false⟩ vs s = writeWords ⟨p, b, a, n, false, false⟩ (a / 4 * 4) vs s := by
  simp only [List.mem_cons, List.not_mem_nil, or_false] at hb
  rcases hb with rfl | rfl <;> simp [writeRef, ecrcFails, hp, hm]

/-- The check of a request's ECRC is no part of what it does. -/
theorem writeWords_ecrc (p : Party) (b : Bar) (a n : Nat) (x e e' : Bool) (c : Nat) (vs : List Word) (s : State) :
    writeWords ⟨p, b, a, n, x, e⟩ c vs s = writeWords ⟨p, b, a, n, x, e'⟩ c vs s := by
  induction vs generalizing c s with
  | nil => rfl
  | cons v vs ih => exact ih _ _

theorem writeRef_ecrc {p : Party} {b : Bar} {a n : Nat} {x : Bool} {vs : List Word} {s : State}
    (h : s.pcie.aer.control.getLsbD 8 = false) :
    writeRef ⟨p, b, a, n, x, true⟩ vs s = writeRef ⟨p, b, a, n, x, false⟩ vs s := by
  have hf : ∀ e, ecrcFails s ⟨p, b, a, n, x, e⟩ = false := fun e => by
    rw [ecrcFails, ecrcChecked, h, Bool.and_false]
  unfold writeRef
  rw [hf, hf]
  cases b with
  | config c => rfl
  | ddrWin => rfl
  | bar0 =>
    simp only [writeWords_ecrc p .bar0 a n x true false]
    rfl
  | bar2 =>
    simp only [writeWords_ecrc p .bar2 a n x true false]
    rfl

/-! ## Configuration space -/

theorem writeRef_config {c : ConfigReg} {v : Word} {s : State} (h : configActs s .host = true) :
    writeRef ⟨.host, .config c, 0, 4, false, false⟩ [v] s = configRequest c 0xFFFFFFFF v s := by
  have hm : byteMask (0 % 4) 4 = 0xFFFFFFFF := by decide
  simp [writeRef, ecrcFails, h, hm]

/-- A base register of all ones shows the size of its BAR and its type (Table 16.3). -/
theorem configValue_bar0_ones (hi : Word) (s : State) :
    configValue (setBarBase 0 (ofHalves 0xFFFFFFFF hi) s) (.bar 0) = 0xFC000004 := by
  show lowHalf (BitVec.ofNat 64 ((ofHalves 0xFFFFFFFF hi).toNat / 2 ^ 26 * 2 ^ 26) ||| 4) = _
  have hlow : lowHalf (BitVec.ofNat 64 ((ofHalves 0xFFFFFFFF hi).toNat / 2 ^ 26 * 2 ^ 26)) = 0xFC000000 := by
    apply BitVec.eq_of_toNat_eq
    simp only [lowHalf, ofHalves, BitVec.toNat_setWidth, BitVec.toNat_ofNat, BitVec.toNat_append, Nat.shiftLeft_eq]
    rw [← Nat.shiftLeft_eq hi.toNat, ← Nat.shiftLeft_add_eq_or_of_lt (by decide : (0xFFFFFFFF : Word).toNat < 2 ^ 32),
      Nat.shiftLeft_eq, show (0xFFFFFFFF : Word).toNat = 4294967295 from rfl,
      show (0xFC000000 : Word).toNat = 4227858432 from rfl]
    omega
  simp only [lowHalf, BitVec.setWidth_or] at hlow ⊢
  rw [hlow]
  decide

/-! ## The DDR4 window of Lighthouse -/

theorem ddrTurn_unrivalled {s : State} {c : Nat} (k : DdrClass) (hq : (ddr s c).queue = []) (hc : captureWaits s c = false) :
    ∃ x, ddrTurn s c k = some x ∧ x.mem = (ddr s c).mem ∧ x.queue = [] := by
  have hr : ddrRivals s c k = [] := by
    simp [ddrRivals, classWaits, hq, hc]
  unfold ddrTurn
  rw [hr]
  split
  · exact ⟨_, rfl, rfl, hq⟩
  · exact ⟨_, rfl, rfl, hq⟩

/-- Only the round of a channel's arbiter has moved. -/
def RoundMoved (c : Nat) (s t : State) : Prop :=
  ∃ m, t = { s with ddr := m } ∧ (ddr t c).mem = (ddr s c).mem ∧ (ddr t c).queue = [] ∧ ∀ d, d ≠ c → ddr t d = ddr s d

/-- The turn of a class at a channel that no other class waits for (R221). -/
theorem ddrReach_unrivalled {s : State} {c : Nat} (k : DdrClass) (a n : Nat) (hq : (ddr s c).queue = []) (hc : captureWaits s c = false) :
    RoundMoved c s (ddrReach c k a n s) := by
  have turn : ∀ fuel u, RoundMoved c s u → RoundMoved c s (ddrAwait c k (fuel + 1) u) := by
    rintro fuel u ⟨m, rfl, hmem, hqueue, hother⟩
    obtain ⟨x, hx, hxm, hxq⟩ := ddrTurn_unrivalled (s := { s with ddr := m }) k hqueue hc
    rw [ddrAwait, hx]
    refine ⟨_, rfl, ?_, ?_, fun d hd => ?_⟩
    · rw [← hmem, ← hxm]; simp [ddr, setDdr]
    · rw [← hxq]; simp [ddr, setDdr]
    · rw [← hother d hd]; simp [ddr, setDdr, hd]
  have turns : ∀ (l : List Nat) u, RoundMoved c s u → RoundMoved c s (l.foldl (fun acc _ =>
      ddrAwait c k ((ddr acc c).queue.length + acc.acq.fifo.length + 2) acc) u) := by
    intro l
    induction l with
    | nil => exact fun u h => h
    | cons _ l ih => exact fun u h => ih _ (turn _ u h)
  have moved := turns (List.range (ddrBlocks a n)) s ⟨s.ddr, rfl, rfl, hq, fun _ _ => rfl⟩
  have settled : ∀ u, RoundMoved c s u → ddrSettle c a n u = u := by
    rintro u ⟨m, rfl, -, hqueue, -⟩
    rw [ddrSettle, hqueue, List.foldl_nil]
  unfold ddrReach forUpTo
  rw [settled _ moved]
  exact moved

/-! ## Management packets -/

theorem takeMgmt_front {s : State} {i kind : Nat} {p : Packet} {rest : List Packet} (hm : (ni s i).management = p :: rest)
    (hk : headKind p.head = kind) (hd : headDst p.head ≠ 155) :
    takeMgmt s i kind = some (p, setNi s i { ni s i with management := rest }) := by
  simp [takeMgmt, hm, hk, hd]

theorem regAt_msTokenTimeout : regAt R.glbMsTokenTimeout = some (⟨0x1024, [], 0x3E8, 0xFFFFFFFF, 0, 0, 0, 0⟩, []) := by
  decide +kernel

/-- A read of GLB_MS_TOKEN_TIMEOUT answers its word and does nothing else. -/
theorem readWord32_msTokenTimeout (g : Agent) {s : State} (hf : find s.halves R.glbMsTokenTimeout = none) :
    readWord32 g R.glbMsTokenTimeout s = (reg s R.glbMsTokenTimeout, s) := by
  have hlive : liveAt s R.glbMsTokenTimeout = reg s R.glbMsTokenTimeout := by
    rw [liveAt, regAt_msTokenTimeout]
    show reg s R.glbMsTokenTimeout &&& ~~~ 0#32 = _
    rw [BitVec.not_zero, BitVec.and_allOnes]
  have hval : readValue g R.glbMsTokenTimeout s = reg s R.glbMsTokenTimeout := by
    show (find s.halves R.glbMsTokenTimeout).getD (liveAt s R.glbMsTokenTimeout) = _
    rw [hf, hlive]
    rfl
  have heff : readEffect g R.glbMsTokenTimeout s = s := by
    show clearRead R.glbMsTokenTimeout (capture s R.glbMsTokenTimeout) = s
    simp only [clearRead, capture, regAt_msTokenTimeout]
    rfl
  rw [readWord32, hval, heff]

/-- Settles O20. -/
theorem registerAccess : Obligations.RegisterAccess := by
  unfold Obligations.RegisterAccess
  refine ⟨fun p a v s g ix hp ha hr => ⟨_, rfl, ?_⟩, fun p b a v w s hp hb h4 hm => ?_,
    fun p b a n v s hp hb hn hn4 hm => ?_, fun p a v s hp h4 hlo hhi hoff => ?_, fun b a n vs s hp hb => ?_,
    fun a n vs s hh ha => ?_, fun b a n vs s hp hb => ?_, fun s hc => ⟨_, rfl, ?_⟩, fun s hc => ?_,
    fun b a n x vs s h => ?_, fun p b a n x vs s h => ?_, fun a c o v s hh ha h4 hc ho hon hrd hcap hq hw => ⟨_, rfl, ?_⟩,
    fun a v s hh ha hon => ?_, fun i q v s p rest hm hk hd => ⟨_, rfl, ?_⟩, fun i s p rest hm hk hd hf => ?_⟩
  · have e : writeRef ⟨p, .bar0, a, 4, false, false⟩ [v] s = writeFields a v s := by
      have h4 : a % 4 = 0 := by
        revert ha; clear hr; revert a; decide
      have hlow : a < 0x100000 := by
        revert ha; clear hr h4; revert a; decide
      have hm : refMapped ⟨p, .bar0, a, 4, false, false⟩ = true := by
        cases p
        · rfl
        · simp [refMapped]; omega
      rw [writeRef_bar hp (by simp) hm, writeWords, writeWords, if_pos (by dsimp only; omega),
        show a / 4 * 4 = a by omega]
      exact writeWord32_plainGlb ha _ _ _
    rw [e]
    have ew : writeFields a v s = setReg s a (writtenWord g (reg s a) v) := by
      rw [writeFields, hr]
    rw [ew]
    exact ⟨by simp, (keepsRegs_refl _ s).setReg (by simp) _, rfl⟩
  · show Host.Outcome.next (writeRef _ _ s) = _
    rw [writeRef_bar hp hb hm, writeWords, writeWords, writeWords, if_pos (by dsimp only; omega),
      if_pos (by dsimp only; omega), show a / 4 * 4 = a by omega]
  · show Host.Outcome.next (writeRef _ _ s) = _
    rw [writeRef_bar hp hb hm, writeWords, writeWords, if_neg (by dsimp only; omega), badSize]
  · show Host.Outcome.next (writeRef _ _ s) = _
    have hm : refMapped ⟨p, .bar0, a, 4, false, false⟩ = true := by
      cases p
      · rfl
      · simp [refMapped]; omega
    have hblock : blockOn s a = false := by
      unfold blockOn
      simp only [show ¬ a < 0x350000 by omega, show ¬ a < 0x440000 by omega, show ¬ a < 0x700000 by omega,
        show ¬ a < 0x700020 by omega, show ¬ a < 0x780000 by omega, show ¬ a < 0x7C0000 by omega, and_false, if_false,
        hlo, hhi, and_self, if_true, hoff]
    have htrace : ¬ a = R.traceMsg := by simp only [R.traceMsg]; omega
    have hservice : inService a = false := by simp [inService]; omega
    rw [writeRef_bar hp (by simp) hm, writeWords, writeWords, if_pos (by dsimp only; omega), show a / 4 * 4 = a by omega]
    simp only [writeBarWord, writeWord32, h4, ne_eq, not_true_eq_false, if_false, htrace, false_and, hservice,
      Bool.false_eq_true, hblock, Bool.not_false, if_true, offAccess]
  · show Host.Outcome.next (writeRef _ _ s) = _
    simp only [List.mem_cons, List.not_mem_nil, or_false] at hb
    have hun : unsupportedRequest .host s = if bits s R.glbPcieStatus 28 4 = 0 then s else pcieError 20 s := by
      by_cases h : bits s R.glbPcieStatus 28 4 = 0 <;> simp [unsupportedRequest, h, aerUnsupported]
    rcases hb with rfl | rfl <;> simp [writeRef, ecrcFails, hp, hun]
  · show Host.Outcome.next (writeRef _ _ s) = _
    have hp : partyActs s .lighthouse = true := by simp [partyActs, hh]
    have hm : refMapped ⟨.lighthouse, .bar0, a, n, false, false⟩ = false := by simp [refMapped]; omega
    simp [writeRef, ecrcFails, hp, hm]
  · show Host.Outcome.next (writeRef _ _ s) = _
    simp only [List.mem_cons, List.not_mem_nil, or_false] at hb
    rcases hb with rfl | rfl <;> simp [writeRef, ecrcFails, hp, aerPoisoned]
  · rw [writeRef_config hc]
    have hmerge : merge 0xFFFFFFFF 0xFFFFFFFF (configValue s (.bar 0)) = 0xFFFFFFFF := by
      simp [merge]
    have e : configRequest (.bar 0) 0xFFFFFFFF 0xFFFFFFFF s = setBarBase 0 (ofHalves 0xFFFFFFFF (highHalf (barBase s 0))) s := by
      simp only [configRequest, configWrite, hmerge]
      rfl
    rw [e]
    exact ⟨configValue_bar0_ones _ s, rfl⟩
  · show Host.Outcome.next (writeRef _ _ s) = _
    rw [writeRef_config hc, configRequest, if_pos (by decide)]
  · show Host.Outcome.next (writeRef _ _ s) = _
    simp [writeRef, ecrcFails, ecrcChecked, h, aerEcrc]
  · show Host.Outcome.next (writeRef _ _ s) = Host.Outcome.next (writeRef _ _ s)
    rw [writeRef_ecrc h]
  · have hm : refMapped ⟨.lighthouse, .ddrWin, a, 4, false, false⟩ = true := by simp [refMapped]; omega
    have hplace : lhDdr s a = (c, o) := by rw [lhDdr, hc, ho]
    have hbytes : bytesOfWords [v] (a % 4) 4 = bytesLE 4 v.toNat := by
      rw [h4]
      simp [bytesOfWords, bytesLE]
    have hgood : lhDdrGood s (c, o) 4 = true := by simp [lhDdrGood, hrd, hcap]
    have e : writeRef ⟨.lighthouse, .ddrWin, a, 4, false, false⟩ [v] s =
        setDdr (ddrReach c .lh o 4 s) c { ddr (ddrReach c .lh o 4 s) c with
          mem := writeWord (ddr (ddrReach c .lh o 4 s) c).mem o v } := by
      have hlen : (bytesLE 4 v.toNat).length = 4 := by simp [bytesLE]
      simp [writeRef, ecrcFails, hh, hm, lhDdrWrite, hplace, hon, hbytes, hlen, hgood, writeWord]
    obtain ⟨m, em, hmem, hqueue, hother⟩ := ddrReach_unrivalled .lh o 4 hq hw
    rw [e]
    refine ⟨?_, fun k hk => ?_, fun d hd => ?_, ?_⟩
    · simp [ddr, setDdr, readWord_writeWord]
    · rw [← hmem]
      simp [ddr, setDdr, readByte_writeWord_ne _ _ _ hk]
    · rw [← hother d hd]; simp [ddr, setDdr, hd]
    · rw [em]; rfl
  · show Host.Outcome.next (writeRef _ _ s) = _
    have hm : refMapped ⟨.lighthouse, .ddrWin, a, 4, false, false⟩ = true := by simp [refMapped]; omega
    simp [writeRef, ecrcFails, hh, hm, lhDdrWrite, lhDdr, hon, offAccess]
  · have e : mgmtWrite i q R.glbMsTokenTimeout v s =
        writeFields R.glbMsTokenTimeout v (setNi s i { ni s i with management := rest }) := by
      rw [mgmtWrite, takeMgmt_front hm hk hd]
      exact writeWord32_plainGlb (by decide) _ _ _
    rw [e]
    refine ⟨?_, ?_, ?_, fun j hj => ?_, ?_⟩
    · exact reg_writeFields (by decide +kernel) _ _
    · exact keepsRegs.writeFields (fun _ _ => rfl) (by simp) v
    · simp
    · simp [hj]
    · simp
  · show Host.Outcome.next (mgmtRead _ _ s) = _
    rw [mgmtRead, takeMgmt_front hm hk hd]
    dsimp only
    rw [readWord32_msTokenTimeout (s := setNi s i { ni s i with management := rest }) _ hf]
    rfl

end Sys2Proof.Machine
end

/-! # Reads that clear, capture or pop -/

section
namespace Sys2Proof.Machine
set_option Elab.async false

/-! ## A read of one word -/

theorem ofBytesLE_word (w : Word) : BitVec.ofNat 32 (ofBytesLE (bytesLE 4 w.toNat)) = w := by
  rw [ofBytesLE_bytesLE, Nat.mod_eq_of_lt (by simpa using w.isLt), BitVec.ofNat_toNat, BitVec.setWidth_eq]

theorem bytesOfWords_one (w : Word) : bytesOfWords [w] 0 4 = bytesLE 4 w.toNat := by
  simp [bytesOfWords, bytesLE]

/-- Four bytes are one word. -/
theorem groupWords_four {bs : List Byte} (h : bs.length = 4) : groupWords bs = [BitVec.ofNat 32 (ofBytesLE bs)] := by
  have e : groupWords bs = [BitVec.ofNat 32 (ofBytesLE ((bs.drop (4 * 0)).take 4))] := by
    rw [groupWords, h]
    rfl
  rw [e, Nat.mul_zero, List.drop_zero, List.take_of_length_le h.le]

theorem groupWords_bytesLE (w : Word) : groupWords (bytesLE 4 w.toNat) = [w] := by
  rw [groupWords_four (bytesLE_length _ _), ofBytesLE_word]

/-- A 32-bit read of BAR0 answers the word at its offset and has that word's effect. -/
theorem readRef_bar0 {p : Party} {a : Nat} {s : State} (hp : partyActs s p = true) (h4 : a % 4 = 0)
    (ha : a + 4 ≤ 0x2C00000) :
    readRef ⟨p, .bar0, a, 4, false, false⟩ s =
      answer [readValue (partyAgent p) a s] (readEffect (partyAgent p) a s) := by
  have hm : refMapped ⟨p, .bar0, a, 4, false, false⟩ = true := by
    cases p
    · rfl
    · simp [refMapped]; omega
  have hwords : readWords (partyAgent p) (a / 4 * 4) (ceilDiv (a % 4 + 4) 4) s =
      ([readValue (partyAgent p) a s], readEffect (partyAgent p) a s) := by
    rw [h4, show a / 4 * 4 = a by omega]
    rfl
  simp only [readRef, ecrcFails, Bool.false_and, Bool.false_eq_true, if_false, hp, Bool.not_true, hm, if_true, hwords]
  rw [h4, bytesOfWords_one, groupWords_bytesLE]

/-- The registers whose reads this file speaks of: no memory, window or view holds them, and no power domain closes them. -/
def readRegs : List Nat := [R.glbHazardCount, R.glbHazardLogLo, R.timeNowLo, R.timeNowHi]

theorem readValue_register {a : Nat} (h : a ∈ readRegs) (g : Agent) (s : State) : readValue g a s = shownAt s a := by
  simp only [readRegs, List.mem_cons, List.not_mem_nil, or_false] at h
  rcases h with rfl | rfl | rfl | rfl <;> rfl

theorem readEffect_register {a : Nat} (h : a ∈ readRegs) (g : Agent) (s : State) :
    readEffect g a s = clearRead a (capture s a) := by
  simp only [readRegs, List.mem_cons, List.not_mem_nil, or_false] at h
  rcases h with rfl | rfl | rfl | rfl <;> rfl

theorem regAt_hazardCount : regAt R.glbHazardCount = some (⟨0x400C, [], 0, 0, 0, 0, 0xFFFFFFFF, 0⟩, []) := by decide +kernel
theorem regAt_hazardLogLo : regAt R.glbHazardLogLo = some (⟨0x4010, [], 0, 0, 0, 0, 0xFFFFFFF8, 0⟩, []) := by decide +kernel
theorem regAt_hazardLogHi : regAt R.glbHazardLogHi = some (⟨0x4014, [], 0, 0, 0, 0, 0, 0⟩, []) := by decide +kernel
theorem regAt_timeNowLo : regAt R.timeNowLo = some (⟨0x7C0010, [], 0, 0, 0, 0, 0, 0⟩, []) := by decide +kernel
theorem regAt_timeNowHi : regAt R.timeNowHi = some (⟨0x7C0014, [], 0, 0, 0, 0, 0, 0⟩, []) := by decide +kernel
theorem regAt_timeNowFrac : regAt R.timeNowFrac = some (⟨0x7C0018, [], 0, 0, 0, 0, 0, 0⟩, []) := by decide +kernel

theorem liveAt_timeNowLo (s : State) : liveAt s R.timeNowLo = (s.time.now >>> 32).setWidth 32 := by
  rw [liveAt, regAt_timeNowLo]; rfl
theorem liveAt_timeNowHi (s : State) : liveAt s R.timeNowHi = (s.time.now >>> 64).setWidth 32 := by
  rw [liveAt, regAt_timeNowHi]; rfl
theorem liveAt_timeNowFrac (s : State) : liveAt s R.timeNowFrac = s.time.now.setWidth 32 := by
  rw [liveAt, regAt_timeNowFrac]; rfl
theorem liveAt_hazardLogLo (s : State) : liveAt s R.glbHazardLogLo = hazardLow s := by
  rw [liveAt, regAt_hazardLogLo]; rfl
theorem liveAt_hazardLogHi (s : State) : liveAt s R.glbHazardLogHi = hazardHigh s := by
  rw [liveAt, regAt_hazardLogHi]; rfl
theorem liveAt_hazardCount (s : State) : liveAt s R.glbHazardCount = reg s R.glbHazardCount := by
  rw [liveAt, regAt_hazardCount]
  show reg s R.glbHazardCount &&& ~~~ 0#32 = _
  rw [BitVec.not_zero, BitVec.and_allOnes]

/-- A read of the hazard count clears it (R128). -/
theorem readEffect_hazardCount (g : Agent) (s : State) :
    readEffect g R.glbHazardCount s = setReg s R.glbHazardCount 0#32 := by
  rw [readEffect_register (by decide)]
  simp only [capture, clearRead, regAt_hazardCount]
  show setReg s R.glbHazardCount (reg s R.glbHazardCount &&& ~~~ 0xFFFFFFFF#32) = _
  rw [show ~~~ 0xFFFFFFFF#32 = 0#32 by decide, BitVec.and_zero]

/-- A read of TIME_NOW_LO captures the high half and the fraction (R11, R304). -/
theorem readEffect_timeNowLo (g : Agent) (s : State) :
    readEffect g R.timeNowLo s = { s with
      halves := enter (enter s.halves R.timeNowHi ((s.time.now >>> 64).setWidth 32)) R.timeNowFrac
        (s.time.now.setWidth 32) } := by
  rw [readEffect_register (by decide)]
  simp only [capture, clearRead, regAt_timeNowLo]
  show ({ s with halves := enter (enter s.halves R.timeNowHi (liveAt s R.timeNowHi)) R.timeNowFrac (liveAt s R.timeNowFrac) } :
    State) = _
  rw [liveAt_timeNowHi, liveAt_timeNowFrac]

theorem readEffect_timeNowHi (g : Agent) (s : State) : readEffect g R.timeNowHi s = s := by
  rw [readEffect_register (by decide)]
  simp only [capture, clearRead, regAt_timeNowHi]
  rfl

/-- A read of GLB_HAZARD_LOG_LO captures the upper half of the oldest hazard and takes it from the log (R128). -/
theorem readEffect_hazardLogLo (g : Agent) (s : State) :
    ∃ w, readEffect g R.glbHazardLogLo s = { setReg s R.glbHazardLogLo w with
      halves := enter s.halves R.glbHazardLogHi (hazardHigh s)
      sched := { s.sched with hazardLog := s.sched.hazardLog.drop 1 } } := by
  rw [readEffect_register (by decide)]
  simp only [capture, clearRead, regAt_hazardLogLo]
  refine ⟨reg s R.glbHazardLogLo &&& ~~~ 0xFFFFFFF8#32, ?_⟩
  rw [← liveAt_hazardLogHi]
  rfl

/-! ## The fields of a hazard -/

theorem toNat_hazardFields {k c b st : Nat} (hk : k < 8) (hc : c < 128) (hb : b < 512) (hs : st < 1024) :
    (fieldWord [(29, k), (22, c), (13, b), (3, st)]).toNat = k * 2 ^ 29 + c * 2 ^ 22 + b * 2 ^ 13 + st * 2 ^ 3 := by
  have e : fieldWord [(29, k), (22, c), (13, b), (3, st)] =
      BitVec.ofNat 32 (k <<< 29 + (c <<< 22 + (b <<< 13 + (st <<< 3 + 0)))) := by simp [fieldWord]
  rw [e, BitVec.toNat_ofNat, Nat.shiftLeft_eq, Nat.shiftLeft_eq, Nat.shiftLeft_eq, Nat.shiftLeft_eq]
  omega

theorem hazardLow_fields {s : State} {h : Hazard} {rest : List Hazard} (hl : s.sched.hazardLog = h :: rest)
    (hk : h.kind < 8) (hc : h.cluster < 128) (hb : h.bp < 512) (hs : h.step < 1024) :
    bitsOf (hazardLow s) 29 3 = h.kind ∧ bitsOf (hazardLow s) 22 7 = h.cluster ∧ bitsOf (hazardLow s) 13 9 = h.bp ∧
      bitsOf (hazardLow s) 3 10 = h.step := by
  have e : hazardLow s = fieldWord [(29, h.kind), (22, h.cluster), (13, h.bp), (3, h.step)] := by rw [hazardLow, hl]
  rw [e]
  simp only [bitsOf, toNat_hazardFields hk hc hb hs, Nat.shiftRight_eq_div_pow]
  omega

theorem hazardHigh_ec {s : State} {h : Hazard} {rest : List Hazard} (hl : s.sched.hazardLog = h :: rest) :
    bitsOf (hazardHigh s) 0 16 = h.ec % 65536 := by
  simp only [hazardHigh, hl, fieldWord, List.map_cons, List.map_nil, List.sum_cons, List.sum_nil, Nat.shiftLeft_eq, bitsOf,
    BitVec.toNat_ofNat, Nat.shiftRight_zero, Nat.reducePow]
  omega

/-! ## Reads of configuration space and of the DDR4 window -/

theorem readRef_config {c : ConfigReg} {s : State} (h : configActs s .host = true) :
    readRef ⟨.host, .config c, 0, 4, false, false⟩ s = answer [configValue s c] s := by
  simp only [readRef, ecrcFails, Bool.false_and, Bool.false_eq_true, if_false, h, if_true]
  rw [Nat.zero_mod, bytesOfWords_one, groupWords_bytesLE]

/-- A read of Lighthouse in its DDR4 window answers the word at its place after its turn at the channel (R221). -/
theorem readRef_ddrWin {a c o : Nat} {s : State} (hh : lhHalted s = false) (ha : a + 4 ≤ 2 ^ 30) (h4 : a % 4 = 0)
    (hp : lhDdr s a = (c, o)) (hon : ddrOn s c = true) (hgood : lhDdrGood s (c, o) 4 = true) :
    readRef ⟨.lighthouse, .ddrWin, a, 4, false, false⟩ s =
      answer [readWord (ddr (ddrReach c .lh o 4 s) c).mem o] (ddrReach c .lh o 4 s) := by
  have hm : refMapped ⟨.lighthouse, .ddrWin, a, 4, false, false⟩ = true := by simp [refMapped]; omega
  have hread : lhDdrRead a 4 s = (readBytes (ddr (ddrReach c .lh o 4 s) c).mem o 4, ddrReach c .lh o 4 s) := by
    simp only [lhDdrRead, hp, hon, hgood, Bool.not_true, Bool.false_eq_true, if_false, if_true, readBytes]
  have hgroup : ∀ m : Mem, groupWords (readBytes m o 4) = [readWord m o] := fun m => groupWords_four (by simp [readBytes])
  simp only [readRef, ecrcFails, Bool.false_and, Bool.false_eq_true, if_false, hh, reduceCtorEq, or_self, hm, Bool.not_true,
    hread, hgroup]

/-- The device and vendor ID (Table 16.2). -/
theorem configValue_identity (s : State) : configValue s .identity = 0x72001E97 := by
  show BitVec.ofNat 32 ((0x7200#16).toNat <<< 16 + (0x1E97#16).toNat) = _
  decide

/-- A read that is answered Unsupported Request is an advisory error (PCI Express Base 3.0, log entry 97). -/
theorem advisoryError_frame {s : State} (hs : s.pcie.aer.severity.getLsbD 20 = false) :
    ∃ a f, advisoryError s = signal 207 20 { s with
        pcie := { s.pcie with
          aer := a
          config := { s.pcie.config with status := s.pcie.config.status ||| 0, deviceStatus := s.pcie.config.deviceStatus ||| 9 } }
        free := f } ∧
      a.correctable = withBit s.pcie.aer.correctable 13 true ∧
      a.uncorrectable = (if s.pcie.aer.correctableMask.getLsbD 13 then s.pcie.aer.uncorrectable
        else withBit s.pcie.aer.uncorrectable 20 true) := by
  unfold advisoryError
  rw [show aerUnsupported = 20 from rfl, hs, if_neg Bool.false_ne_true]
  extract_lets s1 _ s2
  have hmask : s2.pcie.aer.correctableMask = s.pcie.aer.correctableMask := rfl
  rw [hmask]
  by_cases hm : s.pcie.aer.correctableMask.getLsbD 13 = true
  · rw [if_pos hm, if_pos hm]
    exact ⟨s2.pcie.aer, s.free, rfl, rfl, rfl⟩
  · obtain ⟨a, f, e, hu, hc⟩ := aerRecord_frame 20 s2
    rw [if_neg hm, if_neg hm, e]
    exact ⟨a, f, rfl, hc, hu⟩

/-- Settles O21. -/
theorem readEffects : Obligations.ReadEffects := by
  unfold Obligations.ReadEffects
  refine ⟨fun p s hp hf => ⟨_, rfl, ?_⟩, fun p s hp hf => ⟨_, rfl, ?_⟩, fun p s h hp hf => ?_,
    fun p s h rest hp hf hl hk hc hb hs => ⟨_, rfl, ?_⟩, fun s hc => ?_, fun s hc => ?_, fun p s c hc hp he => ?_,
    fun a c o s hh ha h4 hc ho hon hrd hcap hq hw => ⟨_, rfl, ?_⟩, fun r v s hc hr => ?_,
    fun b a n s hp hb hl hs => ⟨_, rfl, ?_⟩⟩
  · rw [readRef_bar0 hp (by decide) (by decide), readValue_register (by decide), readEffect_hazardCount, shownAt, hf,
      Option.getD_none, liveAt_hazardCount]
    exact ⟨rfl, by simp, (keepsRegs_refl _ s).setReg (by simp) 0, rfl⟩
  · rw [readRef_bar0 hp (by decide) (by decide), readValue_register (by decide), readEffect_timeNowLo, shownAt, hf,
      Option.getD_none, liveAt_timeNowLo]
    exact ⟨rfl, by simp, by simp, rfl⟩
  · show Host.Outcome.next (readRef _ s) = _
    rw [readRef_bar0 hp (by decide) (by decide), readValue_register (by decide), readEffect_timeNowHi, shownAt, hf]
    rfl
  · obtain ⟨w, e⟩ := readEffect_hazardLogLo (partyAgent p) s
    rw [readRef_bar0 hp (by decide) (by decide), readValue_register (by decide), e, shownAt, hf, Option.getD_none,
      liveAt_hazardLogLo]
    refine ⟨?_, ⟨_, rfl, hazardLow_fields hl hk hc hb hs⟩, ⟨_, by simp, hazardHigh_ec hl⟩, ?_⟩
    · simp [hl]
    · exact (keepsRegs_refl _ s).setReg (by simp) w
  · show Host.Outcome.next (readRef _ s) = _
    rw [readRef_config hc, configValue_identity, answer]
  · show Host.Outcome.next (readRef _ s) = _
    rw [readRef_config hc, configValue, answer]
  · have hf : ∀ r : Ref, r.party = .host → r.ecrcBad = true → readRef r s = pcieError 19 s := fun r hr hbad => by
      simp [readRef, ecrcFails, ecrcChecked, hr, hbad, he, aerEcrc]
    rcases hc with rfl | rfl
    · exact congrArg Host.Outcome.next (hf _ hp rfl)
    · exact congrArg Host.Outcome.next (hf _ hp rfl)
  · obtain ⟨m, em, hmem, -, hother⟩ := ddrReach_unrivalled .lh o 4 hq hw
    rw [readRef_ddrWin hh ha h4 (show lhDdr s a = (c, o) by rw [lhDdr, hc, ho]) hon (by simp [lhDdrGood, hrd, hcap])]
    refine ⟨?_, fun d => ?_, ?_⟩
    · rw [answer_readData, hmem]
    · by_cases hd : d = c
      · rw [hd]; exact hmem
      · exact congrArg DdrChannel.mem (hother d hd)
    · rw [em]; rfl
  · show Host.Outcome.next (readRef _ s) = _
    rw [readRef_config hc]
    simp only [List.mem_cons, List.not_mem_nil, or_false, Prod.mk.injEq] at hr
    rcases hr with ⟨rfl, rfl⟩ | ⟨rfl, rfl⟩ <;> rw [configValue, answer]
  · have e : readRef ⟨.host, b, a, n, false, false⟩ s = advisoryError s := by
      simp only [List.mem_cons, List.not_mem_nil, or_false] at hb
      rcases hb with rfl | rfl <;> simp [readRef, ecrcFails, hp, unsupportedRead, hl]
    obtain ⟨x, f, e', hcor, hunc⟩ := advisoryError_frame hs
    rw [e, e']
    refine ⟨by simpa using hcor, by simp, by simpa using hunc, ?_, by simp, by simp⟩
    exact signals_signal (by simp [sourceGone]) (by decide) (by decide)

end Sys2Proof.Machine
end

/-! # Force entries, swell flags and the value-store view -/

section
namespace Sys2Proof.Machine
set_option Elab.async false

/-! ## The registers of a cluster -/

/-- The group ends below the address `e`. -/
def endsBelow (g : RegGroup) (e : Nat) : Bool :=
  match g.dims with
  | [] => decide (g.base < e)
  | (stride, count) :: _ => decide (g.base + stride * count ≤ e) && decide (0 < stride)

/-- The group is one of a cluster's: the cluster is its first index, and the rest lies in the cluster's own part. -/
def perCluster (g : RegGroup) : Bool :=
  match g.dims with
  | (stride, count) :: rest =>
    decide (stride = 0x20000 ∧ count = 128 ∧ 0x1000000 ≤ g.base) && endsBelow ⟨g.base, rest, 0, 0, 0, 0, 0, 0⟩ 0x1020000
  | [] => false

theorem base_le_of_endsBelow {g : RegGroup} {e : Nat} (h : endsBelow g e = true) : g.base ≤ e := by
  unfold endsBelow at h
  split at h <;> simp at h <;> omega

theorem regTable_clusters : ∀ g ∈ regTable, (perCluster g || endsBelow g 0x1000000) = true := by decide +kernel

theorem regIndex_endsBelow {g : RegGroup} {e : Nat} (h : endsBelow g e = true) {a : Nat} (ha : e ≤ a) :
    regIndex g.dims (a - g.base) = none := by
  unfold endsBelow at h
  split at h
  · next hd =>
    rw [hd, regIndex, if_neg]
    have := of_decide_eq_true h
    omega
  · next stride count rest hd =>
    simp only [Bool.and_eq_true, decide_eq_true_eq] at h
    rw [hd, regIndex, if_neg]
    rw [Nat.div_lt_iff_lt_mul h.2, Nat.mul_comm]
    omega

/-- The group answers the address of the same register of cluster `n`. -/
theorem regIndex_cluster {g : RegGroup} (h : perCluster g = true) {a n : Nat} (ha : 0x1000000 ≤ a) (hb : a < 0x1020000) (hn : n < 128) :
    (if a + 0x20000 * n < g.base then none else (regIndex g.dims (a + 0x20000 * n - g.base)).map fun ix => (g, ix)) =
      if a < g.base then none else (regIndex g.dims (a - g.base)).map fun ix => (g, n :: ix.tail) := by
  unfold perCluster at h
  split at h
  · next stride count rest hd =>
    simp only [Bool.and_eq_true, decide_eq_true_eq] at h
    obtain ⟨⟨rfl, rfl, hlow⟩, hend⟩ := h
    rw [hd]
    by_cases hbase : a < g.base
    · rw [if_pos hbase]
      by_cases hfar : a + 0x20000 * n < g.base
      · rw [if_pos hfar]
      · have hrest := regIndex_endsBelow hend (a := 0x20000 + a) (by omega)
        have hbelow : g.base ≤ 0x1020000 := base_le_of_endsBelow (g := ⟨g.base, rest, 0, 0, 0, 0, 0, 0⟩) hend
        have hmod : (a + 0x20000 * n - g.base) % 0x20000 = 0x20000 + a - g.base := by omega
        rw [if_neg hfar, regIndex, hmod]
        simp only at hrest
        rw [hrest]
        simp
    · have hdiv : (a + 0x20000 * n - g.base) / 0x20000 = n := by omega
      have hmod : (a + 0x20000 * n - g.base) % 0x20000 = (a - g.base) % 0x20000 := by omega
      have hdiv0 : (a - g.base) / 0x20000 = 0 := by omega
      rw [if_neg hbase, if_neg (by omega), regIndex, regIndex, hdiv, hmod, hdiv0, if_pos hn, if_pos (by decide), Option.map_map,
        Option.map_map]
      rfl
  · cases h

/-- Every cluster has the registers of cluster 0, each 0x20000 further. -/
theorem regAt_cluster {a n : Nat} (ha : 0x1000000 ≤ a) (hb : a < 0x1020000) (hn : n < 128) :
    regAt (a + 0x20000 * n) = (regAt a).map fun x => (x.1, n :: x.2.tail) := by
  unfold regAt
  have hall := regTable_clusters
  generalize regTable = l at hall
  induction l with
  | nil => rfl
  | cons g l ih =>
    have ih := ih fun x hx => hall x (List.mem_cons_of_mem _ hx)
    simp only [List.findSome?_cons]
    rcases Bool.or_eq_true_iff.1 (hall g List.mem_cons_self) with hg | hg
    · rw [regIndex_cluster hg ha hb hn]
      by_cases h : a < g.base
      · rw [if_pos h, if_pos h]
        exact ih
      · rw [if_neg h, if_neg h]
        cases regIndex g.dims (a - g.base) with
        | none => exact ih
        | some ix => rfl
    · have hnone : ∀ c : Prop, ∀ _ : Decidable c, (if c then none else (none : Option (RegGroup × List Nat))) = none :=
        fun c _ => ite_self _
      rw [regIndex_endsBelow hg ha, regIndex_endsBelow hg (a := a + 0x20000 * n) (by omega), Option.map_none, hnone, hnone]
      exact ih

theorem regAt_cluForce {n f : Nat} (hn : n < 128) (hf : f < 64) :
    regAt (R.cluForce n f) = some (⟨0x01003000, [(0x20000, 128), (0x4, 64)], 0, 0xC007FFFF, 0, 0, 0, 0⟩, [n, f]) := by
  have hzero : ∀ f : Fin 64, regAt (0x01003000 + 4 * f) =
      some ((⟨0x01003000, [(0x20000, 128), (0x4, 64)], 0, 0xC007FFFF, 0, 0, 0, 0⟩ : RegGroup), [0, f.val]) := by decide +kernel
  have h := regAt_cluster (a := 0x01003000 + 4 * f) (n := n) (by omega) (by omega) hn
  rw [hzero ⟨f, hf⟩] at h
  rw [show R.cluForce n f = 0x01003000 + 4 * f + 0x20000 * n by simp only [R.cluForce]; omega, h]
  rfl

theorem regAt_cluSwellFlags {n : Nat} (hn : n < 128) :
    regAt (R.cluSwellFlags n) = some (⟨0x01005400, [(0x20000, 128)], 0, 0, 0, 0xFFFFFFFF, 0, 0⟩, [n]) := by
  have hzero : regAt 0x01005400 = some (⟨0x01005400, [(0x20000, 128)], 0, 0, 0, 0xFFFFFFFF, 0, 0⟩, [0]) := by decide +kernel
  have h := regAt_cluster (a := 0x01005400) (n := n) (by decide) (by decide) hn
  rw [hzero] at h
  exact h

/-- A cluster's registers are on with the cluster. -/
theorem blockOn_cluster {a n : Nat} (ha : 0x1000000 ≤ a) (hb : a < 0x1020000) (hn : n < 128) (s : State) :
    blockOn s (a + 0x20000 * n) = clusterOn s n := by
  have hq : (a + 0x20000 * n - 0x1000000) / 0x20000 = n := by omega
  unfold blockOn
  simp only [show ¬ a + 0x20000 * n < 0x350000 by omega, show ¬ a + 0x20000 * n < 0x440000 by omega,
    show ¬ a + 0x20000 * n < 0x700000 by omega, show ¬ a + 0x20000 * n < 0x700020 by omega,
    show ¬ a + 0x20000 * n < 0x780000 by omega, show ¬ a + 0x20000 * n < 0x7C0000 by omega,
    show 0x1000000 ≤ a + 0x20000 * n by omega, show a + 0x20000 * n < 0x2000000 by omega, and_false, and_true, if_false,
    if_true, hq]

/-- A write of a register of a cluster that is on goes to that register. -/
theorem writeWord32_cluster {a n : Nat} {r : RegGroup} {ix : List Nat} (ha : 0x1000000 ≤ a) (hb : a < 0x1010000) (h4 : a % 4 = 0)
    (hn : n < 128) (hr : regAt (a + 0x20000 * n) = some (r, ix)) (g : Agent) (v : Word) {s : State} (hon : clusterOn s n = true) :
    writeWord32 g (a + 0x20000 * n) v s = writeReg g r ix (a + 0x20000 * n) v s := by
  have htrace : ¬ a + 0x20000 * n = R.traceMsg := by simp only [R.traceMsg]; omega
  have hservice : inService (a + 0x20000 * n) = false := by simp [inService]; omega
  have hmsix : inMsix (a + 0x20000 * n) = false := by simp [inMsix]; omega
  have hview : inView (a + 0x20000 * n) = false := by simp [inView]; omega
  have hstore : inStoreView (a + 0x20000 * n) = false := by simp [inStoreView]; omega
  have h4' : (a + 0x20000 * n) % 4 = 0 := by omega
  simp only [writeWord32, h4', htrace, hservice, hmsix, hview, hstore, blockOn_cluster ha (show a < 0x1020000 by omega) hn, hon, hr, ne_eq,
    not_true_eq_false, if_false, false_and, Bool.not_true, Bool.false_eq_true, show ¬ a + 0x20000 * n < 0x802000 by omega, and_false]

theorem writeWord32_cluForce {n f : Nat} (hn : n < 128) (hf : f < 64) (g : Agent) (v : Word) {s : State} (hon : clusterOn s n = true) :
    writeWord32 g (R.cluForce n f) v s = writeFields (R.cluForce n f) v s := by
  have hr := regAt_cluForce hn hf
  have he : R.cluForce n f = 0x01003000 + 4 * f + 0x20000 * n := by simp only [R.cluForce]; omega
  rw [he] at hr ⊢
  rw [writeWord32_cluster (by omega) (by omega) (by omega) hn hr g v hon]
  rfl

theorem writeWord32_cluSwellFlags {n : Nat} (hn : n < 128) (g : Agent) (v : Word) {s : State} (hon : clusterOn s n = true) :
    writeWord32 g (R.cluSwellFlags n) v s = setSwell n v s := by
  have hr := regAt_cluSwellFlags hn
  rw [show R.cluSwellFlags n = 0x01005400 + 0x20000 * n from rfl] at hr ⊢
  rw [writeWord32_cluster (by omega) (by omega) (by omega) hn hr g v hon]
  rfl

/-! ## Swell flags of all clusters -/

theorem clu_swellAll (s : State) (n : Nat) :
    clu (swellAll s) n = if n < 128 then { clu s n with swell := (clu s n).swell ||| -1 } else clu s n := by
  have key : ∀ k, clu (forUpTo k (fun n acc => setSwell n (-1) acc) s) n =
      if n < k then { clu s n with swell := (clu s n).swell ||| -1 } else clu s n := by
    intro k
    induction k with
    | zero => rfl
    | succ k ih =>
      rw [forUpTo, List.range_succ, List.foldl_append, List.foldl_cons, List.foldl_nil, ← forUpTo, setSwell, clu_setClu]
      by_cases h : n = k
      · subst h
        rw [if_pos rfl, ih, if_neg (lt_irrefl n), if_pos (Nat.lt_succ_self n)]
      · rw [if_neg h, ih]
        by_cases hk : n < k
        · rw [if_pos hk, if_pos (by omega)]
        · rw [if_neg hk, if_neg (by omega)]
  exact key 128

/-- A state that differs from another in its clusters alone. -/
theorem clusters_only {s t : State} (h : ({ t with clusters := [] } : State) = { s with clusters := [] }) :
    t = { s with clusters := t.clusters } := congrArg (fun u : State => { u with clusters := t.clusters }) h

theorem swellAll_frame (s : State) : swellAll s = { s with clusters := (swellAll s).clusters } := by
  apply clusters_only
  unfold swellAll forUpTo
  generalize List.range 128 = l
  exact foldl_keeps (fun u : State => { u with clusters := [] }) (fun acc k => setSwell k (-1) acc) (fun _ _ => rfl) l s

/-! ## The value-store view -/

/-- A number that is the sum of the weights of its bits reads them back. -/
theorem sum_of_bits (b : Nat → Bool) (m : Nat) :
    (((List.range m).map fun k => (k, (b k).toNat)).map fun x : Nat × Nat => x.2 <<< x.1).sum < 2 ^ m ∧
      ∀ k, k < m → ((((List.range m).map fun k => (k, (b k).toNat)).map fun x : Nat × Nat => x.2 <<< x.1).sum).testBit k = b k := by
  induction m with
  | zero => exact ⟨by simp, fun k hk => by omega⟩
  | succ m ih =>
    obtain ⟨hlt, hbit⟩ := ih
    rw [List.range_succ, List.map_append, List.map_append, List.sum_append]
    generalize (((List.range m).map fun k => (k, (b k).toNat)).map fun x : Nat × Nat => x.2 <<< x.1).sum = w at hlt hbit ⊢
    have hsum : w + (List.map (fun x : Nat × Nat => x.2 <<< x.1) [(m, (b m).toNat)]).sum = 2 ^ m * (b m).toNat + w := by
      simp [Nat.shiftLeft_eq, Nat.mul_comm, Nat.add_comm]
    simp only [List.map_cons, List.map_nil] at hsum ⊢
    rw [hsum]
    constructor
    · have := Bool.toNat_lt (b m)
      rw [Nat.pow_succ]
      nlinarith
    · intro k hk
      rw [Nat.testBit_two_pow_mul_add _ hlt]
      by_cases h : k < m
      · rw [if_pos h, hbit k h]
      · obtain rfl : k = m := by omega
        rw [if_neg h, Nat.sub_self]
        cases b k <;> rfl

theorem getLsbD_storeWord (s : State) (n w : Nat) {k : Nat} (hk : k < 32) :
    (storeWord s n w).getLsbD k = entry (viewStore s n) (w / 32) (w % 32 * 32 + k) := by
  rw [storeWord, fieldWord, BitVec.getLsbD_ofNat, decide_eq_true hk, Bool.true_and]
  exact (sum_of_bits (fun k => entry (viewStore s n) (w / 32) (w % 32 * 32 + k)) 32).2 k hk

/-- `m` entries of a step filled from `t` on with the bits of `v`. -/
def fillEntries (m : Nat) (b t : Nat) (v : Word) (st : Sparse Bool) : Sparse Bool :=
  (List.range m).foldl (fun acc k => setEntry acc b (t + k) (v.getLsbD k)) st

theorem entry_fillEntries (m b t : Nat) (v : Word) (st : Sparse Bool) {b' j : Nat} (hj : j < 1024) (ht : t + m ≤ 1024) :
    entry (fillEntries m b t v st) b' j = if b' = b ∧ t ≤ j ∧ j < t + m then v.getLsbD (j - t) else entry st b' j := by
  induction m with
  | zero => rw [if_neg (by omega)]; rfl
  | succ m ih =>
    have hset : entry (fillEntries (m + 1) b t v st) b' j =
        if 1024 * b' + j = 1024 * b + (t + m) then v.getLsbD m else entry (fillEntries m b t v st) b' j := by
      rw [fillEntries, List.range_succ, List.foldl_append, List.foldl_cons, List.foldl_nil, entry, setEntry, look_put]
      rfl
    rw [hset, ih (by omega)]
    by_cases h : 1024 * b' + j = 1024 * b + (t + m)
    · rw [if_pos h, if_pos (by omega), show j - t = m by omega]
    · rw [if_neg h]
      exact if_congr (by omega) rfl rfl

/-- The cluster with the entries filled in the bank that the view shows. -/
theorem setStoreWord_eq (s : State) (n w : Nat) (v : Word) :
    setStoreWord n w v s = setClu s n (if bit s (R.cluVsSel n) 0
      then { clu s n with prev := fillEntries 32 (w / 32) (w % 32 * 32) v (clu s n).prev }
      else { clu s n with cur := fillEntries 32 (w / 32) (w % 32 * 32) v (clu s n).cur }) := rfl

/-- A write of the view fills the entries in the bank that it shows. -/
theorem viewStore_setStoreWord (s : State) (n w : Nat) (v : Word) :
    viewStore (setStoreWord n w v s) n = fillEntries 32 (w / 32) (w % 32 * 32) v (viewStore s n) := by
  rw [setStoreWord_eq, viewStore, viewStore, bit_setClu, clu_setClu, if_pos rfl]
  by_cases h : bit s (R.cluVsSel n) 0 = true
  · rw [if_pos h, if_pos h, if_pos h]
  · rw [if_neg h, if_neg h, if_neg h]

theorem clu_setStoreWord (s : State) (n w : Nat) (v : Word) :
    clu (setStoreWord n w v s) n =
      { clu s n with cur := (clu (setStoreWord n w v s) n).cur, prev := (clu (setStoreWord n w v s) n).prev } := by
  rw [setStoreWord_eq, clu_setClu, if_pos rfl]
  by_cases h : bit s (R.cluVsSel n) 0 = true
  · rw [if_pos h]
  · rw [if_neg h]

theorem storeAccess_frozen {n : Nat} {s : State} (hn : n < 128) (hon : clusterOn s n = true) (hf : designFrozen s = true) (w : Nat)
    (x : Access) :
    storeAccess n w x s = match x with
      | .read => answer [storeWord s n w] s
      | .write v => setStoreWord n w v s := by
  have hb : blockOn s (R.cluStatus n) = true := by
    rw [← hon]; exact blockOn_cluster (a := 0x1000000) (by decide) (by decide) hn s
  unfold storeAccess
  rw [hb, hf]
  rfl

theorem storeAccess_busy {n : Nat} {s : State} (hn : n < 128) (hon : clusterOn s n = true) (hf : designFrozen s = false) (w : Nat)
    (x : Access) :
    storeAccess n w x s = match x with
      | .read => answer [0] (storeBusy n s)
      | .write _ => storeBusy n s := by
  have hb : blockOn s (R.cluStatus n) = true := by
    rw [← hon]; exact blockOn_cluster (a := 0x1000000) (by decide) (by decide) hn s
  unfold storeAccess
  rw [hb, hf]
  rfl

/-! ## The obligation -/

theorem forceWrite_fields {n : Fin 128} {s : State} (f : Fin 64) (v : Word) (hon : clusterOn s n = true) :
    Completes (.forceWrite n f v) s fun t =>
      reg t (R.cluForce n f) = (reg s (R.cluForce n f) &&& ~~~ 0xC007FFFF#32) ||| (v &&& 0xC007FFFF#32) ∧
      keepsRegs [R.cluForce n f] s t ∧ t = { s with regs := t.regs } := by
  have hw : writeFields (R.cluForce n f) v s = setReg s (R.cluForce n f)
      ((reg s (R.cluForce n f) &&& ~~~ 0xC007FFFF#32) ||| (v &&& 0xC007FFFF#32)) := by
    have hall (w : Word) : w &&& 4294967295#32 = w := BitVec.and_allOnes
    rw [writeFields, regAt_cluForce n.isLt f.isLt]
    simp [writtenWord, hall]
  refine ⟨_, congrArg Host.Outcome.next ((writeWord32_cluForce n.isLt f.isLt .host v hon).trans hw), ?_, ?_, rfl⟩
  · exact (reg_setReg ..).trans (if_pos rfl)
  · exact (keepsRegs_refl _ s).setReg (List.mem_singleton_self _) _

theorem viewWrite_entries {n : Fin 128} {s : State} (w : Fin 16384) (v : Word) (hon : clusterOn s n = true)
    (hf : designFrozen s = true) :
    Completes (.vsViewAccess n w (.write v)) s fun t =>
      (∀ k, k < 32 → entry (viewStore t n) (w / 32) (w % 32 * 32 + k) = v.getLsbD k) ∧
      (∀ b j, j < 1024 → ¬ (b = w / 32 ∧ w % 32 * 32 ≤ j ∧ j < w % 32 * 32 + 32) →
        entry (viewStore t n) b j = entry (viewStore s n) b j) ∧
      clu t n = { clu s n with cur := (clu t n).cur, prev := (clu t n).prev } ∧
      (∀ m, m ≠ n.val → clu t m = clu s m) ∧ t = { s with clusters := t.clusters } := by
  refine ⟨_, congrArg Host.Outcome.next (storeAccess_frozen n.isLt hon hf w.val (.write v)), fun k hk => ?_, fun b j hj hne => ?_,
    clu_setStoreWord s n w v, fun m hm => ?_, rfl⟩
  · dsimp only
    rw [viewStore_setStoreWord, entry_fillEntries _ _ _ _ _ (by omega) (by omega), if_pos (by omega)]
    congr 1
    omega
  · dsimp only
    rw [viewStore_setStoreWord, entry_fillEntries _ _ _ _ _ hj (by omega), if_neg]
    have h32 : ((32 : Fin 16384) : Nat) = 32 := rfl
    simp only [Fin.ext_iff, Fin.le_def, Fin.lt_def, Fin.val_add, Fin.val_mul, Fin.mod_val, Fin.div_val, h32] at hne
    omega
  · dsimp only
    rw [setStoreWord_eq, clu_setClu, if_neg hm]

/-- Settles O22. -/
theorem forceAndStores : Obligations.ForceAndStores := by
  refine ⟨fun n f v s hon => forceWrite_fields f v hon, fun n v s hon => ?_, fun s => ⟨_, rfl, fun n hn => ?_, fun n hn => ?_, ?_⟩,
    fun n w s hon hf => ?_, fun n w v s hon hf => viewWrite_entries w v hon hf, fun n w v s hon hf => ⟨?_, ?_⟩⟩
  · exact congrArg Host.Outcome.next (writeWord32_cluSwellFlags n.isLt .host v hon)
  · rw [clu_swellAll, if_pos hn, show (clu s n).swell ||| (-1 : Word) = -1 from BitVec.or_allOnes]
  · rw [clu_swellAll, if_neg (by omega)]
  · exact swellAll_frame s
  · refine ⟨_, congrArg Host.Outcome.next (storeAccess_frozen n.isLt hon hf w.val .read), ⟨_, rfl, fun k hk => ?_⟩, rfl⟩
    exact getLsbD_storeWord s n w hk
  · exact congrArg Host.Outcome.next (storeAccess_busy n.isLt hon hf w.val (.write v))
  · exact congrArg Host.Outcome.next (storeAccess_busy n.isLt hon hf w.val .read)

end Sys2Proof.Machine
end

/-! # Lanes and links -/

section
namespace Sys2Proof.Machine
set_option Elab.async false

/-! ## What the state of lanes and links rests on -/

section
variable {L : List Nat} {s t : State} (h : keepsRegs L s t)
include h

theorem keepsRegs.bits {x : Nat} (hx : x ∉ L) (lo n : Nat) : bits t x lo n = Machine.bits s x lo n := by
  rw [Machine.bits, h x hx, Machine.bits]

theorem keepsRegs.bit {x : Nat} (hx : x ∉ L) (i : Nat) : bit t x i = Machine.bit s x i := by
  rw [Machine.bit, h x hx, Machine.bit]

theorem laneState_keeps {a : Nat} (hx : R.cwLaneStatus a ∉ L) : laneState t a = laneState s a := h.bits hx _ _

theorem laneLooped_keeps {a : Nat} (hx : R.cwLaneCtrl a ∉ L) : laneLooped t a = laneLooped s a := h.bit hx _

theorem linkUp_keeps {l : Nat} (hx : R.cwLinkStatus l ∉ L) : linkUp t l = linkUp s l := h.bit hx _

theorem linkEnabled_keeps {l : Nat} (hx : R.cwLinkCfg l ∉ L) : linkEnabled t l = linkEnabled s l := h.bit hx _

theorem linkBase_keeps {l : Nat} (hx : R.cwLinkCfg l ∉ L) : linkBase t l = linkBase s l := h.bits hx _ _

theorem linkWidth_keeps {l : Nat} (hx : R.cwLinkCfg l ∉ L) : linkWidth t l = linkWidth s l := h.bits hx _ _

theorem linkLanes_keeps {l : Nat} (hx : R.cwLinkCfg l ∉ L) : linkLanes t l = linkLanes s l := by
  rw [linkLanes, linkWidth_keeps h hx, linkBase_keeps h hx, linkLanes]

theorem linkOfLane_keeps (hx : ∀ l, l < 20 → R.cwLinkCfg l ∉ L) (a : Nat) : linkOfLane t a = linkOfLane s a := by
  unfold linkOfLane
  congr 1
  refine List.filter_congr fun l hl => ?_
  have hl := hx l (List.mem_range.1 hl)
  rw [linkEnabled_keeps h hl, linkLanes_keeps h hl]

theorem loopsMixed_keeps {l : Nat} (hx : R.cwLinkCfg l ∉ L) (hc : ∀ a, a < 80 → R.cwLaneCtrl a ∉ L) :
    loopsMixed t l = loopsMixed s l := by
  have hmap : (linkLanes s l).map (laneLooped t) = (linkLanes s l).map (laneLooped s) :=
    List.map_congr_left fun a ha => laneLooped_keeps h (hc a (by simpa using (List.mem_filter.1 ha).2))
  rw [loopsMixed, linkLanes_keeps h hx, hmap, loopsMixed]

theorem laneActive_keeps (hdie : t.die = s.die) (hL : ∀ x ∈ L, 0x300000 ≤ x ∧ x < 0x400000) {a : Nat} (ha : a < 80)
    (hx : R.cwLaneCtrl a ∉ L) : laneActive t a = laneActive s a := by
  have hlow : ∀ x, x < 0x300000 ∨ 0x400000 ≤ x → x ∉ L := fun x hx hm => by have := hL x hm; omega
  unfold laneActive domainOn bistRuns gradeQuad quadPresent
  rw [h.bit hx, h.bits (hlow _ (by simp only [R.pwrDomainStatus]; omega)), h.bits (hlow R.bistStatus (by decide)),
    h.bit (hlow R.glbUnitPresent1 (by decide)), hdie]

theorem laneFree_keeps (hx : ∀ l, l < 20 → R.cwLinkCfg l ∉ L) (a : Nat) : laneFree t a = laneFree s a := by
  rw [laneFree, linkOfLane_keeps h hx, laneFree]

theorem laneGone_keeps (hpwr : t.pwr = s.pwr) (hL : ∀ x ∈ L, 0x300000 ≤ x ∧ x < 0x400000) {a : Nat} (ha : a < 80) :
    laneGone t a = laneGone s a := by
  have hlow : ∀ x, x < 0x300000 → x ∉ L := fun x hx hm => by have := hL x hm; omega
  unfold laneGone domainSignals domainOn domainWorks
  rw [h.bits (hlow _ (by simp only [R.pwrDomainStatus]; omega)), h.bit (hlow R.glbUnitPresent1 (by decide)), hpwr]

end

theorem linkLanes_lt {s : State} {l a : Nat} (h : a ∈ linkLanes s l) : a < 80 := by simpa using (List.mem_filter.1 h).2

theorem linkOfLane_mem {s : State} {a l : Nat} (h : linkOfLane s a = some l) : linkEnabled s l = true ∧ a ∈ linkLanes s l := by
  have hm := List.mem_of_head? h
  simpa using (List.mem_filter.1 hm).2

/-- The state after a change of lanes: registers of `L`, the lanes and what is taken of the free values. -/
def LanesMoved (L : List Nat) (s t : State) : Prop :=
  keepsRegs L s t ∧ t = { s with regs := t.regs, free := t.free, cw := { s.cw with lanes := t.cw.lanes } }

namespace LanesMoved
variable {L : List Nat} {s t u : State}

theorem refl (L : List Nat) (s : State) : LanesMoved L s s := ⟨keepsRegs_refl L s, rfl⟩

theorem trans (h : LanesMoved L s t) (h' : LanesMoved L t u) : LanesMoved L s u :=
  ⟨h.1.trans h'.1, by rw [h'.2, h.2]⟩

theorem mono {L' : List Nat} (h : LanesMoved L s t) (hsub : L ⊆ L') : LanesMoved L' s t := ⟨h.1.mono hsub, h.2⟩

theorem setBits (h : LanesMoved L s t) {x : Nat} (hx : x ∈ L) (lo n v : Nat) : LanesMoved L s (setBits t x lo n v) :=
  ⟨h.1.setBits hx lo n v, by rw [h.2]; rfl⟩

theorem setBit (h : LanesMoved L s t) {x : Nat} (hx : x ∈ L) (i : Nat) (b : Bool) : LanesMoved L s (setBit t x i b) :=
  h.setBits hx i 1 _

theorem setLane (h : LanesMoved L s t) (a : Nat) (x : Lane) : LanesMoved L s (setLane t a x) :=
  ⟨fun y hy => (reg_setLane t a x y).trans (h.1 y hy), by rw [h.2]; rfl⟩

theorem takeFree (h : LanesMoved L s t) (w : Nat) : LanesMoved L s (takeFree w t).2 :=
  ⟨h.1, by rw [h.2]; rfl⟩

theorem foldl {α : Type} {f : State → α → State} (l : List α) (h : ∀ s, ∀ a ∈ l, LanesMoved L s (f s a)) (s : State) :
    LanesMoved L s (l.foldl f s) := by
  induction l generalizing s with
  | nil => exact refl L s
  | cons a l ih => exact (h s a List.mem_cons_self).trans (ih (fun s b hb => h s b (List.mem_cons_of_mem _ hb)) _)

end LanesMoved

/-! ## A lane that trains again -/

theorem cutFrame_moved (a : Nat) (s : State) : LanesMoved [] s (cutFrame a s) := by
  unfold cutFrame
  dsimp only
  split
  · exact ((LanesMoved.refl [] s).takeFree 6).setLane _ _
  · exact LanesMoved.refl [] s

theorem laneToLock_moved (a : Nat) (s : State) : LanesMoved [R.cwLaneStatus a] s (laneToLock a s) := by
  have hmem : R.cwLaneStatus a ∈ [R.cwLaneStatus a] := List.mem_singleton_self _
  unfold laneToLock
  split
  · exact LanesMoved.refl _ s
  · refine LanesMoved.setLane (((LanesMoved.setBits ?_ hmem _ _ _).setBit hmem _ _).setBit hmem _ _ |>.setBits hmem _ _ _) _ _
    split
    · exact (cutFrame_moved a s).mono (by simp)
    · exact LanesMoved.refl _ s

theorem laneRegs_cw {a : Nat} (ha : a < 80) : ∀ x ∈ [R.cwLaneStatus a], 0x300000 ≤ x ∧ x < 0x400000 := by
  simp only [List.mem_singleton, forall_eq, R.cwLaneStatus]
  omega

/-- Where a lane that trains again begins. -/
theorem laneState_laneToLock {a : Nat} {s : State} (ha : a < 80) (h : patternHolds s a = false) :
    laneState (laneToLock a s) a = if laneActive s a then laneLock else laneOff := by
  have hactive : laneActive (if laneState s a = laneOper then cutFrame a s else s) a = laneActive s a := by
    split
    · have hm := (cutFrame_moved a s).mono (List.nil_subset [R.cwLaneStatus a])
      refine laneActive_keeps hm.1 (by rw [hm.2]) (laneRegs_cw ha) ha ?_
      simp only [List.mem_singleton, R.cwLaneStatus, R.cwLaneCtrl]
      omega
    · rfl
  unfold laneToLock
  rw [h, if_neg Bool.false_ne_true]
  simp only [hactive]
  rw [laneState, bits_setLane, bits_setBits_ne _ _ _ _ _ _ _ _ (by omega), bits_setBit_ne _ _ _ _ _ _ _ (by omega),
    bits_setBit_ne _ _ _ _ _ _ _ (by omega), setLaneState, bits_setBits _ _ _ _ _ (by omega)]
  split <;> rfl

theorem laneState_laneToLock_ne {a b : Nat} (h : b ≠ a) (s : State) : laneState (laneToLock a s) b = laneState s b :=
  laneState_keeps (laneToLock_moved a s).1 (by simp only [List.mem_singleton, R.cwLaneStatus]; omega)

/-- A lane that trains again is in LOCK, OFF or pattern mode. -/
theorem laneToLock_not_oper {a : Nat} (ha : a < 80) (s : State) : laneState (laneToLock a s) a ≠ laneOper := by
  by_cases h : patternHolds s a = true
  · have hp : laneState s a = lanePattern := by
      simp only [patternHolds, Bool.and_eq_true, beq_iff_eq] at h
      exact h.1.1.1
    rw [laneToLock, if_pos h, hp]
    decide
  · rw [laneState_laneToLock ha (Bool.eq_false_iff.2 h)]
    split <;> decide

/-! ## A link that trains again -/

/-- The state after a change of links: also the links and the exchange of time over the parent link. -/
def LinksMoved (L : List Nat) (s t : State) : Prop :=
  keepsRegs L s t ∧ t = { s with
    regs := t.regs, free := t.free, cw := { s.cw with lanes := t.cw.lanes, links := t.cw.links }
    time := { s.time with exchange := t.time.exchange } }

namespace LinksMoved
variable {L : List Nat} {s t u : State}

theorem of_lanes (h : LanesMoved L s t) : LinksMoved L s t := ⟨h.1, by rw [h.2]⟩

theorem refl (L : List Nat) (s : State) : LinksMoved L s s := of_lanes (.refl L s)

theorem trans (h : LinksMoved L s t) (h' : LinksMoved L t u) : LinksMoved L s u :=
  ⟨h.1.trans h'.1, by rw [h'.2, h.2]⟩

theorem mono {L' : List Nat} (h : LinksMoved L s t) (hsub : L ⊆ L') : LinksMoved L' s t := ⟨h.1.mono hsub, h.2⟩

theorem setBits (h : LinksMoved L s t) {x : Nat} (hx : x ∈ L) (lo n v : Nat) : LinksMoved L s (setBits t x lo n v) :=
  ⟨h.1.setBits hx lo n v, by rw [h.2]; rfl⟩

theorem setBit (h : LinksMoved L s t) {x : Nat} (hx : x ∈ L) (i : Nat) (b : Bool) : LinksMoved L s (setBit t x i b) :=
  h.setBits hx i 1 _

theorem setLink (h : LinksMoved L s t) (l : Nat) (x : Link) : LinksMoved L s (setLink t l x) :=
  ⟨fun y hy => (reg_setLink t l x y).trans (h.1 y hy), by rw [h.2]; rfl⟩

theorem withExchange (h : LinksMoved L s t) : LinksMoved L s { t with time := { t.time with exchange := none } } :=
  ⟨h.1, by rw [h.2]⟩

end LinksMoved

theorem timeLinkDown_moved (l : Nat) (s : State) : LinksMoved [] s (timeLinkDown l s) := by
  unfold timeLinkDown
  dsimp only
  split
  · exact ((LinksMoved.refl [] s).setLink l _).withExchange
  · exact (LinksMoved.refl [] s).setLink l _

theorem linkLeavesUp_moved (l : Nat) (s : State) :
    LinksMoved [R.cwLinkStatus l, R.cwLinkDelay l] s (linkLeavesUp l s) := by
  have hstatus : R.cwLinkStatus l ∈ [R.cwLinkStatus l, R.cwLinkDelay l] := List.mem_cons_self
  have hdelay : R.cwLinkDelay l ∈ [R.cwLinkStatus l, R.cwLinkDelay l] := List.mem_cons_of_mem _ List.mem_cons_self
  have hdown := ((((LinksMoved.refl _ s).setBit hstatus 31 false).setBit hstatus 30 false).setBit hdelay 31 false)
  unfold linkLeavesUp
  dsimp only
  split
  · exact ((hdown.setLink l _).setBits hstatus _ _ _).trans ((timeLinkDown_moved l _).mono (List.nil_subset _))
  · exact hdown.setLink l _

/-- A link that leaves UP is down, and its alignment is lost. -/
theorem linkLeavesUp_down (l : Nat) (s : State) :
    linkUp (linkLeavesUp l s) l = false ∧ bit (linkLeavesUp l s) (R.cwLinkStatus l) 30 = false := by
  have hne : R.cwLinkStatus l ≠ R.cwLinkDelay l := by simp only [R.cwLinkStatus, R.cwLinkDelay]; omega
  have hset : ∀ i, (i = 31 ∨ i = 30) → bit (setBit (setBit (setBit s (R.cwLinkStatus l) 31 false) (R.cwLinkStatus l) 30 false)
      (R.cwLinkDelay l) 31 false) (R.cwLinkStatus l) i = false := by
    intro i hi
    rw [bit_setBit_ne _ _ _ _ _ _ (.inl hne)]
    rcases hi with rfl | rfl
    · rw [bit_setBit_ne _ _ _ _ _ _ (.inr (by omega)), bit_setBit _ _ _ _ (by omega)]
    · rw [bit_setBit _ _ _ _ (by omega)]
  have hall : ∀ i, (i = 31 ∨ i = 30) → bit (linkLeavesUp l s) (R.cwLinkStatus l) i = false := by
    intro i hi
    unfold linkLeavesUp
    dsimp only
    split
    · rw [(timeLinkDown_moved l _).1.bit List.not_mem_nil, bumpBits, bit_setBits_ne _ _ _ _ _ _ _ (by omega), bit_setLink, hset i hi]
    · rw [bit_setLink, hset i hi]
  exact ⟨hall 31 (.inl rfl), hall 30 (.inr rfl)⟩

/-- One lane of a link that trains again. -/
def laneRetrains (s : State) (a : Nat) : State :=
  laneToLock a (if laneState s a = laneOper then setBit s (R.cwLaneStatus a) 25 true else s)

theorem linkToLock_eq (l : Nat) (s : State) : linkToLock l s = linkLeavesUp l ((linkLanes s l).foldl laneRetrains s) := rfl

theorem laneRetrains_moved (a : Nat) (s : State) : LanesMoved [R.cwLaneStatus a] s (laneRetrains s a) := by
  refine LanesMoved.trans (t := if laneState s a = laneOper then setBit s (R.cwLaneStatus a) 25 true else s) ?_ (laneToLock_moved a _)
  split
  · exact (LanesMoved.refl _ s).setBit (List.mem_singleton_self _) _ _
  · exact LanesMoved.refl _ s

theorem lanesRetrain_moved {as : List Nat} {L : List Nat} (h : ∀ a ∈ as, R.cwLaneStatus a ∈ L) (s : State) :
    LanesMoved L s (as.foldl laneRetrains s) :=
  LanesMoved.foldl as (fun s a ha => (laneRetrains_moved a s).mono (by simpa using h a ha)) s

theorem laneRetrains_keeps_ne {a b : Nat} (h : b ≠ a) (s : State) : laneState (laneRetrains s a) b = laneState s b :=
  laneState_keeps (laneRetrains_moved a s).1 (by simp only [List.mem_singleton, R.cwLaneStatus]; omega)

theorem lanesRetrain_not_oper {as : List Nat} (h80 : ∀ a ∈ as, a < 80) {a : Nat} (s : State)
    (h : a ∈ as ∨ laneState s a ≠ laneOper) : laneState (as.foldl laneRetrains s) a ≠ laneOper := by
  induction as generalizing s with
  | nil => simpa using h
  | cons b as ih =>
    refine ih (fun c hc => h80 c (List.mem_cons_of_mem _ hc)) _ ?_
    by_cases hb : a = b
    · subst hb
      exact .inr (laneToLock_not_oper (h80 a List.mem_cons_self) _)
    · rw [laneRetrains_keeps_ne hb]
      rcases h with h | h
      · exact .inl ((List.mem_cons.1 h).resolve_left hb)
      · exact .inr h

/-- The registers that a link which trains again changes. -/
def linkRegs (s : State) (l : Nat) : List Nat :=
  R.cwLinkStatus l :: R.cwLinkDelay l :: (linkLanes s l).map R.cwLaneStatus

theorem linkToLock_moved (l : Nat) (s : State) : LinksMoved (linkRegs s l) s (linkToLock l s) := by
  rw [linkToLock_eq]
  have hlanes : ∀ a ∈ linkLanes s l, R.cwLaneStatus a ∈ linkRegs s l := fun a ha =>
    List.mem_cons_of_mem _ (List.mem_cons_of_mem _ (List.mem_map_of_mem ha))
  exact (LinksMoved.of_lanes (lanesRetrain_moved hlanes s)).trans ((linkLeavesUp_moved l _).mono (by simp [linkRegs]))

/-- No lane of a link that trains again is in OPER. -/
theorem linkToLock_not_oper {l a : Nat} (hl : l < 20) {s : State} (h : a ∈ linkLanes s l) :
    laneState (linkToLock l s) a ≠ laneOper := by
  have ha := linkLanes_lt h
  rw [linkToLock_eq, laneState_keeps (linkLeavesUp_moved l _).1]
  · exact lanesRetrain_not_oper (fun b hb => linkLanes_lt hb) s (.inl h)
  · simp only [List.mem_cons, List.not_mem_nil, or_false, R.cwLaneStatus, R.cwLinkStatus, R.cwLinkDelay]
    omega

theorem linkToLock_down (l : Nat) (s : State) :
    linkUp (linkToLock l s) l = false ∧ bit (linkToLock l s) (R.cwLinkStatus l) 30 = false := linkLeavesUp_down l _

/-! ## A lane that leaves OPER -/

/-- The lane of a link that fails: its fault, the link down and every lane of it out of OPER. -/
theorem laneLeaves_link {a l : Nat} {s : State} (ho : laneState s a = laneOper) (hl : linkOfLane s a = some l) :
    laneLeaves a s = linkToLock l (takeAlong l a (signal (80 + l) a (setBit s (R.cwLaneStatus a) 25 true))) := by
  have hl' : linkOfLane (setBit s (R.cwLaneStatus a) 25 true) a = some l := by
    rw [← hl]
    refine linkOfLane_keeps (L := [R.cwLaneStatus a]) ((keepsRegs_refl _ s).setBit (List.mem_singleton_self _) _ _) (fun k hk => ?_) a
    have := linkLanes_lt (linkOfLane_mem hl).2
    simp only [List.mem_singleton, R.cwLaneStatus, R.cwLinkCfg]
    omega
  rw [laneLeaves, if_pos ho]
  dsimp only
  rw [hl']

theorem laneLeaves_free {a : Nat} {s : State} (ha : a < 80) (ho : laneState s a = laneOper) (hl : linkOfLane s a = none) :
    laneLeaves a s = laneToLock a (setBit s (R.cwLaneStatus a) 25 true) := by
  have hl' : linkOfLane (setBit s (R.cwLaneStatus a) 25 true) a = none := by
    rw [← hl]
    refine linkOfLane_keeps (L := [R.cwLaneStatus a]) ((keepsRegs_refl _ s).setBit (List.mem_singleton_self _) _ _) (fun k hk => ?_) a
    simp only [List.mem_singleton, R.cwLaneStatus, R.cwLinkCfg]
    omega
  rw [laneLeaves, if_pos ho]
  dsimp only
  rw [hl']

/-- A lane that neither is in OPER nor went with its link trains again. -/
theorem laneLeaves_idle {a : Nat} {s : State} (ho : laneState s a ≠ laneOper) (ht : takenAlong s a = false) :
    laneLeaves a s = laneToLock a s := by
  rw [laneLeaves, if_neg ho]
  split
  · rw [ht]
    rfl
  · rfl

/-- What a lane that leaves OPER leaves unchanged. -/
theorem laneLeaves_oper {a : Nat} {s : State} (ha : a < 80) (ho : laneState s a = laneOper) :
    laneState (laneLeaves a s) a ≠ laneOper ∧ (laneLeaves a s).clusters = s.clusters ∧ (laneLeaves a s).banks = s.banks ∧
    (laneLeaves a s).pwr = s.pwr ∧ (∀ x, x < 0x300000 → reg (laneLeaves a s) x = reg s x) := by
  cases hl : linkOfLane s a with
  | none =>
    rw [laneLeaves_free ha ho hl]
    have hm := ((LanesMoved.refl [R.cwLaneStatus a] s).setBit (List.mem_singleton_self _) 25 true).trans (laneToLock_moved a _)
    refine ⟨laneToLock_not_oper ha _, by rw [hm.2], by rw [hm.2], by rw [hm.2], fun x hx => hm.1 x ?_⟩
    simp only [List.mem_singleton, R.cwLaneStatus]
    omega
  | some l =>
    rw [laneLeaves_link ho hl]
    obtain ⟨-, hmem⟩ := linkOfLane_mem hl
    have hl20 := linkOfLane_lt hl
    have hk : keepsRegs [R.cwLaneStatus a] s (takeAlong l a (signal (80 + l) a (setBit s (R.cwLaneStatus a) 25 true))) :=
      ((keepsRegs_refl _ s).setBit (List.mem_singleton_self _) 25 true).signal (80 + l) a
    have hlanes : linkLanes (takeAlong l a (signal (80 + l) a (setBit s (R.cwLaneStatus a) 25 true))) l = linkLanes s l :=
      linkLanes_keeps hk (by simp only [List.mem_singleton, R.cwLaneStatus, R.cwLinkCfg]; omega)
    have hm := linkToLock_moved l (takeAlong l a (signal (80 + l) a (setBit s (R.cwLaneStatus a) 25 true)))
    refine ⟨linkToLock_not_oper hl20 (hlanes.symm ▸ hmem), ?_, ?_, ?_, fun x hx => ?_⟩
    · rw [hm.2]; exact signal_clusters _ _ _
    · rw [hm.2]; exact signal_banks _ _ _
    · rw [hm.2]; exact signal_pwr _ _ _
    · rw [hm.1 x, hk x]
      · simp only [List.mem_singleton, R.cwLaneStatus]
        omega
      · simp only [linkRegs, List.mem_cons, List.mem_map, R.cwLaneStatus, R.cwLinkStatus, R.cwLinkDelay]
        omega

/-- The fault of the link, the link down. -/
theorem laneLeaves_fault {a l : Nat} {s : State} (ho : laneState s a = laneOper) (hl : linkOfLane s a = some l)
    (hg : laneGone s a = false) :
    ⟨80 + l, a, false⟩ ∈ (laneLeaves a s).flt.signals ∧ linkUp (laneLeaves a s) l = false := by
  have ha := linkLanes_lt (linkOfLane_mem hl).2
  have hl20 := linkOfLane_lt hl
  rw [laneLeaves_link ho hl]
  refine ⟨?_, (linkToLock_down l _).1⟩
  rw [(linkToLock_moved l _).2]
  have hgone : laneGone (setBit s (R.cwLaneStatus a) 25 true) a = false := by
    rw [← hg]
    exact laneGone_keeps ((keepsRegs_refl _ s).setBit (List.mem_singleton_self _) 25 true) rfl (laneRegs_cw ha) ha
  have hsrc : sourceGone (setBit s (R.cwLaneStatus a) 25 true) (80 + l) a = false := by
    rw [sourceGone, if_neg (by omega), if_pos (by omega), hgone]
  show _ ∈ (signal (80 + l) a _).flt.signals
  rw [signals_signal hsrc (by omega) (by omega)]
  simp

/-! ## Lane bring-up -/

theorem laneAlign_trains (a : Fin 80) (s : State) (inv : Bool) (ho : laneState s a = laneAlign) (hc : laneClocked s a = true) :
    Completes (.laneAlign a inv) s fun t =>
      laneState t a = laneTrain ∧ bit t (R.cwLaneStatus a) 27 = inv ∧ (lane t a).goodSets = 0 ∧
      keepsRegs [R.cwLaneStatus a] s t ∧ t.net = s.net ∧ t.clusters = s.clusters := by
  have hmem : R.cwLaneStatus a ∈ [R.cwLaneStatus a] := List.mem_singleton_self _
  refine ⟨_, congrArg Host.Outcome.next (if_pos ⟨ho, hc⟩), ?_, ?_, ?_, ?_, rfl, rfl⟩
  · rw [laneState, bits_setLane, bits_setBit_ne _ _ _ _ _ _ _ (by omega), setLaneState, bits_setBits _ _ _ _ _ (by omega)]
    rfl
  · rw [bit_setLane, bit_setBit _ _ _ _ (by omega)]
  · rw [lane_setLane, if_pos rfl]
  · exact ((((LanesMoved.refl _ s).setBits hmem 29 3 laneTrain).setBit hmem 27 inv).setLane a _).1

/-- The lane after a good training set: its count of good sets, and the far side's fields. -/
def setSeen (a : Nat) (x : TrainingSet) (s : State) : State :=
  let far := showFar a x (setLane s a { lane s a with received := (lane s a).received + 16 })
  setLane (if x.state = 1 then setBit far (R.cwLaneStatus a) 26 true else far) a
    { lane s a with received := (lane s a).received + 16, goodSets := (lane s a).goodSets + 1 }

theorem trainingSet_train {a : Nat} {s : State} {x : TrainingSet} (ha : a < 80) (hs : laneState s a = laneTrain)
    (hc : laneClocked s a = true) (ht : takenAlong s a = false) (hg : x.good = true) (he : x.errors = [])
    (hl : linkOfLane s a = none) :
    trainingSet a x s = if 64 ≤ (lane s a).goodSets + 1
      then setBit (setLaneState a laneConfirm (setSeen a x s)) (R.cwLaneStatus a) 28 true else setSeen a x s := by
  have hears : laneHears s a = true := by rw [laneHears, hs, hc]; rfl
  have hcount : symbolsArrive a 16 x.errors s = setLane s a { lane s a with received := (lane s a).received + 16 } := by
    rw [he]; rfl
  have hl' : linkOfLane (showFar a x (setLane s a { lane s a with received := (lane s a).received + 16 })) a = none := by
    rw [← hl]
    refine linkOfLane_keeps (L := [R.cwLaneFar a]) (((keepsRegs_refl _ s)).setReg (List.mem_singleton_self _) _) (fun k hk => ?_) a
    simp only [List.mem_singleton, R.cwLaneFar, R.cwLinkCfg]
    omega
  unfold trainingSet
  rw [ht, hears, hcount, hs, hg, he, if_neg Bool.false_ne_true, if_neg (by simp), if_neg (by simp)]
  dsimp only
  rw [hl']
  simp only [lane_setLane, if_true, setSeen]

/-- The 64th good training set in a row moves its lane to CONFIRM. -/
theorem trainingSet_counts {a : Fin 80} {s : State} {x : TrainingSet} (hloop : laneLooped s a = false)
    (hs : laneState s a = laneTrain) (hc : laneClocked s a = true) (ht : takenAlong s a = false) (hg : x.good = true)
    (he : x.errors = []) (hl : linkOfLane s a = none) :
    Completes (.trainingSetReceive a x) s fun t =>
      (lane t a).goodSets = (lane s a).goodSets + 1 ∧
      laneState t a = (if 64 ≤ (lane s a).goodSets + 1 then laneConfirm else laneTrain) ∧
      keepsRegs [R.cwLaneStatus a, R.cwLaneFar a] s t := by
  have hstatus : R.cwLaneStatus a ∈ [R.cwLaneStatus a, R.cwLaneFar a] := List.mem_cons_self
  have hfar : keepsRegs [R.cwLaneStatus a, R.cwLaneFar a] s
      (showFar a x (setLane s a { lane s a with received := (lane s a).received + 16 })) :=
    keepsRegs.setReg (t := setLane s a _) (keepsRegs_refl _ s) (List.mem_cons_of_mem _ List.mem_cons_self) _
  have hseen : keepsRegs [R.cwLaneStatus a, R.cwLaneFar a] s (setSeen a x s) := by
    refine fun y hy => (reg_setLane _ _ _ _).trans ?_
    dsimp only
    split
    · exact hfar.setBit hstatus _ _ y hy
    · exact hfar y hy
  have hstate : laneState (setSeen a x s) a = laneTrain := by
    have hne : R.cwLaneStatus a ≠ R.cwLaneFar a := by simp only [R.cwLaneStatus, R.cwLaneFar]; omega
    have hfar' : laneState (showFar a x (setLane s a { lane s a with received := (lane s a).received + 16 })) a = laneTrain := by
      rw [← hs, showFar, laneState, bits, reg_setReg, if_neg hne]
      rfl
    rw [setSeen, laneState, bits_setLane]
    dsimp only
    split
    · rw [bits_setBit_ne _ _ _ _ _ _ _ (by omega)]
      exact hfar'
    · exact hfar'
  have hgood : (lane (setSeen a x s) a).goodSets = (lane s a).goodSets + 1 := by rw [setSeen, lane_setLane, if_pos rfl]
  refine ⟨_, congrArg Host.Outcome.next ((receiveUnit_unlooped hloop _ _ _).trans (trainingSet_train a.isLt hs hc ht hg he hl)), ?_⟩
  split
  · refine ⟨by rw [lane_setBit, setLaneState, lane_setBits, hgood], ?_, (hseen.setBits hstatus 29 3 _).setBit hstatus 28 true⟩
    rw [laneState, bits_setBit_ne _ _ _ _ _ _ _ (by omega), setLaneState, bits_setBits _ _ _ _ _ (by omega)]
    rfl
  · exact ⟨hgood, hstate, hseen⟩

/-- The check of a lane's loop writes the mixture flag of its link. -/
theorem checkLoopsOf_moved (a : Nat) (s : State) :
    LanesMoved ((linkOfLane s a).toList.map R.cwLinkStatus) s (checkLoopsOf a s) ∧
    ∀ l, linkOfLane s a = some l → bit (checkLoopsOf a s) (R.cwLinkStatus l) 28 =
      (bit s (R.cwLinkStatus l) 28 || loopsMixed s l) := by
  unfold checkLoopsOf
  cases hl : linkOfLane s a with
  | none => exact ⟨LanesMoved.refl _ s, by simp⟩
  | some l =>
    simp only [checkLoops, (linkOfLane_mem hl).1, true_and, Option.some.injEq, forall_eq']
    by_cases hmix : loopsMixed s l = true
    · rw [if_pos hmix, hmix, Bool.or_true]
      exact ⟨(LanesMoved.refl _ s).setBit (by simp) 28 true, bit_setBit _ _ _ _ (by omega)⟩
    · rw [if_neg hmix, Bool.eq_false_iff.2 hmix, Bool.or_false]
      exact ⟨LanesMoved.refl _ s, rfl⟩

/-- What a change of the loop leaves of the lane's configuration. -/
theorem setLoop_lane {a : Nat} (ha : a < 80) (on : Bool) (s : State) :
    laneState (setBit s (R.cwLaneCtrl a) 27 on) a = laneState s a ∧
    linkOfLane (setBit s (R.cwLaneCtrl a) 27 on) a = linkOfLane s a ∧
    patternHolds (setBit s (R.cwLaneCtrl a) 27 on) a = patternHolds s a := by
  have hk : keepsRegs [R.cwLaneCtrl a] s (setBit s (R.cwLaneCtrl a) 27 on) :=
    (keepsRegs_refl _ s).setBit (List.mem_singleton_self _) 27 on
  have hlow : ∀ x, x < 0x300000 ∨ 0x400000 ≤ x → x ≠ R.cwLaneCtrl a := by intro x hx; simp only [R.cwLaneCtrl]; omega
  have hst : laneState (setBit s (R.cwLaneCtrl a) 27 on) a = laneState s a :=
    laneState_keeps hk (by simp only [List.mem_singleton, R.cwLaneStatus, R.cwLaneCtrl]; omega)
  have hof : linkOfLane (setBit s (R.cwLaneCtrl a) 27 on) a = linkOfLane s a :=
    linkOfLane_keeps hk (fun l hl => by simp only [List.mem_singleton, R.cwLinkCfg, R.cwLaneCtrl]; omega) a
  have hact : laneActive (setBit s (R.cwLaneCtrl a) 27 on) a = laneActive s a := by
    unfold laneActive domainOn bistRuns gradeQuad quadPresent
    rw [bit_setBit_ne _ _ _ _ _ _ (.inr (by omega)),
      bits_setBit_ne _ _ _ _ _ _ _ (.inl (hlow _ (by simp only [R.pwrDomainStatus]; omega))),
      bits_setBit_ne _ _ _ _ _ _ _ (.inl (hlow R.bistStatus (by decide))),
      bit_setBit_ne _ _ _ _ _ _ (.inl (hlow R.glbUnitPresent1 (by decide))), setBit_die]
  refine ⟨hst, hof, ?_⟩
  rw [patternHolds, hst, hact, laneFree, hof, bits_setBit_ne _ _ _ _ _ _ _ (.inr (by omega)), patternHolds, laneFree]

/-- A change of the loop of a lane outside OPER. -/
theorem loopChange_trains {a : Fin 80} {s : State} {on : Bool} (hon : blockOn s (R.cwLaneCtrl a) = true)
    (hne : bit s (R.cwLaneCtrl a) 27 ≠ on) (ho : laneState s a ≠ laneOper) (ht : takenAlong s a = false)
    (hp : patternHolds s a = false) :
    Completes (.loopChange a on) s fun t =>
      bit t (R.cwLaneCtrl a) 27 = on ∧ laneState t a ≤ laneLock ∧
      (∀ l, linkOfLane s a = some l →
        bit t (R.cwLinkStatus l) 28 = (bit s (R.cwLinkStatus l) 28 || loopsMixed t l)) ∧
      keepsRegs ([R.cwLaneCtrl a, R.cwLaneStatus a] ++ (linkOfLane s a).toList.map R.cwLinkStatus) s t := by
  obtain ⟨hst, hof, hpat⟩ := setLoop_lane a.isLt on s
  obtain ⟨hmoved, hflag⟩ := checkLoopsOf_moved a.val (setBit s (R.cwLaneCtrl a) 27 on)
  rw [hof] at hmoved hflag
  have hout : ∀ x, (∀ l, l < 20 → x ≠ R.cwLinkStatus l) → x ∉ (linkOfLane s a).toList.map R.cwLinkStatus := by
    intro x hx hm
    obtain ⟨l, hl, rfl⟩ := List.mem_map.1 hm
    exact hx l (linkOfLane_lt (Option.mem_toList.1 hl)) rfl
  have hctrl : R.cwLaneCtrl a ∉ (linkOfLane s a).toList.map R.cwLinkStatus :=
    hout _ fun l hl => by simp only [R.cwLaneCtrl, R.cwLinkStatus]; omega
  have hcw : ∀ x ∈ (linkOfLane s a).toList.map R.cwLinkStatus, 0x300000 ≤ x ∧ x < 0x400000 := by
    intro x hm
    obtain ⟨l, hl, rfl⟩ := List.mem_map.1 hm
    have := linkOfLane_lt (Option.mem_toList.1 hl)
    simp only [R.cwLinkStatus]
    omega
  have hst' : laneState (checkLoopsOf a (setBit s (R.cwLaneCtrl a) 27 on)) a = laneState s a :=
    (laneState_keeps hmoved.1 (hout _ fun l hl => by simp only [R.cwLaneStatus, R.cwLinkStatus]; omega)).trans hst
  have hcfg : ∀ l, l < 20 → R.cwLinkCfg l ∉ (linkOfLane s a).toList.map R.cwLinkStatus := fun l hl =>
    hout _ fun k hk => by simp only [R.cwLinkCfg, R.cwLinkStatus]; omega
  have hpat' : patternHolds (checkLoopsOf a (setBit s (R.cwLaneCtrl a) 27 on)) a = false := by
    rw [← hp, ← hpat, patternHolds, hst', laneActive_keeps hmoved.1 (by rw [hmoved.2]) hcw a.isLt hctrl, laneFree_keeps hmoved.1 hcfg,
      hmoved.1.bits hctrl, patternHolds, hst]
  generalize hu : checkLoopsOf a (setBit s (R.cwLaneCtrl a) 27 on) = u at *
  have hlock := laneToLock_moved a u
  have hrun : loopChange a on s = laneToLock a u := by
    rw [loopChange, laneLooped, if_neg hne, hu]
    refine laneLeaves_idle (hst'.symm ▸ ho) ?_
    rw [takenAlong, hmoved.2]
    exact ht
  have hctrl' : bit (laneToLock a u) (R.cwLaneCtrl a) 27 = on := by
    rw [hlock.1.bit (by simp only [List.mem_singleton, R.cwLaneCtrl, R.cwLaneStatus]; omega), hmoved.1.bit hctrl,
      bit_setBit _ _ _ _ (by omega)]
  refine ⟨_, congrArg Host.Outcome.next ((if_pos hon).trans hrun), hctrl', ?_, fun l hl => ?_, ?_⟩
  · rw [laneState_laneToLock a.isLt hpat']
    split <;> decide
  · have hl20 := linkOfLane_lt hl
    have hmix : loopsMixed (laneToLock a u) l = loopsMixed (setBit s (R.cwLaneCtrl a) 27 on) l := by
      rw [loopsMixed_keeps hlock.1 (by simp only [List.mem_singleton, R.cwLaneStatus, R.cwLinkCfg]; omega)
          (fun b hb => by simp only [List.mem_singleton, R.cwLaneStatus, R.cwLaneCtrl]; omega),
        loopsMixed_keeps hmoved.1 (hcfg l hl20) (fun b hb => hout _ fun k hk => by simp only [R.cwLaneCtrl, R.cwLinkStatus]; omega)]
    rw [hmix, hlock.1.bit (by simp only [List.mem_singleton, R.cwLinkStatus, R.cwLaneStatus]; omega), hflag l hl,
      bit_setBit_ne _ _ _ _ _ _ (.inl (by simp only [R.cwLinkStatus, R.cwLaneCtrl]; omega))]
  · have hset := (LanesMoved.refl ([R.cwLaneCtrl a, R.cwLaneStatus a] ++ (linkOfLane s a).toList.map R.cwLinkStatus) s).setBit
      (x := R.cwLaneCtrl a) (by simp) 27 on
    exact (hset.1.trans (hmoved.1.mono (by simp))).trans (hlock.1.mono (by simp))

/-! ## Test commands of a lane -/

/-- A wrong bit of a checker that is locked counts. -/
theorem patternBit_wrong {a : Nat} {s : State} {b : Bool} (hgen : bit s (R.cwPrbsCtrl a) 31 = false)
    (hchk : bit s (R.cwPrbsCtrl a) 30 = true) (hloop : bit s (R.cwLaneCtrl a) 27 = false)
    (hinv : bit s (R.cwPrbsCtrl a) 27 = false) (hlock : bit s (R.cwPrbsCtrl a) 26 = true)
    (hb : b ≠ prbsNext (bits s (R.cwPrbsCtrl a) 28 2) (lane s a).checker) :
    ∃ u, keepsRegs [] s u ∧ patternBit a b s = bumpBits u (R.cwPrbsErr a) 0 32 1 := by
  have hloop' : laneLooped (setLane s a (lane s a)) a = false := hloop
  have hlane : lane (setLane s a (lane s a)) a = lane s a := by rw [lane_setLane, if_pos rfl]
  have hlock' : (reg (setLane s a (lane s a)) (R.cwPrbsCtrl a)).getLsbD 26 = true := hlock
  have hinv' : (reg (setLane s a (lane s a)) (R.cwPrbsCtrl a)).getLsbD 27 = false := hinv
  have hp : bitsOf (reg (setLane s a (lane s a)) (R.cwPrbsCtrl a)) 28 2 = bits s (R.cwPrbsCtrl a) 28 2 := rfl
  unfold patternBit
  rw [hgen]
  dsimp only
  simp only [Bool.false_eq_true, if_false, bit_setLane, hchk, if_true, hloop']
  unfold checkBit
  simp only [hlock', hinv', if_true, Bool.bne_false, hlane, hp, hb, if_false]
  exact ⟨_, (((LanesMoved.refl [] s).setLane a _).setLane a _).1, rfl⟩

theorem patternMode_enters {a : Fin 80} {s : State} (hon : blockOn s (R.cwLaneCtrl a) = true)
    (h1 : bits s (R.cwLaneCtrl a) 28 2 = 1) (hact : laneActive s a = true) (hfree : laneFree s a = true) :
    Completes (.patternMode a) s fun t =>
      laneState t a = lanePattern ∧ bit t (R.cwPrbsCtrl a) 26 = false ∧ (lane t a).checkSeen = 0 ∧
      keepsRegs [R.cwLaneStatus a, R.cwPrbsCtrl a] s t := by
  have hne : R.cwLaneStatus a ≠ R.cwPrbsCtrl a := by simp only [R.cwLaneStatus, R.cwPrbsCtrl]; omega
  refine ⟨_, congrArg Host.Outcome.next ((if_pos hon).trans (if_pos ⟨h1, hact, hfree⟩)), ?_, ?_, ?_, ?_⟩
  · rw [laneState, bits_setLane, bits_setBit_ne _ _ _ _ _ _ _ (.inl hne), setLaneState, bits_setBits _ _ _ _ _ (by omega)]
    rfl
  · rw [bit_setLane, bit_setBit _ _ _ _ (by omega)]
  · rw [lane_setLane, if_pos rfl]
  · exact ((((LanesMoved.refl _ s).setBits (by simp) 29 3 lanePattern).setBit (by simp) 26 false).setLane a _).1

theorem prbsLock_counts {a : Fin 80} {s : State} {b : Bool} (hs : laneState s a = lanePattern)
    (hgen : bit s (R.cwPrbsCtrl a) 31 = false) (hchk : bit s (R.cwPrbsCtrl a) 30 = true)
    (hloop : bit s (R.cwLaneCtrl a) 27 = false) (hinv : bit s (R.cwPrbsCtrl a) 27 = false)
    (hlock : bit s (R.cwPrbsCtrl a) 26 = true) (hb : b ≠ prbsNext (bits s (R.cwPrbsCtrl a) 28 2) (lane s a).checker) :
    Completes (.prbsLock a [b]) s fun t =>
      bits t (R.cwPrbsErr a) 0 32 = min (bits s (R.cwPrbsErr a) 0 32 + 1) (2 ^ 32 - 1) ∧
      keepsRegs [R.cwPrbsErr a] s t := by
  obtain ⟨u, hu, hrun⟩ := patternBit_wrong hgen hchk hloop hinv hlock hb
  refine ⟨_, congrArg Host.Outcome.next ((if_pos hs).trans hrun), ?_, ?_⟩
  · rw [bits_bumpBits _ _ _ _ _ (by omega), hu.bits List.not_mem_nil]
  · exact (hu.mono (List.nil_subset _)).setBits (List.mem_singleton_self _) _ _ _

theorem inject_marks {a : Fin 80} {s : State} {v : Word} (hon : blockOn s (R.cwLaneCtrl a) = true) (hv : v.getLsbD 31 = true)
    (hk : bitsOf v 29 2 = 2) (hs : laneState (writeFields (R.cwInject a) v s) a = laneOper) :
    Completes (.inject a v) s fun t => (lane t a).badCode = true ∧ keepsRegs [R.cwInject a] s t := by
  have hrun : inject_ a v s = setLane (writeFields (R.cwInject a) v s) a
      { lane (writeFields (R.cwInject a) v s) a with badCode := true } := by
    rw [inject_]
    dsimp only
    rw [if_neg (by rw [hv]; decide), if_pos hk, if_pos hs]
  refine ⟨_, congrArg Host.Outcome.next ((if_pos hon).trans hrun), ?_, ?_⟩
  · rw [lane_setLane, if_pos rfl]
  · exact fun y hy => (reg_setLane _ _ _ _).trans ((keepsRegs_refl _ s).writeFields (List.mem_singleton_self _) v y hy)

theorem correctFill_steps {a fill : Nat} (s : State) (h0 : 0 < fill) (h16 : fill < 16) :
    bits (correctFill a fill s) (R.cwLaneStatus a) 16 5 =
      (if 9 ≤ fill then fill - 1 else if fill ≤ 7 then fill + 1 else fill) ∧
    keepsRegs [R.cwLaneStatus a, R.cwLaneErr a] s (correctFill a fill s) := by
  have hne : R.cwLaneStatus a ≠ R.cwLaneErr a := by simp only [R.cwLaneStatus, R.cwLaneErr]; omega
  have hsmall : ∀ k, k ≤ 16 → k % 2 ^ 5 = k := fun k hk => Nat.mod_eq_of_lt (by omega)
  have hset : ∀ v, keepsRegs [R.cwLaneStatus a, R.cwLaneErr a] s (setBits s (R.cwLaneStatus a) 16 5 v) := fun v =>
    (keepsRegs_refl _ s).setBits (by simp) _ _ _
  rw [correctFill, if_neg (by omega)]
  by_cases h9 : 9 ≤ fill
  · rw [if_pos h9, if_pos h9, bumpBits, bits_setBits_ne _ _ _ _ _ _ _ _ (.inl hne), bits_setBits _ _ _ _ _ (by omega), hsmall _ (by omega)]
    exact ⟨rfl, (hset _).setBits (by simp) _ _ _⟩
  · rw [if_neg h9, if_neg h9]
    by_cases h7 : fill ≤ 7
    · rw [if_pos h7, if_pos h7, bumpBits, bits_setBits_ne _ _ _ _ _ _ _ _ (.inl hne), bits_setBits _ _ _ _ _ (by omega),
        hsmall _ (by omega)]
      exact ⟨rfl, (hset _).setBits (by simp) _ _ _⟩
    · rw [if_neg h7, if_neg h7, bits_setBits _ _ _ _ _ (by omega), hsmall _ (by omega)]
      exact ⟨rfl, hset _⟩

/-- A filler corrects the elastic buffer towards 8. -/
theorem filler_corrects {a : Fin 80} {s : State} {fill : Fin 17} {rx : LaneIn} (hloop : laneLooped s a = false)
    (hs : laneState s a = laneOper) (he : rx.errors = []) (h0 : 0 < fill.val) (h16 : fill.val < 16) :
    Completes (.fillerReceive ⟨a, fill, rx⟩) s fun t =>
      bits t (R.cwLaneStatus a) 16 5 =
        (if 9 ≤ fill.val then fill.val - 1 else if fill.val ≤ 7 then fill.val + 1 else fill.val) ∧
      keepsRegs [R.cwLaneStatus a, R.cwLaneErr a] s t := by
  obtain ⟨m, hm⟩ := unitArrives_frame a 1 s he
  have hs' : laneState { s with cw := { s.cw with lanes := m } } a = laneOper := hs
  have hrun : fillerReceive a fill rx s = correctFill a fill { s with cw := { s.cw with lanes := m } } := by
    rw [fillerReceive, hm]
    dsimp only
    rw [if_pos hs']
  obtain ⟨hbits, hkeeps⟩ := correctFill_steps (a := a) { s with cw := { s.cw with lanes := m } } h0 h16
  exact ⟨_, congrArg Host.Outcome.next ((receiveUnit_unlooped hloop _ _ _).trans hrun), hbits, hkeeps⟩

theorem ebSlip_leaves {a : Fin 80} {s : State} (full : Bool) (ho : laneState s a = laneOper) (hg : laneGone s a = false) :
    Completes (.cwEbSlip a full) s fun t =>
      ⟨226, a.val, false⟩ ∈ t.flt.signals ∧ laneState t a ≠ laneOper ∧ t.clusters = s.clusters := by
  have hk : keepsRegs [R.cwLaneStatus a] s (setBits s (R.cwLaneStatus a) 16 5 (if full then 16 else 0)) :=
    (keepsRegs_refl _ s).setBits (List.mem_singleton_self _) _ _ _
  have ho' : laneState (setBits s (R.cwLaneStatus a) 16 5 (if full then 16 else 0)) a = laneOper := by
    rw [← ho]
    exact bits_setBits_ne _ _ _ _ _ _ _ _ (by omega)
  obtain ⟨hst, hclu, -, hpwr, hreg⟩ := laneLeaves_oper a.isLt ho'
  have hgone : laneGone (laneLeaves a (setBits s (R.cwLaneStatus a) 16 5 (if full then 16 else 0))) a = false := by
    rw [← hg, ← laneGone_keeps hk rfl (laneRegs_cw a.isLt) a.isLt]
    unfold laneGone domainSignals domainOn domainWorks bits bit
    rw [hpwr, hreg _ (by simp only [R.pwrDomainStatus]; omega), hreg R.glbUnitPresent1 (by decide)]
  refine ⟨_, congrArg Host.Outcome.next (if_pos (.inl ho)), ?_, ?_, ?_⟩
  · rw [signals_signal (by rw [sourceGone]; simpa using hgone) (by omega) (by omega)]
    simp
  · rw [laneState, bits_signal]
    exact hst
  · rw [signal_clusters, hclu, setBits_clusters]

/-- Settles O23. -/
theorem lanesAndPatterns : Obligations.LanesAndPatterns := by
  refine ⟨fun a s h1 h2 h3 => congrArg Host.Outcome.next (if_pos ⟨h1, h2, h3⟩), fun a s inv => laneAlign_trains a s inv,
    fun a s x h1 h2 h3 h4 h5 h6 h7 => trainingSet_counts h1 h2 h3 h4 h5 h6 h7, fun a s l ho hl _ hg => ?_,
    fun a s hon ho ht => congrArg Host.Outcome.next ((if_pos hon).trans (laneLeaves_idle ho ht)),
    fun a s hoff => congrArg Host.Outcome.next (if_neg (Bool.eq_false_iff.1 hoff)),
    fun a s on h1 h2 h3 h4 h5 => loopChange_trains h1 h2 h3 h4 h5, fun a s h1 h2 h3 h4 => patternMode_enters h1 h2 h3 h4,
    fun a s b h1 h2 h3 h4 h5 h6 h7 => prbsLock_counts h1 h2 h3 h4 h5 h6 h7, fun a s v h1 h2 h3 h4 => inject_marks h1 h2 h3 h4,
    fun a s h1 h2 => congrArg Host.Outcome.next (if_pos ⟨h1, h2⟩), fun a s fill rx h1 h2 _ h4 h5 h6 => filler_corrects h1 h2 h4 h5 h6,
    fun a s full h1 h2 => ebSlip_leaves full h1 h2⟩
  obtain ⟨hsig, hdown⟩ := laneLeaves_fault ho hl hg
  obtain ⟨hst, hclu, hbanks, -, -⟩ := laneLeaves_oper a.isLt ho
  exact ⟨_, congrArg Host.Outcome.next (if_pos (.inl ho)), hsig, hdown, hst, hclu, hbanks⟩

end Sys2Proof.Machine
end

/-! # Link control -/

section
namespace Sys2Proof.Machine
set_option Elab.async false

/-! ## Lanes that train again after a configuration -/

theorem laneFree_iff {s : State} {a : Nat} :
    laneFree s a = true ↔ ∀ l, l < 20 → linkEnabled s l = true → a ∉ linkLanes s l := by
  rw [laneFree, linkOfLane, Option.isNone_iff_eq_none, List.head?_eq_none_iff, List.filter_eq_nil_iff]
  simp only [List.mem_range, Bool.and_eq_true, List.contains_iff_mem, not_and]

theorem patternHolds_iff {s : State} {a : Nat} :
    patternHolds s a = true ↔
      laneState s a = lanePattern ∧ bits s (R.cwLaneCtrl a) 28 2 = 1 ∧ laneActive s a = true ∧ laneFree s a = true := by
  simp only [patternHolds, Bool.and_eq_true, beq_iff_eq, and_assoc]

/-- Where a lane that trains again begins: LOCK when it is active, OFF when not. -/
def trainsFrom (s : State) (a : Nat) : Nat := if laneActive s a then laneLock else laneOff

theorem trainsFrom_le (s : State) (a : Nat) : trainsFrom s a ≤ laneLock := by
  unfold trainsFrom
  split <;> decide

/-- The registers that a lane or a link which trains again writes. -/
def trainRegs : List Nat :=
  (List.range 80).map R.cwLaneStatus ++ (List.range 20).map R.cwLinkStatus ++ (List.range 20).map R.cwLinkDelay

theorem mem_trainRegs {x : Nat} : x ∈ trainRegs ↔
    (∃ a, a < 80 ∧ R.cwLaneStatus a = x) ∨ (∃ l, l < 20 ∧ R.cwLinkStatus l = x) ∨ ∃ l, l < 20 ∧ R.cwLinkDelay l = x := by
  simp only [trainRegs, List.mem_append, List.mem_map, List.mem_range, or_assoc]

theorem cwLaneStatus_mem {a : Nat} (ha : a < 80) : R.cwLaneStatus a ∈ trainRegs := mem_trainRegs.2 (.inl ⟨a, ha, rfl⟩)

theorem cwLinkStatus_mem {l : Nat} (hl : l < 20) : R.cwLinkStatus l ∈ trainRegs := mem_trainRegs.2 (.inr (.inl ⟨l, hl, rfl⟩))

theorem cwLinkDelay_mem {l : Nat} (hl : l < 20) : R.cwLinkDelay l ∈ trainRegs := mem_trainRegs.2 (.inr (.inr ⟨l, hl, rfl⟩))

theorem cwLinkCfg_not_mem {l : Nat} : R.cwLinkCfg l ∉ trainRegs := by
  rw [mem_trainRegs]
  simp only [R.cwLaneStatus, R.cwLinkStatus, R.cwLinkDelay, R.cwLinkCfg]
  omega

theorem cwLaneCtrl_not_mem {a : Nat} (ha : a < 80) : R.cwLaneCtrl a ∉ trainRegs := by
  rw [mem_trainRegs]
  simp only [R.cwLaneStatus, R.cwLinkStatus, R.cwLinkDelay, R.cwLaneCtrl]
  omega

theorem trainRegs_cw : ∀ x ∈ trainRegs, 0x300000 ≤ x ∧ x < 0x400000 := by
  intro x hx
  rcases mem_trainRegs.1 hx with ⟨a, ha, rfl⟩ | ⟨l, hl, rfl⟩ | ⟨l, hl, rfl⟩
  · simp only [R.cwLaneStatus]; omega
  · simp only [R.cwLinkStatus]; omega
  · simp only [R.cwLinkDelay]; omega

/-- The step of a configuration: lanes train again, links leave UP and nothing else changes. -/
structure Retrained (s t : State) : Prop where
  moved : LinksMoved trainRegs s t
  lanes : ∀ b, b < 80 → laneState t b = laneState s b ∨ laneState t b = trainsFrom s b
  flags : ∀ m i, m < 20 → 8 ≤ i → i < 30 → bit t (R.cwLinkStatus m) i = bit s (R.cwLinkStatus m) i
  down : ∀ m, m < 20 → linkUp s m = false → linkUp t m = false

namespace Retrained
variable {s t u : State}

theorem refl (s : State) : Retrained s s := ⟨.refl _ s, fun _ _ => .inl rfl, fun _ _ _ _ _ => rfl, fun _ _ h => h⟩

theorem active (h : Retrained s t) {a : Nat} (ha : a < 80) : laneActive t a = laneActive s a :=
  laneActive_keeps h.moved.1 (by rw [h.moved.2]) trainRegs_cw ha (cwLaneCtrl_not_mem ha)

theorem trainsFrom (h : Retrained s t) {a : Nat} (ha : a < 80) : trainsFrom t a = trainsFrom s a := by
  rw [Machine.trainsFrom, h.active ha, Machine.trainsFrom]

theorem trans (h : Retrained s t) (h' : Retrained t u) : Retrained s u where
  moved := h.moved.trans h'.moved
  lanes b hb := by
    rcases h'.lanes b hb with e | e
    · rw [e]; exact h.lanes b hb
    · exact .inr (e.trans (h.trainsFrom hb))
  flags m i hm h8 h30 := (h'.flags m i hm h8 h30).trans (h.flags m i hm h8 h30)
  down m hm hd := h'.down m hm (h.down m hm hd)

theorem linkLanes (h : Retrained s t) (l : Nat) : linkLanes t l = linkLanes s l := linkLanes_keeps h.moved.1 cwLinkCfg_not_mem

theorem free (h : Retrained s t) (a : Nat) : laneFree t a = laneFree s a :=
  laneFree_keeps h.moved.1 (fun _ _ => cwLinkCfg_not_mem) a

/-- A lane that pattern mode does not hold is not held by it later. -/
theorem not_held (h : Retrained s t) {a : Nat} (ha : a < 80) (hp : patternHolds s a = false) : patternHolds t a = false := by
  rw [Bool.eq_false_iff] at hp ⊢
  refine fun hh => hp (patternHolds_iff.2 ?_)
  obtain ⟨hst, hctrl, hact, hfree⟩ := patternHolds_iff.1 hh
  refine ⟨?_, (h.moved.1.bits (cwLaneCtrl_not_mem ha) _ _).symm.trans hctrl, (h.active ha).symm.trans hact,
    (h.free a).symm.trans hfree⟩
  rcases h.lanes a ha with e | e
  · rw [← e, hst]
  · have := trainsFrom_le s a
    rw [← e, hst] at this
    exact absurd this (by decide)

theorem foldl {f : State → Nat → State} {P : Nat → Prop} (h : ∀ s a, P a → Retrained s (f s a)) (as : List Nat)
    (has : ∀ a ∈ as, P a) (s : State) : Retrained s (as.foldl f s) := by
  induction as generalizing s with
  | nil => exact refl s
  | cons a as ih =>
    exact (h s a (has a List.mem_cons_self)).trans (ih (fun b hb => has b (List.mem_cons_of_mem _ hb)) _)

/-- Every lane that a fold reaches trains again, when each of its steps does so. -/
theorem foldl_reaches {f : State → Nat → State} (h : ∀ s a, a < 80 → Retrained s (f s a))
    (hf : ∀ s a, a < 80 → patternHolds s a = false → laneState (f s a) a = Machine.trainsFrom s a) (as : List Nat)
    (has : ∀ a ∈ as, a < 80) (s : State) {a : Nat} (ha : a ∈ as) (hp : patternHolds s a = false) :
    laneState (as.foldl f s) a = Machine.trainsFrom s a := by
  induction as generalizing s with
  | nil => cases ha
  | cons b as ih =>
    have hb := has b List.mem_cons_self
    have has' : ∀ c ∈ as, c < 80 := fun c hc => has c (List.mem_cons_of_mem _ hc)
    have ha80 := has a ha
    rw [List.foldl_cons]
    by_cases hmem : a ∈ as
    · rw [ih has' _ hmem ((h s b hb).not_held ha80 hp), (h s b hb).trainsFrom ha80]
    · obtain rfl : a = b := (List.mem_cons.1 ha).resolve_right hmem
      rcases (foldl h as has' (f s a)).lanes a ha80 with e | e
      · rw [e, hf s a ha80 hp]
      · rw [e, (h s a ha80).trainsFrom ha80]

end Retrained

theorem laneToLock_retrained {a : Nat} (ha : a < 80) (s : State) : Retrained s (laneToLock a s) where
  moved := (LinksMoved.of_lanes (laneToLock_moved a s)).mono (by simpa using cwLaneStatus_mem ha)
  lanes b _ := by
    by_cases hb : b = a
    · subst hb
      by_cases hp : patternHolds s b = true
      · rw [laneToLock, if_pos hp]
        exact .inl rfl
      · exact .inr (laneState_laneToLock ha (Bool.eq_false_iff.2 hp))
    · exact .inl (laneState_laneToLock_ne hb s)
  flags m i hm _ _ := (laneToLock_moved a s).1.bit (by simp only [List.mem_singleton, R.cwLaneStatus, R.cwLinkStatus]; omega) i
  down m hm h := by
    rw [linkUp_keeps (laneToLock_moved a s).1 (by simp only [List.mem_singleton, R.cwLaneStatus, R.cwLinkStatus]; omega), h]

/-- The mark of a lane that leaves OPER. -/
theorem leftOper_retrained {a : Nat} (ha : a < 80) (s : State) :
    Retrained s (if laneState s a = laneOper then setBit s (R.cwLaneStatus a) 25 true else s) := by
  split
  · have hk := (LanesMoved.refl [R.cwLaneStatus a] s).setBit (List.mem_singleton_self _) 25 true
    refine ⟨(LinksMoved.of_lanes hk).mono (by simpa using cwLaneStatus_mem ha), fun b hb => .inl ?_, fun m i hm _ _ => ?_, fun m hm h => ?_⟩
    · rw [laneState, bits_setBit_ne _ _ _ _ _ _ _ (by omega), laneState]
    · exact hk.1.bit (by simp only [List.mem_singleton, R.cwLaneStatus, R.cwLinkStatus]; omega) i
    · rw [linkUp_keeps hk.1 (by simp only [List.mem_singleton, R.cwLaneStatus, R.cwLinkStatus]; omega), h]
  · exact .refl s

theorem laneRetrains_retrained {a : Nat} (ha : a < 80) (s : State) : Retrained s (laneRetrains s a) :=
  (leftOper_retrained ha s).trans (laneToLock_retrained ha _)

theorem laneRetrains_state {a : Nat} (ha : a < 80) {s : State} (hp : patternHolds s a = false) :
    laneState (laneRetrains s a) a = trainsFrom s a :=
  (laneState_laneToLock ha ((leftOper_retrained ha s).not_held ha hp)).trans ((leftOper_retrained ha s).trainsFrom ha)

theorem linkLeavesUp_retrained {l : Nat} (hl : l < 20) (s : State) : Retrained s (linkLeavesUp l s) := by
  have hm := linkLeavesUp_moved l s
  have hflags : ∀ m i, m < 20 → 8 ≤ i → i < 30 ∨ m ≠ l →
      bit (linkLeavesUp l s) (R.cwLinkStatus m) i = bit s (R.cwLinkStatus m) i := by
    intro m i hm h8 h30
    by_cases hml : m = l
    · subst hml
      have hne : R.cwLinkStatus m ≠ R.cwLinkDelay m := by simp only [R.cwLinkStatus, R.cwLinkDelay]; omega
      have h30 : i < 30 := h30.resolve_right (by simp)
      have hset : bit (setBit (setBit (setBit s (R.cwLinkStatus m) 31 false) (R.cwLinkStatus m) 30 false)
          (R.cwLinkDelay m) 31 false) (R.cwLinkStatus m) i = bit s (R.cwLinkStatus m) i := by
        rw [bit_setBit_ne _ _ _ _ _ _ (.inl hne), bit_setBit_ne _ _ _ _ _ _ (.inr (by omega)),
          bit_setBit_ne _ _ _ _ _ _ (.inr (by omega))]
      unfold linkLeavesUp
      dsimp only
      split
      · rw [(timeLinkDown_moved m _).1.bit List.not_mem_nil, bumpBits, bit_setBits_ne _ _ _ _ _ _ _ (by omega), bit_setLink, hset]
      · rw [bit_setLink, hset]
    · refine (linkLeavesUp_moved l s).1.bit ?_ i
      simp only [List.mem_cons, List.not_mem_nil, or_false, R.cwLinkStatus, R.cwLinkDelay]
      omega
  refine ⟨hm.mono ?_, fun b hb => .inl (laneState_keeps hm.1 ?_), fun m i hm h8 h30 => hflags m i hm h8 (.inl h30), fun m hm h => ?_⟩
  · simpa using ⟨cwLinkStatus_mem hl, cwLinkDelay_mem hl⟩
  · simp only [List.mem_cons, List.not_mem_nil, or_false, R.cwLaneStatus, R.cwLinkStatus, R.cwLinkDelay]
    omega
  · by_cases hml : m = l
    · rw [hml]
      exact (linkLeavesUp_down l s).1
    · exact (hflags m 31 hm (by omega) (.inr hml)).trans h

theorem linkToLock_retrained {l : Nat} (hl : l < 20) (s : State) : Retrained s (linkToLock l s) := by
  rw [linkToLock_eq]
  exact (Retrained.foldl (fun s a ha => laneRetrains_retrained ha s) _ (fun a ha => linkLanes_lt ha) s).trans
    (linkLeavesUp_retrained hl _)

theorem laneTrains_retrained {a : Nat} (ha : a < 80) (s : State) : Retrained s (laneTrains a s) := by
  unfold laneTrains
  split
  · next l hl =>
    split
    · exact linkToLock_retrained (linkOfLane_lt hl) s
    · exact laneToLock_retrained ha s
  · exact laneToLock_retrained ha s

theorem laneTrains_state {a : Nat} (ha : a < 80) {s : State} (hp : patternHolds s a = false) :
    laneState (laneTrains a s) a = trainsFrom s a := by
  unfold laneTrains
  split
  · next l hl =>
    split
    · rw [linkToLock_eq, laneState_keeps (linkLeavesUp_moved l _).1]
      · exact Retrained.foldl_reaches (fun s a ha => laneRetrains_retrained ha s) (fun s a ha hp => laneRetrains_state ha hp) _
          (fun b hb => linkLanes_lt hb) s (linkOfLane_mem hl).2 hp
      · have := linkOfLane_lt hl
        simp only [List.mem_cons, List.not_mem_nil, or_false, R.cwLaneStatus, R.cwLinkStatus, R.cwLinkDelay]
        omega
    · exact laneState_laneToLock ha hp
  · exact laneState_laneToLock ha hp

theorem checkLoops_moved (l : Nat) (s : State) :
    LanesMoved [R.cwLinkStatus l] s (checkLoops l s) ∧
    bit (checkLoops l s) (R.cwLinkStatus l) 28 = (bit s (R.cwLinkStatus l) 28 || (linkEnabled s l && loopsMixed s l)) ∧
    ∀ i, i ≠ 28 → bit (checkLoops l s) (R.cwLinkStatus l) i = bit s (R.cwLinkStatus l) i := by
  unfold checkLoops
  split
  · next h =>
    refine ⟨(LanesMoved.refl _ s).setBit (List.mem_singleton_self _) 28 true, ?_, fun i hi => bit_setBit_ne _ _ _ _ _ _ (.inr hi)⟩
    rw [bit_setBit _ _ _ _ (by omega), h.1, h.2, Bool.and_self, Bool.or_true]
  · next h =>
    refine ⟨LanesMoved.refl _ s, ?_, fun _ _ => rfl⟩
    have : (linkEnabled s l && loopsMixed s l) = false := by
      rw [Bool.and_eq_false_iff, ← Bool.not_eq_true, ← Bool.not_eq_true]
      exact not_and_or.1 h
    rw [this, Bool.or_false]

/-! ## Configuration of a link -/

/-- The register CW_LINK_CFG as a configuration stores it. -/
def storedConfig (v : Word) (enable : Bool) : Word :=
  withBit (writtenWord ⟨0, [], 0, 0xFFF00000, 0, 0, 0, 0⟩ 0 v) 31 enable

theorem storedConfig_enable (v : Word) (b : Bool) : (storedConfig v b).getLsbD 31 = b := by
  rw [storedConfig, withBit, getLsbD_withBits, if_pos (by omega)]
  cases b <;> rfl

theorem storedConfig_fields (v : Word) (b : Bool) {lo n : Nat} (hlo : 20 ≤ lo) (hn : lo + n ≤ 31) :
    bitsOf (storedConfig v b) lo n = bitsOf v lo n := by
  rw [storedConfig, withBit, bitsOf_withBits_ne _ _ _ _ _ _ (by omega)]
  refine Nat.eq_of_testBit_eq fun i => ?_
  rw [testBit_bitsOf, testBit_bitsOf]
  by_cases hi : i < n
  · have hmask : ∀ k : Fin 32, 20 ≤ k.val → (0xFFF00000#32).getLsbD k = true ∧ (0xFFFFFFFF#32).getLsbD k = true := by decide
    obtain ⟨h1, h2⟩ := hmask ⟨lo + i, by omega⟩ (by simp; omega)
    simp only at h1 h2
    simp [writtenWord, h1, h2]
  · simp [hi]

/-- The link with its lanes and the fields that a configuration stores, before the new lanes train. -/
def configured (l : Nat) (v : Word) (accepted : Bool) (s : State) : State :=
  let s := setReg s (R.cwLinkCfg l) (storedConfig v (v.getLsbD 31 && accepted))
  let s := if accepted then s else signal 223 l (setBit s (R.cwLinkStatus l) 29 true)
  checkLoops l (setBit s (R.cwLinkStatus l) 28 false)

/-- The link out of UP and its lanes in training, before a configuration is stored. -/
def released (l : Nat) (s : State) : State := linkLeavesUp l ((linkLanes s l).foldl (fun acc a => laneTrains a acc) s)

theorem linkConfig_eq {l : Nat} {v : Word} {s : State} (hh : allHold s = true) (hld : loadInProgress s = false) :
    linkConfig l v s =
      (linkLanes (configured l v (!v.getLsbD 31 || linkConfigOk s l v) (released l s)) l).foldl (fun acc a => laneTrains a acc)
        (configured l v (!v.getLsbD 31 || linkConfigOk s l v) (released l s)) := by
  rw [linkConfig, if_neg (by rw [hh, hld]; decide)]
  rfl

theorem lanesTrain_retrained (as : List Nat) (h : ∀ a ∈ as, a < 80) (s : State) :
    Retrained s (as.foldl (fun acc a => laneTrains a acc) s) :=
  Retrained.foldl (fun s _ ha => laneTrains_retrained ha s) as h s

theorem released_retrained {l : Nat} (hl : l < 20) (s : State) : Retrained s (released l s) :=
  (lanesTrain_retrained _ (fun _ ha => linkLanes_lt ha) s).trans (linkLeavesUp_retrained hl _)

/-- What a stored configuration leaves. -/
structure Configured (l : Nat) (v : Word) (accepted : Bool) (s t : State) : Prop where
  keeps : keepsRegs [R.cwLinkCfg l, R.cwLinkStatus l] s t
  clusters : t.clusters = s.clusters
  die : t.die = s.die
  enabled : linkEnabled t l = (v.getLsbD 31 && accepted)
  fields : ∀ lo n, 20 ≤ lo → lo + n ≤ 31 → bits t (R.cwLinkCfg l) lo n = bitsOf v lo n
  up : linkUp t l = linkUp s l
  mixed : bit t (R.cwLinkStatus l) 28 = (linkEnabled t l && loopsMixed t l)
  refused : accepted = false → bit t (R.cwLinkStatus l) 29 = true ∧ ⟨223, l, false⟩ ∈ t.flt.signals

/-- The configuration stored, with the error of a refused one, before the loops are checked. -/
def storedIn (l : Nat) (v : Word) (accepted : Bool) (s : State) : State :=
  if accepted then setReg s (R.cwLinkCfg l) (storedConfig v (v.getLsbD 31 && accepted))
  else signal 223 l (setBit (setReg s (R.cwLinkCfg l) (storedConfig v (v.getLsbD 31 && accepted))) (R.cwLinkStatus l) 29 true)

theorem storedIn_facts {l : Nat} (hl : l < 20) (v : Word) (accepted : Bool) (s : State) :
    keepsRegs [R.cwLinkCfg l, R.cwLinkStatus l] s (storedIn l v accepted s) ∧
    (storedIn l v accepted s).clusters = s.clusters ∧ (storedIn l v accepted s).die = s.die ∧
    reg (storedIn l v accepted s) (R.cwLinkCfg l) = storedConfig v (v.getLsbD 31 && accepted) ∧
    (∀ i, i ≠ 29 → bit (storedIn l v accepted s) (R.cwLinkStatus l) i = bit s (R.cwLinkStatus l) i) ∧
    (accepted = false → bit (storedIn l v accepted s) (R.cwLinkStatus l) 29 = true ∧
      ⟨223, l, false⟩ ∈ (storedIn l v accepted s).flt.signals) := by
  have hne : R.cwLinkStatus l ≠ R.cwLinkCfg l := by simp only [R.cwLinkStatus, R.cwLinkCfg]; omega
  have hk : keepsRegs [R.cwLinkCfg l, R.cwLinkStatus l] s
      (setReg s (R.cwLinkCfg l) (storedConfig v (v.getLsbD 31 && accepted))) := (keepsRegs_refl _ s).setReg (by simp) _
  cases accepted with
  | true => exact ⟨hk, rfl, rfl, (reg_setReg ..).trans (if_pos rfl), fun i _ => bit_setReg_ne _ _ _ _ _ hne, fun h => by cases h⟩
  | false =>
    refine ⟨(hk.setBit (by simp) 29 true).signal 223 l, (signal_clusters 223 l _).trans rfl, (signal_die 223 l _).trans rfl, ?_, fun i hi => ?_, fun _ => ⟨?_, ?_⟩⟩
    · rw [storedIn, if_neg (by decide), reg_signal, setBit, reg_setBits_ne _ _ _ _ _ _ hne.symm, reg_setReg, if_pos rfl]
    · rw [storedIn, if_neg (by decide), bit_signal, bit_setBit_ne _ _ _ _ _ _ (.inr hi), bit_setReg_ne _ _ _ _ _ hne]
    · rw [storedIn, if_neg (by decide), bit_signal, bit_setBit _ _ _ _ (by omega)]
    · rw [storedIn, if_neg (by decide), signals_signal (by simp [sourceGone]) (by omega) (by omega)]
      simp

theorem configured_eq (l : Nat) (v : Word) (accepted : Bool) (s : State) :
    configured l v accepted s = checkLoops l (setBit (storedIn l v accepted s) (R.cwLinkStatus l) 28 false) := rfl

theorem configured_facts {l : Nat} (hl : l < 20) (v : Word) (accepted : Bool) (s : State) :
    Configured l v accepted s (configured l v accepted s) := by
  obtain ⟨hk, hclu, hdie, hcfg, hbit, href⟩ := storedIn_facts hl v accepted s
  have hne : R.cwLinkCfg l ∉ [R.cwLinkStatus l] := by simp only [List.mem_singleton, R.cwLinkStatus, R.cwLinkCfg]; omega
  have hset : keepsRegs [R.cwLinkStatus l] (storedIn l v accepted s) (setBit (storedIn l v accepted s) (R.cwLinkStatus l) 28 false) :=
    (keepsRegs_refl _ _).setBit (List.mem_singleton_self _) 28 false
  obtain ⟨hm, hmix, hother⟩ := checkLoops_moved l (setBit (storedIn l v accepted s) (R.cwLinkStatus l) 28 false)
  rw [configured_eq]
  have hreg : reg (checkLoops l (setBit (storedIn l v accepted s) (R.cwLinkStatus l) 28 false)) (R.cwLinkCfg l) =
      storedConfig v (v.getLsbD 31 && accepted) := by rw [hm.1 _ hne, hset _ hne, hcfg]
  have hen := linkEnabled_keeps hm.1 hne
  refine ⟨hk.trans ((hset.trans hm.1).mono (by simp)), ?_, ?_, ?_, fun lo n h1 h2 => ?_, ?_, ?_, fun h => ⟨?_, ?_⟩⟩
  · rw [hm.2]; exact hclu
  · rw [hm.2]; exact hdie
  · rw [linkEnabled, bit, hreg, storedConfig_enable]
  · rw [bits, hreg, storedConfig_fields _ _ h1 h2]
  · rw [linkUp, hother 31 (by omega), bit_setBit_ne _ _ _ _ _ _ (.inr (by omega)), hbit 31 (by omega), linkUp]
  · have hctrl : ∀ a, a < 80 → R.cwLaneCtrl a ∉ [R.cwLinkStatus l] := fun a ha => by
      simp only [List.mem_singleton, R.cwLinkStatus, R.cwLaneCtrl]; omega
    rw [hmix, hen, loopsMixed_keeps hm.1 hne hctrl, bit_setBit _ _ _ _ (by omega), Bool.false_or]
  · rw [hother 29 (by omega), bit_setBit_ne _ _ _ _ _ _ (.inr (by omega)), (href h).1]
  · rw [hm.2]
    exact (href h).2

/-- A lane keeps its state through the storing of a configuration. -/
theorem Configured.lane {l : Nat} (hl : l < 20) {v : Word} {accepted : Bool} {s t : State} (h : Configured l v accepted s t) {a : Nat}
    (ha : a < 80) : laneState t a = laneState s a ∧ laneActive t a = laneActive s a ∧
    bits t (R.cwLaneCtrl a) 28 2 = bits s (R.cwLaneCtrl a) 28 2 := by
  have hout : ∀ x, x ≠ R.cwLinkCfg l → x ≠ R.cwLinkStatus l → x ∉ [R.cwLinkCfg l, R.cwLinkStatus l] := by simp; tauto
  have hcw : ∀ x ∈ [R.cwLinkCfg l, R.cwLinkStatus l], 0x300000 ≤ x ∧ x < 0x400000 := by
    simp only [List.mem_cons, List.not_mem_nil, or_false, forall_eq_or_imp, forall_eq, R.cwLinkCfg, R.cwLinkStatus]
    omega
  have hctrl : R.cwLaneCtrl a ∉ [R.cwLinkCfg l, R.cwLinkStatus l] :=
    hout _ (by simp only [R.cwLaneCtrl, R.cwLinkCfg]; omega) (by simp only [R.cwLaneCtrl, R.cwLinkStatus]; omega)
  refine ⟨laneState_keeps h.keeps (hout _ ?_ ?_), laneActive_keeps h.keeps h.die hcw ha hctrl, h.keeps.bits hctrl _ _⟩
  · simp only [R.cwLaneStatus, R.cwLinkCfg]; omega
  · simp only [R.cwLaneStatus, R.cwLinkStatus]; omega

/-- A lane outside the old configuration of a link was free when it is free after the new one. -/
theorem Configured.free {l : Nat} {v : Word} {accepted : Bool} {s t : State} (h : Configured l v accepted s t) {a : Nat}
    (hfree : laneFree t a = true) (hmem : a ∉ linkLanes s l) : laneFree s a = true := by
  refine laneFree_iff.2 fun m hm hen => ?_
  by_cases hml : m = l
  · rw [hml]
    exact hmem
  · have hout : R.cwLinkCfg m ∉ [R.cwLinkCfg l, R.cwLinkStatus l] := by
      simp only [List.mem_cons, List.not_mem_nil, or_false, R.cwLinkCfg, R.cwLinkStatus]
      omega
    rw [← linkEnabled_keeps h.keeps hout] at hen
    rw [← linkLanes_keeps h.keeps hout]
    exact laneFree_iff.1 hfree m hm hen

/-- A configuration that is not locked. -/
theorem linkConfig_trains {l : Fin 20} {v : Word} {s : State} (hh : allHold s = true) (hld : loadInProgress s = false)
    (hv : v.getLsbD 31 = true) :
    Completes (.linkConfig l v) s fun t =>
      linkEnabled t l = linkConfigOk s l v ∧ bits t (R.cwLinkCfg l) 24 7 = bitsOf v 24 7 ∧
      bits t (R.cwLinkCfg l) 20 4 = bitsOf v 20 4 ∧ linkUp t l = false ∧
      bit t (R.cwLinkStatus l) 28 = (linkEnabled t l && loopsMixed t l) ∧
      (linkConfigOk s l v = false → bit t (R.cwLinkStatus l) 29 = true ∧ ⟨223, l.val, false⟩ ∈ t.flt.signals) ∧
      (∀ a, a ∈ linkLanes s l → patternHolds s a = false → laneState t a = trainsFrom s a) ∧
      (∀ a, a ∈ linkLanes t l → (linkEnabled t l = true ∨ patternHolds s a = false) → laneState t a = trainsFrom s a) ∧
      t.clusters = s.clusters := by
  refine ⟨_, congrArg Host.Outcome.next (linkConfig_eq hh hld), ?_⟩
  rw [hv, Bool.not_true, Bool.false_or]
  have hu := released_retrained l.isLt s
  have hc := configured_facts l.isLt v (linkConfigOk s l v) (released l s)
  generalize hw : configured l v (linkConfigOk s l v) (released l s) = w at hc ⊢
  have ht := lanesTrain_retrained (linkLanes w l) (fun a ha => linkLanes_lt ha) w
  have hreach := fun a ha hp => Retrained.foldl_reaches (fun s a ha => laneTrains_retrained ha s) (fun s a ha hp => laneTrains_state ha hp)
    (linkLanes w l) (fun a ha => linkLanes_lt ha) w (a := a) ha hp
  generalize (linkLanes w l).foldl (fun acc a => laneTrains a acc) w = t at ht hreach ⊢
  have hen : linkEnabled t l = linkConfigOk s l v := by
    rw [linkEnabled_keeps ht.moved.1 cwLinkCfg_not_mem, hc.enabled, hv, Bool.true_and]
  have htrain : ∀ a, a < 80 → trainsFrom w a = trainsFrom s a := fun a ha => by
    rw [trainsFrom, (hc.lane l.isLt ha).2.1, ← trainsFrom, hu.trainsFrom ha]
  have hold : ∀ a, a ∈ linkLanes s l → patternHolds s a = false → laneState w a = trainsFrom s a := by
    intro a ha hp
    have ha80 := linkLanes_lt ha
    have hfold := lanesTrain_retrained (linkLanes s l) (fun a ha => linkLanes_lt ha) s
    have hstate := Retrained.foldl_reaches (fun s a ha => laneTrains_retrained ha s) (fun s a ha hp => laneTrains_state ha hp)
      (linkLanes s l) (fun a ha => linkLanes_lt ha) s ha hp
    rw [(hc.lane l.isLt ha80).1]
    rcases (linkLeavesUp_retrained l.isLt ((linkLanes s l).foldl (fun acc a => laneTrains a acc) s)).lanes a ha80 with e | e
    · exact e.trans hstate
    · exact e.trans (hfold.trainsFrom ha80)
  refine ⟨hen, ?_, ?_, ?_, ?_, fun h => ⟨?_, ?_⟩, fun a ha hp => ?_, fun a ha hp => ?_, ?_⟩
  · rw [ht.moved.1.bits cwLinkCfg_not_mem, hc.fields 24 7 (by omega) (by omega)]
  · rw [ht.moved.1.bits cwLinkCfg_not_mem, hc.fields 20 4 (by omega) (by omega)]
  · refine ht.down l l.isLt (hc.up.trans (linkLeavesUp_down _ _).1)
  · rw [ht.flags l 28 l.isLt (by omega) (by omega), hc.mixed, linkEnabled_keeps ht.moved.1 cwLinkCfg_not_mem,
      loopsMixed_keeps ht.moved.1 cwLinkCfg_not_mem fun a ha => cwLaneCtrl_not_mem ha]
  · rw [ht.flags l 29 l.isLt (by omega) (by omega), (hc.refused h).1]
  · rw [ht.moved.2]
    exact (hc.refused h).2
  · have ha80 := linkLanes_lt ha
    rcases ht.lanes a ha80 with e | e
    · rw [e, hold a ha hp]
    · rw [e, htrain a ha80]
  · rw [ht.linkLanes] at ha
    have ha80 := linkLanes_lt ha
    refine (hreach a ha (Bool.eq_false_iff.2 fun hheld => ?_)).trans (htrain a ha80)
    obtain ⟨hst, hctrl, hact, hfree⟩ := patternHolds_iff.1 hheld
    rcases hp with hp | hp
    · rw [linkEnabled_keeps ht.moved.1 cwLinkCfg_not_mem] at hp
      exact laneFree_iff.1 hfree l l.isLt hp ha
    · by_cases hmem : a ∈ linkLanes s l
      · have hle := trainsFrom_le s a
        rw [← hold a hmem hp, hst] at hle
        exact absurd hle (by decide)
      · obtain ⟨hst', hact', hctrl'⟩ := hc.lane l.isLt ha80
        have hbefore : patternHolds (released l s) a = true := patternHolds_iff.2
          ⟨hst'.symm.trans hst, hctrl'.symm.trans hctrl, hact'.symm.trans hact, hc.free hfree (by rwa [hu.linkLanes])⟩
        rw [hu.not_held ha80 hp] at hbefore
        cases hbefore
  · rw [ht.moved.2, show w.clusters = _ from hc.clusters, hu.moved.2]

end Sys2Proof.Machine
end

/-! # Alignment, delay and resends of a link -/

section
namespace Sys2Proof.Machine
set_option Elab.async false

/-! ## Alignment markers -/

theorem foldl_max_spec (l : List Nat) (a : Nat) :
    a ≤ l.foldl max a ∧ (∀ x ∈ l, x ≤ l.foldl max a) ∧ (l.foldl max a = a ∨ l.foldl max a ∈ l) := by
  induction l generalizing a with
  | nil => simp
  | cons y l ih =>
    obtain ⟨h1, h2, h3⟩ := ih (max a y)
    refine ⟨(le_max_left a y).trans h1, fun x hx => ?_, ?_⟩
    · rcases List.mem_cons.1 hx with rfl | hx
      · exact (le_max_right a x).trans h1
      · exact h2 x hx
    · rcases h3 with h3 | h3
      · rcases max_choice a y with h | h
        · exact .inl (h3.trans h)
        · exact .inr (by rw [List.foldl_cons, h3, h]; exact List.mem_cons_self)
      · exact .inr (List.mem_cons_of_mem _ h3)

theorem foldl_min_spec (l : List Nat) (a : Nat) :
    l.foldl min a ≤ a ∧ (∀ x ∈ l, l.foldl min a ≤ x) ∧ (l.foldl min a = a ∨ l.foldl min a ∈ l) := by
  induction l generalizing a with
  | nil => simp
  | cons y l ih =>
    obtain ⟨h1, h2, h3⟩ := ih (min a y)
    refine ⟨h1.trans (min_le_left a y), fun x hx => ?_, ?_⟩
    · rcases List.mem_cons.1 hx with rfl | hx
      · exact h1.trans (min_le_right a x)
      · exact h2 x hx
    · rcases h3 with h3 | h3
      · rcases min_choice a y with h | h
        · exact .inl (h3.trans h)
        · exact .inr (by rw [List.foldl_cons, h3, h]; exact List.mem_cons_self)
      · exact .inr (List.mem_cons_of_mem _ h3)

theorem markers_due {as : List Nat} {s : State} (h : ∀ a ∈ as, laneState s a = laneOper) :
    (∀ b, lane (as.foldl (fun acc a => if laneState acc a = laneOper then setLane acc a { lane acc a with markerDue := true } else acc) s) b =
      if b ∈ as then { lane s b with markerDue := true } else lane s b) ∧
    (as.foldl (fun acc a => if laneState acc a = laneOper then setLane acc a { lane acc a with markerDue := true } else acc) s).regs =
      s.regs := by
  induction as generalizing s with
  | nil => exact ⟨fun b => by simp, rfl⟩
  | cons a as ih =>
    obtain ⟨hl, hr⟩ := ih (s := setLane s a { lane s a with markerDue := true }) fun b hb => h b (List.mem_cons_of_mem _ hb)
    rw [List.foldl_cons, if_pos (h a List.mem_cons_self)]
    refine ⟨fun b => ?_, hr⟩
    rw [hl, lane_setLane]
    by_cases hba : b = a
    · subst hba
      by_cases hm : b ∈ as <;> simp [hm]
    · simp [hba]

theorem linkLanes_nodup (s : State) (l : Nat) : (linkLanes s l).Nodup := by
  refine List.Nodup.filter _ (List.Nodup.map (fun a b h => ?_) List.nodup_range)
  simpa using h

/-- The markers that come in on every lane of a link, none of them looped, damaged or with code errors. -/
structure MarkersIn (l : Nat) (s : State) (ms : List MarkerIn) : Prop where
  enabled : linkEnabled s l = true
  lanes : (ms.map fun m => m.lane.val).Perm (linkLanes s l)
  whole : ∀ m ∈ ms, laneState s m.lane = laneOper ∧ laneLooped s m.lane = false ∧ takenAlong s m.lane = false ∧
      m.rx.errors = [] ∧ m.crcOk = true ∧ m.width = linkWidth s l
  indices : indicesOk (linkWidth s l) (ms.map (·.index)) = true

theorem markerArrives_moved {m : MarkerIn} {s : State} (hs : laneLooped s m.lane = false) (he : m.rx.errors = [])
    (hc : m.crcOk = true) : LanesMoved [] s (markerArrives m s) := by
  obtain ⟨k, hk⟩ := unitArrives_frame m.lane.val 4 s he
  have hcrc : ¬ (¬ m.crcOk = true ∧ ¬ unitHit m.rx = true ∧ laneHears (unitArrives m.lane.val 4 m.rx s) m.lane.val = true) := by
    rw [hc]
    simp
  unfold markerArrives
  rw [hs, if_neg Bool.false_ne_true]
  dsimp only
  rw [if_neg hcrc, hk]
  exact ⟨fun _ _ => rfl, rfl⟩

theorem markersArrive_moved {ms : List MarkerIn} {s : State}
    (h : ∀ m ∈ ms, laneLooped s m.lane = false ∧ m.rx.errors = [] ∧ m.crcOk = true) :
    LanesMoved [] s (ms.foldl (fun acc m => markerArrives m acc) s) := by
  induction ms generalizing s with
  | nil => exact .refl _ s
  | cons m ms ih =>
    obtain ⟨h1, h2, h3⟩ := h m List.mem_cons_self
    have hm := markerArrives_moved h1 h2 h3
    refine hm.trans (ih fun k hk => ?_)
    obtain ⟨k1, k2⟩ := h k (List.mem_cons_of_mem _ hk)
    exact ⟨(laneLooped_keeps hm.1 List.not_mem_nil).trans k1, k2⟩

theorem loopsMixed_unlooped {s : State} {l : Nat} (h : ∀ a ∈ linkLanes s l, laneLooped s a = false) : loopsMixed s l = false := by
  have : (linkLanes s l).map (laneLooped s) = (linkLanes s l).map fun _ => false := List.map_congr_left h
  rw [loopsMixed, this]
  simp

/-- Markers on every lane come to the alignment of the link. -/
theorem markerReceive_aligns {l : Nat} {s : State} {ms : List MarkerIn} (h : MarkersIn l s ms) :
    ∃ u, LanesMoved [] s u ∧ markerReceive l ms s = deskew l ms u := by
  have hseen : ms.filterMap (seenMarker s) = ms := by
    rw [List.filterMap_congr (g := some) fun m hm => ?_, List.filterMap_some]
    rw [seenMarker, (h.whole m hm).2.1, if_neg Bool.false_ne_true]
  have hm := markersArrive_moved (s := s) fun m hm => ⟨(h.whole m hm).2.1, (h.whole m hm).2.2.2.1, (h.whole m hm).2.2.2.2.1⟩
  have hlane : ∀ m ∈ ms, m.lane.val ∈ linkLanes s l := fun m hm => h.lanes.subset (List.mem_map_of_mem hm)
  have hmarker : ∀ a ∈ linkLanes s l, ∃ m ∈ ms, m.lane.val = a := fun a ha => List.mem_map.1 (h.lanes.symm.subset ha)
  have hgood : ms.filter (fun m => m.crcOk && !unitHit m.rx && (linkLanes s l).contains m.lane.val) = ms := by
    refine List.filter_eq_self.2 fun m hm => ?_
    obtain ⟨-, -, -, he, hc, -⟩ := h.whole m hm
    simp [hc, unitHit, he, hlane m hm]
  have hlen : ms.length = (linkLanes s l).length := by rw [← h.lanes.length_eq, List.length_map]
  refine ⟨_, hm, ?_⟩
  unfold markerReceive
  rw [hseen]
  dsimp only
  rw [hgood]
  generalize ms.foldl (fun acc m => markerArrives m acc) s = u at hm ⊢
  have hoper : ((linkLanes s l).all fun a => laneState u a == laneOper) = true := by
    simp only [List.all_eq_true, beq_iff_eq]
    intro a ha
    obtain ⟨m, hmem, rfl⟩ := hmarker a ha
    exact (laneState_keeps hm.1 List.not_mem_nil).trans (h.whole m hmem).1
  have hwidth : (ms.all fun m => m.width == linkWidth u l) = true := by
    simp only [List.all_eq_true, beq_iff_eq]
    exact fun m hmem => (h.whole m hmem).2.2.2.2.2.trans (linkWidth_keeps hm.1 List.not_mem_nil).symm
  have hmix : loopsMixed u l = false := by
    rw [loopsMixed_keeps hm.1 List.not_mem_nil fun a _ => List.not_mem_nil]
    refine loopsMixed_unlooped fun a ha => ?_
    obtain ⟨m, hmem, rfl⟩ := hmarker a ha
    exact (h.whole m hmem).2.1
  have hindices : indicesOk (linkWidth u l) (ms.map (·.index)) = true := by
    rw [linkWidth_keeps hm.1 List.not_mem_nil, h.indices]
  rw [linkEnabled_keeps hm.1 List.not_mem_nil, h.enabled, hoper, hwidth, hmix, hindices, hlen, if_neg (by simp), if_neg (by simp)]

/-- The step of DESKEW on one lane. -/
def placeLane (top : Nat) (s : State) (m : MarkerIn) : State :=
  setLane s m.lane { lane s m.lane with hold := top - m.lag, place := m.index }

theorem placeLanes_other {top a : Nat} {ms : List MarkerIn} (h : a ∉ ms.map fun m => m.lane.val) (s : State) :
    lane (ms.foldl (placeLane top) s) a = lane s a := by
  induction ms generalizing s with
  | nil => rfl
  | cons k ms ih =>
    rw [List.map_cons, List.mem_cons, not_or] at h
    rw [List.foldl_cons, ih h.2, placeLane, lane_setLane, if_neg h.1]

theorem placeLanes_spec {top : Nat} {ms : List MarkerIn} (hnd : (ms.map fun m => m.lane.val).Nodup) (s : State) :
    LanesMoved [] s (ms.foldl (placeLane top) s) ∧
    ∀ m ∈ ms, (lane (ms.foldl (placeLane top) s) m.lane).place = m.index ∧
      (lane (ms.foldl (placeLane top) s) m.lane).hold = top - m.lag := by
  induction ms generalizing s with
  | nil => exact ⟨.refl _ s, by simp⟩
  | cons k ms ih =>
    rw [List.map_cons, List.nodup_cons] at hnd
    obtain ⟨hm, hspec⟩ := ih hnd.2 (placeLane top s k)
    refine ⟨((LanesMoved.refl [] s).setLane _ _).trans hm, fun m hmem => ?_⟩
    rcases List.mem_cons.1 hmem with rfl | hmem
    · rw [List.foldl_cons, placeLanes_other hnd.1, placeLane, lane_setLane, if_pos rfl]
      exact ⟨rfl, rfl⟩
    · exact hspec m hmem

/-- The last marker of a set and the lead of the first one over it. -/
def topLag (ms : List MarkerIn) : Nat := (ms.map (·.lag)).foldl max 0
def lowLag (ms : List MarkerIn) : Nat := (ms.map (·.lag)).foldl min (topLag ms)

theorem le_topLag {ms : List MarkerIn} {m : MarkerIn} (h : m ∈ ms) : m.lag ≤ topLag ms :=
  (foldl_max_spec _ 0).2.1 _ (List.mem_map_of_mem h)

theorem lowLag_le {ms : List MarkerIn} {m : MarkerIn} (h : m ∈ ms) : lowLag ms ≤ m.lag :=
  (foldl_min_spec _ _).2.1 _ (List.mem_map_of_mem h)

/-- Some marker of a set that is not empty has the greatest lag. -/
theorem exists_topLag {ms : List MarkerIn} {m : MarkerIn} (h : m ∈ ms) : ∃ k ∈ ms, k.lag = topLag ms := by
  rcases (foldl_max_spec (ms.map (·.lag)) 0).2.2 with e | e
  · exact ⟨m, h, (Nat.le_zero.1 ((le_topLag h).trans e.le)).trans e.symm⟩
  · exact List.mem_map.1 e

theorem exists_lowLag {ms : List MarkerIn} {m : MarkerIn} (h : m ∈ ms) : ∃ k ∈ ms, k.lag = lowLag ms := by
  rcases (foldl_min_spec (ms.map (·.lag)) (topLag ms)).2.2 with e | e
  · obtain ⟨k, hk, hlag⟩ := exists_topLag h
    exact ⟨k, hk, hlag.trans e.symm⟩
  · exact List.mem_map.1 e

theorem deskew_small {l : Nat} {ms : List MarkerIn} (h : ¬ 32 < topLag ms - lowLag ms) (s : State) :
    deskew l ms s = setBit (setBit (ms.foldl (placeLane (topLag ms)) (setBits s (R.cwLinkStatus l) 8 8 (min 255 (topLag ms - lowLag ms))))
      (R.cwLinkStatus l) 28 false) (R.cwLinkStatus l) 30 true := if_neg h

theorem deskew_large {l : Nat} {ms : List MarkerIn} (h : 32 < topLag ms - lowLag ms) (s : State) :
    deskew l ms s = signal 227 l (linkLeavesUp l (setBits s (R.cwLinkStatus l) 8 8 (min 255 (topLag ms - lowLag ms)))) := if_pos h

/-- Markers within 32 symbols of each other align the link. -/
theorem deskew_aligns {l : Nat} {ms : List MarkerIn} (hnd : (ms.map fun m => m.lane.val).Nodup)
    (hskew : ∀ m ∈ ms, ∀ k ∈ ms, m.lag ≤ k.lag + 32) (s : State) :
    bit (deskew l ms s) (R.cwLinkStatus l) 30 = true ∧ bit (deskew l ms s) (R.cwLinkStatus l) 28 = false ∧
    (∀ m ∈ ms, (lane (deskew l ms s) m.lane).place = m.index ∧
      ∃ k ∈ ms, (∀ j ∈ ms, j.lag ≤ k.lag) ∧ (lane (deskew l ms s) m.lane).hold = k.lag - m.lag) ∧
    keepsRegs [R.cwLinkStatus l] s (deskew l ms s) := by
  have hsmall : ¬ 32 < topLag ms - lowLag ms := by
    cases ms with
    | nil => decide
    | cons m ms =>
      obtain ⟨k, hk, hkt⟩ := exists_topLag (m := m) List.mem_cons_self
      obtain ⟨j, hj, hjl⟩ := exists_lowLag (m := m) List.mem_cons_self
      have := hskew k hk j hj
      omega
  rw [deskew_small hsmall]
  obtain ⟨hm, hspec⟩ := placeLanes_spec (top := topLag ms) hnd (setBits s (R.cwLinkStatus l) 8 8 (min 255 (topLag ms - lowLag ms)))
  refine ⟨bit_setBit _ _ _ _ (by omega), ?_, fun m hmem => ?_, ?_⟩
  · rw [bit_setBit_ne _ _ _ _ _ _ (.inr (by omega)), bit_setBit _ _ _ _ (by omega)]
  · obtain ⟨k, hk, hkt⟩ := exists_topLag hmem
    rw [lane_setBit, lane_setBit, (hspec m hmem).1, (hspec m hmem).2]
    exact ⟨rfl, k, hk, fun j hj => hkt ▸ le_topLag hj, by rw [hkt]⟩
  · have hset := (keepsRegs_refl [R.cwLinkStatus l] s).setBits (List.mem_singleton_self _) 8 8 (min 255 (topLag ms - lowLag ms))
    exact ((hset.trans (hm.1.mono (List.nil_subset _))).setBit (List.mem_singleton_self _) _ _).setBit (List.mem_singleton_self _) _ _

theorem laneGone_low {L : List Nat} {s t : State} (h : keepsRegs L s t) (hpwr : t.pwr = s.pwr) (hL : ∀ x ∈ L, 0x300000 ≤ x) {a : Nat}
    (ha : a < 128) : laneGone t a = laneGone s a := by
  have hlow : ∀ x, x < 0x300000 → x ∉ L := fun x hx hm => by have := hL x hm; omega
  unfold laneGone domainSignals domainOn domainWorks
  rw [h.bits (hlow _ (by simp only [R.pwrDomainStatus]; omega)), h.bit (hlow R.glbUnitPresent1 (by decide)), hpwr]

/-- A skew above 32 symbols keeps the link down, with its fault. -/
theorem deskew_refuses {l : Nat} (hl : l < 20) {ms : List MarkerIn} (hskew : ∃ m ∈ ms, ∃ k ∈ ms, k.lag + 32 < m.lag) {s : State}
    (hg : laneGone s (linkBase s l) = false) :
    linkUp (deskew l ms s) l = false ∧ bit (deskew l ms s) (R.cwLinkStatus l) 30 = false ∧ ⟨227, l, false⟩ ∈ (deskew l ms s).flt.signals := by
  obtain ⟨m, hm, k, hk, hlag⟩ := hskew
  have hlarge : 32 < topLag ms - lowLag ms := by
    have := le_topLag hm
    have := lowLag_le hk
    omega
  rw [deskew_large hlarge]
  have hset := (LinksMoved.refl [R.cwLinkStatus l, R.cwLinkDelay l] s).setBits List.mem_cons_self 8 8
    (min 255 (topLag ms - lowLag ms))
  have hmoved := hset.trans (linkLeavesUp_moved l _)
  obtain ⟨hdown, hunaligned⟩ := linkLeavesUp_down l (setBits s (R.cwLinkStatus l) 8 8 (min 255 (topLag ms - lowLag ms)))
  generalize linkLeavesUp l (setBits s (R.cwLinkStatus l) 8 8 (min 255 (topLag ms - lowLag ms))) = u at *
  have hbase : linkBase u l = linkBase s l := linkBase_keeps hmoved.1 (by
    simp only [List.mem_cons, List.not_mem_nil, or_false, R.cwLinkCfg, R.cwLinkStatus, R.cwLinkDelay]; omega)
  have hgone : laneGone u (linkBase u l) = false := by
    rw [hbase, laneGone_low hmoved.1 (by rw [hmoved.2]) (by simp [R.cwLinkStatus, R.cwLinkDelay]; omega) (bitsOf_lt _ _ _), hg]
  refine ⟨?_, ?_, ?_⟩
  · rw [linkUp, bit_signal]; exact hdown
  · rw [bit_signal]; exact hunaligned
  · rw [signals_signal (by simpa [sourceGone] using hgone) (by omega) (by omega)]
    simp

/-! ## A link that comes up -/

theorem carriedFrames_empty {k : Link} (h : k.replay = []) (c : Nat) : look (fun _ => 0) (carriedFrames k) c = 0 := by
  unfold carriedFrames framesOf
  rw [h]
  rfl

/-- The link as it comes up: its counts are fresh and its first request waits. -/
def freshLink (k : Link) : Link :=
  { k with
    everUp := true, holdsState := true, creditIn := [], sentFrames := carriedFrames k, creditOut := [], resend := none
    nakDue := false, nakSent := false, exchangeCount := 0, exchangeSum := 0, requestAt := none, rxTimes := []
    exchanges := [.delayRequest]
    oldSeqs := (List.range 64).map fun i => (k.expectedSeq + 255 - i) % 256 }

/-- The state with the fresh link up. -/
def linkFresh (l : Nat) (s : State) : State :=
  setBit (setBit (setBit (setLink s l (freshLink (link s l))) (R.cwLinkStatus l) 31 true) (R.cwLinkStatus l) 28 false)
    (R.cwLinkStatus l) 26 false

theorem link_linkFresh (l : Nat) (s : State) (j : Nat) :
    link (linkFresh l s) j = if j = l then freshLink (link s l) else link s j := by
  rw [linkFresh, link_setBit, link_setBit, link_setBit, link_setLink]

theorem linkFresh_keeps (l : Nat) (s : State) : keepsRegs [R.cwLinkStatus l] s (linkFresh l s) := by
  have hlink : keepsRegs [R.cwLinkStatus l] s (setLink s l (freshLink (link s l))) := fun _ _ => reg_setLink _ _ _ _
  exact ((hlink.setBit (List.mem_singleton_self _) 31 true).setBit (List.mem_singleton_self _) 28 false).setBit
    (List.mem_singleton_self _) 26 false

theorem linkUp_fresh {l : Fin 20} {s : State} (hen : linkEnabled s l = true) (hdown : linkUp s l = false)
    (hmix : loopsMixed s l = false)
    (hfar : ∀ a ∈ linkLanes s l, laneState s a = laneOper ∧ bit s (R.cwLaneFar a) 16 = true ∧
      bits s (R.cwLaneFar a) 12 4 = linkWidth s l)
    (hix : indicesOk (linkWidth s l) ((linkLanes s l).map fun a => bits s (R.cwLaneFar a) 9 3) = true)
    (hal : bit s (R.cwLinkStatus l) 30 = true) (hre : (link s l).replay = []) (hrx : (link s (parentLink s)).rxLoad = []) :
    Completes (.linkUp l) s fun t =>
      linkUp t l = true ∧ bit t (R.cwLinkStatus l) 28 = false ∧ (link t l).everUp = true ∧
      (link t l).exchanges = [.delayRequest] ∧
      (∀ c, look (fun _ => 0) (link t l).sentFrames c = 0 ∧ look (fun _ => 0) (link t l).creditIn c = 0) ∧
      keepsRegs [R.cwLinkStatus l] s t := by
  have hoper : ((linkLanes s l).all fun a => laneState s a == laneOper) = true := by
    simp only [List.all_eq_true, beq_iff_eq]
    exact fun a ha => (hfar a ha).1
  have hshown : (((linkLanes s l).map fun a => reg s (R.cwLaneFar a)).all
      fun w => w.getLsbD 16 && bitsOf w 12 4 == linkWidth s l) = true := by
    simp only [List.all_eq_true, List.mem_map, Bool.and_eq_true, beq_iff_eq, forall_exists_index, and_imp, forall_apply_eq_imp_iff₂]
    exact fun a ha => (hfar a ha).2
  have hix' : indicesOk (linkWidth s l) (((linkLanes s l).map fun a => reg s (R.cwLaneFar a)).map fun w => bitsOf w 9 3) = true := by
    rw [List.map_map]
    exact hix
  have hreplay : (link (linkFresh l s) l).replay = [] := by rw [link_linkFresh, if_pos rfl]; exact hre
  have hup : linkComesUp l s = linkFresh l s := by
    unfold linkComesUp
    dsimp only
    rw [hen, hdown, hoper, hmix, hshown, hix', hal, if_neg (by simp), if_neg (by simp), if_neg (by simp)]
    exact (if_pos hreplay : startResend l (linkFresh l s) = _)
  have hparent : parentLink (linkFresh l s) = parentLink s :=
    (linkFresh_keeps l s).bits (by simp only [List.mem_singleton, R.ldCfg, R.cwLinkStatus]; omega) _ _
  have hwaits : (link (linkFresh l s) (parentLink (linkFresh l s))).rxLoad = [] := by
    rw [hparent, link_linkFresh]
    split
    · next h =>
      rw [h] at hrx
      exact hrx
    · exact hrx
  have hrun : feedParent (linkComesUp l s) = linkFresh l s := by rw [hup, feedParent_of_none_waiting hwaits]
  refine ⟨_, congrArg Host.Outcome.next hrun, ?_, ?_, ?_, ?_, fun c => ?_, linkFresh_keeps l s⟩
  · rw [linkUp, linkFresh, bit_setBit_ne _ _ _ _ _ _ (.inr (by omega)), bit_setBit_ne _ _ _ _ _ _ (.inr (by omega)),
      bit_setBit _ _ _ _ (by omega)]
  · rw [linkFresh, bit_setBit_ne _ _ _ _ _ _ (.inr (by omega)), bit_setBit _ _ _ _ (by omega)]
  · rw [link_linkFresh, if_pos rfl]; rfl
  · rw [link_linkFresh, if_pos rfl]; rfl
  · rw [link_linkFresh, if_pos rfl]
    exact ⟨carriedFrames_empty hre c, rfl⟩

/-! ## Delay measurement -/

theorem delayRequest_queues {l : Fin 20} {s : State} (a : Fin 80) (n : Nat) (hup : linkUp s l = true) (hloop : linkLooped s l = false) :
    Completes (.delayExchange l (.request a n)) s fun t =>
      (link t l).exchanges = (link s l).exchanges ++ [.delayAnswer ((link s l).clock + n) (fillAndHold s a)] ∧
      t.regs = s.regs := by
  refine ⟨queueTime l (.delayAnswer (arrivedAt s l n) (fillAndHold s a)) s, ?_, ?_, rfl⟩
  · show Host.Outcome.next (exchangeHeard _ _ _) = _
    rw [exchangeHeard, hloop, if_neg Bool.false_ne_true, delayExchange, hup, if_neg (by decide)]
  · rw [queueTime, link_setLink, if_pos rfl]
    rfl

theorem delayAnswer_counts {l : Fin 20} {s : State} (a : Fin 80) (n t1 t2 t3 h : Nat) (hup : linkUp s l = true)
    (hloop : linkLooped s l = false) (hreq : (link s l).requestAt = some t1) (hcount : (link s l).exchangeCount < 16) :
    Completes (.delayExchange l (.answer a n t2 t3 h)) s fun t =>
      (link t l).exchangeCount = (link s l).exchangeCount + 1 ∧ (link t l).requestAt = none ∧
      (link t l).exchangeSum = (link s l).exchangeSum +
        ((((link s l).clock + n : Nat) : Int) - t1 - ((t3 : Int) - t2) + fillAndHold s a - h) ∧ t.regs = s.regs := by
  have hrun : exchangeHeard l (.answer a n t2 t3 h) s = delayExchange l (.answer a n t2 t3 h) s := by
    rw [exchangeHeard, hloop, if_neg Bool.false_ne_true]
  refine ⟨_, congrArg Host.Outcome.next hrun, ?_⟩
  unfold delayExchange
  rw [hup, if_neg (by decide)]
  dsimp only
  rw [hreq]
  dsimp only
  rw [if_pos hcount]
  by_cases h15 : (link s l).exchangeCount < 15
  · rw [if_pos h15]
    simp only [queueTime, link_setLink, if_true, setLink_regs]
    exact ⟨trivial, trivial, rfl, trivial⟩
  · rw [if_neg h15]
    simp only [link_setLink, if_true, setLink_regs]
    exact ⟨trivial, trivial, rfl, trivial⟩

theorem delayMeasured_writes {l : Fin 20} {s : State} (hup : linkUp s l = true) (hc : (link s l).exchangeCount = 16)
    (hv : bit s (R.cwLinkDelay l) 31 = false) (hd : (link s l).deadlineIn = none) :
    Completes (.delayMeasured l) s fun t =>
      bit t (R.cwLinkDelay l) 31 = true ∧
      bits t (R.cwLinkDelay l) 0 20 = delayPs (link s l).exchangeSum.toNat % 2 ^ 20 ∧
      bits t (R.cwLinkDelay l) 20 11 = delayReqSteps (link s l).exchangeSum.toNat % 2048 ∧
      t.flt = s.flt ∧ keepsRegs [R.cwLinkDelay l, R.cwLinkWindow l] s t := by
  have hne : R.cwLinkDelay l ≠ R.cwLinkWindow l := by simp only [R.cwLinkDelay, R.cwLinkWindow]; omega
  generalize hps : delayPs (link s l).exchangeSum.toNat % 2 ^ 20 = ps
  generalize hrq : delayReqSteps (link s l).exchangeSum.toNat % 2048 = rq
  have hps20 : ps < 2 ^ 20 := hps ▸ Nat.mod_lt _ (by decide)
  have hrq11 : rq < 2048 := hrq ▸ Nat.mod_lt _ (by decide)
  have hnat : (BitVec.ofNat 32 (2 ^ 31 + rq * 2 ^ 20 + ps)).toNat = 2 ^ 31 + rq * 2 ^ 20 + ps := by
    rw [BitVec.toNat_ofNat, Nat.mod_eq_of_lt (by omega)]
  have hreg : ∀ w : Word, ∀ v x, reg (setLink (setBits (setReg s (R.cwLinkDelay l) w) (R.cwLinkWindow l) 0 16 v) l x)
      (R.cwLinkDelay l) = w := by
    intro w v x
    rw [reg_setLink, reg_setBits_ne _ _ _ _ _ _ hne, reg_setReg, if_pos rfl]
  have hrun : delayMeasured l s = setLink (setBits (setReg s (R.cwLinkDelay l) (BitVec.ofNat 32 (2 ^ 31 + rq * 2 ^ 20 + ps)))
      (R.cwLinkWindow l) 0 16 (resendWindow (link s l).exchangeSum.toNat
        (linkWidth (setReg s (R.cwLinkDelay l) (BitVec.ofNat 32 (2 ^ 31 + rq * 2 ^ 20 + ps))) l))) l
      { link s l with dReq := delayReqSteps (link s l).exchangeSum.toNat } := by
    rw [delayMeasured]
    dsimp only
    rw [if_pos ⟨hup, hc, by rw [hv]; decide⟩, hd, hps, hrq]
  refine ⟨_, congrArg Host.Outcome.next hrun, ?_, ?_, ?_, rfl, ?_⟩
  · rw [bit, hreg, BitVec.getLsbD, hnat, Nat.testBit_eq_decide_div_mod_eq, decide_eq_true_eq]
    omega
  · rw [bits, hreg, bitsOf, hnat, Nat.shiftRight_zero]
    omega
  · rw [bits, hreg, bitsOf, hnat, Nat.shiftRight_eq_div_pow]
    omega
  · exact fun y hy => (reg_setLink _ _ _ _).trans
      (((keepsRegs_refl _ s).setReg List.mem_cons_self _).setBits (by simp) 0 16 _ y hy)

/-! ## Resends -/

/-- A resend of the one frame in the replay buffer begins. -/
theorem startResend_one {l : Nat} {s : State} {f : Frame} (hr : (link s l).resend = none) (hf : (link s l).replay = [f]) :
    (link (startResend l s) l).resend = some (0, 1) ∧ (link (startResend l s) l).nakSent = (link s l).nakSent ∧
    (link (startResend l s) l).rxNaks = (link s l).rxNaks ∧ bit (startResend l s) (R.cwLinkStatus l) 26 = true ∧
    (link (startResend l s) l).replay = [f] ∧ keepsRegs [R.cwLinkStatus l, R.cwLinkResend l] s (startResend l s) := by
  have hne : R.cwLinkStatus l ≠ R.cwLinkResend l := by simp only [R.cwLinkStatus, R.cwLinkResend]; omega
  have hrun : startResend l s = signal 228 l (bumpBits (setBit (setLink s l { link s l with resend := some (0, 1) })
      (R.cwLinkStatus l) 26 true) (R.cwLinkResend l) 16 16 1) := by
    unfold startResend
    dsimp only
    rw [hf, if_neg (by simp), hr]
    rfl
  rw [hrun]
  have hlink : link (signal 228 l (bumpBits (setBit (setLink s l { link s l with resend := some (0, 1) })
      (R.cwLinkStatus l) 26 true) (R.cwLinkResend l) 16 16 1)) l = { link s l with resend := some (0, 1) } := by
    rw [link_signal, bumpBits, link_setBits, link_setBit, link_setLink, if_pos rfl]
  refine ⟨by rw [hlink], by rw [hlink], by rw [hlink], ?_, by rw [hlink]; exact hf, ?_⟩
  · rw [bit_signal, bumpBits, bit_setBits_ne _ _ _ _ _ _ _ (.inl hne), bit_setBit _ _ _ _ (by omega)]
  · have hset := keepsRegs.setBit (s := s) (t := setLink s l { link s l with resend := some (0, 1) })
      (L := [R.cwLinkStatus l, R.cwLinkResend l]) (fun _ _ => reg_setLink _ _ _ _) List.mem_cons_self 26 true
    exact (hset.setBits (by simp) 16 16 _).signal 228 l

/-! ## The timeout of a link -/

theorem LanesMoved.link {L : List Nat} {s t : State} (h : LanesMoved L s t) (j : Nat) : link t j = link s j := by
  rw [h.2]
  rfl

theorem timeLinkDown_link (l : Nat) (s : State) : link (timeLinkDown l s) l = { link s l with exchanges := [] } := by
  have hset : link (setLink s l { link s l with exchanges := [] }) l = { link s l with exchanges := [] } := by
    rw [link_setLink, if_pos rfl]
  unfold timeLinkDown
  dsimp only
  split
  · exact hset
  · exact hset

/-- What the link holds after it left UP. -/
theorem linkLeavesUp_link (l : Nat) (s : State) :
    (link (linkLeavesUp l s) l).replay = (link s l).replay ∧
    (link (linkLeavesUp l s) l).timeoutRaised = (link s l).timeoutRaised := by
  unfold linkLeavesUp
  dsimp only
  split
  · rw [timeLinkDown_link, bumpBits, link_setBits, link_setLink, if_pos rfl, link_setBit, link_setBit, link_setBit]
    exact ⟨rfl, rfl⟩
  · rw [link_setLink, if_pos rfl, link_setBit, link_setBit, link_setBit]
    exact ⟨rfl, rfl⟩

theorem linkToLock_link (l : Nat) (s : State) :
    (link (linkToLock l s) l).replay = (link s l).replay ∧
    (link (linkToLock l s) l).timeoutRaised = (link s l).timeoutRaised := by
  have hm := lanesRetrain_moved (as := linkLanes s l) (fun a ha => List.mem_map_of_mem (f := R.cwLaneStatus) ha) s
  obtain ⟨hr, ht⟩ := linkLeavesUp_link l ((linkLanes s l).foldl laneRetrains s)
  rw [linkToLock_eq, hr, ht, hm.link]
  exact ⟨rfl, rfl⟩

theorem linkTimeout_falls {l : Fin 20} {s : State} {f : Frame} (hf : (link s l).replay = [f]) (ht : (link s l).timeoutRaised = false)
    (hr : (link s l).resend = none) :
    Completes (.cwLinkTimeout l) s fun t =>
      bit t (R.cwLinkStatus l) 25 = true ∧ linkUp t l = false ∧ (link t l).replay = [f] ∧
      (link t l).timeoutRaised = true := by
  have hrun : linkTimeout l s = signal (100 + l) 0 (setBit (linkToLock l (setBit (setLink s l
      { link s l with resend := none, timeoutRaised := true }) (R.cwLinkStatus l) 26 false)) (R.cwLinkStatus l) 25 true) := by
    rw [linkTimeout]
    dsimp only
    rw [hf, if_neg (by simp), hr, ht]
    rfl
  have hlink : link (setBit (setLink s l { link s l with resend := none, timeoutRaised := true }) (R.cwLinkStatus l) 26 false) l =
      { link s l with resend := none, timeoutRaised := true } := by rw [link_setBit, link_setLink, if_pos rfl]
  obtain ⟨hreplay, hraised⟩ := linkToLock_link l (setBit (setLink s l
      { link s l with resend := none, timeoutRaised := true }) (R.cwLinkStatus l) 26 false)
  refine ⟨_, congrArg Host.Outcome.next hrun, ?_, ?_, ?_, ?_⟩
  · rw [bit_signal, bit_setBit _ _ _ _ (by omega)]
  · rw [linkUp, bit_signal, bit_setBit_ne _ _ _ _ _ _ (.inr (by omega))]
    exact (linkToLock_down _ _).1
  · rw [link_signal, link_setBit, hreplay, hlink]
    exact hf
  · rw [link_signal, link_setBit, hraised, hlink]

/-- Settles O24. -/
theorem linkControl : Obligations.LinkControl := by
  refine ⟨fun l s v h => ?_, fun l s v hh hld hv hok => ?_, fun l s hen ho => ?_, fun l s ms hen hp hw hix hskew => ?_,
    fun l s h1 h2 h3 h4 h5 h6 h7 h8 => linkUp_fresh h1 h2 h3 h4 h5 h6 h7 h8, fun l s v hh hld hv hok => ?_,
    fun l s ms hen hp hw hix hskew hg => ?_, fun l s a n h1 h2 => delayRequest_queues a n h1 h2,
    fun l s a n t1 t2 t3 h h1 h2 h3 h4 => delayAnswer_counts a n t1 t2 t3 h h1 h2 h3 h4,
    fun l s h1 h2 h3 h4 => delayMeasured_writes h1 h2 h3 h4, fun l s f hup hr hf => ?_, fun l s => rfl,
    fun l s n rest f hn hr hf => ?_, fun l s f h1 h2 h3 => linkTimeout_falls h1 h2 h3⟩
  · exact congrArg Host.Outcome.next (if_pos (h.imp_left fun h => by rw [h]; decide))
  · obtain ⟨t, hrun, hen, hb, hw, hup, hmix, -, hold, hnew, hclu⟩ := linkConfig_trains (l := l) hh hld hv
    rw [hok] at hen
    rw [hen, Bool.true_and] at hmix
    exact ⟨t, hrun, hen, hb, hw, hup, hmix, fun a ha => ha.elim (fun h => hnew a h (.inl hen)) fun h => hold a h.1 h.2, hclu⟩
  · obtain ⟨hl, hr⟩ := markers_due (s := s) ho
    exact ⟨_, congrArg Host.Outcome.next (if_pos hen), fun a ha => by rw [hl, if_pos ha], fun a ha => by rw [hl, if_neg ha], hr⟩
  · obtain ⟨u, hu, hrun⟩ := markerReceive_aligns ⟨hen, hp, hw, hix⟩
    obtain ⟨h1, h2, h3, h4⟩ := deskew_aligns (l := l) (hp.symm.nodup (linkLanes_nodup s l)) hskew u
    exact ⟨_, congrArg Host.Outcome.next hrun, h1, h2, h3, (hu.1.mono (List.nil_subset _)).trans h4⟩
  · obtain ⟨t, hrun, hen, hb, hw, hup, -, href, hold, hnew, hclu⟩ := linkConfig_trains (l := l) hh hld hv
    exact ⟨t, hrun, hen.trans hok, hb, hw, hup, (href hok).1, (href hok).2,
      fun a ha hp => ha.elim (fun h => hnew a h (.inr hp)) fun h => hold a h hp, hclu⟩
  · obtain ⟨u, hu, hrun⟩ := markerReceive_aligns ⟨hen, hp, hw, hix⟩
    have hg' : laneGone u (linkBase u l) = false := by
      rw [linkBase_keeps hu.1 List.not_mem_nil, laneGone_low hu.1 (by rw [hu.2]) (by simp) (bitsOf_lt _ _ _), hg]
    exact ⟨_, congrArg Host.Outcome.next hrun, deskew_refuses l.isLt hskew hg'⟩
  · obtain ⟨h1, h2, -, h4, h5, h6⟩ := startResend_one hr hf
    have hrun : resendWindowExpiry l false s = startResend l s := by
      rw [resendWindowExpiry, if_neg Bool.false_ne_true, if_pos ⟨hup, by rw [hr]; rfl⟩]
    exact ⟨_, congrArg Host.Outcome.next hrun, h1, h2, h4, h5, h6⟩
  · have hrun : nakReceive l s = startResend l (setLink s l { link s l with rxNaks := rest }) := by rw [nakReceive, hn]
    have hlink : link (setLink s l { link s l with rxNaks := rest }) l = { link s l with rxNaks := rest } := by
      rw [link_setLink, if_pos rfl]
    obtain ⟨h1, -, h3, h4, -, -⟩ := startResend_one (l := l) (s := setLink s l { link s l with rxNaks := rest }) (f := f)
      (by rw [hlink]; exact hr) (by rw [hlink]; exact hf)
    exact ⟨_, congrArg Host.Outcome.next hrun, h1, h3.trans (by rw [hlink]), h4⟩

end Sys2Proof.Machine
end

/-! # Frames that a waiting load follows -/

section
namespace Sys2Proof.Machine
set_option Elab.async false

/-- A child device whose load stream failed at section 0, with a load frame that waits on its parent link 19. -/
def failedChild : State :=
  let s := childOnLink19 [0]
  { s with ld := { s.ld with failing := some (1, 0, 0) } }

/-- The expected VC0 frame, with sequence number 0 and no words. -/
def vc0In : FrameIn := ⟨0xA2000010, 0, ⟨0, []⟩, false⟩

/-- With the VC0 frame the child takes the load frame that waits, and its failure counts in LD_RETRY. -/
theorem vc0In_counts_failure :
    reg (feedParent (frameHeard 79 vc0In failedChild)) R.ldRetry ≠ reg failedChild R.ldRetry := by
  decide +kernel

/-- Refutes O25: while a load frame waits from the parent, the expected frame of any link lets the child take it, and the
first bytes that follow a failure count it in LD_RETRY (R271), which is not the status of the link. -/
theorem not_linkFrames : ¬ Obligations.LinkFrames := by
  intro h
  obtain ⟨-, hframe, -⟩ := h
  obtain ⟨t, hexec, -, -, -, hkeeps⟩ := hframe 79 failedChild 19 vc0In (by decide +kernel) (by decide +kernel) (by decide +kernel)
    (by decide +kernel) rfl rfl (by decide +kernel) (by decide +kernel) (by decide +kernel) (by decide +kernel) (by decide +kernel)
  have ht : feedParent (frameHeard 79 vc0In failedChild) = t := Host.Outcome.next.inj hexec
  exact vc0In_counts_failure (ht ▸ hkeeps R.ldRetry (by decide))

end Sys2Proof.Machine
end

/-! # Owners, power states and marches of the design banks -/

section
namespace Sys2Proof.Machine
set_option Elab.async false

/-- A written field of RW bits takes its bits of the word written. -/
theorem bits_writeFields {a lo n : Nat} (h : ∀ i, lo ≤ i → i < lo + n → plainBit a i = true) (hn : lo + n ≤ 32) (v : Word) (s : State) :
    bits (writeFields a v s) a lo n = bitsOf v lo n := by
  refine Nat.eq_of_testBit_eq fun i => ?_
  rw [bits, testBit_bitsOf, testBit_bitsOf]
  by_cases hi : i < n
  · have hbit := bit_writeFields (h (lo + i) (by omega) (by omega)) (by omega) v s
    rw [bit] at hbit
    rw [hbit]
  · rw [decide_eq_false hi, Bool.false_and, Bool.false_and]

theorem performed_acts {p : Party} {s : State} (h : partyActs s p = true) (t : State) : performed p s t = t := if_pos h

/-! ## Owners -/

theorem ownerRefused_of {b a o : Nat}
    (h : 0x84 ≤ a ∨ 0x84 ≤ o ∨ (a < 0x80 ∧ a / 8 ≠ b / 16) ∨ (o < 0x80 ∧ o / 8 ≠ b / 16) ∨ (b % 16 < 14 ∧ o ≠ 0x80)) :
    ownerRefused b a o = true := by
  simp only [ownerRefused, dualPort, List.any_cons, List.any_nil, Bool.or_false, Bool.or_eq_true, Bool.and_eq_true, decide_eq_true_eq,
    bne_iff_ne, ne_eq, Bool.not_eq_true', Bool.or_eq_false_iff, beq_eq_false_iff_ne]
  omega

/-- The fields of an owner register after a handover has begun. -/
theorem handover_owner (s : State) (b a o : Nat) (ha : a < 2 ^ 8) (ho : o < 2 ^ 8) :
    bits (setBit (setBits (setBits s (R.bankOwner b) 0 8 a) (R.bankOwner b) 16 8 o) (R.bankOwner b) 31 false) (R.bankOwner b) 0 8 = a ∧
    bits (setBit (setBits (setBits s (R.bankOwner b) 0 8 a) (R.bankOwner b) 16 8 o) (R.bankOwner b) 31 false) (R.bankOwner b) 16 8 = o ∧
    bit (setBit (setBits (setBits s (R.bankOwner b) 0 8 a) (R.bankOwner b) 16 8 o) (R.bankOwner b) 31 false) (R.bankOwner b) 31 = false := by
  refine ⟨?_, ?_, bit_setBit _ _ _ _ (by omega)⟩
  · rw [bits_setBit_ne _ _ _ _ _ _ _ (by omega), bits_setBits_ne _ _ _ _ _ _ _ _ (by omega), bits_setBits _ _ _ _ _ (by omega),
      Nat.mod_eq_of_lt ha]
  · rw [bits_setBit_ne _ _ _ _ _ _ _ (by omega), bits_setBits _ _ _ _ _ (by omega), Nat.mod_eq_of_lt ho]

theorem ownerHandover_begins {p : Party} {b : Fin 256} {v : Word} {s : State} (hp : partyActs s p = true)
    (hr : ownerRefused b (bitsOf v 0 8) (bitsOf v 16 8) = false) (hopen : bit s (R.bankOwner b) 31 = true)
    (ha : ownerLocked s (ownerOf s b false) (bitsOf v 0 8) = false) (ho : ownerLocked s (ownerOf s b true) (bitsOf v 16 8) = false)
    (hne : ownerOf s b false ≠ bitsOf v 0 8 ∨ ownerOf s b true ≠ bitsOf v 16 8) :
    Completes (.ownerHandover p b v) s fun t =>
      ownerOf t b false = bitsOf v 0 8 ∧ ownerOf t b true = bitsOf v 16 8 ∧ bit t (R.bankOwner b) 31 = false ∧
      t.banks = { s.banks with handovers := s.banks.handovers ++
        [⟨b, ownerOf s b false != bitsOf v 0 8, ownerOf s b true != bitsOf v 16 8⟩] } ∧
      keepsRegs [R.bankOwner b] s t ∧ t = { s with regs := t.regs, banks := t.banks } := by
  have hmem : R.bankOwner b ∈ [R.bankOwner b] := List.mem_singleton_self _
  obtain ⟨h0, h16, h31⟩ := handover_owner s b (bitsOf v 0 8) (bitsOf v 16 8) (bitsOf_lt _ _ _) (bitsOf_lt _ _ _)
  have hrun : ownerWrite b v s =
      { setBit (setBits (setBits s (R.bankOwner b) 0 8 (bitsOf v 0 8)) (R.bankOwner b) 16 8 (bitsOf v 16 8)) (R.bankOwner b) 31 false
        with banks := { s.banks with handovers := s.banks.handovers ++
          [⟨b, ownerOf s b false != bitsOf v 0 8, ownerOf s b true != bitsOf v 16 8⟩] } } := by
    rw [ownerWrite]
    dsimp only
    rw [if_neg (by rw [hr]; decide), hopen, ha, ho, if_neg (by decide), if_neg (by tauto)]
    rfl
  have hkeep := (((keepsRegs_refl [R.bankOwner b] s).setBits hmem 0 8 (bitsOf v 0 8)).setBits hmem 16 8 (bitsOf v 16 8)).setBit hmem 31 false
  exact ⟨_, congrArg Host.Outcome.next ((performed_acts hp _).trans hrun), h0, h16, h31, rfl, hkeep, rfl⟩

theorem ownerHandover_locked {p : Party} {b : Fin 256} {v : Word} {s : State} (hp : partyActs s p = true)
    (hr : ownerRefused b (bitsOf v 0 8) (bitsOf v 16 8) = false)
    (hl : bit s (R.bankOwner b) 31 = false ∨ ownerLocked s (ownerOf s b false) (bitsOf v 0 8) = true ∨
      ownerLocked s (ownerOf s b true) (bitsOf v 16 8) = true) :
    exec (.ownerHandover p b v) s = .next (setBit s R.bankStatus 0 true) := by
  refine congrArg Host.Outcome.next ((performed_acts hp _).trans ?_)
  rw [ownerWrite]
  dsimp only
  rw [if_neg (by rw [hr]; decide), if_pos]
  rcases hl with h | h | h <;> simp [h]

theorem handoverDone_opens {b : Fin 256} {s : State} (h : (s.banks.handovers.any fun h => h.bank == b.val) = true) :
    Completes (.handoverDone b) s fun t =>
      bit t (R.bankOwner b) 31 = true ∧ portOpen t b false = true ∧ portOpen t b true = true ∧
      (∀ k : Nat, k ≠ b → ∀ port, portOpen t k port = portOpen s k port) ∧ keepsRegs [R.bankOwner b] s t ∧
      t.banks.design = s.banks.design := by
  have hclosed : ∀ (g : Handover → Bool),
      ((s.banks.handovers.filter fun h => h.bank ≠ b.val).any fun h => h.bank == b.val && g h) = false := by
    intro g
    rw [List.any_eq_false]
    intro x hx
    have := (List.mem_filter.1 hx).2
    simp_all
  refine ⟨_, congrArg Host.Outcome.next (if_pos h), bit_setBit s (R.bankOwner b) 31 true (by omega), ?_, ?_, fun k hk port => ?_, ?_, rfl⟩
  · exact Bool.not_eq_true' _ ▸ hclosed _
  · exact Bool.not_eq_true' _ ▸ hclosed _
  · have hsame : ∀ x : Handover, (decide (x.bank ≠ b.val) && (x.bank == k && if port then x.portB else x.portA)) =
        (x.bank == k && if port then x.portB else x.portA) := by
      intro x
      by_cases hx : x.bank = k
      · simp [hx, hk]
      · simp [hx]
    show (!(List.any (List.filter _ _) _)) = !_
    rw [List.any_filter]
    simp only [hsame]
    rfl
  · exact keepsRegs.setBit (keepsRegs_refl _ s) (List.mem_singleton_self _) 31 true

/-! ## Power states -/

theorem bankPower_granted {p : Party} {b : Fin 256} {v : Word} {s : State} (hp : partyActs s p = true) (hl : liveOwner s b = false)
    (hm : marchOn s false b = false) (hc : ¬ (bits s (R.bankCfg b) 28 2 = 2 ∧ bitsOf v 26 2 = 1)) :
    Completes (.bankPowerRequest p b v) s fun t =>
      bits t (R.bankCfg b) 0 3 = bitsOf v 0 3 ∧ bit t (R.bankCfg b) 25 = v.getLsbD 25 ∧
      bits t (R.bankCfg b) 26 2 = bitsOf v 26 2 ∧ bits t (R.bankCfg b) 28 2 = bits s (R.bankCfg b) 28 2 ∧
      keepsRegs [R.bankCfg b] s t ∧ t = { s with regs := t.regs } := by
  have hmem : R.bankCfg b ∈ [R.bankCfg b] := List.mem_singleton_self _
  have h28 : bits (setBits (setBit s (R.bankCfg b) 25 (v.getLsbD 25)) (R.bankCfg b) 0 3 (bitsOf v 0 3)) (R.bankCfg b) 28 2 =
      bits s (R.bankCfg b) 28 2 := by
    rw [bits_setBits_ne _ _ _ _ _ _ _ _ (by omega), bits_setBit_ne _ _ _ _ _ _ _ (by omega)]
  have hrun : bankCfgWrite b v s =
      setBits (setBits (setBit s (R.bankCfg b) 25 (v.getLsbD 25)) (R.bankCfg b) 0 3 (bitsOf v 0 3)) (R.bankCfg b) 26 2 (bitsOf v 26 2) := by
    rw [bankCfgWrite]
    dsimp only
    rw [hl, hm, if_neg (by decide), if_neg (by rwa [h28])]
  refine ⟨_, congrArg Host.Outcome.next ((performed_acts hp _).trans hrun), ?_, ?_, ?_, ?_, ?_, rfl⟩
  · rw [bits_setBits_ne _ _ _ _ _ _ _ _ (by omega), bits_setBits _ _ _ _ _ (by omega), Nat.mod_eq_of_lt (bitsOf_lt _ _ _)]
  · rw [bit_setBits_ne _ _ _ _ _ _ _ (by omega), bit_setBits_ne _ _ _ _ _ _ _ (by omega), bit_setBit _ _ _ _ (by omega)]
  · rw [bits_setBits _ _ _ _ _ (by omega), Nat.mod_eq_of_lt (bitsOf_lt _ _ _)]
  · rw [bits_setBits_ne _ _ _ _ _ _ _ _ (by omega), h28]
  · exact ((((keepsRegs_refl _ s)).setBit hmem 25 _).setBits hmem 0 3 _).setBits hmem 26 2 _

theorem bankPower_locked {p : Party} {b : Fin 256} {v : Word} {s : State} (hp : partyActs s p = true)
    (hl : liveOwner s b = true ∨ marchOn s false b = true) :
    Completes (.bankPowerRequest p b v) s fun t =>
      bits t (R.bankCfg b) 0 3 = bits s (R.bankCfg b) 0 3 ∧ bits t (R.bankCfg b) 26 2 = bits s (R.bankCfg b) 26 2 ∧
      bit t (R.bankCfg b) 25 = v.getLsbD 25 ∧ bits t (R.bankCfg b) 28 3 = bits s (R.bankCfg b) 28 3 ∧
      bit t R.bankStatus 0 = true ∧ keepsRegs [R.bankCfg b, R.bankStatus] s t ∧ t = { s with regs := t.regs } := by
  have hne : R.bankCfg b ≠ R.bankStatus := by simp only [R.bankCfg, R.bankStatus]; omega
  have hrun : bankCfgWrite b v s = setBit (setBit s (R.bankCfg b) 25 (v.getLsbD 25)) R.bankStatus 0 true := if_pos (by simpa using hl)
  refine ⟨_, congrArg Host.Outcome.next ((performed_acts hp _).trans hrun), ?_, ?_, ?_, ?_, bit_setBit _ _ _ _ (by omega), ?_, rfl⟩
  · rw [bits_setBit_ne _ _ _ _ _ _ _ (.inl hne), bits_setBit_ne _ _ _ _ _ _ _ (by omega)]
  · rw [bits_setBit_ne _ _ _ _ _ _ _ (.inl hne), bits_setBit_ne _ _ _ _ _ _ _ (by omega)]
  · rw [bit_setBit_ne _ _ _ _ _ _ (.inl hne), bit_setBit _ _ _ _ (by omega)]
  · rw [bits_setBit_ne _ _ _ _ _ _ _ (.inl hne), bits_setBit_ne _ _ _ _ _ _ _ (by omega)]
  · exact ((keepsRegs_refl _ s).setBit List.mem_cons_self 25 _).setBit (by simp) 0 true

/-- A bank that is off does not go to retention. -/
theorem bankPower_refused {p : Party} {b : Fin 256} {v : Word} {s : State} (hp : partyActs s p = true) (hl : liveOwner s b = false)
    (hm : marchOn s false b = false) (h2 : bits s (R.bankCfg b) 28 2 = 2) (h1 : bitsOf v 26 2 = 1) :
    Completes (.bankPowerRequest p b v) s fun t =>
      bit t R.bankStatus 1 = true ∧ bits t (R.bankCfg b) 26 2 = bits s (R.bankCfg b) 26 2 ∧
      bits t (R.bankCfg b) 0 3 = bitsOf v 0 3 ∧ bit t (R.bankCfg b) 25 = v.getLsbD 25 ∧
      keepsRegs [R.bankCfg b, R.bankStatus] s t ∧ t = { s with regs := t.regs } := by
  have hne : R.bankCfg b ≠ R.bankStatus := by simp only [R.bankCfg, R.bankStatus]; omega
  have h28 : bits (setBits (setBit s (R.bankCfg b) 25 (v.getLsbD 25)) (R.bankCfg b) 0 3 (bitsOf v 0 3)) (R.bankCfg b) 28 2 = 2 := by
    rw [bits_setBits_ne _ _ _ _ _ _ _ _ (by omega), bits_setBit_ne _ _ _ _ _ _ _ (by omega), h2]
  have hrun : bankCfgWrite b v s =
      setBit (setBits (setBit s (R.bankCfg b) 25 (v.getLsbD 25)) (R.bankCfg b) 0 3 (bitsOf v 0 3)) R.bankStatus 1 true := by
    rw [bankCfgWrite]
    dsimp only
    rw [hl, hm, if_neg (by decide), if_pos ⟨h28, h1⟩]
  refine ⟨_, congrArg Host.Outcome.next ((performed_acts hp _).trans hrun), bit_setBit _ _ _ _ (by omega), ?_, ?_, ?_, ?_, rfl⟩
  · rw [bits_setBit_ne _ _ _ _ _ _ _ (.inl hne), bits_setBits_ne _ _ _ _ _ _ _ _ (by omega), bits_setBit_ne _ _ _ _ _ _ _ (by omega)]
  · rw [bits_setBit_ne _ _ _ _ _ _ _ (.inl hne), bits_setBits _ _ _ _ _ (by omega), Nat.mod_eq_of_lt (bitsOf_lt _ _ _)]
  · rw [bit_setBit_ne _ _ _ _ _ _ (.inl hne), bit_setBits_ne _ _ _ _ _ _ _ (by omega), bit_setBit _ _ _ _ (by omega)]
  · exact (((keepsRegs_refl _ s).setBit List.mem_cons_self 25 _).setBits List.mem_cons_self 0 3 _).setBit (by simp) 1 true

theorem designMem_setDesignMem (s : State) (b : Nat) (m : Mem) (k : Nat) :
    designMem (setDesignMem s b m) k = if k = b then m else designMem s k := look_put _ _ _ _ _

theorem designMem_setBits (s : State) (a lo n v k : Nat) : designMem (setBits s a lo n v) k = designMem s k := rfl

theorem bankPowerDone_takes {b : Fin 256} {s : State} (hon : domainOn s (b / 16) = true) :
    Completes (.bankPowerDone b) s fun t =>
      bits t (R.bankCfg b) 28 2 = powerRequest s b ∧
      designMem t b = (if powerRequest s b = 2 ∧ bits s (R.bankCfg b) 28 2 ≠ 2 then loseContents (designMem s b)
        else designMem s b) ∧
      (∀ k : Nat, k ≠ b → designMem t k = designMem s k) ∧ keepsRegs [R.bankCfg b] s t := by
  have h3 : powerRequest s b % 2 ^ 2 = powerRequest s b := Nat.mod_eq_of_lt (by
    have : powerRequest s b < 3 := Nat.mod_lt _ (by decide)
    omega)
  refine ⟨_, congrArg Host.Outcome.next (if_pos hon), ?_⟩
  rw [bankPower]
  dsimp only
  by_cases h : powerRequest s b = 2 ∧ bits s (R.bankCfg b) 28 2 ≠ 2
  · rw [if_pos h, if_pos h]
    refine ⟨by rw [bits_setBits _ _ _ _ _ (by omega), h3], ?_, fun k hk => ?_, ?_⟩
    · rw [designMem_setBits, loseBank, designMem_setDesignMem, if_pos rfl]
    · rw [designMem_setBits, loseBank, designMem_setDesignMem, if_neg hk]
    · exact keepsRegs.setBits (t := loseBank b s) (fun _ _ => rfl) (List.mem_singleton_self _) 28 2 _
  · rw [if_neg h, if_neg h]
    exact ⟨by rw [bits_setBits _ _ _ _ _ (by omega), h3], rfl, fun _ _ => rfl,
      (keepsRegs_refl _ s).setBits (List.mem_singleton_self _) 28 2 _⟩

/-! ## Marches -/

theorem marchCtrl_plain : ∀ i, i < 9 ∨ i = 30 → plainBit R.bankMarchCtrl i = true := by
  have h : ∀ i : Fin 9, plainBit R.bankMarchCtrl i = true := by decide +kernel
  rintro i (hi | rfl)
  · exact h ⟨i, hi⟩
  · decide +kernel

/-- What the status registers show of march `m` as it starts. -/
def marchShown (svc : Bool) (b : Nat) (s : State) : State :=
  setBit (setBits (setBit (setBit s R.bankMarchStatus 31 true) R.bankMarchStatus 8 svc) R.bankMarchStatus 0 8 b) R.bankStatus 3 true

theorem marchGo_starts {v : Word} {s : State} (hv : v.getLsbD 31 = true) (ha : marchAllowed s v = true) :
    Completes (.marchGo v) s fun t =>
      t.banks = { s.banks with march := some ⟨v.getLsbD 8, bitsOf v 0 8, v.getLsbD 30⟩ } ∧
      bit t R.bankMarchStatus 31 = true ∧ bit t R.bankMarchStatus 8 = v.getLsbD 8 ∧
      bits t R.bankMarchStatus 0 8 = bitsOf v 0 8 ∧ bit t R.bankStatus 3 = true ∧
      keepsRegs [R.bankMarchCtrl, R.bankMarchStatus, R.bankStatus] s t := by
  have h8 : bit (writeFields R.bankMarchCtrl v s) R.bankMarchCtrl 8 = v.getLsbD 8 :=
    bit_writeFields (marchCtrl_plain 8 (by omega)) (by omega) v s
  have h0 : bits (writeFields R.bankMarchCtrl v s) R.bankMarchCtrl 0 8 = bitsOf v 0 8 :=
    bits_writeFields (fun i _ hi => marchCtrl_plain i (by omega)) (by omega) v s
  have h30 : bit (marchShown (v.getLsbD 8) (bitsOf v 0 8) (writeFields R.bankMarchCtrl v s)) R.bankMarchCtrl 30 = v.getLsbD 30 := by
    rw [marchShown, bit_setBit_ne _ _ _ _ _ _ (.inl (by decide)), bit_setBits_ne _ _ _ _ _ _ _ (.inl (by decide)),
      bit_setBit_ne _ _ _ _ _ _ (.inl (by decide)), bit_setBit_ne _ _ _ _ _ _ (.inl (by decide))]
    exact bit_writeFields (marchCtrl_plain 30 (by omega)) (by omega) v s
  have hbanks : (marchShown (v.getLsbD 8) (bitsOf v 0 8) (writeFields R.bankMarchCtrl v s)).banks = s.banks := by
    obtain ⟨g, hg⟩ := writeFields_frame R.bankMarchCtrl v s
    show (writeFields R.bankMarchCtrl v s).banks = s.banks
    rw [hg]
  have hrun : marchWrite v s = { marchShown (v.getLsbD 8) (bitsOf v 0 8) (writeFields R.bankMarchCtrl v s) with
      banks := { s.banks with march := some ⟨v.getLsbD 8, bitsOf v 0 8, v.getLsbD 30⟩ } } := by
    rw [marchWrite, if_neg (by simp [hv]), if_pos ha]
    dsimp only
    rw [h8, h0, ← h30, ← hbanks]
    rfl
  have hkeep : keepsRegs [R.bankMarchCtrl, R.bankMarchStatus, R.bankStatus] s
      (marchShown (v.getLsbD 8) (bitsOf v 0 8) (writeFields R.bankMarchCtrl v s)) :=
    (((((keepsRegs_refl _ s).writeFields List.mem_cons_self v).setBit (by simp) 31 true).setBit (by simp) 8 _).setBits (by simp) 0 8
      _).setBit (by simp) 3 true
  refine ⟨_, congrArg Host.Outcome.next hrun, rfl, ?_, ?_, ?_, ?_, hkeep⟩
  · show bit (marchShown _ _ _) _ _ = _
    rw [marchShown, bit_setBit_ne _ _ _ _ _ _ (.inl (by decide)), bit_setBits_ne _ _ _ _ _ _ _ (by omega),
      bit_setBit_ne _ _ _ _ _ _ (.inr (by omega)), bit_setBit _ _ _ _ (by omega)]
  · show bit (marchShown _ _ _) _ _ = _
    rw [marchShown, bit_setBit_ne _ _ _ _ _ _ (.inl (by decide)), bit_setBits_ne _ _ _ _ _ _ _ (by omega), bit_setBit _ _ _ _ (by omega)]
  · show bits (marchShown _ _ _) _ _ _ = _
    rw [marchShown, bits_setBit_ne _ _ _ _ _ _ _ (.inl (by decide)), bits_setBits _ _ _ _ _ (by omega), Nat.mod_eq_of_lt (bitsOf_lt _ _ _)]
  · exact bit_setBit _ _ _ _ (by omega)

/-- The word that a march leaves in BANK_MARCH_FAIL. -/
def marchPlace (m : March) : List (Nat × Nat × Nat) → Word
  | [] => 0
  | (e, w, k) :: fs => BitVec.ofNat 32
      ((if m.preserving then 7 <<< 8 else k <<< 26 + w <<< 11 + e <<< 8) + min (fs.length + 1) 255)

theorem marchDone_eq {s : State} {m : March} (h : s.banks.march = some m) (fs : List (Nat × Nat × Nat)) :
    marchDone fs s = marchReported m (marchPlace m fs) (!fs.isEmpty) (marchRetired m s) := by
  unfold marchDone
  rw [h]
  cases fs with
  | nil => rfl
  | cons x fs => rfl

theorem marchReported_banks (m : March) (place : Word) (failed : Bool) (s : State) :
    (marchReported m place failed s).banks = s.banks := by
  unfold marchReported
  dsimp only
  split
  · rw [signal_banks]; rfl
  · rfl

theorem marchRetired_none (m : March) (s : State) : (marchRetired m s).banks.march = none := by
  obtain ⟨service, b, preserving⟩ := m
  cases preserving <;> cases service <;> rfl

theorem marchReported_place (m : March) (place : Word) (failed : Bool) (s : State) :
    reg (marchReported m place failed s) R.bankMarchFail = place := by
  rw [reg_marchReported, setBit, reg_setBits_ne _ _ _ _ _ _ (by decide), reg_setReg, if_pos rfl]

theorem marchDone_clean {s : State} {m : March} (h : s.banks.march = some m) (hs : m.service = false) :
    Completes (.marchDone []) s fun t =>
      t.banks.march = none ∧ bit t R.bankMarchStatus 31 = false ∧ bit t R.bankMarchStatus 30 = true ∧
      bit t R.bankMarchStatus 29 = false ∧ bit t R.bankStatus 3 = false ∧ bit t (R.bankCfg m.bank) 30 = false ∧
      reg t R.bankMarchFail = 0 ∧
      designMem t m.bank = (if m.preserving then designMem s m.bank else zeroContents) ∧
      (∀ k, k ≠ m.bank → designMem t k = designMem s k) ∧ t.flt = s.flt := by
  obtain ⟨service, b, preserving⟩ := m
  obtain rfl : service = false := hs
  have hcfg : R.bankMarchStatus ≠ R.bankCfg b ∧ R.bankStatus ≠ R.bankCfg b ∧ R.bankMarchFail ≠ R.bankCfg b := by
    simp only [R.bankMarchStatus, R.bankStatus, R.bankMarchFail, R.bankCfg]
    omega
  have hreg : ∀ x, reg (marchReported ⟨false, b, preserving⟩ 0 false (marchRetired ⟨false, b, preserving⟩ s)) x =
      reg (setBit (setReg (setBit (setBit (setBit (setBit s R.bankMarchStatus 31 false) R.bankMarchStatus 30 true) R.bankStatus 3 false)
        (R.bankCfg b) 30 false) R.bankMarchFail 0) R.bankMarchStatus 29 false) x := by
    intro x
    cases preserving <;> rfl
  have hbit : ∀ x i, bit (marchReported ⟨false, b, preserving⟩ 0 false (marchRetired ⟨false, b, preserving⟩ s)) x i =
      bit (setBit (setReg (setBit (setBit (setBit (setBit s R.bankMarchStatus 31 false) R.bankMarchStatus 30 true) R.bankStatus 3 false)
        (R.bankCfg b) 30 false) R.bankMarchFail 0) R.bankMarchStatus 29 false) x i := fun x i => by rw [bit, hreg, bit]
  refine ⟨_, congrArg Host.Outcome.next (marchDone_eq h []), ?_, ?_, ?_, ?_, ?_, ?_, marchReported_place _ _ _ _, ?_, fun k hk => ?_, ?_⟩
  · rw [marchReported_banks, marchRetired_none]
  · refine (hbit _ _).trans ?_
    rw [bit_setBit_ne _ _ _ _ _ _ (.inr (by omega)), bit_setReg_ne _ _ _ _ _ (by decide), bit_setBit_ne _ _ _ _ _ _ (.inl hcfg.1),
      bit_setBit_ne _ _ _ _ _ _ (.inl (by decide)), bit_setBit_ne _ _ _ _ _ _ (.inr (by omega)), bit_setBit _ _ _ _ (by omega)]
  · refine (hbit _ _).trans ?_
    rw [bit_setBit_ne _ _ _ _ _ _ (.inr (by omega)), bit_setReg_ne _ _ _ _ _ (by decide), bit_setBit_ne _ _ _ _ _ _ (.inl hcfg.1),
      bit_setBit_ne _ _ _ _ _ _ (.inl (by decide)), bit_setBit _ _ _ _ (by omega)]
  · exact (hbit _ _).trans (bit_setBit _ _ _ _ (by omega))
  · refine (hbit _ _).trans ?_
    rw [bit_setBit_ne _ _ _ _ _ _ (.inl (by decide)), bit_setReg_ne _ _ _ _ _ (by decide), bit_setBit_ne _ _ _ _ _ _ (.inl hcfg.2.1),
      bit_setBit _ _ _ _ (by omega)]
  · refine (hbit _ _).trans ?_
    rw [bit_setBit_ne _ _ _ _ _ _ (.inl hcfg.1.symm), bit_setReg_ne _ _ _ _ _ hcfg.2.2.symm, bit_setBit _ _ _ _ (by omega)]
  · rw [designMem, marchReported_banks]
    cases preserving with
    | true => rfl
    | false => exact (designMem_setDesignMem _ b _ b).trans (if_pos rfl)
  · rw [designMem, marchReported_banks]
    cases preserving with
    | true => rfl
    | false => exact (designMem_setDesignMem _ b _ k).trans (if_neg hk)
  · exact marchRetired_flt _ _

theorem marchDone_failed {s : State} {m : March} (e : Fin 6) (w : Fin 32768) (k : Fin 64) (fs : List (Fin 6 × Fin 32768 × Fin 64))
    (h : s.banks.march = some m) (hp : m.preserving = false) :
    Completes (.marchDone ((e, w, k) :: fs)) s fun t =>
      t.banks.march = none ∧ bit t R.bankMarchStatus 29 = true ∧ bits t R.bankMarchFail 0 8 = min (fs.length + 1) 255 ∧
      bits t R.bankMarchFail 8 3 = e ∧ bits t R.bankMarchFail 11 15 = w ∧ bits t R.bankMarchFail 26 6 = k ∧
      t.flt.signals = s.flt.signals ++ [⟨229, (m.bank + if m.service then 256 else 0) % 65536, false⟩] := by
  have hplace : (marchPlace m (((e, w, k) :: fs).map fun x => (x.1.val, x.2.1.val, x.2.2.val))).toNat =
      k * 2 ^ 26 + w * 2 ^ 11 + e * 2 ^ 8 + min (fs.length + 1) 255 := by
    rw [List.map_cons, marchPlace, hp, if_neg (by decide), BitVec.toNat_ofNat, List.length_map]
    simp only [Nat.shiftLeft_eq]
    rw [Nat.mod_eq_of_lt]
    omega
  refine ⟨_, congrArg Host.Outcome.next (marchDone_eq h _), ?_, ?_, ?_, ?_, ?_, ?_, ?_⟩
  · rw [marchReported_banks, marchRetired_none]
  · exact marchReported_fail _ _ _ _
  · rw [bits, marchReported_place, bitsOf, hplace, Nat.shiftRight_zero]
    omega
  · rw [bits, marchReported_place, bitsOf, hplace, Nat.shiftRight_eq_div_pow]
    omega
  · rw [bits, marchReported_place, bitsOf, hplace, Nat.shiftRight_eq_div_pow]
    omega
  · rw [bits, marchReported_place, bitsOf, hplace, Nat.shiftRight_eq_div_pow]
    omega
  · rw [marchReported_signals, marchRetired_flt]
    rfl

/-- Settles O26. -/
theorem bankOwnership : Obligations.BankOwnership := by
  refine ⟨fun p b v s hp h => ?_, fun p b v s h1 h2 h3 h4 h5 h6 => ownerHandover_begins h1 h2 h3 h4 h5 h6,
    fun p b v s h1 h2 h3 => ownerHandover_locked h1 h2 h3, fun b s h => handoverDone_opens h,
    fun p b v s h1 h2 h3 h4 => bankPower_granted h1 h2 h3 h4, fun p b v s h1 h2 => bankPower_locked h1 h2,
    fun b s h => bankPowerDone_takes h, fun v s h1 h2 => marchGo_starts h1 h2, fun s m h1 h2 => marchDone_clean h1 h2,
    fun s m e w k fs h1 h2 => marchDone_failed e w k fs h1 h2, fun p b v s h1 h2 h3 h4 h5 => bankPower_refused h1 h2 h3 h4 h5⟩
  exact congrArg Host.Outcome.next ((performed_acts hp _).trans (if_pos (ownerRefused_of h)))

end Sys2Proof.Machine
end

/-! # Accesses of the banks -/

section
namespace Sys2Proof.Machine
set_option Elab.async false

/-- The state after a write of `v` to the word at 65,532 of service bank 0. -/
def lastWordWritten (v : Word) : State := setServiceMem State.reset 0 (writeWord (serviceMem State.reset 0) 65532 v)

theorem lastWordWritten_run (v : Word) :
    exec (.serviceBankAccess .lighthouse 0 16383 (.write v)) State.reset = .next (lastWordWritten v) := by
  have hacts : partyActs State.reset .lighthouse = true := by decide +kernel
  have hon : serviceOn State.reset 0 = true := by decide +kernel
  have hmarch : marchOn State.reset true 0 = false := by decide +kernel
  have hwrite : serviceWrite .lighthouse 0 16383 (fun _ => v) State.reset = lastWordWritten v := by
    rw [serviceWrite, hon, hmarch]
    rfl
  exact congrArg Host.Outcome.next ((performed_acts hacts _).trans hwrite)

theorem lastWordWritten_byte (v : Word) :
    readByte (serviceMem (lastWordWritten v) 0) 65532 = (bytesLE 4 v.toNat).getD 0 0 := by
  have hmem : serviceMem (lastWordWritten v) 0 = writeWord (serviceMem State.reset 0) 65532 v :=
    (look_put _ _ _ _ _).trans (if_pos rfl)
  rw [hmem, writeWord, readByte_writeBytes, if_pos (by rw [bytesLE_length]; omega)]

/-- Refutes O28: the address `a` of the frame clause is a `Fin 65536`, as the word index is, so `4 * w + 4` is taken modulo
65,536. For word 16,383 it is 0, no address is inside the word, and the clause says that the byte at 65,532 stays after a
write of zeros and after one of all ones. -/
theorem not_bankAccess : ¬ Obligations.BankAccess := by
  intro h
  obtain ⟨-, -, -, hwrite, -⟩ := h
  have hstays (v : Word) : readByte (serviceMem (lastWordWritten v) 0) 65532 = readByte (serviceMem State.reset 0) 65532 := by
    obtain ⟨t, hexec, -, hframe, -⟩ := hwrite .lighthouse 0 16383 v State.reset
      (.serviceBankAccess .lighthouse 0 16383 (.write v)) v (by decide +kernel) (by decide +kernel)
      (by decide +kernel) (by decide) (.inl ⟨rfl, rfl⟩)
    have ht : lastWordWritten v = t := Host.Outcome.next.inj ((lastWordWritten_run v).symm.trans hexec)
    have hbyte := hframe 65532 (by decide)
    rwa [← ht] at hbyte
  have hsame := (hstays 0).trans (hstays 0xFFFFFFFF).symm
  rw [lastWordWritten_byte, lastWordWritten_byte] at hsame
  exact absurd hsame (by decide +kernel)

end Sys2Proof.Machine
end

/-! # DDR4 channels -/

section
namespace Sys2Proof.Machine
set_option Elab.async false

/-! ## Training -/

theorem ddrTrain_acts {c step : Nat} {ok : Bool} {lanes : Byte} {s : State} (hf : firmwareRuns s = true) (hon : ddrOn s c = true)
    (hr : ddrReady s c = false) (h2 : 2 ≤ step) (h8 : step ≤ 8) (hst : step = bits s (R.ddrTrainStatus c) 28 4 + 1) :
    ddrTrain c step ok lanes s =
      if ok then
        (if step = 8 then setBit (setBit (setBits s (R.ddrTrainStatus c) 28 4 step) (R.ddrTrainStatus c) 27 false) (R.ddrChStatus c) 31 true
         else setBit (setBits s (R.ddrTrainStatus c) 28 4 step) (R.ddrTrainStatus c) 27 false)
      else signal (188 + c) lanes.toNat (setBits (setBit s (R.ddrTrainStatus c) 27 true) (R.ddrTrainStatus c) 0 8 lanes.toNat) := by
  rw [ddrTrain, hf, hon, hr, if_neg (by decide), if_pos (.inr ⟨h8, hst⟩), if_neg (show ¬ step = 1 by omega)]

theorem sourceGone_ddr {c : Nat} (hc : c < 4) {s t : State} (h : ddrOn s c = true)
    (hk : keepsRegs [R.ddrTrainStatus c, R.ddrChStatus c] s t) (info : Nat) :
    sourceGone t (188 + c) info = false := by
  have hd : domainOn t (16 + c) = true := by
    rw [domainOn, hk.bits (by simp only [List.mem_cons, List.not_mem_nil, or_false, R.pwrDomainStatus, R.ddrTrainStatus, R.ddrChStatus]; omega)]
    exact (Bool.and_eq_true_iff.1 h).2
  have e : (188 + c - 188) % 4 = c := by omega
  rw [sourceGone, if_neg (by omega), if_neg (by omega), if_neg (by omega), if_neg (by omega), if_pos (by omega), e, domainSignals, hd]
  rfl

theorem ddrTrain_passes (c : Fin 4) (step : Nat) (lanes : Byte) (s : State) (hf : firmwareRuns s = true) (hon : ddrOn s c = true)
    (hr : ddrReady s c = false) (h2 : 2 ≤ step) (h8 : step ≤ 8) (hst : step = bits s (R.ddrTrainStatus c) 28 4 + 1) :
    Completes (.ddrTrain c step true lanes) s fun t =>
      bits t (R.ddrTrainStatus c) 28 4 = step ∧ bit t (R.ddrTrainStatus c) 27 = false ∧
      ddrReady t c = decide (step = 8) ∧ keepsRegs [R.ddrTrainStatus c, R.ddrChStatus c] s t ∧
      t = { s with regs := t.regs } := by
  have hne : R.ddrTrainStatus c ≠ R.ddrChStatus c := by simp only [R.ddrTrainStatus, R.ddrChStatus]; omega
  have hstep : bits (setBit (setBits s (R.ddrTrainStatus c) 28 4 step) (R.ddrTrainStatus c) 27 false) (R.ddrTrainStatus c) 28 4 = step := by
    rw [bits_setBit_ne _ _ _ _ _ _ _ (by omega), bits_setBits _ _ _ _ _ (by omega), Nat.mod_eq_of_lt (by omega)]
  have hkeep := ((keepsRegs_refl [R.ddrTrainStatus c, R.ddrChStatus c] s).setBits List.mem_cons_self 28 4 step).setBit
    List.mem_cons_self 27 false
  refine ⟨_, congrArg Host.Outcome.next ((ddrTrain_acts hf hon hr h2 h8 hst).trans (if_pos rfl)), ?_⟩
  by_cases h : step = 8
  · rw [if_pos h]
    refine ⟨?_, ?_, ?_, hkeep.setBit (by simp) 31 true, rfl⟩
    · rw [bits_setBit_ne _ _ _ _ _ _ _ (.inl hne), hstep]
    · rw [bit_setBit_ne _ _ _ _ _ _ (.inl hne), bit_setBit _ _ _ _ (by omega)]
    · rw [ddrReady, bit_setBit _ _ _ _ (by omega), decide_eq_true h]
  · rw [if_neg h]
    refine ⟨hstep, bit_setBit _ _ _ _ (by omega), ?_, hkeep, rfl⟩
    rw [ddrReady, bit_setBit_ne _ _ _ _ _ _ (.inl hne.symm), bit_setBits_ne _ _ _ _ _ _ _ (.inl hne.symm), decide_eq_false h]
    exact hr

theorem ddrTrain_fails (c : Fin 4) (step : Nat) (lanes : Byte) (s : State) (hf : firmwareRuns s = true) (hon : ddrOn s c = true)
    (hr : ddrReady s c = false) (h2 : 2 ≤ step) (h8 : step ≤ 8) (hst : step = bits s (R.ddrTrainStatus c) 28 4 + 1) :
    Completes (.ddrTrain c step false lanes) s fun t =>
      bit t (R.ddrTrainStatus c) 27 = true ∧ bits t (R.ddrTrainStatus c) 0 8 = lanes.toNat ∧ ddrReady t c = false ∧
      bits t (R.ddrTrainStatus c) 28 4 = bits s (R.ddrTrainStatus c) 28 4 ∧
      t.flt.signals = s.flt.signals ++ [⟨188 + c, lanes.toNat, false⟩] ∧ keepsRegs [R.ddrTrainStatus c] s t := by
  have hne : R.ddrTrainStatus c ≠ R.ddrChStatus c := by simp only [R.ddrTrainStatus, R.ddrChStatus]; omega
  have hlanes : lanes.toNat < 2 ^ 8 := lanes.isLt
  have hkeep := ((keepsRegs_refl [R.ddrTrainStatus c] s).setBit List.mem_cons_self 27 true).setBits List.mem_cons_self 0 8 lanes.toNat
  refine ⟨_, congrArg Host.Outcome.next ((ddrTrain_acts hf hon hr h2 h8 hst).trans (if_neg Bool.false_ne_true)), ?_, ?_, ?_, ?_, ?_,
    hkeep.signal _ _⟩
  · rw [bit_signal, bit_setBits_ne _ _ _ _ _ _ _ (by omega), bit_setBit _ _ _ _ (by omega)]
  · rw [bits_signal, bits_setBits _ _ _ _ _ (by omega), Nat.mod_eq_of_lt hlanes]
  · rw [ddrReady, bit_signal, bit_setBits_ne _ _ _ _ _ _ _ (.inl hne.symm), bit_setBit_ne _ _ _ _ _ _ (.inl hne.symm)]
    exact hr
  · rw [bits_signal, bits_setBits_ne _ _ _ _ _ _ _ _ (by omega), bits_setBit_ne _ _ _ _ _ _ _ (by omega)]
  · rw [signals_signal (sourceGone_ddr c.isLt hon (hkeep.mono (by simp)) _) (by omega) (by omega)]
    rfl

/-- The state of step 1 of training, done anew. -/
def trainAnew (c : Nat) (s : State) : State := setBit (setReg s (R.ddrTrainStatus c) 0) (R.ddrChStatus c) 30 false

theorem ddrTrain_anew (c : Fin 4) (ok : Bool) (lanes : Byte) (s : State) (hf : firmwareRuns s = true) (hon : ddrOn s c = true)
    (hr : ddrReady s c = false) :
    Completes (.ddrTrain c 1 ok lanes) s fun t =>
      bits t (R.ddrTrainStatus c) 28 4 = ok.toNat ∧ bit t (R.ddrTrainStatus c) 27 = !ok ∧
      bits t (R.ddrTrainStatus c) 0 8 = (if ok then 0 else lanes.toNat) ∧ bit t (R.ddrChStatus c) 30 = false ∧
      ddrReady t c = false ∧
      t.flt.signals = (if ok then s.flt.signals else s.flt.signals ++ [⟨188 + c, lanes.toNat, false⟩]) ∧
      keepsRegs [R.ddrTrainStatus c, R.ddrChStatus c] s t := by
  have hne : R.ddrTrainStatus c ≠ R.ddrChStatus c := by simp only [R.ddrTrainStatus, R.ddrChStatus]; omega
  have hzero : ∀ lo n, bits (trainAnew c s) (R.ddrTrainStatus c) lo n = 0 := fun lo n => by
    rw [trainAnew, bits_setBit_ne _ _ _ _ _ _ _ (.inl hne), bits, reg_setReg, if_pos rfl, bitsOf]
    simp
  have hready : ddrReady (trainAnew c s) c = false := by
    rw [ddrReady, trainAnew, bit_setBit_ne _ _ _ _ _ _ (.inr (by omega)), bit_setReg_ne _ _ _ _ _ hne.symm]
    exact hr
  have hretrain : bit (trainAnew c s) (R.ddrChStatus c) 30 = false := bit_setBit _ _ _ _ (by omega)
  have hkeep : keepsRegs [R.ddrTrainStatus c, R.ddrChStatus c] s (trainAnew c s) :=
    ((keepsRegs_refl _ s).setReg List.mem_cons_self 0).setBit (by simp) 30 false
  have hrun : ddrTrain c 1 ok lanes s =
      if ok then setBit (setBits (trainAnew c s) (R.ddrTrainStatus c) 28 4 1) (R.ddrTrainStatus c) 27 false
      else signal (188 + c) lanes.toNat
        (setBits (setBit (trainAnew c s) (R.ddrTrainStatus c) 27 true) (R.ddrTrainStatus c) 0 8 lanes.toNat) := by
    rw [ddrTrain, hf, hon, hr, if_neg (by decide), if_pos (.inl rfl)]
    rfl
  refine ⟨_, congrArg Host.Outcome.next hrun, ?_⟩
  cases ok with
  | true =>
    rw [if_pos rfl]
    refine ⟨?_, bit_setBit _ _ _ _ (by omega), ?_, ?_, ?_, rfl, (hkeep.setBits List.mem_cons_self 28 4 1).setBit List.mem_cons_self 27 false⟩
    · rw [bits_setBit_ne _ _ _ _ _ _ _ (by omega), bits_setBits _ _ _ _ _ (by omega)]
      rfl
    · rw [bits_setBit_ne _ _ _ _ _ _ _ (by omega), bits_setBits_ne _ _ _ _ _ _ _ _ (by omega), hzero, if_pos rfl]
    · rw [bit_setBit_ne _ _ _ _ _ _ (.inl hne.symm), bit_setBits_ne _ _ _ _ _ _ _ (.inl hne.symm), hretrain]
    · rw [ddrReady, bit_setBit_ne _ _ _ _ _ _ (.inl hne.symm), bit_setBits_ne _ _ _ _ _ _ _ (.inl hne.symm)]
      exact hready
  | false =>
    have hlanes : lanes.toNat < 2 ^ 8 := lanes.isLt
    have hkeep' := (hkeep.setBit List.mem_cons_self 27 true).setBits List.mem_cons_self 0 8 lanes.toNat
    rw [if_neg Bool.false_ne_true]
    refine ⟨?_, ?_, ?_, ?_, ?_, ?_, hkeep'.signal _ _⟩
    · rw [bits_signal, bits_setBits_ne _ _ _ _ _ _ _ _ (by omega), bits_setBit_ne _ _ _ _ _ _ _ (by omega), hzero]
      rfl
    · rw [bit_signal, bit_setBits_ne _ _ _ _ _ _ _ (by omega), bit_setBit _ _ _ _ (by omega)]
      rfl
    · rw [bits_signal, bits_setBits _ _ _ _ _ (by omega), Nat.mod_eq_of_lt hlanes]
      rfl
    · rw [bit_signal, bit_setBits_ne _ _ _ _ _ _ _ (.inl hne.symm), bit_setBit_ne _ _ _ _ _ _ (.inl hne.symm), hretrain]
    · rw [ddrReady, bit_signal, bit_setBits_ne _ _ _ _ _ _ _ (.inl hne.symm), bit_setBit_ne _ _ _ _ _ _ (.inl hne.symm)]
      exact hready
    · rw [signals_signal (sourceGone_ddr c.isLt hon hkeep' _) (by omega) (by omega)]
      rfl

/-! ## Requests -/

theorem takeFor_one {e : Nat} {p : Packet} (h : headDst p.head = e) : takeFor e [p] = some (p, []) := by
  rw [takeFor, if_pos h]

theorem ddrOn_setNi (s : State) (i : Nat) (x : Ni) (c : Nat) : ddrOn (setNi s i x) c = ddrOn s c := by
  rw [ddrOn, ddrPresent, domainOn, bit_setNi, bits_setNi]
  rfl

theorem ddrRefusal_setNi (s : State) (i : Nat) (x : Ni) (c : Nat) (h : DWord) : ddrRefusal (setNi s i x) c h = ddrRefusal s c h := by
  unfold ddrRefusal ddrReady regionClass
  simp only [bit_setNi, bits_setNi]

/-- The request at the front of a channel's network interface, taken by a channel that is on. -/
theorem ddrRequest_taken {c : Fin 4} {s : State} {p : Packet} (hq : (ni s (ddrNi c)).requests = [p]) (hd : headDst p.head = 148 + c)
    (hroom : (ddr s c).queue.length < 256) (hon : ddrOn s c = true) :
    ddrRequest c s =
      if ddrOp (p.payload.headD 0) ≠ 0 ∧ s.sched.stage < 2 then
        ddrAnswer (ddrNi c) p [] 2 (setNi s (ddrNi c) { ni s (ddrNi c) with requests := [] })
      else match ddrRefusal s c (p.payload.headD 0) with
        | some cause => ddrAnswer (ddrNi c) p (List.replicate (ddrWords (p.payload.headD 0)) 0) 0
            (signal (192 + c) (ddrRegion (p.payload.headD 0)) (bumpBits (setBits (setBits (setNi s (ddrNi c)
              { ni s (ddrNi c) with requests := [] }) (R.ddrErr c) 28 4 (ddrRegion (p.payload.headD 0)))
              (R.ddrErr c) 24 4 cause) (R.ddrErr c) 0 16 1))
        | none => setDdr (setNi s (ddrNi c) { ni s (ddrNi c) with requests := [] }) c { ddr s c with queue := (ddr s c).queue ++ [p] } := by
  unfold ddrRequest
  dsimp only
  rw [hq, takeFor_one hd]
  dsimp only
  rw [if_neg (by omega), ddrOn_setNi, hon, ddrRefusal_setNi]
  rfl

theorem ddrRequest_queues {c : Fin 4} {s : State} {p : Packet} (hq : (ni s (ddrNi c)).requests = [p]) (hd : headDst p.head = 148 + c)
    (hroom : (ddr s c).queue.length < 256) (hon : ddrOn s c = true) (hr : ddrRefusal s c (p.payload.headD 0) = none)
    (hop : ddrOp (p.payload.headD 0) = 0 ∨ 2 ≤ s.sched.stage) :
    Completes (.ddrRequest c) s fun t =>
      ddr t c = { ddr s c with queue := (ddr s c).queue ++ [p] } ∧ (ni t (ddrNi c)).requests = [] ∧ t.regs = s.regs := by
  have hrun := ddrRequest_taken hq hd hroom hon
  rw [if_neg (by omega), hr] at hrun
  refine ⟨_, congrArg Host.Outcome.next hrun, (look_put _ _ _ _ _).trans (if_pos rfl), ?_, rfl⟩
  have : ni (setDdr (setNi s (ddrNi c) { ni s (ddrNi c) with requests := [] }) c { ddr s c with queue := (ddr s c).queue ++ [p] }) (ddrNi c) =
      { ni s (ddrNi c) with requests := [] } := (ni_setNi _ _ _ _).trans (if_pos rfl)
  rw [this]

theorem ddrTurn_keeps {s : State} {c : Nat} {k : DdrClass} {x : DdrChannel} (h : ddrTurn s c k = some x) :
    x.queue = (ddr s c).queue ∧ x.mem = (ddr s c).mem := by
  unfold ddrTurn at h
  dsimp only at h
  split at h
  · cases h
    exact ⟨rfl, rfl⟩
  · split at h
    · cases h
      exact ⟨rfl, rfl⟩
    · cases h

/-- The one request of the design that waits is served when the design has its turn. -/
theorem ddrRequestDone_serves {c : Fin 4} {s : State} {p : Packet} {x : DdrChannel} (hp : ddrPresent s c = true)
    (hw : domainWorks s (16 + c) = true) (hq : (ddr s c).queue = [p]) (ht : ddrTurn s c .design = some x) :
    ddrRequestDone c s = ddrServe c p (setDdr { s with free := s.free + 1 } c x) := by
  have hes : ddrEligible s c [p] [] = [p] := by rw [ddrEligible, if_neg (by simp), ddrEligible]
  have hpick : ([p] : List Packet)[Config.pick s.free % [p].length]? = some p := by
    rw [List.length_singleton, Nat.mod_one]
    rfl
  rw [ddrRequestDone, hp, hw, if_neg (by decide)]
  unfold designBurst
  dsimp only
  rw [hq, hes, hpick, ht]

theorem ddr_setDdr (s : State) (c : Nat) (x : DdrChannel) (k : Nat) : ddr (setDdr s c x) k = if k = c then x else ddr s k :=
  look_put _ _ _ _ _

theorem ddrAddress_setDdr (s : State) (c k : Nat) (x : DdrChannel) (n : Nat) (h : DWord) :
    ddrAddress (setDdr { s with free := n } k x) c h = ddrAddress s c h := rfl

theorem ddrServe_read {c : Fin 4} {s : State} {p : Packet} {x : DdrChannel} (hp : ddrPresent s c = true)
    (hw : domainWorks s (16 + c) = true) (hq : (ddr s c).queue = [p]) (ht : ddrTurn s c .design = some x)
    (hop : ddrOp (p.payload.headD 0) = 0) :
    exec (.ddrRequestDone c) s = .next (respond (ddrNi c) p 2 ((List.range (ddrWords (p.payload.headD 0))).map fun k =>
      readDWord (ddr s c).mem (ddrAddress s c (p.payload.headD 0) + 8 * k))
      (setDdr (setDdr { s with free := s.free + 1 } c x) c { x with queue := [] })) := by
  obtain ⟨hxq, hxm⟩ := ddrTurn_keeps ht
  have hx : ddr (setDdr { s with free := s.free + 1 } c x) c = x := (ddr_setDdr _ _ _ _).trans (if_pos rfl)
  refine congrArg Host.Outcome.next ((ddrRequestDone_serves hp hw hq ht).trans ?_)
  rw [ddrServe]
  dsimp only
  rw [hx, if_pos hop, hxq, hq, List.erase_cons_head, ddrAnswer, hop, ddrAddress_setDdr, hxm]
  rfl

/-- The bytes of 64-bit words, lowest word first. -/
def wordBytes (ws : List DWord) : List Byte := ws.flatMap fun w => bytesLE 8 w.toNat

theorem wordBytes_length (ws : List DWord) : (wordBytes ws).length = 8 * ws.length := by
  induction ws with
  | nil => rfl
  | cons w ws ih =>
    rw [wordBytes, List.flatMap_cons, List.length_append, bytesLE_length, ← wordBytes, ih, List.length_cons]
    omega

theorem wordBytes_slice (ws : List DWord) {k : Nat} (hk : k < ws.length) :
    ((wordBytes ws).drop (8 * k)).take 8 = bytesLE 8 (ws.getD k 0).toNat := by
  induction ws generalizing k with
  | nil => cases hk
  | cons w ws ih =>
    have hcons : wordBytes (w :: ws) = bytesLE 8 w.toNat ++ wordBytes ws := rfl
    have hlen := bytesLE_length 8 w.toNat
    cases k with
    | zero =>
      rw [hcons, Nat.mul_zero, List.drop_zero, List.take_append_of_le_length (by omega), List.take_of_length_le (by omega)]
      rfl
    | succ k =>
      rw [hcons, List.drop_append, List.drop_eq_nil_of_le (by omega), List.nil_append, hlen,
        show 8 * (k + 1) - 8 = 8 * k by omega, ih (by simpa using hk)]
      rfl

theorem readBytes_writeBytes_slice (m : Mem) (a : Nat) (l : List Byte) {o n : Nat} (h : o + n ≤ l.length) :
    readBytes (writeBytes m a l) (a + o) n = (l.drop o).take n := by
  refine List.ext_getElem (by simp [readBytes]; omega) fun i hi hl => ?_
  have hin : i < n := by simpa [readBytes] using hi
  simp only [readBytes, List.getElem_map, List.getElem_range, readByte_writeBytes, List.getElem_take, List.getElem_drop]
  rw [if_pos (by omega), show a + o + i - a = o + i by omega, List.getD_eq_getElem _ _ (by omega)]

theorem readDWord_written (m : Mem) (a : Nat) (ws : List DWord) {k : Nat} (hk : k < ws.length) :
    readDWord (writeBytes m a (wordBytes ws)) (a + 8 * k) = ws.getD k 0 := by
  rw [readDWord, readBytes_writeBytes_slice _ _ _ (by rw [wordBytes_length]; omega), wordBytes_slice _ hk, ofBytesLE_bytesLE,
    Nat.mod_eq_of_lt (by simpa using (ws.getD k 0).isLt), BitVec.ofNat_toNat, BitVec.setWidth_eq]

theorem ddrAnswer_frame (i : Nat) (p : Packet) (data : List DWord) (status : DWord) (s : State) :
    ∃ g y d b, ddrAnswer i p data status s = { s with
      regs := g
      net := { s.net with probeHold := y, discarding := d, buffers := b } } := by
  unfold ddrAnswer
  split <;> exact respond_frame _ _ _ _ _

theorem ddrServe_write {c : Fin 4} {s : State} {p : Packet} {x : DdrChannel} (hp : ddrPresent s c = true)
    (hw : domainWorks s (16 + c) = true) (hq : (ddr s c).queue = [p]) (ht : ddrTurn s c .design = some x)
    (hop : ddrOp (p.payload.headD 0) ≠ 0) :
    Completes (.ddrRequestDone c) s fun t =>
      let a := ddrAddress s c (p.payload.headD 0)
      let ws := (p.payload.drop 1).take (ddrWords (p.payload.headD 0))
      (ddr t c).queue = [] ∧ (∀ k, k < ws.length → readDWord (ddr t c).mem (a + 8 * k) = ws.getD k 0) ∧
      (∀ x, ¬ (a ≤ x ∧ x < a + 8 * ws.length) → readByte (ddr t c).mem x = readByte (ddr s c).mem x) ∧
      (∀ k, k ≠ c.val → ddr t k = ddr s k) ∧ t.banks = s.banks := by
  obtain ⟨hxq, hxm⟩ := ddrTurn_keeps ht
  have hx : ddr (setDdr { s with free := s.free + 1 } c x) c = x := (ddr_setDdr _ _ _ _).trans (if_pos rfl)
  generalize hws : (p.payload.drop 1).take (ddrWords (p.payload.headD 0)) = ws
  generalize ha : ddrAddress s c (p.payload.headD 0) = a
  have hrun : ∃ u, ddrRequestDone c s = ddrAnswer (ddrNi c) p [] 1 u ∧ u.banks = s.banks ∧
      ∀ k, ddr u k = if k = c.val then { x with queue := [], mem := writeBytes (ddr s c).mem a (wordBytes ws) } else ddr s k := by
    refine ⟨setDdr (setDdr (setDdr { s with free := s.free + 1 } c x) c { x with queue := [] }) c
      { x with queue := [], mem := writeBytes (ddr s c).mem a (wordBytes ws) }, (ddrRequestDone_serves hp hw hq ht).trans ?_, rfl,
      fun k => ?_⟩
    · rw [ddrServe]
      dsimp only
      rw [hx, if_neg hop, hxq, hq, List.erase_cons_head, ddrAddress_setDdr, hxm, ha, hws, ddr_setDdr, if_pos rfl]
      rfl
    · rw [ddr_setDdr]
      by_cases h : k = c.val
      · rw [if_pos h, if_pos h]
      · rw [if_neg h, if_neg h, ddr_setDdr, if_neg h, ddr_setDdr, if_neg h]
        rfl
  obtain ⟨u, hu, hbanks, hddr⟩ := hrun
  obtain ⟨g, y, d, b, hans⟩ := ddrAnswer_frame (ddrNi c) p [] 1 u
  have hmem : ∀ k, ddr (ddrAnswer (ddrNi c) p [] 1 u) k = ddr u k := fun k => by rw [hans]; rfl
  refine ⟨_, congrArg Host.Outcome.next hu, ?_, fun k hk => ?_, fun k hk => ?_, fun k hk => ?_, ?_⟩
  · rw [hmem, hddr, if_pos rfl]
  · rw [hmem, hddr, if_pos rfl]
    exact readDWord_written _ _ _ hk
  · rw [hmem, hddr, if_pos rfl]
    dsimp only
    rw [readByte_writeBytes, wordBytes_length, if_neg hk]
  · rw [hmem, hddr, if_neg hk]
  · rw [hans]; exact hbanks

/-! ## The BAR4 window -/

theorem bar4_read {o : Nat} {es : List Bool} {s : State} (hp : partyActs s .host = true) (hlen : o + es.length ≤ 2 ^ 32)
    (hon : ddrOn s (bar4Channel s) = true) (hr : bar4Refused s o (enabledAt es) = false) (hq : (ddr s (bar4Channel s)).queue = [])
    (hc : classWaits s (bar4Channel s) .capture = false) :
    Completes (.bar4Access o es.length (.read es)) s fun t =>
      let c := bar4Channel s
      t.readData = groupWords ((enabledAt es).map fun k => readByte (ddr s c).mem (bar4Base s + o + k)) ∧
      (ddr t c).mem = (ddr s c).mem ∧ (∀ k, k ≠ c → ddr t k = ddr s k) ∧
      t = { s with ddr := t.ddr, readData := t.readData } := by
  obtain ⟨m, em, hmem, -, hother⟩ := ddrReach_unrivalled .host (bar4Base s + o) es.length hq hc
  have hrun : bar4Access o es.length (.read es) s =
      answer (groupWords ((enabledAt es).map fun k => readByte (ddr s (bar4Channel s)).mem (bar4Base s + o + k))) { s with ddr := m } := by
    rw [bar4Access, if_neg (by omega), List.take_length, performedRead, if_pos hp, bar4Read]
    dsimp only
    rw [hon, hr, hmem, em]
    rfl
  rw [em] at hmem hother
  exact ⟨_, congrArg Host.Outcome.next hrun, rfl, hmem, hother, rfl⟩

theorem bar4_write {o : Nat} {bs : List (Option Byte)} {s : State} (hp : partyActs s .host = true) (hlen : o + bs.length ≤ 2 ^ 32)
    (hon : ddrOn s (bar4Channel s) = true) (hr : bar4Refused s o (enabledAt (bs.map Option.isSome)) = false)
    (hq : (ddr s (bar4Channel s)).queue = []) (hc : classWaits s (bar4Channel s) .capture = false) :
    Completes (.bar4Access o bs.length (.write bs false)) s fun t =>
      let c := bar4Channel s
      (∀ k, k < bs.length → readByte (ddr t c).mem (bar4Base s + o + k) =
        (bs.getD k none).getD (readByte (ddr s c).mem (bar4Base s + o + k))) ∧
      (∀ a, ¬ (bar4Base s + o ≤ a ∧ a < bar4Base s + o + bs.length) →
        readByte (ddr t c).mem a = readByte (ddr s c).mem a) ∧
      (∀ k, k ≠ c → ddr t k = ddr s k) ∧ t = { s with ddr := t.ddr } := by
  obtain ⟨m, em, hmem, -, hother⟩ := ddrReach_unrivalled .host (bar4Base s + o) bs.length hq hc
  have hrun : bar4Access o bs.length (.write bs false) s = setDdr { s with ddr := m } (bar4Channel s)
      { ddr { s with ddr := m } (bar4Channel s) with
        mem := writeEnabled (ddr s (bar4Channel s)).mem (bar4Base s + o) bs } := by
    rw [bar4Access, if_neg (by omega), List.take_length, performed_acts hp, if_neg Bool.false_ne_true, bar4Write]
    dsimp only
    rw [hon, hr, hmem, em]
    rfl
  rw [em] at hother
  refine ⟨_, congrArg Host.Outcome.next hrun, fun k hk => ?_, fun a ha => ?_, fun k hk => ?_, rfl⟩
  · rw [ddr_setDdr, if_pos rfl]
    dsimp only
    rw [readByte_writeEnabled, if_pos (by omega), Nat.add_sub_cancel_left]
  · rw [ddr_setDdr, if_pos rfl]
    dsimp only
    rw [readByte_writeEnabled, if_neg ha]
  · exact (ddr_setDdr _ _ _ _).trans ((if_neg hk).trans (hother k hk))

theorem regAt_glbBar4Win : regAt R.glbBar4Win = some (⟨0x20, [], 0, 0xB000003F, 0, 0, 0, 0⟩, []) := by decide +kernel

theorem bar4WinWrite_fields {v : Word} {s : State} (hp : partyActs s .host = true) :
    Completes (.bar4WinWrite v) s fun t =>
      reg t R.glbBar4Win = (reg s R.glbBar4Win &&& ~~~ 0xB000003F#32) ||| (v &&& 0xB000003F#32) ∧
      keepsRegs [R.glbBar4Win] s t ∧ t = { s with regs := t.regs } := by
  have hall (w : Word) : w &&& 4294967295#32 = w := BitVec.and_allOnes
  have hw : writeFields R.glbBar4Win v s = setReg s R.glbBar4Win
      ((reg s R.glbBar4Win &&& ~~~ 0xB000003F#32) ||| (v &&& 0xB000003F#32)) := by
    rw [writeFields, regAt_glbBar4Win]
    simp [writtenWord, hall]
  exact ⟨_, congrArg Host.Outcome.next ((performed_acts hp _).trans hw), (reg_setReg ..).trans (if_pos rfl),
    (keepsRegs_refl _ s).setReg (List.mem_singleton_self _) _, rfl⟩

/-- A class of weight 0 waits while another class with a weight waits. -/
theorem ddrRequestDone_waits {c : Fin 4} {s : State} (hw : ddrWeight s c .design = 0) (hc : classWaits s c .capture = true)
    (hcw : ddrWeight s c .capture ≠ 0) : exec (.ddrRequestDone c) s = .next s := by
  have hturn : ddrTurn s c .design = none := by
    have hrivals : (ddrRivals s c .design).isEmpty = false := by simp [ddrRivals, hc, hcw]
    rw [ddrTurn]
    rw [turnLeft, hw, hrivals]
    simp
  refine congrArg Host.Outcome.next ?_
  rw [ddrRequestDone]
  split
  · rfl
  · unfold designBurst
    dsimp only
    rw [hturn]
    split
    · next h => cases h
    · rfl

/-- Settles O29. -/
theorem ddrChannels : Obligations.DdrChannels := by
  refine ⟨fun c step lanes s h1 h2 h3 h4 h5 h6 => ddrTrain_passes c step lanes s h1 h2 h3 h4 h5 h6,
    fun c step lanes s h1 h2 h3 h4 h5 h6 => ddrTrain_fails c step lanes s h1 h2 h3 h4 h5 h6, fun c s h1 h2 => ?_,
    fun c s p h1 h2 h3 h4 h5 h6 => ddrRequest_queues h1 h2 h3 h4 h5 h6, fun c s p cause h1 h2 h3 h4 h5 h6 => ?_,
    fun c s p h1 h2 h3 h4 h5 h6 => ?_, fun c s p x h1 h2 h3 h4 h5 => ddrServe_read h1 h2 h3 h4 h5,
    fun c s p x h1 h2 h3 h4 h5 => ddrServe_write h1 h2 h3 h4 h5, fun c s h1 h2 h3 => ddrRequestDone_waits h1 h2 h3,
    fun c ok lanes s h1 h2 h3 => ddrTrain_anew c ok lanes s h1 h2 h3, fun o es s h1 h2 h3 h4 h5 h6 => bar4_read h1 h2 h3 h4 h5 h6,
    fun o bs s h1 h2 h3 h4 h5 h6 => bar4_write h1 h2 h3 h4 h5 h6, fun o bs s h1 h2 h3 h4 => ?_, fun v s h1 => bar4WinWrite_fields h1,
    fun o n bs s h1 h2 => ?_⟩
  · refine ⟨_, congrArg Host.Outcome.next (if_pos ⟨h1, h2⟩), (ddr_setDdr _ _ _ _).trans (if_pos rfl), fun k hk => ?_, rfl⟩
    exact (ddr_setDdr _ _ _ _).trans (if_neg hk)
  · have hrun := ddrRequest_taken h1 h2 h3 h4
    rw [if_neg (by omega), h5] at hrun
    exact congrArg Host.Outcome.next hrun
  · exact congrArg Host.Outcome.next ((ddrRequest_taken h1 h2 h3 h4).trans (if_pos ⟨h5, h6⟩))
  · refine congrArg Host.Outcome.next ?_
    rw [bar4Access, if_neg (by omega), List.take_length, performed_acts h1, if_neg Bool.false_ne_true, bar4Write]
    dsimp only
    rw [h3, h4]
    rfl
  · refine congrArg Host.Outcome.next ?_
    rw [bar4Access, if_neg (by omega), performed_acts h1]
    rfl

end Sys2Proof.Machine
end

/-! # The Harbour engine -/

section
namespace Sys2Proof.Machine
set_option Elab.async false

/-! ## One operand -/

theorem opTag_sealed (w : DWord) : opTag (withBits w 40 5 0) = opTag w := bitsOf_withBits_ne _ _ _ _ _ _ (by omega)

theorem opSlot_sealed (w : DWord) : opSlot (withBits w 40 5 0) = opSlot w := bitsOf_withBits_ne _ _ _ _ _ _ (by omega)

theorem hbTrace_off {s : State} (h : bit s R.hbTraceCtrl 31 = false) (event tag aux : Nat) : hbTrace event tag aux s = s := by
  rw [hbTrace, h, if_neg (by simp)]

/-- The store with the operand, before a task set is looked for. -/
def operandStored (o : HbOperand) (s : State) : State :=
  setBits (setHb s { s.hb with store := s.hb.store ++ [⟨withBits o.word 40 5 0, o.source⟩] }) R.hbStoreUse 16 16
    (max (bits s R.hbStoreUse 16 16) (s.hb.store.length + 1))

theorem operandStored_use (o : HbOperand) (s : State) :
    bits (operandStored o s) R.hbStoreUse 16 16 = max (bits s R.hbStoreUse 16 16) (s.hb.store.length + 1) % 65536 :=
  bits_setBits _ _ _ _ _ (by omega)

theorem operandStored_keeps (o : HbOperand) (s : State) : keepsRegs [R.hbStoreUse] s (operandStored o s) :=
  keepsRegs.setBits (t := setHb s _) (keepsRegs_refl _ s) (List.mem_singleton_self _) 16 16 _

theorem hbClassA_ne_storeUse (k : Nat) : R.hbClassA k ∉ [R.hbStoreUse] := by
  simp only [List.mem_singleton, R.hbClassA, R.hbStoreUse]
  omega

theorem acceptOperand_eq {o : HbOperand} {s : State} (ht : bit s R.hbTraceCtrl 31 = false) (hon : classOn s (opTag o.word) = true)
    (hslot : opSlot o.word < classArity s (opTag o.word)) :
    acceptOperand o s =
      match takeTask (opTag o.word) (classArity s (opTag o.word)) 0 (s.hb.store ++ [⟨withBits o.word 40 5 0, o.source⟩]) with
      | none => (false, operandStored o s)
      | some (ws, rest) => (false, placeTask ⟨opTag o.word, ws, 0⟩
          (hbTrace 2 (opTag o.word) 0 (setHb (operandStored o s) { (operandStored o s).hb with store := rest }))) := by
  have harity : classArity (operandStored o s) (opTag o.word) = classArity s (opTag o.word) :=
    congrArg (· + 1) ((operandStored_keeps o s).bits (hbClassA_ne_storeUse _) _ _)
  have hlen : (s.hb.store ++ [(⟨withBits o.word 40 5 0, o.source⟩ : HbOperand)]).length = s.hb.store.length + 1 := by simp
  unfold acceptOperand
  dsimp only
  rw [opTag_sealed, opSlot_sealed, hbTrace_off ht, hon, if_neg (by simpa using hslot), hlen]
  exact congrArg (fun n => match takeTask (opTag o.word) n 0 (s.hb.store ++ [⟨withBits o.word 40 5 0, o.source⟩]) with
    | none => (false, operandStored o s)
    | some (ws, rest) => (false, placeTask ⟨opTag o.word, ws, 0⟩
        (hbTrace 2 (opTag o.word) 0 (setHb (operandStored o s) { (operandStored o s).hb with store := rest })))) harity

theorem acceptOperand_stores {o : HbOperand} {s : State} (ht : bit s R.hbTraceCtrl 31 = false) (hon : classOn s (opTag o.word) = true)
    (hslot : opSlot o.word < classArity s (opTag o.word))
    (hn : takeTask (opTag o.word) (classArity s (opTag o.word)) 0 (s.hb.store ++ [⟨withBits o.word 40 5 0, o.source⟩]) = none) :
    acceptOperand o s = (false, operandStored o s) := by
  rw [acceptOperand_eq ht hon hslot, hn]

/-- An operand that completes a task set of a class without delay makes the task ready at the class priority. -/
theorem acceptOperand_completes {o : HbOperand} {s : State} {ws : List DWord} {rest : List HbOperand}
    (ht : bit s R.hbTraceCtrl 31 = false) (hon : classOn s (opTag o.word) = true)
    (hslot : opSlot o.word < classArity s (opTag o.word)) (hdelay : classDelayed s (opTag o.word) = false)
    (hk : takeTask (opTag o.word) (classArity s (opTag o.word)) 0 (s.hb.store ++ [⟨withBits o.word 40 5 0, o.source⟩]) =
      some (ws, rest)) :
    (acceptOperand o s).2 = addReady (classPriority s (opTag o.word)) ⟨opTag o.word, ws, 0⟩
      (setHb (operandStored o s) { s.hb with store := rest }) := by
  have hkeep := operandStored_keeps o s
  have hprio : classPriority (operandStored o s) (opTag o.word) = classPriority s (opTag o.word) :=
    hkeep.bits (hbClassA_ne_storeUse _) _ _
  have hdel : ∀ h, classDelayed (setHb (operandStored o s) h) (opTag o.word) = false := fun _ =>
    (hkeep.bit (hbClassA_ne_storeUse _) _).trans hdelay
  have htr : ∀ h, bit (setHb (operandStored o s) h) R.hbTraceCtrl 31 = false := fun _ => (hkeep.bit (by decide) _).trans ht
  rw [acceptOperand_eq ht hon hslot, hk]
  dsimp only
  rw [hbTrace_off (htr _), placeTask]
  dsimp only
  rw [hdel, if_neg Bool.false_ne_true]
  exact congrArg (fun p => addReady p ⟨opTag o.word, ws, 0⟩ (setHb (operandStored o s) { s.hb with store := rest })) hprio

/-- An operand whose class is off, or without the slot, is discarded. -/
theorem acceptOperand_discards {o : HbOperand} {s : State} (ht : bit s R.hbTraceCtrl 31 = false)
    (h : classOn s (opTag o.word) = false ∨ classArity s (opTag o.word) ≤ opSlot o.word) :
    acceptOperand o s = (true, signal 230 (opTag o.word) (hbError (opTag o.word) 0xFF s)) := by
  have hoff : bit (signal 230 (opTag o.word) (hbError (opTag o.word) 0xFF s)) R.hbTraceCtrl 31 = false := by
    rw [bit_signal, hbError, bumpBits, bit_setBits_ne _ _ _ _ _ _ _ (.inl (by decide)), bit_setBits_ne _ _ _ _ _ _ _ (.inl (by decide)),
      bit_setBits_ne _ _ _ _ _ _ _ (.inl (by decide)), ht]
  unfold acceptOperand
  dsimp only
  rw [opTag_sealed, opSlot_sealed, hbTrace_off ht, if_pos (by rcases h with h | h <;> simp [h]), hbTrace_off hoff]

/-! ## A cycle -/

theorem releaseOne_none {s : State} (h : s.hb.delays = []) : releaseOne s = s := by
  have hnone : ∀ l, releaseFrom l s = none := fun l => by
    unfold releaseFrom delayList
    rw [h]
    rfl
  rw [releaseOne, List.findSome?_eq_none_iff.2 fun l _ => hnone l]
  rfl

theorem dispatchOne_none (s : State) : dispatchOne [] s = s := by
  have hjoin : ∀ l : List Nat, l.foldl (fun acc p => (look (fun _ => ([] : List HbTask)) [] p).foldl (fun acc t =>
      if parkedAhead acc t.tag then
        let acc := setHb acc { acc.hb with ready := put (fun _ => []) acc.hb.ready p ((readyList acc p).erase t) }
        parkTask { t with dispatched := timeNs acc } (classAction acc t.tag) acc
      else acc) acc) s = s := by
    intro l
    induction l with
    | nil => rfl
    | cons p l ih => exact ih
  have hnext : nextTask s [] = none := by
    rw [nextTask, List.findSome?_eq_none_iff]
    exact fun p _ => rfl
  rw [dispatchOne]
  split
  · rfl
  · have : joinPark [] s = s := hjoin _
    rw [this]
    dsimp only
    rw [hnext]

/-- A cycle without ready tasks and delay lists accepts and does nothing else. -/
theorem harbourCycle_accepts {s : State} (hon : harbourOn s = true) (hr : s.hb.ready = []) (hd : (acceptOne s).hb.delays = []) :
    harbourCycle s = acceptOne s := by
  rw [harbourCycle, hon, if_neg (by decide), hr, releaseOne_none hd, dispatchOne_none]

theorem hostOperand_window {s : State} {o : HbOperand} {rest : List HbOperand} (hw : s.hb.window = o :: rest)
    (hq : heldOf s 128 < bits s R.hbQuota 16 16) : hostOperand s = true := by
  rw [hostOperand, hw, decide_eq_true hq]
  rfl

theorem acceptOne_window {s : State} {o : HbOperand} (hb : acceptBlocked s = false) (hn : s.hb.notifies = [])
    (hnet : networkOperand s = none) (hw : s.hb.window = [o]) (hq : heldOf s 128 < bits s R.hbQuota 16 16) :
    acceptOne s = (acceptOperand o (setHb s { s.hb with window := [], hostLast := true })).2 := by
  rw [acceptOne, hb, if_neg Bool.false_ne_true, hn]
  dsimp only
  rw [hnet]
  dsimp only
  rw [if_pos (hostOperand_window hw hq), acceptHost]
  dsimp only
  rw [show (setHb s { s.hb with hostLast := true }).hb.window = [o] from hw]
  rfl

theorem cycle_storesWindow {s : State} {o : HbOperand} (hon : harbourOn s = true) (ht : bit s R.hbTraceCtrl 31 = false)
    (hb : acceptBlocked s = false) (hn : s.hb.notifies = []) (hnet : networkOperand s = none) (hw : s.hb.window = [o])
    (hq : heldOf s 128 < bits s R.hbQuota 16 16) (hr : s.hb.ready = []) (hd : s.hb.delays = [])
    (hc : classOn s (opTag o.word) = true) (hs : opSlot o.word < classArity s (opTag o.word))
    (hk : takeTask (opTag o.word) (classArity s (opTag o.word)) 0 (s.hb.store ++ [⟨withBits o.word 40 5 0, o.source⟩]) = none) :
    Completes .harbourCycle s fun t =>
      t.hb = { s.hb with window := [], hostLast := true, store := s.hb.store ++ [⟨withBits o.word 40 5 0, o.source⟩] } ∧
      bits t R.hbStoreUse 16 16 = max (bits s R.hbStoreUse 16 16) (s.hb.store.length + 1) % 65536 ∧
      keepsRegs [R.hbStoreUse] s t ∧ t = { s with hb := t.hb, regs := t.regs } := by
  have hstore := acceptOperand_stores (s := setHb s { s.hb with window := [], hostLast := true }) ht hc hs hk
  have hrun : acceptOne s = operandStored o (setHb s { s.hb with window := [], hostLast := true }) := by
    rw [acceptOne_window hb hn hnet hw hq, hstore]
  refine ⟨_, congrArg Host.Outcome.next ((harbourCycle_accepts hon hr (by rw [hrun]; exact hd)).trans hrun), rfl,
    operandStored_use _ _, operandStored_keeps _ _, rfl⟩

theorem cycle_completesWindow {s : State} {o : HbOperand} {ws : List DWord} {rest : List HbOperand} (hon : harbourOn s = true)
    (ht : bit s R.hbTraceCtrl 31 = false) (hb : acceptBlocked s = false) (hn : s.hb.notifies = []) (hnet : networkOperand s = none)
    (hw : s.hb.window = [o]) (hq : heldOf s 128 < bits s R.hbQuota 16 16) (hr : s.hb.ready = []) (hd : s.hb.delays = [])
    (hc : classOn s (opTag o.word) = true) (hs : opSlot o.word < classArity s (opTag o.word))
    (hdelay : classDelayed s (opTag o.word) = false)
    (hk : takeTask (opTag o.word) (classArity s (opTag o.word)) 0 (s.hb.store ++ [⟨withBits o.word 40 5 0, o.source⟩]) =
      some (ws, rest)) :
    Completes .harbourCycle s fun t =>
      t.hb.store = rest ∧ t.hb.window = [] ∧ t.hb.actions = s.hb.actions ∧
      readyList t (classPriority s (opTag o.word)) = [⟨opTag o.word, ws, 0⟩] ∧
      (∀ p, p ≠ classPriority s (opTag o.word) → readyList t p = []) ∧ t.flt = s.flt := by
  have hrun : acceptOne s = addReady (classPriority s (opTag o.word)) ⟨opTag o.word, ws, 0⟩
      (setHb (operandStored o (setHb s { s.hb with window := [], hostLast := true }))
        { s.hb with window := [], hostLast := true, store := rest }) := by
    rw [acceptOne_window hb hn hnet hw hq]
    exact acceptOperand_completes (s := setHb s { s.hb with window := [], hostLast := true }) ht hc hs hdelay hk
  have hready : ∀ p, readyList (acceptOne s) p = if p = classPriority s (opTag o.word) then [⟨opTag o.word, ws, 0⟩] else [] := by
    intro p
    have hempty : ∀ q, look (fun _ => ([] : List HbTask)) s.hb.ready q = [] := fun q => by rw [hr]; rfl
    rw [hrun]
    refine (look_put _ _ _ _ _).trans ?_
    split
    · exact congrArg (· ++ _) (hempty _)
    · exact hempty p
  refine ⟨_, congrArg Host.Outcome.next (harbourCycle_accepts hon hr (by rw [hrun]; exact hd)), ?_, ?_, ?_, ?_, fun p hp => ?_, ?_⟩
  · rw [hrun]; rfl
  · rw [hrun]; rfl
  · rw [hrun]; rfl
  · rw [hready, if_pos rfl]
  · rw [hready, if_neg hp]
  · rw [hrun]; rfl

theorem sourceGone_harbour {s : State} (h : harbourOn s = true) (info : Nat) : sourceGone s 230 info = false := by
  have hd : domainOn s 26 = true := (Bool.and_eq_true_iff.1 h).2
  simp [sourceGone, domainSignals, hd]

theorem cycle_discardsWindow {s : State} {o : HbOperand} (hon : harbourOn s = true) (ht : bit s R.hbTraceCtrl 31 = false)
    (hb : acceptBlocked s = false) (hn : s.hb.notifies = []) (hnet : networkOperand s = none) (hw : s.hb.window = [o])
    (hq : heldOf s 128 < bits s R.hbQuota 16 16) (hr : s.hb.ready = []) (hd : s.hb.delays = [])
    (hc : classOn s (opTag o.word) = false ∨ classArity s (opTag o.word) ≤ opSlot o.word) :
    Completes .harbourCycle s fun t =>
      t.hb = { s.hb with window := [], hostLast := true } ∧
      t.flt.signals = s.flt.signals ++ [⟨230, opTag o.word, false⟩] ∧
      bits t R.hbErr 16 16 = opTag o.word ∧ bits t R.hbErr 8 8 = 0xFF ∧
      bits t R.hbErr 0 8 = min (bits s R.hbErr 0 8 + 1) 255 ∧ keepsRegs [R.hbErr] s t := by
  have htag : opTag o.word < 2 ^ 16 := bitsOf_lt _ _ _
  have hrun : acceptOne s = signal 230 (opTag o.word) (hbError (opTag o.word) 0xFF (setHb s { s.hb with window := [], hostLast := true })) := by
    rw [acceptOne_window hb hn hnet hw hq, acceptOperand_discards (s := setHb s { s.hb with window := [], hostLast := true }) ht hc]
  have hkeep : keepsRegs [R.hbErr] s (hbError (opTag o.word) 0xFF (setHb s { s.hb with window := [], hostLast := true })) :=
    ((keepsRegs.setBits (t := setHb s _) (keepsRegs_refl _ s) (List.mem_singleton_self _) 16 16 _).setBits
      (List.mem_singleton_self _) 8 8 _).setBits (List.mem_singleton_self _) 0 8 _
  have hhb : (hbError (opTag o.word) 0xFF (setHb s { s.hb with window := [], hostLast := true })).hb =
      { s.hb with window := [], hostLast := true } := rfl
  have hon' : harbourOn (hbError (opTag o.word) 0xFF (setHb s { s.hb with window := [], hostLast := true })) = true := by
    refine Eq.trans ?_ hon
    rw [harbourOn, domainOn, hkeep.bits (x := R.pwrDomainStatus 26) (by decide), harbourPresent, hkeep.bit (by decide)]
    rfl
  refine ⟨_, congrArg Host.Outcome.next ((harbourCycle_accepts hon hr ?_).trans hrun), ?_, ?_, ?_, ?_, ?_, hkeep.signal _ _⟩
  · rw [hrun, signal_hb]
    exact hd
  · rw [signal_hb, hhb]
  · rw [signals_signal (sourceGone_harbour hon' _) (by omega) (by omega)]
    rfl
  · rw [bits_signal, hbError, bumpBits, bits_setBits_ne _ _ _ _ _ _ _ _ (by omega), bits_setBits_ne _ _ _ _ _ _ _ _ (by omega),
      bits_setBits _ _ _ _ _ (by omega), Nat.mod_eq_of_lt htag]
  · rw [bits_signal, hbError, bumpBits, bits_setBits_ne _ _ _ _ _ _ _ _ (by omega), bits_setBits _ _ _ _ _ (by omega)]
    rfl
  · rw [bits_signal, hbError, bits_bumpBits _ _ _ _ _ (by omega), bits_setBits_ne _ _ _ _ _ _ _ _ (by omega),
      bits_setBits_ne _ _ _ _ _ _ _ _ (by omega)]
    rfl

/-- A notify operand goes before every other. -/
theorem cycle_storesNotify {s : State} {o : HbOperand} {later : List HbOperand} (hon : harbourOn s = true)
    (ht : bit s R.hbTraceCtrl 31 = false) (hb : acceptBlocked s = false) (hn : s.hb.notifies = o :: later)
    (hr : s.hb.ready = []) (hd : s.hb.delays = [])
    (hc : classOn s (opTag o.word) = true) (hs : opSlot o.word < classArity s (opTag o.word))
    (hk : takeTask (opTag o.word) (classArity s (opTag o.word)) 0 (s.hb.store ++ [⟨withBits o.word 40 5 0, o.source⟩]) = none) :
    Completes .harbourCycle s fun t =>
      t.hb = { s.hb with notifies := later, store := s.hb.store ++ [⟨withBits o.word 40 5 0, o.source⟩] } ∧
      bits t R.hbStoreUse 16 16 = max (bits s R.hbStoreUse 16 16) (s.hb.store.length + 1) % 65536 ∧
      keepsRegs [R.hbStoreUse] s t ∧ t = { s with hb := t.hb, regs := t.regs } := by
  have hstore := acceptOperand_stores (s := setHb s { s.hb with notifies := later }) ht hc hs hk
  have hrun : acceptOne s = operandStored o (setHb s { s.hb with notifies := later }) := by
    rw [acceptOne, hb, if_neg Bool.false_ne_true, hn]
    dsimp only
    rw [hstore]
  exact ⟨_, congrArg Host.Outcome.next ((harbourCycle_accepts hon hr (by rw [hrun]; exact hd)).trans hrun), rfl,
    operandStored_use _ _, operandStored_keeps _ _, rfl⟩

/-- A word of a transmit ring, when the window has none. -/
theorem cycle_storesRing {s : State} {k : Nat} {d : TxDescriptor} {w : DWord} {ws : List DWord} (hon : harbourOn s = true)
    (ht : bit s R.hbTraceCtrl 31 = false) (hb : acceptBlocked s = false) (hn : s.hb.notifies = []) (hnet : networkOperand s = none)
    (hw : s.hb.window = []) (hring : nextRing s = some k) (hf : find s.hb.tx k = some d) (hwords : d.words = w :: ws)
    (hq : heldOf s 128 < bits s R.hbQuota 16 16) (hr : s.hb.ready = []) (hd : s.hb.delays = [])
    (hc : classOn s (opTag w) = true) (hs : opSlot w < classArity s (opTag w))
    (hk : takeTask (opTag w) (classArity s (opTag w)) 0 (s.hb.store ++ [⟨withBits w 40 5 0, 128⟩]) = none) :
    Completes .harbourCycle s fun t =>
      t.hb = { s.hb with
        hostLast := true, lastRing := k, store := s.hb.store ++ [⟨withBits w 40 5 0, 128⟩]
        tx := enter s.hb.tx k { d with words := ws, accepted := d.accepted + 1, time := timeNs s } } ∧
      bits t R.hbStoreUse 16 16 = max (bits s R.hbStoreUse 16 16) (s.hb.store.length + 1) % 65536 ∧
      keepsRegs [R.hbStoreUse] s t ∧ t = { s with hb := t.hb, regs := t.regs } := by
  have hhost : hostOperand s = true := by
    rw [hostOperand, hw, hring, decide_eq_true hq]
    rfl
  have hstore := acceptOperand_stores (o := ⟨w, 128⟩) (s := setHb s { s.hb with
    hostLast := true, lastRing := k
    tx := enter s.hb.tx k { d with words := ws, accepted := d.accepted + 1, time := timeNs s } }) ht hc hs hk
  have hring' : nextRing (setHb s { s.hb with hostLast := true }) = some k := hring
  have hf' : find (setHb s { s.hb with hostLast := true }).hb.tx k = some d := hf
  have hw' : (setHb s { s.hb with hostLast := true }).hb.window = [] := hw
  have hhead : d.words.headD 0 = w := by rw [hwords]; rfl
  have hdrop : d.words.drop 1 = ws := by rw [hwords]; rfl
  have hrun : acceptOne s = operandStored ⟨w, 128⟩ (setHb s { s.hb with
      hostLast := true, lastRing := k
      tx := enter s.hb.tx k { d with words := ws, accepted := d.accepted + 1, time := timeNs s } }) := by
    rw [acceptOne, hb, if_neg Bool.false_ne_true, hn]
    dsimp only
    rw [hnet]
    dsimp only
    rw [if_pos hhost, acceptHost]
    dsimp only
    split
    · next h => exact absurd (h.symm.trans hw') (by simp)
    · rw [hring']
      dsimp only
      rw [hf']
      dsimp only
      rw [hhead, hdrop]
      exact congrArg Prod.snd hstore
  exact ⟨_, congrArg Host.Outcome.next ((harbourCycle_accepts hon hr (by rw [hrun]; exact hd)).trans hrun), rfl,
    operandStored_use _ _, operandStored_keeps _ _, rfl⟩

/-- A packet of the network is stored and answered. -/
theorem cycle_storesPacket {s : State} {p : Packet} (hon : harbourOn s = true) (ht : bit s R.hbTraceCtrl 31 = false)
    (hb : acceptBlocked s = false) (hn : s.hb.notifies = []) (hnet : networkOperand s = some p)
    (hh : hostOperand s = false ∨ s.hb.hostLast = true) (hr : s.hb.ready = []) (hd : s.hb.delays = [])
    (hc : classOn s (opTag (p.payload.headD 0)) = true)
    (hs : opSlot (p.payload.headD 0) < classArity s (opTag (p.payload.headD 0)))
    (hk : takeTask (opTag (p.payload.headD 0)) (classArity s (opTag (p.payload.headD 0))) 0
      (s.hb.store ++ [⟨withBits (p.payload.headD 0) 40 5 0, headSrc p.head⟩]) = none) :
    exec .harbourCycle s = .next (respond 134 p (if ((p.payload.drop 1).headD 0).getLsbD 0 then 2 else 3)
      (if ((p.payload.drop 1).headD 0).getLsbD 0 then [1] else [])
      (setBits (setHb (setNi s 134 { ni s 134 with requests := (ni s 134).requests.erase p })
          { s.hb with hostLast := false
                      store := s.hb.store ++ [⟨withBits (p.payload.headD 0) 40 5 0, headSrc p.head⟩] })
        R.hbStoreUse 16 16 (max (bits s R.hbStoreUse 16 16) (s.hb.store.length + 1)))) := by
  have hstore := acceptOperand_stores (o := ⟨p.payload.headD 0, headSrc p.head⟩)
    (s := setHb (setNi s 134 { ni s 134 with requests := (ni s 134).requests.erase p }) { s.hb with hostLast := false }) ht hc hs hk
  have hrun : acceptOne s = acceptPacket p s := by
    rw [acceptOne, hb, if_neg Bool.false_ne_true, hn]
    dsimp only
    rw [hnet]
    exact if_neg (by rcases hh with h | h <;> simp [h])
  have hpacket : acceptPacket p s = respond 134 p (if ((p.payload.drop 1).headD 0).getLsbD 0 then 2 else 3)
      (if ((p.payload.drop 1).headD 0).getLsbD 0 then [1] else [])
      (operandStored ⟨p.payload.headD 0, headSrc p.head⟩
        (setHb (setNi s 134 { ni s 134 with requests := (ni s 134).requests.erase p }) { s.hb with hostLast := false })) := by
    rw [acceptPacket]
    dsimp only
    rw [show acceptOperand ⟨p.payload.headD 0, headSrc p.head⟩
      (setHb (setNi s 134 { ni s 134 with requests := (ni s 134).requests.erase p })
        { (setNi s 134 { ni s 134 with requests := (ni s 134).requests.erase p }).hb with hostLast := false }) = _ from hstore]
    split <;> rfl
  have hdelays : (acceptOne s).hb.delays = [] := by
    obtain ⟨g, y, d, b, e⟩ := respond_frame 134 p (if ((p.payload.drop 1).headD 0).getLsbD 0 then 2 else 3)
      (if ((p.payload.drop 1).headD 0).getLsbD 0 then [1] else [])
      (operandStored ⟨p.payload.headD 0, headSrc p.head⟩
        (setHb (setNi s 134 { ni s 134 with requests := (ni s 134).requests.erase p }) { s.hb with hostLast := false }))
    rw [hrun, hpacket, e]
    exact hd
  exact congrArg Host.Outcome.next ((harbourCycle_accepts hon hr hdelays).trans (hrun.trans hpacket))

/-! ## Dispatch -/

theorem acceptOne_idle {s : State} (hn : s.hb.notifies = []) (hnet : networkOperand s = none) (hh : hostOperand s = false) :
    acceptOne s = s := by
  rw [acceptOne, hn]
  dsimp only
  rw [hnet]
  dsimp only
  rw [hh, if_neg Bool.false_ne_true, ite_self]

/-- One task of JOIN_PARK. -/
def parkAhead (p : Nat) (s : State) (t : HbTask) : State :=
  if parkedAhead s t.tag then
    let s := setHb s { s.hb with ready := put (fun _ => []) s.hb.ready p ((readyList s p).erase t) }
    parkTask { t with dispatched := timeNs s } (classAction s t.tag) s
  else s

theorem joinPark_eq (before : Sparse (List HbTask)) (s : State) :
    joinPark before s = (List.range 16).reverse.foldl (fun acc p => (look (fun _ => []) before p).foldl (parkAhead p) acc) s := rfl

theorem parkAhead_none {p : Nat} {s : State} {ts : List HbTask} (h : ∀ x ∈ ts, parkedAhead s x.tag = false) :
    ts.foldl (parkAhead p) s = s := by
  induction ts with
  | nil => rfl
  | cons t ts ih =>
    rw [List.foldl_cons, parkAhead, h t List.mem_cons_self, if_neg Bool.false_ne_true]
    exact ih fun x hx => h x (List.mem_cons_of_mem _ hx)

theorem joinPark_idle {s : State} (h : ∀ q, q < 16 → ∀ x ∈ readyList s q, parkedAhead s x.tag = false) : joinPark s.hb.ready s = s := by
  have hall : ∀ ps : List Nat, (∀ q ∈ ps, q < 16) →
      ps.foldl (fun acc p => (look (fun _ => []) s.hb.ready p).foldl (parkAhead p) acc) s = s := by
    intro ps hps
    induction ps with
    | nil => rfl
    | cons p ps ih =>
      rw [List.foldl_cons, parkAhead_none (ts := look (fun _ => []) s.hb.ready p) (h p (hps p List.mem_cons_self))]
      exact ih fun q hq => hps q (List.mem_cons_of_mem _ hq)
  exact hall _ fun q hq => List.mem_range.1 (List.mem_reverse.1 hq)

theorem find?_first {α : Type} {f : α → Bool} {front rest : List α} {k : α} (hf : ∀ x ∈ front, f x = false) (hk : f k = true) :
    (front ++ k :: rest).find? f = some k := by
  rw [List.find?_append, List.find?_eq_none.2 fun x hx => by rw [hf x hx]; decide, List.find?_cons_of_pos hk]
  rfl

/-- The highest level below `n` with an answer is the first one found from the top. -/
theorem findSome?_top {α : Type} {f : Nat → Option α} {p : Nat} {x : α} (hx : f p = some x) :
    ∀ n, p < n → (∀ q, q < n → p < q → f q = none) → (List.range n).reverse.findSome? f = some x
  | 0, hp, _ => absurd hp (by omega)
  | n + 1, hp, hup => by
    rw [List.range_succ, List.reverse_append, List.reverse_singleton, List.singleton_append, List.findSome?_cons]
    by_cases h : p = n
    · rw [← h, hx]
    · rw [hup n (by omega) (by omega)]
      exact findSome?_top hx n (by omega) fun q hq => hup q (by omega)

theorem nextTask_first {s : State} {p : Nat} {k : HbTask} {front rest : List HbTask} (hp : p < 16)
    (hl : readyList s p = front ++ k :: rest) (hf : ∀ x ∈ front, eligible s x = false)
    (hup : ∀ q, q < 16 → p < q → ∀ x ∈ readyList s q, eligible s x = false) (hk : eligible s k = true) :
    nextTask s s.hb.ready = some (p, k) := by
  have hfind : ∀ q, (look (fun _ => []) s.hb.ready q).find? (fun t => (readyList s q).contains t && eligible s t) =
      (readyList s q).find? (eligible s) := fun q =>
    List.find?_congr fun x hx => by rw [show (readyList s q).contains x = true from List.contains_iff_mem.2 hx, Bool.true_and]
  rw [nextTask]
  refine findSome?_top (p := p) ?_ 16 hp fun q hq hpq => ?_
  · rw [hfind, hl, find?_first hf hk]
    rfl
  · rw [hfind, List.find?_eq_none.2 fun x hx => by rw [hup q hq hpq x hx]; decide]
    rfl

theorem cycle_dispatches {s : State} {p : Nat} {k : HbTask} {front rest : List HbTask} (hon : harbourOn s = true)
    (ht : bit s R.hbTraceCtrl 31 = false) (hen : hbEnabled s = true) (hn : s.hb.notifies = []) (hnet : networkOperand s = none)
    (hh : hostOperand s = false) (hd : s.hb.delays = [])
    (hpark : ∀ q, q < 16 → ∀ x ∈ readyList s q, parkedAhead s x.tag = false) (hp : p < 16)
    (hl : readyList s p = front ++ k :: rest) (hf : ∀ x ∈ front, eligible s x = false)
    (hup : ∀ q, q < 16 → p < q → ∀ x ∈ readyList s q, eligible s x = false) (hk : eligible s k = true)
    (ha : classAction s k.tag ≠ 0) :
    Completes .harbourCycle s fun t =>
      t.hb.actions = s.hb.actions ++ [⟨{ k with dispatched := timeNs s }, classAction s k.tag, .waiting⟩] ∧
      readyList t p = front ++ rest ∧ (∀ q, q ≠ p → readyList t q = readyList s q) ∧
      t.hb.store = s.hb.store ∧ t.hb.parked = s.hb.parked ∧ t.regs = s.regs ∧ t.flt = s.flt := by
  have hfront : k ∉ front := fun hmem => by rw [hf k hmem] at hk; cases hk
  have herase : (readyList s p).erase k = front ++ rest := by
    rw [hl, List.erase_append_right _ hfront, List.erase_cons_head]
  have ht' : ∀ h, bit (setHb s h) R.hbTraceCtrl 31 = false := fun _ => ht
  have ha' : ∀ h, classAction (setHb s h) k.tag = classAction s k.tag := fun _ => rfl
  have hrun : harbourCycle s = setHb s { s.hb with
      ready := put (fun _ => []) s.hb.ready p (front ++ rest)
      actions := s.hb.actions ++ [⟨{ k with dispatched := timeNs s }, classAction s k.tag, .waiting⟩] } := by
    rw [harbourCycle, hon, if_neg (by decide), acceptOne_idle hn hnet hh, releaseOne_none hd, dispatchOne, hen, if_neg (by decide),
      joinPark_idle hpark]
    dsimp only
    rw [nextTask_first hp hl hf hup hk]
    dsimp only
    rw [herase, hbTrace_off (ht' _), ha', if_neg fun h => ha h.1, if_neg ha]
    rfl
  refine ⟨_, congrArg Host.Outcome.next hrun, rfl, ?_, fun q hq => ?_, rfl, rfl, rfl, rfl⟩
  · exact (look_put _ _ _ _ _).trans (if_pos rfl)
  · exact (look_put _ _ _ _ _).trans (if_neg hq)

/-- Settles O30. -/
theorem harbourCycle_settled : Obligations.HarbourCycle := by
  refine ⟨fun s o h1 h2 h3 h4 h5 h6 h7 h8 h9 h10 h11 h12 => cycle_storesWindow h1 h2 h3 h4 h5 h6 h7 h8 h9 h10 h11 h12,
    fun s o ws rest h1 h2 h3 h4 h5 h6 h7 h8 h9 h10 h11 h12 h13 => cycle_completesWindow h1 h2 h3 h4 h5 h6 h7 h8 h9 h10 h11 h12 h13,
    fun s o h1 h2 h3 h4 h5 h6 h7 h8 h9 h10 => cycle_discardsWindow h1 h2 h3 h4 h5 h6 h7 h8 h9 h10,
    fun s p k front rest h1 h2 h3 h4 h5 h6 h7 h8 h9 h10 h11 h12 h13 h14 =>
      cycle_dispatches h1 h2 h3 h4 h5 h6 h7 h8 h9 h10 h11 h12 h13 h14,
    fun l s h => ?_, fun s p h1 h2 h3 h4 h5 h6 h7 h8 h9 h10 h11 => cycle_storesPacket h1 h2 h3 h4 h5 h6 h7 h8 h9 h10 h11,
    fun s o later h1 h2 h3 h4 h5 h6 h7 h8 h9 => cycle_storesNotify h1 h2 h3 h4 h5 h6 h7 h8 h9,
    fun s k d w ws h1 h2 h3 h4 h5 h6 h7 h8 h9 h10 h11 h12 h13 h14 h15 =>
      cycle_storesRing h1 h2 h3 h4 h5 h6 h7 h8 h9 h10 h11 h12 h13 h14 h15⟩
  have hset : ∀ k, delayList (setDelayList s l (tickList (delayList s l))) k =
      if k = l.val then tickList (delayList s l) else delayList s k := fun k => look_put _ _ _ _ _
  have hown : delayList (setDelayList s l (tickList (delayList s l))) l = tickList (delayList s l) := (hset l).trans (if_pos rfl)
  refine ⟨_, congrArg Host.Outcome.next (if_neg (by omega)), ?_, ?_, ?_, ?_, fun k hk => (hset k).trans (if_neg hk), rfl⟩
  · rw [hown]; rfl
  · rw [hown]; rfl
  · rw [hown]; rfl
  · rw [hown]; rfl

end Sys2Proof.Machine
end

/-! # Host message rings and transmit rings -/

section
namespace Sys2Proof.Machine
set_option Elab.async false

/-! ## Rings -/

theorem ringSize_le (s : State) (k : Nat) : 0 < ringSize s k ∧ ringSize s k ≤ 2 ^ 12 := by
  refine ⟨Nat.two_pow_pos _, Nat.pow_le_pow_right (by omega) (by omega)⟩

theorem ringSize_keeps {L : List Nat} {s t : State} (h : keepsRegs L s t) {k : Nat} (hx : R.hbRingCfg k ∉ L) :
    ringSize t k = ringSize s k := by rw [ringSize, h.bits hx, ringSize]

theorem ringHead_keeps {L : List Nat} {s t : State} (h : keepsRegs L s t) {k : Nat} (hx : R.hbRingCfg k ∉ L) (hy : R.hbRingHead k ∉ L) :
    ringHead t k = ringHead s k := by rw [ringHead, h.bits hy, ringSize_keeps h hx, ringHead]

theorem ringDescriptor_keeps {L : List Nat} {s t : State} (h : keepsRegs L s t) {k : Nat} (hL : ∀ x ∈ L, x < 0x602000 ∨ 0x603000 ≤ x)
    (hk : k < 32) : ringDescriptor t k = ringDescriptor s k := by
  have hout : ∀ x, 0x602000 ≤ x → x < 0x603000 → x ∉ L := fun x h1 h2 hm => by have := hL x hm; omega
  rw [ringDescriptor, h _ (hout _ (by simp only [R.hbRingBaseLo]; omega) (by simp only [R.hbRingBaseLo]; omega)),
    h _ (hout _ (by simp only [R.hbRingBaseHi]; omega) (by simp only [R.hbRingBaseHi]; omega)),
    ringHead_keeps h (hout _ (by simp only [R.hbRingCfg]; omega) (by simp only [R.hbRingCfg]; omega))
      (hout _ (by simp only [R.hbRingHead]; omega) (by simp only [R.hbRingHead]; omega)), ringDescriptor]

theorem hbRingCfg_ne_head (k : Nat) : R.hbRingCfg k ∉ [R.hbRingHead k] := by
  simp only [List.mem_singleton, R.hbRingCfg, R.hbRingHead]; omega

/-- The head of a ring moves on by one. -/
theorem ringHead_advanceHead (k : Nat) (s : State) : ringHead (advanceHead k s) k = (ringHead s k + 1) % ringSize s k := by
  obtain ⟨h0, h12⟩ := ringSize_le s k
  have hlt : (ringHead s k + 1) % ringSize s k < ringSize s k := Nat.mod_lt _ h0
  have hk : keepsRegs [R.hbRingHead k] s (advanceHead k s) := (keepsRegs_refl _ s).setBits (List.mem_singleton_self _) _ _ _
  rw [ringHead, ringSize_keeps hk (hbRingCfg_ne_head k), advanceHead, bits_setBits _ _ _ _ _ (by omega),
    Nat.mod_eq_of_lt (show (ringHead s k + 1) % ringSize s k < 2 ^ 12 by omega), Nat.mod_mod]

theorem writeBack_eq (k time low high : Nat) (s : State) :
    writeBack k time low high s = advanceHead k { s with pcie := { s.pcie with
      writes := s.pcie.writes ++ [(ringDescriptor s k + 16, bytesLE 8 time ++ bytesLE 4 low),
        (ringDescriptor s k + 28, bytesLE 4 high)] } } := by
  unfold writeBack hostWrite_
  dsimp only
  rw [List.append_assoc]
  rfl

theorem ringHead_writeBack (k time low high : Nat) (s : State) :
    ringHead (writeBack k time low high s) k = (ringHead s k + 1) % ringSize s k := by
  rw [writeBack_eq, ringHead_advanceHead]
  rfl

theorem writeBack_keeps (k time low high : Nat) (s : State) : keepsRegs [R.hbRingHead k] s (writeBack k time low high s) := by
  rw [writeBack_eq]
  exact keepsRegs.setBits (t := { s with pcie := _ }) (keepsRegs_refl _ s) (List.mem_singleton_self _) _ _ _

theorem writeBack_writes (k time low high : Nat) (s : State) :
    (writeBack k time low high s).pcie.writes = s.pcie.writes ++ [(ringDescriptor s k + 16, bytesLE 8 time ++ bytesLE 4 low),
      (ringDescriptor s k + 28, bytesLE 4 high)] := by rw [writeBack_eq]; rfl

/-! ## Messages to the host -/

theorem parkedMessage_none {s : State} (h : s.hb.parked = []) : parkedMessage s = none := by rw [parkedMessage, h]; rfl

theorem waitingAction_one {s : State} {x : HbAction} {a : Nat} (h : s.hb.actions = [x]) (ha : x.action = a) (hp : x.phase = .waiting) :
    waitingAction s a = some x := by
  rw [waitingAction, h]
  exact List.find?_cons_of_pos (by simp [ha, hp])

theorem parkedAhead_none {s : State} (h : s.hb.parked = []) (t : Nat) : parkedAhead s t = false := by
  rw [parkedAhead, h]
  split <;> rfl

theorem hostMessage_delivers {s : State} (b : DWord) {x : HbAction} (hbm : busMaster s = true) (hon : harbourOn s = true)
    (hp : s.hb.parked = []) (ha : s.hb.actions = [x]) (h1 : x.action = 1) (hw : x.phase = .waiting)
    (hr : ringReady s (16 + classRing s x.task.tag) = true) (hi : bit s (R.hbRingCfg (16 + classRing s x.task.tag)) 30 = false) :
    Completes (.hostMessage b) s fun t =>
      let k := 16 + classRing s x.task.tag
      t.pcie.writes = s.pcie.writes ++ [(b.toNat, x.task.words.flatMap fun w => bytesLE 8 w.toNat),
        (ringDescriptor s k + 16, bytesLE 8 x.task.dispatched ++ bytesLE 4 (x.task.tag <<< 16 + x.task.words.length)),
        (ringDescriptor s k + 28, bytesLE 4 (2 ^ 31 + classPriority s x.task.tag <<< 16))] ∧
      ringHead t k = (ringHead s k + 1) % ringSize s k ∧ t.hb = { s.hb with actions := [{ x with phase := .ended 0 }] } ∧
      keepsRegs [R.hbRingHead k] s t := by
  have hring : ringOn s (16 + classRing s x.task.tag) = true := by
    simp only [ringReady, Bool.and_eq_true] at hr
    exact hr.1.1
  generalize hk : 16 + classRing s x.task.tag = k at *
  have hdeliver : deliverMessage x.task b s = writeBack k x.task.dispatched (x.task.tag <<< 16 + x.task.words.length)
      (2 ^ 31 + classPriority s x.task.tag <<< 16) (hostWrite_ b.toNat (x.task.words.flatMap fun w => bytesLE 8 w.toNat) s) := by
    rw [deliverMessage, hk, if_neg]
    · rfl
    · rw [(writeBack_keeps k _ _ _ _).bit (hbRingCfg_ne_head k)]
      exact fun h => by rw [show bit s (R.hbRingCfg k) 30 = true from h] at hi; cases hi
  generalize hu : hostWrite_ b.toNat (x.task.words.flatMap fun w => bytesLE 8 w.toNat) s = u at hdeliver
  have hhb : (deliverMessage x.task b s).hb = s.hb := by rw [hdeliver, writeBack_eq, ← hu]; rfl
  have hrun : hostMessage b s = setAction x (.ended 0) (deliverMessage x.task b s) := by
    rw [hostMessage, hbm, hon, if_neg (by decide), parkedMessage_none hp]
    dsimp only
    rw [waitingAction_one ha h1 hw]
    dsimp only
    rw [hk, hring, if_neg (by decide), if_pos ⟨hr, by rw [parkedAhead_none hp]; decide⟩]
  have hrun' : hostMessage b s = setHb (writeBack k x.task.dispatched (x.task.tag <<< 16 + x.task.words.length)
      (2 ^ 31 + classPriority s x.task.tag <<< 16) u) { s.hb with actions := [{ x with phase := .ended 0 }] } := by
    rw [hrun, setAction, hhb, ha, replaceFirst, if_pos rfl, ← hdeliver]
  have hwrites := writeBack_writes k x.task.dispatched (x.task.tag <<< 16 + x.task.words.length)
    (2 ^ 31 + classPriority s x.task.tag <<< 16) u
  have hhead := ringHead_writeBack k x.task.dispatched (x.task.tag <<< 16 + x.task.words.length)
    (2 ^ 31 + classPriority s x.task.tag <<< 16) u
  have hkeep := writeBack_keeps k x.task.dispatched (x.task.tag <<< 16 + x.task.words.length)
    (2 ^ 31 + classPriority s x.task.tag <<< 16) u
  have hus : ringDescriptor u k = ringDescriptor s k ∧ u.pcie.writes = s.pcie.writes ++ [(b.toNat, x.task.words.flatMap fun w =>
      bytesLE 8 w.toNat)] ∧ ringHead u k = ringHead s k ∧ ringSize u k = ringSize s k ∧ u.regs = s.regs := by
    rw [← hu]
    exact ⟨rfl, rfl, rfl, rfl, rfl⟩
  obtain ⟨e1, e2, e3, e4, e5⟩ := hus
  refine ⟨_, congrArg Host.Outcome.next hrun', hwrites.trans ?_, hhead.trans ?_, rfl, fun y hy => (hkeep y hy).trans ?_⟩
  · rw [e1, e2, List.append_assoc]
    rfl
  · rw [e3, e4]
  · rw [reg, e5, reg]

theorem hostMessage_parks {s : State} (b : DWord) {x : HbAction} (hbm : busMaster s = true) (hon : harbourOn s = true)
    (hp : s.hb.parked = []) (ha : s.hb.actions = [x]) (h1 : x.action = 1) (hw : x.phase = .waiting)
    (ht : bit s R.hbTraceCtrl 31 = false) (hring : ringOn s (16 + classRing s x.task.tag) = true)
    (hr : ringReady s (16 + classRing s x.task.tag) = false) :
    exec (.hostMessage b) s = .next { s with hb := { s.hb with actions := [], parked := [⟨x.task, 1, none, false⟩] } } := by
  have hrun : hostMessage b s = park x s := by
    rw [hostMessage, hbm, hon, if_neg (by decide), parkedMessage_none hp]
    dsimp only
    rw [waitingAction_one ha h1 hw]
    dsimp only
    rw [hring, hr, if_neg (by decide), if_neg (by simp)]
  have hpark : park x s = hbTrace 6 x.task.tag 0
      { s with hb := { s.hb with actions := [], parked := [⟨x.task, 1, none, false⟩] } } := by
    rw [park, ha, List.erase_cons_head, parkTask, h1, show (setHb s { s.hb with actions := [] }).hb.parked = [] from hp]
    rfl
  exact congrArg Host.Outcome.next (hrun.trans (hpark.trans
    (hbTrace_off (s := { s with hb := { s.hb with actions := [], parked := [⟨x.task, 1, none, false⟩] } }) ht _ _ _)))

/-! ## Transmit rings -/

theorem txFetch_takes {k : Fin 16} {q : Bool} {ws : List DWord} {s : State} (hon : harbourOn s = true) (hbm : busMaster s = true)
    (hr : ringReady s k = true) (hf : find s.hb.tx k = none) (h1 : 1 ≤ ws.length) (h2 : ws.length ≤ 4096) :
    Completes (.txDescriptorFetch k q ws) s fun t =>
      find t.hb.tx k = some { irq := q, count := ws.length, words := ws } ∧
      (∀ j, j ≠ k.val → find t.hb.tx j = find s.hb.tx j) ∧ t.hb = { s.hb with tx := t.hb.tx } ∧
      t = { s with hb := t.hb } := by
  refine ⟨_, congrArg Host.Outcome.next (if_pos (by simp [hon, hbm, hr, hf, h1, h2])), ?_, fun j hj => ?_, rfl, rfl⟩
  · exact (find_enter _ _ _ _).trans (if_pos rfl)
  · exact (find_enter _ _ _ _).trans (if_neg hj)

/-- The end of a descriptor without an interrupt: its write-back, and the ring is free. -/
theorem txEnd_quiet {k status : Nat} {d : TxDescriptor} {s : State} (hq : d.irq = false) :
    txEnd k status d s = writeBack k d.time d.accepted (2 ^ 31 + status) (setHb s { s.hb with tx := drop s.hb.tx k }) := by
  rw [txEnd]
  dsimp only
  rw [hq, if_neg Bool.false_ne_true]

theorem txWriteBack_returns {k : Fin 16} {s : State} {d : TxDescriptor} (hf : find s.hb.tx k = some d) (hd : d.words = [])
    (hbm : busMaster s = true) (hon : harbourOn s = true) (hq : d.irq = false) :
    Completes (.txWriteBack k) s fun t =>
      find t.hb.tx k = none ∧ (∀ j, j ≠ k.val → find t.hb.tx j = find s.hb.tx j) ∧
      t.pcie.writes = s.pcie.writes ++ [
        (ringDescriptor s k + 16, bytesLE 8 d.time ++ bytesLE 4 d.accepted),
        (ringDescriptor s k + 28, bytesLE 4 (2 ^ 31))] ∧
      ringHead t k = (ringHead s k + 1) % ringSize s k ∧ keepsRegs [R.hbRingHead k] s t := by
  have hrun : txWriteBack k s = writeBack k d.time d.accepted (2 ^ 31 + 0) (setHb s { s.hb with tx := drop s.hb.tx k }) := by
    rw [txWriteBack, hf]
    dsimp only
    rw [hd, if_pos ⟨rfl, hbm, hon⟩, txEnd_quiet hq]
  have hhb : ∀ j, find (writeBack k d.time d.accepted (2 ^ 31 + 0) (setHb s { s.hb with tx := drop s.hb.tx k })).hb.tx j =
      if j = k.val then none else find s.hb.tx j := fun j => by
    rw [writeBack_eq]
    exact find_drop _ _ _
  refine ⟨_, congrArg Host.Outcome.next hrun, (hhb k).trans (if_pos rfl), fun j hj => (hhb j).trans (if_neg hj), writeBack_writes _ _ _ _ _,
    ringHead_writeBack _ _ _ _ _, fun y hy => (writeBack_keeps _ _ _ _ _ y hy).trans rfl⟩

/-! ## Registers of a ring -/

theorem regAt_hbRingTail : ∀ k : Fin 32, (regAt (R.hbRingTail k)).map (fun x => (x.1.rw, x.1.w1c, x.1.w1s)) = some (0xFFF, 0, 0) := by
  decide +kernel

theorem regAt_hbRingCfg : ∀ k : Fin 32, (regAt (R.hbRingCfg k)).map (fun x => (x.1.rw, x.1.w1c, x.1.w1s)) = some (0xC000000F, 0, 0) := by
  decide +kernel

/-- A bit of the RW mask of a register without W1C and W1S bits is plain. -/
theorem plainBit_of_rw {a m i : Nat} (h : (regAt a).map (fun x => (x.1.rw, x.1.w1c, x.1.w1s)) = some (m, 0, 0)) (hi : m.testBit i = true) :
    plainBit a i = true := by
  obtain ⟨⟨r, ix⟩, hr, hm⟩ := Option.map_eq_some_iff.1 h
  simp only [Prod.mk.injEq] at hm
  obtain ⟨h1, h2, h3⟩ := hm
  simp [plainBit, hr, h1, h2, h3, hi]

theorem writeFields_only (a : Nat) (v : Word) (s : State) :
    keepsRegs [a] s (writeFields a v s) ∧ writeFields a v s = { s with regs := (writeFields a v s).regs } := by
  obtain ⟨g, hg⟩ := writeFields_frame a v s
  exact ⟨(keepsRegs_refl _ s).writeFields (List.mem_singleton_self _) v, by rw [hg]⟩

theorem ringTail_written {k : Fin 32} {v : Word} {s : State} (hp : partyActs s .host = true) (hon : harbourOn s = true) :
    Completes (.ringTailWrite k v) s fun t =>
      bits t (R.hbRingTail k) 0 12 = bitsOf v 0 12 ∧ keepsRegs [R.hbRingTail k] s t ∧ t = { s with regs := t.regs } := by
  have hplain : ∀ i, i < 12 → plainBit (R.hbRingTail k) i = true := fun i hi =>
    plainBit_of_rw (regAt_hbRingTail k) ((by decide : ∀ i : Fin 12, (0xFFF : Nat).testBit i = true) ⟨i, hi⟩)
  obtain ⟨hkeep, hframe⟩ := writeFields_only (R.hbRingTail k) v s
  exact ⟨_, congrArg Host.Outcome.next ((performed_acts hp _).trans (if_pos hon)),
    bits_writeFields (fun i _ hi => hplain i (by omega)) (by omega) v s, hkeep, hframe⟩

theorem ringEnable_empties {k : Fin 32} {v : Word} {s : State} (hp : partyActs s .host = true) (hon : harbourOn s = true)
    (hv : v.getLsbD 31 = false) :
    Completes (.ringEnable k v) s fun t =>
      ringOn t k = false ∧ bits t (R.hbRingHead k) 0 12 = 0 ∧ bits t (R.hbRingTail k) 0 12 = 0 ∧
      find t.hb.tx k = none ∧ k.val ∉ t.hb.halted ∧
      keepsRegs [R.hbRingCfg k, R.hbRingHead k, R.hbRingTail k] s t := by
  have h31 : bit (writeFields (R.hbRingCfg k) v s) (R.hbRingCfg k) 31 = false :=
    (bit_writeFields (plainBit_of_rw (regAt_hbRingCfg k) (by decide)) (by omega) v s).trans hv
  obtain ⟨hkeep, hframe⟩ := writeFields_only (R.hbRingCfg k) v s
  have hrun : ringCfgWrite k v s = setBits (setBits (setHb (writeFields (R.hbRingCfg k) v s) { (writeFields (R.hbRingCfg k) v s).hb with
      tx := drop (writeFields (R.hbRingCfg k) v s).hb.tx k
      halted := (writeFields (R.hbRingCfg k) v s).hb.halted.filter (· ≠ k.val) }) (R.hbRingHead k) 0 12 0) (R.hbRingTail k) 0 12 0 := by
    rw [ringCfgWrite, hon, hv, if_neg (by decide)]
    rfl
  have hne : R.hbRingHead k ≠ R.hbRingTail k := by simp only [R.hbRingHead, R.hbRingTail]; omega
  have hcfg : R.hbRingCfg k ≠ R.hbRingHead k ∧ R.hbRingCfg k ≠ R.hbRingTail k := by
    simp only [R.hbRingHead, R.hbRingTail, R.hbRingCfg]; omega
  generalize writeFields (R.hbRingCfg k) v s = u at *
  refine ⟨_, congrArg Host.Outcome.next ((performed_acts hp _).trans hrun), ?_, ?_, ?_, ?_, ?_, ?_⟩
  · rw [ringOn, bit_setBits_ne _ _ _ _ _ _ _ (.inl hcfg.2), bit_setBits_ne _ _ _ _ _ _ _ (.inl hcfg.1)]
    exact h31
  · rw [bits_setBits_ne _ _ _ _ _ _ _ _ (.inl hne), bits_setBits _ _ _ _ _ (by omega)]
    rfl
  · rw [bits_setBits _ _ _ _ _ (by omega)]
    rfl
  · exact (find_drop _ _ _).trans (if_pos rfl)
  · show k.val ∉ u.hb.halted.filter (· ≠ k.val)
    simp
  · have hset : keepsRegs [R.hbRingCfg k, R.hbRingHead k, R.hbRingTail k] s (setHb u { u.hb with
        tx := drop u.hb.tx k, halted := u.hb.halted.filter (· ≠ k.val) }) := hkeep.mono (by simp)
    exact (hset.setBits (by simp) 0 12 0).setBits (by simp) 0 12 0

/-! ## Errors of the DMA paths -/

theorem raiseCause_frame (v : Nat) (s : State) :
    ∃ r l, raiseCause v s = { s with regs := r, pcie := { s.pcie with rising := l } } := by
  unfold raiseCause
  split
  · exact ⟨s.regs, s.pcie.rising, rfl⟩
  · exact ⟨_, _, rfl⟩

theorem causeBit_raiseCause (v : Nat) (s : State) : causeBit (raiseCause v s) v = true := by
  unfold raiseCause
  split
  · assumption
  · exact bit_setBit s (if v < 32 then R.glbIrqCauseLo else R.glbIrqCauseHi) (v % 32) true (Nat.mod_lt _ (by decide))

theorem raiseCause_keeps (v : Nat) (s : State) :
    keepsRegs [if v < 32 then R.glbIrqCauseLo else R.glbIrqCauseHi] s (raiseCause v s) := by
  cases h : causeBit s v with
  | true =>
    have he : raiseCause v s = s := if_pos h
    rw [he]
    exact keepsRegs_refl _ s
  | false =>
    have hset : keepsRegs [if v < 32 then R.glbIrqCauseLo else R.glbIrqCauseHi] s (setCause v true s) :=
      (keepsRegs_refl _ s).setBit (List.mem_singleton_self _) _ _
    have he : raiseCause v s = { setCause v true s with pcie := { s.pcie with rising := s.pcie.rising ++ [v] } } :=
      if_neg (by rw [h]; decide)
    rw [he]
    exact hset

/-- A cause that is raised under a condition. -/
def raiseIf (b : Bool) (v : Nat) (s : State) : State := if b then raiseCause v s else s

theorem raiseIf_frame (b : Bool) (v : Nat) (s : State) :
    ∃ r l, raiseIf b v s = { s with regs := r, pcie := { s.pcie with rising := l } } := by
  cases b
  · exact ⟨s.regs, s.pcie.rising, rfl⟩
  · exact raiseCause_frame v s

theorem causeBit_raiseIf (b : Bool) (v : Nat) (s : State) : causeBit (raiseIf b v s) v = (causeBit s v || b) := by
  cases b
  · exact (Bool.or_false _).symm
  · exact (causeBit_raiseCause v s).trans (Bool.or_true _).symm

theorem raiseIf_keeps (b : Bool) (v : Nat) (s : State) :
    keepsRegs [if v < 32 then R.glbIrqCauseLo else R.glbIrqCauseHi] s (raiseIf b v s) := by
  cases b
  · exact keepsRegs_refl _ s
  · exact raiseCause_keeps v s

/-- What a DMA error records in the device before its path ends. -/
structure DmaFaulted (ring cause : Nat) (loader descriptor : Bool) (s t : State) : Prop where
  hb : t.hb = s.hb
  ld : t.ld = s.ld
  writes : t.pcie.writes = s.pcie.writes
  uncorrectable : t.pcie.aer.uncorrectable = withBit s.pcie.aer.uncorrectable (aerBit cause) true
  signals : t.flt.signals = s.flt.signals ++ [⟨207, aerBit cause, false⟩]
  keeps : keepsRegs [R.glbDmaErr, R.glbIrqCauseHi] s t
  record : reg t R.glbDmaErr = BitVec.ofNat 32
    (ring <<< 27 + cause <<< 24 + loader.toNat <<< 23 + descriptor.toNat <<< 22 + satAdd 16 (bits s R.glbDmaErr 0 16) 1)
  raised : causeBit t 36 = (causeBit s 36 || bits s R.glbDmaErr 0 16 != 65535)

theorem sourceGone_pcieError (s : State) (info : Nat) : sourceGone s 207 info = false := by simp [sourceGone]

theorem aerBit_lt : ∀ c : Fin 8, aerBit c.val < 65536 := by decide

theorem dmaFault_eq (ring cause : Nat) (loader descriptor : Bool) (s : State) :
    dmaFault ring cause loader descriptor s = raiseIf (bits s R.glbDmaErr 0 16 != 65535) 36
      (pcieError (aerBit cause) (completionStatus cause (dmaRecord ring cause loader descriptor s))) := rfl

theorem dmaFault_faulted (ring : Nat) (c : Fin 8) (loader descriptor : Bool) (s : State) :
    DmaFaulted ring c.val loader descriptor s (dmaFault ring c.val loader descriptor s) := by
  rw [dmaFault_eq]
  obtain ⟨cfg, a, f, l, hp, hu⟩ := pcieError_frame (aerBit c.val) (completionStatus c.val (dmaRecord ring c.val loader descriptor s))
  have hs : (pcieError (aerBit c.val) (completionStatus c.val (dmaRecord ring c.val loader descriptor s))).flt.signals =
      s.flt.signals ++ [⟨207, aerBit c.val, false⟩] := by
    obtain ⟨a', f', hr, -⟩ := aerRecord_frame (aerBit c.val)
      (errorStatus (aerBit c.val) (completionStatus c.val (dmaRecord ring c.val loader descriptor s)))
    rw [pcieError, signals_signal (sourceGone_pcieError _ _) (by decide) (aerBit_lt c), hr]
    rfl
  have hregs : (pcieError (aerBit c.val) (completionStatus c.val (dmaRecord ring c.val loader descriptor s))).regs =
      (dmaRecord ring c.val loader descriptor s).regs := by rw [hp]; rfl
  have hhb : (pcieError (aerBit c.val) (completionStatus c.val (dmaRecord ring c.val loader descriptor s))).hb = s.hb := by
    rw [hp]; rfl
  have hld : (pcieError (aerBit c.val) (completionStatus c.val (dmaRecord ring c.val loader descriptor s))).ld = s.ld := by
    rw [hp]; rfl
  have hw : (pcieError (aerBit c.val) (completionStatus c.val (dmaRecord ring c.val loader descriptor s))).pcie.writes =
      s.pcie.writes := by rw [hp]; rfl
  have hunc : (pcieError (aerBit c.val) (completionStatus c.val (dmaRecord ring c.val loader descriptor s))).pcie.aer.uncorrectable =
      withBit s.pcie.aer.uncorrectable (aerBit c.val) true := by rw [hp]; exact hu
  generalize pcieError (aerBit c.val) (completionStatus c.val (dmaRecord ring c.val loader descriptor s)) = u at *
  have hreg : ∀ y, reg u y = reg (dmaRecord ring c.val loader descriptor s) y := fun y => by
    rw [reg, reg, hregs]
  have hcb : causeBit u 36 = causeBit s 36 := by
    rw [causeBit, bit, hreg]
    exact bit_setReg_ne _ _ _ _ _ (by decide)
  have hkeepu : keepsRegs [R.glbDmaErr, R.glbIrqCauseHi] s u := fun y hy => (hreg y).trans
    (((keepsRegs_refl _ s).setReg (List.mem_cons_self ..) _) y hy)
  have hkeep := raiseIf_keeps (bits s R.glbDmaErr 0 16 != 65535) 36 u
  have hbit := causeBit_raiseIf (bits s R.glbDmaErr 0 16 != 65535) 36 u
  obtain ⟨r, l', hf⟩ := raiseIf_frame (bits s R.glbDmaErr 0 16 != 65535) 36 u
  refine ⟨?_, ?_, ?_, ?_, ?_, ?_, ?_, ?_⟩
  · rw [hf]; exact hhb
  · rw [hf]; exact hld
  · rw [hf]; exact hw
  · rw [hf]; exact hunc
  · rw [hf]; exact hs
  · exact hkeepu.trans (hkeep.mono (by simp))
  · exact (hkeep _ (by decide)).trans ((hreg _).trans ((reg_setReg _ _ _ _).trans (if_pos rfl)))
  · rw [hbit, hcb]

theorem DmaFaulted.fields {ring cause : Nat} {loader descriptor : Bool} {s t : State} (h : DmaFaulted ring cause loader descriptor s t)
    (hr : ring < 32) (hc : cause < 8) :
    bits t R.glbDmaErr 27 5 = ring ∧ bits t R.glbDmaErr 24 3 = cause ∧ bit t R.glbDmaErr 22 = descriptor ∧
    bits t R.glbDmaErr 0 16 = min (bits s R.glbDmaErr 0 16 + 1) 65535 ∧ bit t R.glbDmaErr 23 = loader := by
  have hcount := bitsOf_lt (reg s R.glbDmaErr) 0 16
  have hb : ∀ lo n, bits t R.glbDmaErr lo n = bitsOf (reg t R.glbDmaErr) lo n := fun _ _ => rfl
  have h22 : ∀ j, bit t R.glbDmaErr j = decide (bitsOf (reg t R.glbDmaErr) j 1 = 1) := fun j => by
    rw [bit, bitsOf, Nat.shiftRight_eq_div_pow, BitVec.getLsbD, Nat.testBit_eq_decide_div_mod_eq, Nat.pow_one]
  rw [hb, hb, hb, h22, h22, h.record, satAdd]
  cases loader <;> cases descriptor <;>
    · simp only [bitsOf, BitVec.toNat_ofNat, Nat.shiftRight_eq_div_pow, Nat.shiftLeft_eq, Bool.toNat_true, Bool.toNat_false, bits] at hcount ⊢
      simp only [decide_eq_true_eq, decide_eq_false_iff_not]
      omega

/-- A DMA error of a bus master whose timeouts do not hide it reaches its path. -/
theorem dmaError_acts {c : Fin 8} {s : State} (h1 : 1 ≤ c.val) (h4 : c.val ≤ 4) (hbm : busMaster s = true)
    (ht : c.val = 3 → s.pcie.config.deviceControl2.getLsbD 4 = false) :
    ¬ (c.val = 0 ∨ 4 < c.val ∨ (!busMaster s) = true ∨ (c.val = 3 ∧ timeoutsOff s = true)) := by
  rintro (h | h | h | ⟨h, ho⟩)
  · omega
  · omega
  · rw [hbm] at h; cases h
  · rw [timeoutsOff, ht h] at ho; cases ho

theorem dmaError_descriptor {k : Fin 32} {c : Fin 8} {s : State} (h1 : 1 ≤ c.val) (h4 : c.val ≤ 4) (hbm : busMaster s = true)
    (hr : ringReady s k = true) (ht : c.val = 3 → s.pcie.config.deviceControl2.getLsbD 4 = false) :
    Completes (.dmaError (.ringDescriptor k) c) s fun t =>
      k.val ∈ t.hb.halted ∧ ringReady t k = false ∧ bits t R.glbDmaErr 27 5 = k ∧ bits t R.glbDmaErr 24 3 = c ∧
      bit t R.glbDmaErr 22 = true ∧ bits t R.glbDmaErr 0 16 = min (bits s R.glbDmaErr 0 16 + 1) 65535 ∧
      causeBit t 36 = (causeBit s 36 || bits s R.glbDmaErr 0 16 != 65535) ∧
      t.pcie.aer.uncorrectable = withBit s.pcie.aer.uncorrectable (aerBit c) true ∧
      t.flt.signals = s.flt.signals ++ [⟨207, aerBit c, false⟩] ∧ keepsRegs [R.glbDmaErr, R.glbIrqCauseHi] s t ∧
      t.pcie.writes = s.pcie.writes := by
  have hrun : dmaError (.ringDescriptor k) c.val s = haltRing k (dmaFault k c.val false true s) := by
    rw [dmaError, if_neg (dmaError_acts h1 h4 hbm ht)]
    exact if_pos hr
  have hd := dmaFault_faulted k c false true s
  generalize dmaFault k c.val false true s = u at *
  obtain ⟨f1, f2, f3, f4, -⟩ := hd.fields k.isLt c.isLt
  refine ⟨_, congrArg Host.Outcome.next hrun, List.mem_cons_self .., ?_, f1, f2, f3, f4, hd.raised, hd.uncorrectable, hd.signals, hd.keeps,
    hd.writes⟩
  simp [ringReady, haltRing, setHb]

/-- The end of a descriptor whose interrupt its own bit asks for. -/
theorem txEnd_eq (k status : Nat) (d : TxDescriptor) (s : State) :
    txEnd k status d s = raiseIf d.irq (16 + k) (writeBack k d.time d.accepted (2 ^ 31 + status) (setHb s { s.hb with tx := drop s.hb.tx k })) :=
  rfl

theorem dmaError_operand {k : Fin 16} {q : Bool} {c : Fin 8} {s : State} (h1 : 1 ≤ c.val) (h4 : c.val ≤ 4) (hbm : busMaster s = true)
    (hr : ringReady s k = true) (ht : c.val = 3 → s.pcie.config.deviceControl2.getLsbD 4 = false) (hf : find s.hb.tx k = none) :
    Completes (.dmaError (.ringOperand (k.castLE (by decide)) q) c) s fun t =>
      t.pcie.writes = s.pcie.writes ++ [(ringDescriptor s k + 16, bytesLE 8 0 ++ bytesLE 4 0),
        (ringDescriptor s k + 28, bytesLE 4 (2 ^ 31 + 7))] ∧
      ringHead t k = (ringHead s k + 1) % ringSize s k ∧ find t.hb.tx k = none ∧
      causeBit t (16 + k) = (causeBit s (16 + k) || q) ∧ bits t R.glbDmaErr 27 5 = k ∧ bits t R.glbDmaErr 24 3 = c ∧
      bits t R.glbDmaErr 0 16 = min (bits s R.glbDmaErr 0 16 + 1) 65535 ∧
      t.flt.signals = s.flt.signals ++ [⟨207, aerBit c, false⟩] := by
  have hd := dmaFault_faulted k c false false s
  have hrun : dmaError (.ringOperand (k.castLE (by decide)) q) c.val s = operandError k q (dmaFault k c.val false false s) := by
    rw [dmaError, if_neg (dmaError_acts h1 h4 hbm ht)]
    exact if_pos ⟨k.isLt, hr⟩
  generalize dmaFault k c.val false false s = u at *
  have hfu : find u.hb.tx k = none := by rw [hd.hb]; exact hf
  have hop : operandError k q u = raiseIf q (16 + k) (writeBack k 0 0 (2 ^ 31 + 7) (setHb u { u.hb with tx := drop u.hb.tx k })) := by
    rw [operandError, hfu]
    rfl
  obtain ⟨f1, f2, -, f4, -⟩ := hd.fields (by omega) c.isLt
  have hw := writeBack_writes k 0 0 (2 ^ 31 + 7) (setHb u { u.hb with tx := drop u.hb.tx k })
  have hh := ringHead_writeBack k 0 0 (2 ^ 31 + 7) (setHb u { u.hb with tx := drop u.hb.tx k })
  have hk := writeBack_keeps k 0 0 (2 ^ 31 + 7) (setHb u { u.hb with tx := drop u.hb.tx k })
  have htx : find (writeBack k 0 0 (2 ^ 31 + 7) (setHb u { u.hb with tx := drop u.hb.tx k })).hb.tx k = none := by
    rw [writeBack_eq]
    exact (find_drop _ _ _).trans (if_pos rfl)
  have hsig : (writeBack k 0 0 (2 ^ 31 + 7) (setHb u { u.hb with tx := drop u.hb.tx k })).flt = u.flt := by
    rw [writeBack_eq]
    rfl
  generalize writeBack k 0 0 (2 ^ 31 + 7) (setHb u { u.hb with tx := drop u.hb.tx k }) = w at *
  have hkr := raiseIf_keeps q (16 + k) w
  have hcr := causeBit_raiseIf q (16 + k) w
  obtain ⟨r, l, hfr⟩ := raiseIf_frame q (16 + k) w
  have hlo : (if 16 + k.val < 32 then R.glbIrqCauseLo else R.glbIrqCauseHi) = R.glbIrqCauseLo := if_pos (by omega)
  rw [hlo] at hkr
  have hku : keepsRegs [R.glbDmaErr, R.glbIrqCauseHi] s (setHb u { u.hb with tx := drop u.hb.tx k }) := hd.keeps
  have hout : ∀ x ∈ [R.glbDmaErr, R.glbIrqCauseHi], x < 0x602000 ∨ 0x603000 ≤ x := by decide
  have hhead : R.hbRingHead k ∉ [R.glbIrqCauseLo] ∧ R.hbRingCfg k ∉ [R.glbIrqCauseLo] ∧
      R.hbRingHead k ∉ [R.glbDmaErr, R.glbIrqCauseHi] ∧ R.hbRingCfg k ∉ [R.glbDmaErr, R.glbIrqCauseHi] ∧
      R.glbDmaErr ∉ [R.hbRingHead k] ∧ R.glbIrqCauseLo ∉ [R.hbRingHead k] := by
    simp only [List.mem_cons, List.not_mem_nil, or_false, R.hbRingHead, R.hbRingCfg, R.glbIrqCauseLo, R.glbIrqCauseHi, R.glbDmaErr]
    omega
  obtain ⟨n1, n2, n3, n4, n5, n6⟩ := hhead
  have herr : ∀ lo n, bits (raiseIf q (16 + k) w) R.glbDmaErr lo n = bits u R.glbDmaErr lo n := fun lo n =>
    (hkr.bits (by decide) lo n).trans (hk.bits n5 lo n)
  have hbefore : causeBit w (16 + k) = causeBit s (16 + k) := by
    rw [causeBit, hlo, hk.bit n6, causeBit, hlo]
    exact hku.bit (by decide) _
  refine ⟨_, congrArg Host.Outcome.next (hrun.trans hop), ?_, ?_, ?_, ?_, ?_, ?_, ?_, ?_⟩
  · rw [hfr]
    refine hw.trans ?_
    rw [ringDescriptor_keeps hku hout (by omega)]
    exact congrArg (· ++ _) hd.writes
  · rw [ringHead_keeps hkr n2 n1, hh, ringHead_keeps hku n4 n3, ringSize_keeps hku n4]
  · rw [hfr]; exact htx
  · rw [hcr, hbefore]
  · rw [herr]; exact f1
  · rw [herr]; exact f2
  · rw [herr]; exact f4
  · rw [hfr]
    show w.flt.signals = _
    rw [hsig]
    exact hd.signals

theorem dmaError_timeoutsOff (p : DmaPurpose) {s : State} (h : s.pcie.config.deviceControl2.getLsbD 4 = true) :
    exec (.dmaError p 3) s = .next s :=
  congrArg Host.Outcome.next (if_pos (.inr (.inr (.inr ⟨rfl, h⟩))))

/-- Settles O31. -/
theorem harbourRings : Obligations.HarbourRings := by
  unfold Obligations.HarbourRings
  exact ⟨fun s b x hbm hon hp ha h1 hw hr hi => hostMessage_delivers b hbm hon hp ha h1 hw hr hi,
    fun s b x hbm hon hp ha h1 hw ht hring hr => hostMessage_parks b hbm hon hp ha h1 hw ht hring hr,
    fun k q ws s hon hbm hr hf h1 h2 => txFetch_takes hon hbm hr hf h1 h2,
    fun k s d hf hd hbm hon hq => txWriteBack_returns hf hd hbm hon hq,
    fun k v s hp hon => ringTail_written hp hon,
    fun k v s hp hon hv => ringEnable_empties hp hon hv,
    fun k c s h1 h4 hbm hr ht => dmaError_descriptor h1 h4 hbm hr ht,
    fun k q c s h1 h4 hbm hr ht hf => dmaError_operand h1 h4 hbm hr ht hf,
    fun p s h => dmaError_timeoutsOff p h⟩

end Sys2Proof.Machine
end

/-! # The block mover and the loop-back action -/

section
namespace Sys2Proof.Machine
set_option Elab.async false

/-! ## Copies between service banks -/

theorem forUpTo_succ {σ : Type} (n : Nat) (f : Nat → σ → σ) (s : σ) : forUpTo (n + 1) f s = f n (forUpTo n f s) := by
  rw [forUpTo, List.range_succ, List.foldl_append, ← forUpTo]
  rfl

theorem writeBytes_append (m : Mem) (a : Nat) (l r : List Byte) :
    writeBytes m a (l ++ r) = writeBytes (writeBytes m a l) (a + l.length) r := by
  induction l generalizing m a with
  | nil => rfl
  | cons b l ih => rw [List.cons_append, writeBytes, ih, writeBytes, List.length_cons, Nat.add_assoc, Nat.add_comm 1]

theorem wordBytes_concat (ws : List DWord) (w : DWord) : wordBytes (ws ++ [w]) = wordBytes ws ++ bytesLE 8 w.toNat := by
  simp [wordBytes]

theorem serviceMem_setServiceMem (s : State) (k : Nat) (m : Mem) (j : Nat) :
    serviceMem (setServiceMem s k m) j = if j = k then m else serviceMem s j := look_put _ _ _ _ _

/-- A range of a service bank goes on word by word. -/
theorem hbRange_service_add {a k o d : Nat} (h : hbRange a = .service k o) (hd : o + d < 2 ^ 18) :
    hbRange (a + d) = .service k (o + d) := by
  unfold hbRange at h ⊢
  dsimp only at h ⊢
  by_cases h1 : a / 2 ^ 36 % 16 < 4
  · rw [if_pos h1] at h; cases h
  rw [if_neg h1] at h
  by_cases h2 : a / 2 ^ 36 % 16 = 4 ∧ a % 2 ^ 36 < 2 ^ 22
  · rw [if_pos h2] at h
    cases h
    rw [if_neg (by omega), if_pos (by omega)]
    congr 1 <;> omega
  rw [if_neg h2] at h
  split at h <;> cases h

/-- What a copy of `f` into service bank `k` at `o` has done after its first `n` words. -/
structure CopiedTo (f : Nat → DWord) (k o n : Nat) (s t : State) : Prop where
  target : serviceMem t k = writeBytes (serviceMem s k) o (wordBytes ((List.range n).map f))
  others : ∀ j, j ≠ k → serviceMem t j = serviceMem s j
  hb : t.hb = s.hb
  ddr : t.ddr = s.ddr
  regs : t.regs = s.regs

theorem copiedTo_zero (f : Nat → DWord) (k o : Nat) (s : State) : CopiedTo f k o 0 s s :=
  ⟨rfl, fun _ _ => rfl, rfl, rfl, rfl⟩

theorem CopiedTo.succ {f : Nat → DWord} {k o n : Nat} {s t : State} (h : CopiedTo f k o n s t) :
    CopiedTo f k o (n + 1) s (setServiceMem t k (writeDWord (serviceMem t k) (o + 8 * n) (f n))) := by
  refine ⟨?_, fun j hj => ?_, h.hb, h.ddr, h.regs⟩
  · rw [serviceMem_setServiceMem, if_pos rfl, h.target, List.range_succ, List.map_append, List.map_singleton, wordBytes_concat,
      writeBytes_append, wordBytes_length, List.length_map, List.length_range, writeDWord]
  · rw [serviceMem_setServiceMem, if_neg hj, h.others j hj]

/-- The mover's copy between two service banks. -/
theorem hbCopy_service {src dst k k' o o' : Nat} {s : State} (hs : hbRange src = .service k o) (hd : hbRange dst = .service k' o')
    (hk : k ≠ k') : ∀ n, o + 8 * n ≤ 2 ^ 18 → o' + 8 * n ≤ 2 ^ 18 →
    CopiedTo (fun j => readDWord (serviceMem s k) (o + 8 * j)) k' o' n s
      (forUpTo n (fun j acc => hbWriteWord (dst + 8 * j) (hbReadWord acc (src + 8 * j)) acc) s)
  | 0, _, _ => copiedTo_zero _ _ _ _
  | n + 1, h1, h2 => by
    have ih := hbCopy_service (s := s) hs hd hk n (by omega) (by omega)
    rw [forUpTo_succ]
    generalize forUpTo n (fun j acc => hbWriteWord (dst + 8 * j) (hbReadWord acc (src + 8 * j)) acc) s = t at *
    rw [hbReadWord, hbRange_service_add hs (by omega), hbWriteWord, hbRange_service_add hd (by omega)]
    dsimp only
    rw [ih.others k hk]
    exact ih.succ

theorem rangeStatus_service {s : State} {w : Bool} {a n k o : Nat} (ha : hbRange a = .service k o) (h : rangeStatus s w a n = 0) :
    n % 8 = 0 ∧ o + n ≤ 2 ^ 18 := by
  unfold rangeStatus at h
  rw [ha] at h
  dsimp only at h
  by_cases h1 : a % 8 ≠ 0 ∨ ¬ lengthOk n
  · rw [if_pos h1] at h; cases h
  rw [if_neg h1] at h
  by_cases h2 : (!serviceOn s k) = true ∨ 2 ^ 18 < o + n
  · rw [if_pos h2] at h; cases h
  refine ⟨?_, by omega⟩
  have hl : lengthOk n = true := by simpa using (not_or.1 h1).2
  rw [lengthOk] at hl
  simp only [Bool.and_eq_true, beq_iff_eq] at hl
  exact hl.1.1

/-! ## The one action in flight -/

theorem movable_one {s : State} {x : HbAction} {a : Nat} (h : s.hb.actions = [x]) (ha : x.action = a) (hm : canMove s x = true) :
    movable s a = some x := by
  rw [movable, h]
  simp [ha, hm]

theorem setAction_one {s : State} {x : HbAction} (h : s.hb.actions = [x]) (p : HbPhase) :
    (setAction x p s).hb = { s.hb with actions := [{ x with phase := p }] } := by
  rw [setAction, h]
  simp [replaceFirst, setHb]

theorem blockMover_copies {s : State} {x : HbAction} {k k' o o' : Nat} (ha : s.hb.actions = [x]) (h2 : x.action = 2)
    (hw : x.phase = .waiting) (hs : hbRange (slotValue x.task 0) = .service k o) (hd : hbRange (slotValue x.task 1) = .service k' o')
    (hk : k ≠ k') (hrs : rangeStatus s false (slotValue x.task 0) (slotValue x.task 2) = 0)
    (hws : rangeStatus s true (slotValue x.task 1) (slotValue x.task 2) = 0) :
    Completes .blockMover s fun t =>
      let n := slotValue x.task 2
      (∀ j, j < n / 8 → readDWord (serviceMem t k') (o' + 8 * j) = readDWord (serviceMem s k) (o + 8 * j)) ∧
      (∀ a, ¬ (o' ≤ a ∧ a < o' + n) → readByte (serviceMem t k') a = readByte (serviceMem s k') a) ∧
      (∀ j, j ≠ k' → serviceMem t j = serviceMem s j) ∧
      t.hb = { s.hb with actions := [{ x with phase := .ended 0 }] } ∧ t.ddr = s.ddr ∧ t.regs = s.regs := by
  obtain ⟨hn, hsl⟩ := rangeStatus_service hs hrs
  obtain ⟨-, hdl⟩ := rangeStatus_service hd hws
  have hc := hbCopy_service (s := s) hs hd hk (slotValue x.task 2 / 8) (by omega) (by omega)
  have hrun : blockMover s = setAction x (.ended 0) (hbCopy (slotValue x.task 0) (slotValue x.task 1) (slotValue x.task 2) s) := by
    rw [blockMover, movable_one ha h2 (by rw [canMove, hw])]
    dsimp only
    rw [if_pos hw, moverStart, if_neg (not_not.2 hrs), if_neg (not_not.2 hws), wordRequest, hs, wordRequest, hd, hbTouch, hbTouch, hs, hd]
    exact if_neg (by simp)
  rw [← hbCopy] at hc
  generalize hbCopy (slotValue x.task 0) (slotValue x.task 1) (slotValue x.task 2) s = t at *
  have hm : ∀ j, serviceMem (setAction x (.ended 0) t) j = serviceMem t j := fun _ => rfl
  refine ⟨_, congrArg Host.Outcome.next hrun, fun j hj => ?_, fun a hout => ?_, fun j hj => (hm j).trans (hc.others j hj), ?_, hc.ddr, hc.regs⟩
  · rw [hm, hc.target, readDWord_written _ _ _ (by simpa using hj)]
    simp [List.getElem?_range (show j < slotValue x.task 2 / 8 from hj)]
  · rw [hm, hc.target, readByte_writeBytes, wordBytes_length, List.length_map, List.length_range, if_neg (by omega)]
  · rw [setAction_one (by rw [hc.hb, ha]), hc.hb]

theorem blockMover_refuses {s : State} {x : HbAction} (ha : s.hb.actions = [x]) (h2 : x.action = 2) (hw : x.phase = .waiting)
    (hb : inBank (slotValue x.task 0) = false) (hr : rangeStatus s false (slotValue x.task 0) (slotValue x.task 2) ≠ 0) :
    exec .blockMover s = .next { s with hb := { s.hb with actions :=
      [{ x with phase := .ended (rangeStatus s false (slotValue x.task 0) (slotValue x.task 2)) }] } } := by
  have href : ∀ r, refuseRange (slotValue x.task 0) r s = s := fun r => by
    unfold inBank at hb
    unfold refuseRange
    split at hb
    · cases hb
    · rfl
  refine congrArg Host.Outcome.next ?_
  show blockMover s = _
  rw [blockMover, movable_one ha h2 (by rw [canMove, hw])]
  dsimp only
  rw [if_pos hw, moverStart, if_pos hr, href]
  exact congrArg (setHb s) ((setAction_one ha _ : _))

/-! ## Requests of Harbour and their answers -/

/-- What a request that finds its route leaves, besides the flits on their way. -/
structure Requested (dst tag : Nat) (s t : State) : Prop where
  hb : t.hb = s.hb
  outstanding : (ni t 134).outstanding = (ni s 134).outstanding ++ [⟨tag, dst, none, 1⟩]
  banks : t.banks = s.banks
  ddr : t.ddr = s.ddr
  clusters : t.clusters = s.clusters
  flt : t.flt = s.flt

theorem hbRequest_requested {vc kind dst tag : Nat} {payload : List DWord} {s : State} (h : routeValid s 134 dst = true) :
    Requested dst tag s (hbRequest vc kind dst tag payload s) := by
  have hn : hbRequest vc kind dst tag payload s = inject 134 (mkPacket vc kind (routeCodes s 134 dst) 152 dst tag 0 0 payload)
      (setNi s 134 { ni s 134 with outstanding := (ni s 134).outstanding ++ [⟨tag, dst, none, 1⟩] }) := if_pos h
  obtain ⟨g, y, d, b, e, -⟩ := inject_frame 134 (mkPacket vc kind (routeCodes s 134 dst) 152 dst tag 0 0 payload)
    (setNi s 134 { ni s 134 with outstanding := (ni s 134).outstanding ++ [⟨tag, dst, none, 1⟩] }) (sealHead_mkPacket _ _ _ _ _ _ _ _ _)
  rw [hn, e]
  refine ⟨rfl, ?_, rfl, rfl, rfl, rfl⟩
  have := ni_setNi s 134 { ni s 134 with outstanding := (ni s 134).outstanding ++ [⟨tag, dst, none, 1⟩] } 134
  exact congrArg Ni.outstanding (this.trans (if_pos rfl))

theorem Requested.setAction {dst tag : Nat} {s t : State} {x : HbAction} (h : Requested dst tag s t) (ha : s.hb.actions = [x]) (p : HbPhase) :
    (setAction x p t).hb = { s.hb with actions := [{ x with phase := p }] } := by
  rw [setAction_one (by rw [h.hb, ha]), h.hb]

/-- The fetch of a word that another unit must be asked for. -/
theorem blockMover_asks {s : State} {x : HbAction} {k g dst : Nat} {hd : DWord} (ha : s.hb.actions = [x]) (h2 : x.action = 2)
    (hm : x.phase = .moving k) (hk : k < moveWords x) (hq : wordRequest s false (slotValue x.task 0 + 8 * k) = some (dst, hd))
    (ht : hbTag s = some g) : blockMover s = setAction x (.reading k g) (hbRequest 1 1 dst g [hd] s) := by
  rw [blockMover, movable_one ha h2 (by rw [canMove, hm])]
  dsimp only
  rw [hm, if_neg (by simp), moveOn, hm]
  dsimp only
  rw [if_neg (by omega), moveFetch, hq]
  dsimp only
  rw [ht]

/-- What the taking of an answer leaves: the NI of Harbour without it and without its tag. -/
structure Taken (tag : Nat) (s t : State) : Prop where
  hb : t.hb = s.hb
  outstanding : (ni t 134).outstanding = ((ni s 134).outstanding.filter fun o => o.tag ≠ tag)
  banks : t.banks = s.banks
  regs : t.regs = s.regs
  flt : t.flt = s.flt

theorem hbTake_taken (tag : Nat) (p : Packet) (s : State) : Taken tag s (hbTake tag p s) := by
  refine ⟨rfl, ?_, rfl, rfl, rfl⟩
  simp [hbTake, releaseTag]

theorem ni_hbTake_responses (tag : Nat) (p : Packet) (s : State) :
    (ni (hbTake tag p s) 134).responses = (ni s 134).responses.erase p := by
  simp [hbTake, releaseTag]

theorem takeAnswer_takes {s : State} {x : HbAction} {g : Nat} {p : Packet} {next : DWord → HbPhase} (hp : hbAnswer s g = some p) :
    takeAnswer x g next s = setAction x (if headKind p.head = 4 then .ended 6 else next (p.payload.headD 0)) (hbTake g p s) := by
  rw [takeAnswer, hp]

theorem Taken.setAction {tag : Nat} {s t : State} {x : HbAction} (h : Taken tag s t) (ha : s.hb.actions = [x]) (p : HbPhase) :
    (setAction x p t).hb = { s.hb with actions := [{ x with phase := p }] } := by
  rw [setAction_one (by rw [h.hb, ha]), h.hb]

theorem blockMover_reads {s : State} {x : HbAction} {k g : Nat} {p : Packet} (ha : s.hb.actions = [x]) (h2 : x.action = 2)
    (hr : x.phase = .reading k g) (hp : hbAnswer s g = some p) (hk : headKind p.head ≠ 4) :
    Completes .blockMover s fun t =>
      t.hb = { s.hb with actions := [{ x with phase := .holding k (p.payload.headD 0) }] } ∧
      (ni t 134).outstanding = ((ni s 134).outstanding.filter fun o => o.tag ≠ g) ∧ t.banks = s.banks ∧
      t.regs = s.regs := by
  have hrun : blockMover s = setAction x (.holding k (p.payload.headD 0)) (hbTake g p s) := by
    rw [blockMover, movable_one ha h2 (by rw [canMove, hr]; exact Option.isSome_iff_exists.2 ⟨p, hp⟩)]
    dsimp only
    rw [hr, if_neg (by simp), moveOn, hr]
    dsimp only
    rw [takeAnswer_takes hp, if_neg hk]
  have h := hbTake_taken g p s
  exact ⟨_, congrArg Host.Outcome.next hrun, h.setAction ha _, h.outstanding, h.banks, h.regs⟩

theorem blockMover_ends {s : State} {x : HbAction} {k g : Nat} {p : Packet} (ha : s.hb.actions = [x]) (h2 : x.action = 2)
    (hr : x.phase = .writing k g) (hp : hbAnswer s g = some p) (hk : headKind p.head = 4) :
    Completes .blockMover s fun t =>
      t.hb = { s.hb with actions := [{ x with phase := .ended 6 }] } ∧ t.banks = s.banks ∧ t.regs = s.regs := by
  have hrun : blockMover s = setAction x (.ended 6) (hbTake g p s) := by
    rw [blockMover, movable_one ha h2 (by rw [canMove, hr]; exact Option.isSome_iff_exists.2 ⟨p, hp⟩)]
    dsimp only
    rw [hr, if_neg (by simp), moveOn, hr]
    dsimp only
    rw [takeAnswer_takes hp, if_pos hk]
  have h := hbTake_taken g p s
  exact ⟨_, congrArg Host.Outcome.next hrun, h.setAction ha _, h.banks, h.regs⟩

/-! ## Probes -/

theorem parkedAhead_idle {s : State} (h : s.hb.parked = []) (t : Nat) : parkedAhead s t = false := by
  unfold parkedAhead
  split
  · rfl
  · rw [h]; rfl

theorem loopBack_probes {s : State} {x : HbAction} {g : Nat} (ha : s.hb.actions = [x]) (h4 : x.action = 4) (hw : x.phase = .waiting)
    (hp : s.hb.parked = []) (hg : hbTag s = some g) (hr : routeValid s 134 (classCluster s x.task.tag) = true) :
    Completes .loopBack s fun t =>
      t.hb = { s.hb with actions := [{ x with phase := .probed g }] } ∧
      (ni t 134).outstanding = (ni s 134).outstanding ++ [⟨g, classCluster s x.task.tag, none, 1⟩] ∧
      t.clusters = s.clusters ∧ t.flt = s.flt := by
  have hrun : loopBack s = setAction x (.probed g) (sendProbe x.task g s) := by
    rw [loopBack, waitingAction_one ha h4 hw]
    dsimp only
    rw [parkedAhead_idle hp, if_neg Bool.false_ne_true, hg]
  have h : Requested (classCluster s x.task.tag) g s (sendProbe x.task g s) := hbRequest_requested hr
  exact ⟨_, congrArg Host.Outcome.next hrun, h.setAction ha _, h.outstanding, h.clusters, h.flt⟩

theorem moverTag_probed {s : State} {x : HbAction} {g : Nat} (ha : s.hb.actions = [x]) (hp : x.phase = .probed g) (t : Nat) :
    moverTag s t = false := by
  rw [moverTag, ha]
  simp [hp]

/-- The answer to the probe of the one action in flight. -/
theorem reservationAnswer_action {s : State} {x : HbAction} {p : Packet} {rest : List Packet} (hr : (ni s 134).responses = p :: rest)
    (ha : s.hb.actions = [x]) (hp : x.phase = .probed (headTag p.head % 64)) :
    reservationAnswer s = answerAction x p (hbTake (headTag p.head % 64) p s) := by
  have hfind : ((ni s 134).responses.find? fun q => !moverTag s (headTag q.head % 64)) = some p := by
    rw [hr, List.find?_cons_of_pos]
    rw [moverTag_probed ha hp]
    rfl
  have hact : (hbTake (headTag p.head % 64) p s).hb.actions = [x] := ha
  unfold reservationAnswer
  rw [hfind]
  dsimp only
  rw [hact, List.find?_cons_of_pos (by simp [hp])]

theorem reservationAnswer_grants {s : State} {x : HbAction} {p : Packet} {rest : List Packet} (hr : (ni s 134).responses = p :: rest)
    (ha : s.hb.actions = [x]) (hp : x.phase = .probed (headTag p.head % 64)) (hk : headKind p.head ≠ 4)
    (hb : (p.payload.headD 0).getLsbD 0 = true) :
    Completes .reservationAnswer s fun t =>
      t.hb = { s.hb with actions := [{ x with phase := .ended 0 }] } ∧ (ni t 134).responses = rest ∧
      (ni t 134).outstanding = ((ni s 134).outstanding.filter fun o => o.tag ≠ headTag p.head % 64) ∧ t.flt = s.flt := by
  have h := hbTake_taken (headTag p.head % 64) p s
  have hresp := ni_hbTake_responses (headTag p.head % 64) p s
  rw [hr, List.erase_cons_head] at hresp
  have hrun := (reservationAnswer_action hr ha hp).trans (show answerAction x p (hbTake (headTag p.head % 64) p s) = setAction x (.ended 0)
      (sendWords x.task (bitsOf (p.payload.headD 0) 8 6) (hbTake (headTag p.head % 64) p s)) by
    rw [answerAction, if_neg hk, if_pos hb])
  generalize hbTake (headTag p.head % 64) p s = u at *
  obtain ⟨g, y, d, b, e, -⟩ := inject_frame 134 (mkPacket 2 2 (orderCodes 2 (routeCodes u 134 (classCluster u x.task.tag))) 152
    (classCluster u x.task.tag) (bitsOf (p.payload.headD 0) 8 6) 0 0 x.task.words) u (sealHead_mkPacket _ _ _ _ _ _ _ _ _)
  rw [sendWords, e] at hrun
  exact ⟨_, congrArg Host.Outcome.next hrun, (h.setAction ha _), hresp, h.outstanding, h.flt⟩

theorem reservationAnswer_parks {s : State} {x : HbAction} {p : Packet} {rest : List Packet} (hr : (ni s 134).responses = p :: rest)
    (ha : s.hb.actions = [x]) (hp : x.phase = .probed (headTag p.head % 64)) (hk : headKind p.head ≠ 4)
    (hb : (p.payload.headD 0).getLsbD 0 = false) (h14 : bitsOf (p.payload.headD 0) 14 2 ≠ 1) (ht : bit s R.hbTraceCtrl 31 = false) :
    Completes .reservationAnswer s fun t =>
      t.hb = { s.hb with actions := [], parked := s.hb.parked ++ [⟨x.task, x.action, none, false⟩] } ∧
      (ni t 134).responses = rest ∧ t.regs = s.regs := by
  have h := hbTake_taken (headTag p.head % 64) p s
  have hresp := ni_hbTake_responses (headTag p.head % 64) p s
  rw [hr, List.erase_cons_head] at hresp
  have hrun := (reservationAnswer_action hr ha hp).trans (show answerAction x p (hbTake (headTag p.head % 64) p s) =
      park x (hbTake (headTag p.head % 64) p s) by
    rw [answerAction, if_neg hk, hb, if_neg Bool.false_ne_true, if_neg h14])
  generalize hbTake (headTag p.head % 64) p s = u at *
  have htu : bit u R.hbTraceCtrl 31 = false := by rw [bit, reg, h.regs]; exact ht
  have hpark : park x u = setHb u { u.hb with actions := [], parked := u.hb.parked ++ [⟨x.task, x.action, none, false⟩] } := by
    have hoff : ∀ hb, hbTrace 6 x.task.tag 0 (setHb u hb) = setHb u hb := fun hb => hbTrace_off (s := setHb u hb) htu _ _ _
    rw [park, parkTask, h.hb, ha, List.erase_cons_head]
    exact hoff _
  refine ⟨_, congrArg Host.Outcome.next (hrun.trans hpark), ?_, hresp, h.regs⟩
  rw [h.hb]
  rfl

theorem parkReprobe_probes {s : State} {p : HbParked} {g : Nat} (hp : s.hb.parked = [p]) (h4 : p.action = 4) (hn : p.probe = none)
    (hg : hbTag s = some g) (hr : routeValid s 134 (classCluster s p.task.tag) = true) :
    Completes .parkReprobe s fun t =>
      t.hb = { s.hb with parked := [{ p with probe := some g }] } ∧
      (ni t 134).outstanding = (ni s 134).outstanding ++ [⟨g, classCluster s p.task.tag, none, 1⟩] := by
  have hold : oldestParked s [p] [] = [p] := by simp [oldestParked, h4]
  have hset : setParked p { p with probe := some g } s = setHb s { s.hb with parked := [{ p with probe := some g }] } := by
    rw [setParked, hp]
    simp [replaceFirst]
  have hrun : parkReprobe s = sendProbe p.task g (setHb s { s.hb with parked := [{ p with probe := some g }] }) := by
    rw [parkReprobe, hp, hold, List.foldl_cons, List.foldl_nil, if_neg (by rw [hn]; decide), hg, ← hset]
  have h : Requested (classCluster s p.task.tag) g (setHb s { s.hb with parked := [{ p with probe := some g }] })
      (sendProbe p.task g (setHb s { s.hb with parked := [{ p with probe := some g }] })) := hbRequest_requested hr
  exact ⟨_, congrArg Host.Outcome.next hrun, h.hb, h.outstanding⟩

theorem parkTimeout_raises {s : State} {p : HbParked} (hp : s.hb.parked = [p]) (hr : p.raised = false) (ht : reg s R.hbParkTimeout ≠ 0)
    (hd : domainOn s 26 = true) :
    Completes .hbParkTimeout s fun t =>
      t.hb = { s.hb with parked := [{ p with raised := true }] } ∧
      t.flt.signals = s.flt.signals ++ [⟨231, p.task.tag % 65536, false⟩] ∧ t.regs = s.regs := by
  have hset : setParked p { p with raised := true } s = setHb s { s.hb with parked := [{ p with raised := true }] } := by
    rw [setParked, hp]
    simp [replaceFirst]
  have hrun : parkTimeout s = signal 231 p.task.tag (setHb s { s.hb with parked := [{ p with raised := true }] }) := by
    rw [parkTimeout, if_neg ht, hp, List.find?_cons_of_pos (by rw [hr]; rfl)]
    exact congrArg (signal 231 p.task.tag) hset
  have hgone : sourceGone (setHb s { s.hb with parked := [{ p with raised := true }] }) 231 p.task.tag = false := by
    have : domainOn (setHb s { s.hb with parked := [{ p with raised := true }] }) 26 = true := hd
    simp [sourceGone, domainSignals, this]
  have hsig : signal 231 p.task.tag (setHb s { s.hb with parked := [{ p with raised := true }] }) =
      { s with hb := { s.hb with parked := [{ p with raised := true }] }, flt := { s.flt with signals := s.flt.signals ++ [⟨231, p.task.tag % 65536, false⟩] } } := by
    rw [signal, hgone]
    rfl
  exact ⟨_, congrArg Host.Outcome.next (hrun.trans hsig), rfl, rfl, rfl⟩

/-- Settles O32. -/
theorem harbourActions : Obligations.HarbourActions := by
  unfold Obligations.HarbourActions
  refine ⟨fun s x k k' o o' ha h2 hw ⟨hs, hd, hk, hrs, hws⟩ => blockMover_copies ha h2 hw hs hd hk hrs hws,
    fun s x ha h2 hw hb hr => blockMover_refuses ha h2 hw hb hr,
    fun s x k b o g ha h2 hm hk hs hg hr => ?_,
    fun s x k g p ha h2 hr hp hk => blockMover_reads ha h2 hr hp hk,
    fun s x k g p ha h2 hr hp hk => blockMover_ends ha h2 hr hp hk,
    fun s x k c b g ha h2 hm hk hs hd hg hr => ?_,
    fun s x g ha h4 hw hp hg hr => loopBack_probes ha h4 hw hp hg hr,
    fun s x p rest hr ha hp hk hb => reservationAnswer_grants hr ha hp hk hb,
    fun s x p rest hr ha hp hk hb h14 ht => reservationAnswer_parks hr ha hp hk hb h14 ht,
    fun s p g hp h4 hn hg hr => parkReprobe_probes hp h4 hn hg hr,
    fun s p hp hr ht hd => parkTimeout_raises hp hr ht hd⟩
  · have h := hbRequest_requested (vc := 1) (kind := 1) (tag := g) (payload := [bankHeader false b o]) hr
    exact ⟨_, congrArg Host.Outcome.next (blockMover_asks ha h2 hm hk (by rw [wordRequest, hs]) hg), h.setAction ha _, h.outstanding, h.banks⟩
  · have h := hbRequest_requested (vc := 1) (kind := 1) (tag := g) (payload := [BitVec.ofNat 64 ((if false then 2 ^ 62 else 0) + b / 8)]) hr
    exact ⟨_, congrArg Host.Outcome.next (blockMover_asks ha h2 hm hk (by rw [wordRequest, hs]; dsimp only; rw [hd]; rfl) hg), h.setAction ha _,
      h.outstanding, h.ddr⟩

end Sys2Proof.Machine
end

/-! # Ends of actions, enable, flush and the message window of Harbour -/

section
namespace Sys2Proof.Machine
set_option Elab.async false

/-! ## Ends of actions -/

theorem domainOn_keeps {L : List Nat} {s t : State} (h : keepsRegs L s t) {d : Nat} (hL : R.pwrDomainStatus d ∉ L) :
    domainOn t d = domainOn s d := by rw [domainOn, h.bits hL, domainOn]

theorem hbClassC_above (k : Nat) : R.hbErr < R.hbClassC k := by
  simp only [R.hbErr, R.hbClassC]
  omega

/-- The one action in flight has ended and can leave. -/
theorem actionEnd_one {s : State} {x : HbAction} {k : Nat} (ha : s.hb.actions = [x]) (hp : x.phase = .ended k) (hc : canEnd s x.task = true) :
    actionEnd s = endTask x.task k (setHb s { s.hb with actions := [] }) := by
  rw [actionEnd, ha, List.find?_cons_of_pos (by rw [hp, hc]; rfl)]
  dsimp only
  rw [hp, List.erase_cons_head]

theorem canEnd_unnotified {s : State} {t : HbTask} (h : bit s (R.hbClassC (tagClass t.tag)) 31 = false) : canEnd s t = true := by
  rw [canEnd, h]
  rfl

/-- An action ends without an error and without a notification: nothing but the action leaves. -/
theorem endTask_silent {t : HbTask} {s : State} (ht : bit s R.hbTraceCtrl 31 = false) (hc : bit s (R.hbClassC (tagClass t.tag)) 31 = false) :
    endTask t 0 s = s := by
  rw [endTask, hbTrace_off ht]
  dsimp only
  rw [if_pos rfl, if_neg (by rw [show (reg s (R.hbClassC (tagClass t.tag))).getLsbD 31 = false from hc]; decide)]

theorem endTask_fails {t : HbTask} {k : Nat} {s : State} (hk : k ≠ 0) (ht : bit s R.hbTraceCtrl 31 = false)
    (hc : bit s (R.hbClassC (tagClass t.tag)) 31 = false) : endTask t k s = signal 232 t.tag (hbError t.tag k s) := by
  have hkeep : keepsRegs [R.hbErr] s (signal 232 t.tag (hbError t.tag k s)) :=
    ((((keepsRegs_refl _ s).setBits (List.mem_singleton_self _) _ _ _).setBits (List.mem_singleton_self _) _ _ _).bumpBits
      (List.mem_singleton_self _) _ _ _).signal _ _
  have hne : R.hbClassC (tagClass t.tag) ∉ [R.hbErr] := fun h => absurd (List.mem_singleton.1 h) (Nat.ne_of_gt (hbClassC_above _))
  have hbit : (reg (signal 232 t.tag (hbError t.tag k s)) (R.hbClassC (tagClass t.tag))).getLsbD 31 = false := by
    rw [hkeep _ hne]
    exact hc
  rw [endTask, hbTrace_off ht, if_neg hk]
  exact if_neg (by rw [hbit]; decide)

theorem hbError_fields (tag k : Nat) (s : State) :
    bits (hbError tag k s) R.hbErr 16 16 = tag % 65536 ∧ bits (hbError tag k s) R.hbErr 8 8 = k % 256 := by
  rw [hbError, bumpBits]
  constructor
  · rw [bits_setBits_ne _ _ _ _ _ _ _ _ (by omega), bits_setBits_ne _ _ _ _ _ _ _ _ (by omega), bits_setBits _ _ _ _ _ (by omega)]
    rfl
  · rw [bits_setBits_ne _ _ _ _ _ _ _ _ (by omega), bits_setBits _ _ _ _ _ (by omega)]
    rfl

theorem sourceGone_harbourSource {s : State} {k : Nat} (hd : domainOn s 26 = true) (h1 : 230 ≤ k) (h2 : k < 234) (info : Nat) :
    sourceGone s k info = false := by
  have h : k = 230 ∨ k = 231 ∨ k = 232 ∨ k = 233 := by omega
  rcases h with rfl | rfl | rfl | rfl <;> simp [sourceGone, domainSignals, hd]

theorem actionEnd_silent {s : State} {x : HbAction} (ha : s.hb.actions = [x]) (hp : x.phase = .ended 0) (ht : bit s R.hbTraceCtrl 31 = false)
    (hc : bit s (R.hbClassC (tagClass x.task.tag)) 31 = false) :
    exec .actionEnd s = .next { s with hb := { s.hb with actions := [] } } :=
  congrArg Host.Outcome.next ((actionEnd_one ha hp (canEnd_unnotified hc)).trans
    (endTask_silent (s := setHb s { s.hb with actions := [] }) ht hc))

theorem actionEnd_fails {s : State} {x : HbAction} {k : Nat} (ha : s.hb.actions = [x]) (hp : x.phase = .ended k) (hk : k ≠ 0) (hk8 : k < 256)
    (htag : x.task.tag < 65536) (ht : bit s R.hbTraceCtrl 31 = false) (hc : bit s (R.hbClassC (tagClass x.task.tag)) 31 = false)
    (hd : domainOn s 26 = true) :
    Completes .actionEnd s fun t =>
      t.hb = { s.hb with actions := [] } ∧ bits t R.hbErr 16 16 = x.task.tag ∧ bits t R.hbErr 8 8 = k ∧
      t.flt.signals = s.flt.signals ++ [⟨232, x.task.tag, false⟩] ∧ keepsRegs [R.hbErr] s t := by
  have hrun := (actionEnd_one ha hp (canEnd_unnotified hc)).trans (endTask_fails (s := setHb s { s.hb with actions := [] }) hk ht hc)
  obtain ⟨f1, f2⟩ := hbError_fields x.task.tag k (setHb s { s.hb with actions := [] })
  have hkeep : keepsRegs [R.hbErr] (setHb s { s.hb with actions := [] }) (hbError x.task.tag k (setHb s { s.hb with actions := [] })) :=
    (((keepsRegs_refl _ _).setBits (List.mem_singleton_self _) _ _ _).setBits (List.mem_singleton_self _) _ _ _).bumpBits
      (List.mem_singleton_self _) _ _ _
  have hframe : ∃ g, hbError x.task.tag k (setHb s { s.hb with actions := [] }) = { setHb s { s.hb with actions := [] } with regs := g } :=
    ⟨_, rfl⟩
  have hdom : domainOn (hbError x.task.tag k (setHb s { s.hb with actions := [] })) 26 = true :=
    (domainOn_keeps hkeep (by decide)).trans hd
  generalize hbError x.task.tag k (setHb s { s.hb with actions := [] }) = u at *
  obtain ⟨g, rfl⟩ := hframe
  have hsig := signals_signal (sourceGone_harbourSource (k := 232) hdom (by omega) (by omega) x.task.tag) (by omega) htag
  refine ⟨_, congrArg Host.Outcome.next hrun, ?_, ?_, ?_, hsig, fun y hy => (reg_signal _ _ _ _).trans (hkeep y hy)⟩
  · rw [signal_hb]
    rfl
  · rw [bits_signal, f1, Nat.mod_eq_of_lt htag]
  · rw [bits_signal, f2, Nat.mod_eq_of_lt hk8]

/-- The notify operand of a class word `c` for a task that ended without an error. -/
def notifyWord (c : Word) (tag : Nat) : DWord := BitVec.ofNat 64 (bitsOf c 0 16 <<< 48 + bitsOf c 16 3 <<< 45 + tag <<< 8 + 0)

theorem notifyWord_fields (c : Word) {tag : Nat} (h : tag < 65536) :
    opTag (notifyWord c tag) = bitsOf c 0 16 ∧ opSlot (notifyWord c tag) = bitsOf c 16 3 ∧ opValue (notifyWord c tag) = tag * 256 := by
  have h1 := bitsOf_lt c 0 16
  have h2 := bitsOf_lt c 16 3
  rw [opTag, opSlot, opValue, notifyWord]
  generalize bitsOf c 0 16 = p at *
  generalize bitsOf c 16 3 = q at *
  simp only [bitsOf, BitVec.toNat_ofNat, Nat.shiftRight_eq_div_pow, Nat.shiftLeft_eq]
  omega

theorem actionEnd_notifies {s : State} {x : HbAction} (ha : s.hb.actions = [x]) (hp : x.phase = .ended 0) (ht : bit s R.hbTraceCtrl 31 = false)
    (htag : x.task.tag < 65536) (hc : bit s (R.hbClassC (tagClass x.task.tag)) 31 = true) (hroom : s.hb.notifies.length + heldOf s 129 < 16) :
    Completes .actionEnd s fun t =>
      (∃ w, t.hb = { s.hb with actions := [], notifies := s.hb.notifies ++ [⟨w, 129⟩] } ∧
        opTag w = bits s (R.hbClassC (tagClass x.task.tag)) 0 16 ∧
        opSlot w = bits s (R.hbClassC (tagClass x.task.tag)) 16 3 ∧
        opValue w = x.task.tag * 256) ∧ t = { s with hb := t.hb } := by
  have hrun : actionEnd s = { s with hb := { s.hb with
      actions := [], notifies := s.hb.notifies ++ [⟨notifyWord (reg s (R.hbClassC (tagClass x.task.tag))) x.task.tag, 129⟩] } } := by
    have hoff : hbTrace 8 x.task.tag 0 (setHb s { s.hb with actions := [] }) = setHb s { s.hb with actions := [] } :=
      hbTrace_off (s := setHb s { s.hb with actions := [] }) ht _ _ _
    rw [actionEnd_one ha hp (by rw [canEnd, decide_eq_true hroom, Bool.or_true]), endTask, hoff, if_pos rfl]
    exact if_pos hc
  exact ⟨_, congrArg Host.Outcome.next hrun, ⟨_, rfl, notifyWord_fields _ htag⟩, rfl⟩

/-! ## Enable and flush -/

theorem look_foldl_put {α : Type} [DecidableEq α] (d : Nat → α) (f : Nat → α) (l : List Nat) (m : Sparse α) (j : Nat) :
    look d (l.foldl (fun m k => put d m k (f k)) m) j = if j ∈ l then f j else look d m j := by
  induction l generalizing m with
  | nil => simp
  | cons a l ih =>
    rw [List.foldl_cons, ih, look_put]
    by_cases h : j ∈ l
    · rw [if_pos h, if_pos (List.mem_cons_of_mem _ h)]
    · rw [if_neg h]
      by_cases hj : j = a
      · rw [if_pos hj, if_pos (hj ▸ List.mem_cons_self ..), hj]
      · rw [if_neg hj, if_neg (by simp [hj, h])]

theorem flush_empties {s : State} (hon : harbourOn s = true) (he : hbEnabled s = false) (ha : s.hb.actions = []) :
    Completes .flush s fun t =>
      t.hb.store = [] ∧ t.hb.ready = [] ∧ t.hb.parked = [] ∧ t.hb.actions = [] ∧ t.hb.notifies = [] ∧
      (∀ l, l < 4 → delayList t l = { delayList s l with tasks := [], going := 0 }) ∧ t = { s with hb := t.hb } := by
  have hrun : flush s = hbEmpty s := by
    rw [flush, hon, he, hbIdle, ha]
    rfl
  refine ⟨_, congrArg Host.Outcome.next hrun, rfl, rfl, rfl, rfl, rfl, fun l hl => ?_, rfl⟩
  exact (look_foldl_put _ _ _ _ _).trans (if_pos (List.mem_range.2 hl))

theorem flush_locked {s : State} (hon : harbourOn s = true) (h : hbEnabled s = true ∨ s.hb.actions ≠ []) :
    exec .flush s = .next (setBit s R.hbStatus 1 true) := by
  refine congrArg Host.Outcome.next (?_ : flush s = _)
  rw [flush, hon, if_neg (by decide)]
  refine if_neg ?_
  rcases h with h | h
  · simp [h]
  · simp [hbIdle, h]

/-! ## The message window -/

theorem windowWrite_delivers {lo hi : Word} {s : State} (hp : partyActs s .host = true) (hon : harbourOn s = true) :
    exec (.messageWindowWrite (some lo) (some hi)) s = .next (windowDeliver hi (setHb s { s.hb with windowLow := lo })) := by
  refine congrArg Host.Outcome.next ((performed_acts hp _).trans ?_)
  rw [windowWrite, hon]
  rfl

theorem window_queues {lo hi : Word} {s : State} (hp : partyActs s .host = true) (hon : harbourOn s = true) (hf : 0 < windowFree s) :
    exec (.messageWindowWrite (some lo) (some hi)) s = .next { s with hb := { s.hb with
      windowLow := lo, window := s.hb.window ++ [⟨ofHalves lo hi, 128⟩] } } :=
  (windowWrite_delivers hp hon).trans (congrArg Host.Outcome.next (if_neg (by
    rw [show windowFree (setHb s { s.hb with windowLow := lo }) = windowFree s from rfl]
    omega)))

theorem window_overruns {lo hi : Word} {s : State} (hp : partyActs s .host = true) (hon : harbourOn s = true) (hf : windowFree s = 0) :
    Completes (.messageWindowWrite (some lo) (some hi)) s fun t =>
      t.hb = { s.hb with windowLow := lo } ∧
      bits t R.hbWinCredit 16 16 = min (bits s R.hbWinCredit 16 16 + 1) 65535 ∧ keepsRegs [R.hbWinCredit] s t ∧
      t.flt.signals = s.flt.signals ++ [⟨233, opTag (ofHalves lo hi), false⟩] := by
  have hrun : windowDeliver hi (setHb s { s.hb with windowLow := lo }) =
      signal 233 (opTag (ofHalves lo hi)) (bumpBits (setHb s { s.hb with windowLow := lo }) R.hbWinCredit 16 16 1) := if_pos hf
  have hkeep : keepsRegs [R.hbWinCredit] (setHb s { s.hb with windowLow := lo })
      (bumpBits (setHb s { s.hb with windowLow := lo }) R.hbWinCredit 16 16 1) :=
    (keepsRegs_refl _ _).bumpBits (List.mem_singleton_self _) _ _ _
  have hd : domainOn (bumpBits (setHb s { s.hb with windowLow := lo }) R.hbWinCredit 16 16 1) 26 = true :=
    (domainOn_keeps hkeep (by decide)).trans (Bool.and_eq_true_iff.1 hon).2
  have hsig := signals_signal (sourceGone_harbourSource (k := 233) hd (by omega) (by omega) (opTag (ofHalves lo hi))) (by omega) (bitsOf_lt _ _ _)
  have hcount := bits_bumpBits (setHb s { s.hb with windowLow := lo }) R.hbWinCredit 16 16 1 (by omega)
  refine ⟨_, (windowWrite_delivers hp hon).trans (congrArg Host.Outcome.next hrun), ?_, (bits_signal _ _ _ _ _ _).trans hcount,
    fun y hy => (reg_signal _ _ _ _).trans (hkeep y hy), hsig⟩
  rw [signal_hb]
  rfl

/-- Settles O33. -/
theorem harbourControl : Obligations.HarbourControl := by
  unfold Obligations.HarbourControl
  exact ⟨fun s x ha hp ht hc => actionEnd_silent ha hp ht hc,
    fun s x k ha hp hk hk8 htag ht hc hd => actionEnd_fails ha hp hk hk8 htag ht hc hd,
    fun s x ha hp ht htag hc hroom => actionEnd_notifies ha hp ht htag hc hroom,
    fun s on hon => congrArg Host.Outcome.next (if_pos hon),
    fun s hon he ha => flush_empties hon he ha,
    fun s hon h => flush_locked hon h,
    fun lo hi s hp hon hf => window_queues hp hon hf,
    fun lo hi s hp hon hf => window_overruns hp hon hf⟩

end Sys2Proof.Machine
end

/-! # An END message at a gap of the stream -/

section
namespace Sys2Proof.Machine
set_option Elab.async false

/-- A child in load state 1 whose last rewind resumes the stream at byte 64 and that has taken no byte (log entry 114). -/
def childAtGap : State :=
  { State.reset with
    regs := [(R.ldStatus, 0x10000000), (R.ldCfg, 0x40000000)]
    ld := { State.reset.ld with going := true, data := [], gap := 64 } }

/-- The END of the stream at byte 64 fails the load: the device's own part has not arrived. -/
theorem childAtGap_fails : (endReceived 1 childAtGap).ld.reports ≠ childAtGap.ld.reports := by decide +kernel

/-- Refutes O34: an END beyond the bytes taken, but not beyond the place of the stream that a rewind has moved ahead, ends
the load with code 0x16 at once (R258). -/
theorem not_loadControl : ¬ Obligations.LoadControl := by
  intro h
  obtain ⟨-, -, -, -, -, -, -, -, -, -, -, hend, -⟩ := h
  obtain ⟨t, hexec, hld, -⟩ := hend 1 childAtGap (by decide +kernel) rfl (by decide +kernel) (by decide +kernel)
  have ht : endReceived 1 childAtGap = t := Host.Outcome.next.inj hexec
  exact childAtGap_fails (by rw [ht, hld])

end Sys2Proof.Machine
end

/-! # The image stream -/

section
namespace Sys2Proof.Machine
set_option Elab.async false

/-! ## Registers that the loader reads -/

theorem ldMode_keeps {L : List Nat} {s t : State} (h : keepsRegs L s t) (hL : R.ldCfg ∉ L) : ldMode t = ldMode s := by
  rw [ldMode, h.bits hL, ldMode]

theorem childLinks_keeps {L : List Nat} {s t : State} (h : keepsRegs L s t) (hL : R.ldCfg ∉ L) : childLinks t = childLinks s := by
  rw [childLinks, childLinks]
  exact List.filter_congr fun l _ => h.bit hL l

theorem ldState_keeps {L : List Nat} {s t : State} (h : keepsRegs L s t) (hL : R.ldStatus ∉ L) : ldState t = ldState s := by
  rw [ldState, h.bits hL, ldState]

theorem not_headerHere_short {d : List Byte} (h : headerHere d = false) : d.length < 4096 := by
  simpa [headerHere] using h

/-! ## Bytes that the checks still wait on -/

/-- The loader once bytes have come: those not yet forwarded wait for a whole load frame. -/
def joinTail (bs : List Byte) (x : Loader) : Loader :=
  joinStream { x with tail := (x.tail ++ bs).drop (32 * ((x.tail ++ bs).length / 32)) } bs

theorem forwardBytes_childless {s : State} (h : childLinks s = []) (bs : List Byte) :
    forwardBytes bs s = setLd { s.ld with tail := (s.ld.tail ++ bs).drop (32 * ((s.ld.tail ++ bs).length / 32)) } s := by
  rw [forwardBytes]
  dsimp only
  rw [h]
  rfl

/-- While the header has not come, and the stream has not ended, no check acts. -/
theorem advanceLoad_waits {s : State} (h1 : ldState s = 1) (ho : s.ld.headerOk = false) (hh : headerHere s.ld.data = false)
    (he : s.ld.endAt = none) : advanceLoad s = s := by
  have hh' : checkHeader s = s := by rw [checkHeader, if_neg (by rw [hh]; simp)]
  have ht : trimStream s = s := by rw [trimStream, ho, if_neg (by decide)]
  have htb : checkTable s = s := by rw [checkTable, if_neg (by rw [ho]; simp)]
  have hs : checkStaged s = s := by rw [checkStaged, if_neg (by omega)]
  rw [advanceLoad, hh', ht, htb, hs, checkEnd, he]

theorem takeStream_waits {bs : List Byte} {s u : State} (hu : countFailure s = u) (hgo : s.ld.going = true) (hc : childLinks s = [])
    (hcu : childLinks u = []) (h1 : ldState u = 1) (ho : u.ld.headerOk = false) (he : u.ld.endAt = none)
    (hh : headerHere (u.ld.data ++ List.replicate u.ld.gap 0 ++ bs.drop (min bs.length u.ld.skip)) = false) :
    takeStream bs s = setLd (joinTail bs u.ld) u := by
  have htake : childrenTake s bs.length = true := by
    rw [childrenTake, hc]
    rfl
  rw [takeStream, if_pos ⟨hgo, htake⟩, hu]
  dsimp only
  rw [forwardBytes_childless hcu]
  exact advanceLoad_waits (s := setLd (joinTail bs u.ld) u) h1 ho hh he

theorem countFailure_none {s : State} (h : s.ld.failing = none) : countFailure s = s := by rw [countFailure, h]

theorem joinTail_contiguous {bs : List Byte} {x : Loader} (hg : x.gap = 0) :
    joinTail bs x = { x with data := x.data ++ bs.drop (min bs.length x.skip), skip := x.skip - min bs.length x.skip
                             tail := (x.tail ++ bs).drop (32 * ((x.tail ++ bs).length / 32)) } := by
  obtain ⟨⟩ := x
  dsimp only at hg
  subst hg
  simp [joinTail, joinStream]

theorem streamFetch_takes {bs : List Byte} {s : State} (hm : ldMode s = 0) (hgo : s.ld.going = true) (he : s.ld.endAt = none)
    (hs : sourceStopped s = false) (hb : busMaster s = true) (hn : bs ≠ []) : streamFetch bs s = takeStream bs s := by
  rw [streamFetch, if_pos ⟨hm, hgo, by rw [he]; rfl, by rw [hs]; rfl, hb⟩, if_neg (by simpa using hn)]

theorem streamFetch_joins {bs : List Byte} {s : State} (hm : ldMode s = 0) (hgo : s.ld.going = true) (he : s.ld.endAt = none)
    (hs : sourceStopped s = false) (hb : busMaster s = true) (hn : bs ≠ []) (hc : childLinks s = []) (h1 : ldState s = 1)
    (ho : s.ld.headerOk = false) (hg : s.ld.gap = 0) (hf : s.ld.failing = none)
    (hh : headerHere (s.ld.data ++ bs.drop (min bs.length s.ld.skip)) = false) :
    Completes (.streamFetch bs) s fun t =>
      t.ld = { s.ld with data := s.ld.data ++ bs.drop (min bs.length s.ld.skip), skip := s.ld.skip - min bs.length s.ld.skip
                         tail := (s.ld.tail ++ bs).drop (32 * ((s.ld.tail ++ bs).length / 32)) } ∧
      t = { s with ld := t.ld } := by
  have hrun := (streamFetch_takes hm hgo he hs hb hn).trans (takeStream_waits (countFailure_none hf) hgo hc hc h1 ho he
    (by rw [hg, List.replicate_zero, List.append_nil]; exact hh))
  exact ⟨_, congrArg Host.Outcome.next hrun, joinTail_contiguous hg, rfl⟩

theorem shoreWord_joins {w : DWord} {s : State} (hm : ldMode s = 2) (hd : s.die.straps.getLsbD 0 = true) (hk : s.ld.skip = 0)
    (hg : s.ld.gap = 0) (hf : s.ld.failing = none) (hgo : s.ld.going = true) (he : s.ld.endAt = none) (hs : sourceStopped s = false)
    (hc : childLinks s = []) (h1 : ldState s = 1) (ho : s.ld.headerOk = false) (hh : headerHere (s.ld.data ++ bytesLE 8 w.toNat) = false) :
    Completes (.shoreWordTransfer w false) s fun t =>
      t.ld.data = s.ld.data ++ bytesLE 8 w.toNat ∧ t = { s with ld := t.ld } := by
  have hrun : shoreWord w false s = setLd (joinTail (bytesLE 8 w.toNat) s.ld) s := by
    rw [shoreWord, if_pos ⟨hm, hd, hgo, by rw [he]; rfl, by rw [hs]; rfl⟩, if_pos (by rw [childrenTake, hc]; rfl),
      takeStream_waits (countFailure_none hf) hgo hc hc h1 ho he (by rw [hg, hk, Nat.min_zero]; simpa using hh)]
    rfl
  refine ⟨_, congrArg Host.Outcome.next hrun, ?_, rfl⟩
  show (joinTail _ _).data = _
  rw [joinTail_contiguous hg, hk]
  rfl

/-! ## A stream that ends -/

theorem toChildren_childless {s : State} (h : childLinks s = []) (w : DWord) : toChildren w s = s := by rw [toChildren, h]; rfl

theorem traceEvent_off {s : State} (h : traceOn s = false) (code : Nat) : traceEvent code s = s := by
  rw [traceEvent, traceEvents, h]
  rfl

theorem traceOn_keeps {L : List Nat} {s t : State} (h : keepsRegs L s t) (hp : R.glbUnitPresent0 ∉ L) (hd : R.pwrDomainStatus 25 ∉ L) :
    traceOn t = traceOn s := by
  rw [traceOn, tracePresent, h.bit hp, domainOn_keeps h hd, traceOn, tracePresent]

/-- The loader fails: its state with its cause. -/
theorem setLdState_failed {s : State} (ht : traceOn s = false) : setLdState 8 s = raiseCause 34 (setBits s R.ldStatus 28 4 8) := by
  have hk : keepsRegs [R.ldStatus, R.glbIrqCauseHi] s (raiseCause 34 (setBits s R.ldStatus 28 4 8)) :=
    ((keepsRegs_refl _ s).setBits (by simp) _ _ _).trans ((raiseCause_keeps 34 _).mono (by simp))
  rw [setLdState, if_pos (.inr rfl), traceEvent_off ((traceOn_keeps hk (by decide) (by decide)).trans ht)]

/-- The device itself has a final status, and no child is awaited. -/
theorem finalStatus_own {s : State} {code o : Nat} (hc : childLinks s = []) (hr : s.ld.reports = []) (hm : ldMode s = 0) (h : code ≠ 0) :
    finalStatus 20 code o s = setBit (setBits (setBits (setLd { s.ld with reports := [(20, code, o)] } s) R.ldStatus 16 8 code)
      R.ldStatus 8 7 o) R.ldStatus 26 true := by
  have hg : groupResult [(20, code, o)] = (code, o) := by simp [groupResult, h]
  have hld : ∀ x, ldMode (setLd x s) = 0 ∧ childLinks (setLd x s) = [] := fun _ => ⟨hm, hc⟩
  rw [finalStatus, hr, List.filter_nil, List.nil_append, maybeReport]
  dsimp only
  rw [(hld _).2, if_pos ⟨by simp [setLd], rfl⟩, show (setLd { s.ld with reports := [(20, code, o)] } s).ld.reports = [(20, code, o)] from rfl,
    hg, (hld _).1]
  rfl

/-- A load that fails shows its code: the part after the reaches became invalid. -/
def loadFails (code : Nat) (s : State) : State :=
  let s := setBits (setBits s R.ldStatus 16 8 code) R.ldStatus 8 7 (ownOrdinal s)
  let s := setLdState 8 s
  let s := if ldMode s = 2 then setLd { s.ld with failBall := true, doneBall := false, rewindBall := false } s else s
  finalStatus 20 code (ownOrdinal s) s

theorem failLoad_eq (code : Nat) (s : State) : failLoad code s = loadFails code
    (if ¬ s.ld.cleared then s else if ldState s = 6 then invalidateAll s else setBits s R.ldReach 0 16 0) := by
  rw [failLoad, loadFails]

/-- What LD_STATUS shows of a failed load without children. -/
structure LoadFailed (code : Nat) (s t : State) : Prop where
  state : ldState t = 8
  code : bits t R.ldStatus 16 8 = code
  done : bit t R.ldStatus 26 = true
  endAt : t.ld.endAt = s.ld.endAt
  cause : causeBit t 34 = true
  regs : keepsRegs [R.ldStatus, R.glbIrqCauseHi] s t

theorem loadFails_failed {s : State} {code : Nat} (hc : childLinks s = []) (hr : s.ld.reports = [])
    (hm : ldMode s = 0) (ht : traceOn s = false) (h : code ≠ 0) (h8 : code < 256) : LoadFailed code s (loadFails code s) := by
  generalize hu : raiseCause 34 (setBits (setBits (setBits s R.ldStatus 16 8 code) R.ldStatus 8 7 (ownOrdinal s)) R.ldStatus 28 4 8) = u
  have hk0 : keepsRegs [R.ldStatus] s (setBits (setBits s R.ldStatus 16 8 code) R.ldStatus 8 7 (ownOrdinal s)) :=
    ((keepsRegs_refl _ s).setBits (List.mem_singleton_self _) _ _ _).setBits (List.mem_singleton_self _) _ _ _
  have hkr := raiseCause_keeps 34 (setBits (setBits (setBits s R.ldStatus 16 8 code) R.ldStatus 8 7 (ownOrdinal s)) R.ldStatus 28 4 8)
  have hk : keepsRegs [R.ldStatus, R.glbIrqCauseHi] s u := by
    rw [← hu]
    exact ((hk0.mono (by simp)).setBits (by simp) 28 4 8).trans (hkr.mono (by simp))
  have hld : u.ld = s.ld := by rw [← hu, raiseCause_ld]; rfl
  have hset : setLdState 8 (setBits (setBits s R.ldStatus 16 8 code) R.ldStatus 8 7 (ownOrdinal s)) = u :=
    (setLdState_failed ((traceOn_keeps hk0 (by decide) (by decide)).trans ht)).trans hu
  have hrun : loadFails code s = setBit (setBits (setBits (setLd { s.ld with reports := [(20, code, ownOrdinal u)] } u) R.ldStatus 16 8 code)
      R.ldStatus 8 7 (ownOrdinal u)) R.ldStatus 26 true := by
    rw [loadFails, hset]
    dsimp only
    rw [if_neg (by rw [ldMode_keeps hk (by decide)]; omega), finalStatus_own ((childLinks_keeps hk (by decide)).trans hc) (by rw [hld, hr])
      ((ldMode_keeps hk (by decide)).trans hm) h, hld]
  have h28 : bits u R.ldStatus 28 4 = 8 := by
    rw [← hu, hkr.bits (by decide), bits_setBits _ _ _ _ _ (by omega)]
    rfl
  have h34 : bit u R.glbIrqCauseHi 2 = true := by rw [← hu]; exact causeBit_raiseCause 34 _
  rw [hrun]
  refine ⟨?_, ?_, ?_, rfl, ?_, ?_⟩
  · rw [ldState, bits_setBit_ne _ _ _ _ _ _ _ (by omega), bits_setBits_ne _ _ _ _ _ _ _ _ (by omega),
      bits_setBits_ne _ _ _ _ _ _ _ _ (by omega)]
    exact h28
  · rw [bits_setBit_ne _ _ _ _ _ _ _ (by omega), bits_setBits_ne _ _ _ _ _ _ _ _ (by omega), bits_setBits _ _ _ _ _ (by omega),
      Nat.mod_eq_of_lt (show code < 2 ^ 8 from h8)]
  · exact bit_setBit _ _ _ _ (by omega)
  · rw [causeBit, if_neg (by omega), bit_setBit_ne _ _ _ _ _ _ (.inl (by decide)), bit_setBits_ne _ _ _ _ _ _ _ (.inl (by decide)),
      bit_setBits_ne _ _ _ _ _ _ _ (.inl (by decide))]
    exact h34
  · have hshown : keepsRegs [R.ldStatus, R.glbIrqCauseHi] s (setLd { s.ld with reports := [(20, code, ownOrdinal u)] } u) := hk
    exact ((hshown.setBits (by simp) _ _ _).setBits (by simp) _ _ _).setBit (by simp) _ _

theorem streamFetch_short {s : State} (hm : ldMode s = 0) (hgo : s.ld.going = true) (he : s.ld.endAt = none)
    (hs : sourceStopped s = false) (hc : childLinks s = []) (hb : busMaster s = true) (ho : s.ld.headerOk = false)
    (hp : loadInProgress s = true) (hcl : s.ld.cleared = false) (hr : s.ld.reports = []) (ht : traceOn s = false) :
    Completes (.streamFetch []) s fun t =>
      ldState t = 8 ∧ bits t R.ldStatus 16 8 = 0x16 ∧ bit t R.ldStatus 26 = true ∧
      t.ld.endAt = some (s.ld.data.length + s.ld.gap - s.ld.skip) ∧ causeBit t 34 = true := by
  have hrun : streamFetch [] s = failLoad 0x16 (setLd { s.ld with endAt := some (streamPlace s) } s) := by
    rw [streamFetch, if_pos ⟨hm, hgo, by rw [he]; rfl, by rw [hs]; rfl, hb⟩, List.isEmpty_nil, if_pos rfl, streamEnded]
    dsimp only
    rw [toChildren_childless (s := setLd { s.ld with endAt := some (streamPlace s) } s) hc]
    exact if_pos ⟨by simp [setLd, ho], .inl hp⟩
  have hfail : failLoad 0x16 (setLd { s.ld with endAt := some (streamPlace s) } s)
      = loadFails 0x16 (setLd { s.ld with endAt := some (streamPlace s) } s) := by
    rw [failLoad_eq]
    exact congrArg (loadFails 0x16) (if_pos (show ¬ s.ld.cleared = true by rw [hcl]; decide))
  have h := loadFails_failed (s := setLd { s.ld with endAt := some (streamPlace s) } s) (code := 0x16) hc hr hm ht (by decide) (by decide)
  exact ⟨_, congrArg Host.Outcome.next (hrun.trans hfail), h.state, h.code, h.done, h.endAt, h.cause⟩

end Sys2Proof.Machine
end

/-! # Sections, fetch failures and back-off of the image stream -/

section
namespace Sys2Proof.Machine
set_option Elab.async false

/-! ## Sections -/

theorem forUpTo_fixed {σ : Type} {f : Nat → σ → σ} {s : σ} (h : ∀ k, f k s = s) (n : Nat) : forUpTo n f s = s := by
  induction n with
  | zero => rfl
  | succ n ih => rw [forUpTo_succ, ih, h]

theorem reloadAdvance_idle {s : State} (h : rlState s ≠ 2) : reloadAdvance s = s := by
  have hone : (if rlState s = 2 ∧ s.rl.tableOk = true then reloadSection s else s) = s := if_neg fun hc => h hc.1
  have hstep : ∀ n, forUpTo n (fun _ acc => if rlState acc = 2 ∧ acc.rl.tableOk = true then reloadSection acc else acc) s = s :=
    forUpTo_fixed (f := fun _ acc => if rlState acc = 2 ∧ acc.rl.tableOk = true then reloadSection acc else acc) fun _ => hone
  have hfirst : (if rlState s = 2 ∧ s.rl.tableOk = false then reloadTable s else s) = s := if_neg fun hc => h hc.1
  rw [reloadAdvance, hfirst]
  dsimp only
  rw [hstep]
  exact if_neg fun hc => h hc.1

/-- While LINKS and BANKS are not all held, and the stream has not ended, a section that comes in moves no check on. -/
theorem advanceLoad_stages {s : State} (h2 : ldState s = 2) (hl : s.ld.data.length ≤ imageLength s.ld.data)
    (hst : stagedHere s = false) (he : s.ld.endAt = none) : advanceLoad s = s := by
  have hh : checkHeader s = s := by rw [checkHeader, if_neg (by omega)]
  have ht : trimStream s = s := by
    rw [trimStream, List.take_of_length_le hl]
    split <;> rfl
  have htb : checkTable s = s := by rw [checkTable, if_neg (by omega)]
  have hs : checkStaged s = s := by rw [checkStaged, hst, if_neg (by simp)]
  rw [advanceLoad, hh, ht, htb, hs, checkEnd, he]

theorem sectionReceived_keeps {s : State} {i : Nat} {x : Descriptor} (ht : s.ld.tableOk = true) (h2 : ldState s = 2) (hm : ldMode s = 0)
    (hs : sourceStopped s = false) (hf : s.ld.failed = []) (hr : s.ld.retry = none) (he : s.ld.endAt = none)
    (hmiss : s.ld.missing = []) (hl : s.ld.data.length ≤ imageLength s.ld.data) (hc : completeSection s = some (i, x))
    (hst : stagedHere { s with ld := { s.ld with good := enter s.ld.good i (bytesAt s.ld.data x.offset x.length) } } = false) :
    sectionReceived s = setLd (if hashGood x (bytesAt s.ld.data x.offset x.length) = true
      then { s.ld with good := enter s.ld.good i (bytesAt s.ld.data x.offset x.length) }
      else { s.ld with failed := [(ownOrdinal s, i)] }) s := by
  have hcame : bytesCame s x.offset (x.offset + x.length) = true := by
    rw [bytesCame, hmiss]
    rfl
  rw [sectionReceived]
  dsimp only
  rw [if_pos ⟨ht, by rw [h2]; rfl, by rw [hs]; rfl, by rw [hf]; rfl⟩, hc]
  dsimp only
  rw [hcame, Bool.true_and]
  cases hg : hashGood x (bytesAt s.ld.data x.offset x.length) with
  | false =>
    rw [if_neg Bool.false_ne_true, if_neg Bool.false_ne_true, toParent]
    rw [if_neg (show ¬ ldMode (setLd { s.ld with failed := s.ld.failed ++ [(ownOrdinal s, i)] } s) = 1 from fun h => by
      rw [show ldMode (setLd { s.ld with failed := s.ld.failed ++ [(ownOrdinal s, i)] } s) = ldMode s from rfl, hm] at h
      cases h), hf, List.nil_append]
  | true =>
    have hn : (s.ld.retry == some (ownOrdinal s, i)) = false := by rw [hr]; rfl
    rw [if_pos rfl, if_pos rfl, hn, if_neg Bool.false_ne_true, if_neg Bool.false_ne_true]
    exact advanceLoad_stages (s := setLd { s.ld with good := enter s.ld.good i (bytesAt s.ld.data x.offset x.length) } s) h2 hl hst he

theorem sectionReceived_settles {s : State} {i : Nat} {x : Descriptor} (ht : s.ld.tableOk = true) (h2 : ldState s = 2) (hm : ldMode s = 0)
    (hs : sourceStopped s = false) (hf : s.ld.failed = []) (hr : s.ld.retry = none) (he : s.ld.endAt = none) (hrl : rlState s = 0)
    (hmiss : s.ld.missing = []) (hl : s.ld.data.length ≤ imageLength s.ld.data) (hc : completeSection s = some (i, x))
    (hst : stagedHere { s with ld := { s.ld with good := enter s.ld.good i (bytesAt s.ld.data x.offset x.length) } } = false) :
    exec .sectionReceived s = .next (setLd (if hashGood x (bytesAt s.ld.data x.offset x.length) = true
      then { s.ld with good := enter s.ld.good i (bytesAt s.ld.data x.offset x.length) }
      else { s.ld with failed := [(ownOrdinal s, i)] }) s) := by
  have h0 : ∀ y, rlState (setLd y s) ≠ 2 := fun y => by
    rw [show rlState (setLd y s) = rlState s from rfl, hrl]
    decide
  refine congrArg Host.Outcome.next ?_
  rw [sectionReceived_keeps ht h2 hm hs hf hr he hmiss hl hc hst, reloadAdvance_idle (h0 _)]

/-! ## Fetch failures -/

/-- A fetch failure of a section, once the one before it has counted. -/
theorem fetchFailed_frame {cause o i : Nat} {s : State} (h : s.ld.failing = none) (hm : ldMode s = 0) :
    ∃ t, fetchFailed cause (some (o, i)) s = t ∧ keepsRegs [R.ldRetry, R.ldStatus] s t ∧
      bits t R.ldRetry 0 22 = bits s R.ldRetry 0 22 ∧
      bits t R.ldRetry 22 10 = backoffMs (if retryPassed s (some (o, i)) then 1 else s.ld.consecutive + 1) ∧
      bit t R.ldStatus 27 = true ∧
      t.ld = { s.ld with
        failing := some (cause, o, i), backing := true, retry := some (o, i)
        consecutive := if retryPassed s (some (o, i)) then 1 else s.ld.consecutive + 1, rewindBall := false
        failed := s.ld.failed.filter fun y => some y ≠ some (o, i) } := by
  generalize hc : (if retryPassed s (some (o, i)) then 1 else s.ld.consecutive + 1) = c
  have hms : backoffMs c < 2 ^ 10 := by
    unfold backoffMs
    split
    · exact Nat.lt_of_le_of_lt (Nat.pow_le_pow_right (by omega) (show c - 1 ≤ 9 by omega)) (by decide)
    · decide
  have hk : keepsRegs [R.ldRetry, R.ldStatus] s (signal 234 o (setRetrying true (setBits s R.ldRetry 22 10 (backoffMs c)))) :=
    (((keepsRegs_refl _ s).setBits (by simp) _ _ _).setBit (by simp) _ _).signal _ _
  have hr : ∀ lo n, bits (signal 234 o (setRetrying true (setBits s R.ldRetry 22 10 (backoffMs c)))) R.ldRetry lo n =
      bits (setBits s R.ldRetry 22 10 (backoffMs c)) R.ldRetry lo n := fun lo n => by
    rw [bits_signal, setRetrying, bits_setBit_ne _ _ _ _ _ _ _ (.inl (by decide))]
  have hs : bit (signal 234 o (setRetrying true (setBits s R.ldRetry 22 10 (backoffMs c)))) R.ldStatus 27 = true := by
    rw [bit_signal]
    exact bit_setBit _ _ _ _ (by omega)
  have hld : (signal 234 o (setRetrying true (setBits s R.ldRetry 22 10 (backoffMs c)))).ld = s.ld := by
    rw [signal_ld]
    rfl
  have hrun : fetchFailed cause (some (o, i)) s = setLd { s.ld with
        failing := some (cause, o, i), backing := true, retry := some (o, i), consecutive := c, rewindBall := false
        failed := s.ld.failed.filter fun y => some y ≠ some (o, i) }
      (signal 234 o (setRetrying true (setBits s R.ldRetry 22 10 (backoffMs c)))) := by
    have hmt : ldMode (signal 234 o (setRetrying true (setBits s R.ldRetry 22 10 (backoffMs c)))) = 0 :=
      (ldMode_keeps hk (by decide)).trans hm
    rw [fetchFailed, countFailure_none h]
    dsimp only [Option.isNone_some, Option.getD_some]
    simp only [Bool.false_eq_true, if_false]
    rw [hc, hld, hmt]
    rfl
  refine ⟨_, hrun, hk, ?_, ?_, hs, rfl⟩
  · exact (hr 0 22).trans (bits_setBits_ne _ _ _ _ _ _ _ _ (by omega))
  · exact (hr 22 10).trans ((bits_setBits _ _ _ _ _ (by omega)).trans (Nat.mod_eq_of_lt hms))

/-- The error of the host's source: a DMA error of the loader with a cause from 1 to 4. -/
theorem sourceFault_faulted (s : State) : ∃ c : Fin 8, DmaFaulted 0 c.val true false s (sourceFault s) := by
  obtain ⟨f, hf⟩ : ∃ f, (takeFree 2 s).2 = { s with free := f } := ⟨_, rfl⟩
  have hc : (if (takeFree 2 s).1.toNat + 1 = 3 ∧ timeoutsOff s then 4 else (takeFree 2 s).1.toNat + 1) < 8 := by
    have := (takeFree 2 s).1.isLt
    split <;> omega
  refine ⟨⟨_, hc⟩, ?_⟩
  have h := dmaFault_faulted 0 ⟨_, hc⟩ true false (takeFree 2 s).2
  rw [sourceFault]
  exact ⟨h.hb, h.ld, h.writes, h.uncorrectable, h.signals, h.keeps, h.record, h.raised⟩

theorem fetchFailure_backs {s : State} {o i : Nat} (hm : ldMode s = 0) (hgo : s.ld.going = true) (hs : sourceStopped s = false)
    (hb : busMaster s = true) (hh : sectionHere s = some (o, i)) (hf : s.ld.failing = none) :
    Completes (.fetchFailure true) s fun t =>
      let c := if retryPassed s (some (o, i)) then 1 else s.ld.consecutive + 1
      t.ld.backing = true ∧ t.ld.retry = some (o, i) ∧ t.ld.consecutive = c ∧ t.ld.failing = some (1, o, i) ∧
      bits t R.ldRetry 0 22 = bits s R.ldRetry 0 22 ∧ bits t R.ldRetry 22 10 = backoffMs c ∧
      reg t R.ldFail = reg s R.ldFail ∧
      bit t R.ldStatus 27 = true ∧ t.ld.data = s.ld.data ∧ bit t R.glbDmaErr 23 = true ∧
      bits t R.glbDmaErr 0 16 = min (bits s R.glbDmaErr 0 16 + 1) 65535 := by
  have hrun : fetchFailure true s = fetchFailed 1 (some (o, i)) (sourceFault s) := by
    rw [fetchFailure, if_pos ⟨by omega, hgo, by rw [hs]; rfl⟩, if_pos rfl, if_pos ⟨hm, hb⟩, hh]
  obtain ⟨c, hd⟩ := sourceFault_faulted s
  generalize sourceFault s = u at *
  obtain ⟨-, -, -, f4, f5⟩ := hd.fields (by omega) c.isLt
  obtain ⟨t, ht, hk, h1, h2, h3, hld⟩ := fetchFailed_frame (cause := 1) (o := o) (i := i) (s := u) (by rw [hd.ld]; exact hf)
    ((ldMode_keeps hd.keeps (by decide)).trans hm)
  have hp : retryPassed u (some (o, i)) = retryPassed s (some (o, i)) := by
    unfold retryPassed
    rw [hd.ld]
  rw [hd.ld, hp] at hld
  rw [hd.ld, hp] at h2
  refine ⟨_, congrArg Host.Outcome.next (hrun.trans ht), ?_, ?_, ?_, ?_, ?_, h2, ?_, h3, ?_, ?_, ?_⟩
  · rw [hld]
  · rw [hld]
  · rw [hld]
  · rw [hld]
  · exact h1.trans (hd.keeps.bits (by decide) 0 22)
  · exact (hk _ (by decide)).trans (hd.keeps _ (by decide))
  · rw [hld]
  · exact (hk.bit (by decide) 23).trans f5
  · exact (hk.bits (by decide) 0 16).trans f4

/-! ## The end of a back-off -/

theorem rewindTo_childless {s : State} (hc : childLinks s = []) (offset : Nat) :
    ∃ m h f, rewindTo offset s = setLd { s.ld with
      data := s.ld.data.take (max offset (checkedBytes s)), skip := (s.ld.data.take (max offset (checkedBytes s))).length - offset
      gap := offset - (s.ld.data.take (max offset (checkedBytes s))).length, missing := m, headerOk := h, tail := [], endAt := none
      rewinding := [], failed := f } s := by
  have hd : dropChildFrames s = s := by
    rw [dropChildFrames, hc]
    rfl
  refine ⟨(s.ld.missing.filter fun m => decide (m.1 < (s.ld.data.take (max offset (checkedBytes s))).length)).map fun m =>
      (m.1, min m.2 (s.ld.data.take (max offset (checkedBytes s))).length),
    s.ld.headerOk && headerHere (s.ld.data.take (max offset (checkedBytes s))), s.ld.failed.filter fun x => x.1 ≠ ownOrdinal s, ?_⟩
  rw [rewindTo, hd]
  dsimp only
  rw [toChildren_childless hc, hc]

/-- The back-off of a device without a parent and children ends. -/
theorem backoffExpiry_rewinds {s : State} {offset : Nat} (hb : s.ld.backing = true) (hm : ldMode s ≠ 1) (hc : childLinks s = [])
    (ho : (match s.ld.retry with
      | some x => if ldMode s = 2 then 0 else (descriptorAt s.ld.data x.2).offset
      | none => 0) = offset) :
    Completes .backoffExpiry s fun t =>
      t.ld.backing = false ∧ t.ld.data = s.ld.data.take (max offset (checkedBytes s)) ∧
      t.ld.skip = t.ld.data.length - offset ∧ t.ld.tail = [] ∧ t.ld.good = s.ld.good ∧ t.ld.rewindBall = false ∧
      bits t R.ldRetry 22 10 = 0 ∧ bit t R.ldStatus 27 = false ∧ keepsRegs [R.ldRetry, R.ldStatus] s t := by
  have hk : keepsRegs [R.ldRetry, R.ldStatus] s (setBits (setLd { s.ld with backing := false, rewindBall := false } s) R.ldRetry 22 10 0) :=
    keepsRegs.setBits (t := setLd { s.ld with backing := false, rewindBall := false } s) (keepsRegs_refl _ s) (by simp) _ _ _
  have h22 : bits (setBits (setLd { s.ld with backing := false, rewindBall := false } s) R.ldRetry 22 10 0) R.ldRetry 22 10 = 0 :=
    bits_setBits _ _ _ _ _ (by omega)
  have hld : (setBits (setLd { s.ld with backing := false, rewindBall := false } s) R.ldRetry 22 10 0).ld =
      { s.ld with backing := false, rewindBall := false } := rfl
  have hrun : backoffExpiry s = rewindDone (rewindTo offset
      (setBits (setLd { s.ld with backing := false, rewindBall := false } s) R.ldRetry 22 10 0)) := by
    rw [← ho]
    exact if_pos hb
  generalize setBits (setLd { s.ld with backing := false, rewindBall := false } s) R.ldRetry 22 10 0 = u at *
  obtain ⟨m, h, f, hrw⟩ := rewindTo_childless ((childLinks_keeps hk (by decide)).trans hc) offset
  have hmu := ldMode_keeps hk (by decide)
  have hcb : checkedBytes u = checkedBytes s := by rw [checkedBytes, hld, checkedBytes]
  rw [hrw] at hrun
  have hdone : ∀ x, x.rewinding = [] → rewindDone (setLd x u) = setRetrying false (setLd x u) := fun x hx => by
    rw [rewindDone, show (setLd x u).ld.rewinding = [] from hx, List.isEmpty_nil, if_pos rfl, toParent, if_neg]
    have hkr : keepsRegs [R.ldStatus] u (setRetrying false (setLd x u)) :=
      keepsRegs.setBit (t := setLd x u) (keepsRegs_refl _ u) (List.mem_singleton_self _) _ _
    rw [ldMode_keeps hkr (by decide), hmu]
    exact hm
  rw [hdone _ rfl, hcb, hld] at hrun
  refine ⟨_, congrArg Host.Outcome.next hrun, rfl, rfl, rfl, rfl, rfl, rfl, ?_, ?_, ?_⟩
  · exact (bits_setBit_ne _ _ _ _ _ _ _ (.inl (by decide))).trans h22
  · exact bit_setBit _ _ _ _ (by omega)
  · exact keepsRegs.setBit (t := setLd _ u) hk (by simp) _ _

/-! ## Failures that count -/

theorem countFailure_counts {s : State} {k o i : Nat} (h : s.ld.failing = some (k, o, i)) (hk : k < 4) :
    ∃ t, countFailure s = t ∧ t.ld = { s.ld with failures := s.ld.failures + 1, failing := none } ∧
      bits t R.ldRetry 0 22 = min (s.ld.failures + 1) (2 ^ 22 - 1) ∧ bits t R.ldRetry 22 10 = bits s R.ldRetry 22 10 ∧
      bits t R.ldFail 18 14 = i % 2 ^ 14 ∧ bits t R.ldFail 16 2 = k % 4 ∧ bits t R.ldFail 0 7 = o % 128 ∧
      keepsRegs [R.ldRetry, R.ldFail] s t ∧
      (s.cairn.queue.length < 16 → t.cairn.queue.length = s.cairn.queue.length + (if (s.ld.failures + 1) % 1024 = 1 then 1 else 0)) ∧
      t.clusters = s.clusters := by
  generalize hv : BitVec.ofNat 32 ((i % 2 ^ 14) <<< 18 + k <<< 16 + o % 128) = v
  generalize hu : setLd { s.ld with failures := s.ld.failures + 1, failing := none }
    (setReg (setBits s R.ldRetry 0 22 (min (s.ld.failures + 1) (2 ^ 22 - 1))) R.ldFail v) = u
  have hregs : bits u R.ldRetry 0 22 = min (s.ld.failures + 1) (2 ^ 22 - 1) ∧ bits u R.ldRetry 22 10 = bits s R.ldRetry 22 10 ∧
      reg u R.ldFail = v ∧ keepsRegs [R.ldRetry, R.ldFail] s u := by
    have hr : ∀ x, reg u x = reg (setReg (setBits s R.ldRetry 0 22 (min (s.ld.failures + 1) (2 ^ 22 - 1))) R.ldFail v) x := fun x => by
      rw [← hu]; rfl
    have hb : ∀ lo n, bits u R.ldRetry lo n = bits (setBits s R.ldRetry 0 22 (min (s.ld.failures + 1) (2 ^ 22 - 1))) R.ldRetry lo n :=
      fun lo n => by rw [bits, hr, reg_setReg, if_neg (by decide), bits]
    refine ⟨?_, ?_, ?_, fun y hy => (hr y).trans ?_⟩
    · rw [hb, bits_setBits _ _ _ _ _ (by omega), Nat.mod_eq_of_lt (by omega)]
    · rw [hb, bits_setBits_ne _ _ _ _ _ _ _ _ (by omega)]
    · rw [hr, reg_setReg, if_pos rfl]
    · exact ((keepsRegs_refl _ s).setBits (by simp) 0 22 _).setReg (by simp) _ y hy
  have hother : u.ld = { s.ld with failures := s.ld.failures + 1, failing := none } ∧ u.cairn = s.cairn ∧ u.clusters = s.clusters := by
    rw [← hu]
    exact ⟨rfl, rfl, rfl⟩
  have hrun : countFailure s = if (s.ld.failures + 1) % 1024 = 1 then
      addRecord 3 (bytesLE 4 (s.ld.failures + 1) ++ bytesLE 4 i ++ bytesLE 2 o ++ bytesLE 1 k) u else u := by
    rw [countFailure, h, ← hu, ← hv]
    rfl
  obtain ⟨h1, h2, h3, h4⟩ := hregs
  obtain ⟨g1, g2, g3⟩ := hother
  have hfields : bits u R.ldFail 18 14 = i % 2 ^ 14 ∧ bits u R.ldFail 16 2 = k % 4 ∧ bits u R.ldFail 0 7 = o % 128 := by
    have hb : ∀ lo n, bits u R.ldFail lo n = bitsOf v lo n := fun lo n => by rw [bits, h3]
    rw [hb, hb, hb, ← hv]
    simp only [bitsOf, BitVec.toNat_ofNat, Nat.shiftRight_eq_div_pow, Nat.shiftLeft_eq]
    omega
  obtain ⟨f1, f2, f3⟩ := hfields
  have hqueue : ∀ r, ∃ q, (queueRecord r u).2 = { u with cairn := { u.cairn with queue := q } } ∧
      (u.cairn.queue.length < 16 → q.length = u.cairn.queue.length + 1) := fun r => by
    unfold queueRecord
    split
    · exact ⟨_, rfl, fun _ => List.length_append⟩
    · exact ⟨u.cairn.queue, rfl, fun h => absurd h ‹_›⟩
  by_cases hn : (s.ld.failures + 1) % 1024 = 1
  · obtain ⟨q, hq, hlen⟩ := hqueue (mkRecord u 3 false 0xFFFF (bytesLE 4 (s.ld.failures + 1) ++ bytesLE 4 i ++ bytesLE 2 o ++ bytesLE 1 k))
    refine ⟨{ u with cairn := { u.cairn with queue := q } }, (hrun.trans (if_pos hn)).trans hq, g1, h1, h2, f1, f2, f3, h4, fun hl => ?_, g3⟩
    rw [if_pos hn, ← g2]
    exact hlen (by rw [g2]; exact hl)
  · refine ⟨u, hrun.trans (if_neg hn), g1, h1, h2, f1, f2, f3, h4, fun hl => ?_, g3⟩
    rw [if_neg hn, g2]
    rfl

theorem streamFetch_counts {bs : List Byte} {s : State} {k o i : Nat} (hm : ldMode s = 0) (hgo : s.ld.going = true) (he : s.ld.endAt = none)
    (hs : sourceStopped s = false) (hb : busMaster s = true) (hn : bs ≠ []) (hc : childLinks s = []) (h1 : ldState s = 1)
    (ho : s.ld.headerOk = false)
    (hh : headerHere (s.ld.data ++ List.replicate s.ld.gap 0 ++ bs.drop (min bs.length s.ld.skip)) = false)
    (hf : s.ld.failing = some (k, o, i)) (hk : k < 4) :
    Completes (.streamFetch bs) s fun t =>
      t.ld.failures = s.ld.failures + 1 ∧ t.ld.failing = none ∧
      bits t R.ldRetry 0 22 = min (s.ld.failures + 1) (2 ^ 22 - 1) ∧ bits t R.ldRetry 22 10 = bits s R.ldRetry 22 10 ∧
      bits t R.ldFail 18 14 = i % 2 ^ 14 ∧ bits t R.ldFail 16 2 = k % 4 ∧ bits t R.ldFail 0 7 = o % 128 ∧
      keepsRegs [R.ldRetry, R.ldFail] s t ∧
      (s.cairn.queue.length < 16 → t.cairn.queue.length = s.cairn.queue.length + (if (s.ld.failures + 1) % 1024 = 1 then 1 else 0)) ∧
      t.clusters = s.clusters := by
  obtain ⟨u, hu, hld, r1, r2, f1, f2, f3, hkeep, hq, hcl⟩ := countFailure_counts hf hk
  have hrun := (streamFetch_takes hm hgo he hs hb hn).trans (takeStream_waits hu hgo hc ((childLinks_keeps hkeep (by decide)).trans hc)
    ((ldState_keeps hkeep (by decide)).trans h1) (by rw [hld]; exact ho) (by rw [hld]; exact he) (by rw [hld]; exact hh))
  refine ⟨_, congrArg Host.Outcome.next hrun, ?_, ?_, r1, r2, f1, f2, f3, hkeep, hq, hcl⟩
  · show (joinTail bs u.ld).failures = _
    rw [hld]
    rfl
  · show (joinTail bs u.ld).failing = _
    rw [hld]
    rfl

/-- Settles O35. -/
theorem loadStream : Obligations.LoadStream := by
  unfold Obligations.LoadStream
  refine ⟨fun bs s hm hgo he hs hb hn hc h1 ho hg hf hh => streamFetch_joins hm hgo he hs hb hn hc h1 ho hg hf hh,
    fun s hm hgo he hs hc hb ho hp hcl hr ht => streamFetch_short hm hgo he hs hc hb ho hp hcl hr ht,
    fun w s hm hd hk hg hf hgo he hs hc h1 ho hh => shoreWord_joins hm hd hk hg hf hgo he hs hc h1 ho hh,
    fun s i x ht _ h2 hm hs hf hr he hrl hmiss hl hc hst => sectionReceived_settles ht h2 hm hs hf hr he hrl hmiss hl hc hst,
    fun s o i hm hgo hs hb hh hf => fetchFailure_backs hm hgo hs hb hh hf,
    fun s o i hb hm hc hr => ?_, fun s hb hm hc => ?_,
    fun bs s k o i hm hgo he hs hb hn hc h1 ho hh hf hk => streamFetch_counts hm hgo he hs hb hn hc h1 ho hh hf hk⟩
  · obtain ⟨t, ht, h1, h2, h3, h4, -, -, h5, h6, h7⟩ := backoffExpiry_rewinds (offset := (descriptorAt s.ld.data i).offset) hb (by omega) hc
      (by rw [hr]; exact if_neg (by omega))
    exact ⟨t, ht, h1, h2, h3, h4, h5, h6, h7⟩
  · obtain ⟨t, ht, h1, h2, h3, -, h4, h5, h6, h7, h8⟩ := backoffExpiry_rewinds (offset := 0) hb (by omega) hc
      (by split; · exact if_pos hm
          · rfl)
    rw [Nat.zero_max] at h2
    exact ⟨t, ht, h1, h2, h3, h4, h5, h6, h7, h8⟩

end Sys2Proof.Machine
end

/-! # FREEZE, RUN, STEP, STOP and FREEZE_AT -/

section
namespace Sys2Proof.Machine
set_option Elab.async false

/-! ## Token sets on every milestone link -/

theorem mem_queueSet (sets : List (Bool × Nat)) (x y : Bool × Nat) : y ∈ queueSet sets x ↔ y ∈ sets ∨ y = x := by
  unfold queueSet
  split
  · next h =>
    have hx : x ∈ sets := List.contains_iff_mem.1 h
    exact ⟨.inl, fun h => h.elim id fun e => e ▸ hx⟩
  · simp

theorem link_sendTokenOn (l : Nat) (hold : Bool) (e : Nat) (s : State) (k : Nat) :
    link (sendTokenOn l hold e s) k = if k = l then { link s l with lastTokenOut := some (hold, e % 256) } else link s k := by
  have hlinks : (sendTokenOn l hold e s).cw.links = (setLink s l { link s l with lastTokenOut := some (hold, e % 256) }).cw.links := by
    refine foldl_keeps (fun u : State => u.cw.links) _ (fun _ _ => ?_) _ _
    rfl
  rw [link, hlinks]
  exact link_setLink _ _ _ _

theorem sendTokenOn_frame (l : Nat) (hold : Bool) (e : Nat) (s : State) : ∃ c, sendTokenOn l hold e s = { s with cw := c } := by
  have h : ∀ (L : List Nat) (u : State), ∃ c, L.foldl (fun acc a =>
      setLane acc a { lane acc a with tokenDue := queueSet (lane acc a).tokenDue (hold, e % 256) }) u = { u with cw := c } := by
    intro L
    induction L with
    | nil => exact fun u => ⟨u.cw, rfl⟩
    | cons a L ih =>
      intro u
      obtain ⟨c, hc⟩ := ih (setLane u a { lane u a with tokenDue := queueSet (lane u a).tokenDue (hold, e % 256) })
      exact ⟨c, hc⟩
  obtain ⟨c, hc⟩ := h (linkLanes (setLink s l { link s l with lastTokenOut := some (hold, e % 256) }) l)
    (setLink s l { link s l with lastTokenOut := some (hold, e % 256) })
  exact ⟨c, hc⟩

theorem linkLanes_congr {s t : State} (h : t.regs = s.regs) (l : Nat) : linkLanes t l = linkLanes s l := by
  simp only [linkLanes, linkWidth, linkBase, bits, reg, h]

/-- What the sending of one token set on the links of `L` leaves. -/
structure TokensSent (L : List Nat) (hold : Bool) (e : Nat) (s t : State) : Prop where
  sent : ∀ l ∈ L, (link t l).lastTokenOut = some (hold, e % 256) ∧ ∀ a ∈ linkLanes s l, (hold, e % 256) ∈ (lane t a).tokenDue
  others : ∀ l, l ∉ L → link t l = link s l
  regs : t.regs = s.regs
  sched : t.sched = s.sched
  clusters : t.clusters = s.clusters
  acq : t.acq = s.acq

theorem foldl_sendTokenOn (hold : Bool) (e : Nat) (L : List Nat) (s : State) :
    TokensSent L hold e s (L.foldl (fun acc l => sendTokenOn l hold e acc) s) := by
  have hmono : ∀ (L : List Nat) (u : State) (a : Nat) (x : Bool × Nat), x ∈ (lane u a).tokenDue →
      x ∈ (lane (L.foldl (fun acc l => sendTokenOn l hold e acc) u) a).tokenDue := by
    intro L
    induction L with
    | nil => exact fun _ _ _ h => h
    | cons l L ih =>
      refine fun u a x h => ih _ a x ?_
      rw [sendTokenOn_lanes]
      split
      · exact (mem_queueSet _ _ _).2 (.inl h)
      · exact h
  induction L generalizing s with
  | nil => exact ⟨fun _ h => absurd h List.not_mem_nil, fun _ _ => rfl, rfl, rfl, rfl, rfl⟩
  | cons l L ih =>
    have h := ih (sendTokenOn l hold e s)
    have hframe : (sendTokenOn l hold e s).regs = s.regs ∧ (sendTokenOn l hold e s).sched = s.sched ∧
        (sendTokenOn l hold e s).clusters = s.clusters ∧ (sendTokenOn l hold e s).acq = s.acq := by
      obtain ⟨c, hc⟩ := sendTokenOn_frame l hold e s
      rw [hc]
      exact ⟨rfl, rfl, rfl, rfl⟩
    obtain ⟨f1, f2, f3, f4⟩ := hframe
    refine ⟨fun k hk => ⟨?_, fun a ha => ?_⟩, fun k hk => ?_, h.regs.trans f1, h.sched.trans f2, h.clusters.trans f3, h.acq.trans f4⟩
    · by_cases hkL : k ∈ L
      · exact (h.sent k hkL).1
      · have hkl : k = l := (List.mem_cons.1 hk).resolve_right hkL
        rw [List.foldl_cons, h.others k hkL, link_sendTokenOn, if_pos hkl]
    · by_cases hkL : k ∈ L
      · exact (h.sent k hkL).2 a (by rw [linkLanes_congr f1]; exact ha)
      · have hkl : k = l := (List.mem_cons.1 hk).resolve_right hkL
        refine hmono L _ a _ ?_
        rw [sendTokenOn_lanes, if_pos (hkl ▸ ha)]
        exact (mem_queueSet _ _ _).2 (.inr rfl)
    · have hk' := List.mem_cons.not.1 hk
      rw [List.foldl_cons, h.others k fun hh => hk' (.inr hh), link_sendTokenOn, if_neg fun hh => hk' (.inl hh)]

theorem sendTokens_sent (hold : Bool) (e : Nat) (s : State) : TokensSent (msLinks s) hold e s (sendTokens hold e s) :=
  foldl_sendTokenOn hold e (msLinks s) s

theorem msLinks_keeps {L : List Nat} {s t : State} (h : keepsRegs L s t) (hL : R.glbMsLinks ∉ L) : msLinks t = msLinks s := by
  rw [msLinks, msLinks]
  exact List.filter_congr fun l _ => h.bit hL l

/-! ## The run goes on -/

/-- The device as it runs again, before a token that was held goes out. -/
def running (steps : Option Nat) (s : State) : State :=
  let u := setBit (setBits s R.trgRunStatus 0 9 0) R.acqStatus 25 false
  { u with sched := { s.sched with run := .running, stepsLeft := steps } }

theorem running_regs (steps : Option Nat) (s : State) :
    bits (running steps s) R.trgRunStatus 0 9 = 0 ∧ bit (running steps s) R.acqStatus 25 = false ∧
    keepsRegs [R.trgRunStatus, R.acqStatus] s (running steps s) := by
  refine ⟨?_, bit_setBit _ _ _ _ (by omega), ((keepsRegs_refl _ s).setBits (by simp) 0 9 0).setBit (by simp) 25 false⟩
  refine (bits_setBit_ne _ _ _ _ _ _ _ (.inl (by decide))).trans ?_
  rw [bits_setBits _ _ _ _ _ (by omega)]
  rfl

/-- Without a token that a hold marker of this ec replaced, only the run goes on. -/
theorem resumeRun_plain {s : State} (steps : Option Nat)
    (h : ∀ e, s.sched.held = some e → s.sched.phase ≠ .milestone ∨ e + 1 ≠ s.sched.ec.toNat) :
    resumeRun steps s = running steps s := by
  have hr : resumeRun steps s = match s.sched.held with
      | some e => if s.sched.phase = .milestone ∧ e + 1 = s.sched.ec.toNat then
          sendTokens false e { running steps s with sched := { (running steps s).sched with held := none } } else running steps s
      | none => running steps s := rfl
  rw [hr]
  cases hh : s.sched.held with
  | none => rfl
  | some e => exact if_neg fun ⟨hp, he⟩ => (h e hh).elim (fun hn => hn hp) fun hn => hn he

theorem resumeRun_held {s : State} (steps : Option Nat) {e : Nat} (hh : s.sched.held = some e) (hp : s.sched.phase = .milestone)
    (he : e + 1 = s.sched.ec.toNat) :
    resumeRun steps s = sendTokens false e { running steps s with sched := { s.sched with run := .running, stepsLeft := steps, held := none } } := by
  have hr : resumeRun steps s = match s.sched.held with
      | some e => if s.sched.phase = .milestone ∧ e + 1 = s.sched.ec.toNat then
          sendTokens false e { running steps s with sched := { (running steps s).sched with held := none } } else running steps s
      | none => running steps s := rfl
  rw [hr, hh]
  exact if_pos ⟨hp, he⟩

/-- The held token goes out as the run goes on. -/
theorem resumeRun_sends {s : State} (steps : Option Nat) {e : Nat} (hh : s.sched.held = some e) (hp : s.sched.phase = .milestone)
    (he : e + 1 = s.sched.ec.toNat) :
    (resumeRun steps s).sched = { s.sched with run := .running, stepsLeft := steps, held := none } ∧
    (∀ l ∈ msLinks s, (link (resumeRun steps s) l).lastTokenOut = some (false, e % 256) ∧
      ∀ a ∈ linkLanes s l, (false, e % 256) ∈ (lane (resumeRun steps s) a).tokenDue) ∧
    (∀ l, l ∉ msLinks s → link (resumeRun steps s) l = link s l) ∧
    bits (resumeRun steps s) R.trgRunStatus 0 9 = 0 ∧ bit (resumeRun steps s) R.acqStatus 25 = false ∧
    keepsRegs [R.trgRunStatus, R.acqStatus] s (resumeRun steps s) ∧ (resumeRun steps s).acq = s.acq ∧
    (resumeRun steps s).clusters = s.clusters := by
  rw [resumeRun_held steps hh hp he]
  obtain ⟨h0, h25, hk⟩ := running_regs steps s
  have hfr : (running steps s).acq = s.acq ∧ (running steps s).clusters = s.clusters ∧ (running steps s).cw = s.cw := ⟨rfl, rfl, rfl⟩
  obtain ⟨f1, f2, f3⟩ := hfr
  generalize running steps s = u at *
  have h := sendTokens_sent false e { u with sched := { s.sched with run := .running, stepsLeft := steps, held := none } }
  have hku : keepsRegs [R.trgRunStatus, R.acqStatus] s { u with sched := { s.sched with run := .running, stepsLeft := steps, held := none } } := hk
  have hms := msLinks_keeps hku (by decide)
  rw [hms] at h
  have hlanes : ∀ l, l < 20 → linkLanes { u with sched := { s.sched with run := .running, stepsLeft := steps, held := none } } l = linkLanes s l :=
    fun l hl => linkLanes_keeps hku ((by decide : ∀ l : Fin 20, R.cwLinkCfg l ∉ [R.trgRunStatus, R.acqStatus]) ⟨l, hl⟩)
  have hreg : ∀ y, reg (sendTokens false e { u with sched := { s.sched with run := .running, stepsLeft := steps, held := none } }) y = reg u y :=
    fun y => by rw [reg, h.regs, reg]
  refine ⟨h.sched, fun l hl => ⟨(h.sent l hl).1, fun a ha => (h.sent l hl).2 a ?_⟩, fun l hl => (h.others l hl).trans ?_, ?_, ?_,
    fun y hy => (hreg y).trans (hk y hy), h.acq.trans f1, h.clusters.trans f2⟩
  · rw [hlanes l (List.mem_range.1 (List.mem_filter.1 hl).1)]
    exact ha
  · rw [link, link]
    exact congrArg (fun c : Causeway => look (fun _ => {}) c.links l) f3
  · rw [bits, hreg]
    exact h0
  · rw [bit, hreg]
    exact h25

/-- RUN and STEP as the goings on of a frozen or stopped run. -/
theorem exec_run_step {s : State} {c : Instr} (hd : designFrozen s = true) (hc : c = .run ∨ (c = .step ∧ s.sched.run = .frozen)) :
    exec c s = .next (resumeRun (if c = .run then none else some (max 1 (reg s R.trgStepCount).toNat)) s) := by
  rcases hc with rfl | ⟨rfl, hf⟩
  · rw [if_pos rfl]
    exact congrArg Host.Outcome.next (if_pos hd)
  · rw [if_neg (by decide)]
    exact congrArg Host.Outcome.next (if_pos hf)

/-! ## STOP -/

/-- The registers of clock settings. -/
def clkRegs : List Nat := R.pwrClkStatus :: (List.range 16).map R.pwrReachClk

theorem clkOpportunity_moved {r : Nat} (hr : r < 16) (s : State) :
    keepsRegs clkRegs s (clkOpportunity r s) ∧ ∃ g p, clkOpportunity r s = { s with regs := g, pwr := p } := by
  have hmem : R.pwrReachClk r ∈ clkRegs := List.mem_cons_of_mem _ (List.mem_map.2 ⟨r, List.mem_range.2 hr, rfl⟩)
  have happ : ∀ u : State, keepsRegs clkRegs u (applyClk r u) := fun u =>
    ((keepsRegs_refl _ u).setBits hmem 10 6 _).setBit (List.mem_cons_self ..) (16 + r) _
  unfold clkOpportunity
  split
  · exact ⟨happ (setThermal r (clkMax s r) s), _, _, rfl⟩
  · exact ⟨happ s, _, s.pwr, rfl⟩

theorem applyFree_moved (s : State) : keepsRegs clkRegs s (applyFree s) ∧ ∃ g p, applyFree s = { s with regs := g, pwr := p } := by
  have h : ∀ n, n ≤ 16 → keepsRegs clkRegs s (forUpTo n (fun r acc => if clkFree acc r then clkOpportunity r acc else acc) s) ∧
      ∃ g p, forUpTo n (fun r acc => if clkFree acc r then clkOpportunity r acc else acc) s = { s with regs := g, pwr := p } := by
    intro n
    induction n with
    | zero => exact fun _ => ⟨keepsRegs_refl _ s, s.regs, s.pwr, rfl⟩
    | succ n ih =>
      intro hn
      obtain ⟨hk, g, p, e⟩ := ih (by omega)
      rw [forUpTo_succ]
      generalize forUpTo n (fun r acc => if clkFree acc r then clkOpportunity r acc else acc) s = u at *
      split
      · obtain ⟨hk', g', p', e'⟩ := clkOpportunity_moved (r := n) (by omega) u
        exact ⟨hk.trans hk', g', p', by rw [e', e]⟩
      · exact ⟨hk, g, p, e⟩
  exact h 16 (Nat.le_refl _)

/-- The run ends as frozen or stopped: what the change of the run state leaves. -/
theorem setRun_ended {r : RunState} (hr : r = .frozen ∨ r = .stopped) (s : State) :
    (setRun r s).sched = { s.sched with run := r } ∧ causeBit (setRun r s) 33 = true ∧
    keepsRegs (clkRegs ++ [R.glbIrqCauseHi]) s (setRun r s) ∧ (setRun r s).clusters = s.clusters ∧ (setRun r s).cw = s.cw := by
  rcases hr with rfl | rfl
  · obtain ⟨hk, g, p, e⟩ := applyFree_moved { s with sched := { s.sched with run := .frozen } }
    have hrun : setRun .frozen s = raiseCause 33 (applyFree { s with sched := { s.sched with run := .frozen } }) := rfl
    have hkr := raiseCause_keeps 33 (applyFree { s with sched := { s.sched with run := .frozen } })
    rw [hrun]
    refine ⟨?_, causeBit_raiseCause _ _, fun y hy => ?_, ?_, ?_⟩
    · rw [raiseCause_sched, e]
    · exact ((hk.mono (List.subset_append_left _ _)).trans (hkr.mono (List.subset_append_right _ _))) y hy
    · rw [raiseCause_clusters, e]
    · rw [raiseCause_cw, e]
  · have hrun : setRun .stopped s = raiseCause 33 { s with sched := { s.sched with run := .stopped } } := rfl
    have hkr := raiseCause_keeps 33 { s with sched := { s.sched with run := .stopped } }
    rw [hrun]
    exact ⟨raiseCause_sched _ _, causeBit_raiseCause _ _, hkr.mono (List.subset_append_right _ _), raiseCause_clusters _ _, raiseCause_cw _ _⟩

theorem stop_stops {s : State} (hr : s.sched.run = .running) (hi : s.sched.inSequence = false) :
    Completes .stop s fun t =>
      t.sched.run = (if s.sched.phase = .milestone then .frozen else .stopped) ∧ t.sched.stepsLeft = none ∧
      t.sched.held = some s.sched.ec.toNat ∧ t.sched.phase = s.sched.phase ∧ bit t R.trgRunStatus 6 = true ∧
      causeBit t 33 = true ∧ t.clusters = s.clusters := by
  generalize hrs : (if s.sched.phase = .milestone then RunState.frozen else .stopped) = r
  have hfs : r = .frozen ∨ r = .stopped := by
    rw [← hrs]
    split
    · exact .inl rfl
    · exact .inr rfl
  obtain ⟨h1, h2, h3, h4, -⟩ := setRun_ended hfs (addCause 6 { s with sched := { s.sched with stepsLeft := none } })
  have hrun : stopCmd s = sendHold (setRun r (addCause 6 { s with sched := { s.sched with stepsLeft := none } })) := by
    rw [stopCmd, if_pos hr, stopDevice, hi, if_neg Bool.false_ne_true, if_pos hr, ← hrs]
    rfl
  have h6 : bit (addCause 6 { s with sched := { s.sched with stepsLeft := none } }) R.trgRunStatus 6 = true := bit_setBit _ _ _ _ (by omega)
  have h3' := h3.bit (x := R.trgRunStatus) (by decide) 6
  generalize setRun r (addCause 6 { s with sched := { s.sched with stepsLeft := none } }) = u at *
  have ht := sendTokens_sent true u.sched.ec.toNat { u with sched := { u.sched with held := some u.sched.ec.toNat } }
  have hhold : sendHold u = sendTokens true u.sched.ec.toNat { u with sched := { u.sched with held := some u.sched.ec.toNat } } := rfl
  rw [← hhold] at ht
  have hreg : ∀ y, reg (sendHold u) y = reg u y := fun y => by rw [reg, ht.regs, reg]
  refine ⟨_, congrArg Host.Outcome.next hrun, ?_, ?_, ?_, ?_, ?_, ?_, ht.clusters.trans h4⟩
  · rw [ht.sched, h1]
  · rw [ht.sched, h1]
    rfl
  · rw [ht.sched, h1]
    rfl
  · rw [ht.sched, h1]
    rfl
  · rw [bit, hreg]
    exact h3'.trans h6
  · rw [causeBit, bit, hreg]
    exact h2

/-! ## FREEZE_AT -/

theorem freezeAt_fields (v : Word) (s : State) :
    bit (writeFields R.trgFreezeAtHi v s) R.trgFreezeAtHi 31 = v.getLsbD 31 ∧
    bits (writeFields R.trgFreezeAtHi v s) R.trgFreezeAtHi 0 16 = bitsOf v 0 16 :=
  ⟨bit_writeFields (by decide +kernel) (by omega) v s,
    bits_writeFields (fun i _ hi => (by decide +kernel : ∀ i : Fin 16, plainBit R.trgFreezeAtHi i = true) ⟨i, by omega⟩) (by omega) v s⟩

theorem freezeAt_passed {v : Word} {s : State} (hv : v.getLsbD 31 = true)
    (h : bitsOf v 0 16 * 2 ^ 32 + (reg s R.trgFreezeAtLo).toNat < s.sched.ec.toNat % 2 ^ 48) :
    Completes (.freezeAt v) s fun t =>
      t.sched = { s.sched with freezeReq := true
                               freezeCause := withBit s.sched.freezeCause 1 true
                               freezeLow := reg s R.trgFreezeAtLo } ∧
      bit t R.trgFreezeAtHi 30 = true ∧ bit t R.trgFreezeAtHi 31 = true ∧ bits t R.trgFreezeAtHi 0 16 = bitsOf v 0 16 ∧
      keepsRegs [R.trgFreezeAtHi] s t := by
  obtain ⟨f1, f2⟩ := freezeAt_fields v s
  obtain ⟨hk, hfr⟩ := writeFields_only R.trgFreezeAtHi v s
  have hsched : (writeFields R.trgFreezeAtHi v s).sched = s.sched := by rw [hfr]
  have hlo := hk R.trgFreezeAtLo (by decide)
  have hrun : freezeAt v s = (let w := writeFields R.trgFreezeAtHi v s
      let u := { w with sched := { w.sched with freezeLow := reg w R.trgFreezeAtLo } }
      if v.getLsbD 31 ∧ freezeAtCount u < u.sched.ec.toNat % 2 ^ 48 then freezeRequest 1 (setBit u R.trgFreezeAtHi 30 true) else u) := rfl
  generalize writeFields R.trgFreezeAtHi v s = w at *
  dsimp only at hrun
  rw [if_pos ⟨hv, by
    show bits w R.trgFreezeAtHi 0 16 * 2 ^ 32 + (reg w R.trgFreezeAtLo).toNat < w.sched.ec.toNat % 2 ^ 48
    rw [f2, hlo, hsched]
    exact h⟩] at hrun
  refine ⟨_, congrArg Host.Outcome.next hrun, ?_, bit_setBit _ _ _ _ (by omega), ?_, ?_, ?_⟩
  · show ({ w.sched with freezeLow := reg w R.trgFreezeAtLo, freezeReq := true, freezeCause := withBit w.sched.freezeCause 1 true } : Sched) = _
    rw [hsched, hlo]
  · exact (bit_setBit_ne _ _ _ _ _ _ (.inr (by decide))).trans (f1.trans hv)
  · exact (bits_setBit_ne _ _ _ _ _ _ _ (.inr (by omega))).trans f2
  · exact keepsRegs.setBit (t := { w with sched := _ }) hk (List.mem_singleton_self _) 30 true

theorem freezeAt_ahead {v : Word} {s : State}
    (h : v.getLsbD 31 = false ∨ s.sched.ec.toNat % 2 ^ 48 ≤ bitsOf v 0 16 * 2 ^ 32 + (reg s R.trgFreezeAtLo).toNat) :
    Completes (.freezeAt v) s fun t =>
      bit t R.trgFreezeAtHi 31 = v.getLsbD 31 ∧ bits t R.trgFreezeAtHi 0 16 = bitsOf v 0 16 ∧
      keepsRegs [R.trgFreezeAtHi] s t ∧
      t = { s with regs := t.regs, sched := { s.sched with freezeLow := reg s R.trgFreezeAtLo } } := by
  obtain ⟨f1, f2⟩ := freezeAt_fields v s
  obtain ⟨hk, hfr⟩ := writeFields_only R.trgFreezeAtHi v s
  have hsched : (writeFields R.trgFreezeAtHi v s).sched = s.sched := by rw [hfr]
  have hlo := hk R.trgFreezeAtLo (by decide)
  have hrun : freezeAt v s = (let w := writeFields R.trgFreezeAtHi v s
      let u := { w with sched := { w.sched with freezeLow := reg w R.trgFreezeAtLo } }
      if v.getLsbD 31 ∧ freezeAtCount u < u.sched.ec.toNat % 2 ^ 48 then freezeRequest 1 (setBit u R.trgFreezeAtHi 30 true) else u) := rfl
  generalize writeFields R.trgFreezeAtHi v s = w at *
  dsimp only at hrun
  rw [if_neg fun hc => by
    obtain ⟨hv, hlt⟩ := hc
    have hcount : bits w R.trgFreezeAtHi 0 16 * 2 ^ 32 + (reg w R.trgFreezeAtLo).toNat < w.sched.ec.toNat % 2 ^ 48 := hlt
    rw [f2, hlo, hsched] at hcount
    rcases h with h | h
    · rw [hv] at h; cases h
    · omega] at hrun
  refine ⟨_, congrArg Host.Outcome.next hrun, f1, f2, hk, ?_⟩
  rw [hlo, hsched, hfr]

/-- Settles O40. -/
theorem runCommands : Obligations.RunCommands := by
  unfold Obligations.RunCommands
  refine ⟨fun s hr => congrArg Host.Outcome.next (if_pos hr), fun s c hd hh hc => ?_, fun s hr hi => ?_, fun s hr hi => stop_stops hr hi,
    fun s => ⟨fun hr => ⟨congrArg Host.Outcome.next (if_neg hr), congrArg Host.Outcome.next (if_neg hr)⟩,
      fun hd => congrArg Host.Outcome.next (if_neg (by rw [hd]; decide)), fun hf => congrArg Host.Outcome.next (if_neg hf)⟩,
    fun v s hv h => freezeAt_passed hv h, fun v s h => freezeAt_ahead h, fun s e c hd hh hp he hc => ?_, fun s e c hd hh hn hc => ?_⟩
  · obtain ⟨h0, h25, hk⟩ := running_regs (if c = .run then none else some (max 1 (reg s R.trgStepCount).toNat)) s
    have hrun := resumeRun_plain (s := s) (if c = .run then none else some (max 1 (reg s R.trgStepCount).toNat))
      (fun e he => by rw [hh] at he; cases he)
    exact ⟨_, (exec_run_step hd hc).trans (congrArg Host.Outcome.next hrun), rfl, h0, h25, hk, rfl⟩
  · refine congrArg Host.Outcome.next (?_ : stopCmd s = _)
    rw [stopCmd, if_pos hr, stopDevice, if_pos hi]
  · obtain ⟨h1, h2, h3, h4, h5, h6, -, h7⟩ := resumeRun_sends (if c = .run then none else some (max 1 (reg s R.trgStepCount).toNat)) hh hp he
    exact ⟨_, exec_run_step hd hc, h1, h2, h3, h4, h5, h6, h7⟩
  · obtain ⟨h0, h25, hk⟩ := running_regs (if c = .run then none else some (max 1 (reg s R.trgStepCount).toNat)) s
    have hrun := resumeRun_plain (s := s) (if c = .run then none else some (max 1 (reg s R.trgStepCount).toNat))
      (fun e' he' => by
        rw [hh] at he'
        cases he'
        exact hn)
    exact ⟨_, (exec_run_step hd hc).trans (congrArg Host.Outcome.next hrun), rfl, rfl, h0, h25, hk, rfl⟩

end Sys2Proof.Machine
end

/-! # Trigger and capture commands -/

section
namespace Sys2Proof.Machine
set_option Elab.async false

/-! ## What the configuration of a capture reads -/

/-- The registers of `L` lie in the trigger block and hold nothing that an arm reads. -/
def SparesCapture (L : List Nat) : Prop :=
  ∀ x ∈ L, 0x700000 ≤ x ∧ x ≠ R.acqCtrl ∧ x ≠ R.acqCfg ∧ x ≠ R.acqPre ∧ ¬ (0x710020 ≤ x ∧ x < 0x710030)

theorem SparesCapture.below {L : List Nat} (hL : SparesCapture L) {x : Nat} (hx : x < 0x700000) : x ∉ L := fun hm => by
  obtain ⟨h1, -⟩ := hL x hm
  omega

section
variable {L : List Nat} {s t : State} (h : keepsRegs L s t) (hL : SparesCapture L)
include h hL

theorem dataPlace_keeps : dataPlace t = dataPlace s := by
  have hn : R.acqCfg ∉ L := fun hm => (hL _ hm).2.2.1 rfl
  rw [dataPlace, h.bits hn, h.bits hn, dataPlace]

theorem recPlace_keeps : recPlace t = recPlace s := by
  have hn : R.acqCfg ∉ L := fun hm => (hL _ hm).2.2.1 rfl
  rw [recPlace, h.bits hn, h.bits hn, recPlace]

theorem preCount_keeps : preCount t = preCount s := h.bits (fun hm => (hL _ hm).2.2.2.1 rfl) 0 24

theorem segmented_keeps : segmented t = segmented s := h.bit (fun hm => (hL _ hm).2.1 rfl) 30

theorem selected_keeps : selected t = selected s := by
  rw [selected, selected]
  refine List.filter_congr fun n hn => h.bit (fun hm => (hL _ hm).2.2.2.2 ?_) _
  have := List.mem_range.1 hn
  simp only [R.acqSel]
  omega

theorem ddrOn_keeps {c : Nat} (hc : c < 4) : ddrOn t c = ddrOn s c := by
  rw [ddrOn, ddrPresent, h.bit (hL.below (by decide)),
    domainOn_keeps h (hL.below (by simp only [R.pwrDomainStatus]; omega)), ddrOn, ddrPresent]

theorem captureRegion_keeps {p : Nat × Nat} (h1 : p.1 < 4) (h2 : p.2 < 16) : captureRegion t p = captureRegion s p := by
  have hb : R.ddrRegionBase p.1 p.2 ∉ L := hL.below (by simp only [R.ddrRegionBase]; omega)
  have hr : R.ddrChStatus p.1 ∉ L := hL.below (by simp only [R.ddrChStatus]; omega)
  have hc : regionClass t p.1 p.2 = regionClass s p.1 p.2 := by
    unfold regionClass
    rw [h.bits hb]
  rw [captureRegion, ddrOn_keeps h hL h1, ddrReady, h.bit hr, h.bit hb, h.bit hb, hc, captureRegion, ddrReady]

theorem armRefused_keeps : armRefused t = armRefused s := by
  have hp : ∀ u : State, (dataPlace u).1 < 4 ∧ (dataPlace u).2 < 16 ∧ (recPlace u).1 < 4 ∧ (recPlace u).2 < 16 := fun u =>
    ⟨bitsOf_lt _ _ _, bitsOf_lt _ _ _, bitsOf_lt _ _ _, bitsOf_lt _ _ _⟩
  obtain ⟨p1, p2, p3, p4⟩ := hp s
  rw [armRefused, selected_keeps h hL, dataPlace_keeps h hL, recPlace_keeps h hL, segmented_keeps h hL, preCount_keeps h hL,
    captureRegion_keeps h hL p1 p2, captureRegion_keeps h hL p3 p4, armRefused]

end

/-! ## ARM -/

/-- The status registers of the comparators. -/
def chStatusRegs : List Nat := (List.range 16).map R.trgChStatus

theorem mem_chStatusRegs {x : Nat} (h : x ∈ chStatusRegs) : ∃ c, c < 16 ∧ x = 0x701004 + 0x100 * c := by
  obtain ⟨c, hc, rfl⟩ := List.mem_map.1 h
  exact ⟨c, List.mem_range.1 hc, rfl⟩

theorem resetComparators_reset (s : State) :
    keepsRegs chStatusRegs s (resetComparators s) ∧ (∀ c, c < 16 → bits (resetComparators s) (R.trgChStatus c) 30 2 = 0) ∧
    ∃ g, resetComparators s = { s with regs := g } := by
  have h : ∀ n, n ≤ 16 → keepsRegs chStatusRegs s (forUpTo n (fun c acc => setBits acc (R.trgChStatus c) 30 2 0) s) ∧
      (∀ c, c < n → bits (forUpTo n (fun c acc => setBits acc (R.trgChStatus c) 30 2 0) s) (R.trgChStatus c) 30 2 = 0) ∧
      ∃ g, forUpTo n (fun c acc => setBits acc (R.trgChStatus c) 30 2 0) s = { s with regs := g } := by
    intro n
    induction n with
    | zero => exact fun _ => ⟨keepsRegs_refl _ s, fun _ hc => absurd hc (Nat.not_lt_zero _), s.regs, rfl⟩
    | succ n ih =>
      intro hn
      obtain ⟨hk, hz, g, e⟩ := ih (by omega)
      rw [forUpTo_succ]
      generalize forUpTo n (fun c acc => setBits acc (R.trgChStatus c) 30 2 0) s = u at *
      have hm : R.trgChStatus n ∈ chStatusRegs := List.mem_map.2 ⟨n, List.mem_range.2 (by omega), rfl⟩
      refine ⟨hk.setBits hm 30 2 0, fun c hc => ?_, _, by rw [e]; rfl⟩
      by_cases hcn : c = n
      · rw [hcn, bits_setBits _ _ _ _ _ (by omega)]
        rfl
      · rw [bits_setBits_ne _ _ _ _ _ _ _ _ (.inl (by simp only [R.trgChStatus]; omega))]
        exact hz c (by omega)
  exact h 16 (Nat.le_refl _)

/-- The state that an ARM looks at: comparators at reset, no capture, no FIFO. -/
def disarmed (s : State) : State :=
  setAcq { force := s.acq.force } (setBit (setBit (resetComparators s) R.acqStatus 31 false) R.acqStatus 29 false)

theorem disarmed_regs (s : State) :
    keepsRegs (R.acqStatus :: chStatusRegs) s (disarmed s) ∧ bit (disarmed s) R.acqStatus 31 = false ∧
    bit (disarmed s) R.acqStatus 29 = false ∧ bit (disarmed s) R.acqStatus 25 = bit s R.acqStatus 25 ∧
    (∀ c, c < 16 → bits (disarmed s) (R.trgChStatus c) 30 2 = 0) ∧ (disarmed s).acq = { force := s.acq.force } := by
  obtain ⟨hk, hz, g, e⟩ := resetComparators_reset s
  have hout : R.acqStatus ∉ chStatusRegs := by decide
  unfold disarmed
  generalize resetComparators s = u at *
  have hr : ∀ x lo n, bits (setAcq { force := s.acq.force } (setBit (setBit u R.acqStatus 31 false) R.acqStatus 29 false)) x lo n =
      bits (setBit (setBit u R.acqStatus 31 false) R.acqStatus 29 false) x lo n := fun _ _ _ => rfl
  have hb : ∀ i, bit (setAcq { force := s.acq.force } (setBit (setBit u R.acqStatus 31 false) R.acqStatus 29 false)) R.acqStatus i =
      bit (setBit (setBit u R.acqStatus 31 false) R.acqStatus 29 false) R.acqStatus i := fun _ => rfl
  have hks : keepsRegs (R.acqStatus :: chStatusRegs) s (setBit (setBit u R.acqStatus 31 false) R.acqStatus 29 false) :=
    ((hk.mono (List.subset_cons_self _ _)).setBit (List.mem_cons_self ..) 31 false).setBit (List.mem_cons_self ..) 29 false
  refine ⟨hks, ?_, ?_, ?_, fun c hc => ?_, rfl⟩
  · rw [hb, bit_setBit_ne _ _ _ _ _ _ (.inr (by decide)), bit_setBit _ _ _ _ (by omega)]
  · rw [hb, bit_setBit _ _ _ _ (by omega)]
  · rw [hb, bit_setBit_ne _ _ _ _ _ _ (.inr (by decide)), bit_setBit_ne _ _ _ _ _ _ (.inr (by decide))]
    exact hk.bit hout 25
  · have hne : R.trgChStatus c ≠ R.acqStatus := by simp only [R.trgChStatus, R.acqStatus]; omega
    rw [hr, bits_setBit_ne _ _ _ _ _ _ _ (.inl hne), bits_setBit_ne _ _ _ _ _ _ _ (.inl hne)]
    exact hz c hc

/-- What an ARM does from there. -/
def armFrom (s : State) : State :=
  if bit s R.acqCtrl 31 ∧ armRefused s then setBit (setBit s R.acqStatus 27 true) R.trgStatus 31 false
  else
    let s := setBit (setBit s R.trgStatus 31 true) R.trgStatus 30 (preCount s == 0)
    let s := setReg (setBit s R.acqStatus 31 (bit s R.acqCtrl 31)) R.acqSegDone 0
    if capturing s then showOffsets s else s

/-- The unit as it is armed. -/
def armed (pre ctrl : Bool) (s : State) : State :=
  setReg (setBit (setBit (setBit s R.trgStatus 31 true) R.trgStatus 30 pre) R.acqStatus 31 ctrl) R.acqSegDone 0

theorem armFrom_eq (d : State) :
    armFrom d = if bit d R.acqCtrl 31 = true ∧ armRefused d = true then setBit (setBit d R.acqStatus 27 true) R.trgStatus 31 false
      else if bit d R.acqCtrl 31 = true then showOffsets (armed (preCount d == 0) (bit d R.acqCtrl 31) d)
        else armed (preCount d == 0) (bit d R.acqCtrl 31) d := by
  have hv : ∀ b, bit (setBit (setBit d R.trgStatus 31 true) R.trgStatus 30 b) R.acqCtrl 31 = bit d R.acqCtrl 31 := fun b =>
    (bit_setBit_ne _ _ _ _ _ _ (.inl (by decide))).trans (bit_setBit_ne _ _ _ _ _ _ (.inl (by decide)))
  have hcap : ∀ b c, capturing (armed b c d) = c := fun b c =>
    (bit_setReg_ne _ _ _ _ _ (by decide)).trans (bit_setBit _ _ _ _ (by omega))
  rw [armFrom]
  dsimp only
  rw [hv, ← armed, hcap]

theorem arm_eq {s : State} (hon : observationOn s = true) :
    arm s = if bit s R.acqCtrl 31 = true ∧ armRefused s = true then setBit (setBit (disarmed s) R.acqStatus 27 true) R.trgStatus 31 false
      else if bit s R.acqCtrl 31 = true then showOffsets (armed (preCount s == 0) (bit s R.acqCtrl 31) (disarmed s))
        else armed (preCount s == 0) (bit s R.acqCtrl 31) (disarmed s) := by
  obtain ⟨hk, -⟩ := disarmed_regs s
  have hL : SparesCapture (R.acqStatus :: chStatusRegs) := fun x hx => by
    rcases List.mem_cons.1 hx with rfl | hx
    · decide
    · obtain ⟨c, hc, rfl⟩ := mem_chStatusRegs hx
      simp only [R.acqCtrl, R.acqCfg, R.acqPre]
      omega
  have hctrl : bit (disarmed s) R.acqCtrl 31 = bit s R.acqCtrl 31 := hk.bit (fun hm => (hL _ hm).2.1 rfl) 31
  have href := armRefused_keeps hk hL
  have hpre := preCount_keeps hk hL
  have hrun : arm s = armFrom (disarmed s) := by
    rw [arm, hon]
    rfl
  rw [hrun, armFrom_eq, hctrl, href, hpre]

/-- The offsets that a drain shows, when no unit has been drained and none made. -/
theorem showOffsets_fresh {s : State} (hd : s.acq.drained = 0) (hh : s.acq.heads = []) :
    keepsRegs [R.acqWrLo, R.acqWrHi, R.acqStartLo, R.acqStartHi] s (showOffsets s) ∧
    (∀ a, a ∈ [R.acqWrLo, R.acqWrHi, R.acqStartLo, R.acqStartHi] → reg (showOffsets s) a = 0) ∧ (showOffsets s).acq = s.acq := by
  have hold : oldestHead s 0 = 0 := by rw [oldestHead, hh]; rfl
  have hrun : showOffsets s = setReg (setReg (setReg (setReg s R.acqWrLo 0) R.acqWrHi 0) R.acqStartLo 0) R.acqStartHi 0 := by
    rw [showOffsets, hd, hold]
    simp
  rw [hrun]
  refine ⟨((((keepsRegs_refl _ s).setReg (by simp) 0).setReg (by simp) 0).setReg (by simp) 0).setReg (by simp) 0, fun a ha => ?_, rfl⟩
  simp only [List.mem_cons, List.not_mem_nil, or_false] at ha
  simp only [reg_setReg]
  rcases ha with rfl | rfl | rfl | rfl <;> simp [R.acqWrLo, R.acqWrHi, R.acqStartLo, R.acqStartHi]

theorem arm_arms {s : State} (hon : observationOn s = true) (h : bit s R.acqCtrl 31 = false ∨ armRefused s = false) :
    Completes .arm s fun t =>
      bit t R.trgStatus 31 = true ∧ bit t R.trgStatus 30 = (preCount s == 0) ∧
      bit t R.acqStatus 31 = bit s R.acqCtrl 31 ∧ bit t R.acqStatus 29 = false ∧ bit t R.acqStatus 25 = bit s R.acqStatus 25 ∧
      reg t R.acqSegDone = 0 ∧ (∀ c, c < 16 → bits t (R.trgChStatus c) 30 2 = 0) ∧ t.acq = { force := s.acq.force } ∧
      (bit s R.acqCtrl 31 = true → ∀ a, a ∈ [R.acqWrLo, R.acqWrHi, R.acqStartLo, R.acqStartHi] → reg t a = 0) := by
  obtain ⟨-, -, d29, d25, dz, dacq⟩ := disarmed_regs s
  have hrun := (arm_eq hon).trans (if_neg fun ⟨h1, h2⟩ => by
    rcases h with h | h
    · rw [h] at h1; cases h1
    · rw [h] at h2; cases h2)
  generalize disarmed s = d at *
  generalize hu : armed (preCount s == 0) (bit s R.acqCtrl 31) d = u at hrun
  rw [armed] at hu
  have huacq : u.acq = { force := s.acq.force } := by rw [← hu]; exact dacq
  have hseg : ∀ x i, x ≠ R.acqSegDone → bit u x i = bit (setBit (setBit (setBit d R.trgStatus 31 true) R.trgStatus 30 (preCount s == 0))
      R.acqStatus 31 (bit s R.acqCtrl 31)) x i := fun x i hx => by rw [← hu]; exact bit_setReg_ne _ _ _ _ _ hx
  have u1 : bit u R.trgStatus 31 = true := by
    rw [hseg _ _ (by decide), bit_setBit_ne _ _ _ _ _ _ (.inl (by decide)), bit_setBit_ne _ _ _ _ _ _ (.inr (by decide)),
      bit_setBit _ _ _ _ (by omega)]
  have u2 : bit u R.trgStatus 30 = (preCount s == 0) := by
    rw [hseg _ _ (by decide), bit_setBit_ne _ _ _ _ _ _ (.inl (by decide)), bit_setBit _ _ _ _ (by omega)]
  have u3 : bit u R.acqStatus 31 = bit s R.acqCtrl 31 := by
    rw [hseg _ _ (by decide), bit_setBit _ _ _ _ (by omega)]
  have u4 : bit u R.acqStatus 29 = false := by
    rw [hseg _ _ (by decide), bit_setBit_ne _ _ _ _ _ _ (.inr (by decide)), bit_setBit_ne _ _ _ _ _ _ (.inl (by decide)),
      bit_setBit_ne _ _ _ _ _ _ (.inl (by decide))]
    exact d29
  have u5 : bit u R.acqStatus 25 = bit s R.acqStatus 25 := by
    rw [hseg _ _ (by decide), bit_setBit_ne _ _ _ _ _ _ (.inr (by decide)), bit_setBit_ne _ _ _ _ _ _ (.inl (by decide)),
      bit_setBit_ne _ _ _ _ _ _ (.inl (by decide))]
    exact d25
  have u6 : reg u R.acqSegDone = 0 := by rw [← hu, reg_setReg, if_pos rfl]
  have u7 : ∀ c, c < 16 → bits u (R.trgChStatus c) 30 2 = 0 := fun c hc => by
    have hn : R.trgChStatus c ≠ R.acqSegDone ∧ R.trgChStatus c ≠ R.acqStatus ∧ R.trgChStatus c ≠ R.trgStatus := by
      simp only [R.trgChStatus, R.acqSegDone, R.acqStatus, R.trgStatus]
      omega
    obtain ⟨n1, n2, n3⟩ := hn
    rw [bits, ← hu, reg_setReg, if_neg n1, ← bits, bits_setBit_ne _ _ _ _ _ _ _ (.inl n2), bits_setBit_ne _ _ _ _ _ _ _ (.inl n3),
      bits_setBit_ne _ _ _ _ _ _ _ (.inl n3)]
    exact dz c hc
  cases hc : bit s R.acqCtrl 31 with
  | false =>
    rw [hc, if_neg Bool.false_ne_true] at hrun
    exact ⟨u, congrArg Host.Outcome.next hrun, u1, u2, u3.trans hc, u4, u5, u6, u7, huacq, fun hf => by cases hf⟩
  | true =>
    rw [hc, if_pos rfl] at hrun
    obtain ⟨hk, hz, ha⟩ := showOffsets_fresh (s := u) (by rw [huacq]) (by rw [huacq])
    refine ⟨_, congrArg Host.Outcome.next hrun, (hk.bit (by decide) 31).trans u1, (hk.bit (by decide) 30).trans u2,
      (hk.bit (by decide) 31).trans (u3.trans hc), (hk.bit (by decide) 29).trans u4, (hk.bit (by decide) 25).trans u5,
      (hk _ (by decide)).trans u6, fun c hc' => ?_, ha.trans huacq, fun _ => hz⟩
    refine (hk.bits ?_ 30 2).trans (u7 c hc')
    simp only [List.mem_cons, List.not_mem_nil, or_false, R.trgChStatus, R.acqWrLo, R.acqWrHi, R.acqStartLo, R.acqStartHi]
    omega

theorem arm_refuses {s : State} (hon : observationOn s = true) (hc : bit s R.acqCtrl 31 = true) (hr : armRefused s = true) :
    Completes .arm s fun t =>
      bit t R.trgStatus 31 = false ∧ bit t R.acqStatus 27 = true ∧ bit t R.acqStatus 31 = false ∧ t.acq = { force := s.acq.force } := by
  obtain ⟨-, d31, -, -, -, dacq⟩ := disarmed_regs s
  have hrun := (arm_eq hon).trans (if_pos ⟨hc, hr⟩)
  refine ⟨_, congrArg Host.Outcome.next hrun, bit_setBit _ _ _ _ (by omega), ?_, ?_, dacq⟩
  · rw [bit_setBit_ne _ _ _ _ _ _ (.inl (by decide)), bit_setBit _ _ _ _ (by omega)]
  · rw [bit_setBit_ne _ _ _ _ _ _ (.inl (by decide)), bit_setBit_ne _ _ _ _ _ _ (.inr (by decide))]
    exact d31

/-! ## The ends of a capture -/

theorem pad_aligned (s : State) : (pad s).acq.made % 8 = 0 := by
  show (s.acq.made + (List.replicate ((8 - s.acq.made % 8) % 8) (0 : DWord)).length) % 8 = 0
  rw [List.length_replicate]
  omega

/-- A normal capture ends: the units of its end, its record and nothing of the registers. -/
theorem finishNormal_ends (e : Nat) (s : State) :
    (finishNormal e s).acq.ending = true ∧
    (∃ z, (finishNormal e s).acq.fifo = s.acq.fifo ++ flushRun s.acq.coder ++ [markerUnit 3 e] ++ List.replicate z 0) ∧
    (finishNormal e s).acq.made % 8 = 0 ∧
    (∃ r, (finishNormal e s).acq.records = s.acq.records ++ [((finishNormal e s).acq.made, 0, r)]) ∧
    (finishNormal e s).regs = s.regs := by
  obtain ⟨r, hr⟩ : ∃ r, finishNormal e s = endCapture (queueAcqRecord 0 r (pad (pushMarker 3 e s))) := ⟨_, rfl⟩
  have hq : ∀ i bs u, (endCapture (queueAcqRecord i bs u)).acq.made = u.acq.made ∧
      (endCapture (queueAcqRecord i bs u)).acq.records = u.acq.records ++ [(u.acq.made, i, bs)] ∧
      (endCapture (queueAcqRecord i bs u)).acq.fifo = u.acq.fifo ∧ (endCapture (queueAcqRecord i bs u)).regs = u.regs ∧
      (endCapture (queueAcqRecord i bs u)).acq.ending = true := fun _ _ _ => ⟨rfl, rfl, rfl, rfl, rfl⟩
  have hpad : ∀ u, (pad u).acq.records = u.acq.records ∧ (pad u).regs = u.regs ∧
      ∃ z, (pad u).acq.fifo = u.acq.fifo ++ List.replicate z 0 := fun _ => ⟨rfl, rfl, _, rfl⟩
  have hm : (pushMarker 3 e s).acq.records = s.acq.records ∧ (pushMarker 3 e s).regs = s.regs ∧
      (pushMarker 3 e s).acq.fifo = s.acq.fifo ++ (flushRun s.acq.coder ++ [markerUnit 3 e]) := ⟨rfl, rfl, rfl⟩
  obtain ⟨m1, m2, m3⟩ := hm
  obtain ⟨p1, p2, z, p3⟩ := hpad (pushMarker 3 e s)
  obtain ⟨q1, q2, q3, q4, q5⟩ := hq 0 r (pad (pushMarker 3 e s))
  rw [hr]
  refine ⟨q5, ⟨z, ?_⟩, ?_, ⟨r, ?_⟩, q4.trans (p2.trans m2)⟩
  · rw [q3, p3, m3]
    simp only [List.append_assoc]
  · rw [q1]
    exact pad_aligned _
  · rw [q2, q1, p1, m1]

theorem acqStop_ends {s : State} (hon : observationOn s = true) (hc : capturing s = true) (he : s.acq.ending = false)
    (hs : segmented s = false) :
    Completes .acqStop s fun t =>
      t.acq.ending = true ∧
      (∃ z, t.acq.fifo = s.acq.fifo ++ flushRun s.acq.coder ++ [markerUnit 3 (s.sched.ec.toNat - 1)] ++ List.replicate z 0) ∧
      t.acq.made % 8 = 0 ∧ (∃ r, t.acq.records = s.acq.records ++ [(t.acq.made, 0, r)]) ∧ t.regs = s.regs := by
  have hrun : acqStop s = finishNormal (lastSampleEc s) s := by
    rw [acqStop, if_pos hon, stopCapture, if_pos ⟨hc, by rw [he]; rfl⟩, hs, if_neg Bool.false_ne_true]
  exact ⟨_, congrArg Host.Outcome.next hrun, finishNormal_ends _ _⟩

theorem acqStop_idle {s : State} (hon : observationOn s = true) (hc : capturing s = true) (he : s.acq.ending = false)
    (hs : segmented s = true) (hn : s.acq.segment = none) :
    exec .acqStop s = .next { s with acq := { s.acq with ending := true } } := by
  have hd : discardSegment s = s := by rw [discardSegment, hn]
  refine congrArg Host.Outcome.next (?_ : acqStop s = _)
  rw [acqStop, if_pos hon, stopCapture, if_pos ⟨hc, by rw [he]; rfl⟩, if_pos hs, hd, endCapture, ← hn]
  rfl

/-- Records that wait for nothing: none is written, and the marks of samples in the FIFO go. -/
theorem writeAcqRecords_none {s : State} (hr : s.acq.records = []) :
    ∃ x, writeAcqRecords s = setAcq { s.acq with tails := x } (bumpBits s R.acqSegDone 0 17 0) := by
  refine ⟨s.acq.tails.filter fun t => decide (s.acq.drained + fifoUnits < t), ?_⟩
  rw [writeAcqRecords, hr]
  obtain ⟨⟩ := s
  rename_i acq _ _
  obtain ⟨⟩ := acq
  dsimp only at hr
  subst hr
  rfl

theorem showOffsets_frame (s : State) :
    keepsRegs [R.acqWrLo, R.acqWrHi, R.acqStartLo, R.acqStartHi] s (showOffsets s) ∧
    reg (showOffsets s) R.acqWrLo = BitVec.ofNat 32 (8 * s.acq.drained % (8 * regionUnits s)) ∧
    ∃ g, showOffsets s = { s with regs := g } := by
  refine ⟨((((keepsRegs_refl _ s).setReg (by simp) _).setReg (by simp) _).setReg (by simp) _).setReg (by simp) _, ?_, _, rfl⟩
  rw [showOffsets]
  simp only [reg_setReg]
  rw [if_neg (by decide), if_neg (by decide), if_neg (by decide), if_true]

theorem drainBurst_empty {s : State} (hf : s.acq.fifo = []) : drainBurst s = captureDone (writeAcqRecords (showOffsets s)) := by
  obtain ⟨⟩ := s
  rename_i acq _ _
  obtain ⟨⟩ := acq
  dsimp only at hf
  subst hf
  rfl

theorem captureDrain_finishes {s : State} (hc : capturing s = true) (hon : ddrOn s (dataPlace s).1 = true)
    (hr : ddrReady s (dataPlace s).1 = true) (hf : s.acq.fifo = []) (hrec : s.acq.records = []) (he : s.acq.ending = true) :
    Completes .captureDrain s fun t =>
      t.acq = { s.acq with ending := false, tails := t.acq.tails } ∧ capturing t = false ∧ bit t R.acqStatus 30 = true ∧
      causeBit t 32 = true ∧ t.ddr = s.ddr := by
  obtain ⟨-, -, g, hg⟩ := showOffsets_frame s
  have hacq : (showOffsets s).acq = s.acq := by rw [hg]
  have hddr : (showOffsets s).ddr = s.ddr := by rw [hg]
  obtain ⟨x, hx⟩ := writeAcqRecords_none (s := showOffsets s) (by rw [hacq, hrec])
  have hub : (bumpBits (showOffsets s) R.acqSegDone 0 17 0).ddr = s.ddr := hddr
  have hrun : captureDrain s = captureDone (setAcq { s.acq with tails := x } (bumpBits (showOffsets s) R.acqSegDone 0 17 0)) := by
    rw [captureDrain, if_pos ⟨hc, hon, hr⟩, if_pos (by rw [hf]; rfl), drainBurst_empty hf, hx, hacq]
  generalize bumpBits (showOffsets s) R.acqSegDone 0 17 0 = u at *
  have hdone : captureDone (setAcq { s.acq with tails := x } u) = raiseCause 32 (setBit (setBit
      (setAcq { s.acq with tails := x, ending := false } u) R.acqStatus 31 false) R.acqStatus 30 true) := by
    rw [captureDone]
    exact if_pos ⟨he, by rw [show (setAcq { s.acq with tails := x } u).acq.fifo = [] from hf]; rfl⟩
  have h31 : bit (setBit (setBit (setAcq { s.acq with tails := x, ending := false } u) R.acqStatus 31 false) R.acqStatus 30 true)
      R.acqStatus 31 = false := by
    rw [bit_setBit_ne _ _ _ _ _ _ (.inr (by decide)), bit_setBit _ _ _ _ (by omega)]
  have h30 : bit (setBit (setBit (setAcq { s.acq with tails := x, ending := false } u) R.acqStatus 31 false) R.acqStatus 30 true)
      R.acqStatus 30 = true := bit_setBit _ _ _ _ (by omega)
  have hk := raiseCause_keeps 32 (setBit (setBit (setAcq { s.acq with tails := x, ending := false } u) R.acqStatus 31 false) R.acqStatus 30 true)
  refine ⟨_, congrArg Host.Outcome.next (hrun.trans hdone), ?_, (hk.bit (by decide) 31).trans h31, (hk.bit (by decide) 30).trans h30,
    causeBit_raiseCause _ _, ?_⟩
  · rw [raiseCause_acq]
    rfl
  · rw [raiseCause_ddr]
    exact hub

/-! ## A burst of one unit -/

/-- The state of the unit once `n` units have been drained. -/
def afterUnits (n : Nat) (s : State) : State :=
  setAcq { s.acq with fifo := s.acq.fifo.drop 8, drained := s.acq.drained + n } s

theorem readDWord_writeDWord (m : Mem) (a : Nat) (w : DWord) : readDWord (writeDWord m a w) a = w := by
  have h := readBytes_writeBytes m a (bytesLE 8 w.toNat)
  rw [bytesLE_length] at h
  rw [readDWord, writeDWord, h, ofBytesLE_bytesLE, Nat.mod_eq_of_lt (by simpa using w.isLt), BitVec.ofNat_toNat, BitVec.setWidth_eq]

theorem drainBurst_one {s : State} {u : DWord} (hf : s.acq.fifo = [u]) :
    drainBurst s = captureDone (writeAcqRecords (showOffsets (afterUnits 1
      (captureBytes (dataPlace s) (8 * s.acq.drained % (8 * regionUnits s)) (bytesLE 8 u.toNat) s)))) := by
  have h : drainBurst s = (let us := s.acq.fifo.take 8
      captureDone (writeAcqRecords (showOffsets (afterUnits us.length ((us.zipIdx).foldl (fun acc u =>
        captureBytes (dataPlace acc) (8 * (s.acq.drained + u.2) % (8 * regionUnits s)) (bytesLE 8 u.1.toNat) acc) s))))) := rfl
  rw [h, hf]
  rfl

theorem ddrTurn_capture {s : State} {c : Nat} (hq : (ddr s c).queue = []) :
    ∃ x, ddrTurn s c .capture = some x ∧ x.mem = (ddr s c).mem ∧ x.queue = [] := by
  have hr : ddrRivals s c .capture = [] := by simp [ddrRivals, classWaits, hq]
  unfold ddrTurn
  rw [hr]
  split
  · exact ⟨_, rfl, rfl, hq⟩
  · exact ⟨_, rfl, rfl, hq⟩

theorem captureDrain_drains {s : State} {u : DWord} (hc : capturing s = true) (hon : ddrOn s (dataPlace s).1 = true)
    (hr : ddrReady s (dataPlace s).1 = true) (hf : s.acq.fifo = [u]) (hrec : s.acq.records = []) (he : s.acq.ending = false)
    (hq : (ddr s (dataPlace s).1).queue = []) :
    Completes .captureDrain s fun t =>
      let c := (dataPlace s).1
      let a := regionBase s (dataPlace s) + 8 * s.acq.drained % (8 * regionUnits s)
      readDWord (ddr t c).mem a = u ∧
      (∀ x, ¬ (a ≤ x ∧ x < a + 8) → readByte (ddr t c).mem x = readByte (ddr s c).mem x) ∧
      t.acq = { s.acq with fifo := [], drained := s.acq.drained + 1, tails := t.acq.tails } ∧ capturing t = true ∧
      reg t R.acqWrLo = BitVec.ofNat 32 (8 * (s.acq.drained + 1) % (8 * regionUnits s)) := by
  obtain ⟨x, hx, hmem, hqueue⟩ := ddrTurn_capture hq
  generalize hd : setDdr s (dataPlace s).1 x = d
  have hregs : d.regs = s.regs := by rw [← hd]; rfl
  have hacq : d.acq = s.acq := by rw [← hd]; rfl
  have hdx : ddr d (dataPlace s).1 = x := by rw [← hd, ddr_setDdr, if_pos rfl]
  have hplace : dataPlace d = dataPlace s := by simp only [dataPlace, bits, reg, hregs]
  have hunits : regionUnits d = regionUnits s := by rw [regionUnits, hplace, bits, reg, hregs, regionUnits, bits, reg]
  have hbase : regionBase d (dataPlace s) = regionBase s (dataPlace s) := by rw [regionBase, bits, reg, hregs, regionBase, bits, reg]
  generalize ha : regionBase s (dataPlace s) + 8 * s.acq.drained % (8 * regionUnits s) = a
  have hsettle : ∀ a n, ddrSettle (dataPlace s).1 a n d = d := fun a n => by rw [ddrSettle, hdx, hqueue]; rfl
  have hbytes : captureBytes (dataPlace s) (8 * s.acq.drained % (8 * regionUnits s)) (bytesLE 8 u.toNat) d =
      setDdr d (dataPlace s).1 { x with mem := writeDWord x.mem a u } := by
    rw [captureBytes, hsettle, hbase, ha, hdx]
    rfl
  have hafter : afterUnits 1 (setDdr d (dataPlace s).1 { x with mem := writeDWord x.mem a u }) =
      setAcq { s.acq with fifo := [], drained := s.acq.drained + 1 } (setDdr d (dataPlace s).1 { x with mem := writeDWord x.mem a u }) := by
    have hda : (setDdr d (dataPlace s).1 { x with mem := writeDWord x.mem a u }).acq = s.acq := hacq
    rw [afterUnits, hda, hf]
    rfl
  have hrun : captureDrain s = captureDone (writeAcqRecords (showOffsets (setAcq { s.acq with fifo := [], drained := s.acq.drained + 1 }
      (setDdr d (dataPlace s).1 { x with mem := writeDWord x.mem a u })))) := by
    rw [captureDrain, if_pos ⟨hc, hon, hr⟩, if_neg (by rw [hf]; simp), captureBurst, hx]
    dsimp only
    rw [hd, drainBurst_one (by rw [hacq, hf]), hplace, hunits, hacq, hbytes, hafter]
  generalize hw : setAcq { s.acq with fifo := [], drained := s.acq.drained + 1 }
      (setDdr d (dataPlace s).1 { x with mem := writeDWord x.mem a u }) = w at hrun
  have hwregs : w.regs = s.regs := by rw [← hw]; exact hregs
  have hwacq : w.acq = { s.acq with fifo := [], drained := s.acq.drained + 1 } := by rw [← hw]; rfl
  have hwmem : (ddr w (dataPlace s).1).mem = writeDWord (ddr s (dataPlace s).1).mem a u := by
    rw [← hw, ← hmem]
    exact congrArg DdrChannel.mem ((ddr_setDdr _ _ _ _).trans (if_pos rfl))
  have hwunits : regionUnits w = regionUnits s := by
    simp only [regionUnits, dataPlace, bits, reg, hwregs]
  obtain ⟨hk, hlo, g, hg⟩ := showOffsets_frame w
  have hsacq : (showOffsets w).acq = w.acq := by rw [hg]
  have hsddr : (showOffsets w).ddr = w.ddr := by rw [hg]
  obtain ⟨y, hy⟩ := writeAcqRecords_none (s := showOffsets w) (by rw [hsacq, hwacq]; exact hrec)
  have hkb : keepsRegs [R.acqSegDone] (showOffsets w) (bumpBits (showOffsets w) R.acqSegDone 0 17 0) :=
    (keepsRegs_refl _ _).bumpBits (List.mem_singleton_self _) 0 17 0
  have hbddr : (bumpBits (showOffsets w) R.acqSegDone 0 17 0).ddr = w.ddr := hsddr
  rw [hy, hsacq, hwacq] at hrun
  rw [hwacq] at hlo
  generalize bumpBits (showOffsets w) R.acqSegDone 0 17 0 = v at *
  have hdone : ∀ z : Acq, z.ending = false → captureDone (setAcq z v) = setAcq z v := fun z hz => by
    rw [captureDone, show (setAcq z v).acq.ending = false from hz, if_neg (by simp)]
  rw [hdone { s.acq with fifo := [], drained := s.acq.drained + 1, tails := y } he] at hrun
  have hvmem : (ddr (setAcq { s.acq with fifo := [], drained := s.acq.drained + 1, tails := y } v) (dataPlace s).1).mem =
      writeDWord (ddr s (dataPlace s).1).mem a u := by
    rw [← hwmem, ddr, ddr]
    exact congrArg (fun m => (look (fun _ => {}) m (dataPlace s).1 : DdrChannel).mem) hbddr
  refine ⟨_, congrArg Host.Outcome.next hrun, ?_, fun i hi => ?_, rfl, ?_, ?_⟩
  · dsimp only
    rw [hvmem]
    exact readDWord_writeDWord _ _ _
  · dsimp only at hi ⊢
    rw [hvmem, writeDWord, readByte_writeBytes, bytesLE_length, if_neg hi]
  · have hs : bit s R.acqStatus 31 = true := hc
    rw [bit, reg, ← hwregs] at hs
    exact (hkb.bit (by decide) 31).trans ((hk.bit (by decide) 31).trans hs)
  · rw [← hwunits]
    exact (hkb _ (by decide)).trans hlo

/-! ## The end of a pause -/

theorem pauseResume_resumes {s : State} (h25 : bit s R.acqStatus 25 = true) (hfill : fifoFill s < 65536) (hrun : s.sched.run = .frozen)
    (hb : bits s R.trgRunStatus 0 9 = 0x100) :
    exec .pauseResume s = .next (resumeRun none (setBit s R.acqStatus 25 false)) := by
  have hbu : bits (setBit s R.acqStatus 25 false) R.trgRunStatus 0 9 = 0x100 :=
    (bits_setBit_ne _ _ _ _ _ _ _ (.inl (by decide))).trans hb
  refine congrArg Host.Outcome.next (?_ : pauseResume s = _)
  rw [pauseResume, if_pos hfill, endPause, if_pos h25]
  exact if_pos ⟨hrun, hbu⟩

/-- Settles O41. -/
theorem triggerAndCapture : Obligations.TriggerAndCapture := by
  unfold Obligations.TriggerAndCapture
  refine ⟨fun s hon h => arm_arms hon h, fun s hon hc hr => arm_refuses hon hc hr, fun s hon hc => ?_,
    fun s hon => congrArg Host.Outcome.next (if_pos hon), fun s => rfl, fun s hon hc he hs => acqStop_ends hon hc he hs,
    fun s hon hc he hs hn => acqStop_idle hon hc he hs hn, fun s u hc hon hr hf hrec he _ hq => captureDrain_drains hc hon hr hf hrec he hq,
    fun s hc hon hr hf hrec he => captureDrain_finishes hc hon hr hf hrec he, fun s h25 hfill hrun hb hh => ?_,
    fun s e h25 hfill hrun hb hh hp he => ?_⟩
  · have hstop : stopCapture s = s := if_neg fun hcap => by
      rw [hc] at hcap
      exact Bool.false_ne_true hcap.1
    refine congrArg Host.Outcome.next (?_ : disarm s = _)
    rw [disarm, hon, if_neg (by decide), hstop]
    rfl
  · obtain ⟨h0, h25', -⟩ := running_regs none (setBit s R.acqStatus 25 false)
    have hres := resumeRun_plain (s := setBit s R.acqStatus 25 false) none fun e he => by
      rw [show (setBit s R.acqStatus 25 false).sched.held = none from hh] at he
      cases he
    exact ⟨_, (pauseResume_resumes h25 hfill hrun hb).trans (congrArg Host.Outcome.next hres), rfl, h0, h25', rfl, rfl⟩
  · obtain ⟨h1, h2, -, h4, h5, -, h7, h8⟩ := resumeRun_sends (s := setBit s R.acqStatus 25 false) none hh hp he
    have hk : keepsRegs [R.acqStatus] s (setBit s R.acqStatus 25 false) := (keepsRegs_refl _ s).setBit (List.mem_singleton_self _) _ _
    have hms := msLinks_keeps hk (by decide)
    refine ⟨_, pauseResume_resumes h25 hfill hrun hb, h1, fun l hl => ?_, h4, h5, h7, h8⟩
    obtain ⟨g1, g2⟩ := h2 l (by rw [hms]; exact hl)
    refine ⟨g1, fun a ha => g2 a ?_⟩
    rw [linkLanes_keeps hk ((by decide : ∀ l : Fin 20, R.cwLinkCfg l ∉ [R.acqStatus]) ⟨l, List.mem_range.1 (List.mem_filter.1 hl).1⟩)]
    exact ha

end Sys2Proof.Machine
end

/-! # The ns counter, its set and its servo reset -/

section
namespace Sys2Proof.Machine
set_option Elab.async false

/-! ## One edge of the time clock -/

theorem countWatchdogs_moved (s : State) :
    keepsRegs [R.lhWdtCount 0, R.lhWdtCount 1] s (countWatchdogs s) ∧ ∃ g, countWatchdogs s = { s with regs := g } := by
  have hstep : ∀ (c : Nat) (u : State), c < 2 →
      keepsRegs [R.lhWdtCount 0, R.lhWdtCount 1] u
        (if bit u (R.lhWdtCfg c) 31 then setBits u (R.lhWdtCount c) 0 24 (bits u (R.lhWdtCount c) 0 24 - 1) else u) ∧
      ∃ g, (if bit u (R.lhWdtCfg c) 31 then setBits u (R.lhWdtCount c) 0 24 (bits u (R.lhWdtCount c) 0 24 - 1) else u) =
        { u with regs := g } := fun c u hc => by
    have hm : R.lhWdtCount c ∈ [R.lhWdtCount 0, R.lhWdtCount 1] := (by decide : ∀ c : Fin 2, R.lhWdtCount c ∈ [R.lhWdtCount 0, R.lhWdtCount 1]) ⟨c, hc⟩
    split
    · exact ⟨(keepsRegs_refl _ u).setBits hm 0 24 _, _, rfl⟩
    · exact ⟨keepsRegs_refl _ u, u.regs, rfl⟩
  unfold countWatchdogs
  split
  · exact ⟨keepsRegs_refl _ s, s.regs, rfl⟩
  · rw [forUpTo_succ, forUpTo_succ]
    obtain ⟨h1, g1, e1⟩ := hstep 0 s (by omega)
    obtain ⟨h2, g2, e2⟩ := hstep 1 (if bit s (R.lhWdtCfg 0) 31 then
      setBits s (R.lhWdtCount 0) 0 24 (bits s (R.lhWdtCount 0) 0 24 - 1) else s) (by omega)
    exact ⟨h1.trans h2, g2, e2.trans (by rw [e1])⟩

theorem oweTicks_frame (m : Bool) (s : State) : ∃ h, oweTicks m s = { s with hb := h } := by
  unfold oweTicks
  split
  · exact ⟨s.hb, rfl⟩
  · generalize 4 = n
    induction n with
    | zero => exact ⟨s.hb, rfl⟩
    | succ n ih =>
      obtain ⟨h, e⟩ := ih
      rw [forUpTo_succ, e]
      split
      · exact ⟨_, rfl⟩
      · exact ⟨h, rfl⟩

/-- The counter and what waits for it after an edge. -/
def tickedTime (s : State) : TimeUnit :=
  let t := s.time
  let inc := if t.incPending then (reg s R.timeIncLo).toNat + (bits s R.timeIncHi 0 8) * 2 ^ 32 else t.increment
  let t := { t with ticks := t.ticks + 1, increment := inc, incPending := false }
  let next := match t.setValue with
    | some v => BitVec.ofNat 96 (v.toNat * 2 ^ 32)
    | none =>
      let back := match t.stepBy with
        | some o => roundFree o 2
        | none => 0
      t.now + BitVec.ofNat 96 inc - BitVec.ofInt 96 back
  { (if t.setValue.isSome then { t with setValue := none } else { t with stepBy := none }) with now := next }

theorem timeTick_ticks (s : State) :
    (timeTick s).time = tickedTime s ∧ keepsRegs [R.lhWdtCount 0, R.lhWdtCount 1] s (timeTick s) ∧
    (timeTick s).sched = s.sched ∧ (timeTick s).clusters = s.clusters := by
  obtain ⟨hk, g, e⟩ := countWatchdogs_moved { s with time := tickedTime s }
  have hrun : timeTick s = if decide (s.time.now.toNat / 2 ^ 32 / 1000 < (tickedTime s).now.toNat / 2 ^ 32 / 1000) = true then
      oweTicks false (countWatchdogs { s with time := tickedTime s }) else countWatchdogs { s with time := tickedTime s } := rfl
  rw [hrun]
  split
  · obtain ⟨h, eh⟩ := oweTicks_frame false (countWatchdogs { s with time := tickedTime s })
    rw [eh]
    refine ⟨?_, hk, ?_, ?_⟩
    · rw [e]
    · rw [e]
    · rw [e]
  · refine ⟨?_, hk, ?_, ?_⟩
    · rw [e]
    · rw [e]
    · rw [e]

theorem tickedTime_counts {s : State} (hv : s.time.setValue = none) (hb : s.time.stepBy = none) (hi : s.time.incPending = false) :
    tickedTime s = { s.time with now := s.time.now + BitVec.ofNat 96 s.time.increment, ticks := s.time.ticks + 1 } := by
  obtain ⟨⟩ := s
  rename_i time _ _ _ _ _ _ _ _ _ _ _ _
  obtain ⟨⟩ := time
  dsimp only at hv hb hi
  subst hv hb hi
  simp [tickedTime]

theorem tickedTime_sets {s : State} {v : DWord} (hv : s.time.setValue = some v) (hi : s.time.incPending = false) :
    (tickedTime s).now = BitVec.ofNat 96 (v.toNat * 2 ^ 32) ∧ (tickedTime s).setValue = none ∧
    (tickedTime s).increment = s.time.increment := by
  obtain ⟨⟩ := s
  rename_i time _ _ _ _ _ _ _ _ _ _ _ _
  obtain ⟨⟩ := time
  dsimp only at hv hi
  subst hv hi
  exact ⟨rfl, rfl, rfl⟩

/-! ## The servo at its start -/

theorem timeSet_takes {s : State} (h : timeRole s ≠ 2) :
    exec .timeSet s = .next { s with time := { s.time with setValue := some (reg s R.timeSetHi ++ reg s R.timeSetLo) } } :=
  congrArg Host.Outcome.next (if_neg h)

theorem roundFree_zero (den : Nat) : roundFree 0 den = 0 := by
  simp [roundFree]

/-- What the start of the servo writes into its registers. -/
def servoShown (s : State) : State :=
  setBits (setReg (setBit (setBit (setReg (setReg s R.timeIncLo (BitVec.ofNat 32 nominalInc)) R.timeIncHi
    (BitVec.ofNat 32 (nominalInc / 2 ^ 32 % 256))) R.timeStatus 31 false) R.timeStatus 29 false) R.timeRate 0) R.timeExch 0 8 0

theorem servoInit_eq (s : State) :
    servoInit s = { servoShown s with time := { s.time with servoI := 0, servoR := 0, count := 0, increment := nominalInc } } := by
  have h : ∀ u : State, u.time.servoR = 0 → u.time.count = 0 →
      showServo u = setBits (setReg (setBit (setBit u R.timeStatus 31 false) R.timeStatus 29 false) R.timeRate 0) R.timeExch 0 8 0 :=
    fun u hr hc => by
      rw [showServo, hr, hc, roundFree_zero]
      rfl
  rw [servoInit, h _ rfl rfl]
  rfl

theorem servoShown_regs (s : State) :
    reg (servoShown s) R.timeIncLo = 0 ∧ reg (servoShown s) R.timeIncHi = 4 ∧ reg (servoShown s) R.timeRate = 0 ∧
    bits (servoShown s) R.timeExch 0 8 = 0 ∧ bit (servoShown s) R.timeStatus 31 = false ∧ bit (servoShown s) R.timeStatus 29 = false ∧
    keepsRegs [R.timeIncLo, R.timeIncHi, R.timeRate, R.timeExch, R.timeStatus] s (servoShown s) := by
  have hk : ∀ u : State, keepsRegs [R.timeRate, R.timeExch, R.timeStatus] u
      (setBits (setReg (setBit (setBit u R.timeStatus 31 false) R.timeStatus 29 false) R.timeRate 0) R.timeExch 0 8 0) := fun u =>
    ((((keepsRegs_refl _ u).setBit (by simp) 31 false).setBit (by simp) 29 false).setReg (by simp) 0).setBits (by simp) 0 8 0
  have hi : keepsRegs [R.timeIncLo, R.timeIncHi] s (setReg (setReg s R.timeIncLo (BitVec.ofNat 32 nominalInc)) R.timeIncHi
      (BitVec.ofNat 32 (nominalInc / 2 ^ 32 % 256))) := ((keepsRegs_refl _ s).setReg (by simp) _).setReg (by simp) _
  have hlo : reg (setReg (setReg s R.timeIncLo (BitVec.ofNat 32 nominalInc)) R.timeIncHi (BitVec.ofNat 32 (nominalInc / 2 ^ 32 % 256)))
      R.timeIncLo = 0 := by
    rw [reg_setReg, if_neg (by decide), reg_setReg, if_pos rfl]
    rfl
  have hhi : reg (setReg (setReg s R.timeIncLo (BitVec.ofNat 32 nominalInc)) R.timeIncHi (BitVec.ofNat 32 (nominalInc / 2 ^ 32 % 256)))
      R.timeIncHi = 4 := by
    rw [reg_setReg, if_pos rfl]
    rfl
  rw [servoShown]
  generalize setReg (setReg s R.timeIncLo (BitVec.ofNat 32 nominalInc)) R.timeIncHi (BitVec.ofNat 32 (nominalInc / 2 ^ 32 % 256)) = u at *
  have hb : ∀ i, bit (setBits (setReg (setBit (setBit u R.timeStatus 31 false) R.timeStatus 29 false) R.timeRate 0) R.timeExch 0 8 0)
      R.timeStatus i = bit (setBit (setBit u R.timeStatus 31 false) R.timeStatus 29 false) R.timeStatus i := fun i => by
    rw [bit_setBits_ne _ _ _ _ _ _ _ (.inl (by decide)), bit_setReg_ne _ _ _ _ _ (by decide)]
  refine ⟨(hk u _ (by decide)).trans hlo, (hk u _ (by decide)).trans hhi, ?_, ?_, ?_, ?_, (hi.mono (by simp)).trans ((hk u).mono (by simp))⟩
  · rw [reg_setBits, if_neg (by decide), reg_setReg, if_pos rfl]
  · rw [bits_setBits _ _ _ _ _ (by omega)]
    rfl
  · rw [hb, bit_setBit_ne _ _ _ _ _ _ (.inr (by decide)), bit_setBit _ _ _ _ (by omega)]
  · rw [hb, bit_setBit _ _ _ _ (by omega)]

/-- What a return of the servo to its start leaves. -/
theorem servoInit_starts (s : State) :
    (servoInit s).time = { s.time with servoI := 0, servoR := 0, count := 0, increment := 2 ^ 34 } ∧ reg (servoInit s) R.timeIncLo = 0 ∧
    reg (servoInit s) R.timeIncHi = 4 ∧ reg (servoInit s) R.timeRate = 0 ∧ bits (servoInit s) R.timeExch 0 8 = 0 ∧
    bit (servoInit s) R.timeStatus 31 = false ∧ bit (servoInit s) R.timeStatus 29 = false ∧
    keepsRegs [R.timeIncLo, R.timeIncHi, R.timeRate, R.timeExch, R.timeStatus] s (servoInit s) := by
  rw [servoInit_eq]
  exact ⟨rfl, servoShown_regs s⟩

theorem dropTimeFrames_frame (s : State) : ∀ n, ∃ c, forUpTo n dropTimeFrames s = { s with cw := c } ∧
    ∀ l, link { s with cw := c } l = if l < n then { link s l with exchanges := (link s l).exchanges.filter fun x => timeFrameType x == 5 }
      else link s l
  | 0 => ⟨s.cw, rfl, fun _ => (if_neg (Nat.not_lt_zero _)).symm⟩
  | n + 1 => by
    obtain ⟨c, e, h⟩ := dropTimeFrames_frame s n
    refine ⟨(dropTimeFrames n { s with cw := c }).cw, by rw [forUpTo_succ, e]; rfl, fun l => ?_⟩
    have hl : link (dropTimeFrames n { s with cw := c }) l =
        if l = n then { link s n with exchanges := (link s n).exchanges.filter fun x => timeFrameType x == 5 } else link { s with cw := c } l := by
      rw [dropTimeFrames, link_setLink, h n, if_neg (Nat.lt_irrefl n)]
    refine (show link (dropTimeFrames n { s with cw := c }) l = _ from hl.trans ?_)
    by_cases hln : l = n
    · rw [if_pos hln, if_pos (by omega), hln]
    · rw [if_neg hln, h l]
      by_cases hlt : l < n
      · rw [if_pos hlt, if_pos (by omega)]
      · rw [if_neg hlt, if_neg (by omega)]

theorem timeCfgWrite_starts (sync : Bool) (v : Word) (s : State) :
    Completes (.timeCfgWrite sync v) s fun t =>
      t.time = { s.time with
        servoI := 0
        servoR := 0
        count := 0
        increment := 2 ^ 34
        exchange := none
        stepBy := none
        syncDue := []
        offsetTick := s.time.ticks } ∧
      (∀ l, l < 20 → (link t l).exchanges = (link s l).exchanges.filter fun x => timeFrameType x == 5) ∧
      reg t (if sync then R.timeSyncCfg else R.timeCfg) =
        reg (writeFields (if sync then R.timeSyncCfg else R.timeCfg) v s) (if sync then R.timeSyncCfg else R.timeCfg) ∧
      keepsRegs [R.timeIncLo, R.timeIncHi, R.timeRate, R.timeExch, R.timeStatus,
        if sync then R.timeSyncCfg else R.timeCfg] s t := by
  have hout : (if sync then R.timeSyncCfg else R.timeCfg) ∉ [R.timeIncLo, R.timeIncHi, R.timeRate, R.timeExch, R.timeStatus] := by
    cases sync <;> decide
  have hrun : timeCfgWrite sync v s = (let u := forUpTo 20 dropTimeFrames (writeFields (if sync then R.timeSyncCfg else R.timeCfg) v s)
      servoInit { u with time := { u.time with exchange := none, stepBy := none, syncDue := [], offsetTick := u.time.ticks } }) := rfl
  generalize (if sync then R.timeSyncCfg else R.timeCfg) = a at *
  obtain ⟨hk, hfr⟩ := writeFields_only a v s
  have htime : (writeFields a v s).time = s.time := by rw [hfr]
  have hlink : ∀ l, link (writeFields a v s) l = link s l := fun l => by rw [hfr]; rfl
  generalize writeFields a v s = w at *
  obtain ⟨c, e, hex⟩ := dropTimeFrames_frame w 20
  dsimp only at hrun
  rw [e] at hrun
  dsimp only at hrun
  rw [htime] at hrun
  generalize hu : ({ w with cw := c, time := { s.time with exchange := none, stepBy := none, syncDue := [], offsetTick := s.time.ticks } } : State) = u at hrun
  have hreg : ∀ y, reg u y = reg w y := fun y => by rw [← hu]; rfl
  obtain ⟨h1, -, -, -, -, -, -, h2⟩ := servoInit_starts u
  have hcw : (servoInit u).cw = c := by
    rw [servoInit_eq, ← hu]
    rfl
  refine ⟨_, congrArg Host.Outcome.next hrun, ?_, fun l hl => ?_, (h2 a hout).trans (hreg a), fun y hy => ?_⟩
  · rw [h1, ← hu]
  · have := hex l
    rw [if_pos hl, hlink] at this
    rw [link, hcw]
    exact congrArg Link.exchanges this
  · have hy1 : y ∉ [R.timeIncLo, R.timeIncHi, R.timeRate, R.timeExch, R.timeStatus] := fun h => hy (by simp at h ⊢; tauto)
    have hy2 : y ∉ [a] := fun h => hy (by simp at h ⊢; tauto)
    exact (h2 y hy1).trans ((hreg y).trans (hk y hy2))

/-- Settles O42. -/
theorem timeCounter : Obligations.TimeCounter := by
  unfold Obligations.TimeCounter
  refine ⟨fun s hv hb hi => ?_, fun s v hv hi => ?_, fun s h => timeSet_takes h, fun s h => congrArg Host.Outcome.next (if_pos h),
    fun s => ⟨_, rfl, servoInit_starts s⟩, fun sync v s => timeCfgWrite_starts sync v s⟩
  · obtain ⟨h1, h2, h3, h4⟩ := timeTick_ticks s
    exact ⟨_, rfl, h1.trans (tickedTime_counts hv hb hi), h2, h3, h4⟩
  · obtain ⟨h1, -⟩ := timeTick_ticks s
    refine ⟨_, rfl, ?_⟩
    dsimp only
    rw [h1]
    exact tickedTime_sets hv hi

end Sys2Proof.Machine
end

/-! # The time exchange between devices -/

section
namespace Sys2Proof.Machine
set_option Elab.async false

theorem syncSend_sends {l : Fin 20} {s : State} (hm : timeMaster s l = true) (hu : linkUp s l = true) (hd : syncIsDue s l = true) :
    Completes (.syncSend l) s fun t =>
      let n := look (fun _ => 0) s.time.sequence l
      link t l = { link s l with exchanges := (link s l).exchanges ++ [.sync n] } ∧
      look (fun _ => 0) t.time.sequence l = (n + 1) % 65536 ∧
      look (fun _ => 0) t.time.syncDue l = timeNs s + syncInterval s ∧ t.regs = s.regs := by
  refine ⟨_, congrArg Host.Outcome.next (if_pos (by rw [hm, hu, hd]; rfl)), ?_, ?_, ?_, rfl⟩
  · exact (link_setLink _ _ _ _).trans (if_pos rfl)
  · exact (look_put _ _ _ _ _).trans (if_pos rfl)
  · exact (look_put _ _ _ _ _).trans (if_pos rfl)

/-- On a link that is not looped the command's frame is taken. -/
theorem receiveTime_unlooped {l type : Nat} {f : TimeFrame} {s : State} (h : linkLooped s l = false) (take : TimeFrame → State → State) :
    receiveTime l type f take s = take f s := by rw [receiveTime, h, if_neg Bool.false_ne_true]

theorem syncReceive_takes {l : Nat} {f : TimeFrame} {s : State} (hok : timeFrameOk s 0 f = true) (hs : timeSlave s l = true)
    (hx : s.time.exchange = none) :
    syncReceive l f s = { s with time := { s.time with exchange := some { seq := f.sequence, t2 := arrivalStamp s f } } } := by
  have ha : abandonExchange s = s := by rw [abandonExchange, hx]; rfl
  rw [syncReceive, if_neg (not_not.2 hok), if_pos hs, ha]

theorem timeLost_counts (s : State) :
    bits (timeLost s) R.timeExch 8 8 = min (bits s R.timeExch 8 8 + 1) 255 ∧ keepsRegs [R.timeExch] s (timeLost s) ∧
    (timeLost s).time = s.time :=
  ⟨bits_bumpBits _ _ _ _ _ (by omega), (keepsRegs_refl _ s).bumpBits (List.mem_singleton_self _) _ _ _, rfl⟩

/-- A time-exchange frame of a wrong type or domain is lost. -/
theorem exec_badTimeFrame {l : Fin 20} {f : TimeFrame} {s : State} {c : Instr} (hl : linkLooped s l = false)
    (hc : (c = .syncReceive l f ∧ timeFrameOk s 0 f = false) ∨ (c = .followUpReceive l f ∧ timeFrameOk s 8 f = false) ∨
      (c = .delayReqReceive l f ∧ timeFrameOk s 1 f = false) ∨ (c = .delayRespReceive l f ∧ timeFrameOk s 9 f = false)) :
    exec c s = .next (timeLost s) := by
  have hlost : ∀ (b : Bool) (u : State), b = false → (if ¬ (b = true) then timeLost s else u) = timeLost s :=
    fun b u hb => if_pos (by rw [hb]; decide)
  rcases hc with ⟨rfl, hk⟩ | ⟨rfl, hk⟩ | ⟨rfl, hk⟩ | ⟨rfl, hk⟩
  · exact congrArg Host.Outcome.next ((receiveTime_unlooped hl _).trans (hlost _ _ hk))
  · exact congrArg Host.Outcome.next ((receiveTime_unlooped hl _).trans (hlost _ _ hk))
  · exact congrArg Host.Outcome.next ((receiveTime_unlooped hl _).trans (hlost _ _ hk))
  · exact congrArg Host.Outcome.next ((receiveTime_unlooped hl _).trans (hlost _ _ hk))

theorem followUpReceive_takes {l : Fin 20} {f : TimeFrame} {s : State} {x : InExchange} (hl : linkLooped s l = false)
    (hok : timeFrameOk s 8 f = true) (hs : timeSlave s l = true) (hx : s.time.exchange = some x) (hq : x.seq = f.sequence)
    (h1 : x.t1 = none) :
    Completes (.followUpReceive l f) s fun t =>
      t.time = { s.time with exchange := some { x with t1 := some f.stamp } } ∧
      link t l = { link s l with exchanges := (link s l).exchanges ++ [.delayReq f.sequence] } ∧ t.regs = s.regs := by
  have hrun : followUpReceive l f s =
      queueTime l (.delayReq f.sequence) { s with time := { s.time with exchange := some { x with t1 := some f.stamp } } } := by
    rw [followUpReceive, if_neg (not_not.2 hok), if_pos hs, hx]
    exact if_pos ⟨hq, by rw [h1]; rfl⟩
  exact ⟨_, congrArg Host.Outcome.next ((receiveTime_unlooped hl _).trans hrun), rfl, (link_setLink _ _ _ _).trans (if_pos rfl), rfl⟩

theorem delayReqReceive_answers {l : Fin 20} {f : TimeFrame} {s : State} (hl : linkLooped s l = false) (hok : timeFrameOk s 1 f = true)
    (hm : timeMaster s l = true) :
    Completes (.delayReqReceive l f) s fun t =>
      link t l = { link s l with exchanges := (link s l).exchanges ++
        [.delayResp f.sequence (arrivalStamp s f)] } ∧ t.time = s.time ∧ t.regs = s.regs := by
  have hrun : delayReqReceive l f s = queueTime l (.delayResp f.sequence (arrivalStamp s f)) s := by
    rw [delayReqReceive, if_neg (not_not.2 hok), if_pos hm]
  exact ⟨_, congrArg Host.Outcome.next ((receiveTime_unlooped hl _).trans hrun), (link_setLink _ _ _ _).trans (if_pos rfl), rfl, rfl⟩

/-- The registers as an offset `a` and a path `b` are shown. -/
def offsetShown (a b : Word) (s : State) : State :=
  bumpBits (setBit (setReg (setReg s R.timeOffset a) R.timePath b) R.timeStatus 30 false) R.timeExch 16 16 1

/-- An offset is taken while the servo is off: what it shows. -/
theorem takeOffset_shows {o p : Int} {s : State} (h : bit s R.timeServoCfg 31 = false) :
    (takeOffset o p s).time = { s.time with lastOffset := o, lastPath := p, exchange := none, offsetTick := s.time.ticks } ∧
    bits (takeOffset o p s) R.timeExch 16 16 = min (bits s R.timeExch 16 16 + 1) 65535 ∧ bit (takeOffset o p s) R.timeStatus 30 = false ∧
    keepsRegs [R.timeOffset, R.timePath, R.timeStatus, R.timeExch] s (takeOffset o p s) := by
  obtain ⟨a, b, hrun⟩ : ∃ a b, takeOffset o p s =
      (if bit (offsetShown a b { s with time := { s.time with
          lastOffset := o, lastPath := p, exchange := none, offsetTick := s.time.ticks } }) R.timeServoCfg 31
        then servoUpdate o (offsetShown a b { s with time := { s.time with
          lastOffset := o, lastPath := p, exchange := none, offsetTick := s.time.ticks } })
        else offsetShown a b { s with time := { s.time with
          lastOffset := o, lastPath := p, exchange := none, offsetTick := s.time.ticks } }) := ⟨_, _, rfl⟩
  generalize hw : ({ s with time := { s.time with lastOffset := o, lastPath := p, exchange := none, offsetTick := s.time.ticks } } : State) = w at hrun
  have hreg : ∀ y, reg w y = reg s y := fun y => by rw [← hw]; rfl
  have hk : keepsRegs [R.timeOffset, R.timePath, R.timeStatus, R.timeExch] w
      (bumpBits (setBit (setReg (setReg w R.timeOffset a) R.timePath b) R.timeStatus 30 false) R.timeExch 16 16 1) :=
    ((((keepsRegs_refl _ w).setReg (by simp) a).setReg (by simp) b).setBit (by simp) 30 false).bumpBits (by simp) 16 16 1
  have hcfg : bit (bumpBits (setBit (setReg (setReg w R.timeOffset a) R.timePath b) R.timeStatus 30 false) R.timeExch 16 16 1)
      R.timeServoCfg 31 = false := (hk.bit (by decide) 31).trans (by rw [bit, hreg]; exact h)
  rw [offsetShown, hcfg, if_neg Bool.false_ne_true] at hrun
  rw [hrun]
  refine ⟨?_, ?_, ?_, fun y hy => (hk y hy).trans (hreg y)⟩
  · rw [← hw]
    rfl
  · rw [bits_bumpBits _ _ _ _ _ (by omega), bits_setBit_ne _ _ _ _ _ _ _ (.inl (by decide)), bits, reg_setReg, if_neg (by decide),
      reg_setReg, if_neg (by decide), hreg]
    rfl
  · rw [bumpBits, bit_setBits_ne _ _ _ _ _ _ _ (.inl (by decide)), bit_setBit _ _ _ _ (by omega)]

theorem delayRespReceive_takes {l : Fin 20} {f : TimeFrame} {s : State} {x : InExchange} {t1 t3 : Nat} (hl : linkLooped s l = false)
    (hok : timeFrameOk s 9 f = true) (hs : timeSlave s l = true) (hx : s.time.exchange = some x) (h1 : x.t1 = some t1)
    (h3 : x.t3 = some t3) (hq : x.seq = f.sequence) (hcfg : bit s R.timeServoCfg 31 = false) :
    Completes (.delayRespReceive l f) s fun t =>
      t.time = { s.time with
        lastOffset := ((x.t2 : Int) - t1) - ((f.stamp : Int) - t3)
        lastPath := ((x.t2 : Int) - t1) + ((f.stamp : Int) - t3)
        exchange := none
        offsetTick := s.time.ticks } ∧
      bits t R.timeExch 16 16 = min (bits s R.timeExch 16 16 + 1) 65535 ∧ bit t R.timeStatus 30 = false ∧
      keepsRegs [R.timeOffset, R.timePath, R.timeStatus, R.timeExch] s t := by
  have hrun : delayRespReceive l f s =
      takeOffset (((x.t2 : Int) - t1) - ((f.stamp : Int) - t3)) (((x.t2 : Int) - t1) + ((f.stamp : Int) - t3)) s := by
    rw [delayRespReceive, if_neg (not_not.2 hok), if_pos hs, hx]
    dsimp only
    rw [h1, h3]
    exact if_pos hq
  exact ⟨_, congrArg Host.Outcome.next ((receiveTime_unlooped hl _).trans hrun), takeOffset_shows hcfg⟩

theorem timeSyncLost_raises {s : State} (hr : timeRole s = 2) (hm : offsetMissing s = true) (hb : bit s R.timeStatus 30 = false) :
    Completes .timeSyncLost s fun t =>
      bit t R.timeStatus 30 = true ∧ bit t R.timeStatus 27 = true ∧
      t.flt.signals = s.flt.signals ++ [⟨238, timeParent s, false⟩] ∧ keepsRegs [R.timeStatus] s t ∧ t.time = s.time := by
  have hrun : timeSyncLost s = signal 238 (timeParent s) (setBit (setBit s R.timeStatus 30 true) R.timeStatus 27 true) :=
    if_pos ⟨hr, hm, by rw [hb]; decide⟩
  have hgone : ∀ u i, sourceGone u 238 i = false := fun u i => by simp [sourceGone]
  refine ⟨_, congrArg Host.Outcome.next hrun, ?_, ?_, ?_, ?_, ?_⟩
  · rw [bit_signal, bit_setBit_ne _ _ _ _ _ _ (.inr (by decide)), bit_setBit _ _ _ _ (by omega)]
  · rw [bit_signal, bit_setBit _ _ _ _ (by omega)]
  · have hp : timeParent s < 2 ^ 5 := bitsOf_lt _ _ _
    exact signals_signal (hgone _ _) (by decide) (by omega)
  · exact (((keepsRegs_refl _ s).setBit (List.mem_singleton_self _) _ _).setBit (List.mem_singleton_self _) _ _).signal _ _
  · rw [signal_time]
    rfl

/-! ## Looped links -/

theorem receiveTime_looped_empty {l type : Nat} {f : TimeFrame} {s : State} (hl : linkLooped s l = true) (h : (link s l).rxTimes = [])
    (take : TimeFrame → State → State) : receiveTime l type f take s = s := by
  rw [receiveTime, if_pos hl, h]

theorem syncReceive_looped {l : Fin 20} {f : TimeFrame} {s : State} {a : Nat} {g : Frame} {rest : List (Nat × Frame)}
    (hl : linkLooped s l = true) (hr : (link s l).rxTimes = (a, g) :: rest) (hg : g.type = 4) (h0 : bitsOf g.payload 0 8 = 0)
    (hs : timeSlave s l = true) (hd : bitsOf g.payload 8 8 = bits s R.timeSyncCfg 24 8) (hx : s.time.exchange = none) :
    Completes (.syncReceive l f) s fun t =>
      (let u := setLink s l { link s l with rxTimes := rest }
       t.time.exchange =
         some { seq := bitsOf g.payload 16 16, t2 := arrivalStamp u (ownTimeFrame a f.symbols g.payload) }) ∧
      (link t l).rxTimes = rest ∧ t.regs = s.regs := by
  have hlink : (link (setLink s l { link s l with rxTimes := rest }) l).rxTimes = rest :=
    congrArg Link.rxTimes ((link_setLink _ _ _ _).trans (if_pos rfl))
  have hsu : timeSlave (setLink s l { link s l with rxTimes := rest }) l = true := hs
  have hxu : (setLink s l { link s l with rxTimes := rest }).time.exchange = none := hx
  have hok : timeFrameOk (setLink s l { link s l with rxTimes := rest }) 0 (ownTimeFrame a f.symbols g.payload) = true := by
    have hdu : bitsOf g.payload 8 8 = bits (setLink s l { link s l with rxTimes := rest }) R.timeSyncCfg 24 8 := hd
    simp [timeFrameOk, ownTimeFrame, h0, hdu]
  have hregs : (setLink s l { link s l with rxTimes := rest }).regs = s.regs := rfl
  have hrun : receiveTime l 0 f (syncReceive l) s =
      syncReceive l (ownTimeFrame a f.symbols g.payload) (setLink s l { link s l with rxTimes := rest }) := by
    rw [receiveTime, if_pos hl, hr]
    exact if_pos ⟨hg, h0⟩
  generalize setLink s l { link s l with rxTimes := rest } = u at *
  exact ⟨_, congrArg Host.Outcome.next (hrun.trans (syncReceive_takes hok hsu hxu)), rfl, hlink, hregs⟩

/-- Settles O43. -/
theorem timeExchange : Obligations.TimeExchange := by
  unfold Obligations.TimeExchange
  refine ⟨fun l s hm hu hd => syncSend_sends hm hu hd,
    fun l f s hl hok hs hx => congrArg Host.Outcome.next ((receiveTime_unlooped hl _).trans (syncReceive_takes hok hs hx)),
    fun l f s c hl hc => ⟨_, exec_badTimeFrame hl hc, timeLost_counts s⟩,
    fun l f s x hl hok hs hx hq h1 => followUpReceive_takes hl hok hs hx hq h1,
    fun l f s hl hok hm => delayReqReceive_answers hl hok hm,
    fun l f s x t1 t3 hl hok hs hx h1 h3 hq hcfg => delayRespReceive_takes hl hok hs hx h1 h3 hq hcfg,
    fun s hr hm hb => timeSyncLost_raises hr hm hb, fun l f s c hl hr hc => ?_,
    fun l f s a g rest hl hr hg h0 hs hd hx => syncReceive_looped hl hr hg h0 hs hd hx⟩
  simp only [List.mem_cons, List.not_mem_nil, or_false] at hc
  rcases hc with rfl | rfl | rfl | rfl
  · exact congrArg Host.Outcome.next (receiveTime_looped_empty hl hr _)
  · exact congrArg Host.Outcome.next (receiveTime_looped_empty hl hr _)
  · exact congrArg Host.Outcome.next (receiveTime_looped_empty hl hr _)
  · exact congrArg Host.Outcome.next (receiveTime_looped_empty hl hr _)

end Sys2Proof.Machine
end

/-! # The tides of the shore -/

section
namespace Sys2Proof.Machine
set_option Elab.async false

/-! ## Tides begin, strobes rise -/

theorem tideStart_begins {s : State} {x : Tide} {rest : List Tide} (ht : s.shore.tide = none)
    (hw : s.shore.waiting = x :: rest) (hf : s.sched.run ≠ .frozen) :
    exec .tideStart s = .next { s with shore := { s.shore with
      tide := some (x, 0), waiting := rest, forming := [], strobes := 0 } } := by
  refine congrArg Host.Outcome.next (?_ : tideStart s = _)
  simp only [tideStart, ht, hw]
  exact if_neg hf

/-! ## The samples of a phase -/

/-- A fold that changes each listed entry once, by its own old value. -/
theorem look_foldl_change {α : Type} [DecidableEq α] (d : Nat → α) (f : Nat → α → α) (l : List Nat) (hl : l.Nodup)
    (m : Sparse α) (j : Nat) :
    look d (l.foldl (fun m k => put d m k (f k (look d m k))) m) j = if j ∈ l then f j (look d m j) else look d m j := by
  induction l generalizing m with
  | nil => simp
  | cons a l ih =>
    obtain ⟨ha, hl⟩ := List.nodup_cons.1 hl
    rw [List.foldl_cons, ih hl, look_put]
    by_cases hj : j = a
    · simp [hj, ha]
    · simp [hj]

theorem dword_samplePhase (m : Sparse DWord) (levels : BitVec 512) (p : Nat) {n : Nat} (hn : n < 128) :
    dword (samplePhase m levels p) n = withBits (dword m n) (4 * p) 4 (bitsOf levels (4 * n) 4) :=
  (look_foldl_change (fun _ => 0) (fun n w => withBits w (4 * p) 4 (bitsOf levels (4 * n) 4)) (List.range 128)
    List.nodup_range m n).trans (if_pos (List.mem_range.2 hn))

/-- A word in which the bits of a list are set where a condition holds. -/
theorem getLsbD_foldl_withBit {n : Nat} (f : Nat → Bool) (l : List Nat) (w : BitVec n) {j : Nat} (hj : j < n) :
    (l.foldl (fun w b => if f b then withBit w b true else w) w).getLsbD j = (w.getLsbD j || (decide (j ∈ l) && f j)) := by
  induction l generalizing w with
  | nil => simp
  | cons a l ih =>
    rw [List.foldl_cons, ih]
    by_cases ha : j = a
    · subst ha
      cases hf : f j <;> simp [withBit, getLsbD_withBits, hj]
    · have hstep : (if f a = true then withBit w a true else w).getLsbD j = w.getLsbD j := by
        split
        · exact getLsbD_withBits_ne _ _ _ _ _ (by omega)
        · rfl
      rw [hstep]
      simp [ha]

theorem getLsbD_sampleBalls (s : State) (x : ShoreIn) (free : BitVec 512) {b : Nat} (hb : b < 512) :
    (sampleBalls s x free).getLsbD b = sampleBall s x free b := by
  have h := getLsbD_foldl_withBit (fun b => sampleBall s x free b) (List.range 512) (0 : BitVec 512) hb
  rw [sampleBalls, h]
  simp [hb]

/-- The words being formed after phase `p` of a tide was sampled. -/
def sampled (x : ShoreIn) (s : State) (p : Nat) : Sparse DWord :=
  samplePhase s.shore.forming (sampleBalls s x (takeFree 512 s).1) p

theorem sampled_ball (x : ShoreIn) (s : State) {p b : Nat} (hp : p < 16) (hb : b < 512) :
    (dword (sampled x s p) (b / 4)).getLsbD (4 * p + b % 4) = sampleBall s x (takeFree 512 s).1 b := by
  have hlt : b % 4 < 4 := Nat.mod_lt _ (by decide)
  rw [sampled, dword_samplePhase _ _ _ (by omega), getLsbD_withBits, if_pos (by omega), Nat.add_sub_cancel_left,
    testBit_bitsOf, decide_eq_true hlt, Bool.true_and, show 4 * (b / 4) + b % 4 = b by omega, getLsbD_sampleBalls s x _ hb]

theorem sampled_other (x : ShoreIn) (s : State) {p n q : Nat} (hn : n < 128) (hq : q ≠ p) :
    bitsOf (dword (sampled x s p) n) (4 * q) 4 = bitsOf (dword s.shore.forming n) (4 * q) 4 := by
  rw [sampled, dword_samplePhase _ _ _ hn, bitsOf_withBits_ne _ _ _ _ _ _ (by omega)]

/-- A ball that one party holds is sampled at the level of that party. -/
theorem sampleBall_held (s : State) (x : ShoreIn) (free : BitVec 512) (b : Nat) :
    (ballNow s b = .z → x.driven.getLsbD b = true → sampleBall s x free b = x.levels.getLsbD b) ∧
    (ballNow s b = .high → (x.driven.getLsbD b = false ∨ x.levels.getLsbD b = true) → sampleBall s x free b = true) ∧
    (ballNow s b = .low → (x.driven.getLsbD b = false ∨ x.levels.getLsbD b = false) → sampleBall s x free b = false) := by
  refine ⟨fun hz hd => ?_, fun hz hd => ?_, fun hz hd => ?_⟩
  · simp [sampleBall, hz, hd]
  · rcases hd with hd | hd <;> simp [sampleBall, hz, hd]
  · rcases hd with hd | hd <;> simp [sampleBall, hz, hd]

theorem phaseCount_le (s : State) : phaseCount s ≤ 8 :=
  Nat.pow_le_pow_right (by decide) (Nat.le_of_lt_succ (bitsOf_lt s.die.straps 6 2))

/-! ## A phase ends -/

/-- The state whose shore is `z`, after a phase was sampled. -/
def shoreBecomes (z : Shore) (s : State) : State := setShore z (takeFree 512 s).2

theorem shoreBecomes_frame (z : Shore) (s : State) :
    shoreBecomes z s = { s with shore := (shoreBecomes z s).shore, free := (shoreBecomes z s).free } := rfl

/-- The shore after the samples of phase `p` of tide `y`. -/
def phaseOver (x : ShoreIn) (s : State) (y : Tide) (p : Nat) : Shore :=
  { s.shore with forming := sampled x s p, carried := rememberPhase s y p, strobes := 0 }

theorem tidePhaseEnd_goesOn {x : ShoreIn} {s : State} {y : Tide} {p : Nat} (ht : s.shore.tide = some (y, p))
    (hp : p + 1 < phaseCount s) :
    tidePhaseEnd x s = shoreBecomes { phaseOver x s y p with tide := some (y, p + 1) } s := by
  rw [tidePhaseEnd, ht]
  exact if_pos hp

/-- The shore after the last phase `p` of tide `y`. -/
def tideOver (x : ShoreIn) (s : State) (y : Tide) (p : Nat) : Shore :=
  { phaseOver x s y p with
    tide := none, kept := keptCodes s y p, forming := []
    words := (List.range 128).map fun n => (n, dword (sampled x s p) n), wordsEc := y.ec }

theorem tidePhaseEnd_ends {x : ShoreIn} {s : State} {y : Tide} {p : Nat} (ht : s.shore.tide = some (y, p))
    (hp : p + 1 = phaseCount s) :
    tidePhaseEnd x s = shoreBecomes (tideOver x s y p) s := by
  rw [tidePhaseEnd, ht]
  exact if_neg (by omega)

theorem find_map {α : Type} (f : Nat → α) (l : List Nat) (k : Nat) :
    find (l.map fun j => (j, f j)) k = if k ∈ l then some (f k) else none := by
  induction l with
  | nil => simp [find]
  | cons a l ih =>
    rw [List.map_cons, find, ih]
    by_cases h : k = a
    · simp [h]
    · simp [h]

theorem find_words (x : ShoreIn) (s : State) (y : Tide) (p : Nat) {n : Nat} (hn : n < 128) :
    find (tideOver x s y p).words n = some (dword (sampled x s p) n) :=
  (find_map _ _ _).trans (if_pos (List.mem_range.2 hn))

theorem look_keptCodes (s : State) (y : Tide) (p : Nat) {b : Nat} (hb : b < 512) :
    look (fun _ => 0) (keptCodes s y p) b = phaseCode s y b p := by
  rw [keptCodes, look_foldl_put (fun _ => 0) (fun b => phaseCode s y b p), if_pos (List.mem_range.2 hb)]

/-- A fold that changes entries of some listed keys leaves every other entry. -/
theorem look_foldl_other {α : Type} [DecidableEq α] (d : Nat → α) (c : Nat → Bool) (key : Nat → Nat) (v : Nat → α)
    (l : List Nat) (m : Sparse α) (j : Nat) (h : ∀ k ∈ l, c k = true → key k ≠ j) :
    look d (l.foldl (fun m k => if c k then put d m (key k) (v k) else m) m) j = look d m j := by
  induction l generalizing m with
  | nil => rfl
  | cons a l ih =>
    rw [List.foldl_cons, ih _ fun k hk => h k (List.mem_cons_of_mem _ hk)]
    split
    · rename_i hc
      rw [look_put, if_neg (h a (List.mem_cons_self ..) hc).symm]
    · rfl

/-- A ball of a reach that does not run remembers nothing of the phase. -/
theorem look_rememberPhase_stopped {s : State} (y : Tide) (p : Nat) {b : Nat} (h : reachRuns s (b / 32) = false) :
    look (fun _ => 0) (rememberPhase s y p) (8 * b + p) = look (fun _ => 0) s.shore.carried (8 * b + p) := by
  rw [rememberPhase]
  refine look_foldl_other _ (fun b => designDrives s y b) _ _ _ _ _ fun k _ hk hkey => ?_
  rw [show k = b by omega, designDrives, h] at hk
  simp at hk

/-- The code of a ball of a reach that does not run: that of its breakwater cell, if one acts. -/
def cellPhase (s : State) (b p : Nat) : Nat := ((find s.rl.cells (b / 32)).map fun x => cellCode s x b p).getD 0

theorem phaseCode_stopped {s : State} {y : Tide} {b p : Nat} (h : reachRuns s (b / 32) = false) :
    phaseCode s y b p = cellPhase s b p := by
  rw [phaseCode, if_neg (by simp [h]), cellPhase]
  cases find s.rl.cells (b / 32) <;> rfl

theorem betweenCode_stopped {s : State} {b : Nat} (h : reachRuns s (b / 32) = false) :
    betweenCode s b = cellPhase s b (phaseCount s - 1) := by
  rw [betweenCode, if_neg (by simp [h]), cellPhase]
  cases find s.rl.cells (b / 32) <;> rfl

theorem cellPhase_shoreBecomes {s : State} {z : Shore} {p b : Nat}
    (hz : look (fun _ => 0) z.carried (8 * b + p) = look (fun _ => 0) s.shore.carried (8 * b + p)) :
    cellPhase (shoreBecomes z s) b p = cellPhase s b p := by
  have hcode (c : Breakwater) : cellCode (shoreBecomes z s) c b p = cellCode s c b p := by
    have hheld : heldCode (shoreBecomes z s) b p = heldCode s b p := hz
    rw [cellCode, cellCode, hheld]
    rfl
  rw [cellPhase, cellPhase]
  simp only [hcode]
  rfl

/-- Between tides a ball keeps what it drove in the last phase of the tide (R409). -/
theorem betweenCode_shoreBecomes {s : State} {y : Tide} {z : Shore} {p b : Nat} (hp : p + 1 = phaseCount s)
    (hkept : look (fun _ => 0) z.kept b = phaseCode s y b p)
    (hcarried : reachRuns s (b / 32) = false →
      look (fun _ => 0) z.carried (8 * b + p) = look (fun _ => 0) s.shore.carried (8 * b + p)) :
    betweenCode (shoreBecomes z s) b = phaseCode s y b p := by
  have hruns : reachRuns (shoreBecomes z s) (b / 32) = reachRuns s (b / 32) := rfl
  cases hr : reachRuns s (b / 32) with
  | true => exact (if_pos (hruns.trans hr)).trans hkept
  | false =>
    have hcount : phaseCount (shoreBecomes z s) - 1 = p := by
      show phaseCount s - 1 = p
      omega
    rw [betweenCode_stopped (hruns.trans hr), hcount, cellPhase_shoreBecomes (hcarried hr), phaseCode_stopped hr]

theorem ballNow_tide {s : State} {y : Tide} {p : Nat} (b : Nat) (ht : s.shore.tide = some (y, p)) :
    ballNow s b = if shoreSafe s then safeValue s b
      else if b < 72 ∧ loadBus s then loadBall s b else codeDrive s b (phaseCode s y b p) := by
  rw [ballNow, ht]

theorem ballNow_between {s : State} (b : Nat) (ht : s.shore.tide = none) :
    ballNow s b = if shoreSafe s then safeValue s b
      else if b < 72 ∧ loadBus s then loadBall s b else codeDrive s b (betweenCode s b) := by
  rw [ballNow, ht]

theorem ballNow_shoreBecomes {s : State} {y : Tide} {z : Shore} {p b : Nat} (ht : s.shore.tide = some (y, p))
    (hz : z.tide = none) (hcode : betweenCode (shoreBecomes z s) b = phaseCode s y b p) :
    ballNow (shoreBecomes z s) b = ballNow s b := by
  rw [ballNow_between (s := shoreBecomes z s) b hz, ballNow_tide b ht, hcode]
  rfl

theorem ballNow_tideOver (x : ShoreIn) {s : State} {y : Tide} {p b : Nat} (ht : s.shore.tide = some (y, p))
    (hp : p + 1 = phaseCount s) (hb : b < 512) : ballNow (shoreBecomes (tideOver x s y p) s) b = ballNow s b := by
  have hkept : (tideOver x s y p).kept = keptCodes s y p := by rw [tideOver]
  have hcarried : (tideOver x s y p).carried = rememberPhase s y p := by rw [tideOver, phaseOver]
  refine ballNow_shoreBecomes ht rfl (betweenCode_shoreBecomes hp ?_ fun hr => ?_)
  · rw [hkept, look_keptCodes s y p hb]
  · rw [hcarried, look_rememberPhase_stopped y p hr]

/-! ## Shore words arrive -/

theorem deliverWord_lastWord (s : State) (n e : Nat) (w : DWord) (c : Cluster)
    (h : bit s (R.cluArrEntry n e) 31 = true) : dword (deliverWord s n e w c).lastWord e = w := by
  obtain ⟨hlast, -, -, -⟩ := compareWord_valid h w (noteLate s e (reg s (R.cluArrEntry n e)) c)
  rw [deliverWord]
  dsimp only
  split
  · split <;> exact hlast
  · exact hlast

theorem shoreWordArrival_takes {n : Fin 128} {s : State} {w : DWord} (hw : find s.shore.words n = some w)
    (ht : takesShore s n = true) :
    Completes (.shoreWordArrival n) s fun t =>
      clu t n = deliverWord s n 255 w (clu s n) ∧ dword (clu t n).lastWord 255 = w ∧ find t.shore.words n = none ∧
      (∀ k, k ≠ n.val → clu t k = clu s k) ∧ t.regs = s.regs := by
  have hrun : shoreWordArrival n s
      = setClu (setShore { s.shore with words := drop s.shore.words n } s) n (deliverWord s n 255 w (clu s n)) := by
    rw [shoreWordArrival, hw]
    exact if_pos ht
  have hvalid : bit s (R.cluArrEntry n 255) 31 = true := by
    simp only [takesShore, Bool.and_eq_true] at ht
    obtain ⟨⟨⟨⟨h, -⟩, -⟩, -⟩, -⟩ := ht
    exact h
  refine ⟨_, congrArg Host.Outcome.next hrun, ?_, ?_, ?_, fun k hk => ?_, rfl⟩
  · exact (clu_setClu _ _ _ _).trans (if_pos rfl)
  · rw [clu_setClu, if_pos rfl]
    exact deliverWord_lastWord s n 255 w _ hvalid
  · exact (find_drop _ _ _).trans (if_pos rfl)
  · exact (clu_setClu _ _ _ _).trans (if_neg hk)

theorem shoreWordArrival_drops {n : Fin 128} {s : State} {w : DWord} (hw : find s.shore.words n = some w)
    (ht : takesShore s n = false) :
    Completes (.shoreWordArrival n) s fun t => find t.shore.words n = none ∧ t.clusters = s.clusters ∧ t.regs = s.regs := by
  have hrun : shoreWordArrival n s = setShore { s.shore with words := drop s.shore.words n } s := by
    rw [shoreWordArrival, hw]
    exact if_neg (by simp [ht])
  exact ⟨_, congrArg Host.Outcome.next hrun, (find_drop _ _ _).trans (if_pos rfl), rfl, rfl⟩

/-- Settles O59. -/
theorem shoreTides : Obligations.ShoreTides := by
  unfold Obligations.ShoreTides
  refine ⟨fun s x rest ht hw hf => tideStart_begins ht hw hf, fun s h => ?_, fun x s y p ht hp => ?_,
    fun x s y p ht hp => ?_, fun n s w hw ht => shoreWordArrival_takes hw ht, fun n s w hw ht => shoreWordArrival_drops hw ht⟩
  · exact congrArg Host.Outcome.next (if_pos h)
  · have hle := phaseCount_le s
    refine ⟨_, congrArg Host.Outcome.next (tidePhaseEnd_goesOn ht hp), rfl, rfl, ?_, fun b hb => ?_,
      fun n q hn _ hqp => ?_, shoreBecomes_frame _ _⟩
    · dsimp only [shoreBecomes, setShore, phaseOver]
    · dsimp only [shoreBecomes, setShore, phaseOver]
      rw [sampled_ball x s (by omega) hb]
      exact sampleBall_held s x _ b
    · dsimp only [shoreBecomes, setShore, phaseOver]
      exact sampled_other x s hn hqp
  · have hle := phaseCount_le s
    refine ⟨_, congrArg Host.Outcome.next (tidePhaseEnd_ends ht hp), rfl, rfl, fun n hn => ?_, fun b hb => ?_,
      fun b hb => ballNow_tideOver x ht hp hb, shoreBecomes_frame _ _⟩
    · exact (congrArg Option.isSome (find_words x s y p hn)).trans rfl
    · have hword : find (shoreBecomes (tideOver x s y p) s).shore.words (b / 4) = _ :=
        find_words x s y p (by omega)
      rw [hword, Option.getD_some, sampled_ball x s (by omega) hb]
      exact sampleBall_held s x _ b

end Sys2Proof.Machine
end

/-! # Interrupt causes, MSI-X and the PCI Express function -/

section
namespace Sys2Proof.Machine
set_option Elab.async false

/-! ## Interrupt causes -/

/-- The cause register of one half. -/
def causeReg (high : Bool) : Nat := if high then R.glbIrqCauseHi else R.glbIrqCauseLo

theorem regAt_causeReg (high : Bool) :
    (regAt (causeReg high)).map (fun x => (x.1.rw, x.1.w1c, x.1.w1s)) = some (0, 2 ^ 32 - 1, 0) := by
  cases high <;> decide +kernel

/-- A one written to a cause clears it (Table 16.6). -/
theorem writeFields_causeReg (high : Bool) (v : Word) (s : State) :
    writeFields (causeReg high) v s = setReg s (causeReg high) (reg s (causeReg high) &&& ~~~ v) := by
  obtain ⟨⟨g, ix⟩, hr, hm⟩ := Option.map_eq_some_iff.1 (regAt_causeReg high)
  simp only [Prod.mk.injEq] at hm
  obtain ⟨hrw, hw1c, hw1s⟩ := hm
  have hword : writtenWord g (reg s (causeReg high)) v = reg s (causeReg high) &&& ~~~ v := by
    have hones : BitVec.ofNat 32 (2 ^ 32 - 1) = BitVec.allOnes 32 := by decide
    rw [writtenWord, hrw, hw1c, hw1s]
    dsimp only
    rw [hones, BitVec.and_allOnes]
    simp only [BitVec.not_zero, BitVec.and_zero, BitVec.or_zero, BitVec.and_allOnes]
  rw [writeFields, hr]
  exact congrArg (setReg s (causeReg high)) hword

theorem irqCauseClear_clears {h : Bool} {x : CauseClear} {s : State} (hp : partyActs s .host = true) :
    Completes (.irqCauseClear h x) s fun t =>
      let a := if h then R.glbIrqCauseHi else R.glbIrqCauseLo
      reg t a = reg s a &&& ~~~ (x.value &&& ~~~ x.meets) ∧ keepsRegs [a] s t ∧ t = { s with regs := t.regs } := by
  refine ⟨_, congrArg Host.Outcome.next ((performed_acts hp _).trans (writeFields_causeReg h _ s)), ?_, ?_, rfl⟩
  · exact (reg_setReg _ _ _ _).trans (if_pos rfl)
  · exact (keepsRegs_refl _ s).setReg (List.mem_singleton_self _) _

/-! ## Messages -/

theorem msixSend_sends {v : Fin 64} {s : State} (hv : v.val ∈ s.pcie.rising) (hc : canSend s v = true) :
    Completes (.msixSend v) s fun t =>
      t.pcie = { s.pcie with
        rising := s.pcie.rising.erase v.val
        messages := s.pcie.messages ++ [(ofHalves (msixWord s v 0) (msixWord s v 1), msixWord s v 2)] } ∧
      t = { s with pcie := t.pcie } := by
  have hrun : msixSend v s = sendMsix v { s with pcie := { s.pcie with rising := s.pcie.rising.erase v.val } } :=
    (if_pos (List.contains_iff_mem.2 hv)).trans (if_pos hc)
  exact ⟨_, congrArg Host.Outcome.next hrun, rfl, rfl⟩

theorem getLsbD_withBit_ne {n : Nat} (w : BitVec n) (i : Nat) (b : Bool) {k : Nat} (h : k ≠ i) :
    (withBit w i b).getLsbD k = w.getLsbD k := getLsbD_withBits_ne _ _ _ _ _ (by omega)

theorem getLsbD_withBit_self {n : Nat} (w : BitVec n) (i : Nat) (b : Bool) (h : i < n) :
    (withBit w i b).getLsbD i = b := by
  rw [withBit, getLsbD_withBits, if_pos (by omega), Nat.sub_self]
  cases b <;> rfl

theorem msixSend_pends {v : Fin 64} {s : State} (hv : v.val ∈ s.pcie.rising) (hc : canSend s v = false) :
    Completes (.msixSend v) s fun t =>
      t.pcie.pendingBits.getLsbD v = true ∧
      (∀ k, k ≠ v.val → t.pcie.pendingBits.getLsbD k = s.pcie.pendingBits.getLsbD k) ∧
      t.pcie.messages = s.pcie.messages ∧ t.pcie.rising = s.pcie.rising.erase v.val ∧ t = { s with pcie := t.pcie } := by
  have hrun : msixSend v s = setPendingBit v true { s with pcie := { s.pcie with rising := s.pcie.rising.erase v.val } } :=
    (if_pos (List.contains_iff_mem.2 hv)).trans (if_neg fun h => absurd (hc.symm.trans h) (by decide))
  exact ⟨_, congrArg Host.Outcome.next hrun, getLsbD_withBit_self _ _ _ v.isLt, fun k hk => getLsbD_withBit_ne _ _ _ hk,
    rfl, rfl, rfl⟩

theorem msixPendingSend_sends {v : Fin 64} {s : State} (hv : s.pcie.pendingBits.getLsbD v = true) (hc : canSend s v = true) :
    Completes (.msixPendingSend v) s fun t =>
      t.pcie.pendingBits.getLsbD v = false ∧
      t.pcie.messages = s.pcie.messages ++ [(ofHalves (msixWord s v 0) (msixWord s v 1), msixWord s v 2)] ∧
      t = { s with pcie := t.pcie } := by
  have hrun : msixPendingSend v s = sendMsix v (setPendingBit v false s) := if_pos ⟨hv, hc⟩
  exact ⟨_, congrArg Host.Outcome.next hrun, getLsbD_withBit_self _ _ _ v.isLt, rfl, rfl⟩

/-! ## The doorbell -/

theorem rising_raiseCause (v : Nat) (s : State) :
    (raiseCause v s).pcie.rising = if causeBit s v then s.pcie.rising else s.pcie.rising ++ [v] := by
  rw [raiseCause]
  split <;> rfl

theorem lhDoorbell_raises {v : Word} {s : State} (hh : lhHalted s = false) :
    Completes (.lhDoorbell v) s fun t =>
      reg t R.glbLhDoorbell = v ∧ causeBit t 63 = true ∧
      t.pcie.rising = (if causeBit s 63 then s.pcie.rising else s.pcie.rising ++ [63]) ∧
      keepsRegs [R.glbLhDoorbell, R.glbIrqCauseHi] s t := by
  have hrun : (if lhHalted s then s else lhDoorbell v s) = raiseCause 63 (setReg s R.glbLhDoorbell v) :=
    if_neg (by rw [hh]; decide)
  have hcause : causeBit (setReg s R.glbLhDoorbell v) 63 = causeBit s 63 :=
    bit_setReg_ne _ _ _ _ _ (by decide)
  have hkeep := raiseCause_keeps 63 (setReg s R.glbLhDoorbell v)
  refine ⟨_, congrArg Host.Outcome.next hrun, ?_, causeBit_raiseCause 63 _, ?_, ?_⟩
  · rw [hkeep _ (by decide), reg_setReg, if_pos rfl]
  · rw [rising_raiseCause, hcause]
    rfl
  · exact ((keepsRegs_refl _ s).setReg (by simp) _).trans (hkeep.mono (by decide))

/-! ## GLB_PCIE_STATUS -/

theorem busMasterEnable_sets (b m x f : Bool) (s : State) :
    Completes (.busMasterEnable b m x f) s fun t =>
      bit t R.glbPcieStatus 23 = b ∧ bit t R.glbPcieStatus 22 = m ∧ bit t R.glbPcieStatus 21 = x ∧
      bit t R.glbPcieStatus 20 = f ∧ bits t R.glbPcieStatus 0 20 = bits s R.glbPcieStatus 0 20 ∧
      bits t R.glbPcieStatus 24 8 = bits s R.glbPcieStatus 24 8 ∧ keepsRegs [R.glbPcieStatus] s t := by
  refine ⟨_, rfl, ?_, ?_, ?_, ?_, ?_, ?_, ?_⟩
  all_goals unfold busMasterEnable
  · rw [bit_setBit_ne _ _ _ _ _ _ (by omega), bit_setBit_ne _ _ _ _ _ _ (by omega), bit_setBit_ne _ _ _ _ _ _ (by omega),
      bit_setBit _ _ _ _ (by omega)]
  · rw [bit_setBit_ne _ _ _ _ _ _ (by omega), bit_setBit_ne _ _ _ _ _ _ (by omega), bit_setBit _ _ _ _ (by omega)]
  · rw [bit_setBit_ne _ _ _ _ _ _ (by omega), bit_setBit _ _ _ _ (by omega)]
  · rw [bit_setBit _ _ _ _ (by omega)]
  · rw [bits_setBit_ne _ _ _ _ _ _ _ (by omega), bits_setBit_ne _ _ _ _ _ _ _ (by omega),
      bits_setBit_ne _ _ _ _ _ _ _ (by omega), bits_setBit_ne _ _ _ _ _ _ _ (by omega)]
  · rw [bits_setBit_ne _ _ _ _ _ _ _ (by omega), bits_setBit_ne _ _ _ _ _ _ _ (by omega),
      bits_setBit_ne _ _ _ _ _ _ _ (by omega), bits_setBit_ne _ _ _ _ _ _ _ (by omega)]
  · exact ((((keepsRegs_refl _ s).setBit (by simp) _ _).setBit (by simp) _ _).setBit (by simp) _ _).setBit (by simp) _ _

theorem pcieLinkDown_counts {s : State} (h : bits s R.glbPcieStatus 28 4 ≠ 0) :
    Completes .pcieLinkDown s fun t =>
      bits t R.glbPcieStatus 28 4 = 0 ∧ bits t R.glbPcieStatus 24 4 = 0 ∧
      bits t R.glbPcieStatus 8 8 = min (bits s R.glbPcieStatus 8 8 + 1) 255 ∧
      t.flt.signals = s.flt.signals ++ [⟨206, 0, false⟩] ∧ keepsRegs [R.glbPcieStatus] s t := by
  have hrun : pcieLinkDown s
      = signal 206 0 (bumpBits (setBits (setBits s R.glbPcieStatus 28 4 0) R.glbPcieStatus 24 4 0) R.glbPcieStatus 8 8 1) :=
    if_neg h
  refine ⟨_, congrArg Host.Outcome.next hrun, ?_, ?_, ?_, signals_signal rfl (by decide) (by decide), ?_⟩
  · rw [bits_signal, bumpBits, bits_setBits_ne _ _ _ _ _ _ _ _ (by omega), bits_setBits_ne _ _ _ _ _ _ _ _ (by omega),
      bits_setBits _ _ _ _ _ (by omega), Nat.zero_mod]
  · rw [bits_signal, bumpBits, bits_setBits_ne _ _ _ _ _ _ _ _ (by omega), bits_setBits _ _ _ _ _ (by omega), Nat.zero_mod]
  · rw [bits_signal, bits_bumpBits _ _ _ _ _ (by decide), bits_setBits_ne _ _ _ _ _ _ _ _ (by omega),
      bits_setBits_ne _ _ _ _ _ _ _ _ (by omega)]
    rfl
  · exact ((((keepsRegs_refl _ s).setBits (by simp) _ _ _).setBits (by simp) _ _ _).bumpBits (by simp) _ _ _).signal _ _

theorem pcieLinkUp_shows {g w : Nat} {s : State} (h : bits s R.glbPcieStatus 28 4 = 0) (hg : g ∈ [1, 2, 3])
    (hw : w ∈ [1, 2, 4, 8]) :
    Completes (.pcieLinkUp g w) s fun t =>
      bits t R.glbPcieStatus 28 4 = g ∧ bits t R.glbPcieStatus 24 4 = w ∧ keepsRegs [R.glbPcieStatus] s t ∧
      t = { s with regs := t.regs } := by
  have hrun : pcieLinkUp g w s = setBits (setBits s R.glbPcieStatus 28 4 g) R.glbPcieStatus 24 4 w :=
    if_pos ⟨h, List.contains_iff_mem.2 hg, List.contains_iff_mem.2 hw⟩
  have hg16 : ∀ g ∈ [1, 2, 3], g % 2 ^ 4 = g := by decide
  have hw16 : ∀ w ∈ [1, 2, 4, 8], w % 2 ^ 4 = w := by decide
  refine ⟨_, congrArg Host.Outcome.next hrun, ?_, ?_, ?_, rfl⟩
  · rw [bits_setBits_ne _ _ _ _ _ _ _ _ (by omega), bits_setBits _ _ _ _ _ (by decide), hg16 g hg]
  · rw [bits_setBits _ _ _ _ _ (by decide), hw16 w hw]
  · exact ((keepsRegs_refl _ s).setBits (by simp) _ _ _).setBits (by simp) _ _ _

/-- Settles O58. -/
theorem hostInterface : Obligations.HostInterface := by
  unfold Obligations.HostInterface
  exact ⟨fun h x s hp => irqCauseClear_clears hp, fun v s hv hc => msixSend_sends hv hc, fun v s hv hc => msixSend_pends hv hc,
    fun v s hv hc => msixPendingSend_sends hv hc, fun v s hh => lhDoorbell_raises hh, fun d s => rfl,
    fun b m x f s => busMasterEnable_sets b m x f s, fun s h => pcieLinkDown_counts h,
    fun g w s h hg hw => pcieLinkUp_shows h hg hw, fun s => ⟨rfl, rfl, rfl, rfl⟩⟩

end Sys2Proof.Machine
end

/-! # Challenges, sessions and lockouts -/

section
namespace Sys2Proof.Machine
set_option Elab.async false

/-! ## Challenges -/

/-- The challenge registers take the words of `x` up to word `n`. -/
def challengeWords (x : BitVec 256) (n : Nat) (s : State) : State :=
  forUpTo n (fun i acc => setReg acc (R.dbgAuthChal i) (BitVec.ofNat 32 (bitsOf x (32 * i) 32))) s

theorem challengeWords_frame (x : BitVec 256) (n : Nat) (s : State) :
    challengeWords x n s = { s with regs := (challengeWords x n s).regs } := by
  induction n with
  | zero => rfl
  | succ n ih =>
    rw [challengeWords, forUpTo_succ, ← challengeWords, ih]
    rfl

theorem reg_challengeWords (x : BitVec 256) (n : Nat) (s : State) (a : Nat) :
    (∀ i, i < n → a = R.dbgAuthChal i → reg (challengeWords x n s) a = BitVec.ofNat 32 (bitsOf x (32 * i) 32)) ∧
    ((∀ i, i < n → a ≠ R.dbgAuthChal i) → reg (challengeWords x n s) a = reg s a) := by
  induction n with
  | zero => exact ⟨fun i hi => absurd hi (Nat.not_lt_zero i), fun _ => rfl⟩
  | succ n ih =>
    obtain ⟨hin, hout⟩ := ih
    rw [challengeWords, forUpTo_succ, ← challengeWords, reg_setReg]
    refine ⟨fun i hi ha => ?_, fun ha => ?_⟩
    · by_cases h : i = n
      · rw [if_pos (by rw [ha, h]), h]
      · rw [if_neg (by rw [ha]; simp only [R.dbgAuthChal]; omega), hin i (by omega) ha]
    · rw [if_neg (ha n (by omega)), hout fun i hi => ha i (by omega)]

theorem get_draws {s : State} (h : bits s R.dbgAuthStatus 0 11 = 0) :
    Completes .get s fun t =>
      bit t R.dbgAuthStatus 31 = true ∧ t.free = s.free + 1 ∧
      (∀ i, i < 8 → reg t (R.dbgAuthChal i) = BitVec.ofNat 32 (bitsOf (Config.freeBits 256 s.free) (32 * i) 32)) ∧
      (∀ b, b < 31 → bit t R.dbgAuthStatus b = bit s R.dbgAuthStatus b) ∧ t.dbg = s.dbg := by
  have hrun : getChallenge s = setBit (challengeWords (takeFree 256 s).1 8 (takeFree 256 s).2) R.dbgAuthStatus 31 true :=
    if_neg (not_not_intro h)
  have hstatus (i : Nat) : R.dbgAuthStatus ≠ R.dbgAuthChal i := by simp only [R.dbgAuthStatus, R.dbgAuthChal]; omega
  have hframe := challengeWords_frame (takeFree 256 s).1 8 (takeFree 256 s).2
  refine ⟨_, congrArg Host.Outcome.next hrun, bit_setBit _ _ _ _ (by omega), ?_, fun i hi => ?_, fun b hb => ?_, ?_⟩
  · rw [setBit_free, hframe]
    rfl
  · rw [reg_setBit_ne _ _ _ _ _ (hstatus i).symm]
    exact (reg_challengeWords _ 8 _ _).1 i hi rfl
  · rw [bit_setBit_ne _ _ _ _ _ _ (by omega), bit, (reg_challengeWords _ 8 _ _).2 fun i _ => hstatus i]
    rfl
  · rw [setBit_dbg, hframe]
    rfl

/-! ## Sessions -/

theorem addRecord_frame (kind : Nat) (p : List Byte) (s : State) :
    ∃ q, addRecord kind p s = { s with cairn := { s.cairn with queue := q } } := by
  rw [addRecord]
  by_cases h : s.cairn.queue.length < 16
  · exact ⟨_, congrArg Prod.snd (queueRecord_of_room h _)⟩
  · exact ⟨s.cairn.queue, congrArg Prod.snd (queueRecord_of_full (Nat.le_of_not_lt h) _)⟩

/-- The registers that GO writes. -/
def goRegs : List Nat := [R.dbgAuthCtrl, R.dbgAuthStatus, R.dbgStatus]

/-- The slot is noted and the challenge is spent. -/
def responseTaken (slot : Nat) (s : State) : State := setBit (setBits s R.dbgAuthCtrl 0 3 slot) R.dbgAuthStatus 31 false

theorem responseTaken_keeps (slot : Nat) (s : State) : keepsRegs goRegs s (responseTaken slot s) :=
  ((keepsRegs_refl _ s).setBits (by simp [goRegs]) _ _ _).setBit (by simp [goRegs]) _ _

/-- The status after a good response, before the session opens. -/
def goodResponse (slot : Nat) (s : State) : State :=
  setBits (setBits (responseTaken slot s) R.dbgAuthStatus 29 2 1) R.dbgAuthStatus 16 8 0

/-- The status after a bad response that makes `n` failures. -/
def badResponse (slot n : Nat) (s : State) : State :=
  setBits (setBits (setBits (responseTaken slot s) R.dbgAuthStatus 29 2 2) R.dbgAuthStatus 16 8 n) R.dbgAuthStatus 0 11 (lockout n)

theorem bits_responseTaken (slot lo n : Nat) (s : State) (h : lo + n ≤ 31) :
    bits (responseTaken slot s) R.dbgAuthStatus lo n = bits s R.dbgAuthStatus lo n := by
  rw [responseTaken, bits_setBit_ne _ _ _ _ _ _ _ (by omega), bits_setBits_ne _ _ _ _ _ _ _ _ (.inl (by decide))]

theorem bit_responseTaken (slot : Nat) (s : State) : bit (responseTaken slot s) R.dbgAuthStatus 31 = false :=
  bit_setBit _ _ _ _ (by omega)

theorem goodResponse_status (slot : Nat) (s : State) :
    bits (goodResponse slot s) R.dbgAuthStatus 29 2 = 1 ∧ bit (goodResponse slot s) R.dbgAuthStatus 31 = false ∧
      bits (goodResponse slot s) R.dbgAuthStatus 16 8 = 0 ∧
      bits (goodResponse slot s) R.dbgAuthStatus 0 11 = bits s R.dbgAuthStatus 0 11 := by
  unfold goodResponse
  refine ⟨?_, ?_, ?_, ?_⟩
  · rw [bits_setBits_ne _ _ _ _ _ _ _ _ (by omega), bits_setBits _ _ _ _ _ (by omega),
      Nat.mod_eq_of_lt (by decide)]
  · rw [bit_setBits_ne _ _ _ _ _ _ _ (by omega), bit_setBits_ne _ _ _ _ _ _ _ (by omega), bit_responseTaken]
  · rw [bits_setBits _ _ _ _ _ (by omega), Nat.zero_mod]
  · rw [bits_setBits_ne _ _ _ _ _ _ _ _ (by omega), bits_setBits_ne _ _ _ _ _ _ _ _ (by omega),
      bits_responseTaken _ _ _ _ (by omega)]

theorem lockout_lt (n : Nat) : lockout n < 2 ^ 11 := by
  rw [lockout]
  split <;> omega

theorem badResponse_status (slot n : Nat) (s : State) (hn : n < 256) :
    bits (badResponse slot n s) R.dbgAuthStatus 29 2 = 2 ∧ bit (badResponse slot n s) R.dbgAuthStatus 31 = false ∧
      bits (badResponse slot n s) R.dbgAuthStatus 16 8 = n ∧
      bits (badResponse slot n s) R.dbgAuthStatus 0 11 = lockout n := by
  unfold badResponse
  refine ⟨?_, ?_, ?_, ?_⟩
  · rw [bits_setBits_ne _ _ _ _ _ _ _ _ (by omega), bits_setBits_ne _ _ _ _ _ _ _ _ (by omega),
      bits_setBits _ _ _ _ _ (by omega), Nat.mod_eq_of_lt (by decide)]
  · rw [bit_setBits_ne _ _ _ _ _ _ _ (by omega), bit_setBits_ne _ _ _ _ _ _ _ (by omega),
      bit_setBits_ne _ _ _ _ _ _ _ (by omega), bit_responseTaken]
  · rw [bits_setBits_ne _ _ _ _ _ _ _ _ (by omega), bits_setBits _ _ _ _ _ (by omega), Nat.mod_eq_of_lt (a := n) (b := 2 ^ 8) hn]
  · rw [bits_setBits _ _ _ _ _ (by omega), Nat.mod_eq_of_lt (lockout_lt n)]

/-- A session opens: the level rises to the one granted, and the slot is noted unless a higher level stands. -/
theorem openSession_level {g k : Nat} (s : State) (hg : g < 4) (hk : k < 8) :
    dbgLevel (openSession g k s) = max g (dbgLevel s) ∧
      bits (openSession g k s) R.dbgStatus 21 3 = (if g < dbgLevel s then bits s R.dbgStatus 21 3 else k) ∧
      keepsRegs [R.dbgStatus] s (openSession g k s) ∧ openSession g k s = { s with regs := (openSession g k s).regs } := by
  rw [openSession]
  by_cases h : g < dbgLevel s
  · rw [if_pos h, if_pos h]
    exact ⟨by omega, rfl, keepsRegs_refl _ s, rfl⟩
  · rw [if_neg h, if_neg h]
    refine ⟨?_, ?_, ((keepsRegs_refl _ s).setBits (by simp) _ _ _).setBits (by simp) _ _ _, rfl⟩
    · rw [dbgLevel, bits_setBits_ne _ _ _ _ _ _ _ _ (by omega), bits_setBits _ _ _ _ _ (by omega), Nat.mod_eq_of_lt (a := g) (b := 2 ^ 2) hg]
      omega
    · rw [bits_setBits _ _ _ _ _ (by omega), Nat.mod_eq_of_lt (a := k) (b := 2 ^ 3) hk]

theorem slotLevel_le (l k : Nat) : slotLevel l k ≤ 2 := by
  unfold slotLevel
  split <;> decide

theorem grantedLevel_le (s : State) (k : Nat) : grantedLevel s k ≤ 2 := by
  unfold grantedLevel
  split
  · split
    · exact slotLevel_le _ _
    · exact Nat.zero_le _
  · exact Nat.zero_le _

/-- What GO of slot `k` does in terms of the level that it grants. -/
theorem go_eq (k : Nat) (s : State) :
    go k s = if grantedLevel s k ≠ 0 then
        openSession (grantedLevel s k) k
          (if bits s R.dbgAuthStatus 16 8 = 0 then goodResponse k s else authRecord 0 (goodResponse k s))
      else authRecord (satAdd 8 (bits s R.dbgAuthStatus 16 8) 1)
        (signal 210 k (badResponse k (satAdd 8 (bits s R.dbgAuthStatus 16 8) 1) s)) := by
  have hlevel : grantedLevel (setBits s R.dbgAuthCtrl 0 3 k) k = grantedLevel s k := by
    have hchal (i : Nat) : reg (setBits s R.dbgAuthCtrl 0 3 k) (R.dbgAuthChal i) = reg s (R.dbgAuthChal i) :=
      reg_setBits_ne _ _ _ _ _ _ (by simp only [R.dbgAuthChal, R.dbgAuthCtrl]; omega)
    have hbit : bit (setBits s R.dbgAuthCtrl 0 3 k) R.dbgAuthStatus 31 = bit s R.dbgAuthStatus 31 :=
      bit_setBits_ne _ _ _ _ _ _ _ (.inl (by decide))
    have hgiven : givenResponse (setBits s R.dbgAuthCtrl 0 3 k) = givenResponse s := rfl
    have hresp (key : List Byte) : expectedResponse (setBits s R.dbgAuthCtrl 0 3 k) k key = expectedResponse s k key := by
      simp only [expectedResponse, hchal]
      rfl
    simp only [grantedLevel, hbit, hgiven, hresp]
    rfl
  have hfails : bits (setBits s R.dbgAuthCtrl 0 3 k) R.dbgAuthStatus 16 8 = bits s R.dbgAuthStatus 16 8 :=
    bits_setBits_ne _ _ _ _ _ _ _ _ (.inl (by decide))
  rw [go]
  dsimp only
  rw [hlevel, hfails]
  rfl

theorem go_opens {k : Fin 8} {s : State} (hg : grantedLevel s k ≠ 0) :
    let t := go k s
    dbgLevel t = max (grantedLevel s k) (dbgLevel s) ∧
      bits t R.dbgStatus 21 3 = (if grantedLevel s k < dbgLevel s then bits s R.dbgStatus 21 3 else k.val) ∧
      bits t R.dbgAuthStatus 29 2 = 1 ∧ bit t R.dbgAuthStatus 31 = false ∧ bits t R.dbgAuthStatus 16 8 = 0 ∧
      bits t R.dbgAuthStatus 0 11 = bits s R.dbgAuthStatus 0 11 ∧ t.flt.signals = s.flt.signals ∧
      keepsRegs goRegs s t ∧ t.dbg = s.dbg := by
  obtain ⟨q, hq⟩ : ∃ q, (if bits s R.dbgAuthStatus 16 8 = 0 then goodResponse k s else authRecord 0 (goodResponse k s))
      = { goodResponse k s with cairn := { (goodResponse k s).cairn with queue := q } } := by
    split
    · exact ⟨_, rfl⟩
    · exact addRecord_frame _ _ _
  have hrun : go k s = openSession (grantedLevel s k) k
      { goodResponse k s with cairn := { (goodResponse k s).cairn with queue := q } } := by
    rw [go_eq, if_pos hg, hq]
  obtain ⟨h29, h31, h16, h0⟩ := goodResponse_status k s
  have hkeep : keepsRegs [R.dbgAuthCtrl, R.dbgAuthStatus] s (goodResponse k s) :=
    ((((keepsRegs_refl _ s).setBits (by simp) _ _ _).setBit (by simp) _ _).setBits (by simp) _ _ _).setBits (by simp) _ _ _
  have hstatus : reg (goodResponse k s) R.dbgStatus = reg s R.dbgStatus := hkeep _ (by decide)
  intro t
  have ht : t = _ := hrun
  obtain ⟨hlevel, hslot, honly, hframe⟩ := openSession_level (g := grantedLevel s k) (k := k)
    { goodResponse k s with cairn := { (goodResponse k s).cairn with queue := q } }
    (Nat.lt_of_le_of_lt (grantedLevel_le s k) (by decide)) k.isLt
  have hauth : reg t R.dbgAuthStatus = reg (goodResponse k s) R.dbgAuthStatus := by
    rw [ht]
    exact honly _ (by decide)
  have hold : dbgLevel { goodResponse k s with cairn := { (goodResponse k s).cairn with queue := q } } = dbgLevel s :=
    congrArg (bitsOf · 30 2) hstatus
  rw [hold] at hlevel hslot
  refine ⟨?_, ?_, ?_, ?_, ?_, ?_, ?_, ?_, ?_⟩
  · rw [ht, hlevel]
  · rw [ht, hslot]
    exact if_congr Iff.rfl (congrArg (bitsOf · 21 3) hstatus) rfl
  · exact (congrArg (bitsOf · 29 2) hauth).trans h29
  · exact (congrArg (fun w => BitVec.getLsbD w 31) hauth).trans h31
  · exact (congrArg (bitsOf · 16 8) hauth).trans h16
  · exact (congrArg (bitsOf · 0 11) hauth).trans h0
  · rw [ht, hframe]
    rfl
  · rw [ht]
    refine (hkeep.mono (by decide)).trans (keepsRegs.mono ?_ (L := [R.dbgStatus]) (by decide))
    exact honly
  · rw [ht, hframe]
    rfl

theorem go_fails {k : Fin 8} {s : State} (hg : grantedLevel s k = 0) :
    let t := go k s
    let n := min (bits s R.dbgAuthStatus 16 8 + 1) 255
    dbgLevel t = dbgLevel s ∧ bits t R.dbgStatus 21 3 = bits s R.dbgStatus 21 3 ∧
      bits t R.dbgAuthStatus 29 2 = 2 ∧ bit t R.dbgAuthStatus 31 = false ∧ bits t R.dbgAuthStatus 16 8 = n ∧
      bits t R.dbgAuthStatus 0 11 = lockout n ∧ t.flt.signals = s.flt.signals ++ [⟨210, k, false⟩] ∧
      keepsRegs goRegs s t ∧ t.dbg = s.dbg := by
  intro t n
  have hrun : t = authRecord n (signal 210 k (badResponse k n s)) := by
    show go k s = _
    rw [go_eq, if_neg (not_not_intro hg)]
    rfl
  obtain ⟨q, hq⟩ := addRecord_frame 6 (bytesLE 4 n) (signal 210 k (badResponse k n s))
  have ht : t = _ := hrun.trans hq
  have hsig : (signal 210 k (badResponse k n s)).regs = (badResponse k n s).regs := by rw [signal_regs]
  have hregs : t.regs = (badResponse k n s).regs := by rw [ht, ← hsig]
  have hreg (a : Nat) : reg t a = reg (badResponse k n s) a := by rw [reg, reg, hregs]
  obtain ⟨h29, h31, h16, h0⟩ := badResponse_status k n s (by omega)
  have hkeep : keepsRegs [R.dbgAuthCtrl, R.dbgAuthStatus] s (badResponse k n s) :=
    (((((keepsRegs_refl _ s).setBits (by simp) _ _ _).setBit (by simp) _ _).setBits (by simp) _ _ _).setBits (by simp) _ _ _).setBits
      (by simp) _ _ _
  have hstatus : reg t R.dbgStatus = reg s R.dbgStatus := (hreg _).trans (hkeep _ (by decide))
  have hauth := hreg R.dbgAuthStatus
  refine ⟨congrArg (bitsOf · 30 2) hstatus, congrArg (bitsOf · 21 3) hstatus, (congrArg (bitsOf · 29 2) hauth).trans h29,
    (congrArg (fun w => BitVec.getLsbD w 31) hauth).trans h31, (congrArg (bitsOf · 16 8) hauth).trans h16,
    (congrArg (bitsOf · 0 11) hauth).trans h0, ?_, fun a ha => ?_, ?_⟩
  · rw [ht]
    exact signals_signal (s := badResponse k n s) rfl (by decide) (by omega)
  · rw [hreg, hkeep.mono (by decide) a ha]
  · rw [ht]
    exact signal_dbg 210 k (badResponse k n s)

theorem go_responds (k : Fin 8) (s : State) :
    Completes (.go k) s fun t =>
      let g := grantedLevel s k
      let n := min (bits s R.dbgAuthStatus 16 8 + 1) 255
      dbgLevel t = (if g = 0 then dbgLevel s else max g (dbgLevel s)) ∧
      bits t R.dbgStatus 21 3 = (if g = 0 ∨ g < dbgLevel s then bits s R.dbgStatus 21 3 else k.val) ∧
      bits t R.dbgAuthStatus 29 2 = (if g = 0 then 2 else 1) ∧ bit t R.dbgAuthStatus 31 = false ∧
      bits t R.dbgAuthStatus 16 8 = (if g = 0 then n else 0) ∧
      bits t R.dbgAuthStatus 0 11 = (if g = 0 then lockout n else bits s R.dbgAuthStatus 0 11) ∧
      t.flt.signals = s.flt.signals ++ (if g = 0 then [⟨210, k, false⟩] else []) ∧
      keepsRegs [R.dbgAuthCtrl, R.dbgAuthStatus, R.dbgStatus] s t ∧ t.dbg = s.dbg := by
  refine ⟨go k s, rfl, ?_⟩
  dsimp only
  by_cases hg : grantedLevel s k = 0
  · simp only [hg, if_true, true_or]
    exact go_fails hg
  · simp only [hg, if_false, false_or, List.append_nil]
    exact go_opens hg

/-! ## The end of a session -/

/-- A session is closed (R331). -/
def levelDropped (s : State) : State :=
  setBit (setBits (setBit (setBits s R.dbgStatus 30 2 0) R.dbgStatus 29 false) R.dbgStatus 21 3 0) R.dbgSession 30 false

theorem levelDropped_fields (s : State) :
    dbgLevel (levelDropped s) = 0 ∧ bit (levelDropped s) R.dbgStatus 29 = false ∧ bits (levelDropped s) R.dbgStatus 21 3 = 0 ∧
      bit (levelDropped s) R.dbgSession 30 = false ∧ lhHalted (levelDropped s) = lhHalted s := by
  have hne : R.dbgStatus ≠ R.dbgSession := by decide
  unfold levelDropped dbgLevel lhHalted
  refine ⟨?_, ?_, ?_, bit_setBit _ _ _ _ (by omega), ?_⟩
  · rw [bits_setBit_ne _ _ _ _ _ _ _ (.inl hne), bits_setBits_ne _ _ _ _ _ _ _ _ (by omega),
      bits_setBit_ne _ _ _ _ _ _ _ (by omega), bits_setBits _ _ _ _ _ (by omega), Nat.zero_mod]
  · rw [bit_setBit_ne _ _ _ _ _ _ (.inl hne), bit_setBits_ne _ _ _ _ _ _ _ (by omega), bit_setBit _ _ _ _ (by omega)]
  · rw [bits_setBit_ne _ _ _ _ _ _ _ (.inl hne), bits_setBits _ _ _ _ _ (by omega), Nat.zero_mod]
  · rw [bit_setBit_ne _ _ _ _ _ _ (.inl hne), bit_setBits_ne _ _ _ _ _ _ _ (by omega), bit_setBit_ne _ _ _ _ _ _ (by omega),
      bit_setBits_ne _ _ _ _ _ _ _ (by omega)]

/-- The halt's end leaves the bits of DBG_STATUS that are not its own. -/
theorem bit_haltLifted {b : Nat} (s : State) (hb : b ≠ 26 ∧ b ≠ 28) : bit (haltLifted s) R.dbgStatus b = bit s R.dbgStatus b := by
  rw [haltLifted, endFeed, bit_setBit_ne _ _ _ _ _ _ (.inr hb.1)]
  show bit (setBit (setBit s R.dbgStatus 28 false) R.lhStatus 22 false) R.dbgStatus b = _
  rw [bit_setBit_ne _ _ _ _ _ _ (.inl (by decide)), bit_setBit_ne _ _ _ _ _ _ (.inr hb.2)]

theorem bits_haltLifted (s : State) : bits (haltLifted s) R.dbgStatus 21 3 = bits s R.dbgStatus 21 3 := by
  rw [haltLifted, endFeed, bits_setBit_ne _ _ _ _ _ _ _ (by omega)]
  show bits (setBit (setBit s R.dbgStatus 28 false) R.lhStatus 22 false) R.dbgStatus 21 3 = _
  rw [bits_setBit_ne _ _ _ _ _ _ _ (.inl (by decide)), bits_setBit_ne _ _ _ _ _ _ _ (by omega)]

/-- A resume without trace leaves the session's fields but for the halt. -/
theorem resumeCores_session {s : State} (htrace : traceRuns s = false) :
    bit (resumeCores s) R.dbgStatus 29 = bit s R.dbgStatus 29 ∧ bits (resumeCores s) R.dbgStatus 21 3 = bits s R.dbgStatus 21 3 ∧
      reg (resumeCores s) R.dbgSession = reg s R.dbgSession := by
  by_cases hhalt : lhHalted s = true
  · have hresumed := coresResumed_raiseCounts s
    have hraised : traceRuns (raiseCount 1 (raiseCount 0 (haltLifted s))) = false := by
      rw [traceRuns_congr (hresumed.regs.mono resumeRegs_subset), htrace]
    have heq : resumeCores s = raiseCount 1 (raiseCount 0 (haltLifted s)) := by
      rw [resumeCores, if_pos hhalt]
      exact if_neg fun h => absurd h.1 (Bool.eq_false_iff.1 hraised)
    have hreg : reg (resumeCores s) R.dbgStatus = reg (haltLifted s) R.dbgStatus := by
      rw [heq, reg_raiseCount_ne (by decide), reg_raiseCount_ne (by decide)]
    refine ⟨?_, ?_, ?_⟩
    · rw [bit, hreg]
      exact bit_haltLifted s (by decide)
    · rw [bits, hreg]
      exact bits_haltLifted s
    · rw [heq]
      exact hresumed.regs _ (by decide)
  · rw [resumeCores, if_neg hhalt]
    exact ⟨rfl, rfl, rfl⟩

theorem sessionClosed_fields (s : State) :
    bit (sessionClosed s) R.dbgStatus 29 = false ∧ bits (sessionClosed s) R.dbgStatus 21 3 = 0 ∧
      bit (sessionClosed s) R.dbgSession 30 = false := by
  obtain ⟨-, h29, h21, h30, -⟩ := levelDropped_fields s
  have hclosed : sessionClosed s = setBit (levelDropped s) R.dbgStatus 27 false := rfl
  rw [hclosed]
  refine ⟨?_, ?_, ?_⟩
  · rw [bit_setBit_ne _ _ _ _ _ _ (by omega), h29]
  · rw [bits_setBit_ne _ _ _ _ _ _ _ (by omega), h21]
  · rw [bit_setBit_ne _ _ _ _ _ _ (.inl (by decide)), h30]

/-- What a resume does with the halt and with the rest of the state, whether Lighthouse is halted or not. -/
theorem resumeCores_halt {s : State} (htrace : traceRuns s = false) :
    lhHalted (resumeCores s) = false ∧ dbgLevel (resumeCores s) = dbgLevel s ∧
      resumeCores s = { s with regs := (resumeCores s).regs, dbg := { s.dbg with
        feeding := if lhHalted s = true then none else s.dbg.feeding } } := by
  by_cases hhalt : lhHalted s = true
  · have h := coresResumed_resumeCores hhalt htrace
    rw [if_pos hhalt]
    exact ⟨h.running, h.level, h.frame⟩
  · have heq : resumeCores s = s := if_neg hhalt
    rw [heq, if_neg hhalt]
    exact ⟨Bool.eq_false_iff.2 hhalt, rfl, rfl⟩

theorem endSession_closes {s : State} (htrace : traceRuns s = false) :
    let t := endSession s
    dbgLevel t = 0 ∧ bit t R.dbgStatus 29 = false ∧ bits t R.dbgStatus 21 3 = 0 ∧ bit t R.dbgSession 30 = false ∧
      lhHalted t = (lhHalted s && dbgLevel s != 2) ∧
      t = { s with regs := t.regs, dbg := { s.dbg with
        feeding := if dbgLevel s = 2 ∧ lhHalted s = true then none else s.dbg.feeding } } := by
  intro t
  obtain ⟨hl, h29, h21, h30, hh⟩ := levelDropped_fields s
  by_cases hfull : dbgLevel s = 2
  · have ht : t = resumeCores (sessionClosed s) := endSession_of_full hfull
    have hclosed : keepsRegs sessionEndRegs s (sessionClosed s) := (sessionClosed_keepsRegs s).mono (by decide)
    have hquiet : traceRuns (sessionClosed s) = false := (traceRuns_congr hclosed).trans htrace
    obtain ⟨c29, c21, c30⟩ := sessionClosed_fields s
    obtain ⟨r29, r21, rsession⟩ := resumeCores_session hquiet
    obtain ⟨hrun, hlevel, hframe⟩ := resumeCores_halt hquiet
    rw [ht]
    refine ⟨hlevel.trans (dbgLevel_sessionClosed s), r29.trans c29, r21.trans c21, ?_, ?_, ?_⟩
    · rw [bit, rsession]
      exact c30
    · simp [hrun, hfull]
    · rw [lhHalted_sessionClosed] at hframe
      rw [hframe]
      simp only [hfull, true_and]
      rfl
  · have ht : t = levelDropped s := by
      show endSession s = _
      rw [endSession]
      exact if_neg (by simp [hfull])
    rw [ht]
    refine ⟨hl, h29, h21, h30, ?_, ?_⟩
    · simp [hh, hfull]
    · rw [if_neg fun h => hfull h.1]
      rfl

/-- Settles O45. -/
theorem debugSessions : Obligations.DebugSessions := by
  unfold Obligations.DebugSessions
  refine ⟨fun s h => get_draws h, fun s h => congrArg Host.Outcome.next (if_pos h), go_responds, fun s => rfl, fun s => rfl,
    fun s c hc htrace => ?_⟩
  rcases hc with rfl | ⟨rfl, hl⟩
  · exact ⟨_, rfl, endSession_closes htrace⟩
  · exact ⟨_, congrArg Host.Outcome.next (if_pos hl), endSession_closes htrace⟩

end Sys2Proof.Machine
end

/-! # Halting Lighthouse and feeding its cores -/

section
namespace Sys2Proof.Machine
set_option Elab.async false

theorem lhCore_setLhCore (s : State) (c : Nat) (x : LhCore) (k : Nat) :
    lhCore (setLhCore s c x) k = if k = c then x else lhCore s k := look_put _ _ _ _ _

/-! ## The halt -/

theorem freeCore_frame (c : Nat) (s : State) :
    freeCore c s = { s with dbg := (freeCore c s).dbg, free := (freeCore c s).free } := rfl

theorem freeCore_reserved (c : Nat) (s : State) (k : Nat) :
    (lhCore (freeCore c s) k).reserved = if k = c then none else (lhCore s k).reserved := by
  rw [freeCore, lhCore_setLhCore]
  split <;> rfl

/-- Lighthouse stands still, its cores not yet settled. -/
def stoodStill (s : State) : State :=
  setBit (setBit (setBit s R.dbgStatus 27 false) R.dbgStatus 28 true) R.lhStatus 22 true

theorem haltComplete_halts {s : State} (h : bit s R.dbgStatus 27 = true) :
    Completes .haltComplete s fun t =>
      lhHalted t = true ∧ bit t R.dbgStatus 27 = false ∧ bit t R.lhStatus 22 = true ∧ bits t R.lhStatus 20 2 = 0 ∧
      (∀ c, c < 2 → (lhCore t c).reserved = none) ∧ keepsRegs [R.dbgStatus, R.lhStatus] s t ∧
      t = { s with regs := t.regs, dbg := t.dbg, free := t.free } := by
  have hrun : haltComplete s = setBits (freeCore 1 (freeCore 0 (stoodStill s))) R.lhStatus 20 2 0 := if_pos h
  have hne : R.dbgStatus ≠ R.lhStatus := by decide
  have hregs : (freeCore 1 (freeCore 0 (stoodStill s))).regs = (stoodStill s).regs := rfl
  have hreg (a : Nat) : reg (freeCore 1 (freeCore 0 (stoodStill s))) a = reg (stoodStill s) a := by rw [reg, reg, hregs]
  refine ⟨_, congrArg Host.Outcome.next hrun, ?_, ?_, ?_, ?_, fun c hc => ?_, ?_, rfl⟩
  · rw [lhHalted, bit_setBits_ne _ _ _ _ _ _ _ (.inl hne), bit, hreg, ← bit, stoodStill, bit_setBit_ne _ _ _ _ _ _ (.inl hne),
      bit_setBit _ _ _ _ (by omega)]
  · rw [bit_setBits_ne _ _ _ _ _ _ _ (.inl hne), bit, hreg, ← bit, stoodStill, bit_setBit_ne _ _ _ _ _ _ (.inl hne),
      bit_setBit_ne _ _ _ _ _ _ (by omega), bit_setBit _ _ _ _ (by omega)]
  · rw [bit_setBits_ne _ _ _ _ _ _ _ (by omega), bit, hreg, ← bit, stoodStill, bit_setBit _ _ _ _ (by omega)]
  · rw [bits_setBits _ _ _ _ _ (by omega), Nat.zero_mod]
  · show (lhCore (freeCore 1 (freeCore 0 (stoodStill s))) c).reserved = none
    rw [freeCore_reserved, freeCore_reserved]
    obtain rfl | rfl : c = 0 ∨ c = 1 := by omega
    · rfl
    · rfl
  · have hstill : keepsRegs [R.dbgStatus, R.lhStatus] s (stoodStill s) :=
      (((keepsRegs_refl _ s).setBit (by simp) _ _).setBit (by simp) _ _).setBit (by simp) _ _
    have hfree : keepsRegs [R.dbgStatus, R.lhStatus] s (freeCore 1 (freeCore 0 (stoodStill s))) :=
      fun a ha => (hreg a).trans (hstill a ha)
    exact hfree.setBits (by simp) _ _ _

/-! ## Feeds -/

/-- What the word of a feed command does. -/
theorem feedOperation_feedWord {op c n : Nat} {i : Bool} (ho : op < 16) (hc : c < 2) (hn : n < 32) (s : State) :
    feedOperation (feedWord op c n i) s = (match op with
      | 1 => feedReadReg c n
      | 2 => feedWriteReg c n
      | 3 => feedPc c
      | 4 => feedSetPc c
      | 5 => feedLoadWord c i
      | 6 => feedStoreWord c i
      | 7 => id
      | _ => feedError) s := by
  have hused : (if op = 1 ∨ op = 2 then n else 0) < 32 := by split <;> omega
  obtain ⟨h1, h2, h3, h4⟩ := feedFields_read (inc := i && (op == 5 || op == 6)) ho hc hused
  rw [feedOperation, feedWord_eq, h1, h2, h3, h4]
  rcases op with _ | _ | _ | _ | _ | _ | _ | _ | op <;> simp

theorem feed_idle {s : State} (hl : dbgLevel s = 2) (hh : lhHalted s = true) (hf : s.dbg.feeding = none) (v : Word) :
    feed v s = feedOperation v s := by
  rw [feed, hl, hh, hf]
  rfl

theorem feed_running {s : State} (hl : dbgLevel s = 2) (hh : lhHalted s = false) (v : Word) :
    feed v s = setBit s R.dbgStatus 25 true := by
  rw [feed, hl, hh]
  rfl

theorem feedReads {c : Fin 2} {g : Fin 32} {s : State} (hl : dbgLevel s = 2) (hh : lhHalted s = true)
    (hf : s.dbg.feeding = none) :
    exec (.feedReadRegister c g) s = .next (setReg s R.dbgData (look (fun _ => 0) (lhCore s c).regs g)) ∧
    exec (.feedReadPc c) s = .next (setReg s R.dbgData (lhCore s c).pc) ∧
    exec (.feedCompleteStores c) s = .next s :=
  ⟨congrArg Host.Outcome.next ((feed_idle hl hh hf _).trans (feedOperation_feedWord (by decide) c.isLt g.isLt s)),
    congrArg Host.Outcome.next ((feed_idle hl hh hf _).trans (feedOperation_feedWord (by decide) c.isLt (by decide) s)),
    congrArg Host.Outcome.next ((feed_idle hl hh hf _).trans (feedOperation_feedWord (by decide) c.isLt (by decide) s))⟩

theorem feedWriteRegister_writes {c : Fin 2} {g : Fin 32} {s : State} (hl : dbgLevel s = 2) (hh : lhHalted s = true)
    (hf : s.dbg.feeding = none) :
    Completes (.feedWriteRegister c g) s fun t =>
      look (fun _ => 0) (lhCore t c).regs g = reg s R.dbgData ∧
      (∀ k, k ≠ g.val → look (fun _ => 0) (lhCore t c).regs k = look (fun _ => 0) (lhCore s c).regs k) ∧
      lhCore t c = { lhCore s c with regs := (lhCore t c).regs } ∧ (∀ k, k ≠ c.val → lhCore t k = lhCore s k) ∧
      t = { s with dbg := t.dbg } := by
  have hrun : feed (feedWord 2 c g false) s = feedWriteReg c g s :=
    (feed_idle hl hh hf _).trans (feedOperation_feedWord (by decide) c.isLt g.isLt s)
  have hcore : lhCore (feedWriteReg c g s) c
      = { lhCore s c with regs := put (fun _ => 0) (lhCore s c).regs g (reg s R.dbgData) } :=
    (lhCore_setLhCore _ _ _ _).trans (if_pos rfl)
  refine ⟨_, congrArg Host.Outcome.next hrun, ?_, fun k hk => ?_, ?_, fun k hk => ?_, rfl⟩
  · rw [hcore]
    exact (look_put _ _ _ _ _).trans (if_pos rfl)
  · rw [hcore]
    exact (look_put _ _ _ _ _).trans (if_neg hk)
  · rw [hcore]
  · exact (lhCore_setLhCore _ _ _ _).trans (if_neg hk)

theorem toNat_aligned (w : Word) : (withBits w 0 2 0).toNat = w.toNat / 4 * 4 := by
  have hlow : (withBits w 0 2 0).toNat % 4 = 0 := by
    have h := bitsOf_withBits w 0 2 0 (by decide)
    simpa [bitsOf] using h
  have hhigh : (withBits w 0 2 0).toNat / 4 = w.toNat / 4 := by
    have h := bitsOf_withBits_ne w 0 2 0 2 30 (by decide)
    have h1 := (withBits w 0 2 0).isLt
    have h2 := w.isLt
    rw [bitsOf, bitsOf, Nat.shiftRight_eq_div_pow, Nat.shiftRight_eq_div_pow, Nat.mod_eq_of_lt (by omega),
      Nat.mod_eq_of_lt (by omega)] at h
    exact h
  omega

theorem feedWritePc_writes {c : Fin 2} {s : State} (hl : dbgLevel s = 2) (hh : lhHalted s = true)
    (hf : s.dbg.feeding = none) :
    Completes (.feedWritePc c) s fun t =>
      (lhCore t c).pc.toNat = (reg s R.dbgData).toNat / 4 * 4 ∧ lhCore t c = { lhCore s c with pc := (lhCore t c).pc } ∧
      (∀ k, k ≠ c.val → lhCore t k = lhCore s k) ∧ t = { s with dbg := t.dbg } := by
  have hrun : feed (feedWord 4 c 0 false) s = feedSetPc c s :=
    (feed_idle hl hh hf _).trans (feedOperation_feedWord (by decide) c.isLt (by decide) s)
  have hcore : lhCore (feedSetPc c s) c = { lhCore s c with pc := withBits (reg s R.dbgData) 0 2 0 } :=
    (lhCore_setLhCore _ _ _ _).trans (if_pos rfl)
  refine ⟨_, congrArg Host.Outcome.next hrun, ?_, ?_, fun k hk => ?_, rfl⟩
  · rw [hcore]
    exact toNat_aligned _
  · rw [hcore]
  · exact (lhCore_setLhCore _ _ _ _).trans (if_neg hk)

theorem stepAddress_steps (inc : Bool) (s : State) :
    reg (stepAddress inc s) R.dbgAddr = (if inc then reg s R.dbgAddr + 4 else reg s R.dbgAddr) ∧
      keepsRegs [R.dbgAddr] s (stepAddress inc s) ∧ stepAddress inc s = { s with regs := (stepAddress inc s).regs } := by
  cases inc with
  | false => exact ⟨rfl, keepsRegs_refl _ s, rfl⟩
  | true =>
    exact ⟨(reg_setReg _ _ _ _).trans (if_pos rfl), (keepsRegs_refl _ s).setReg (List.mem_singleton_self _) _, rfl⟩

theorem feedLoad_loads {c : Fin 2} {inc : Bool} {o : Nat} {s : State} (hl : dbgLevel s = 2) (hh : lhHalted s = true)
    (hf : s.dbg.feeding = none) (hp : lhPlace (feedAddress s) = .local_ o) :
    Completes (.feedLoad c inc) s fun t =>
      reg t R.dbgData = readWord (lhCore s c).local_ o ∧
      reg t R.dbgAddr = (if inc then reg s R.dbgAddr + 4 else reg s R.dbgAddr) ∧
      keepsRegs [R.dbgData, R.dbgAddr] s t ∧ t = { s with regs := t.regs } := by
  have hload : feedLoadWord c inc s = stepAddress inc (setReg s R.dbgData (readWord (lhCore s c).local_ o)) := by
    rw [feedLoadWord, lhLoad, hp]
    dsimp only
    rw [peekOnly, ite_self]
  have hrun : feed (feedWord 5 c 0 inc) s = stepAddress inc (setReg s R.dbgData (readWord (lhCore s c).local_ o)) :=
    ((feed_idle hl hh hf _).trans (feedOperation_feedWord (by decide) c.isLt (by decide) s)).trans hload
  obtain ⟨haddr, hkeep, hframe⟩ := stepAddress_steps inc (setReg s R.dbgData (readWord (lhCore s c).local_ o))
  refine ⟨_, congrArg Host.Outcome.next hrun, ?_, ?_, ?_, ?_⟩
  · rw [hkeep _ (by decide), reg_setReg, if_pos rfl]
  · rw [haddr, reg_setReg, if_neg (show R.dbgAddr ≠ R.dbgData by decide)]
  · exact ((keepsRegs_refl _ s).setReg (by simp) _).trans (hkeep.mono (by simp))
  · rw [hframe]
    rfl

theorem feedStore_stores {c : Fin 2} {inc : Bool} {o : Nat} {s : State} (hl : dbgLevel s = 2) (hh : lhHalted s = true)
    (hf : s.dbg.feeding = none) (hp : lhPlace (feedAddress s) = .local_ o) :
    Completes (.feedStore c inc) s fun t =>
      readWord (lhCore t c).local_ o = reg s R.dbgData ∧
      (∀ a, ¬ (o ≤ a ∧ a < o + 4) → readByte (lhCore t c).local_ a = readByte (lhCore s c).local_ a) ∧
      lhCore t c = { lhCore s c with local_ := (lhCore t c).local_ } ∧ (∀ k, k ≠ c.val → lhCore t k = lhCore s k) ∧
      reg t R.dbgAddr = (if inc then reg s R.dbgAddr + 4 else reg s R.dbgAddr) ∧ keepsRegs [R.dbgAddr] s t := by
  have hstore : feedStoreWord c inc s = stepAddress inc
      (setLhCore s c { lhCore s c with local_ := writeWord (lhCore s c).local_ o (reg s R.dbgData) }) := by
    rw [feedStoreWord, lhStore, hp]
  have hrun : feed (feedWord 6 c 0 inc) s = _ :=
    ((feed_idle hl hh hf _).trans (feedOperation_feedWord (by decide) c.isLt (by decide) s)).trans hstore
  obtain ⟨haddr, hkeep, hframe⟩ := stepAddress_steps inc
    (setLhCore s c { lhCore s c with local_ := writeWord (lhCore s c).local_ o (reg s R.dbgData) })
  have hlh (k : Nat) : lhCore (stepAddress inc
      (setLhCore s c { lhCore s c with local_ := writeWord (lhCore s c).local_ o (reg s R.dbgData) })) k
      = if k = c then { lhCore s c with local_ := writeWord (lhCore s c).local_ o (reg s R.dbgData) } else lhCore s k := by
    rw [hframe]
    exact lhCore_setLhCore _ _ _ _
  refine ⟨_, congrArg Host.Outcome.next hrun, ?_, fun a ha => ?_, ?_, fun k hk => ?_, haddr, fun a ha => hkeep a ha⟩
  · rw [hlh, if_pos rfl]
    exact readWord_writeWord _ _ _
  · rw [hlh, if_pos rfl]
    exact readByte_writeWord_ne _ _ _ (by omega)
  · rw [hlh, if_pos rfl]
  · rw [hlh, if_neg hk]

theorem feedReadRegister_meets {c : Fin 2} {g : Fin 32} {w : Word} {s : State} (hl : dbgLevel s = 2) (hh : lhHalted s = true)
    (hf : s.dbg.feeding = some w) :
    exec (.feedReadRegister c g) s = .next (if w = feedWord 1 c g false
      then setReg (endFeed s) R.dbgData (look (fun _ => 0) (lhCore s c).regs g) else setBit s R.dbgStatus 25 true) := by
  refine congrArg Host.Outcome.next (?_ : feed (feedWord 1 c g false) s = _)
  rw [feed, hl, hh, hf]
  by_cases hw : w = feedWord 1 c g false
  · rw [if_pos hw]
    exact (if_pos hw).trans (feedOperation_feedWord (by decide) c.isLt g.isLt (endFeed s))
  · rw [if_neg hw]
    exact if_neg hw

/-- Settles O46. -/
theorem haltMode : Obligations.HaltMode := by
  unfold Obligations.HaltMode
  refine ⟨fun s hl hh => congrArg Host.Outcome.next (if_pos ⟨hl, by rw [hh]; decide⟩), fun s h => haltComplete_halts h,
    fun c g s hl hh hf => feedReads hl hh hf, fun c g s hl hh hf => feedWriteRegister_writes hl hh hf,
    fun c s hl hh hf => feedWritePc_writes hl hh hf, fun c inc o s hl hh hf hp => feedLoad_loads hl hh hf hp,
    fun c inc o s hl hh hf hp => feedStore_stores hl hh hf hp, fun c g s i hl hh hi => ?_,
    fun c g w s hl hh hf => feedReadRegister_meets hl hh hf⟩
  simp only [List.mem_cons, List.not_mem_nil, or_false] at hi
  rcases hi with rfl | rfl | rfl | rfl | rfl | rfl | rfl <;> exact congrArg Host.Outcome.next (feed_running hl hh _)

end Sys2Proof.Machine
end

/-! # Life-cycle transitions and key fuses -/

section
namespace Sys2Proof.Machine
set_option Elab.async false

/-- A session below the full level ends without a resume. -/
theorem endSession_partial {s : State} (h : dbgLevel s ≠ 2) : endSession s = levelDropped s := by
  rw [endSession]
  exact if_neg (by simp [h])

theorem lcTransition_begins {f : Bool} {v : Word} {s : State} (hv : v.getLsbD 31 = true)
    (ha : transitionAccepted s f v = true) (hl : dbgLevel s ≠ 2) :
    Completes (.lcTransition f v) s fun t =>
      t.dbg = { s.dbg with fuse := some (.lifeCycle (bitsOf v 0 3)) } ∧ dbgLevel t = 0 ∧ t.die = s.die := by
  have hrun : lcTransition f v s
      = { levelDropped s with dbg := { (levelDropped s).dbg with fuse := some (.lifeCycle (bitsOf v 0 3)) } } := by
    rw [lcTransition, hv, ha, if_neg (by decide), if_pos rfl, endSession_partial hl]
  refine ⟨_, congrArg Host.Outcome.next hrun, rfl, ?_, rfl⟩
  exact (levelDropped_fields s).1

theorem lcTransition_refused {v : Word} {s : State} (hv : v.getLsbD 31 = true) (ha : transitionAccepted s false v = false) :
    exec (.lcTransition false v) s = .next (setBit s R.dbgStatus 24 true) := by
  refine congrArg Host.Outcome.next (?_ : lcTransition false v s = _)
  rw [lcTransition, hv, ha]
  rfl

theorem lcTransition_withoutRight {v : Word} {s : State} (hv : v.getLsbD 31 = false) (hh : hostHas s .lc = false) :
    exec (.lcTransition false v) s = .next (setBit s R.dbgStatus 24 true) := by
  refine congrArg Host.Outcome.next (?_ : lcTransition false v s = _)
  rw [lcTransition, hv, hh]
  rfl

/-- The slot is noted, and the key bytes that were written are taken. -/
def slotNoted (k : Nat) (s : State) : State := setBits { s with dbg := { s.dbg with keyData := [] } } R.secKeyCtrl 0 3 k

/-- Whether a key may be programmed is told by nothing that noting its slot changes. -/
theorem keyAllowed_slotNoted (f : Bool) (k : Nat) (s : State) : keyAllowed (slotNoted k s) f k = keyAllowed s f k := by
  have hlevel : dbgLevel (slotNoted k s) = dbgLevel s :=
    bits_setBits_ne { s with dbg := { s.dbg with keyData := [] } } _ _ _ _ _ _ _ (.inl (by decide))
  have hright : holdsRight (slotNoted k s) f .kp = holdsRight s f .kp := by
    rw [holdsRight, holdsRight, footpathHas, footpathHas, hlevel]
    rfl
  rw [keyAllowed, keyAllowed, hright]
  rfl

theorem keyProgram_begins {f : Bool} {k : Fin 8} {s : State} (h : keyAllowed s f k = true) :
    Completes (.keyProgram f k) s fun t =>
      t.dbg = { s.dbg with keyData := [], fuse := some (.key k (keyBytes s (slotLength k))) } ∧
      bits t R.secKeyCtrl 0 3 = k ∧ t.die = s.die ∧ keepsRegs [R.secKeyCtrl] s t := by
  have hrun : keyProgram f k s = { slotNoted k s with
      dbg := { (slotNoted k s).dbg with fuse := some (.key k (keyBytes s (slotLength k))) } } :=
    if_pos ((keyAllowed_slotNoted f k s).trans h)
  refine ⟨_, congrArg Host.Outcome.next hrun, rfl, ?_, rfl, ?_⟩
  · exact (bits_setBits { s with dbg := { s.dbg with keyData := [] } } _ _ _ _ (by omega)).trans (Nat.mod_eq_of_lt k.isLt)
  · exact (keepsRegs_refl _ s).setBits (t := { s with dbg := { s.dbg with keyData := [] } }) (List.mem_singleton_self _) 0 3 k

theorem fuseDone_key {s : State} {k : Nat} {bs : List Byte} (h : s.dbg.fuse = some (.key k bs)) :
    Completes (.fuseWriteDone ⟨true⟩) s fun t =>
      t.dbg = { s.dbg with fuse := none } ∧ t.die = { s.die with keys := s.die.keys.set k (some bs) } ∧
      bits t R.secKeyCtrl 28 2 = 1 ∧ keepsRegs [R.secKeyCtrl] s t := by
  have hrun : fuseDone true s = setBits { s with
      dbg := { s.dbg with fuse := none }, die := { s.die with keys := s.die.keys.set k (some bs) } } R.secKeyCtrl 28 2 1 := by
    rw [fuseDone, h]
    rfl
  refine ⟨_, congrArg Host.Outcome.next hrun, rfl, rfl, ?_, ?_⟩
  · exact bits_setBits { s with
      dbg := { s.dbg with fuse := none }, die := { s.die with keys := s.die.keys.set k (some bs) } } _ _ _ _ (by omega)
  · exact (keepsRegs_refl _ s).setBits (t := { s with
      dbg := { s.dbg with fuse := none }, die := { s.die with keys := s.die.keys.set k (some bs) } })
      (List.mem_singleton_self _) _ _ _

/-- The state in which a key fuse write has failed, before its fault is raised. -/
def keyFailed (k : Nat) (s : State) : State :=
  setBits { s with dbg := { s.dbg with fuse := none }, die := { s.die with keyErrors := s.die.keyErrors ++ [k] } }
    R.secKeyCtrl 28 2 3

theorem fuseDone_keyFails {s : State} {k : Nat} {bs : List Byte} (h : s.dbg.fuse = some (.key k bs)) :
    Completes (.fuseWriteDone ⟨false⟩) s fun t =>
      t.dbg = { s.dbg with fuse := none } ∧ t.die = { s.die with keyErrors := s.die.keyErrors ++ [k] } ∧
      bits t R.secKeyCtrl 28 2 = 3 ∧
      t.flt.signals = s.flt.signals ++ [⟨203, (Config.freeBits 16 s.free).toNat, false⟩] := by
  have hrun : fuseDone false s = signal 203 (Config.freeBits 16 s.free).toNat (takeFree 16 (keyFailed k s)).2 := by
    rw [fuseDone, h]
    rfl
  refine ⟨_, congrArg Host.Outcome.next hrun, ?_, ?_, ?_, ?_⟩
  · rw [signal_dbg]
    rfl
  · rw [signal_die]
    rfl
  · rw [bits_signal]
    exact bits_setBits { s with dbg := { s.dbg with fuse := none }, die := { s.die with keyErrors := s.die.keyErrors ++ [k] } }
      _ _ _ _ (by omega)
  · rw [signals_signal (by rfl) (by decide) (Config.freeBits 16 s.free).isLt]
    rfl

theorem fuseDone_lifeCycle {s : State} {l : Nat} (h : s.dbg.fuse = some (.lifeCycle l)) :
    Completes (.fuseWriteDone ⟨true⟩) s fun t =>
      t.dbg = { s.dbg with fuse := none, nextState := some l } ∧ t.die = s.die ∧ t.regs = s.regs := by
  have hrun : fuseDone true s = addRecord 5 (bytesLE 1 s.die.lifeCycle ++ bytesLE 1 l)
      { s with dbg := { s.dbg with fuse := none, nextState := some l } } := by
    rw [fuseDone, h]
    rfl
  obtain ⟨q, hq⟩ := addRecord_frame 5 (bytesLE 1 s.die.lifeCycle ++ bytesLE 1 l)
    { s with dbg := { s.dbg with fuse := none, nextState := some l } }
  exact ⟨_, congrArg Host.Outcome.next (hrun.trans hq), rfl, rfl, rfl⟩

/-- Settles O47. -/
theorem fusesAndKeys : Obligations.FusesAndKeys := by
  unfold Obligations.FusesAndKeys
  exact ⟨fun f v s hv ha hl => lcTransition_begins hv ha hl, fun v s hv ha => lcTransition_refused hv ha,
    fun v s hv hh => lcTransition_withoutRight hv hh, fun f k s h => keyProgram_begins h, fun s k bs h => fuseDone_key h,
    fun s k bs h => fuseDone_keyFails h, fun s l h => fuseDone_lifeCycle h⟩

end Sys2Proof.Machine
end

/-! # Footpath requests, replies and frames -/

section
namespace Sys2Proof.Machine
set_option Elab.async false

/-! ## Requests -/

theorem firstFrame_open {s : State} (h : dbgLevel s ≠ 0) : firstFrame s = s := if_pos h

/-- A request with a right CRC in an open session is made at once. -/
theorem request_open {s : State} (h : dbgLevel s ≠ 0) (f : State → State) : request true f s = f s :=
  congrArg f (firstFrame_open h)

/-- What a peek without consume answers: its words begin with the one at the address, and nothing else changes. -/
theorem peekWords_peeks {s : State} (h : consumes s = false) (a n : Nat) :
    (peekWords s a n).2 = s ∧ (peekWords s a n).1.length = n ∧
      (0 < n → (peekWords s a n).1.headD 0 = readValue .footpath a s) ∧
      (n = 1 → (peekWords s a n).1 = [readValue .footpath a s]) := by
  rw [peekWords, h, if_neg (by decide)]
  refine ⟨rfl, by simp, fun hn => ?_, fun hn => ?_⟩
  · obtain ⟨m, rfl⟩ : ∃ m, n = m + 1 := ⟨n - 1, by omega⟩
    rw [List.range_succ_eq_map]
    simp
  · subst hn
    simp

theorem peekRequest_words {s : State} {a n : Nat} (hc : consumes s = false)
    (hm : ∀ k, k < n → mayPeek s (a + 4 * k) = true ∧ targetOff s (a + 4 * k) = false) :
    peekRequest a n s = reply 0 (peekWords s a n).1 s := by
  have hall : (((List.range n).map fun k => a + 4 * k).all fun x => mayPeek s x) = true := by
    simp only [List.all_map, List.all_eq_true, List.mem_range, Function.comp_apply]
    exact fun k hk => (hm k hk).1
  have hany : (((List.range n).map fun k => a + 4 * k).any fun x => targetOff s x) = false := by
    simp only [List.any_map, List.any_eq_false, List.mem_range, Function.comp_apply, Bool.not_eq_true]
    exact fun k hk => (hm k hk).2
  rw [peekRequest]
  dsimp only
  rw [if_pos hall, hany, (peekWords_peeks hc a n).1]
  rfl

theorem peekRequest_refused {s : State} {a : Nat} (h : mayPeek s a = false) : peekRequest a 1 s = reply 1 [] s := by
  rw [peekRequest]
  exact if_neg (by simp [h])

theorem peek_answers {a : Nat} {s : State} (hl : dbgLevel s ≠ 0) (hm : mayPeek s a = true) (hc : consumes s = false)
    (ho : targetOff s a = false) :
    exec (.peek a true) s = .next { s with dbg := { s.dbg with
      replies := s.dbg.replies ++ [⟨0, [readValue .footpath a s], none⟩] } } := by
  refine congrArg Host.Outcome.next (?_ : request true (peekRequest a 1) s = _)
  rw [request_open hl, peekRequest_words hc fun k hk => ?_, (peekWords_peeks hc a 1).2.2.2 rfl]
  · rfl
  · rw [Nat.lt_one_iff.1 hk]
    exact ⟨hm, ho⟩

theorem burstPeek_answers {a n : Nat} {s : State} (hl : dbgLevel s ≠ 0) (h1 : 1 ≤ n) (h32 : n ≤ 32) (hc : consumes s = false)
    (hm : ∀ k, k < n → mayPeek s (a + 4 * k) = true ∧ targetOff s (a + 4 * k) = false) :
    Completes (.burstPeek a n true) s fun t =>
      (∃ ws, t.dbg = { s.dbg with replies := s.dbg.replies ++ [⟨0, ws, none⟩] } ∧ ws.length = n ∧
        ws.headD 0 = readValue .footpath a s) ∧ t = { s with dbg := t.dbg } := by
  have hn : min 32 (max 1 n) = n := by omega
  obtain ⟨-, hlen, hhead, -⟩ := peekWords_peeks hc a n
  have hrun : request true (peekRequest a (min 32 (max 1 n))) s = reply 0 (peekWords s a n).1 s := by
    rw [hn, request_open hl, peekRequest_words hc hm]
  exact ⟨_, congrArg Host.Outcome.next hrun, ⟨_, rfl, hlen, hhead (by omega)⟩, rfl⟩

/-! ## Pokes -/

theorem pokeRequest_writes {s : State} {a : Nat} {v : Word} (hm : mayPoke s a = true) :
    pokeRequest false a v s = reply (pokeStatus s a v) [] (pokeWrite false a v s) := by
  rw [pokeRequest, hm, if_pos rfl]
  exact if_neg fun h => absurd h.1 (by decide)

theorem pokeRequest_late {s : State} {a : Nat} {v : Word} (hm : mayPoke s a = true) (hs : pokeStatus s a v = 0)
    (ha : a ≠ R.dbgFeed) : pokeRequest true a v s = pokeLate a v s := by
  rw [pokeRequest, hm, if_pos rfl]
  exact if_pos ⟨rfl, hs, ha⟩

theorem pokeRequest_refused {s : State} {a : Nat} (slow : Bool) (v : Word) (hm : mayPoke s a = false) :
    pokeRequest slow a v s = reply 1 [] s := by
  rw [pokeRequest, hm]
  rfl

theorem pokeStatus_msTokenTimeout (v : Word) (s : State) : pokeStatus s R.glbMsTokenTimeout v = 0 := by
  have hlacks : pokeLacks s R.glbMsTokenTimeout v = false := by
    have hkey : baseIn R.glbMsTokenTimeout (fun b => b == R.secKeyCtrl || b == R.secKeyData 0) = false := by decide +kernel
    rw [pokeLacks, hkey]
    rfl
  have hoff : targetOff s R.glbMsTokenTimeout = false := by
    rw [targetOff, blockOn_glb (by decide)]
    rfl
  rw [pokeStatus, hlacks, hoff]
  rfl

theorem pokeWrite_msTokenTimeout (v : Word) (s : State) :
    pokeWrite false R.glbMsTokenTimeout v s = setReg s R.glbMsTokenTimeout v := by
  have hword : writeWord32 .footpath R.glbMsTokenTimeout v s = writeFields R.glbMsTokenTimeout v s :=
    writeWord32_plainGlb (by simp [plainGlb]) _ v s
  rw [pokeWrite, if_neg (by decide), hword, writeFields, regAt_msTokenTimeout]
  refine congrArg (setReg s _) ?_
  have hones : BitVec.ofNat 32 0xFFFFFFFF = BitVec.allOnes 32 := by decide
  simp only [writtenWord, hones, BitVec.and_allOnes, BitVec.not_allOnes, BitVec.and_zero, BitVec.zero_or, BitVec.not_zero,
    BitVec.or_zero]

theorem poke_writes {v : Word} {s : State} (hl : dbgLevel s ≠ 0) (hm : mayPoke s R.glbMsTokenTimeout = true) :
    Completes (.poke R.glbMsTokenTimeout v ⟨true, false⟩) s fun t =>
      reg t R.glbMsTokenTimeout = v ∧ t.dbg = { s.dbg with replies := s.dbg.replies ++ [⟨0, [], none⟩] } ∧
      keepsRegs [R.glbMsTokenTimeout] s t ∧ t.clusters = s.clusters := by
  have hrun : request true (pokeRequest false R.glbMsTokenTimeout v) s = reply 0 [] (setReg s R.glbMsTokenTimeout v) := by
    rw [request_open hl, pokeRequest_writes hm, pokeStatus_msTokenTimeout, pokeWrite_msTokenTimeout]
  exact ⟨_, congrArg Host.Outcome.next hrun, (reg_setReg _ _ _ _).trans (if_pos rfl), rfl,
    (keepsRegs_refl _ s).setReg (List.mem_singleton_self _) v, rfl⟩

/-! ## Frames with a wrong CRC, and the first frame -/

theorem request_badCrc {s : State} (f : State → State) : request false f s = reply 2 [] s := rfl

theorem badCrc_answered {a n : Nat} {v : Word} {slow : Bool} {op : Fin 8} {s : State} {i : Instr}
    (hi : i ∈ [.peek a false, .poke a v ⟨false, slow⟩, .burstPeek a n false] ∨ (op.val ∉ [1, 2, 3] ∧ i = .reservedOp op false)) :
    exec i s = .next { s with dbg := { s.dbg with replies := s.dbg.replies ++ [⟨2, [], none⟩] } } := by
  simp only [List.mem_cons, List.not_mem_nil, or_false] at hi
  rcases hi with (rfl | rfl | rfl) | ⟨hop, rfl⟩
  · rfl
  · rfl
  · rfl
  · exact congrArg Host.Outcome.next (if_neg (by simpa using hop))

theorem reservedOp_answered {op : Fin 8} {s : State} (hl : dbgLevel s ≠ 0) (hop : op.val ∉ [1, 2, 3]) :
    exec (.reservedOp op true) s = .next { s with dbg := { s.dbg with replies := s.dbg.replies ++ [⟨3, [], none⟩] } } :=
  congrArg Host.Outcome.next ((if_neg (by simpa using hop)).trans (request_open hl _))

/-- A peek without consume changes nothing but the replies. -/
theorem peekRequest_regs {s : State} (hc : consumes s = false) (a n : Nat) : (peekRequest a n s).regs = s.regs := by
  rw [peekRequest]
  dsimp only
  split
  · rw [(peekWords_peeks hc a n).1]
    rfl
  · rfl

theorem peek_opens {a : Nat} {s : State} (hl : dbgLevel s = 0) (hb : s.die.lifeCycle = 0) (hc : consumes s = false) :
    Completes (.peek a true) s fun t => dbgLevel t = 2 ∧ bits t R.dbgStatus 21 3 = 7 := by
  have hfirst : firstFrame s = openSession 2 7 s := by
    rw [firstFrame, if_neg (not_not_intro hl), if_pos hb]
  have hrun : request true (peekRequest a 1) s = peekRequest a 1 (openSession 2 7 s) := congrArg (peekRequest a 1) hfirst
  obtain ⟨hlevel, hslot, hkeep, -⟩ := openSession_level (g := 2) (k := 7) s (by decide) (by decide)
  have hconsumes : consumes (openSession 2 7 s) = false := by
    rw [consumes, bit, hkeep _ (by decide)]
    exact hc
  have hregs := peekRequest_regs hconsumes a 1
  refine ⟨_, congrArg Host.Outcome.next hrun, ?_, ?_⟩
  · rw [dbgLevel, bits, reg, hregs]
    exact hlevel.trans (by rw [hl]; rfl)
  · rw [bits, reg, hregs]
    exact hslot.trans (by rw [hl]; rfl)

/-! ## Replies -/

theorem length_flatMap_bytesBE (ws : List Word) : (ws.flatMap bytesBE).length = 4 * ws.length := by
  induction ws with
  | nil => rfl
  | cons w ws ih =>
    have hw : (bytesBE w).length = 4 := by rw [bytesBE, List.length_reverse, bytesLE_length]
    rw [List.flatMap_cons, List.length_append, ih, hw, List.length_cons]
    omega

theorem replyFrame_shape (r : Reply) :
    (replyFrame r).length = 2 + 4 * r.data.length ∧ (replyFrame r).headD 0 = BitVec.ofNat 8 r.status ∧
      (replyFrame r).getLast? = some (crc8 (replyFrame r).dropLast) := by
  rw [replyFrame]
  refine ⟨?_, rfl, ?_⟩
  · rw [List.length_append, List.length_cons, length_flatMap_bytesBE, List.length_singleton]
    omega
  · rw [List.dropLast_concat, List.getLast?_concat]

/-- The oldest reply has gone out. -/
def replySent (r : Reply) (rest : List Reply) (s : State) : State :=
  { s with dbg := { s.dbg with replies := rest, sent := s.dbg.sent ++ [replyFrame r] } }

theorem footpathReply_sends {s : State} {r : Reply} {rest : List Reply} (hr : s.dbg.replies = r :: rest) (hl : r.late = none) :
    Completes .footpathReply s fun t =>
      (∃ f, t.dbg = { s.dbg with replies := rest, sent := s.dbg.sent ++ [f] } ∧
        f.length = 2 + 4 * r.data.length ∧ f.headD 0 = BitVec.ofNat 8 r.status ∧ f.getLast? = some (crc8 f.dropLast)) ∧
      t = { s with dbg := t.dbg } := by
  have hrun : footpathReply s = replySent r rest s := by
    rw [footpathReply, hr]
    dsimp only
    rw [hl]
    rfl
  exact ⟨_, congrArg Host.Outcome.next hrun, ⟨replyFrame r, rfl, replyFrame_shape r⟩, rfl⟩

theorem footpathReply_late {s : State} {v : Word} {rest : List Reply}
    (hr : s.dbg.replies = ⟨5, [], some (R.glbMsTokenTimeout, v)⟩ :: rest) :
    Completes .footpathReply s fun t =>
      reg t R.glbMsTokenTimeout = v ∧ t.dbg.replies = rest ∧ keepsRegs [R.glbMsTokenTimeout] s t ∧
      t.clusters = s.clusters := by
  have hrun : footpathReply s
      = setReg (replySent ⟨5, [], some (R.glbMsTokenTimeout, v)⟩ rest s) R.glbMsTokenTimeout v := by
    rw [footpathReply, hr]
    exact pokeWrite_msTokenTimeout v _
  exact ⟨_, congrArg Host.Outcome.next hrun, (reg_setReg _ _ _ _).trans (if_pos rfl), rfl,
    (keepsRegs_refl _ s).setReg (t := replySent _ rest s) (List.mem_singleton_self _) v, rfl⟩

/-- Settles O48. -/
theorem footpathRequests : Obligations.FootpathRequests := by
  unfold Obligations.FootpathRequests
  exact ⟨fun a s hl hm hc ho => peek_answers hl hm hc ho, fun a n s hl h1 h32 hc hm => burstPeek_answers hl h1 h32 hc hm,
    fun v s hl hm => poke_writes hl hm,
    fun a v s hl hm hs ha => congrArg Host.Outcome.next ((request_open hl _).trans (pokeRequest_late hm hs ha)),
    fun a n v slow op s i hi => badCrc_answered hi,
    fun a v slow s hl =>
      ⟨fun hm => congrArg Host.Outcome.next ((request_open hl _).trans (peekRequest_refused hm)),
        fun hm => congrArg Host.Outcome.next ((request_open hl _).trans (pokeRequest_refused slow v hm))⟩,
    fun op s hl hop => reservedOp_answered hl hop, fun a s hl hb hc => peek_opens hl hb hc,
    fun s r rest hr hl => footpathReply_sends hr hl, fun s v rest hr => footpathReply_late hr, fun s => rfl, fun s => rfl⟩

end Sys2Proof.Machine
end

/-! # A message after a power-up of the trace unit -/

section
namespace Sys2Proof.Machine
set_option Elab.async false

/-- Trace runs with messages on, and no packet has come since the power-up of its domain (log entry 99). -/
def freshTrace : State :=
  { State.reset with
    regs := [(R.glbUnitPresent0, 0xFFFFFFFF), (R.pwrDomainStatus 25, 0x40000000), (R.trcCtrl, 0x80000004)]
    trc := { fresh := true } }

theorem freshTrace_runs : traceRuns freshTrace = true := by decide +kernel

/-- The first message brings a SYNC of core 0 with it. -/
theorem freshTrace_syncs :
    look (fun _ => []) (traceMsg 3 0 freshTrace).trc.fifos 0 ≠ look (fun _ => []) freshTrace.trc.fifos 0 := by
  decide +kernel

/-- Refutes O49: the first packets after a power-up are the SYNCs of both cores (Table 13.12), so that a message that comes
first does not enter its own FIFO alone. -/
theorem not_traceUnit : ¬ Obligations.TraceUnit := by
  intro h
  obtain ⟨hmsg, -, -, -⟩ := h
  obtain ⟨t, hexec, -, hfifos, -⟩ := hmsg 3 0 freshTrace (by decide) (by decide) freshTrace_runs (by decide +kernel)
    (by decide +kernel) (by decide +kernel) (by decide +kernel)
  have ht : traceMsg 3 0 freshTrace = t := Host.Outcome.next.inj hexec
  exact freshTrace_syncs (by rw [ht, hfifos 0 (by decide)])

end Sys2Proof.Machine
end

/-! # A core that wakes after a power-up of the trace unit -/

section
namespace Sys2Proof.Machine
set_option Elab.async false

/-- Core 0 sleeps, and trace runs with its branches on since a power-up that no packet has followed. -/
def sleepsFresh : State :=
  { State.reset with
    regs := [(R.glbUnitPresent0, 0xFFFFFFFF), (R.pwrDomainStatus 25, 0x40000000), (R.trcCtrl, 0x80000001),
      (R.lhStatus, 0x00100000)]
    trc := { fresh := true } }

/-- Waking tells the power-up by the SYNCs of reason 0; the SYNC of the wake alone would not. -/
theorem sleepsFresh_told :
    (coreWake 0 sleepsFresh).trc.fresh ≠
      (emitSync 0 1 (takeInterrupt (setBit sleepsFresh R.lhStatus 20 false))).trc.fresh := by
  decide +kernel

/-- Refutes O44: a core that wakes as the first after a power-up of the trace unit emits more than its own SYNC with reason 1
(Table 13.12). -/
theorem not_lighthouseCores : ¬ Obligations.LighthouseCores := by
  intro h
  obtain ⟨-, -, -, -, -, -, hwake, -⟩ := h
  have hexec := hwake 0 sleepsFresh (by decide +kernel) (by decide +kernel) (by decide +kernel) (by decide +kernel)
  have hstate : coreWake 0 sleepsFresh = emitSync 0 1 (takeInterrupt (setBit sleepsFresh R.lhStatus 20 false)) :=
    Host.Outcome.next.inj hexec
  exact sleepsFresh_told (congrArg (fun s => s.trc.fresh) hstate)

end Sys2Proof.Machine
end

/-! # A function-level reset that opens nothing -/

section
namespace Sys2Proof.Machine
set_option Elab.async false

/-- No domain is wanted, BIST has ended, and Lighthouse is in state 0. -/
def nothingWanted : State :=
  { State.reset with
    regs := ((List.range 28).map fun d => (R.pwrDomainCtrl d, 0)) ++ [(R.lhStatus, 0), (R.bistStatus, 0x20000000)] }

/-- The reset is over at once, and Lighthouse's step to state 1 raises cause 35 (Table 16.6). -/
theorem nothingWanted_raises : reg (flr nothingWanted) R.glbIrqCauseHi ≠ 0 := by decide +kernel

/-- Refutes O57: a function-level reset after which no domain is to open ends with LH_STATUS.state 1, so that its cause stands
in GLB_IRQ_CAUSE_HI again (R382). -/
theorem not_otherResets : ¬ Obligations.OtherResets := by
  intro h
  obtain ⟨-, hflr, -⟩ := h
  obtain ⟨t, hexec, -, -, -, -, -, -, hhi, -⟩ := hflr nothingWanted rfl (by decide +kernel)
  have ht : flr nothingWanted = t := Host.Outcome.next.inj hexec
  exact nothingWanted_raises (by rw [ht, hhi])

end Sys2Proof.Machine
end

/-! # A rail that times out as the last of a reset -/

section
namespace Sys2Proof.Machine
set_option Elab.async false

/-- Domain 0 is the only one that a reset still has to open, no other is wanted, and Lighthouse is in state 0. -/
def lastOpening : State :=
  { State.reset with
    regs := ((List.range 28).map fun d => (R.pwrDomainCtrl d, 0)) ++
      [(R.pwrDomainStatus 0, 0x20000000), (R.lhStatus, 0), (R.bistStatus, 0x20000000)]
    pwr := { State.reset.pwr with ready := false, reopening := true } }

/-- The failure ends the reset, and Lighthouse's step to state 1 raises cause 35 (Table 16.6). -/
theorem lastOpening_raises :
    reg (railTimeout 0 lastOpening) R.glbIrqCauseHi ≠ reg lastOpening R.glbIrqCauseHi := by decide +kernel

/-- Refutes O54: a rail timeout of the last domain that a reset was to open ends the reset, which changes GLB_IRQ_CAUSE_HI
beside the status of the domain and of Lighthouse (R382). -/
theorem not_powerDomains : ¬ Obligations.PowerDomains := by
  intro h
  obtain ⟨-, -, -, -, -, -, -, -, -, -, htimeout, -⟩ := h
  obtain ⟨t, hexec, -, -, -, hkeep, -⟩ := htimeout 0 lastOpening (by decide +kernel) rfl
  have ht : railTimeout 0 lastOpening = t := Host.Outcome.next.inj hexec
  exact lastOpening_raises (by rw [ht]; exact hkeep _ (by decide))

end Sys2Proof.Machine
end

/-! # A reach goes to HOLD, and a reload fails

What the parts of R264 and R275 that every phase of a load, a reload and a fault shares leave of the state: each is said once,
for the registers below the cluster registers, for LD_REACH, for the clusters, and for the rest of the state. -/

section
namespace Sys2Proof.Machine
set_option Elab.async false

/-! ## Registers outside the clusters -/

/-- Every register outside the cluster registers and outside `L` stands. -/
def keepsLow (L : List Nat) (s t : State) : Prop := ∀ a, a < 0x1000000 → a ∉ L → reg t a = reg s a

theorem keepsLow_refl (L : List Nat) (s : State) : keepsLow L s s := fun _ _ _ => rfl

theorem keepsLow.trans {L : List Nat} {s t u : State} (h : keepsLow L s t) (h' : keepsLow L t u) : keepsLow L s u :=
  fun a ha hL => (h' a ha hL).trans (h a ha hL)

theorem keepsLow.mono {L L' : List Nat} {s t : State} (h : keepsLow L s t) (hsub : L ⊆ L') : keepsLow L' s t :=
  fun a ha hL => h a ha fun hmem => hL (hsub hmem)

theorem keepsRegs.low {L : List Nat} {s t : State} (h : keepsRegs L s t) : keepsLow L s t := fun a _ hL => h a hL

theorem keepsLow.bits {L : List Nat} {s t : State} (h : keepsLow L s t) {a : Nat} (ha : a < 0x1000000) (hL : a ∉ L) (lo n : Nat) :
    bits t a lo n = bits s a lo n := congrArg (bitsOf · lo n) (h a ha hL)

theorem keepsLow.bit {L : List Nat} {s t : State} (h : keepsLow L s t) {a : Nat} (ha : a < 0x1000000) (hL : a ∉ L) (i : Nat) :
    bit t a i = bit s a i := congrArg (fun w => BitVec.getLsbD w i) (h a ha hL)

/-! ## HOLD (R264) -/

theorem disableForces_moved (n : Nat) (s : State) :
    keepsLow [] s (disableForces n s) ∧ ∃ g, disableForces n s = { s with regs := g } := by
  have h (l : List (Nat × Word)) (u : State) :
      keepsLow [] u (l.foldl (fun acc x => setBit acc (R.cluForce n x.1) 31 false) u) ∧
        ∃ g, l.foldl (fun acc x => setBit acc (R.cluForce n x.1) 31 false) u = { u with regs := g } := by
    induction l generalizing u with
    | nil => exact ⟨keepsLow_refl _ u, u.regs, rfl⟩
    | cons x l ih =>
      obtain ⟨hk, g, e⟩ := ih (setBit u (R.cluForce n x.1) 31 false)
      have hone : keepsLow [] u (setBit u (R.cluForce n x.1) 31 false) := fun a ha _ =>
        reg_setBit_ne _ _ _ _ _ (by simp only [R.cluForce]; omega)
      exact ⟨hone.trans hk, g, e⟩
  exact h _ s

/-- The first `n` clusters of reach `r` have gone to HOLD. -/
def clustersHeld (r n : Nat) (s : State) : State :=
  (List.range n).foldl (fun acc k =>
    disableForces (8 * r + k) (setClu acc (8 * r + k) (heldCluster (clu acc (8 * r + k))))) s

theorem clustersHeld_moved (r n : Nat) (s : State) :
    keepsLow [] s (clustersHeld r n s) ∧ (∃ g c, clustersHeld r n s = { s with regs := g, clusters := c }) ∧
      ∀ j, clu (clustersHeld r n s) j = if 8 * r ≤ j ∧ j < 8 * r + n then heldCluster (clu s j) else clu s j := by
  induction n with
  | zero => exact ⟨keepsLow_refl _ s, ⟨s.regs, s.clusters, rfl⟩, fun j => (if_neg (by omega)).symm⟩
  | succ n ih =>
    obtain ⟨hk, ⟨g, c, e⟩, hc⟩ := ih
    have hstep : clustersHeld r (n + 1) s = disableForces (8 * r + n)
        (setClu (clustersHeld r n s) (8 * r + n) (heldCluster (clu (clustersHeld r n s) (8 * r + n)))) := by
      rw [clustersHeld, List.range_succ, List.foldl_append, ← clustersHeld]
      rfl
    obtain ⟨hk', g', e'⟩ := disableForces_moved (8 * r + n)
      (setClu (clustersHeld r n s) (8 * r + n) (heldCluster (clu (clustersHeld r n s) (8 * r + n))))
    rw [hstep]
    refine ⟨hk.trans (keepsLow.trans (fun a _ _ => rfl) hk'), ⟨g', (setClu (clustersHeld r n s) (8 * r + n)
      (heldCluster (clu (clustersHeld r n s) (8 * r + n)))).clusters, ?_⟩, fun j => ?_⟩
    · rw [e']
      generalize clustersHeld r n s = v at *
      subst e
      rfl
    · rw [e']
      have hset : clu { setClu (clustersHeld r n s) (8 * r + n) (heldCluster (clu (clustersHeld r n s) (8 * r + n)))
          with regs := g' } j = if j = 8 * r + n then heldCluster (clu (clustersHeld r n s) (8 * r + n))
            else clu (clustersHeld r n s) j := clu_setClu _ _ _ _
      rw [hset]
      by_cases hj : j = 8 * r + n
      · rw [if_pos hj, hc, if_neg (by omega), if_pos (by omega), hj]
      · rw [if_neg hj, hc]
        exact if_congr (by omega) rfl rfl

/-- What the entry into HOLD of reach `r` leaves. -/
structure EntersHold (r : Nat) (s t : State) : Prop where
  regs : keepsLow (R.ldReach :: clkRegs) s t
  reach : ∀ b, b < 32 → bit t R.ldReach b = (bit s R.ldReach b || decide (b = 16 + r))
  clusters : ∀ j, clu t j = if j / 8 = r then heldCluster (clu s j) else clu s j
  frame : ∃ g c p, t = { s with regs := g, clusters := c, pwr := p }

theorem ldReach_notin_clkRegs : R.ldReach ∉ clkRegs := by decide

theorem bit_setBit_if (s : State) (a i b : Nat) (v : Bool) (hi : i < 32) :
    bit (setBit s a i v) a b = if b = i then v else bit s a b := by
  by_cases h : b = i
  · rw [if_pos h, h, bit_setBit _ _ _ _ hi]
  · rw [if_neg h, bit_setBit_ne _ _ _ _ _ _ (.inr h)]

theorem enterHold_enters {r : Nat} (hr : r < 16) (s : State) : EntersHold r s (enterHold r s) := by
  obtain ⟨hk, ⟨g, c, e⟩, hc⟩ := clustersHeld_moved r 8 s
  have hregs : keepsLow (R.ldReach :: clkRegs) s (setBit (clustersHeld r 8 s) R.ldReach (16 + r) true) :=
    (hk.mono (List.nil_subset _)).trans (((keepsRegs_refl _ _).setBit List.mem_cons_self _ _).low)
  have hreach (b : Nat) (_ : b < 32) : bit (setBit (clustersHeld r 8 s) R.ldReach (16 + r) true) R.ldReach b
      = (bit s R.ldReach b || decide (b = 16 + r)) := by
    rw [bit_setBit_if _ _ _ _ _ (by omega), hk.bit (by decide) (by simp)]
    by_cases h : b = 16 + r
    · simp [h]
    · simp [h]
  have hclu (j : Nat) : clu (setBit (clustersHeld r 8 s) R.ldReach (16 + r) true) j
      = if j / 8 = r then heldCluster (clu s j) else clu s j := by
    rw [clu_setBit, hc]
    exact if_congr (by omega) rfl rfl
  have hframe : ∃ g c, setBit (clustersHeld r 8 s) R.ldReach (16 + r) true = { s with regs := g, clusters := c } := by
    generalize clustersHeld r 8 s = v at *
    subst e
    exact ⟨_, c, rfl⟩
  have hrun : enterHold r s = if clkFree (setBit (clustersHeld r 8 s) R.ldReach (16 + r) true) r
      then clkOpportunity r (setBit (clustersHeld r 8 s) R.ldReach (16 + r) true)
      else setBit (clustersHeld r 8 s) R.ldReach (16 + r) true := rfl
  rw [hrun]
  generalize setBit (clustersHeld r 8 s) R.ldReach (16 + r) true = u at *
  obtain ⟨g', c', e'⟩ := hframe
  split
  · obtain ⟨hk', g2, p2, e2⟩ := clkOpportunity_moved hr u
    refine ⟨hregs.trans (hk'.low.mono (List.subset_cons_self ..)), fun b hb => ?_, fun j => ?_, ⟨g2, c', p2, ?_⟩⟩
    · rw [hk'.bit ldReach_notin_clkRegs, hreach b hb]
    · rw [e2]
      exact hclu j
    · rw [e2, e']
  · exact ⟨hregs, hreach, hclu, ⟨g', c', s.pwr, e'⟩⟩

theorem EntersHold.inHold {r : Nat} {s t : State} (h : EntersHold r s t) (hr : r < 16) : inHold t r = true := by
  rw [Machine.inHold, h.reach _ (by omega)]
  simp

theorem EntersHold.reachValid {r : Nat} {s t : State} (h : EntersHold r s t) {q : Nat} (hq : q < 16) :
    reachValid t q = reachValid s q := by
  rw [Machine.reachValid, h.reach _ (by omega), decide_eq_false (by omega), Bool.or_false]
  rfl

theorem EntersHold.inHold_other {r : Nat} {s t : State} (h : EntersHold r s t) {q : Nat} (hq : q < 16) (hne : q ≠ r) :
    Machine.inHold t q = Machine.inHold s q := by
  rw [Machine.inHold, h.reach _ (by omega), decide_eq_false (by omega), Bool.or_false]
  rfl

/-! ## An invalid reach -/

/-- What is left when the instruction memories of reach `r` become invalid. -/
structure Invalidates (r : Nat) (s t : State) : Prop where
  regs : keepsRegs [R.ldReach] s t
  reach : ∀ b, bit t R.ldReach b = (bit s R.ldReach b && !decide (b = r))
  clusters : ∀ j, clu t j = if reachValid s r = true ∧ j / 8 = r then { clu s j with pending := [] } else clu s j
  frame : ∃ g c, t = { s with regs := g, clusters := c }

theorem dropWaiting_frame (r : Nat) (s : State) : dropWaiting r s = { s with clusters := (dropWaiting r s).clusters } := by
  have h (l : List Nat) (u : State) :
      l.foldl (fun acc k => setClu acc (8 * r + k) { clu acc (8 * r + k) with pending := [] }) u
        = { u with clusters := (l.foldl (fun acc k => setClu acc (8 * r + k) { clu acc (8 * r + k) with pending := [] }) u).clusters } := by
    induction l generalizing u with
    | nil => rfl
    | cons x l ih =>
      rw [List.foldl_cons, ih]
      rfl
  exact h _ s

theorem invalidate_invalidates {r : Nat} (hr : r < 32) (s : State) : Invalidates r s (invalidate r s) := by
  have hdrop : ∃ c, (if reachValid s r then dropWaiting r s else s) = { s with clusters := c } := by
    split
    · exact ⟨_, dropWaiting_frame r s⟩
    · exact ⟨s.clusters, rfl⟩
  obtain ⟨c, e⟩ := hdrop
  have hrun : invalidate r s = setBit { s with clusters := c } R.ldReach r false := by rw [invalidate, e]
  refine ⟨?_, fun b => ?_, fun j => clu_invalidate r j s, ⟨_, c, hrun⟩⟩
  · rw [hrun]
    exact (keepsRegs_refl _ s).setBit (t := { s with clusters := c }) List.mem_cons_self _ _
  · rw [hrun, bit_setBit_if _ _ _ _ _ hr]
    by_cases h : b = r
    · simp [h]
    · simp [h]
      rfl

theorem Invalidates.invalid {r : Nat} {s t : State} (h : Invalidates r s t) : reachValid t r = false := by
  rw [reachValid, h.reach]
  simp

theorem Invalidates.inHold {r : Nat} {s t : State} (h : Invalidates r s t) (hr : r < 16) (q : Nat) : inHold t q = inHold s q := by
  rw [Machine.inHold, h.reach, decide_eq_false (by omega), Bool.not_false, Bool.and_true]
  rfl

theorem Invalidates.reachValid_other {r : Nat} {s t : State} (h : Invalidates r s t) {q : Nat} (hq : q ≠ r) :
    reachValid t q = reachValid s q := by
  rw [reachValid, h.reach, decide_eq_false hq, Bool.not_false, Bool.and_true]
  rfl

/-! ## A reload that fails (R275) -/

/-- The registers outside the clusters that a failing reload writes. -/
def failRegs : List Nat := R.ldReloadStatus :: R.ldReloadFree :: R.glbIrqCauseHi :: R.ldReach :: clkRegs

/-- The reach of the reload stands in HOLD, invalid. -/
structure ReachEnded (r : Nat) (s t : State) : Prop where
  regs : keepsLow (R.ldReach :: clkRegs) s t
  inHold : inHold t r = true
  invalid : reachValid t r = false
  others : ∀ q, q < 16 → q ≠ r → Machine.inHold t q = Machine.inHold s q ∧ reachValid t q = reachValid s q
  clusters : ∀ j, clu t j = if Machine.inHold s r = true
    then (if reachValid s r = true ∧ j / 8 = r then { clu s j with pending := [] } else clu s j)
    else (if j / 8 = r then heldCluster (clu s j) else clu s j)
  frame : ∃ g c p, t = { s with regs := g, clusters := c, pwr := p }

theorem reachEnded_held {r : Nat} (hr : r < 16) {s : State} (h : inHold s r = true) : ReachEnded r s (invalidate r s) := by
  have hi := invalidate_invalidates (r := r) (by omega) s
  obtain ⟨g, c, e⟩ := hi.frame
  refine ⟨hi.regs.low.mono (by simp), (hi.inHold hr r).trans h, hi.invalid,
    fun q _ hne => ⟨hi.inHold hr q, hi.reachValid_other hne⟩, fun j => ?_, ⟨g, c, s.pwr, e⟩⟩
  rw [if_pos h]
  exact hi.clusters j

theorem reachEnded_running {r : Nat} (hr : r < 16) {s : State} (h : inHold s r = false) :
    ReachEnded r s (invalidate r (enterHold r s)) := by
  have he := enterHold_enters hr s
  have hi := invalidate_invalidates (r := r) (by omega) (enterHold r s)
  obtain ⟨g, c, p, e⟩ := he.frame
  obtain ⟨g', c', e'⟩ := hi.frame
  refine ⟨he.regs.trans (hi.regs.low.mono (by simp)), (hi.inHold hr r).trans (he.inHold hr), hi.invalid,
    fun q hq hne => ⟨(hi.inHold hr q).trans (he.inHold_other hq hne), (hi.reachValid_other hne).trans (he.reachValid hq)⟩,
    fun j => ?_, ⟨g', c', p, by rw [e', e]⟩⟩
  rw [if_neg (by simp [h]), hi.clusters, he.clusters]
  by_cases hj : j / 8 = r
  · rw [if_pos hj]
    split <;> rfl
  · rw [if_neg hj, if_neg fun hc => hj hc.2]

/-- The status of a failed reload is shown, and its stream is gone. -/
def reloadEnded (code : Nat) (s : State) : State :=
  raiseCause 34 { setBits (setBits (setBits s R.ldReloadStatus 28 4 5) R.ldReloadStatus 16 8 code) R.ldReloadFree 0 13 4096
    with rl := { cells := s.rl.cells } }

/-- The registers of a reload that a failure writes. -/
def endedRegs : List Nat := [R.ldReloadStatus, R.ldReloadFree, R.glbIrqCauseHi]

theorem reloadEnded_keeps (code : Nat) (s : State) : keepsRegs endedRegs s (reloadEnded code s) := by
  have hshown : keepsRegs endedRegs s
      { setBits (setBits (setBits s R.ldReloadStatus 28 4 5) R.ldReloadStatus 16 8 code) R.ldReloadFree 0 13 4096
        with rl := { cells := s.rl.cells } } :=
    (((keepsRegs_refl _ s).setBits (by simp [endedRegs]) 28 4 5).setBits (by simp [endedRegs]) 16 8 code).setBits
      (by simp [endedRegs]) 0 13 4096
  exact hshown.trans ((raiseCause_keeps 34 _).mono (by decide))

theorem reloadEnded_shown {code : Nat} (hc : code < 256) (s : State) :
    rlState (reloadEnded code s) = 5 ∧ bits (reloadEnded code s) R.ldReloadStatus 16 8 = code ∧
      bits (reloadEnded code s) R.ldReloadFree 0 13 = 4096 ∧ causeBit (reloadEnded code s) 34 = true := by
  have hkeep := raiseCause_keeps 34
    { setBits (setBits (setBits s R.ldReloadStatus 28 4 5) R.ldReloadStatus 16 8 code) R.ldReloadFree 0 13 4096
      with rl := { cells := s.rl.cells } }
  have hne : R.ldReloadStatus ≠ R.ldReloadFree := by decide
  refine ⟨?_, ?_, ?_, causeBit_raiseCause 34 _⟩
  · refine (hkeep.bits (by decide) 28 4).trans ?_
    refine (bits_setBits_ne _ _ _ _ _ _ _ _ (.inl hne)).trans ?_
    rw [bits_setBits_ne _ _ _ _ _ _ _ _ (by omega), bits_setBits _ _ _ _ _ (by omega), Nat.mod_eq_of_lt (by decide)]
  · refine (hkeep.bits (by decide) 16 8).trans ?_
    refine (bits_setBits_ne _ _ _ _ _ _ _ _ (.inl hne)).trans ?_
    rw [bits_setBits _ _ _ _ _ (by omega), Nat.mod_eq_of_lt (a := code) (b := 2 ^ 8) hc]
  · refine (hkeep.bits (by decide) 0 13).trans ?_
    exact bits_setBits _ _ _ _ _ (by omega)

theorem reloadEnded_frame (code : Nat) (s : State) :
    ∃ g l, reloadEnded code s = { s with regs := g, rl := { cells := s.rl.cells }, pcie := { s.pcie with rising := l } } := by
  obtain ⟨g, l, e⟩ := raiseCause_frame 34
    { setBits (setBits (setBits s R.ldReloadStatus 28 4 5) R.ldReloadStatus 16 8 code) R.ldReloadFree 0 13 4096
      with rl := { cells := s.rl.cells } }
  exact ⟨g, l, e⟩

/-- What a reload that fails leaves. -/
structure ReloadFailed (code : Nat) (s t : State) : Prop where
  state : rlState t = 5
  code : bits t R.ldReloadStatus 16 8 = code
  cause : causeBit t 34 = true
  free : bits t R.ldReloadFree 0 13 = 4096
  inHold : inHold t (rlReach s) = true
  invalid : reachValid t (rlReach s) = false
  others : ∀ q, q < 16 → q ≠ rlReach s → Machine.inHold t q = Machine.inHold s q ∧ reachValid t q = reachValid s q
  rl : t.rl = { cells := t.rl.cells }
  cells : Machine.inHold s (rlReach s) = true ∨ s.rl.left = true → t.rl.cells = s.rl.cells
  raised : ¬ (Machine.inHold s (rlReach s) = true ∨ s.rl.left = true) → (find t.rl.cells (rlReach s)).isSome = true
  clusters : ∀ j, clu t j = if Machine.inHold s (rlReach s) = true
    then (if reachValid s (rlReach s) = true ∧ j / 8 = rlReach s then { clu s j with pending := [] } else clu s j)
    else (if j / 8 = rlReach s then heldCluster (clu s j) else clu s j)
  regs : keepsLow failRegs s t
  frame : ∃ g c p x l, t = { s with regs := g, clusters := c, pwr := p, rl := x, pcie := { s.pcie with rising := l } }

theorem rlReach_lt (s : State) : rlReach s < 16 := bitsOf_lt _ _ _

theorem find_enter_self {α : Type} (m : Sparse α) (k : Nat) (v : α) : find (enter m k v) k = some v :=
  (find_enter m k v k).trans (if_pos rfl)

theorem reloadFails_failed {code : Nat} (hc : code < 256) (s : State) : ReloadFailed code s (reloadFails code s) := by
  have hr := rlReach_lt s
  obtain ⟨x, hx, hcells, hraised⟩ : ∃ x, (if inHold s (rlReach s) = true ∨ s.rl.left = true then s
        else raiseBreakwater (rlReach s) false s) = { s with rl := x } ∧
      (inHold s (rlReach s) = true ∨ s.rl.left = true → x.cells = s.rl.cells) ∧
      (¬ (inHold s (rlReach s) = true ∨ s.rl.left = true) → (find x.cells (rlReach s)).isSome = true) := by
    by_cases h : inHold s (rlReach s) = true ∨ s.rl.left = true
    · exact ⟨s.rl, if_pos h, fun _ => rfl, fun hn => absurd h hn⟩
    · exact ⟨(raiseBreakwater (rlReach s) false s).rl, if_neg h, fun hy => absurd hy h,
        fun _ => congrArg Option.isSome (find_enter_self _ _ _)⟩
  obtain ⟨u, hu, hend⟩ : ∃ u, invalidate (rlReach s)
      (if inHold { s with rl := x } (rlReach s) then { s with rl := x } else enterHold (rlReach s) { s with rl := x }) = u ∧
      ReachEnded (rlReach s) { s with rl := x } u := by
    refine ⟨_, rfl, ?_⟩
    cases h : inHold s (rlReach s) with
    | true =>
      rw [if_pos (show inHold { s with rl := x } (rlReach s) = true from h)]
      exact reachEnded_held hr h
    | false =>
      rw [if_neg (show ¬ inHold { s with rl := x } (rlReach s) = true by rw [show inHold { s with rl := x } (rlReach s) = false from h]; decide)]
      exact reachEnded_running hr h
  have hrun : reloadFails code s = reloadEnded code u := by
    rw [← hu, ← hx]
    rfl
  have hkeep := reloadEnded_keeps code u
  obtain ⟨g, c, p, eu⟩ := hend.frame
  obtain ⟨g', l, et⟩ := reloadEnded_frame code u
  obtain ⟨hstate, hcode, hfree, hcause⟩ := reloadEnded_shown hc u
  have hreach (q : Nat) : inHold (reloadEnded code u) q = inHold u q ∧ reachValid (reloadEnded code u) q = reachValid u q :=
    ⟨hkeep.bit (by decide) _, hkeep.bit (by decide) _⟩
  have hrl : (reloadEnded code u).rl = { cells := x.cells } := by rw [et, eu]
  rw [hrun]
  refine ⟨hstate, hcode, hcause, hfree, (hreach _).1.trans hend.inHold, (hreach _).2.trans hend.invalid, fun q hq hne => ?_,
    ?_, fun h => ?_, fun h => ?_, fun j => ?_, ?_, ⟨g', c, p, { cells := x.cells }, l, ?_⟩⟩
  · exact ⟨(hreach q).1.trans (hend.others q hq hne).1, (hreach q).2.trans (hend.others q hq hne).2⟩
  · rw [hrl]
  · rw [hrl]
    exact hcells h
  · rw [hrl]
    exact hraised h
  · rw [et]
    exact hend.clusters j
  · exact keepsLow.trans (fun a ha hL => hend.regs a ha fun hm => hL (List.mem_of_mem_drop (i := 3) hm)) (hkeep.low.mono (by decide))
  · rw [et, eu]

end Sys2Proof.Machine
end

/-! # The reload window and its feed -/

section
namespace Sys2Proof.Machine
set_option Elab.async false

/-! ## The window -/

theorem rlState_setRl (x : Reload) (s : State) : rlState (setRl x s) = rlState s :=
  bits_setBits_ne { s with rl := x } _ _ _ _ _ _ _ (.inl (by decide))

theorem rlSource_setRl (x : Reload) (s : State) : rlSource (setRl x s) = rlSource s :=
  bits_setBits_ne { s with rl := x } _ _ _ _ _ _ _ (.inl (by decide))

theorem setRl_free (x : Reload) (s : State) : bits (setRl x s) R.ldReloadFree 0 13 = 4096 - x.window.length :=
  (bits_setBits { s with rl := x } _ _ _ _ (by decide)).trans (Nat.mod_eq_of_lt (by omega))

theorem setRl_keeps (x : Reload) (s : State) : keepsRegs [R.ldReloadFree] s (setRl x s) :=
  (keepsRegs_refl _ s).setBits (t := { s with rl := x }) (List.mem_singleton_self _) _ _ _

theorem consumeWindow_idle {s : State} (h : rlState s ≠ 2) : consumeWindow s = s := if_neg h

theorem windowAppend_entering {s : State} (h : rlState s = 1) (bs : List Byte) :
    windowAppend bs s = setRl { s.rl with window := s.rl.window ++ bs } s :=
  consumeWindow_idle (by rw [rlState_setRl, h]; decide)

/-- The party of a window write: a source of 2 is Harbour itself, and the others act as their party. -/
theorem reloadWindowWrite_acts {src : Fin 3} (s t : State) (hh : src.val = 0 → partyActs s .host = true)
    (hl : src.val = 1 → partyActs s .lighthouse = true) :
    (if src.val = 2 then t else performed (if src.val = 0 then .host else .lighthouse) s t) = t := by
  by_cases h2 : src.val = 2
  · exact if_pos h2
  · rw [if_neg h2]
    by_cases h0 : src.val = 0
    · rw [if_pos h0, performed_acts (hh h0)]
    · rw [if_neg h0, performed_acts (hl (by omega))]

theorem reloadWindowWrite_enters {src : Fin 3} {v : Word} {s : State} (hh : src.val = 0 → partyActs s .host = true)
    (hl : src.val = 1 → partyActs s .lighthouse = true) (hs : rlSource s = src) (h1 : rlState s = 1)
    (hroom : s.rl.window.length + 4 ≤ 4096) :
    Completes (.reloadWindowWrite src v) s fun t =>
      t.rl = { s.rl with window := s.rl.window ++ bytesLE 4 v.toNat } ∧
      bits t R.ldReloadFree 0 13 = 4092 - s.rl.window.length ∧ keepsRegs [R.ldReloadFree] s t ∧ t.flt = s.flt := by
  have hrun : reloadWindowWrite src v s = setRl { s.rl with window := s.rl.window ++ bytesLE 4 v.toNat } s := by
    rw [reloadWindowWrite, if_neg (not_not_intro hs), windowTakes, h1, if_neg (by decide), if_neg (by omega),
      windowAppend_entering h1]
  refine ⟨_, congrArg Host.Outcome.next ((reloadWindowWrite_acts s _ hh hl).trans hrun), rfl, ?_, setRl_keeps _ s, rfl⟩
  rw [setRl_free, List.length_append, bytesLE_length]
  omega

/-- A discarded write is counted and raises RELOAD_OVERRUN. -/
theorem windowOverrun_counts {src : Fin 3} (s : State) :
    (windowOverrun src s).rl = s.rl ∧ bits (windowOverrun src s) R.ldReloadFree 16 16 = min (bits s R.ldReloadFree 16 16 + 1) 65535 ∧
      (windowOverrun src s).flt.signals = s.flt.signals ++ [⟨235, src, false⟩] ∧ keepsRegs [R.ldReloadFree] s (windowOverrun src s) := by
  refine ⟨?_, ?_, ?_, ((keepsRegs_refl _ s).bumpBits (List.mem_singleton_self _) _ _ _).signal _ _⟩
  · rw [windowOverrun, signal_rl]
    rfl
  · rw [windowOverrun, bits_signal, bits_bumpBits _ _ _ _ _ (by decide)]
    rfl
  · rw [windowOverrun, signals_signal rfl (by decide) (by omega)]
    rfl

theorem reloadWindowWrite_overruns {src : Fin 3} {v : Word} {s : State} (hh : src.val = 0 → partyActs s .host = true)
    (hl : src.val = 1 → partyActs s .lighthouse = true)
    (h : rlSource s ≠ src ∨ (rlSource s = src ∧ windowTakes s = true ∧ src.val ≠ 2 ∧ 4096 < s.rl.window.length + 4)) :
    Completes (.reloadWindowWrite src v) s fun t =>
      t.rl = s.rl ∧ bits t R.ldReloadFree 16 16 = min (bits s R.ldReloadFree 16 16 + 1) 65535 ∧
      t.flt.signals = s.flt.signals ++ [⟨235, src, false⟩] ∧ keepsRegs [R.ldReloadFree] s t := by
  have hrun : reloadWindowWrite src v s = windowOverrun src s := by
    rw [reloadWindowWrite]
    rcases h with h | ⟨h, ht, h2, hfull⟩
    · rw [if_pos h]
    · rw [if_neg (not_not_intro h), ht, if_neg (by decide), if_pos hfull, if_neg h2]
  exact ⟨_, congrArg Host.Outcome.next ((reloadWindowWrite_acts s _ hh hl).trans hrun), windowOverrun_counts s⟩

theorem reloadWindowWrite_waits {v : Word} {s : State} (hs : rlSource s = 2) (ht : windowTakes s = true)
    (hfull : 4096 < s.rl.window.length + 4) : exec (.reloadWindowWrite 2 v) s = .next s := by
  have hrun : reloadWindowWrite 2 v s = s := by
    rw [reloadWindowWrite, if_neg (not_not_intro hs), ht, if_neg (by decide), if_pos hfull, if_pos rfl]
  exact congrArg Host.Outcome.next hrun

/-- A stream without its whole header waits for more. -/
theorem reloadAdvance_headerless {s : State} (ht : s.rl.tableOk = false) (hh : headerHere s.rl.data = false) :
    reloadAdvance s = s := by
  have hone : (if rlState s = 2 ∧ s.rl.tableOk = true then reloadSection s else s) = s :=
    if_neg fun hc => absurd (ht.symm.trans hc.2) (by decide)
  have hstep : ∀ n, forUpTo n (fun _ acc => if rlState acc = 2 ∧ acc.rl.tableOk = true then reloadSection acc else acc) s = s :=
    forUpTo_fixed (f := fun _ acc => if rlState acc = 2 ∧ acc.rl.tableOk = true then reloadSection acc else acc) fun _ => hone
  have hfirst : (if rlState s = 2 ∧ s.rl.tableOk = false then reloadTable s else s) = s := by
    have htable : reloadTable s = s := by
      rw [reloadTable, hh]
      rfl
    rw [htable, ite_self]
  rw [reloadAdvance, hfirst]
  dsimp only
  rw [hstep]
  exact if_neg fun hc => absurd (ht.symm.trans hc.2.1) (by decide)

theorem windowAppend_headerless {s : State} {bs : List Byte} (h2 : rlState s = 2) (ht : s.rl.tableOk = false)
    (hh : headerHere (s.rl.data ++ (s.rl.window ++ bs)) = false) :
    windowAppend bs s = setRl { s.rl with data := s.rl.data ++ (s.rl.window ++ bs), window := [] }
      (setRl { s.rl with window := s.rl.window ++ bs } s) := by
  have hd : (if headerHere (s.rl.data ++ (s.rl.window ++ bs)) then
      (s.rl.data ++ (s.rl.window ++ bs)).take (imageLength (s.rl.data ++ (s.rl.window ++ bs)))
      else s.rl.data ++ (s.rl.window ++ bs)) = s.rl.data ++ (s.rl.window ++ bs) := if_neg (by rw [hh]; decide)
  have hconsume : windowAppend bs s = reloadAdvance (setRl { s.rl with
      data := if headerHere (s.rl.data ++ (s.rl.window ++ bs)) then
        (s.rl.data ++ (s.rl.window ++ bs)).take (imageLength (s.rl.data ++ (s.rl.window ++ bs)))
        else s.rl.data ++ (s.rl.window ++ bs)
      window := [] } (setRl { s.rl with window := s.rl.window ++ bs } s)) :=
    if_pos ((rlState_setRl _ s).trans h2)
  rw [hconsume, hd]
  exact reloadAdvance_headerless ht hh

theorem reloadWindowWrite_consumed {src : Fin 3} {v : Word} {s : State} (hh : src.val = 0 → partyActs s .host = true)
    (hl : src.val = 1 → partyActs s .lighthouse = true) (hs : rlSource s = src) (h2 : rlState s = 2)
    (hroom : s.rl.window.length + 4 ≤ 4096) (ht : s.rl.tableOk = false)
    (hd : headerHere (s.rl.data ++ (s.rl.window ++ bytesLE 4 v.toNat)) = false) :
    Completes (.reloadWindowWrite src v) s fun t =>
      t.rl = { s.rl with data := s.rl.data ++ (s.rl.window ++ bytesLE 4 v.toNat), window := [] } ∧
      bits t R.ldReloadFree 0 13 = 4096 ∧ keepsRegs [R.ldReloadFree] s t ∧ t.flt = s.flt := by
  have hrun : reloadWindowWrite src v s = _ :=
    (show reloadWindowWrite src v s = windowAppend (bytesLE 4 v.toNat) s by
      rw [reloadWindowWrite, if_neg (not_not_intro hs), windowTakes, h2, if_neg (by decide), if_neg (by omega)]).trans
    (windowAppend_headerless h2 ht hd)
  exact ⟨_, congrArg Host.Outcome.next ((reloadWindowWrite_acts s _ hh hl).trans hrun), rfl, setRl_free _ _,
    (setRl_keeps _ s).trans (setRl_keeps _ _), rfl⟩

theorem reloadEnd_fails {s : State} (ht : windowTakes s = true) (hh : headerHere (s.rl.data ++ s.rl.window) = false)
    (hl : s.rl.left = false) (hr : inHold s (rlReach s) = false) :
    Completes .reloadEnd s fun t =>
      rlState t = 5 ∧ bits t R.ldReloadStatus 16 8 = 0x16 ∧ causeBit t 34 = true ∧
      (find t.rl.cells (rlReach s)).isSome = true ∧ inHold t (rlReach s) = true := by
  have hrun : reloadEnd s = reloadFails 0x16 s := if_pos ⟨ht, .inl hh⟩
  have h := reloadFails_failed (code := 0x16) (by decide) s
  exact ⟨_, congrArg Host.Outcome.next hrun, h.state, h.code, h.cause, h.raised (by simp [hr, hl]), h.inHold⟩

/-! ## The feed -/

theorem reloadFeed_moves {s : State} {x : HbAction} (hw : windowRequest s = none) (ha : s.hb.actions = [x]) (h3 : x.action = 3)
    (hm : canMove s x = true) : reloadFeed s = if x.phase = .waiting then feedStart x s else moveOn x s := by
  rw [reloadFeed, hw]
  dsimp only
  rw [movable_one ha h3 hm]

theorem setAction_only {s : State} {x : HbAction} (ha : s.hb.actions = [x]) (p : HbPhase) :
    setAction x p s = { s with hb := { s.hb with actions := [{ x with phase := p }] } } := by
  have h := setAction_one ha p
  exact congrArg (fun y => { s with hb := y }) h

theorem reloadFeed_starts {s : State} {x : HbAction} (hw : windowRequest s = none) (ha : s.hb.actions = [x]) (h3 : x.action = 3)
    (hp : x.phase = .waiting) (hr : rangeStatus s false (slotValue x.task 0) (slotValue x.task 1) = 0) :
    exec .reloadFeed s = .next { s with hb := { s.hb with
      actions := [{ x with phase := if rlSource s = 2 then .moving 0 else .ended 5 }] } } := by
  refine congrArg Host.Outcome.next (?_ : reloadFeed s = _)
  rw [reloadFeed_moves hw ha h3 (by rw [canMove, hp]), if_pos hp, feedStart]
  dsimp only
  rw [if_neg (not_not_intro hr), setAction_only ha]
  by_cases h2 : rlSource s = 2 <;> simp [h2]

theorem reloadFeed_fetches {s : State} {x : HbAction} {k b o : Nat} (hw : windowRequest s = none) (ha : s.hb.actions = [x])
    (h3 : x.action = 3) (hp : x.phase = .moving k) (hk : k < moveWords x)
    (hb : hbRange (slotValue x.task 0 + 8 * k) = .service b o) :
    exec .reloadFeed s = .next { s with hb := { s.hb with
      actions := [{ x with phase := .holding k (readDWord (serviceMem s b) o) }] } } := by
  refine congrArg Host.Outcome.next (?_ : reloadFeed s = _)
  rw [reloadFeed_moves hw ha h3 (by rw [canMove, hp]), if_neg (by simp [hp]), moveOn, hp]
  dsimp only
  rw [if_neg (by omega), moveFetch, wordRequest, hb]
  dsimp only
  rw [hbTouch, hb, hbReadWord, hb]
  exact setAction_only ha _

theorem hbRequest_rl {vc kind dst tag : Nat} {payload : List DWord} {s : State} (h : routeValid s 134 dst = true) :
    (hbRequest vc kind dst tag payload s).rl = s.rl := by
  have hn : hbRequest vc kind dst tag payload s = inject 134 (mkPacket vc kind (routeCodes s 134 dst) 152 dst tag 0 0 payload)
      (setNi s 134 { ni s 134 with outstanding := (ni s 134).outstanding ++ [⟨tag, dst, none, 1⟩] }) := if_pos h
  obtain ⟨g, y, d, b, e, -⟩ := inject_frame 134 (mkPacket vc kind (routeCodes s 134 dst) 152 dst tag 0 0 payload)
    (setNi s 134 { ni s 134 with outstanding := (ni s 134).outstanding ++ [⟨tag, dst, none, 1⟩] }) (sealHead_mkPacket _ _ _ _ _ _ _ _ _)
  rw [hn, e]
  rfl

theorem reloadFeed_stores {s : State} {x : HbAction} {k g : Nat} {w : DWord} (hw : windowRequest s = none)
    (ha : s.hb.actions = [x]) (h3 : x.action = 3) (hp : x.phase = .holding k w) (ht : hbTag s = some g)
    (hr : routeValid s 134 155 = true) :
    Completes .reloadFeed s fun t =>
      t.hb = { s.hb with actions := [{ x with phase := .writing k g }] } ∧
      (ni t 134).outstanding = (ni s 134).outstanding ++ [⟨g, 155, none, 1⟩] ∧ t.rl = s.rl := by
  have hrun : reloadFeed s = setAction x (.writing k g) (hbRequest 1 1 155 g [bankHeader true 0 0, w] s) := by
    rw [reloadFeed_moves hw ha h3 (by rw [canMove, hp]), if_neg (by simp [hp]), moveOn, hp]
    dsimp only
    rw [moveStore, if_pos h3, ht]
  have h := hbRequest_requested (vc := 1) (kind := 1) (tag := g) (payload := [bankHeader true 0 0, w]) hr
  have hrl := hbRequest_rl (vc := 1) (kind := 1) (tag := g) (payload := [bankHeader true 0 0, w]) hr
  exact ⟨_, congrArg Host.Outcome.next hrun, h.setAction ha _, h.outstanding, hrl⟩

theorem reloadFeed_serves {s : State} {p : Packet} (hp : windowRequest s = some p) (hs : rlSource s = 2) (h1 : rlState s = 1) :
    Completes .reloadFeed s fun t =>
      t.rl.window = s.rl.window ++
        ((p.payload.drop 1).take (2 ^ bitsOf (p.payload.headD 0) 60 2)).flatMap (fun w => bytesLE 8 w.toNat) ∧
      (ni t 135).requests = (ni s 135).requests.erase p ∧ t.hb = s.hb ∧ t.flt = s.flt := by
  have hrun : reloadFeed s = respond 135 p 3 [] (setRl { s.rl with window := s.rl.window ++
      ((p.payload.drop 1).take (2 ^ bitsOf (p.payload.headD 0) 60 2)).flatMap (fun w => bytesLE 8 w.toNat) }
      (setNi s 135 { ni s 135 with requests := (ni s 135).requests.erase p })) := by
    rw [reloadFeed, hp]
    show windowServe p s = _
    have h1' : rlState (setNi s 135 { ni s 135 with requests := (ni s 135).requests.erase p }) = 1 := h1
    have hs' : rlSource (setNi s 135 { ni s 135 with requests := (ni s 135).requests.erase p }) = 2 := hs
    rw [windowServe]
    dsimp only
    rw [if_neg (not_not_intro hs'), windowTakes, h1', if_pos (by decide), windowAppend_entering h1']
    rfl
  obtain ⟨g, y, d, b, e⟩ := respond_frame 135 p 3 [] (setRl { s.rl with window := s.rl.window ++
      ((p.payload.drop 1).take (2 ^ bitsOf (p.payload.headD 0) 60 2)).flatMap (fun w => bytesLE 8 w.toNat) }
      (setNi s 135 { ni s 135 with requests := (ni s 135).requests.erase p }))
  refine ⟨_, congrArg Host.Outcome.next (hrun.trans e), rfl, ?_, rfl, rfl⟩
  have hni := ni_setNi s 135 { ni s 135 with requests := (ni s 135).requests.erase p } 135
  exact congrArg Ni.requests (hni.trans (if_pos rfl))

/-- Settles O39. -/
theorem reloadStream : Obligations.ReloadStream := by
  unfold Obligations.ReloadStream
  exact ⟨fun src v s hh hl hs h1 hroom => reloadWindowWrite_enters hh hl hs h1 hroom,
    fun src v s hh hl hs => reloadWindowWrite_overruns hh hl (.inl hs),
    fun s ht hh hl hr => reloadEnd_fails ht hh hl hr, fun s x hw ha h3 hp hr => reloadFeed_starts hw ha h3 hp hr,
    fun s x k b o hw ha h3 hp hk hb => reloadFeed_fetches hw ha h3 hp hk hb,
    fun s x k g w hw ha h3 hp ht hr => reloadFeed_stores hw ha h3 hp ht hr, fun s p hp hs h1 => reloadFeed_serves hp hs h1,
    fun src v s hh hl hs ht h2 hfull => reloadWindowWrite_overruns hh hl (.inr ⟨hs, ht, h2, hfull⟩),
    fun v s hs ht hfull => reloadWindowWrite_waits hs ht hfull,
    fun src v s hh hl hs h2 hroom ht hd => reloadWindowWrite_consumed hh hl hs h2 hroom ht hd⟩

end Sys2Proof.Machine
end

/-! # The phases of a reach reload (O38) -/

section
namespace Sys2Proof.Machine
set_option Elab.async false

/-! ## A reload begins, and the reach leaves the run (R273, R274) -/

theorem reloadMayGo_frozen_or_running {s : State} (h : reloadMayGo s = true) : reloadGo s =
    if s.sched.run = .frozen then leaveRun (setRl { leaving := true, cells := s.rl.cells }
        (setBits (setBits s R.ldReloadStatus 28 4 1) R.ldReloadStatus 16 8 0))
      else setRl { leaving := true, cells := s.rl.cells }
        (setBits (setBits s R.ldReloadStatus 28 4 1) R.ldReloadStatus 16 8 0) := if_pos h

/-- The reload has begun: its status shows the wait for the milestone point, and its stream is empty. -/
def reloadBegun (s : State) : State :=
  setRl { leaving := true, cells := s.rl.cells } (setBits (setBits s R.ldReloadStatus 28 4 1) R.ldReloadStatus 16 8 0)

theorem ldReloadStatus_ne_free : R.ldReloadStatus ≠ R.ldReloadFree := by decide

theorem reloadBegun_shown (s : State) :
    rlState (reloadBegun s) = 1 ∧ bits (reloadBegun s) R.ldReloadStatus 16 8 = 0 ∧
      keepsRegs [R.ldReloadStatus, R.ldReloadFree] s (reloadBegun s) := by
  have hfree := setRl_keeps { leaving := true, cells := s.rl.cells }
    (setBits (setBits s R.ldReloadStatus 28 4 1) R.ldReloadStatus 16 8 0)
  refine ⟨(rlState_setRl _ _).trans ?_, (hfree.bits (by decide) 16 8).trans ?_, ?_⟩
  · rw [rlState, bits_setBits_ne _ _ _ _ _ _ _ _ (by omega), bits_setBits _ _ _ _ _ (by omega), Nat.mod_eq_of_lt (by decide)]
  · rw [bits_setBits _ _ _ _ _ (by omega), Nat.zero_mod]
  · exact (((keepsRegs_refl _ s).setBits (by simp) 28 4 1).setBits (by simp) 16 8 0).trans (hfree.mono (by simp))

/-- The network interfaces of the first `n` clusters of reach `r` are asked to quiesce. -/
def quiesced (r n : Nat) (s : State) : State := forUpTo n (fun k acc => setBit acc (R.wfNiCtrl (8 * r + k)) 0 true) s

theorem quiesced_frame (r n : Nat) (s : State) : ∃ g, quiesced r n s = { s with regs := g } := by
  induction n with
  | zero => exact ⟨s.regs, rfl⟩
  | succ n ih =>
    obtain ⟨g, e⟩ := ih
    rw [quiesced, forUpTo_succ, ← quiesced, e]
    exact ⟨_, rfl⟩

theorem quiesced_keeps (r n : Nat) (hn : n ≤ 8) (s : State) :
    keepsRegs ((List.range 8).map fun k => R.wfNiCtrl (8 * r + k)) s (quiesced r n s) := by
  induction n with
  | zero => exact keepsRegs_refl _ s
  | succ n ih =>
    rw [quiesced, forUpTo_succ, ← quiesced]
    exact (ih (by omega)).setBit (List.mem_map.2 ⟨n, List.mem_range.2 (by omega), rfl⟩) _ _

theorem bit_quiesced (r n : Nat) (s : State) : ∀ k, k < n → bit (quiesced r n s) (R.wfNiCtrl (8 * r + k)) 0 = true := by
  induction n with
  | zero => exact fun k hk => absurd hk (by omega)
  | succ n ih =>
    intro k hk
    rw [quiesced, forUpTo_succ, ← quiesced]
    by_cases h : k = n
    · rw [h]
      exact bit_setBit _ _ _ _ (by omega)
    · exact (bit_setBit_ne _ _ _ _ _ _ (.inl (by simp only [R.wfNiCtrl]; omega))).trans (ih k (by omega))

/-- What is left when the reach of the reload has left the run. -/
structure LeftRun (s t : State) : Prop where
  left : t.rl.left = true
  leaving : t.rl.leaving = false
  raised : (find t.rl.cells (rlReach s)).isSome = true
  quiet : ∀ k, k < 8 → bit t (R.wfNiCtrl (8 * rlReach s + k)) 0 = true
  regs : keepsRegs (R.ldReloadFree :: (List.range 8).map fun k => R.wfNiCtrl (8 * rlReach s + k)) s t
  frame : ∃ g x, t = { s with regs := g, rl := x }

theorem leaveRun_left (s : State) : LeftRun s (leaveRun s) := by
  have hrun : leaveRun s = quiesced (rlReach s) 8 (setRl { (raiseBreakwater (rlReach s) false s).rl with
    left := true, leaving := false } (raiseBreakwater (rlReach s) false s)) := rfl
  have hraised : (find (raiseBreakwater (rlReach s) false s).rl.cells (rlReach s)).isSome = true :=
    congrArg Option.isSome (find_enter_self _ _ _)
  have hraise : raiseBreakwater (rlReach s) false s = { s with rl := (raiseBreakwater (rlReach s) false s).rl } := rfl
  rw [hrun]
  generalize raiseBreakwater (rlReach s) false s = u at *
  obtain ⟨g, e⟩ := quiesced_frame (rlReach s) 8 (setRl { u.rl with left := true, leaving := false } u)
  have hrl : (quiesced (rlReach s) 8 (setRl { u.rl with left := true, leaving := false } u)).rl
      = { u.rl with left := true, leaving := false } := by rw [e]; rfl
  refine ⟨by rw [hrl], by rw [hrl], by rw [hrl]; exact hraised, bit_quiesced _ _ _, ?_, ⟨g, { u.rl with left := true, leaving := false }, ?_⟩⟩
  · have hregs : keepsRegs [R.ldReloadFree] s (setRl { u.rl with left := true, leaving := false } u) := by
      have := setRl_keeps { u.rl with left := true, leaving := false } u
      rw [hraise] at this ⊢
      exact this
    exact (hregs.mono (by simp)).trans ((quiesced_keeps _ 8 (by omega) _).mono (List.subset_cons_self ..))
  · rw [e, hraise]
    rfl

theorem reloadGo_running {s : State} (hm : reloadMayGo s = true) (hrun : s.sched.run = .running) :
    Completes .reloadGo s fun t =>
      rlState t = 1 ∧ bits t R.ldReloadStatus 16 8 = 0 ∧ t.rl = { leaving := true, cells := s.rl.cells } ∧
      t.sched = s.sched ∧ keepsRegs [R.ldReloadStatus, R.ldReloadFree] s t := by
  have h : reloadGo s = reloadBegun s := (reloadMayGo_frozen_or_running hm).trans (if_neg (by rw [hrun]; decide))
  obtain ⟨h1, h2, h3⟩ := reloadBegun_shown s
  exact ⟨_, congrArg Host.Outcome.next h, h1, h2, rfl, rfl, h3⟩

theorem reloadGo_frozen {s : State} (hm : reloadMayGo s = true) (hrun : s.sched.run = .frozen) :
    Completes .reloadGo s fun t =>
      rlState t = 1 ∧ bits t R.ldReloadStatus 16 8 = 0 ∧ t.rl.left = true ∧ t.rl.leaving = false ∧
      (find t.rl.cells (rlReach s)).isSome = true ∧
      (∀ k, k < 8 → bit t (R.wfNiCtrl (8 * rlReach s + k)) 0 = true) ∧ t.sched = s.sched ∧ t.clusters = s.clusters ∧
      keepsRegs ([R.ldReloadStatus, R.ldReloadFree] ++ (List.range 8).map fun k => R.wfNiCtrl (8 * rlReach s + k)) s t := by
  have h : reloadGo s = leaveRun (reloadBegun s) := (reloadMayGo_frozen_or_running hm).trans (if_pos hrun)
  obtain ⟨h1, h2, h3⟩ := reloadBegun_shown s
  have hreach : rlReach (reloadBegun s) = rlReach s := h3.bits (by decide) _ _
  have hl := leaveRun_left (reloadBegun s)
  obtain ⟨hleft, hleaving, hraised, hquiet, hregs, g, x, e⟩ := hl
  rw [hreach] at hraised hquiet hregs
  have hstatus : R.ldReloadStatus ∉ R.ldReloadFree :: (List.range 8).map fun k => R.wfNiCtrl (8 * rlReach s + k) := by
    intro hmem
    rcases List.mem_cons.1 hmem with hmem | hmem
    · exact ldReloadStatus_ne_free hmem
    · obtain ⟨k, hk8, hk⟩ := List.mem_map.1 hmem
      have hr := rlReach_lt s
      have hk8 := List.mem_range.1 hk8
      simp only [R.wfNiCtrl, R.ldReloadStatus] at hk
      omega
  refine ⟨_, congrArg Host.Outcome.next h, (hregs.bits hstatus _ _).trans h1, (hregs.bits hstatus _ _).trans h2, hleft, hleaving,
    hraised, hquiet, by rw [e]; rfl, by rw [e]; rfl, ?_⟩
  exact (h3.mono (List.subset_append_left ..)).trans (hregs.mono (List.subset_cons_self ..))

theorem reloadLeaveRun_leaves {s : State} (hl : s.rl.leaving = true) (hr : s.sched.run = .frozen ∨ atMilestonePoint s = true) :
    Completes .reloadLeaveRun s fun t =>
      t.rl.left = true ∧ t.rl.leaving = false ∧ (find t.rl.cells (rlReach s)).isSome = true ∧
      (∀ k, k < 8 → bit t (R.wfNiCtrl (8 * rlReach s + k)) 0 = true) ∧ t.clusters = s.clusters := by
  have h : reloadLeaveRun s = leaveRun s := if_pos ⟨hl, hr⟩
  obtain ⟨hleft, hleaving, hraised, hquiet, -, g, x, e⟩ := leaveRun_left s
  exact ⟨_, congrArg Host.Outcome.next h, hleft, hleaving, hraised, hquiet, by rw [e]⟩

/-! ## The reach in HOLD receives (R275) -/

/-- The first `n` design banks of reach `r` are cleared. -/
def banksCleared (r n : Nat) (s : State) : State :=
  forUpTo n (fun k acc => if bankPresent acc (16 * r + k)
    then setBit (setDesignMem acc (16 * r + k) zeroContents) (R.bankCfg (16 * r + k)) 30 false else acc) s

/-- The registers that the clearing of the banks of reach `r` writes. -/
def bankCfgRegs (r : Nat) : List Nat := (List.range 16).map fun k => R.bankCfg (16 * r + k)

theorem mem_bankCfgRegs {r a : Nat} : a ∈ bankCfgRegs r ↔ ∃ k, k < 16 ∧ 0x00501000 + 0x4 * (16 * r + k) = a := by
  simp [bankCfgRegs]

theorem bankPresent_keeps {r b : Nat} (hb : b < 256) {s t : State} (h : keepsRegs (bankCfgRegs r) s t) :
    bankPresent t b = bankPresent s b := by
  refine h.bit (fun hmem => ?_) _
  obtain ⟨k, -, hk⟩ := mem_bankCfgRegs.1 hmem
  simp only [R.bankPresent] at hk
  omega

/-- What the clearing of the banks of reach `r` leaves. -/
structure BanksCleared (r n : Nat) (s t : State) : Prop where
  regs : keepsRegs (bankCfgRegs r) s t
  mems : ∀ b, designMem t b = if 16 * r ≤ b ∧ b < 16 * r + n ∧ bankPresent s b = true then zeroContents else designMem s b
  frame : ∃ g b, t = { s with regs := g, banks := b }

theorem banksCleared_cleared {r n : Nat} (hr : r < 16) (hn : n ≤ 16) (s : State) : BanksCleared r n s (banksCleared r n s) := by
  induction n with
  | zero => exact ⟨keepsRegs_refl _ s, fun b => (if_neg (by omega)).symm, s.regs, s.banks, rfl⟩
  | succ n ih =>
    obtain ⟨hk, hm, g, b, e⟩ := ih (by omega)
    rw [banksCleared, forUpTo_succ, ← banksCleared]
    have hp : bankPresent (banksCleared r n s) (16 * r + n) = bankPresent s (16 * r + n) := bankPresent_keeps (by omega) hk
    generalize banksCleared r n s = u at *
    cases h : bankPresent s (16 * r + n) with
    | false =>
      rw [if_neg (by rw [hp, h]; decide)]
      refine ⟨hk, fun j => (hm j).trans (if_congr ?_ rfl rfl), g, b, e⟩
      constructor
      · exact fun ⟨h1, h2, h3⟩ => ⟨h1, by omega, h3⟩
      · intro ⟨h1, h2, h3⟩
        refine ⟨h1, ?_, h3⟩
        have : j ≠ 16 * r + n := fun hj => by rw [hj, h] at h3; exact absurd h3 (by decide)
        omega
    | true =>
      rw [if_pos (by rw [hp, h])]
      have hset : keepsRegs (bankCfgRegs r) s (setDesignMem u (16 * r + n) zeroContents) := hk
      refine ⟨hset.setBit (mem_bankCfgRegs.2 ⟨n, by omega, rfl⟩) _ _, fun j => ?_, ⟨_, _, by rw [e]; rfl⟩⟩
      refine (designMem_setDesignMem u (16 * r + n) zeroContents j).trans ?_
      by_cases hj : j = 16 * r + n
      · rw [if_pos hj, if_pos ⟨by omega, by omega, by rw [hj, h]⟩]
      · rw [if_neg hj, hm j]
        exact if_congr (by constructor <;> exact fun ⟨h1, h2, h3⟩ => ⟨h1, by omega, h3⟩) rfl rfl

theorem clearBanks_cleared {r : Nat} (hr : r < 16) (s : State) : BanksCleared r 16 s (clearBanks r s) :=
  banksCleared_cleared hr (by omega) s

theorem low_notin_bankCfgRegs {r a : Nat} (h : a < 0x501000 ∨ 0x502000 ≤ a) (hr : r < 16) : a ∉ bankCfgRegs r := by
  intro hmem
  obtain ⟨k, hk16, hk⟩ := mem_bankCfgRegs.1 hmem
  omega

theorem bankPresent_notin_holdRegs (b : Nat) : R.bankPresent (b / 32) ∉ R.ldReach :: clkRegs ∨ 256 ≤ b := by
  by_cases hb : b < 256
  · refine .inl fun hmem => ?_
    simp only [clkRegs, List.mem_cons, List.mem_map, List.mem_range, R.bankPresent, R.ldReach, R.pwrClkStatus, R.pwrReachClk] at hmem
    rcases hmem with h | h | ⟨k, hk, h⟩ <;> omega
  · exact .inr (by omega)

/-- The reach `r` has gone to HOLD, invalid, with its banks cleared. -/
structure ReachEmptied (r : Nat) (s t : State) : Prop where
  regs : keepsLow (R.ldReach :: (clkRegs ++ bankCfgRegs r)) s t
  inHold : inHold t r = true
  invalid : reachValid t r = false
  mems : ∀ b, designMem t b = if 16 * r ≤ b ∧ b < 16 * r + 16 ∧ bankPresent s b = true then zeroContents else designMem s b
  frame : ∃ g c p b, t = { s with regs := g, clusters := c, pwr := p, banks := b }

theorem clearBanks_emptied {r : Nat} (hr : r < 16) (s : State) : ReachEmptied r s (clearBanks r (invalidate r (enterHold r s))) := by
  have he := enterHold_enters hr s
  have hi := invalidate_invalidates (r := r) (by omega) (enterHold r s)
  have hc := clearBanks_cleared hr (invalidate r (enterHold r s))
  obtain ⟨g, c, p, e⟩ := he.frame
  obtain ⟨g', c', e'⟩ := hi.frame
  obtain ⟨g2, b2, e2⟩ := hc.frame
  have hreach : R.ldReach ∉ bankCfgRegs r := low_notin_bankCfgRegs (.inr (by decide)) hr
  have hlow : keepsLow (R.ldReach :: clkRegs) s (invalidate r (enterHold r s)) := he.regs.trans (hi.regs.low.mono (by simp))
  have hsame (b : Nat) : designMem (invalidate r (enterHold r s)) b = designMem s b := by rw [e', e]; rfl
  refine ⟨?_, ?_, ?_, fun b => ?_, g2, c', p, b2, by rw [e2, e', e]⟩
  · exact (hlow.mono (by simp)).trans (hc.regs.low.mono (by simp))
  · exact (hc.regs.bit hreach _).trans ((hi.inHold hr r).trans (he.inHold hr))
  · exact (hc.regs.bit hreach _).trans hi.invalid
  · rw [hc.mems, hsame]
    by_cases hb : b < 256
    · have hp : bankPresent (invalidate r (enterHold r s)) b = bankPresent s b :=
        hlow.bit (by simp only [R.bankPresent]; omega) ((bankPresent_notin_holdRegs b).resolve_right (by omega)) _
      rw [hp]
    · exact (if_neg (by omega)).trans (if_neg (by omega)).symm

theorem consumeWindow_empty {s : State} (h2 : rlState s = 2) (hd : s.rl.data = []) (hw : s.rl.window = []) (ht : s.rl.tableOk = false) :
    consumeWindow s = setRl s.rl s := by
  have hempty (x : Reload) (hd : x.data = []) (hw : x.window = []) : { x with data := [], window := [] } = x := by
    obtain ⟨⟩ := x
    subst hd hw
    rfl
  have hrl : { s.rl with data := [], window := [] } = s.rl := hempty s.rl hd hw
  have hrun : consumeWindow s = reloadAdvance (setRl { s.rl with data := [], window := [] } s) := by
    rw [consumeWindow, if_pos h2, hd, hw]
    rfl
  rw [hrun, hrl]
  exact reloadAdvance_headerless ht ((congrArg headerHere hd).trans (by decide))

/-- A reach that was emptied for its reload receives. -/
def receiving (s : State) : State := setBits (setRl { s.rl with left := false } s) R.ldReloadStatus 28 4 2

theorem receiving_keeps (s : State) : keepsRegs [R.ldReloadFree, R.ldReloadStatus] s (receiving s) :=
  ((setRl_keeps _ s).mono (by simp)).setBits (by simp) 28 4 2

theorem rlState_receiving (s : State) : rlState (receiving s) = 2 := by
  rw [receiving, rlState, bits_setBits _ _ _ _ _ (by omega), Nat.mod_eq_of_lt (by decide)]

theorem reloadReceiving_empties {s : State} (h1 : rlState s = 1) (hl : s.rl.left = true) (hd : s.rl.data = [])
    (hw : s.rl.window = []) (ht : s.rl.tableOk = false)
    (hq : ∀ k, k < 8 → bit s (R.wfNiStatus (8 * rlReach s + k)) 31 = true) :
    Completes .reloadReceiving s fun t =>
      rlState t = 2 ∧ t.rl.left = false ∧ inHold t (rlReach s) = true ∧ reachValid t (rlReach s) = false ∧
      (∀ k, k < 16 → bankPresent s (16 * rlReach s + k) = true → designMem t (16 * rlReach s + k) = zeroContents) ∧
      (∀ b, b / 16 ≠ rlReach s → designMem t b = designMem s b) := by
  have hall : ((List.range 8).all fun k => bit s (R.wfNiStatus (8 * rlReach s + k)) 31) = true :=
    List.all_eq_true.2 fun k hk => hq k (List.mem_range.1 hk)
  have hrun : reloadReceiving s
      = consumeWindow (receiving (clearBanks (rlReach s) (invalidate (rlReach s) (enterHold (rlReach s) s)))) :=
    if_pos ⟨h1, hl, hall⟩
  obtain ⟨-, hin, hinv, hmems, g, c, p, b, e⟩ := clearBanks_emptied (rlReach_lt s) s
  generalize clearBanks (rlReach s) (invalidate (rlReach s) (enterHold (rlReach s) s)) = u at *
  have hrl : (receiving u).rl = { s.rl with left := false } := by rw [e]; rfl
  have hempty : consumeWindow (receiving u) = setRl (receiving u).rl (receiving u) :=
    consumeWindow_empty (rlState_receiving u) (by rw [hrl]; exact hd) (by rw [hrl]; exact hw) (by rw [hrl]; exact ht)
  have hkeep : keepsRegs [R.ldReloadFree, R.ldReloadStatus] u (setRl (receiving u).rl (receiving u)) :=
    (receiving_keeps u).trans ((setRl_keeps _ _).mono (by simp))
  have hmem (k : Nat) : designMem (setRl (receiving u).rl (receiving u)) k = designMem u k := rfl
  refine ⟨_, congrArg Host.Outcome.next (hrun.trans hempty), (rlState_setRl _ _).trans (rlState_receiving u), ?_,
    (hkeep.bit (by decide) _).trans hin, (hkeep.bit (by decide) _).trans hinv, fun k hk hp => ?_, fun k hk => ?_⟩
  · exact congrArg Reload.left hrl
  · rw [hmem, hmems, if_pos ⟨by omega, by omega, hp⟩]
  · rw [hmem, hmems, if_neg (by omega)]

/-! ## A reload that is aborted (R275) -/

theorem reloadAbort_fails {s : State} (h : reloadInProgress s = true) : ReloadFailed 0x17 s (reloadAbort s) := by
  rw [reloadAbort, if_pos h]
  exact reloadFails_failed (by decide) s

/-! ## Checks, plan, ready and join (R276, R277) -/

theorem reloadChecked_passes {s : State} (h3 : rlState s = 3) (hc : s.rl.checked = false)
    (hpost : postCode s (dirUnits s.rl.data (ownOrdinal s)) (clustersOf [rlReach s])
      (clustersOf ((List.range 16).filter fun q => reachValid s q || q == rlReach s)) (some (rlReach s)) = 0) :
    Completes .reloadChecked s fun t =>
      t.rl.checked = true ∧ rlState t = 3 ∧ t.rl.anchors = anchorBits s ∧ t.clusters = s.clusters ∧ t.banks = s.banks := by
  have hrun : reloadChecked s = setRl { s.rl with checked := true, anchors := anchorBits s } s :=
    (if_pos ⟨h3, hc⟩).trans (if_pos hpost)
  exact ⟨_, congrArg Host.Outcome.next hrun, rfl, (rlState_setRl _ s).trans h3, rfl, rfl, rfl⟩

theorem keepFlow_state (a : Plan × Nat × State) (f : Nat × Nat × Nat) : (keepFlow a f).2.2 = a.2.2 := by
  obtain ⟨p, late, s⟩ := a
  rw [keepFlow]
  dsimp only
  split
  · rfl
  · split <;> rfl

theorem whenQuiet_regs {i : Nat} {f : State → State} (hf : ∀ u : State, ∃ g, f u = { u with regs := g }) (s : State) :
    ∃ g, whenQuiet i f s = { s with regs := g } := by
  rw [whenQuiet]
  split
  · exact hf s
  · exact ⟨_, rfl⟩

theorem planFlow_state (a : Plan × Nat × State) (f : Nat × Nat × Nat) :
    ∃ g l, (planFlow a f).2.2 = { a.2.2 with regs := g, ld := l } := by
  obtain ⟨p, late, s⟩ := a
  rw [planFlow]
  dsimp only
  split
  · exact (whenQuiet_regs (fun u => ⟨_, rfl⟩) _).imp fun g e => ⟨_, e⟩
  · exact (whenQuiet_regs (fun u => ⟨_, rfl⟩) _).imp fun g e => ⟨_, e⟩

theorem planFlows_state (l : List (Nat × Nat × Nat)) (a : Plan × Nat × State) :
    ∃ g x, (l.foldl planFlow a).2.2 = { a.2.2 with regs := g, ld := x } := by
  induction l generalizing a with
  | nil => exact ⟨_, _, rfl⟩
  | cons f l ih =>
    obtain ⟨g, x, e⟩ := ih (planFlow a f)
    obtain ⟨g', x', e'⟩ := planFlow_state a f
    exact ⟨g, x, by rw [List.foldl_cons, e, e']⟩

theorem writePlan_frame (bank : Nat) (p : Plan) (s : State) : ∃ g, writePlan bank p s = { s with regs := g } := by
  have h (l : List (Nat × Nat)) (u : State) : ∃ g, l.foldl (fun acc x =>
      setBits acc (R.wfSlot (x.1 / 320) (x.1 / 64 % 5) bank (x.1 % 64 / 8)) (4 * (x.1 % 8)) 4 (8 + (x.2 - 1))) u
        = { u with regs := g } := by
    induction l generalizing u with
    | nil => exact ⟨_, rfl⟩
    | cons x l ih =>
      obtain ⟨g, e⟩ := ih (setBits u (R.wfSlot (x.1 / 320) (x.1 / 64 % 5) bank (x.1 % 64 / 8)) (4 * (x.1 % 8)) 4 (8 + (x.2 - 1)))
      exact ⟨g, e⟩
  exact (h p.slots _).imp fun g e => e

theorem writePlans_frame (banks : List Nat) (p : Plan) (s : State) :
    ∃ g, banks.foldl (fun acc b => writePlan b p acc) s = { s with regs := g } := by
  induction banks generalizing s with
  | nil => exact ⟨_, rfl⟩
  | cons b banks ih =>
    obtain ⟨g, e⟩ := ih (writePlan b p s)
    obtain ⟨g', e'⟩ := writePlan_frame b p s
    exact ⟨g, by rw [List.foldl_cons, e, e']⟩

theorem runPlanner_frame (kept placed : List (Word × Word)) (banks : List Nat) (s : State) :
    ∃ g l, runPlanner kept placed banks s = { s with regs := g, ld := l } := by
  have hkept : ((kept.map flowOf).foldl keepFlow (({} : Plan), 0, s)).2.2 = s :=
    foldl_keeps (fun a : Plan × Nat × State => a.2.2) keepFlow keepFlow_state _ _
  obtain ⟨g, x, e⟩ := planFlows_state (placed.map flowOf) ((kept.map flowOf).foldl keepFlow (({} : Plan), 0, s))
  rw [hkept] at e
  rw [runPlanner]
  dsimp only
  generalize (placed.map flowOf).foldl planFlow ((kept.map flowOf).foldl keepFlow (({} : Plan), 0, s)) = a at *
  obtain ⟨p, late, u⟩ := a
  obtain ⟨g', e'⟩ := writePlans_frame banks p u
  dsimp only at e ⊢
  rw [e', e]
  exact ⟨_, x, rfl⟩

theorem slotPlan_plans {s : State} (hf : firmwareRuns s = true) (h3 : rlState s = 3) (hc : s.rl.checked = true)
    (hb : bit s R.wfSlotCtrl 0 = false) (hl : [4, 5, 6].contains (ldState s) = false) :
    Completes .slotPlan s fun t => t.rl.planned = true ∧ t.clusters = s.clusters ∧ t.net = s.net := by
  obtain ⟨g, l, e⟩ := runPlanner_frame (s.ld.flows.filter fun x => !flowOfReach (rlReach s) x) s.rl.flows
    [(!s.net.activeBank).toNat] s
  have hrun : slotPlan s = setRl { s.rl with planned := true } { s with regs := g, ld := l } := by
    rw [slotPlan, hf, if_neg (by decide), hl, if_neg (by decide), if_pos ⟨h3, hc, by rw [hb]; decide⟩]
    dsimp only
    rw [e]
  exact ⟨_, congrArg Host.Outcome.next hrun, rfl, rfl, rfl⟩

theorem reloadReady_shows {s : State} (h3 : rlState s = 3) (hc : s.rl.checked = true) (hp : s.rl.planned = true)
    (hb : bit s R.wfSlotCtrl 0 = true) :
    Completes .reloadReady s fun t => rlState t = 4 ∧ causeBit t 34 = true ∧ t.rl = s.rl ∧ t.clusters = s.clusters := by
  have hrun : reloadReady s = raiseCause 34 (setBits s R.ldReloadStatus 28 4 4) := if_pos ⟨h3, hc, hp, hb⟩
  have hkeep := raiseCause_keeps 34 (setBits s R.ldReloadStatus 28 4 4)
  obtain ⟨g, l, e⟩ := raiseCause_frame 34 (setBits s R.ldReloadStatus 28 4 4)
  refine ⟨_, congrArg Host.Outcome.next hrun, (hkeep.bits (by decide) _ _).trans ?_, causeBit_raiseCause 34 _,
    by rw [e]; rfl, by rw [e]; rfl⟩
  rw [bits_setBits _ _ _ _ _ (by omega), Nat.mod_eq_of_lt (by decide)]

theorem reloadJoin_asks {s : State} (h : reloadInProgress s = true) :
    Completes .reloadJoin s fun t =>
      t.rl = { s.rl with joinReq := true } ∧ rlState t = rlState s ∧ t.sched = s.sched ∧ t.clusters = s.clusters :=
  ⟨_, congrArg Host.Outcome.next (if_pos h), rfl, rlState_setRl _ s, rfl, rfl⟩

/-! ## A breakwater cell sends its constant (R277) -/

theorem latchedBuffer_cluster {s : State} {n w : Nat} {b : Breakwater} {x : LatchedBuffer} (h : latchedBuffer s n w = some (b, x)) :
    x.cluster = n := by
  obtain ⟨b', -, h⟩ := Option.bind_eq_some_iff.1 h
  obtain ⟨x', hx, h⟩ := Option.map_eq_some_iff.1 h
  obtain ⟨-, rfl⟩ := Prod.mk.inj h
  have hname := List.find?_some hx
  exact beq_iff_eq.1 (Bool.and_eq_true_iff.1 hname).1

theorem breakwaterLaunch_sends {n w : Nat} {s : State} {b : Breakwater} {x : LatchedBuffer}
    (hb : latchedBuffer s n w = some (b, x)) (hr : s.sched.run = .running) (hleg : latchedLegRan s x = true)
    (hl : (n, w) ∉ b.launched) (hcfg : bit s (R.ldBwCfg (x.cluster / 8)) 31 = true)
    (hv : (x.route.getD 0 0).getLsbD 31 = true) (hvc : bitsOf (x.route.getD 0 0) 29 2 = 0)
    (hdst : bitsOf (x.route.getD 0 0) 16 8 ≤ 147) :
    ((ni (breakwaterLaunch n w s) n).sourceHold.map fun h => h.packet.payload)
        = ((ni s n).sourceHold.map fun h => h.packet.payload) ++
          [[ofHalves (reg s (R.ldBwConstLo (x.cluster / 8))) (reg s (R.ldBwConstHi (x.cluster / 8)))]] ∧
      find (breakwaterLaunch n w s).rl.cells (n / 8) = some { b with launched := (n, w) :: b.launched } ∧
      (breakwaterLaunch n w s).regs = s.regs := by
  have hn : x.cluster = n := latchedBuffer_cluster hb
  have hany : (b.launched.any (· == (n, w))) = false := List.any_eq_false.2 fun y hy heq => hl (beq_iff_eq.1 heq ▸ hy)
  have hword : cellWord s x = ofHalves (reg s (R.ldBwConstLo (x.cluster / 8))) (reg s (R.ldBwConstHi (x.cluster / 8))) :=
    if_pos hcfg
  have hrun : breakwaterLaunch n w s = launchLatched x (cellWord s x) (markLaunched b n w s) := by
    rw [breakwaterLaunch, hb]
    dsimp only
    exact if_pos (by rw [hr, hleg, hany]; decide)
  have hlaunch (u : State) (v : DWord) : ∃ p : Packet, p.payload = [v] ∧ ∃ d, launchLatched x v u
      = setNi u x.cluster { ni u x.cluster with sourceHold := (ni u x.cluster).sourceHold ++ [⟨p, d⟩] } :=
    ⟨_, rfl, _, if_pos ⟨hv, hvc, hdst⟩⟩
  obtain ⟨p, hp, d, e⟩ := hlaunch (markLaunched b n w s) (cellWord s x)
  have hheld (u : State) (y : Ni) : ni (setNi u n y) n = y := (ni_setNi u n y n).trans (if_pos rfl)
  rw [hrun, e, hn, hheld]
  refine ⟨?_, find_enter_self _ _ _, rfl⟩
  rw [List.map_append, List.map_singleton, hp, hword, hn]
  rfl

/-- Settles O38: each phase of a reach reload by its own lemma; the aborts by what every failing reload leaves. -/
theorem reloadPhases : Obligations.ReloadPhases := by
  refine ⟨fun _ => reloadGo_running, fun s h => ?_, fun _ => reloadLeaveRun_leaves, fun _ => reloadReceiving_empties,
    fun s h hl hr => ?_, fun s h hr => ?_, fun _ => reloadGo_frozen, fun s h hl hr => ?_, fun _ => reloadChecked_passes,
    fun _ => slotPlan_plans, fun _ => reloadReady_shows, fun _ => reloadJoin_asks,
    fun n w s b x hb hr hleg hl hcfg hv hvc hdst => ⟨_, rfl, breakwaterLaunch_sends hb hr hleg hl hcfg hv hvc hdst⟩⟩
  · exact congrArg Host.Outcome.next (if_neg (by rw [h]; decide))
  · have hf := reloadAbort_fails h
    exact ⟨_, rfl, hf.state, hf.code, hf.raised (by simp [hr, hl]), hf.rl, hf.inHold, hf.invalid, hf.cause, hf.free⟩
  · have hf := reloadAbort_fails h
    refine ⟨_, rfl, hf.state, hf.code, ?_, hf.inHold, hf.invalid, hf.cause, hf.free, fun n _ => ?_⟩
    · rw [← hf.cells (.inl hr)]
      exact hf.rl
    · refine (hf.clusters n).trans ((if_pos hr).trans (if_congr and_comm rfl rfl))
  · have hf := reloadAbort_fails h
    refine ⟨_, rfl, hf.state, hf.code, ?_, hf.inHold, hf.invalid, hf.cause, hf.free, fun k hk => ?_⟩
    · rw [← hf.cells (.inr hl)]
      exact hf.rl
    · exact (hf.clusters _).trans ((if_neg (by rw [hr]; decide)).trans (if_pos (by omega)))

end Sys2Proof.Machine
end

/-! # A start beside an invalid reach out of HOLD -/

section
namespace Sys2Proof.Machine
set_option Elab.async false

/-- A loaded device whose reaches are all invalid and out of HOLD; a word for cluster 0 waits, and its entry expects
it at the edge of wheel 0. -/
def loadedOutOfHold : State :=
  { State.reset with
    regs := [(R.glbWheelPat 0 0, 1), (R.ldStatus, 0x60000000), (R.ldReach, 0), (R.cluArrEntry 0 0, 0xC0000000)]
    clusters := [(0, { pending := [(0, 1)] })] }

/-- The start takes the waiting word into the cluster, which is not in HOLD. -/
theorem loadedOutOfHold_admits :
    (clu (startReceived loadedOutOfHold) 0).lastWord ≠ (clu loadedOutOfHold 0).lastWord := by decide +kernel

/-- Refutes O37: at a start, a cluster of an invalid reach that is not in HOLD takes a waiting word of ec 0, which
changes its last word beside its swell flags. -/
theorem not_startAndScrub : ¬ Obligations.StartAndScrub := by
  intro h
  obtain ⟨hstart, -⟩ := h
  obtain ⟨t, hexec, -, -, -, -, -, -, -, hother⟩ :=
    hstart loadedOutOfHold .start (by decide +kernel) (by decide +kernel) (.inl rfl)
  have ht : startReceived loadedOutOfHold = t := Host.Outcome.next.inj hexec
  have hclu := hother 0 (by decide) (.inl (by decide +kernel))
  exact loadedOutOfHold_admits (by rw [ht, hclu])

end Sys2Proof.Machine
end

/-! # The assignment of spare clusters (R357) -/

section
namespace Sys2Proof.Machine
set_option Elab.async false

/-! ## Masks -/

theorem testBit_maskOf (l : List Nat) (k : Nat) : (maskOf l).testBit k = decide (k ∈ l) := by
  have h (l : List Nat) (m : Nat) : (l.foldl (fun m k => m ||| 2 ^ k) m).testBit k = (m.testBit k || decide (k ∈ l)) := by
    induction l generalizing m with
    | nil => simp
    | cons a l ih =>
      rw [List.foldl_cons, ih, Nat.testBit_or, Nat.testBit_two_pow]
      by_cases hk : k = a
      · simp [hk]
      · simp [hk, Ne.symm hk]
  rw [maskOf, h]
  simp

theorem maskOf_lt {l : List Nat} {n : Nat} (h : ∀ k ∈ l, k < n) : maskOf l < 2 ^ n :=
  Nat.lt_pow_two_of_testBit _ fun i hi => by
    rw [testBit_maskOf]
    exact decide_eq_false fun hm => absurd (h i hm) (by omega)

/-! ## The reaches in ascending order -/

/-- The assignment of the first `n` reaches. -/
def assignedTo (x : BistResult) (n : Nat) : Assignment := forUpTo n (assignReach x) (goodSpares x, [], [])

/-- The failing clusters of the first `n` reaches that are not in `absent`. -/
def servedBelow (x : BistResult) (absent : List Nat) (n : Nat) : List Nat :=
  ((List.range n).filter fun r => !absent.contains r).flatMap (failingIn x)

theorem servedBelow_absent (x : BistResult) (absent : List Nat) {n r : Nat} (h : n ≤ r) :
    servedBelow x (absent ++ [r]) n = servedBelow x absent n := by
  rw [servedBelow, servedBelow]
  congr 1
  refine List.filter_congr fun q hq => ?_
  have hne : q ≠ r := by
    have := List.mem_range.1 hq
    omega
  simp [hne]

theorem servedBelow_succ (x : BistResult) (absent : List Nat) (n : Nat) :
    servedBelow x absent (n + 1) = servedBelow x absent n ++ if n ∈ absent then [] else failingIn x n := by
  rw [servedBelow, List.range_succ, List.filter_append, List.flatMap_append, ← servedBelow]
  by_cases h : n ∈ absent
  · simp [h]
  · simp [h]

/-- What holds of the assignment `a` of the first `n` reaches. -/
structure Assigns (x : BistResult) (n : Nat) (a : Assignment) : Prop where
  served : a.2.1.map (·.1) = servedBelow x a.2.2 n
  spares : a.2.1.map (·.2) = (goodSpares x).take a.2.1.length
  free : a.1 = (goodSpares x).drop a.2.1.length
  below : ∀ r ∈ a.2.2, r < n
  absent : ∀ r, r < n → (r ∈ a.2.2 ↔
    (goodSpares x).length < (servedBelow x a.2.2 r).length + (failingIn x r).length)

theorem map_snd_zip_of_le {α β : Type} {as : List α} {bs : List β} (h : as.length ≤ bs.length) :
    (as.zip bs).map (·.2) = bs.take as.length := by
  rw [List.zip_eq_zip_take_min, Nat.min_eq_left h, List.take_length]
  exact List.map_snd_zip (by simp)

theorem Assigns.length {x : BistResult} {n : Nat} {a : Assignment} (h : Assigns x n a) :
    a.2.1.length = (servedBelow x a.2.2 n).length := by rw [← h.served, List.length_map]

theorem assignReach_served {x : BistResult} {n : Nat} {a : Assignment} (h : Assigns x n a)
    (hfit : (failingIn x n).length ≤ a.1.length) :
    Assigns x (n + 1) (a.1.drop (failingIn x n).length, a.2.1 ++ (failingIn x n).zip a.1, a.2.2) := by
  have hn : n ∉ a.2.2 := fun hm => absurd (h.below n hm) (by omega)
  have hlen : (a.2.1 ++ (failingIn x n).zip a.1).length = a.2.1.length + (failingIn x n).length := by
    rw [List.length_append, List.length_zip, Nat.min_eq_left hfit]
  have hroom : a.1.length = (goodSpares x).length - a.2.1.length := by rw [h.free, List.length_drop]
  have htaken : a.2.1.length ≤ (goodSpares x).length := by
    have := congrArg List.length h.spares
    rw [List.length_map, List.length_take] at this
    omega
  refine ⟨?_, ?_, ?_, fun r hr => Nat.lt_succ_of_lt (h.below r hr), fun r hr => ?_⟩
  · rw [List.map_append, h.served, List.map_fst_zip hfit, servedBelow_succ, if_neg hn]
  · rw [List.map_append, h.spares, map_snd_zip_of_le hfit, hlen, h.free, ← List.take_add]
  · rw [hlen, h.free, List.drop_drop]
  · rcases Nat.lt_succ_iff_lt_or_eq.1 hr with hr | rfl
    · exact h.absent r hr
    · have hlen' := h.length
      exact ⟨fun hm => absurd hm hn, fun hlt =>
        absurd (show (goodSpares x).length < (servedBelow x a.2.2 r).length + (failingIn x r).length from hlt) (by omega)⟩

theorem assignReach_absent {x : BistResult} {n : Nat} {a : Assignment} (h : Assigns x n a)
    (hfit : ¬ (failingIn x n).length ≤ a.1.length) : Assigns x (n + 1) (a.1, a.2.1, a.2.2 ++ [n]) := by
  have hroom : a.1.length = (goodSpares x).length - a.2.1.length := by rw [h.free, List.length_drop]
  refine ⟨?_, h.spares, h.free, fun r hr => ?_, fun r hr => ?_⟩
  · rw [h.served, servedBelow_succ, if_pos (by simp), List.append_nil, servedBelow_absent x _ (Nat.le_refl n)]
  · rcases List.mem_append.1 hr with hr | hr
    · exact Nat.lt_succ_of_lt (h.below r hr)
    · rw [List.mem_singleton.1 hr]
      omega
  · rw [servedBelow_absent x _ (by omega)]
    rcases Nat.lt_succ_iff_lt_or_eq.1 hr with hr | rfl
    · rw [← h.absent r hr, List.mem_append, List.mem_singleton]
      exact or_iff_left (by omega)
    · have hlen := h.length
      exact ⟨fun _ => by omega, fun _ => by simp⟩

theorem assignedTo_assigns (x : BistResult) (n : Nat) : Assigns x n (assignedTo x n) := by
  induction n with
  | zero => exact ⟨rfl, rfl, rfl, fun r hr => absurd hr List.not_mem_nil, fun r hr => absurd hr (by omega)⟩
  | succ n ih =>
    rw [assignedTo, forUpTo_succ, ← assignedTo, assignReach]
    split
    · next hfit => exact assignReach_served ih hfit
    · next hfit => exact assignReach_absent ih hfit

theorem assignSpares_assigns (x : BistResult) : Assigns x 16 (assignSpares x) := assignedTo_assigns x 16

/-! ## Each cluster and each spare once -/

theorem mem_failingIn {x : BistResult} {r n : Nat} : n ∈ failingIn x r → n / 8 = r ∧ x.clusterFail.getLsbD n = true := by
  intro h
  obtain ⟨hm, hf⟩ := List.mem_filter.1 h
  obtain ⟨k, hk, rfl⟩ := List.mem_map.1 hm
  have := List.mem_range.1 hk
  exact ⟨by omega, hf⟩

theorem servedBelow_nodup (x : BistResult) (absent : List Nat) (n : Nat) : (servedBelow x absent n).Nodup := by
  refine List.nodup_flatMap.2 ⟨fun r _ => ?_, ?_⟩
  · refine List.Nodup.filter _ (List.Nodup.map (fun a b h => ?_) List.nodup_range)
    exact Nat.add_left_cancel h
  · refine (List.Nodup.filter _ List.nodup_range).imp fun hne => ?_
    exact fun k hk hk' => hne ((mem_failingIn hk).1.symm.trans (mem_failingIn hk').1)

theorem goodSpares_nodup (x : BistResult) : (goodSpares x).Nodup := List.Nodup.filter _ List.nodup_range

theorem assignSpares_clusters_nodup (x : BistResult) : ((assignSpares x).2.1.map (·.1)).Nodup := by
  rw [(assignSpares_assigns x).served]
  exact servedBelow_nodup ..

theorem assignSpares_spares_nodup (x : BistResult) : ((assignSpares x).2.1.map (·.2)).Nodup := by
  rw [(assignSpares_assigns x).spares]
  exact (goodSpares_nodup x).sublist (List.take_sublist ..)

/-- A list of pairs put under their first parts, which differ, is read back pair by pair. -/
theorem look_foldl_pairs {α : Type} [DecidableEq α] (d : Nat → α) (v : Nat → α) (l : List (Nat × Nat)) (hl : (l.map (·.1)).Nodup)
    (m : Sparse α) : (∀ p ∈ l, look d (l.foldl (fun m p => put d m p.1 (v p.2)) m) p.1 = v p.2) ∧
      ∀ n, (∀ p ∈ l, p.1 ≠ n) → look d (l.foldl (fun m p => put d m p.1 (v p.2)) m) n = look d m n := by
  induction l generalizing m with
  | nil => exact ⟨fun p hp => absurd hp List.not_mem_nil, fun _ _ => rfl⟩
  | cons a l ih =>
    obtain ⟨ha, hl⟩ := List.nodup_cons.1 hl
    obtain ⟨hin, hout⟩ := ih hl (put d m a.1 (v a.2))
    refine ⟨fun p hp => ?_, fun n hn => ?_⟩
    · rcases List.mem_cons.1 hp with rfl | hp
      · refine (hout p.1 fun q hq hne => ha (List.mem_map.2 ⟨q, hq, hne⟩)).trans ?_
        rw [look_put, if_pos rfl]
      · exact hin p hp
    · refine (hout n fun p hp => hn p (List.mem_cons_of_mem _ hp)).trans ?_
      rw [look_put, if_neg (hn a List.mem_cons_self).symm]

/-- A list of pairs entered under their second parts, which differ, is found again pair by pair. -/
theorem find_foldl_pairs (l : List (Nat × Nat)) (hl : (l.map (·.2)).Nodup) (m : Sparse Nat) :
    (∀ p ∈ l, find (l.foldl (fun m p => enter m p.2 p.1) m) p.2 = some p.1) ∧
      ∀ k, (∀ p ∈ l, p.2 ≠ k) → find (l.foldl (fun m p => enter m p.2 p.1) m) k = find m k := by
  induction l generalizing m with
  | nil => exact ⟨fun p hp => absurd hp List.not_mem_nil, fun _ _ => rfl⟩
  | cons a l ih =>
    obtain ⟨ha, hl⟩ := List.nodup_cons.1 hl
    obtain ⟨hin, hout⟩ := ih hl (enter m a.2 a.1)
    refine ⟨fun p hp => ?_, fun k hk => ?_⟩
    · rcases List.mem_cons.1 hp with rfl | hp
      · refine (hout p.2 fun q hq hne => ha (List.mem_map.2 ⟨q, hq, hne⟩)).trans ?_
        exact find_enter_self _ _ _
      · exact hin p hp
    · refine (hout k fun p hp => hk p (List.mem_cons_of_mem _ hp)).trans ?_
      rw [find_enter, if_neg (hk a List.mem_cons_self).symm]

end Sys2Proof.Machine
end

/-! # Built-in self-test and the test engine (O53) -/

section
namespace Sys2Proof.Machine
set_option Elab.async false

/-! ## What an event of the trace unit leaves -/

/-- The state after packets of the trace unit: its status and counters, and nothing outside it. -/
def TraceMoved (s t : State) : Prop := keepsRegs [R.trcStatus, R.trcLost] s t ∧ ∃ g x, t = { s with regs := g, trc := x }

theorem TraceMoved.refl (s : State) : TraceMoved s s := ⟨keepsRegs_refl _ s, s.regs, s.trc, rfl⟩

theorem TraceMoved.trans {s t u : State} (h : TraceMoved s t) (h' : TraceMoved t u) : TraceMoved s u := by
  obtain ⟨hk, g, x, e⟩ := h
  obtain ⟨hk', g', x', e'⟩ := h'
  exact ⟨hk.trans hk', g', x', by rw [e', e]⟩

theorem TraceMoved.withTrc {s t : State} (h : TraceMoved s t) (y : TraceUnit) : TraceMoved s { t with trc := y } := by
  obtain ⟨hk, g, x, e⟩ := h
  exact ⟨hk, g, y, by rw [e]⟩

theorem emit_moved (source : Nat) (p : List Byte) (s : State) : TraceMoved s (emit source p s) := by
  unfold emit
  split
  · exact (TraceMoved.refl s).withTrc _
  · exact TraceMoved.withTrc (t := setReg s R.trcLost (BitVec.ofNat 32 (satAdd 32 (reg s R.trcLost).toNat 1)))
      ⟨(keepsRegs_refl _ s).setReg (by simp) _, _, s.trc, rfl⟩ _

theorem emitSync_moved (core reason : Nat) (s : State) : TraceMoved s (emitSync core reason s) := (emit_moved core _ s).withTrc _

theorem powerSync_moved (s : State) : TraceMoved s (powerSync s) := by
  unfold powerSync
  split
  · exact (((TraceMoved.refl s).withTrc _).trans (emitSync_moved 0 0 _)).trans (emitSync_moved 1 0 _)
  · exact .refl s

theorem watchRun_moved {f : State → State} {s : State} (h : TraceMoved s (f s)) : TraceMoved s (watchRun f s) := by
  unfold watchRun
  dsimp only
  split
  · exact h.withTrc _
  · exact h

theorem traceEvent_moved (code : Nat) (s : State) : TraceMoved s (traceEvent code s) := by
  unfold traceEvent traceEvents
  split
  · exact .refl s
  · split
    · exact .refl s
    · exact watchRun_moved (((powerSync_moved s).trans
        ⟨(keepsRegs_refl _ _).setBits (by simp) 27 2 _, _, _, rfl⟩).trans (emit_moved 2 _ _))

/-! ## The start (R355) -/

/-- The first `n` domains of units that were absent so far are asked for. -/
def domainsAsked (n : Nat) (s : State) : State :=
  forUpTo n (fun d acc => if gradeHas s d && !domainPresent s d then setBit acc (R.pwrDomainCtrl d) 31 true else acc) s

theorem domainsAsked_moved (n : Nat) (s : State) :
    keepsRegs ((List.range n).map R.pwrDomainCtrl) s (domainsAsked n s) ∧ (∃ g, domainsAsked n s = { s with regs := g }) ∧
      ∀ d, d < n → bit (domainsAsked n s) (R.pwrDomainCtrl d) 31 =
        (bit s (R.pwrDomainCtrl d) 31 || (gradeHas s d && !domainPresent s d)) := by
  induction n with
  | zero => exact ⟨keepsRegs_refl _ s, ⟨s.regs, rfl⟩, fun d hd => absurd hd (by omega)⟩
  | succ n ih =>
    obtain ⟨hk, ⟨g, e⟩, hb⟩ := ih
    have hk' := hk.mono (List.map_subset R.pwrDomainCtrl (List.range_subset.2 (Nat.le_succ n)))
    have hn : R.pwrDomainCtrl n ∉ (List.range n).map R.pwrDomainCtrl := by
      intro hm
      obtain ⟨k, hk, h⟩ := List.mem_map.1 hm
      have := List.mem_range.1 hk
      simp only [R.pwrDomainCtrl] at h
      omega
    have hself : bit (domainsAsked n s) (R.pwrDomainCtrl n) 31 = bit s (R.pwrDomainCtrl n) 31 := hk.bit hn 31
    rw [domainsAsked, forUpTo_succ, ← domainsAsked]
    split
    · next h =>
      refine ⟨hk'.setBit (List.mem_map.2 ⟨n, List.self_mem_range_succ, rfl⟩) _ _, ⟨_, by rw [e]; rfl⟩, fun d hd => ?_⟩
      by_cases hdn : d = n
      · rw [hdn, h, bit_setBit _ _ _ _ (by omega), Bool.or_true]
      · rw [bit_setBit_ne _ _ _ _ _ _ (.inl (by simp only [R.pwrDomainCtrl]; omega))]
        exact hb d (by omega)
    · next h =>
      refine ⟨hk', ⟨g, e⟩, fun d hd => ?_⟩
      by_cases hdn : d = n
      · rw [hdn, hself, Bool.eq_false_of_not_eq_true h, Bool.or_false]
      · exact hb d (by omega)

/-- BIST has started: its phase is 0 and no unit is present. -/
def bistStarted (s : State) : State :=
  setBit (setReg (setReg (setBits (setBits s R.bistStatus 28 4 1) R.bistStatus 24 4 0) R.glbUnitPresent0 0) R.glbUnitPresent1 0)
    R.bistStatus 22 false

theorem bistStarted_shown (s : State) :
    bits (bistStarted s) R.bistStatus 28 4 = 1 ∧ bits (bistStarted s) R.bistStatus 24 4 = 0 ∧
      reg (bistStarted s) R.glbUnitPresent0 = 0 ∧ reg (bistStarted s) R.glbUnitPresent1 = 0 ∧
      keepsRegs [R.bistStatus, R.glbUnitPresent0, R.glbUnitPresent1] s (bistStarted s) := by
  have h0 : R.bistStatus ≠ R.glbUnitPresent0 := by decide
  have h1 : R.bistStatus ≠ R.glbUnitPresent1 := by decide
  have h01 : R.glbUnitPresent0 ≠ R.glbUnitPresent1 := by decide
  have hstatus : keepsRegs [R.glbUnitPresent0, R.glbUnitPresent1] (setBits (setBits s R.bistStatus 28 4 1) R.bistStatus 24 4 0)
      (setReg (setReg (setBits (setBits s R.bistStatus 28 4 1) R.bistStatus 24 4 0) R.glbUnitPresent0 0) R.glbUnitPresent1 0) :=
    ((keepsRegs_refl _ _).setReg (by simp) _).setReg (by simp) _
  refine ⟨?_, ?_, ?_, ?_, ?_⟩
  · rw [bistStarted, bits_setBit_ne _ _ _ _ _ _ _ (by omega), hstatus.bits (by decide), bits_setBits_ne _ _ _ _ _ _ _ _ (by omega),
      bits_setBits _ _ _ _ _ (by omega), Nat.mod_eq_of_lt (by decide)]
  · rw [bistStarted, bits_setBit_ne _ _ _ _ _ _ _ (by omega), hstatus.bits (by decide), bits_setBits _ _ _ _ _ (by omega),
      Nat.zero_mod]
  · rw [bistStarted, reg_setBit_ne _ _ _ _ _ h0.symm, reg_setReg, if_neg h01, reg_setReg, if_pos rfl]
  · rw [bistStarted, reg_setBit_ne _ _ _ _ _ h1.symm, reg_setReg, if_pos rfl]
  · exact (((((keepsRegs_refl _ s).setBits (by simp) 28 4 1).setBits (by simp) 24 4 0).setReg (by simp) _).setReg (by simp) _).setBit
      (by simp) _ _

theorem bistRun_starts {s : State} (hh : allHold s = true) (hv : bits s R.ldReach 0 16 = 0) (hl : loadInProgress s = false)
    (hb : bistRuns s = false) :
    Completes .bistRun s fun t =>
      bistRuns t = true ∧ bistPhase t = 0 ∧ reg t R.glbUnitPresent0 = 0 ∧ reg t R.glbUnitPresent1 = 0 ∧
      (∀ d, d < 28 → bit t (R.pwrDomainCtrl d) 31 =
        (bit s (R.pwrDomainCtrl d) 31 || (gradeHas s d && !domainPresent s d))) ∧
      keepsRegs ([R.bistStatus, R.glbUnitPresent0, R.glbUnitPresent1] ++ (List.range 28).map R.pwrDomainCtrl) s t ∧
      t.bist = { s.bist with onRequest := true, restarts := 0 } ∧ t.cairn = (scanSlots s).cairn := by
  have hrun : bistRun s = { bistStarted (domainsAsked 28 (scanSlots s)) with
      bist := { (bistStarted (domainsAsked 28 (scanSlots s))).bist with onRequest := true, restarts := 0 } } := by
    rw [bistRun, hb, if_neg (by decide), bistGo, if_pos ⟨hh, hv, by rw [hl]; decide, by rw [hb]; decide⟩]
    rfl
  obtain ⟨hk, ⟨g, e⟩, hask⟩ := domainsAsked_moved 28 (scanSlots s)
  obtain ⟨hstate, hphase, hp0, hp1, hkeep⟩ := bistStarted_shown (domainsAsked 28 (scanSlots s))
  have hrest : (bistStarted (domainsAsked 28 (scanSlots s))).bist = s.bist ∧
      (bistStarted (domainsAsked 28 (scanSlots s))).cairn = (scanSlots s).cairn := by
    rw [e]
    exact ⟨rfl, rfl⟩
  have hctrl (d : Nat) (hd : d < 28) : R.pwrDomainCtrl d ∉ [R.bistStatus, R.glbUnitPresent0, R.glbUnitPresent1] := by
    intro hm
    simp only [List.mem_cons, List.not_mem_nil, or_false, R.pwrDomainCtrl, R.bistStatus, R.glbUnitPresent0, R.glbUnitPresent1] at hm
    omega
  refine ⟨_, congrArg Host.Outcome.next hrun, beq_iff_eq.2 hstate, hphase, hp0, hp1,
    fun d hd => (hkeep.bit (hctrl d hd) 31).trans (hask d hd), ?_, by rw [hrest.1], hrest.2⟩
  have hscan : keepsRegs ([R.bistStatus, R.glbUnitPresent0, R.glbUnitPresent1] ++ (List.range 28).map R.pwrDomainCtrl) s
      (domainsAsked 28 (scanSlots s)) := hk.mono (List.subset_append_right ..)
  exact hscan.trans (hkeep.mono (List.subset_append_left ..))

theorem bistRun_goes_on {s : State} (hb : bistRuns s = true) :
    Completes .bistRun s fun t =>
      bistPhase t = min 11 (bistPhase s + 1) ∧ bistRuns t = true ∧ keepsRegs [R.bistStatus] s t := by
  refine ⟨_, congrArg Host.Outcome.next (if_pos hb), ?_, ?_, (keepsRegs_refl _ s).setBits (by simp) _ _ _⟩
  · rw [bistPhase, bits_setBits _ _ _ _ _ (by omega)]
    exact Nat.mod_eq_of_lt (by omega)
  · rw [bistRuns, bits_setBits_ne _ _ _ _ _ _ _ _ (by omega)]
    exact hb

theorem bistRun_refused {s : State} (hb : bistRuns s = false)
    (h : allHold s = false ∨ bits s R.ldReach 0 16 ≠ 0 ∨ loadInProgress s = true) :
    exec .bistRun s = .next (setBit s R.bistStatus 21 true) := by
  have hrun : bistRun s = setBit s R.bistStatus 21 true := by
    rw [bistRun, hb, if_neg (by decide), bistGo, if_neg]
    rintro ⟨hh, hv, hl, -⟩
    rcases h with h | h | h
    · exact absurd (h.symm.trans hh) (by decide)
    · exact h hv
    · exact hl h
  exact congrArg Host.Outcome.next hrun

/-! ## The test engine (R360) -/

theorem invalidate_moved (r : Nat) (s : State) :
    keepsRegs [R.ldReach] s (invalidate r s) ∧ ∃ g c, invalidate r s = { s with regs := g, clusters := c } := by
  have hdrop : ∃ c, (if reachValid s r then dropWaiting r s else s) = { s with clusters := c } := by
    split
    · exact ⟨_, dropWaiting_frame r s⟩
    · exact ⟨s.clusters, rfl⟩
  obtain ⟨c, e⟩ := hdrop
  have hrun : invalidate r s = setBit { s with clusters := c } R.ldReach r false := by rw [invalidate, e]
  rw [hrun]
  exact ⟨(keepsRegs_refl _ s).setBit (t := { s with clusters := c }) (by simp) _ _, _, c, rfl⟩

theorem plainBit_bistTeCtrl {i : Nat} (hi : i < 24) : plainBit R.bistTeCtrl i = true := by
  revert i
  decide +kernel

/-- The test has begun: the cluster is named, and the seed is the one of that moment. -/
def testBegun (p : Nat) (s : State) : State :=
  setBit { s with pwr := { s.pwr with test := some p }, bist := { s.bist with testSeed := reg s R.bistTeSeed } } R.bistTeCtrl 30 true

/-- The reach of the cluster under test is no longer valid. -/
def testedInvalid (p : Nat) (s : State) : State :=
  match logicalOf s p with
  | some n => invalidate (n / 8) s
  | none => s

theorem testedInvalid_moved (p : Nat) (s : State) :
    keepsRegs [R.ldReach] s (testedInvalid p s) ∧ ∃ g c, testedInvalid p s = { s with regs := g, clusters := c } := by
  unfold testedInvalid
  split
  · exact invalidate_moved _ s
  · exact ⟨keepsRegs_refl _ s, s.regs, s.clusters, rfl⟩

theorem testedInvalid_reach {p n : Nat} {s : State} (h : logicalOf s p = some n) (hn : n < 128) :
    reachValid (testedInvalid p s) (n / 8) = false := by
  rw [testedInvalid, h]
  exact (invalidate_invalidates (by omega) s).invalid

/-- What TEST_ENGINE_GO with go set does, once the register is written. -/
def testDecided (f : Bool) (s : State) : State :=
  if testAllowed s f then testedInvalid (bits s R.bistTeCtrl 16 8) (testBegun (bits s R.bistTeCtrl 16 8) s)
  else setBit s R.bistStatus 21 true

theorem testGo_idle {f : Bool} {v : Word} {s : State} (hgo : v.getLsbD 31 = true) (ht : s.pwr.test = none) :
    testGo f v s = testDecided f (writeFields R.bistTeCtrl v s) := by
  have hw : (if s.pwr.test.isNone then writeFields R.bistTeCtrl v s else s) = writeFields R.bistTeCtrl v s :=
    if_pos (by rw [ht]; rfl)
  rw [testGo, hw]
  exact if_neg (not_not_intro hgo)

theorem testGo_testing {f : Bool} {v : Word} {s : State} {p : Nat} (hgo : v.getLsbD 31 = true) (ht : s.pwr.test = some p) :
    testGo f v s = testDecided f s := by
  have hw : (if s.pwr.test.isNone then writeFields R.bistTeCtrl v s else s) = s := if_neg (by rw [ht]; exact Bool.false_ne_true)
  rw [testGo, hw]
  exact if_neg (not_not_intro hgo)

theorem testGo_starts {v : Word} {s : State} (hgo : v.getLsbD 31 = true) (ht : s.pwr.test = none)
    (ha : testAllowed (writeFields R.bistTeCtrl v s) true = true) :
    Completes (.testEngineGo true v) s fun t =>
      t.pwr = { s.pwr with test := some (bitsOf v 16 8) } ∧ bit t R.bistTeCtrl 30 = true ∧
      t.bist = { s.bist with testSeed := reg s R.bistTeSeed } ∧
      bits t R.bistTeCtrl 0 24 = bitsOf v 0 24 ∧
      (∀ n, logicalOf s (bitsOf v 16 8) = some n → n < 128 → reachValid t (n / 8) = false) ∧
      keepsRegs [R.bistTeCtrl, R.ldReach] s t := by
  obtain ⟨hw, ew⟩ := writeFields_only R.bistTeCtrl v s
  have hp : bits (writeFields R.bistTeCtrl v s) R.bistTeCtrl 16 8 = bitsOf v 16 8 :=
    bits_writeFields (fun i _ hi => plainBit_bistTeCtrl (by omega)) (by omega) v s
  have hfields : bits (writeFields R.bistTeCtrl v s) R.bistTeCtrl 0 24 = bitsOf v 0 24 :=
    bits_writeFields (fun i _ hi => plainBit_bistTeCtrl (by omega)) (by omega) v s
  have hrun : testGo true v s = testedInvalid (bitsOf v 16 8) (testBegun (bitsOf v 16 8) (writeFields R.bistTeCtrl v s)) := by
    rw [testGo_idle hgo ht, testDecided, if_pos ha, hp]
  have hseed : reg (writeFields R.bistTeCtrl v s) R.bistTeSeed = reg s R.bistTeSeed := hw _ (by decide)
  have hpwr : (writeFields R.bistTeCtrl v s).pwr = s.pwr := by rw [ew]
  have hbist : (writeFields R.bistTeCtrl v s).bist = s.bist := by rw [ew]
  generalize writeFields R.bistTeCtrl v s = w at *
  have hbegun : keepsRegs [R.bistTeCtrl] w (testBegun (bitsOf v 16 8) w) :=
    (keepsRegs_refl _ w).setBit (t := { w with
      pwr := { w.pwr with test := some (bitsOf v 16 8) }, bist := { w.bist with testSeed := reg w R.bistTeSeed } }) (by simp) _ _
  have hpwr' : (testBegun (bitsOf v 16 8) w).pwr = { s.pwr with test := some (bitsOf v 16 8) } := by
    rw [← hpwr]
    rfl
  have hbist' : (testBegun (bitsOf v 16 8) w).bist = { s.bist with testSeed := reg s R.bistTeSeed } := by
    rw [← hseed, ← hbist]
    rfl
  have hlogical (p : Nat) : logicalOf (testBegun (bitsOf v 16 8) w) p = logicalOf s p := by
    rw [logicalOf, physicalOf, hbist']
    rfl
  obtain ⟨hi, g, c, e⟩ := testedInvalid_moved (bitsOf v 16 8) (testBegun (bitsOf v 16 8) w)
  refine ⟨_, congrArg Host.Outcome.next hrun, ?_, ?_, ?_, ?_, fun n hn h128 => testedInvalid_reach ((hlogical _).trans hn) h128, ?_⟩
  · rw [e]
    exact hpwr'
  · exact (hi.bit (by decide) 30).trans (bit_setBit _ _ _ _ (by omega))
  · rw [e]
    exact hbist'
  · refine (hi.bits (by decide) 0 24).trans ?_
    exact (bits_setBit_ne _ _ _ _ _ _ _ (by omega)).trans hfields
  · exact (hw.mono (by simp)).trans ((hbegun.mono (by simp)).trans (hi.mono (by simp)))

theorem testGo_refused {f : Bool} {v : Word} {s : State} (hgo : v.getLsbD 31 = true) (ht : s.pwr.test = none)
    (ha : testAllowed (writeFields R.bistTeCtrl v s) f = false) :
    exec (.testEngineGo f v) s = .next (setBit (writeFields R.bistTeCtrl v s) R.bistStatus 21 true) :=
  congrArg Host.Outcome.next ((testGo_idle hgo ht).trans (if_neg (by rw [ha]; decide)))

theorem testGo_busy {f : Bool} {v : Word} {s : State} {p : Nat} (hgo : v.getLsbD 31 = true) (ht : s.pwr.test = some p) :
    exec (.testEngineGo f v) s = .next (setBit s R.bistStatus 21 true) := by
  have ha : testAllowed s f = false := by
    rw [testAllowed, ht]
    simp
  exact congrArg Host.Outcome.next ((testGo_testing hgo ht).trans (if_neg (by rw [ha]; decide)))

/-- The signature of the test of cluster `p` is shown, and the test has ended. -/
def testShown (p : Nat) (s : State) : State :=
  let w := Config.misr p (if bits s R.bistTeCtrl 28 2 = 1 then 1 else 0) s.bist.testSeed.toNat (max 1 (bits s R.bistTeCtrl 0 16))
  setBit { setReg (setReg s R.bistTeMisrLo (lowHalf w)) R.bistTeMisrHi (highHalf w) with pwr := { s.pwr with test := none } }
    R.bistTeCtrl 30 false

theorem marchCluster_frame (p : Nat) (s : State) : ∃ c, marchCluster p s = { s with clusters := c } := by
  unfold marchCluster
  split
  · exact ⟨_, rfl⟩
  · exact ⟨s.clusters, rfl⟩

theorem testDone_shows {s : State} {p : Nat} (ht : s.pwr.test = some p) :
    Completes .testEngineDone s fun t =>
      t.pwr = { s.pwr with test := none } ∧ bit t R.bistTeCtrl 30 = false ∧
      (let w := Config.misr p (if bits s R.bistTeCtrl 28 2 = 1 then 1 else 0) s.bist.testSeed.toNat
          (max 1 (bits s R.bistTeCtrl 0 16))
       reg t R.bistTeMisrLo = lowHalf w ∧ reg t R.bistTeMisrHi = highHalf w) ∧
      keepsRegs [R.bistTeCtrl, R.bistTeMisrLo, R.bistTeMisrHi] s t := by
  have hrun : ∃ c, testDone s = { testShown p s with clusters := c } := by
    have hdone : testDone s = if (if bits s R.bistTeCtrl 28 2 = 1 then 1 else 0) = 1 then marchCluster p (testShown p s)
        else testShown p s := by
      rw [testDone, ht]
      rfl
    rw [hdone]
    generalize (if bits s R.bistTeCtrl 28 2 = 1 then 1 else 0) = kind
    split
    · exact marchCluster_frame p (testShown p s)
    · exact ⟨s.clusters, rfl⟩
  obtain ⟨c, hrun⟩ := hrun
  have hlo : R.bistTeMisrLo ≠ R.bistTeCtrl := by decide
  have hhi : R.bistTeMisrHi ≠ R.bistTeCtrl := by decide
  refine ⟨_, congrArg Host.Outcome.next hrun, rfl, bit_setBit _ _ _ _ (by omega), ⟨?_, ?_⟩, ?_⟩
  · refine (reg_setBit_ne _ _ _ _ _ hlo).trans ?_
    exact (reg_setReg _ _ _ _).trans ((if_neg (by decide)).trans ((reg_setReg _ _ _ _).trans (if_pos rfl)))
  · refine (reg_setBit_ne _ _ _ _ _ hhi).trans ?_
    exact (reg_setReg _ _ _ _).trans (if_pos rfl)
  · have hset : keepsRegs [R.bistTeCtrl, R.bistTeMisrLo, R.bistTeMisrHi] s (testShown p s) :=
      keepsRegs.setBit (t := { setReg (setReg s R.bistTeMisrLo _) R.bistTeMisrHi _ with pwr := { s.pwr with test := none } })
        (((keepsRegs_refl _ s).setReg (by simp) _).setReg (by simp) _) (by simp) _ _
    exact hset

end Sys2Proof.Machine
end

/-! # The end of the built-in self-test (O53) -/

section
namespace Sys2Proof.Machine
set_option Elab.async false

/-! ## Steps that change registers only, one after the other -/

theorem forUpTo_regs {f : Nat → State → State} (h : ∀ k u, ∃ g, f k u = { u with regs := g }) (n : Nat) (s : State) :
    ∃ g, forUpTo n f s = { s with regs := g } := by
  induction n with
  | zero => exact ⟨s.regs, rfl⟩
  | succ n ih =>
    obtain ⟨g, e⟩ := ih
    obtain ⟨g', e'⟩ := h n (forUpTo n f s)
    exact ⟨g', by rw [forUpTo_succ, e', e]⟩

/-! ## What the later steps of BIST_DONE keep -/

/-- The registers that show the result. -/
def resultRegs : List Nat := [R.glbUnitPresent0, R.glbUnitPresent1, R.bistStatus] ++ (List.range 8).map R.bankPresent

/-- The result shown in `s` stands in `t`. -/
def ResultsKept (s t : State) : Prop := (∀ a ∈ resultRegs, reg t a = reg s a) ∧ t.bist = s.bist ∧ t.banks = s.banks

theorem ResultsKept.refl (s : State) : ResultsKept s s := ⟨fun _ _ => rfl, rfl, rfl⟩

theorem ResultsKept.trans {s t u : State} (h : ResultsKept s t) (h' : ResultsKept t u) : ResultsKept s u :=
  ⟨fun a ha => (h'.1 a ha).trans (h.1 a ha), h'.2.1.trans h.2.1, h'.2.2.trans h.2.2⟩

theorem ResultsKept.setReg {s t : State} (h : ResultsKept s t) {a : Nat} (ha : a ∉ resultRegs) (w : Word) :
    ResultsKept s (Machine.setReg t a w) :=
  ⟨fun b hb => by rw [reg_setReg, if_neg (ne_of_mem_of_not_mem hb ha), h.1 b hb], h.2.1, h.2.2⟩

theorem ResultsKept.setBit {s t : State} (h : ResultsKept s t) {a : Nat} (ha : a ∉ resultRegs) (i : Nat) (b : Bool) :
    ResultsKept s (Machine.setBit t a i b) := h.setReg ha _

theorem ResultsKept.setBits {s t : State} (h : ResultsKept s t) {a : Nat} (ha : a ∉ resultRegs) (lo n v : Nat) :
    ResultsKept s (Machine.setBits t a lo n v) := h.setReg ha _

theorem ResultsKept.of_moved {L : List Nat} {s t : State} (h : LinksMoved L s t) (hL : ∀ a ∈ resultRegs, a ∉ L) : ResultsKept s t :=
  ⟨fun a ha => h.1 a (hL a ha), by rw [h.2], by rw [h.2]⟩

theorem ResultsKept.forUpTo {f : Nat → State → State} {n : Nat} (h : ∀ k, k < n → ∀ u, ResultsKept u (f k u)) (s : State) :
    ResultsKept s (forUpTo n f s) := by
  induction n with
  | zero => exact .refl s
  | succ n ih =>
    rw [forUpTo_succ]
    exact (ih fun k hk => h k (Nat.lt_succ_of_lt hk)).trans (h n (Nat.lt_succ_self n) _)

theorem mem_resultRegs {a : Nat} : a ∈ resultRegs ↔
    a = R.glbUnitPresent0 ∨ a = R.glbUnitPresent1 ∨ a = R.bistStatus ∨ ∃ i, i < 8 ∧ R.bankPresent i = a := by
  simp [resultRegs]

theorem not_mem_resultRegs {a : Nat} (h : 0x10 ≤ a ∧ a < 0x500000) : a ∉ resultRegs := by
  rw [mem_resultRegs]
  simp only [R.glbUnitPresent0, R.glbUnitPresent1, R.bistStatus, R.bankPresent]
  omega

theorem setDomains_kept (s : State) : ResultsKept s (setDomains s) := by
  refine ResultsKept.forUpTo (fun d hd u => ?_) s
  have hs : R.pwrDomainStatus d ∉ resultRegs := not_mem_resultRegs (by simp only [R.pwrDomainStatus]; omega)
  have hc : R.pwrDomainCtrl d ∉ resultRegs := not_mem_resultRegs (by simp only [R.pwrDomainCtrl]; omega)
  split
  · exact (ResultsKept.refl u).setBit hs _ _
  · exact (((ResultsKept.refl u).setBit hs _ _).setBit hc _ _).setBits hs _ _ _

theorem enableLinks_kept (s : State) : ResultsKept s (enableLinks s) := by
  refine ResultsKept.forUpTo (fun l hl u => ?_) s
  have hcfg : R.cwLinkCfg l ∉ resultRegs := not_mem_resultRegs (by simp only [R.cwLinkCfg]; omega)
  refine ((ResultsKept.refl u).setBit hcfg _ _).trans (.of_moved (.of_lanes (checkLoops_moved l _).1) fun a ha hm => ?_)
  rw [List.mem_singleton.1 hm] at ha
  exact not_mem_resultRegs (by simp only [R.cwLinkStatus]; omega) ha

theorem startLanes_kept (s : State) : ResultsKept s (startLanes s) := by
  refine ResultsKept.forUpTo (fun a ha u => ?_) s
  split
  · refine .of_moved (laneTrains_retrained ha u).moved fun x hx hm => ?_
    have := trainRegs_cw x hm
    exact not_mem_resultRegs (by omega) hx
  · exact .refl u

/-! ## Presence -/

theorem testBit_toNat_zero (b : Bool) : b.toNat.testBit 0 = b := by cases b <;> rfl

theorem testBit_presence {reach ddr : Nat} (hr : reach < 2 ^ 16) (hd : ddr < 2 ^ 4) (hb ob tr : Bool) (i : Nat) :
    (reach + ddr <<< 16 + hb.toNat <<< 20 + ob.toNat <<< 21 + tr.toNat <<< 22).testBit i =
      if i < 16 then reach.testBit i else if i < 20 then ddr.testBit (i - 16) else if i = 20 then hb else if i = 21 then ob
        else if i = 22 then tr else false := by
  have hsum : reach + ddr <<< 16 + hb.toNat <<< 20 + ob.toNat <<< 21 + tr.toNat <<< 22 =
      2 ^ 16 * (2 ^ 4 * (2 ^ 1 * (2 ^ 1 * tr.toNat + ob.toNat) + hb.toNat) + ddr) + reach := by
    simp only [Nat.shiftLeft_eq]
    omega
  have hbit (b : Bool) : b.toNat < 2 ^ 1 := b.toNat_lt
  rw [hsum, Nat.testBit_two_pow_mul_add _ hr, Nat.testBit_two_pow_mul_add _ hd, Nat.testBit_two_pow_mul_add _ (hbit hb),
    Nat.testBit_two_pow_mul_add _ (hbit ob)]
  by_cases h16 : i < 16
  · rw [if_pos h16, if_pos h16]
  rw [if_neg h16, if_neg h16]
  by_cases h20 : i < 20
  · rw [if_pos (by omega), if_pos h20]
  rw [if_neg (by omega), if_neg h20]
  by_cases h : i = 20
  · subst h
    exact testBit_toNat_zero _
  rw [if_neg (by omega), if_neg h]
  by_cases h : i = 21
  · subst h
    exact testBit_toNat_zero _
  rw [if_neg (by omega), if_neg h]
  by_cases h : i = 22
  · subst h
    exact testBit_toNat_zero _
  rw [if_neg h]
  obtain ⟨k, hk⟩ : ∃ k, i - 16 - 4 - 1 - 1 = k + 1 := ⟨i - 23, by omega⟩
  rw [hk]
  cases tr <;> simp [Nat.testBit_succ]

theorem bit_ofNat {m i : Nat} (hi : i < 32) : (BitVec.ofNat 32 m).getLsbD i = m.testBit i := by
  rw [BitVec.getLsbD_ofNat, decide_eq_true hi, Bool.true_and]

/-- The bit of member `k` in the mask of the first `n` numbers that have `p`. -/
theorem testBit_maskOf_filter (p : Nat → Bool) {n k : Nat} (hk : k < n) : (maskOf ((List.range n).filter p)).testBit k = p k := by
  rw [testBit_maskOf]
  simp [hk]

theorem maskOf_filter_lt (p : Nat → Bool) (n : Nat) : maskOf ((List.range n).filter p) < 2 ^ n :=
  maskOf_lt fun _ hk => List.mem_range.1 (List.mem_filter.1 hk).1

/-- The words of UNIT_PRESENT0, UNIT_PRESENT1 and BANK_PRESENT after BIST. -/
def presence0 (x : BistResult) (s : State) : Nat :=
  maskOf ((List.range 16).filter fun r => !(absentReaches x).contains r) +
    maskOf ((List.range 4).filter fun c => gradeHas s (16 + c) && !x.ddrFail.getLsbD c) <<< 16 +
    (gradeHas s 26 && !x.harbourFail).toNat <<< 20 + (!x.observationFail).toNat <<< 21 + (gradeTrace s && !x.traceFail).toNat <<< 22
def presence1 (x : BistResult) (s : State) : Nat :=
  maskOf ((List.range 20).filter fun q => gradeQuad s q && !x.quadFail.getLsbD q)
def presentBanks (x : BistResult) (i : Nat) : Nat :=
  maskOf ((List.range 32).filter fun j =>
    !x.bankFail.getLsbD (32 * i + j) && !(absentReaches x).contains ((32 * i + j) / 16))

theorem presence0_die {x : BistResult} {s t : State} (h : t.die = s.die) : presence0 x t = presence0 x s := by
  have hg (d : Nat) : gradeHas t d = gradeHas s d := by rw [gradeHas, h, gradeHas]
  have ht : gradeTrace t = gradeTrace s := by rw [gradeTrace, h, gradeTrace]
  have hd : (fun c => gradeHas t (16 + c) && !x.ddrFail.getLsbD c) = fun c => gradeHas s (16 + c) && !x.ddrFail.getLsbD c :=
    funext fun c => by rw [hg]
  unfold presence0
  rw [hd, hg, ht]

theorem presence1_die {x : BistResult} {s t : State} (h : t.die = s.die) : presence1 x t = presence1 x s := by
  have hq (q : Nat) : gradeQuad t q = gradeQuad s q := by rw [gradeQuad, h, gradeQuad]
  have hf : (fun q => gradeQuad t q && !x.quadFail.getLsbD q) = fun q => gradeQuad s q && !x.quadFail.getLsbD q :=
    funext fun q => by rw [hq]
  unfold presence1
  rw [hf]

/-- BANK_PRESENT of the first `n` words is shown. -/
def banksShown (x : BistResult) (n : Nat) (s : State) : State :=
  forUpTo n (fun i acc => setReg acc (R.bankPresent i) (BitVec.ofNat 32 (presentBanks x i))) s

theorem setPresence_eq (x : BistResult) (s : State) : setPresence x s = banksShown x 8
    (setReg (setReg s R.glbUnitPresent0 (BitVec.ofNat 32 (presence0 x s))) R.glbUnitPresent1 (BitVec.ofNat 32 (presence1 x s))) := rfl

theorem banksShown_moved (x : BistResult) (n : Nat) (s : State) :
    keepsRegs ((List.range n).map R.bankPresent) s (banksShown x n s) ∧ (∃ g, banksShown x n s = { s with regs := g }) ∧
      ∀ i, i < n → reg (banksShown x n s) (R.bankPresent i) = BitVec.ofNat 32 (presentBanks x i) := by
  induction n with
  | zero => exact ⟨keepsRegs_refl _ s, ⟨s.regs, rfl⟩, fun i hi => absurd hi (by omega)⟩
  | succ n ih =>
    obtain ⟨hk, ⟨g, e⟩, hb⟩ := ih
    rw [banksShown, forUpTo_succ, ← banksShown]
    refine ⟨?_, ⟨_, by rw [e]; rfl⟩, fun i hi => ?_⟩
    · exact (hk.mono (List.map_subset R.bankPresent (List.range_subset.2 (Nat.le_succ n)))).setReg
        (List.mem_map.2 ⟨n, List.self_mem_range_succ, rfl⟩) _
    · rw [reg_setReg]
      by_cases h : i = n
      · rw [if_pos (by rw [h]), h]
      · rw [if_neg (by simp only [R.bankPresent]; omega)]
        exact hb i (by omega)

/-- What the presence registers show of a result. -/
structure PresenceShown (x : BistResult) (s t : State) : Prop where
  units0 : reg t R.glbUnitPresent0 = BitVec.ofNat 32 (presence0 x s)
  units1 : reg t R.glbUnitPresent1 = BitVec.ofNat 32 (presence1 x s)
  banks : ∀ i, i < 8 → reg t (R.bankPresent i) = BitVec.ofNat 32 (presentBanks x i)

theorem setPresence_shown (x : BistResult) (s : State) : PresenceShown x s (setPresence x s) ∧
    reg (setPresence x s) R.bistStatus = reg s R.bistStatus ∧ ∃ g, setPresence x s = { s with regs := g } := by
  obtain ⟨hk, ⟨g, e⟩, hb⟩ := banksShown_moved x 8
    (setReg (setReg s R.glbUnitPresent0 (BitVec.ofNat 32 (presence0 x s))) R.glbUnitPresent1 (BitVec.ofNat 32 (presence1 x s)))
  rw [setPresence_eq]
  refine ⟨⟨?_, ?_, hb⟩, ?_, ⟨g, e⟩⟩
  · exact (hk _ (by decide)).trans ((reg_setReg _ _ _ _).trans ((if_neg (by decide)).trans
      ((reg_setReg _ _ _ _).trans (if_pos rfl))))
  · exact (hk _ (by decide)).trans ((reg_setReg _ _ _ _).trans (if_pos rfl))
  · exact (hk _ (by decide)).trans ((reg_setReg _ _ _ _).trans ((if_neg (by decide)).trans
      ((reg_setReg _ _ _ _).trans (if_neg (by decide)))))

/-- The units present are those that the part has and that passed. -/
theorem PresenceShown.present {x : BistResult} {s t : State} (h : PresenceShown x s t) :
    (∀ r, r < 16 → reachPresent t r = !(absentReaches x).contains r) ∧
    (∀ c, c < 4 → ddrPresent t c = (gradeHas s (16 + c) && !x.ddrFail.getLsbD c)) ∧
    harbourPresent t = (gradeHas s 26 && !x.harbourFail) ∧ observationPresent t = !x.observationFail ∧
    tracePresent t = (gradeTrace s && !x.traceFail) ∧
    (∀ q, q < 20 → quadPresent t q = (gradeQuad s q && !x.quadFail.getLsbD q)) ∧
    (∀ b, b < 256 → bankPresent t b = (!x.bankFail.getLsbD b && !(absentReaches x).contains (b / 16))) := by
  have hunit {i : Nat} (hi : i < 32) : bit t R.glbUnitPresent0 i = (presence0 x s).testBit i := by
    rw [bit, h.units0, bit_ofNat hi]
  have hword (i : Nat) := testBit_presence (maskOf_filter_lt (fun r => !(absentReaches x).contains r) 16)
    (maskOf_filter_lt (fun c => gradeHas s (16 + c) && !x.ddrFail.getLsbD c) 4) (gradeHas s 26 && !x.harbourFail)
    (!x.observationFail) (gradeTrace s && !x.traceFail) i
  refine ⟨fun r hr => ?_, fun c hc => ?_, ?_, ?_, ?_, fun q hq => ?_, fun b hb => ?_⟩
  · exact (hunit (by omega)).trans ((hword r).trans ((if_pos hr).trans (testBit_maskOf_filter _ hr)))
  · refine (hunit (by omega)).trans ((hword (16 + c)).trans ((if_neg (by omega)).trans ((if_pos (by omega)).trans ?_)))
    rw [Nat.add_sub_cancel_left]
    exact testBit_maskOf_filter _ hc
  · exact (hunit (by omega)).trans (hword 20)
  · exact (hunit (by omega)).trans (hword 21)
  · exact (hunit (by omega)).trans (hword 22)
  · rw [quadPresent, bit, h.units1, bit_ofNat (by omega)]
    exact testBit_maskOf_filter _ hq
  · have hmod : b % 32 < 32 := Nat.mod_lt _ (by omega)
    rw [Machine.bankPresent, bit, h.banks _ (by omega), bit_ofNat hmod, presentBanks, testBit_maskOf_filter _ hmod,
      Nat.div_add_mod]

/-! ## Memories, mapping and results -/

/-- The mapping after BIST. -/
def mappedBist (x : BistResult) (s : State) : Bist :=
  { s.bist with
    remap := (assignSpares x).2.1.foldl (fun m p => put id m p.1 (128 + p.2)) []
    assigned := (assignSpares x).2.1.foldl (fun m p => enter m p.2 p.1) []
    goodSpares := BitVec.ofNat 8 (maskOf (goodSpares x)), svcAbsent := x.svcFail }

theorem bistMemories_frame (s : State) : ∃ g, bistMemories s = { s with
    regs := g, clusters := []
    banks := { s.banks with design := [], service := s.banks.service.filter fun x => x.1 < 8, march := none } } := by
  obtain ⟨g, e⟩ := forUpTo_regs (f := fun b acc => if bit acc (R.bankCfg b) 30 then setBit acc (R.bankCfg b) 30 false else acc)
    (fun b u => by
      split
      · exact ⟨_, rfl⟩
      · exact ⟨u.regs, rfl⟩) 256 { s with
        clusters := [], banks := { s.banks with design := [], service := s.banks.service.filter fun x => x.1 < 8, march := none } }
  rw [bistMemories]
  dsimp only
  rw [e]
  exact ⟨_, rfl⟩

theorem showResults_shown (x : BistResult) (s : State) :
    bit (showResults x s) R.bistStatus 23 = x.meshFail ∧
      bits (showResults x s) R.bistStatus 16 4 = (assignSpares x).2.1.length % 16 ∧
      ∃ g, showResults x s = { s with regs := g } := by
  obtain ⟨g, e⟩ := forUpTo_regs (f := fun i acc => setReg acc (R.bistClusterFail i)
    (BitVec.ofNat 32 (bitsOf x.clusterFail (32 * i) 32))) (fun i u => ⟨_, rfl⟩) 5 s
  rw [showResults, e]
  refine ⟨?_, ?_, ⟨_, rfl⟩⟩
  · rw [bit_setBits_ne _ _ _ _ _ _ _ (by omega), bit_setBits_ne _ _ _ _ _ _ _ (by omega), bit_setBit _ _ _ _ (by omega)]
  · rw [bits_setBits_ne _ _ _ _ _ _ _ _ (by omega), bits_setBits _ _ _ _ _ (by omega)]
    rfl

/-! ## The report (R359) -/

/-- The faults and the Cairn record of the result. -/
def faultsTold (x : BistResult) (s : State) : State :=
  let s := { s with pwr := { s.pwr with reopening := false } }
  let s := if x.fuseFail then (let y := takeFree 16 s; signal 203 y.1.toNat y.2) else s
  let s := if bistDegraded x then signal 205 (assignSpares x).2.1.length s else s
  addRecord 2 (bistPayload x s.bist.restarts) s

theorem faultsTold_frame (x : BistResult) (s : State) :
    ∃ p n f c, faultsTold x s = { s with pwr := p, free := n, flt := f, cairn := c } := by
  have hfuse (u : State) : ∃ n f, (if x.fuseFail then signal 203 (takeFree 16 u).1.toNat (takeFree 16 u).2 else u)
      = { u with free := n, flt := f } := by
    split
    · obtain ⟨l, e⟩ := signal_frame 203 (takeFree 16 u).1.toNat (takeFree 16 u).2
      exact ⟨_, _, e⟩
    · exact ⟨u.free, u.flt, rfl⟩
  have hdegraded (u : State) : ∃ f, (if bistDegraded x then signal 205 (assignSpares x).2.1.length u else u) = { u with flt := f } := by
    split
    · obtain ⟨l, e⟩ := signal_frame 205 (assignSpares x).2.1.length u
      exact ⟨_, e⟩
    · exact ⟨u.flt, rfl⟩
  obtain ⟨n, f, e⟩ := hfuse { s with pwr := { s.pwr with reopening := false } }
  rw [faultsTold]
  dsimp only at e ⊢
  rw [e]
  obtain ⟨f', e'⟩ := hdegraded { s with pwr := { s.pwr with reopening := false }, free := n, flt := f }
  dsimp only at e' ⊢
  rw [e']
  obtain ⟨q, e2⟩ := addRecord_frame 2 (bistPayload x s.bist.restarts)
    { s with pwr := { s.pwr with reopening := false }, free := n, flt := f' }
  exact ⟨_, n, f', _, e2⟩

/-- BIST has ended: its state is shown, with cause bit 35 and trace event 6, and Lighthouse goes on. -/
def bistEnded (s : State) : State :=
  let s := traceEvent 6 (raiseCause 35 (setBits s R.bistStatus 28 4 2))
  if bits s R.lhStatus 28 4 = 0 then setLhState 1 s else s

theorem raiseCause_high {v : Nat} (hv : ¬ v < 32) (s : State) : keepsRegs [R.glbIrqCauseHi] s (raiseCause v s) := by
  have h := raiseCause_keeps v s
  rwa [if_neg hv] at h

/-- Lighthouse in state 1: cause bit 35. -/
theorem setLhState_one (s : State) : setLhState 1 s = raiseCause 35 (setBits s R.lhStatus 28 4 1) := rfl

theorem setLhState_one_moved (s : State) : keepsRegs [R.lhStatus, R.glbIrqCauseHi] s (setLhState 1 s) ∧
    ∃ g p, setLhState 1 s = { s with regs := g, pcie := p } := by
  rw [setLhState_one]
  obtain ⟨g, l, e⟩ := raiseCause_frame 35 (setBits s R.lhStatus 28 4 1)
  exact ⟨((keepsRegs_refl _ s).setBits (by simp) 28 4 1).trans ((raiseCause_high (by decide) _).mono (by simp)), g, _, e⟩

/-- The registers that the end of BIST writes. -/
def endRegs : List Nat := [R.bistStatus, R.glbIrqCauseHi, R.trcStatus, R.trcLost, R.lhStatus]

theorem bistEnded_ends (s : State) :
    keepsRegs endRegs s (bistEnded s) ∧ bits (bistEnded s) R.bistStatus 28 4 = 2 ∧
      bit (bistEnded s) R.bistStatus 23 = bit s R.bistStatus 23 ∧
      bits (bistEnded s) R.bistStatus 16 4 = bits s R.bistStatus 16 4 ∧ causeBit (bistEnded s) 35 = true ∧
      ∃ g p c, bistEnded s = { s with regs := g, pcie := p, trc := c } := by
  obtain ⟨g1, l1, e1⟩ := raiseCause_frame 35 (setBits s R.bistStatus 28 4 2)
  obtain ⟨hk2, g2, c2, e2⟩ := traceEvent_moved 6 (raiseCause 35 (setBits s R.bistStatus 28 4 2))
  have hcause : causeBit (traceEvent 6 (raiseCause 35 (setBits s R.bistStatus 28 4 2))) 35 = true :=
    (hk2.bit (by decide) 3).trans (causeBit_raiseCause 35 _)
  have hkeep : keepsRegs [R.glbIrqCauseHi, R.trcStatus, R.trcLost] (setBits s R.bistStatus 28 4 2)
      (traceEvent 6 (raiseCause 35 (setBits s R.bistStatus 28 4 2))) :=
    ((raiseCause_high (by decide) _).mono (by simp)).trans (hk2.mono (by simp))
  have hframe : ∃ g p c, traceEvent 6 (raiseCause 35 (setBits s R.bistStatus 28 4 2)) = { s with regs := g, pcie := p, trc := c } :=
    ⟨g2, _, c2, by rw [e2, e1]; rfl⟩
  rw [bistEnded]
  generalize traceEvent 6 (raiseCause 35 (setBits s R.bistStatus 28 4 2)) = u at *
  obtain ⟨w, hw, hkw, hcw, hfw⟩ : ∃ w, (if bits u R.lhStatus 28 4 = 0 then setLhState 1 u else u) = w ∧
      keepsRegs [R.lhStatus, R.glbIrqCauseHi] u w ∧ causeBit w 35 = true ∧ ∃ g p, w = { u with regs := g, pcie := p } := by
    split
    · exact ⟨_, rfl, (setLhState_one_moved u).1, causeBit_raiseCause 35 _, (setLhState_one_moved u).2⟩
    · exact ⟨_, rfl, keepsRegs_refl _ u, hcause, u.regs, u.pcie, rfl⟩
  rw [hw]
  have hall : keepsRegs [R.glbIrqCauseHi, R.trcStatus, R.trcLost, R.lhStatus] (setBits s R.bistStatus 28 4 2) w :=
    (hkeep.mono (by simp)).trans (hkw.mono (by simp))
  refine ⟨?_, ?_, ?_, ?_, hcw, ?_⟩
  · exact ((keepsRegs_refl _ s).setBits (by simp [endRegs]) 28 4 2).trans (hall.mono (by simp [endRegs]))
  · rw [hall.bits (by decide), bits_setBits _ _ _ _ _ (by omega), Nat.mod_eq_of_lt (by decide)]
  · rw [hall.bit (by decide), bit_setBits_ne _ _ _ _ _ _ _ (by omega)]
  · rw [hall.bits (by decide), bits_setBits_ne _ _ _ _ _ _ _ _ (by omega)]
  · obtain ⟨g, p, c, e⟩ := hframe
    obtain ⟨g', p', e'⟩ := hfw
    exact ⟨g', p', c, by rw [e', e]⟩

/-- The units as BIST leaves them, before its report. -/
def unitsTested (x : BistResult) (s : State) : State :=
  startLanes (enableLinks (setDomains (setPresence x (showResults x (bistMemories (setMapping x s))))))

theorem bistDone_runs {result : BistResult} {s : State} (hb : bistRuns s = true) (hp : bistPhase s = 11) :
    bistDone result s = bistEnded (faultsTold (testedOnly s result) (unitsTested (testedOnly s result) s)) := by
  refine if_neg ?_
  rintro (h | h)
  · exact h hb
  · exact h hp

/-- What the units show before the report. -/
structure UnitsTested (x : BistResult) (s t : State) : Prop where
  present : PresenceShown x s t
  mesh : bit t R.bistStatus 23 = x.meshFail
  spares : bits t R.bistStatus 16 4 = (assignSpares x).2.1.length % 16
  bist : t.bist = mappedBist x s
  design : t.banks.design = []
  march : t.banks.march = none

theorem unitsTested_tested (x : BistResult) (s : State) : UnitsTested x s (unitsTested x s) := by
  have hkept := ((setDomains_kept (setPresence x (showResults x (bistMemories (setMapping x s))))).trans (enableLinks_kept _)).trans
    (startLanes_kept _)
  obtain ⟨g0, e0⟩ := bistMemories_frame (setMapping x s)
  obtain ⟨hmesh, hspares, g1, e1⟩ := showResults_shown x (bistMemories (setMapping x s))
  obtain ⟨hshown, hstatus, g2, e2⟩ := setPresence_shown x (showResults x (bistMemories (setMapping x s)))
  have hstatus' : reg (unitsTested x s) R.bistStatus = reg (showResults x (bistMemories (setMapping x s))) R.bistStatus :=
    (hkept.1 _ (mem_resultRegs.2 (.inr (.inr (.inl rfl))))).trans hstatus
  have hdie : (showResults x (bistMemories (setMapping x s))).die = s.die := by
    rw [e1, e0]
    rfl
  have hword0 : presence0 x (showResults x (bistMemories (setMapping x s))) = presence0 x s :=
    presence0_die hdie
  have hword1 : presence1 x (showResults x (bistMemories (setMapping x s))) = presence1 x s :=
    presence1_die hdie
  have hbanks : (unitsTested x s).banks.design = [] ∧ (unitsTested x s).banks.march = none := by
    have hsame : (unitsTested x s).banks = (setPresence x (showResults x (bistMemories (setMapping x s)))).banks := hkept.2.2
    rw [hsame, e2, e1, e0]
    exact ⟨rfl, rfl⟩
  have hbist : (unitsTested x s).bist = mappedBist x s := by
    have hsame : (unitsTested x s).bist = (setPresence x (showResults x (bistMemories (setMapping x s)))).bist := hkept.2.1
    rw [hsame, e2, e1, e0]
    rfl
  refine ⟨⟨?_, ?_, fun i hi => ?_⟩, ?_, ?_, hbist, hbanks.1, hbanks.2⟩
  · rw [← hword0, ← hshown.units0]
    exact hkept.1 _ (mem_resultRegs.2 (.inl rfl))
  · rw [← hword1, ← hshown.units1]
    exact hkept.1 _ (mem_resultRegs.2 (.inr (.inl rfl)))
  · rw [← hshown.banks i hi]
    exact hkept.1 _ (mem_resultRegs.2 (.inr (.inr (.inr ⟨i, hi, rfl⟩))))
  · rw [bit, hstatus']
    exact hmesh
  · rw [bits, hstatus']
    exact hspares

theorem unitsReported_tested {x : BistResult} {s t : State} (h : UnitsTested x s t) :
    UnitsTested x s (bistEnded (faultsTold x t)) := by
  obtain ⟨p, n, f, c, e⟩ := faultsTold_frame x t
  have hregs (a : Nat) : reg (faultsTold x t) a = reg t a := by rw [e]; rfl
  have hbist : (faultsTold x t).bist = t.bist := by rw [e]
  have hbanks : (faultsTold x t).banks = t.banks := by rw [e]
  generalize faultsTold x t = u at *
  obtain ⟨hk, -, h23, h16, -, g', p', c', e'⟩ := bistEnded_ends u
  refine ⟨⟨?_, ?_, fun i hi => ?_⟩, ?_, ?_, ?_, ?_, ?_⟩
  · exact (hk _ (by decide)).trans ((hregs _).trans h.present.units0)
  · exact (hk _ (by decide)).trans ((hregs _).trans h.present.units1)
  · refine (hk _ ?_).trans ((hregs _).trans (h.present.banks i hi))
    revert i
    decide
  · rw [h23, bit, hregs]
    exact h.mesh
  · rw [h16, bits, hregs]
    exact h.spares
  · rw [e']
    exact hbist.trans h.bist
  · rw [e']
    exact (congrArg Banks.design hbanks).trans h.design
  · rw [e']
    exact (congrArg Banks.march hbanks).trans h.march

/-- Each assigned spare serves its cluster, and no other spare serves one. -/
theorem mappedBist_maps {x : BistResult} {s t : State} (h : t.bist = mappedBist x s) :
    (∀ p ∈ (assignSpares x).2.1, physicalOf t p.1 = 128 + p.2 ∧ logicalOf t (128 + p.2) = some p.1) ∧
    (∀ n, (∀ p ∈ (assignSpares x).2.1, p.1 ≠ n) → physicalOf t n = n) ∧
    (∀ k, k < 8 → (∀ p ∈ (assignSpares x).2.1, p.2 ≠ k) → logicalOf t (128 + k) = none) := by
  obtain ⟨hin, hout⟩ := look_foldl_pairs id (128 + ·) (assignSpares x).2.1 (assignSpares_clusters_nodup x) []
  obtain ⟨hfound, hnone⟩ := find_foldl_pairs (assignSpares x).2.1 (assignSpares_spares_nodup x) []
  have hspare (k : Nat) : logicalOf t (128 + k) =
      find ((assignSpares x).2.1.foldl (fun m p => enter m p.2 p.1) []) k := by
    rw [logicalOf, if_neg (by omega), h, Nat.add_sub_cancel_left]
    rfl
  have hphysical (n : Nat) : physicalOf t n = look id ((assignSpares x).2.1.foldl (fun m p => put id m p.1 (128 + p.2)) []) n := by
    rw [physicalOf, h]
    rfl
  refine ⟨fun p hp => ⟨(hphysical _).trans (hin p hp), (hspare _).trans (hfound p hp)⟩, fun n hn => (hphysical n).trans (hout n hn),
    fun k _ hk => (hspare k).trans (hnone k hk)⟩

/-! ## Grades -/

theorem assignSpares_testedOnly (s : State) (x : BistResult) : assignSpares (testedOnly s x) = assignSpares x := by
  have hreach : assignReach (testedOnly s x) = assignReach x := rfl
  rw [assignSpares, hreach]
  rfl

theorem absentReaches_testedOnly (s : State) (x : BistResult) : absentReaches (testedOnly s x) = absentReaches x := by
  rw [absentReaches, assignSpares_testedOnly]
  rfl

theorem testedOnly_units (s : State) (x : BistResult) :
    (∀ c, c < 4 → (gradeHas s (16 + c) && !(testedOnly s x).ddrFail.getLsbD c) = (gradeHas s (16 + c) && !x.ddrFail.getLsbD c)) ∧
    (∀ q, q < 20 → (gradeQuad s q && !(testedOnly s x).quadFail.getLsbD q) = (gradeQuad s q && !x.quadFail.getLsbD q)) ∧
    (gradeHas s 26 && !(testedOnly s x).harbourFail) = (gradeHas s 26 && !x.harbourFail) ∧
    (gradeTrace s && !(testedOnly s x).traceFail) = (gradeTrace s && !x.traceFail) := by
  cases hg : s.die.gradeA with
  | true => simp [testedOnly, gradeHas, gradeTrace, hg]
  | false =>
    refine ⟨fun c hc => ?_, fun q hq => ?_, ?_, ?_⟩
    · have hcase : c = 0 ∨ c = 1 ∨ c = 2 ∨ c = 3 := by omega
      rcases hcase with rfl | rfl | rfl | rfl <;> simp [testedOnly, gradeHas, hg]
    · by_cases h10 : q < 10
      · have hmask : (0x3FF : BitVec 20).getLsbD q = true := by
          revert q
          decide
        simp [testedOnly, gradeQuad, hg, h10, show (1023#20).getLsbD q = true from hmask]
      · simp [gradeQuad, hg, h10]
    · simp [gradeHas, hg]
    · simp [gradeTrace, hg]

theorem goodSpares_bit (x : BistResult) {k : Nat} (hk : k < 8) :
    (BitVec.ofNat 8 (maskOf (goodSpares x))).getLsbD k = !x.clusterFail.getLsbD (128 + k) := by
  rw [BitVec.getLsbD_ofNat, decide_eq_true hk, Bool.true_and]
  exact testBit_maskOf_filter _ hk

theorem bistDone_shows {x : BistResult} {s : State} (hb : bistRuns s = true) (hp : bistPhase s = 11) :
    Completes (.bistDone x) s fun t =>
      bits t R.bistStatus 28 4 = 2 ∧ bit t R.bistStatus 23 = x.meshFail ∧
      bits t R.bistStatus 16 4 = (assignSpares x).2.1.length % 16 ∧
      (∀ r, r < 16 → reachPresent t r = !(absentReaches x).contains r) ∧
      (∀ b, b < 256 → bankPresent t b = (!x.bankFail.getLsbD b && !(absentReaches x).contains (b / 16))) ∧
      harbourPresent t = (gradeHas s 26 && !x.harbourFail) ∧ causeBit t 35 = true ∧
      (∀ c, c < 4 → ddrPresent t c = (gradeHas s (16 + c) && !x.ddrFail.getLsbD c)) ∧
      (∀ q, q < 20 → quadPresent t q = (gradeQuad s q && !x.quadFail.getLsbD q)) ∧
      observationPresent t = !x.observationFail ∧ tracePresent t = (gradeTrace s && !x.traceFail) ∧
      (∀ k, k < 8 → t.bist.goodSpares.getLsbD k = !x.clusterFail.getLsbD (128 + k)) ∧
      (∀ p ∈ (assignSpares x).2.1, physicalOf t p.1 = 128 + p.2 ∧ logicalOf t (128 + p.2) = some p.1) ∧
      (∀ n, (∀ p ∈ (assignSpares x).2.1, p.1 ≠ n) → physicalOf t n = n) ∧
      (∀ k, k < 8 → (∀ p ∈ (assignSpares x).2.1, p.2 ≠ k) → logicalOf t (128 + k) = none) ∧
      t.bist.svcAbsent = (testedOnly s x).svcFail ∧ t.banks.design = [] ∧ t.banks.march = none := by
  have hdone := unitsReported_tested (unitsTested_tested (testedOnly s x) s)
  have hend := bistEnded_ends (faultsTold (testedOnly s x) (unitsTested (testedOnly s x) s))
  obtain ⟨hreach, hddr, hhb, hobs, htrace, hquad, hbank⟩ := hdone.present.present
  obtain ⟨hmap, hself, hfree⟩ := mappedBist_maps hdone.bist
  obtain ⟨hd, hq, hh, ht⟩ := testedOnly_units s x
  have hspares := hdone.spares
  rw [assignSpares_testedOnly] at hmap hself hfree hspares
  rw [absentReaches_testedOnly] at hreach hbank
  refine ⟨_, congrArg Host.Outcome.next (bistDone_runs hb hp), hend.2.1, hdone.mesh, hspares, hreach, hbank, hhb.trans hh,
    hend.2.2.2.2.1, fun c hc => (hddr c hc).trans (hd c hc), fun q hq' => (hquad q hq').trans (hq q hq'), hobs, htrace.trans ht,
    fun k hk => ?_, hmap, hself, hfree, ?_, hdone.design, hdone.march⟩
  · rw [hdone.bist]
    exact goodSpares_bit (testedOnly s x) hk
  · rw [hdone.bist]
    rfl

/-- Settles O53: start, phases and end of BIST by the registers each writes; the spares by induction on the reaches; the test
engine by what its register write leaves. -/
theorem selfTest : Obligations.SelfTest :=
  ⟨fun _ => bistRun_starts, fun _ => bistRun_goes_on, fun _ _ => bistDone_shows, fun _ _ => testGo_starts,
    fun _ _ => testDone_shows, fun x => ⟨(assignSpares_assigns x).served, (assignSpares_assigns x).spares, (assignSpares_assigns x).absent⟩,
    fun _ => bistRun_refused, fun _ _ _ => testGo_refused, fun _ _ _ _ => testGo_busy⟩

end Sys2Proof.Machine
end

/-! # What the fault collector registers of an event (R345 to R348) -/

section
namespace Sys2Proof.Machine
set_option Elab.async false

/-- The registers that the registration of an event writes. -/
def collectRegs : List Nat :=
  [R.fltLastLo, R.fltLastHi, R.fltFirstLo, R.fltFirstHi, R.fltStatus, R.glbIrqCauseHi] ++ (List.range 120).map R.fltCount ++
    (List.range 8).map R.fltPend

theorem mem_collectRegs {a : Nat} : a ∈ collectRegs ↔
    a ∈ [R.fltLastLo, R.fltLastHi, R.fltFirstLo, R.fltFirstHi, R.fltStatus, R.glbIrqCauseHi] ∨
      (∃ i, i < 120 ∧ R.fltCount i = a) ∨ ∃ i, i < 8 ∧ R.fltPend i = a := by
  simp only [collectRegs, List.mem_append, List.mem_map, List.mem_range, or_assoc]

theorem not_mem_collectRegs {a : Nat} (h : a ≠ R.glbIrqCauseHi) (hr : a < 0x100000 ∨ 0x100400 ≤ a) : a ∉ collectRegs := by
  rw [mem_collectRegs]
  rintro (hm | ⟨i, hi, hm⟩ | ⟨i, hi, hm⟩)
  · simp only [List.mem_cons, List.not_mem_nil, or_false, R.fltLastLo, R.fltLastHi, R.fltFirstLo, R.fltFirstHi, R.fltStatus] at hm
    rcases hm with hm | hm | hm | hm | hm | hm <;> omega
  · simp only [R.fltCount] at hm
    omega
  · simp only [R.fltPend] at hm
    omega

theorem fltCount_mem {k : Nat} (hk : k < 240) : R.fltCount (k / 2) ∈ collectRegs :=
  mem_collectRegs.2 (.inr (.inl ⟨k / 2, by omega, rfl⟩))

theorem fltPend_mem {k : Nat} (hk : k < 240) : R.fltPend (k / 32) ∈ collectRegs :=
  mem_collectRegs.2 (.inr (.inr ⟨k / 32, by omega, rfl⟩))

/-! ## One event -/

theorem cycleEvents_single {s : State} {k i : Nat} {q : Bool} (h : s.flt.signals = [⟨k, i, q⟩]) :
    cycleEvents s = [⟨k, i, 1, q, appliedSeverity s k⟩] := by
  rw [cycleEvents, h]
  cases q <;> simp [inOrder, insertRising, least]

/-- The registration of an event: count, record, pending bit. -/
def registered (e : Event) (s : State) : State := pendEvent e (logEvent e (countEvent e s))

/-- The collector has taken the detections of its cycle. -/
def taken (s : State) : State :=
  { s with cw := { s.cw with takenAlong := [] }, flt := { s.flt with signals := [], cycleSev := [] } }

/-- What the count of event `e` leaves. -/
structure Counted (e : Event) (s t : State) : Prop where
  count : bits t (R.fltCount (e.source / 2)) (16 * (e.source % 2)) 16 =
    min (bits s (R.fltCount (e.source / 2)) (16 * (e.source % 2)) 16 + e.count) 65535
  last : reg t R.fltLastLo = eventWord e ∧ reg t R.fltLastHi = timeLow s
  held : bit t R.fltStatus 30 = true
  first : bit s R.fltStatus 30 = false → reg t R.fltFirstLo = eventWord e ∧ reg t R.fltFirstHi = timeLow s
  stands : bit s R.fltStatus 30 = true → reg t R.fltFirstLo = reg s R.fltFirstLo
  regs : keepsRegs ([R.fltLastLo, R.fltLastHi, R.fltFirstLo, R.fltFirstHi, R.fltStatus, R.fltCount (e.source / 2)]) s t
  frame : ∃ g, t = { s with regs := g }

/-- The event is shown as the last one. -/
def lastShown (e : Event) (s : State) : State :=
  setReg (setReg (bumpBits s (R.fltCount (e.source / 2)) (16 * (e.source % 2)) 16 e.count) R.fltLastLo (eventWord e)) R.fltLastHi
    (timeLow s)

/-- The event is shown as the first one. -/
def firstShown (e : Event) (w : Word) (s : State) : State :=
  setBit (setReg (setReg s R.fltFirstLo (eventWord e)) R.fltFirstHi w) R.fltStatus 30 true

theorem countEvent_eq (e : Event) (s : State) : countEvent e s =
    if bit (lastShown e s) R.fltStatus 30 then lastShown e s else firstShown e (timeLow s) (lastShown e s) := rfl

theorem fltCount_ne (k : Nat) : R.fltCount (k / 2) ∉ [R.fltLastLo, R.fltLastHi, R.fltFirstLo, R.fltFirstHi, R.fltStatus] := by
  intro hm
  simp only [List.mem_cons, List.not_mem_nil, or_false, R.fltCount, R.fltLastLo, R.fltLastHi, R.fltFirstLo, R.fltFirstHi,
    R.fltStatus] at hm
  omega

theorem lastShown_shown (e : Event) (s : State) :
    bits (lastShown e s) (R.fltCount (e.source / 2)) (16 * (e.source % 2)) 16 =
      min (bits s (R.fltCount (e.source / 2)) (16 * (e.source % 2)) 16 + e.count) 65535 ∧
    reg (lastShown e s) R.fltLastLo = eventWord e ∧ reg (lastShown e s) R.fltLastHi = timeLow s ∧
    keepsRegs [R.fltLastLo, R.fltLastHi, R.fltCount (e.source / 2)] s (lastShown e s) := by
  have hset : keepsRegs [R.fltLastLo, R.fltLastHi] (bumpBits s (R.fltCount (e.source / 2)) (16 * (e.source % 2)) 16 e.count)
      (lastShown e s) := ((keepsRegs_refl _ _).setReg (by simp) _).setReg (by simp) _
  have hne : R.fltLastLo ≠ R.fltLastHi := by decide
  refine ⟨?_, ?_, ?_, ?_⟩
  · have hne : R.fltCount (e.source / 2) ∉ [R.fltLastLo, R.fltLastHi] := fun hm =>
      fltCount_ne e.source (List.mem_append_left [R.fltFirstLo, R.fltFirstHi, R.fltStatus] hm)
    rw [hset.bits hne, bits_bumpBits _ _ _ _ _ (by omega)]
    rfl
  · rw [lastShown, reg_setReg, if_neg hne, reg_setReg, if_pos rfl]
  · rw [lastShown, reg_setReg, if_pos rfl]
  · exact ((keepsRegs_refl _ s).bumpBits (by simp) _ _ _).trans (hset.mono (by simp))

theorem firstShown_keeps (e : Event) (w : Word) (s : State) :
    keepsRegs [R.fltFirstLo, R.fltFirstHi, R.fltStatus] s (firstShown e w s) :=
  (((keepsRegs_refl _ s).setReg (by simp) _).setReg (by simp) _).setBit (by simp) _ _

theorem countEvent_counted (e : Event) (s : State) : Counted e s (countEvent e s) := by
  obtain ⟨hcount, hlo, hhi, hkeep⟩ := lastShown_shown e s
  have hfirst : ∀ a ∈ [R.fltFirstLo, R.fltFirstHi, R.fltStatus], a ∉ [R.fltLastLo, R.fltLastHi, R.fltCount (e.source / 2)] := by
    intro a ha hm
    have hne := fltCount_ne e.source
    simp only [List.mem_cons, List.not_mem_nil, or_false, not_or] at ha hm hne
    rcases hm with rfl | rfl | rfl
    · exact absurd ha (by decide)
    · exact absurd ha (by decide)
    · obtain ⟨-, -, h1, h2, h3⟩ := hne
      rcases ha with ha | ha | ha
      · exact h1 ha
      · exact h2 ha
      · exact h3 ha
  have hstatus : bit (lastShown e s) R.fltStatus 30 = bit s R.fltStatus 30 := hkeep.bit (hfirst _ (by simp)) 30
  rw [countEvent_eq]
  cases h : bit s R.fltStatus 30 with
  | true =>
    rw [if_pos (hstatus.trans h)]
    exact ⟨hcount, ⟨hlo, hhi⟩, hstatus.trans h, fun hn => absurd hn (by rw [h]; decide), fun _ => hkeep _ (hfirst _ (by simp)),
      hkeep.mono (by simp), _, rfl⟩
  | false =>
    rw [if_neg (by rw [hstatus, h]; decide)]
    have hf := firstShown_keeps e (timeLow s) (lastShown e s)
    have hlast (a : Nat) (ha : a ∈ [R.fltLastLo, R.fltLastHi, R.fltCount (e.source / 2)]) :
        a ∉ [R.fltFirstLo, R.fltFirstHi, R.fltStatus] := fun hm => hfirst a hm ha
    have hne1 : R.fltFirstLo ≠ R.fltStatus := by decide
    have hne2 : R.fltFirstHi ≠ R.fltStatus := by decide
    have hne3 : R.fltFirstLo ≠ R.fltFirstHi := by decide
    refine ⟨(hf.bits (hlast _ (by simp)) _ _).trans hcount, ⟨(hf _ (hlast _ (by simp))).trans hlo, (hf _ (hlast _ (by simp))).trans hhi⟩,
      bit_setBit _ _ _ _ (by omega), fun _ => ⟨?_, ?_⟩, fun hn => absurd hn (by rw [h]; decide), ?_, _, rfl⟩
    · rw [firstShown, reg_setBit_ne _ _ _ _ _ hne1, reg_setReg, if_neg hne3, reg_setReg, if_pos rfl]
    · rw [firstShown, reg_setBit_ne _ _ _ _ _ hne2, reg_setReg, if_pos rfl]
    · exact (hkeep.mono (by simp)).trans (hf.mono (by simp))

/-- The record of event `e` (Table 14.8). -/
def eventRecord (e : Event) (s : State) : CairnRecord :=
  mkRecord s 1 e.injected e.source (bytesLE 1 e.severity ++ bytesLE 1 0 ++ bytesLE 2 e.info ++
    bytesLE 4 (look (fun _ => 0) s.flt.suppressed e.source))

/-- The record of an event is queued when its severity asks for one, its interval allows it and the queue has room. -/
theorem logEvent_logs (e : Event) (s : State) :
    (logEvent e s).cairn.queue = (if 1 ≤ e.severity ∧ mayLog s e.source = true ∧ s.cairn.queue.length < 16
      then s.cairn.queue ++ [eventRecord e s] else s.cairn.queue) ∧
    ∃ c l p, logEvent e s = { s with cairn := c, flt := { s.flt with lastLogged := l, suppressed := p } } := by
  rw [logEvent]
  by_cases h0 : e.severity = 0
  · rw [if_pos h0, if_neg (by omega)]
    exact ⟨rfl, s.cairn, s.flt.lastLogged, s.flt.suppressed, rfl⟩
  rw [if_neg h0]
  dsimp only
  by_cases hroom : s.cairn.queue.length < 16
  · rw [queueRecord_of_room hroom]
    cases hm : mayLog s e.source with
    | true =>
      rw [if_pos (by simp), if_pos ⟨by omega, rfl, hroom⟩]
      exact ⟨rfl, _, _, _, rfl⟩
    | false =>
      rw [if_neg (by simp), if_neg (by simp)]
      exact ⟨rfl, _, _, _, rfl⟩
  · rw [queueRecord_of_full (by omega), if_neg (by simp), if_neg fun h => hroom h.2.2]
    exact ⟨rfl, _, _, _, rfl⟩

/-- What the pending bit of event `e` leaves. -/
theorem pendEvent_pends {e : Event} (hk : e.source < 240) (s : State) :
    bit (pendEvent e s) (R.fltPend (e.source / 32)) (e.source % 32) =
      (bit s (R.fltPend (e.source / 32)) (e.source % 32) || decide (2 ≤ e.severity)) ∧
    (2 ≤ e.severity → causeBit (pendEvent e s) (48 + e.source / 16) = true) ∧
    keepsRegs [R.fltPend (e.source / 32), R.glbIrqCauseHi] s (pendEvent e s) ∧
    ∃ g b l, pendEvent e s = { s with
      regs := g, flt := { s.flt with lhInterrupt := b }, pcie := { s.pcie with rising := l } } := by
  by_cases h : e.severity < 2
  · rw [pendEvent, if_pos h, decide_eq_false (by omega), Bool.or_false]
    exact ⟨rfl, fun hn => absurd hn (by omega), keepsRegs_refl _ s, s.regs, s.flt.lhInterrupt, s.pcie.rising, rfl⟩
  · have hrun : pendEvent e s = raiseCause (48 + e.source / 16)
        { setBit s (R.fltPend (e.source / 32)) (e.source % 32) true with flt := { s.flt with lhInterrupt := true } } := if_neg h
    obtain ⟨g, l, he⟩ := raiseCause_frame (48 + e.source / 16)
      { setBit s (R.fltPend (e.source / 32)) (e.source % 32) true with flt := { s.flt with lhInterrupt := true } }
    have hc := raiseCause_high (v := 48 + e.source / 16) (by omega)
      { setBit s (R.fltPend (e.source / 32)) (e.source % 32) true with flt := { s.flt with lhInterrupt := true } }
    have hne : R.fltPend (e.source / 32) ∉ [R.glbIrqCauseHi] := by
      intro hm
      simp only [List.mem_singleton, R.fltPend, R.glbIrqCauseHi] at hm
      omega
    rw [hrun, decide_eq_true (by omega), Bool.or_true]
    refine ⟨(hc.bit hne _).trans (bit_setBit _ _ _ _ (Nat.mod_lt _ (by omega))), fun _ => causeBit_raiseCause _ _, ?_, g, true, l, he⟩
    have hset : keepsRegs [R.fltPend (e.source / 32), R.glbIrqCauseHi] s
        { setBit s (R.fltPend (e.source / 32)) (e.source % 32) true with flt := { s.flt with lhInterrupt := true } } :=
      (keepsRegs_refl _ s).setBit (by simp) _ _
    exact hset.trans (hc.mono (by simp))

/-- What the registration of event `e` leaves. -/
structure Registered (e : Event) (s t : State) : Prop where
  count : bits t (R.fltCount (e.source / 2)) (16 * (e.source % 2)) 16 =
    min (bits s (R.fltCount (e.source / 2)) (16 * (e.source % 2)) 16 + e.count) 65535
  last : reg t R.fltLastLo = eventWord e ∧ reg t R.fltLastHi = timeLow s
  held : bit t R.fltStatus 30 = true
  first : bit s R.fltStatus 30 = false → reg t R.fltFirstLo = reg t R.fltLastLo ∧ reg t R.fltFirstHi = timeLow s
  stands : bit s R.fltStatus 30 = true → reg t R.fltFirstLo = reg s R.fltFirstLo
  pend : bit t (R.fltPend (e.source / 32)) (e.source % 32) =
    (bit s (R.fltPend (e.source / 32)) (e.source % 32) || decide (2 ≤ e.severity))
  cause : 2 ≤ e.severity → causeBit t (48 + e.source / 16) = true
  queue : t.cairn.queue = if 1 ≤ e.severity ∧ mayLog s e.source = true ∧ s.cairn.queue.length < 16
    then s.cairn.queue ++ [eventRecord e s] else s.cairn.queue
  regs : keepsRegs collectRegs s t
  frame : ∃ g c l p b r, t = { s with
    regs := g, cairn := c, flt := { s.flt with lastLogged := l, suppressed := p, lhInterrupt := b }
    pcie := { s.pcie with rising := r } }

theorem registered_registered {e : Event} (hk : e.source < 240) (s : State) : Registered e s (registered e s) := by
  have hc := countEvent_counted e s
  obtain ⟨g, eg⟩ := hc.frame
  obtain ⟨hlog, c, l, p, el⟩ := logEvent_logs e (countEvent e s)
  have hsame (a : Nat) : reg (logEvent e (countEvent e s)) a = reg (countEvent e s) a := by rw [el]; rfl
  obtain ⟨hpend, hcause, hkeep, g2, b, r, ep⟩ := pendEvent_pends hk (logEvent e (countEvent e s))
  have hshown : ∀ a ∈ [R.fltLastLo, R.fltLastHi, R.fltFirstLo, R.fltFirstHi, R.fltStatus, R.fltCount (e.source / 2)],
      reg (registered e s) a = reg (countEvent e s) a := fun a ha => by
    refine (hkeep a fun hm => ?_).trans (hsame a)
    simp only [List.mem_cons, List.not_mem_nil, or_false, R.fltLastLo, R.fltLastHi, R.fltFirstLo, R.fltFirstHi, R.fltStatus,
      R.fltCount, R.fltPend, R.glbIrqCauseHi] at ha hm
    omega
  have hpend0 : bit (logEvent e (countEvent e s)) (R.fltPend (e.source / 32)) (e.source % 32)
      = bit s (R.fltPend (e.source / 32)) (e.source % 32) := by
    rw [bit, hsame]
    refine hc.regs.bit (fun hm => ?_) _
    simp only [List.mem_cons, List.not_mem_nil, or_false, R.fltLastLo, R.fltLastHi, R.fltFirstLo, R.fltFirstHi, R.fltStatus,
      R.fltCount, R.fltPend] at hm
    omega
  refine ⟨?_, ⟨?_, ?_⟩, ?_, fun h => ⟨?_, ?_⟩, fun h => ?_, ?_, hcause, ?_, ?_, ?_⟩
  · rw [bits, hshown _ (by simp)]
    exact hc.count
  · rw [hshown _ (by simp)]
    exact hc.last.1
  · rw [hshown _ (by simp)]
    exact hc.last.2
  · rw [bit, hshown _ (by simp)]
    exact hc.held
  · rw [hshown _ (by simp), hshown _ (by simp), (hc.first h).1, hc.last.1]
  · rw [hshown _ (by simp)]
    exact (hc.first h).2
  · rw [hshown _ (by simp)]
    exact hc.stands h
  · rw [registered, hpend, hpend0]
  · have hq : (registered e s).cairn.queue = (logEvent e (countEvent e s)).cairn.queue := by rw [registered, ep]
    rw [hq, hlog, eg]
    rfl
  · have h1 : keepsRegs collectRegs s (countEvent e s) := hc.regs.mono fun a ha => by
      simp only [List.mem_cons, List.not_mem_nil, or_false] at ha
      rcases ha with rfl | rfl | rfl | rfl | rfl | rfl
      · exact mem_collectRegs.2 (.inl (by simp))
      · exact mem_collectRegs.2 (.inl (by simp))
      · exact mem_collectRegs.2 (.inl (by simp))
      · exact mem_collectRegs.2 (.inl (by simp))
      · exact mem_collectRegs.2 (.inl (by simp))
      · exact fltCount_mem hk
    have h2 : keepsRegs collectRegs (countEvent e s) (logEvent e (countEvent e s)) := fun a _ => hsame a
    have h3 : keepsRegs collectRegs (logEvent e (countEvent e s)) (registered e s) := hkeep.mono fun a ha => by
      simp only [List.mem_cons, List.not_mem_nil, or_false] at ha
      rcases ha with rfl | rfl
      · exact fltPend_mem hk
      · exact mem_collectRegs.2 (.inl (by simp))
    exact (h1.trans h2).trans h3
  · exact ⟨g2, c, l, p, b, r, by rw [registered, ep, el, eg]⟩

/-- A cycle with one detection: its event is registered, and the collector reacts to it. -/
theorem collectFaults_single {s : State} {k i : Nat} {q : Bool} (hk : k < 240) (h : s.flt.signals = [⟨k, i, q⟩])
    (ht : traceOn s = false) : collectFaults s =
      react [⟨k, i, 1, q, appliedSeverity s k⟩] (registered ⟨k, i, 1, q, appliedSeverity s k⟩ (taken s)) := by
  have hr := registered_registered (e := ⟨k, i, 1, q, appliedSeverity s k⟩) hk (taken s)
  have htrace : traceOn (registered ⟨k, i, 1, q, appliedSeverity s k⟩ (taken s)) = false := by
    refine (traceOn_keeps hr.regs (not_mem_collectRegs (by decide) (by decide)) (not_mem_collectRegs ?_ ?_)).trans ht
    · decide
    · decide
  have hevent (code : Nat) : traceEvent code (registered ⟨k, i, 1, q, appliedSeverity s k⟩ (taken s))
      = registered ⟨k, i, 1, q, appliedSeverity s k⟩ (taken s) := traceEvent_off htrace code
  have htrig : traceTrigger 2 (registered ⟨k, i, 1, q, appliedSeverity s k⟩ (taken s))
      = registered ⟨k, i, 1, q, appliedSeverity s k⟩ (taken s) := by
    rw [traceTrigger, htrace]
    rfl
  have hfold : [(⟨k, i, 1, q, appliedSeverity s k⟩ : Event)].foldl (fun acc e => pendEvent e (logEvent e (countEvent e acc))) (taken s)
      = registered ⟨k, i, 1, q, appliedSeverity s k⟩ (taken s) := rfl
  rw [collectFaults, cycleEvents_single h]
  generalize (⟨k, i, 1, q, appliedSeverity s k⟩ : Event) = e at *
  have hne : ¬ [e] = [] := List.cons_ne_nil _ _
  have hstep : (if [e] = [] then ({ s with cw := { s.cw with takenAlong := [] } } : State)
      else react [e] (if ([e].any fun e => decide (3 ≤ e.severity)) then
        traceTrigger 2 (if ([e].any fun e => decide (2 ≤ e.severity)) then traceEvent 4 (registered e (taken s)) else registered e (taken s))
        else (if ([e].any fun e => decide (2 ≤ e.severity)) then traceEvent 4 (registered e (taken s)) else registered e (taken s)))) =
      react [e] (registered e (taken s)) := by
    rw [if_neg hne, hevent, ite_self, htrig, ite_self]
  exact hstep

end Sys2Proof.Machine
end

/-! # What the fault collector does with the severities (R349 to R351) -/

section
namespace Sys2Proof.Machine
set_option Elab.async false

/-! ## A reach that leaves the run (R350) -/

/-- Reach `r` has moved, and no other reach. -/
structure ReachMoved (r : Nat) (s t : State) : Prop where
  others : ∀ p, p < 16 → p ≠ r → inHold t p = inHold s p ∧ reachValid t p = reachValid s p
  clusters : ∀ n, n / 8 ≠ r → clu t n = clu s n
  regs : keepsLow failRegs s t
  frame : ∃ g c p x l, t = { s with regs := g, clusters := c, pwr := p, rl := x, pcie := { s.pcie with rising := l } }

theorem ReachMoved.refl (r : Nat) (s : State) : ReachMoved r s s :=
  ⟨fun _ _ _ => ⟨rfl, rfl⟩, fun _ _ => rfl, keepsLow_refl _ s, s.regs, s.clusters, s.pwr, s.rl, s.pcie.rising, rfl⟩

theorem ReachMoved.trans {r : Nat} {s t u : State} (h : ReachMoved r s t) (h' : ReachMoved r t u) : ReachMoved r s u := by
  obtain ⟨ho, hc, hr, g, c, p, x, l, e⟩ := h
  obtain ⟨ho', hc', hr', g', c', p', x', l', e'⟩ := h'
  exact ⟨fun p hp hne => ⟨(ho' p hp hne).1.trans (ho p hp hne).1, (ho' p hp hne).2.trans (ho p hp hne).2⟩,
    fun n hn => (hc' n hn).trans (hc n hn), hr.trans hr', g', c', p', x', l', by rw [e', e]⟩

theorem ReachMoved.withRl (r : Nat) (s : State) (x : Reload) : ReachMoved r s { s with rl := x } :=
  ⟨fun _ _ _ => ⟨rfl, rfl⟩, fun _ _ => rfl, fun _ _ _ => rfl, s.regs, s.clusters, s.pwr, x, s.pcie.rising, rfl⟩

theorem enterHold_moved {r : Nat} (hr : r < 16) (s : State) : ReachMoved r s (enterHold r s) := by
  have h := enterHold_enters hr s
  obtain ⟨g, c, p, e⟩ := h.frame
  refine ⟨fun p hp hne => ⟨h.inHold_other hp hne, h.reachValid hp⟩, fun n hn => (h.clusters n).trans (if_neg hn),
    h.regs.mono fun a ha => List.mem_cons_of_mem _ (List.mem_cons_of_mem _ (List.mem_cons_of_mem _ ha)), g, c, p, s.rl,
    s.pcie.rising, e⟩

theorem invalidate_reachMoved {r : Nat} (hr : r < 16) (s : State) : ReachMoved r s (invalidate r s) := by
  have h := invalidate_invalidates (r := r) (by omega) s
  obtain ⟨g, c, e⟩ := h.frame
  refine ⟨fun p hp hne => ⟨h.inHold hr p, h.reachValid_other hne⟩, fun n hn => (h.clusters n).trans (if_neg fun hc => hn hc.2),
    h.regs.low.mono (by simp [failRegs]), g, c, s.pwr, s.rl, s.pcie.rising, e⟩

theorem reloadFails_moved {code : Nat} (hc : code < 256) (s : State) : ReachMoved (rlReach s) s (reloadFails code s) := by
  have h := reloadFails_failed hc s
  refine ⟨h.others, fun n hn => (h.clusters n).trans ?_, h.regs, h.frame⟩
  split
  · exact if_neg fun h' => hn h'.2
  · rfl

/-- The cells of the reach act, and a safe state reaches them. -/
theorem cellsOfRemoved_frame (r : Nat) (safe : Bool) (s : State) :
    ∃ x, (if (!inHold s r) = true ∧ ¬ reachLeft s r = true then raiseBreakwater r safe s
      else if safe then
        { s with rl := { s.rl with cells := s.rl.cells.map fun x => if x.1 = r then (x.1, { x.2 with safe := true }) else x } }
      else s) = { s with rl := x } := by
  split
  · exact ⟨_, rfl⟩
  · split
    · exact ⟨_, rfl⟩
    · exact ⟨s.rl, rfl⟩

/-- What is left when reach `r` has left the run at once. -/
theorem removeReach_removed {r : Nat} (hr : r < 16) (safe : Bool) (s : State) :
    ReachMoved r s (removeReach r safe s) ∧ inHold (removeReach r safe s) r = true ∧
      reachValid (removeReach r safe s) r = false := by
  obtain ⟨x, hx⟩ := cellsOfRemoved_frame r safe s
  obtain ⟨u, hu, hmoved, hin⟩ : ∃ u, (if !inHold s r then enterHold r { s with rl := x } else { s with rl := x }) = u ∧
      ReachMoved r { s with rl := x } u ∧ inHold u r = true := by
    cases h : inHold s r with
    | true => exact ⟨_, if_neg (by decide), .refl r _, h⟩
    | false => exact ⟨_, if_pos (by decide), enterHold_moved hr _, (enterHold_enters hr _).inHold hr⟩
  obtain ⟨v, hv, hmoved', hin'⟩ : ∃ v, (if reloadInProgress u && bits u R.ldReloadCfg 0 4 == r then reloadFails 0x17 u else u) = v ∧
      ReachMoved r u v ∧ inHold v r = true := by
    by_cases h : (reloadInProgress u && bits u R.ldReloadCfg 0 4 == r) = true
    · have hreach : rlReach u = r := beq_iff_eq.1 (Bool.and_eq_true_iff.1 h).2
      refine ⟨_, if_pos h, ?_, ?_⟩
      · have := reloadFails_moved (code := 0x17) (by decide) u
        rwa [hreach] at this
      · have := (reloadFails_failed (code := 0x17) (by decide) u).inHold
        rwa [hreach] at this
    · exact ⟨_, if_neg h, .refl r u, hin⟩
  have hrun : removeReach r safe s = invalidate r v := by
    rw [← hv, ← hu, ← hx]
    rfl
  have hi := invalidate_invalidates (r := r) (by omega) v
  rw [hrun]
  exact ⟨(((ReachMoved.withRl r s x).trans hmoved).trans hmoved').trans (invalidate_reachMoved hr v), (hi.inHold hr r).trans hin',
    hi.invalid⟩

/-- Reaches that leave the run one after the other. -/
theorem removeReaches_removed (l : List Nat) (hl : ∀ r ∈ l, r < 16) (s : State) :
    (∀ r ∈ l, inHold (l.foldl (fun acc r => removeReach r true acc) s) r = true ∧
      reachValid (l.foldl (fun acc r => removeReach r true acc) s) r = false) ∧
    (∀ r, r < 16 → inHold s r = true ∧ reachValid s r = false →
      inHold (l.foldl (fun acc r => removeReach r true acc) s) r = true ∧
      reachValid (l.foldl (fun acc r => removeReach r true acc) s) r = false) ∧
    keepsLow failRegs s (l.foldl (fun acc r => removeReach r true acc) s) ∧
    ∃ g c p x r, l.foldl (fun acc r => removeReach r true acc) s = { s with
      regs := g, clusters := c, pwr := p, rl := x, pcie := { s.pcie with rising := r } } := by
  induction l generalizing s with
  | nil => exact ⟨fun r hr => absurd hr List.not_mem_nil, fun r _ h => h, keepsLow_refl _ s, s.regs, s.clusters, s.pwr, s.rl,
      s.pcie.rising, rfl⟩
  | cons a l ih =>
    have ha := hl a List.mem_cons_self
    obtain ⟨hm, hin, hinv⟩ := removeReach_removed ha true s
    obtain ⟨hall, hstand, hregs, g, c, p, x, r, e⟩ := ih (fun r hr => hl r (List.mem_cons_of_mem _ hr)) (removeReach a true s)
    obtain ⟨g', c', p', x', r', e'⟩ := hm.frame
    rw [List.foldl_cons]
    refine ⟨fun r hr => ?_, fun r hr h => ?_, hm.regs.trans hregs, g, c, p, x, r, by rw [e, e']⟩
    · rcases List.mem_cons.1 hr with rfl | hr
      · exact hstand r ha ⟨hin, hinv⟩
      · exact hall r hr
    · by_cases hra : r = a
      · subst hra
        exact hstand r hr ⟨hin, hinv⟩
      · obtain ⟨h1, h2⟩ := hm.others r hr hra
        exact hstand r hr ⟨h1.trans h.1, h2.trans h.2⟩

theorem mem_insertRising {k x : Nat} {l : List Nat} : x ∈ insertRising k l ↔ x = k ∨ x ∈ l := by
  induction l with
  | nil => simp [insertRising]
  | cons y l ih =>
    rw [insertRising]
    split
    · simp
    · split
      · next h => simp [h]
      · rw [List.mem_cons, ih, List.mem_cons]
        tauto

theorem mem_inOrder {x : Nat} {l : List Nat} : x ∈ inOrder l ↔ x ∈ l := by
  induction l with
  | nil => simp [inOrder]
  | cons y l ih =>
    rw [inOrder, List.foldr_cons, ← inOrder, mem_insertRising, ih, List.mem_cons]

theorem affectedReaches_lt {s : State} {k r : Nat} (h : r ∈ affectedReaches s k) : r < 16 := by
  unfold affectedReaches at h
  split at h
  · have := List.mem_singleton.1 h
    omega
  · split at h
    · have := List.mem_singleton.1 h
      omega
    · split at h
      · have := List.mem_singleton.1 h
        omega
      · split at h
        · exact List.mem_range.1 (List.mem_filter.1 h).1
        · exact absurd h List.not_mem_nil

/-! ## A stop (R282, R283) -/

theorem sendTokens_cw (hold : Bool) (e : Nat) (s : State) : ∃ c, sendTokens hold e s = { s with cw := c } := by
  have h (l : List Nat) (u : State) : ∃ c, l.foldl (fun acc l => sendTokenOn l hold e acc) u = { u with cw := c } := by
    induction l generalizing u with
    | nil => exact ⟨u.cw, rfl⟩
    | cons a l ih =>
      obtain ⟨c, hc⟩ := sendTokenOn_frame a hold e u
      obtain ⟨c', hc'⟩ := ih (sendTokenOn a hold e u)
      exact ⟨c', by rw [List.foldl_cons, hc', hc]⟩
  exact h _ s

/-- What is left of a running device that a stop with cause `b` reaches outside its milestone. -/
structure Stopped (b : Nat) (s t : State) : Prop where
  run : t.sched.run = .stopped
  cause : bit t R.trgRunStatus b = true
  regs : keepsRegs [R.trgRunStatus, R.glbIrqCauseHi] s t
  frame : ∃ g x c l, t = { s with regs := g, sched := x, cw := c, pcie := { s.pcie with rising := l } }

theorem stopDevice_stops {b : Nat} (hb : b < 32) {s : State} (hr : s.sched.run = .running) (hi : s.sched.inSequence = false)
    (hp : s.sched.phase ≠ .milestone) : Stopped b s (stopDevice b s) := by
  have hrun : stopDevice b s = sendHold (raiseCause 33 { addCause b { s with sched := { s.sched with stepsLeft := none } } with
      sched := { s.sched with stepsLeft := none, run := .stopped } }) := by
    rw [stopDevice, hi, if_neg Bool.false_ne_true, if_pos hr]
    dsimp only
    rw [if_neg (show ¬ (addCause b { s with sched := { s.sched with stepsLeft := none } }).sched.phase = .milestone from hp)]
    rfl
  have hadd : keepsRegs [R.trgRunStatus, R.glbIrqCauseHi] s (addCause b { s with sched := { s.sched with stepsLeft := none } }) :=
    (keepsRegs_refl _ s).setBit (t := { s with sched := { s.sched with stepsLeft := none } }) (by simp) _ _
  have hbit : bit (addCause b { s with sched := { s.sched with stepsLeft := none } }) R.trgRunStatus b = true :=
    bit_setBit _ _ _ _ hb
  have hraise := raiseCause_high (v := 33) (by omega) { addCause b { s with sched := { s.sched with stepsLeft := none } } with
    sched := { s.sched with stepsLeft := none, run := .stopped } }
  obtain ⟨g, l, e⟩ := raiseCause_frame 33 { addCause b { s with sched := { s.sched with stepsLeft := none } } with
    sched := { s.sched with stepsLeft := none, run := .stopped } }
  have hbit' := (hraise.bit (x := R.trgRunStatus) (by decide) b).trans hbit
  have hkeep : keepsRegs [R.trgRunStatus, R.glbIrqCauseHi] s _ := hadd.trans (hraise.mono (by simp))
  rw [hrun]
  generalize raiseCause 33 { addCause b { s with sched := { s.sched with stepsLeft := none } } with
    sched := { s.sched with stepsLeft := none, run := .stopped } } = u at *
  obtain ⟨c, ec⟩ := sendTokens_cw true u.sched.ec.toNat { u with sched := { u.sched with held := some u.sched.ec.toNat } }
  have hhold : sendHold u = { u with sched := { u.sched with held := some u.sched.ec.toNat }, cw := c } := ec
  rw [hhold]
  refine ⟨?_, hbit', hkeep, ?_⟩
  · rw [e]
  · rw [e]
    exact ⟨_, _, _, _, rfl⟩

/-! ## The reactions -/

theorem react_low {e : Event} (h : e.severity ≤ 2) (s : State) : react [e] s = s := by
  have h3 : (e.severity == 3) = false := by simp; omega
  have h4 : (e.severity == 4) = false := by simp; omega
  have h5 : (e.severity == 5) = false := by simp; omega
  have h7 : (e.severity == 7) = false := by simp; omega
  have hge5 : decide (5 ≤ e.severity) = false := by simp; omega
  have hge6 : decide (6 ≤ e.severity) = false := by simp; omega
  simp [react, h3, h4, h5, h7, hge5, hge6, inOrder]

theorem react_freezes {e : Event} (h : e.severity = 3) (s : State) : react [e] s = freezeRequest 5 s := by
  simp [react, h, inOrder]

theorem react_stops {e : Event} (h : e.severity = 4) (s : State) : react [e] s = stopDevice 7 s := by
  simp [react, h, inOrder]

theorem react_safe {e : Event} (h : e.severity = 5) (s : State) : react [e] s = enterSafe (stopDevice 7 s) := by
  simp [react, h, inOrder]

theorem react_removes {e : Event} (h : e.severity = 6) (s : State) :
    react [e] s = (inOrder (affectedReaches s e.source)).foldl (fun acc r => removeReach r true acc) (enterSafe s) := by
  simp [react, h]
  rfl

theorem react_resets {e : Event} (h : e.severity = 7) (s : State) :
    ∃ u, (inOrder (affectedReaches (enterSafe (stopDevice 7 s)) e.source)).foldl (fun acc r => removeReach r true acc)
      (enterSafe (stopDevice 7 s)) = u ∧ react [e] s = { u with flt := { u.flt with sev7Pending := true } } := by
  refine ⟨_, rfl, ?_⟩
  simp [react, h]

end Sys2Proof.Machine
end

/-! # The fault collector, its commands and the Cairn record (O50) -/

section
namespace Sys2Proof.Machine
set_option Elab.async false

/-! ## One detection in a cycle -/

/-- The state `u` with event `e` registered, before the collector reacts to it. -/
structure Collected (e : Event) (s u : State) : Prop where
  run : collectFaults s = react [e] u
  registered : Registered e (taken s) u
  kept : u.sched = s.sched ∧ u.clusters = s.clusters ∧ u.banks = s.banks ∧ u.bist = s.bist
  flt : u.flt.signals = [] ∧ u.flt.safe = s.flt.safe ∧ u.flt.sev7Pending = s.flt.sev7Pending

theorem collected {s : State} {k i v : Nat} {q : Bool} (hk : k < 240) (h : s.flt.signals = [⟨k, i, q⟩]) (hv : appliedSeverity s k = v)
    (ht : traceOn s = false) : ∃ u, Collected ⟨k, i, 1, q, v⟩ s u := by
  subst hv
  have hr := registered_registered (e := ⟨k, i, 1, q, appliedSeverity s k⟩) hk (taken s)
  have hrun := collectFaults_single hk h ht
  generalize registered ⟨k, i, 1, q, appliedSeverity s k⟩ (taken s) = u at *
  obtain ⟨g, c, l, p, b, r, e⟩ := hr.frame
  refine ⟨u, hrun, hr, ?_, ?_⟩
  · rw [e]
    exact ⟨rfl, rfl, rfl, rfl⟩
  · rw [e]
    exact ⟨rfl, rfl, rfl⟩

theorem Collected.keeps {e : Event} {s u : State} (h : Collected e s u) {a : Nat} (ha : a ∉ collectRegs) : reg u a = reg s a :=
  h.registered.regs a ha

theorem ldReach_notin_collectRegs : R.ldReach ∉ collectRegs := not_mem_collectRegs (by decide) (by decide)

theorem Collected.reach {e : Event} {s u : State} (h : Collected e s u) (p : Nat) :
    inHold u p = inHold s p ∧ reachValid u p = reachValid s p := by
  have hr := h.keeps ldReach_notin_collectRegs
  constructor
  · rw [inHold, bit, hr]
    rfl
  · rw [reachValid, bit, hr]
    rfl

theorem faultEvent_records {s : State} {k i : Nat} {q : Bool} (hk : k < 240) (h : s.flt.signals = [⟨k, i, q⟩])
    (hv : appliedSeverity s k ≤ 2) (ht : traceOn s = false) :
    Completes .faultEvent s fun t =>
      t.flt.signals = [] ∧
      bits t (R.fltCount (k / 2)) (16 * (k % 2)) 16 = min (bits s (R.fltCount (k / 2)) (16 * (k % 2)) 16 + 1) 65535 ∧
      reg t R.fltLastLo = eventWord ⟨k, i, 1, q, appliedSeverity s k⟩ ∧ reg t R.fltLastHi = timeLow s ∧
      bit t R.fltStatus 30 = true ∧
      (bit s R.fltStatus 30 = false → reg t R.fltFirstLo = reg t R.fltLastLo ∧ reg t R.fltFirstHi = timeLow s) ∧
      (bit s R.fltStatus 30 = true → reg t R.fltFirstLo = reg s R.fltFirstLo) ∧
      bit t (R.fltPend (k / 32)) (k % 32) = (bit s (R.fltPend (k / 32)) (k % 32) || decide (appliedSeverity s k = 2)) ∧
      (appliedSeverity s k = 2 → causeBit t (48 + k / 16) = true) ∧
      t.cairn.queue = (if 1 ≤ appliedSeverity s k ∧ mayLog s k = true ∧ s.cairn.queue.length < 16 then
        s.cairn.queue ++ [mkRecord s 1 q k (bytesLE 1 (appliedSeverity s k) ++ bytesLE 1 0 ++ bytesLE 2 i ++
          bytesLE 4 (look (fun _ => 0) s.flt.suppressed k))] else s.cairn.queue) ∧
      t.sched = s.sched ∧ t.flt.safe = s.flt.safe ∧ t.clusters = s.clusters ∧ t.banks = s.banks := by
  obtain ⟨u, hu⟩ := collected hk h rfl ht
  obtain ⟨hsched, hclu, hbanks, -⟩ := hu.kept
  have hr := hu.registered
  have hpend : decide (2 ≤ appliedSeverity s k) = decide (appliedSeverity s k = 2) := decide_eq_decide.2 (by omega)
  refine ⟨_, congrArg Host.Outcome.next (hu.run.trans (react_low hv u)), hu.flt.1, hr.count, hr.last.1, hr.last.2, hr.held, hr.first,
    hr.stands, ?_, fun h2 => hr.cause (Nat.le_of_eq h2.symm), hr.queue, hsched, hu.flt.2.1, hclu, hbanks⟩
  rw [← hpend]
  exact hr.pend

theorem faultEvent_freezes {s : State} {k i : Nat} {q : Bool} (hk : k < 240) (h : s.flt.signals = [⟨k, i, q⟩])
    (hv : appliedSeverity s k = 3) (ht : traceOn s = false) :
    Completes .faultEvent s fun t =>
      t.sched = { s.sched with freezeReq := true, freezeCause := withBit s.sched.freezeCause 5 true } ∧
      reg t R.fltLastLo = eventWord ⟨k, i, 1, q, 3⟩ ∧ bit t (R.fltPend (k / 32)) (k % 32) = true ∧
      causeBit t (48 + k / 16) = true ∧ t.flt.signals = [] ∧ t.flt.safe = s.flt.safe ∧ t.clusters = s.clusters ∧
      t.banks = s.banks := by
  obtain ⟨u, hu⟩ := collected hk h hv ht
  obtain ⟨hsched, hclu, hbanks, -⟩ := hu.kept
  have hr := hu.registered
  refine ⟨_, congrArg Host.Outcome.next (hu.run.trans (react_freezes rfl u)), ?_, hr.last.1, ?_, hr.cause (show 2 ≤ 3 by omega), hu.flt.1,
    hu.flt.2.1, hclu, hbanks⟩
  · rw [← hsched]
    rfl
  · exact hr.pend.trans (by simp)

/-- The registers that a stop writes beside GLB_IRQ_CAUSE_HI are none of the collector's. -/
theorem fltPend_notin_stopRegs (k : Nat) : R.fltPend k ∉ [R.trgRunStatus, R.glbIrqCauseHi] ∨ 240 ≤ k := by
  by_cases hk : k < 240
  · refine .inl fun hm => ?_
    simp only [List.mem_cons, List.not_mem_nil, or_false, R.fltPend, R.trgRunStatus, R.glbIrqCauseHi] at hm
    omega
  · exact .inr (by omega)

theorem pending_after_stop {e : Event} {s u t : State} (hu : Collected e s u) (hk : e.source < 240) (h2 : 2 ≤ e.severity)
    (ht : Stopped 7 u t) : bit t (R.fltPend (e.source / 32)) (e.source % 32) = true := by
  refine (ht.regs.bit ((fltPend_notin_stopRegs (e.source / 32)).resolve_right (by omega)) _).trans (hu.registered.pend.trans ?_)
  rw [decide_eq_true h2, Bool.or_true]

theorem faultEvent_stops {s : State} {k i : Nat} {q : Bool} (hk : k < 240) (h : s.flt.signals = [⟨k, i, q⟩])
    (hv : appliedSeverity s k = 4) (ht : traceOn s = false) (hr : s.sched.run = .running) (hi : s.sched.inSequence = false)
    (hp : s.sched.phase ≠ .milestone) :
    Completes .faultEvent s fun t =>
      t.sched.run = .stopped ∧ bit t R.trgRunStatus 7 = true ∧ reg t R.fltLastLo = eventWord ⟨k, i, 1, q, 4⟩ ∧
      bit t (R.fltPend (k / 32)) (k % 32) = true ∧ t.flt.signals = [] ∧ t.flt.safe = s.flt.safe ∧
      t.clusters = s.clusters ∧ t.banks = s.banks := by
  obtain ⟨u, hu⟩ := collected hk h hv ht
  obtain ⟨hsched, hclu, hbanks, -⟩ := hu.kept
  have hs := stopDevice_stops (b := 7) (by omega) (s := u) (by rw [hsched]; exact hr) (by rw [hsched]; exact hi) (by rw [hsched]; exact hp)
  obtain ⟨g, x, c, l, e⟩ := hs.frame
  refine ⟨_, congrArg Host.Outcome.next (hu.run.trans (react_stops rfl u)), hs.run, hs.cause,
    (hs.regs R.fltLastLo (by decide)).trans hu.registered.last.1, pending_after_stop hu hk (show 2 ≤ 4 by omega) hs, ?_, ?_, ?_, ?_⟩
  · rw [e]
    exact hu.flt.1
  · rw [e]
    exact hu.flt.2.1
  · rw [e]
    exact hclu
  · rw [e]
    exact hbanks

theorem faultEvent_safe {s : State} {k i : Nat} {q : Bool} (hk : k < 240) (h : s.flt.signals = [⟨k, i, q⟩])
    (hv : appliedSeverity s k = 5) (ht : traceOn s = false) (hr : s.sched.run = .running) (hi : s.sched.inSequence = false)
    (hp : s.sched.phase ≠ .milestone) :
    Completes .faultEvent s fun t =>
      t.sched.run = .stopped ∧ t.flt.safe = true ∧ bit t R.trgRunStatus 7 = true ∧
      bit t (R.fltPend (k / 32)) (k % 32) = true ∧ t.flt.signals = [] ∧ t.clusters = s.clusters := by
  obtain ⟨u, hu⟩ := collected hk h hv ht
  obtain ⟨hsched, hclu, -, -⟩ := hu.kept
  have hs := stopDevice_stops (b := 7) (by omega) (s := u) (by rw [hsched]; exact hr) (by rw [hsched]; exact hi) (by rw [hsched]; exact hp)
  obtain ⟨g, x, c, l, e⟩ := hs.frame
  have hpend := pending_after_stop hu hk (show 2 ≤ 5 by omega) hs
  refine ⟨_, congrArg Host.Outcome.next (hu.run.trans (react_safe rfl u)), hs.run, rfl, hs.cause, hpend, ?_, ?_⟩
  · rw [enterSafe, e]
    exact hu.flt.1
  · rw [enterSafe, e]
    exact hclu

theorem affectedReaches_congr {s t : State} (h : t.bist = s.bist) (k : Nat) : affectedReaches t k = affectedReaches s k := by
  rw [affectedReaches, h, affectedReaches]

theorem faultEvent_removes {s : State} {k i r : Nat} {q : Bool} (hk : k < 240) (h : s.flt.signals = [⟨k, i, q⟩])
    (hv : appliedSeverity s k = 6) (ha : affectedReaches s k = [r]) (hr : r < 16) (ht : traceOn s = false) :
    Completes .faultEvent s fun t =>
      t.flt.safe = true ∧ t.flt.signals = [] ∧ inHold t r = true ∧ reachValid t r = false ∧
      (∀ p, p < 16 → p ≠ r → inHold t p = inHold s p ∧ reachValid t p = reachValid s p) ∧
      (∀ n, n / 8 ≠ r → clu t n = clu s n) ∧ t.sched = s.sched ∧ t.flt.sev7Pending = s.flt.sev7Pending ∧
      t.banks = s.banks := by
  obtain ⟨u, hu⟩ := collected hk h hv ht
  obtain ⟨hsched, hclu, hbanks, hbist⟩ := hu.kept
  have hrun : react [⟨k, i, 1, q, 6⟩] u = removeReach r true (enterSafe u) := by
    rw [react_removes rfl, affectedReaches_congr hbist, ha]
    rfl
  obtain ⟨hm, hin, hinv⟩ := removeReach_removed hr true (enterSafe u)
  obtain ⟨g, c, p, x, l, e⟩ := hm.frame
  refine ⟨_, congrArg Host.Outcome.next (hu.run.trans hrun), ?_, ?_, hin, hinv, fun p hp hne => ?_, fun n hn => ?_, ?_, ?_, ?_⟩
  · rw [e]
    rfl
  · rw [e]
    exact hu.flt.1
  · obtain ⟨h1, h2⟩ := hm.others p hp hne
    exact ⟨h1.trans (hu.reach p).1, h2.trans (hu.reach p).2⟩
  · refine (hm.clusters n hn).trans ?_
    have : clu (enterSafe u) n = clu u n := rfl
    rw [this, clu, hclu, clu]
  · rw [e]
    exact hsched
  · rw [e]
    exact hu.flt.2.2
  · rw [e]
    exact hbanks

theorem trgRunStatus_notin_failRegs : R.trgRunStatus ∉ failRegs := by decide

theorem faultEvent_resets {s : State} {k i : Nat} {q : Bool} (hk : k < 240) (h : s.flt.signals = [⟨k, i, q⟩])
    (hv : appliedSeverity s k = 7) (ht : traceOn s = false) (hr : s.sched.run = .running) (hi : s.sched.inSequence = false)
    (hp : s.sched.phase ≠ .milestone) :
    Completes .faultEvent s fun t =>
      t.flt.sev7Pending = true ∧ t.flt.safe = true ∧ t.sched.run = .stopped ∧ bit t R.trgRunStatus 7 = true ∧
      (∀ r, r < 16 → (affectedReaches s k).contains r = true → inHold t r = true ∧ reachValid t r = false) ∧
      t.banks = s.banks := by
  obtain ⟨u, hu⟩ := collected hk h hv ht
  obtain ⟨hsched, -, hbanks, hbist⟩ := hu.kept
  have hs := stopDevice_stops (b := 7) (by omega) (s := u) (by rw [hsched]; exact hr) (by rw [hsched]; exact hi) (by rw [hsched]; exact hp)
  obtain ⟨w, hw, hrun⟩ := react_resets (e := ⟨k, i, 1, q, 7⟩) rfl u
  obtain ⟨g, x, c, l, e⟩ := hs.frame
  have hbist' : (enterSafe (stopDevice 7 u)).bist = s.bist := by
    rw [enterSafe, e]
    exact hbist
  have hreach := affectedReaches_congr (s := s) hbist' k
  have hlt : ∀ r ∈ inOrder (affectedReaches (enterSafe (stopDevice 7 u)) k), r < 16 := fun r hm => affectedReaches_lt (mem_inOrder.1 hm)
  obtain ⟨hall, -, hregs, g', c', p', x', r', e'⟩ := removeReaches_removed _ hlt (enterSafe (stopDevice 7 u))
  rw [hw] at hall hregs e'
  have hbanks' : (stopDevice 7 u).banks = s.banks := by
    rw [e]
    exact hbanks
  refine ⟨_, congrArg Host.Outcome.next (hu.run.trans hrun), rfl, ?_, ?_, ?_, fun r _ hc => ?_, ?_⟩
  · rw [e']
    rfl
  · rw [e']
    exact hs.run
  · exact (hregs.bit (by decide) trgRunStatus_notin_failRegs 7).trans hs.cause
  · refine hall r (mem_inOrder.2 ?_)
    rw [hreach]
    exact List.contains_iff_mem.1 hc
  · rw [e']
    exact hbanks'

/-! ## Injected faults (R354) -/

section
variable {s t : State} (h : keepsRegs [R.fltInject] s t)
include h

theorem keeps_below_inject {a : Nat} (ha : a < 0x100000 ∨ 0x101000 ≤ a) : reg t a = reg s a :=
  h a fun hm => by
    rw [List.mem_singleton.1 hm] at ha
    simp only [R.fltInject] at ha
    omega

theorem domainSignals_keepsInject (hp : t.pwr = s.pwr) {d : Nat} (hd : d < 32) : domainSignals t d = domainSignals s d := by
  have hr := keeps_below_inject h (a := R.pwrDomainStatus d) (.inl (by simp only [R.pwrDomainStatus]; omega))
  rw [domainSignals, domainOn, domainWorks, bits, hr, hp]
  rfl

theorem laneGone_keepsInject (hp : t.pwr = s.pwr) {a : Nat} (ha : a < 128) : laneGone t a = laneGone s a := by
  have hr := keeps_below_inject h (a := R.glbUnitPresent1) (.inl (by decide))
  rw [laneGone, domainSignals_keepsInject h hp (by omega), bit, hr]
  rfl

theorem linkBase_keepsInject {l : Nat} (hl : l < 64) : linkBase t l = linkBase s l := by
  rw [linkBase, bits, keeps_below_inject h (.inr (by simp only [R.cwLinkCfg]; omega))]
  rfl

theorem sourceGone_keepsInject (hp : t.pwr = s.pwr) (source : Nat) : sourceGone t source 0 = sourceGone s source 0 := by
  have hbase (l : Nat) : linkBase s l < 128 := bitsOf_lt _ _ _
  have hobs : bit t R.glbUnitPresent0 21 = bit s R.glbUnitPresent0 21 := by
    rw [bit, keeps_below_inject h (.inl (by decide)), bit]
  rw [sourceGone, domainSignals_keepsInject h hp (d := source % 16) (by omega), laneGone_keepsInject h hp (a := 0) (by omega),
    linkBase_keepsInject h (l := (source - 100) % 20) (by omega), laneGone_keepsInject h hp (hbase _),
    domainSignals_keepsInject h hp (d := 16 + (source - 188) % 4) (by omega),
    domainSignals_keepsInject h hp (d := 0 / 8 % 16) (by omega), linkBase_keepsInject h (l := 0) (by omega),
    laneGone_keepsInject h hp (hbase _), domainSignals_keepsInject h hp (d := 26) (by omega),
    domainSignals_keepsInject h hp (d := 25) (by omega), hobs, sourceGone]

theorem injectGone_keepsInject (hp : t.pwr = s.pwr) (source : Nat) : injectGone t source = injectGone s source := by
  have hbase (l : Nat) : linkBase s l < 128 := bitsOf_lt _ _ _
  rw [injectGone, injectGone]
  split
  · rw [linkBase_keepsInject h (by omega), laneGone_keepsInject h hp (hbase _)]
  · split
    · rfl
    · exact sourceGone_keepsInject h hp source

theorem holdsRight_keepsInject (hd : t.die = s.die) (f : Bool) : holdsRight t f .te = holdsRight s f .te := by
  have hl : dbgLevel t = dbgLevel s := by rw [dbgLevel, bits, keeps_below_inject h (.inr (by decide)), dbgLevel, bits]
  unfold holdsRight footpathHas hostHas
  rw [hl, hd]
  rfl

end

theorem plainBit_fltInject {i : Nat} (hi : i < 24) : plainBit R.fltInject i = true := by
  revert i
  decide +kernel

theorem bits_fltInject (v : Word) (s : State) {lo n : Nat} (hn : lo + n ≤ 24) :
    bits (writeFields R.fltInject v s) R.fltInject lo n = bitsOf v lo n :=
  bits_writeFields (fun i _ hi => plainBit_fltInject (by omega)) (by omega) v s

/-- What FAULT_INJECT with its go bit does, once the register is written. -/
def injectDecided (f : Bool) (s : State) : State :=
  if s.die.lifeCycle = 1 ∧ s.die.testStrap ∧ holdsRight s f .te ∧ bits s R.fltInject 16 8 < 240 then
    if injectGone s (bits s R.fltInject 16 8) then s
    else { s with flt := { s.flt with
      signals := s.flt.signals ++ [⟨bits s R.fltInject 16 8, bits s R.fltInject 0 16, true⟩] } }
  else setBit s R.fltStatus 28 true

theorem faultInject_goes {f : Bool} {v : Word} {s : State} (hgo : v.getLsbD 31 = true) :
    faultInject f v s = injectDecided f (writeFields R.fltInject v s) := if_neg (not_not_intro hgo)

theorem faultInject_accepted {f : Bool} {v : Word} {s : State} (hgo : v.getLsbD 31 = true) (hc : s.die.lifeCycle = 1)
    (ht : s.die.testStrap = true) (hr : holdsRight s f .te = true) (hk : bitsOf v 16 8 < 240) :
    faultInject f v s = if injectGone s (bitsOf v 16 8) then writeFields R.fltInject v s
      else { writeFields R.fltInject v s with flt := { s.flt with
        signals := s.flt.signals ++ [⟨bitsOf v 16 8, bitsOf v 0 16, true⟩] } } := by
  obtain ⟨hw, ew⟩ := writeFields_only R.fltInject v s
  have hpwr : (writeFields R.fltInject v s).pwr = s.pwr := by rw [ew]
  have hdie : (writeFields R.fltInject v s).die = s.die := by rw [ew]
  have hflt : (writeFields R.fltInject v s).flt = s.flt := by rw [ew]
  rw [faultInject_goes hgo, injectDecided, bits_fltInject v s (by omega), bits_fltInject v s (by omega),
    injectGone_keepsInject hw hpwr, holdsRight_keepsInject hw hdie, hdie, hflt]
  exact if_pos ⟨hc, ht, hr, hk⟩

theorem faultInject_injects {f : Bool} {v : Word} {s : State} (hgo : v.getLsbD 31 = true) (hc : s.die.lifeCycle = 1)
    (ht : s.die.testStrap = true) (hr : holdsRight s f .te = true) (hk : bitsOf v 16 8 < 240)
    (hg : injectGone s (bitsOf v 16 8) = false) :
    Completes (.faultInject f v) s fun t =>
      t.flt = { s.flt with signals := s.flt.signals ++ [⟨bitsOf v 16 8, bitsOf v 0 16, true⟩] } ∧
      bits t R.fltInject 0 24 = bitsOf v 0 24 ∧ keepsRegs [R.fltInject] s t :=
  ⟨_, congrArg Host.Outcome.next ((faultInject_accepted hgo hc ht hr hk).trans (if_neg (by rw [hg]; decide))), rfl,
    bits_fltInject v s (by omega), (writeFields_only R.fltInject v s).1⟩

theorem faultInject_gone {f : Bool} {v : Word} {s : State} (hgo : v.getLsbD 31 = true) (hc : s.die.lifeCycle = 1)
    (ht : s.die.testStrap = true) (hr : holdsRight s f .te = true) (hk : bitsOf v 16 8 < 240)
    (hg : injectGone s (bitsOf v 16 8) = true) :
    Completes (.faultInject f v) s fun t =>
      t.flt = s.flt ∧ bits t R.fltInject 0 24 = bitsOf v 0 24 ∧ keepsRegs [R.fltInject] s t := by
  obtain ⟨hw, ew⟩ := writeFields_only R.fltInject v s
  exact ⟨_, congrArg Host.Outcome.next ((faultInject_accepted hgo hc ht hr hk).trans (if_pos hg)), by rw [ew],
    bits_fltInject v s (by omega), hw⟩

theorem faultInject_refused {f : Bool} {v : Word} {s : State} (hgo : v.getLsbD 31 = true)
    (h : s.die.lifeCycle ≠ 1 ∨ s.die.testStrap = false ∨ holdsRight s f .te = false ∨ 240 ≤ bitsOf v 16 8) :
    Completes (.faultInject f v) s fun t =>
      bit t R.fltStatus 28 = true ∧ t.flt = s.flt ∧ keepsRegs [R.fltInject, R.fltStatus] s t := by
  obtain ⟨hw, ew⟩ := writeFields_only R.fltInject v s
  have hdie : (writeFields R.fltInject v s).die = s.die := by rw [ew]
  have hflt : (writeFields R.fltInject v s).flt = s.flt := by rw [ew]
  have hrun : faultInject f v s = setBit (writeFields R.fltInject v s) R.fltStatus 28 true := by
    rw [faultInject_goes hgo, injectDecided, bits_fltInject v s (by omega), holdsRight_keepsInject hw hdie, hdie]
    refine if_neg ?_
    rintro ⟨hc, ht, hr, hk⟩
    rcases h with h | h | h | h
    · exact h hc
    · exact absurd (h.symm.trans ht) (by decide)
    · exact absurd (h.symm.trans hr) (by decide)
    · omega
  exact ⟨_, congrArg Host.Outcome.next hrun, bit_setBit _ _ _ _ (by omega), hflt,
    (hw.mono (by simp)).setBit (by simp) _ _⟩

/-! ## The release of the safe state (R349) -/

theorem safeRelease_releases {s : State} (h : ∀ k, k < 240 → pendingSource s k = true → severityOf s k < 5) (hs : s.flt.safe = true) :
    exec .safeRelease s = .next { s with flt := { s.flt with safe := false, releasing := true } } := by
  have hnone : ((List.range 240).any fun k => pendingSource s k && decide (5 ≤ severityOf s k)) = false := by
    refine List.any_eq_false.2 fun k hk hc => ?_
    obtain ⟨hp, hv⟩ := Bool.and_eq_true_iff.1 hc
    have := h k (List.mem_range.1 hk) hp
    have := of_decide_eq_true hv
    omega
  have hrun : safeRelease s = { s with flt := { s.flt with safe := false, releasing := true } } := by
    rw [safeRelease, hnone, if_neg Bool.false_ne_true]
    exact if_pos hs
  exact congrArg Host.Outcome.next hrun

theorem safeRelease_refused {s : State} {k : Nat} (hk : k < 240) (hp : pendingSource s k = true) (hv : 5 ≤ severityOf s k) :
    exec .safeRelease s = .next (setBit s R.fltStatus 27 true) :=
  congrArg Host.Outcome.next (if_pos (List.any_eq_true.2 ⟨k, List.mem_range.2 hk, by rw [hp, decide_eq_true hv]; rfl⟩))

/-! ## The Cairn record (R361 to R365) -/

theorem recordBytes_length (n : Nat) (r : CairnRecord) : (recordBytes n r).length = 64 := by
  have hbody : (recordBody n r).length = 60 := by
    simp only [recordBody, List.length_take, List.length_append, bytesLE_length, List.length_replicate]
    omega
  rw [recordBytes]
  simp only [List.length_append, hbody, bytesLE_length]

theorem readBytes_writeBytes_other {m : Mem} {slot k : Nat} {bs : List Byte} (hb : bs.length = 64) (h : k ≠ slot) :
    readBytes (writeBytes m (64 * slot) bs) (64 * k) 64 = readBytes m (64 * k) 64 := by
  refine List.map_congr_left fun i hi => ?_
  have := List.mem_range.1 hi
  rw [readByte_writeBytes, if_neg (by omega)]

theorem writeSlotBytes_slots {slot : Nat} {bs : List Byte} (hb : bs.length = 64) (s : State) :
    slotBytes (writeSlotBytes slot bs s) slot = bs ∧
      (∀ k, k ≠ slot → slotBytes (writeSlotBytes slot bs s) k = slotBytes s k) := by
  constructor
  · have h := readBytes_writeBytes s.cairn.nvm (64 * slot) bs
    rw [hb] at h
    exact h
  · exact fun k hk => readBytes_writeBytes_other hb hk

theorem writeSlotBytes_frame (slot : Nat) (bs : List Byte) (s : State) :
    ∃ m v, writeSlotBytes slot bs s = { s with cairn := { s.cairn with nvm := m, valid := v } } := ⟨_, _, rfl⟩

/-- Record `n` of the bytes `bs` stands in its slot, and the records `rest` wait. -/
def slotCommitted (slot n : Nat) (rest : List CairnRecord) (bs : List Byte) (s : State) : State :=
  let s := writeSlotBytes slot bs s
  { s with cairn := { s.cairn with queue := rest, newest := slot, sequence := n, retrySlot := none } }

theorem slotCommitted_commits {slot n : Nat} {rest : List CairnRecord} {bs : List Byte} (hb : bs.length = 64) (s : State) :
    slotBytes (slotCommitted slot n rest bs s) slot = bs ∧
      (∀ k, k ≠ slot → slotBytes (slotCommitted slot n rest bs s) k = slotBytes s k) ∧
      ∃ m v, slotCommitted slot n rest bs s = { s with cairn := { s.cairn with
        nvm := m, valid := v, queue := rest, newest := slot, sequence := n, retrySlot := none } } := by
  obtain ⟨hslot, hother⟩ := writeSlotBytes_slots (slot := slot) hb s
  obtain ⟨m, v, e⟩ := writeSlotBytes_frame slot bs s
  have hrun : slotCommitted slot n rest bs s = { s with cairn := { s.cairn with
      nvm := m, valid := v, queue := rest, newest := slot, sequence := n, retrySlot := none } } := by
    rw [slotCommitted, e]
  rw [e] at hslot hother
  rw [hrun]
  exact ⟨hslot, hother, m, v, rfl⟩

theorem cairnCommit_commits {s : State} {r : CairnRecord} {rest : List CairnRecord} (hq : s.cairn.queue = r :: rest)
    (he : s.cairn.erasing = false) :
    Completes (.cairnCommit true) s fun t =>
      t.cairn.queue = rest ∧ t.cairn.newest = nextSlot s ∧ t.cairn.sequence = s.cairn.sequence + 1 ∧
      t.cairn.retrySlot = none ∧ slotBytes t (nextSlot s) = recordBytes (s.cairn.sequence + 1) r ∧
      (∀ k, k ≠ nextSlot s → slotBytes t k = slotBytes s k) ∧ t = { s with cairn := t.cairn } := by
  have hlen := recordBytes_length (s.cairn.sequence + 1) r
  have hrun : cairnCommit true s
      = slotCommitted (nextSlot s) (s.cairn.sequence + 1) rest (recordBytes (s.cairn.sequence + 1) r) s := by
    rw [cairnCommit, hq]
    dsimp only
    rw [he, if_neg Bool.false_ne_true, if_pos rfl]
    generalize recordBytes (s.cairn.sequence + 1) r = bs
    rfl
  generalize recordBytes (s.cairn.sequence + 1) r = bs at *
  obtain ⟨hslot, hother, m, v, e⟩ := slotCommitted_commits (slot := nextSlot s) (n := s.cairn.sequence + 1) (rest := rest) hlen s
  generalize slotCommitted (nextSlot s) (s.cairn.sequence + 1) rest bs s = t at *
  refine ⟨t, congrArg Host.Outcome.next hrun, ?_, ?_, ?_, ?_, hslot, hother, ?_⟩
  all_goals rw [e]

/-- A record that fails its read-back waits for the slot after `slot`. -/
def commitFailed (slot : Nat) (s : State) : State :=
  let s := signal 204 slot (setBit s R.cairnStatus 27 true)
  { s with cairn := { s.cairn with retrySlot := some ((slot + 1) % 8192) } }

theorem commitFailed_signals {slot : Nat} (hn : slot < 8192) (s : State) :
    (commitFailed slot s).cairn = { s.cairn with retrySlot := some ((slot + 1) % 8192) } ∧
      bit (commitFailed slot s) R.cairnStatus 27 = true ∧
      (commitFailed slot s).flt.signals = s.flt.signals ++ [⟨204, slot, false⟩] ∧ keepsRegs [R.cairnStatus] s (commitFailed slot s) := by
  have hcairn : (signal 204 slot (setBit s R.cairnStatus 27 true)).cairn = s.cairn := signal_cairn _ _ _
  refine ⟨?_, ?_, ?_, ?_⟩
  · rw [commitFailed, hcairn]
  · exact (congrArg (fun w : Word => w.getLsbD 27) (reg_signal _ _ _ _)).trans (bit_setBit _ _ _ _ (by omega))
  · exact signals_signal (s := setBit s R.cairnStatus 27 true) rfl (by omega) (by omega)
  · exact ((keepsRegs_refl _ s).setBit (by simp) 27 true).signal 204 slot

theorem cairnCommit_fails {s : State} {r : CairnRecord} {rest : List CairnRecord} (hq : s.cairn.queue = r :: rest)
    (he : s.cairn.erasing = false) (hr : s.cairn.retrySlot = none) (hn : nextSlot s < 8192) :
    Completes (.cairnCommit false) s fun t =>
      t.cairn.queue = r :: rest ∧ t.cairn.retrySlot = some ((nextSlot s + 1) % 8192) ∧
      t.cairn.sequence = s.cairn.sequence ∧ bit t R.cairnStatus 27 = true ∧
      t.flt.signals = s.flt.signals ++ [⟨204, nextSlot s, false⟩] ∧ keepsRegs [R.cairnStatus] s t := by
  have hrun : cairnCommit false s
      = commitFailed (nextSlot s) (writeSlotBytes (nextSlot s) (bytesLE 64 (takeFree 512 s).1.toNat) (takeFree 512 s).2) := by
    rw [cairnCommit, hq]
    dsimp only
    rw [he, if_neg Bool.false_ne_true, if_neg Bool.false_ne_true]
    generalize bytesLE 64 (takeFree 512 s).1.toNat = bs
    obtain ⟨m, v, e⟩ := writeSlotBytes_frame (nextSlot s) bs (takeFree 512 s).2
    rw [if_neg]
    · rfl
    · rw [signal_cairn, setBit_cairn, e]
      simp [takeFree, hr]
  generalize bytesLE 64 (takeFree 512 s).1.toNat = bs at *
  obtain ⟨m, v, e⟩ := writeSlotBytes_frame (nextSlot s) bs (takeFree 512 s).2
  rw [e] at hrun
  obtain ⟨hc, hbit, hsig, hkeep⟩ := commitFailed_signals hn
    { (takeFree 512 s).2 with cairn := { (takeFree 512 s).2.cairn with nvm := m, valid := v } }
  refine ⟨_, congrArg Host.Outcome.next hrun, ?_, ?_, ?_, hbit, hsig, hkeep⟩
  · rw [hc]
    exact hq
  · rw [hc]
  · rw [hc]
    rfl

theorem readBytes_empty (a n : Nat) : readBytes {} a n = List.replicate n 0 := by
  have hzero (i : Nat) : readByte {} (a + i) = 0 := rfl
  simp only [readBytes, hzero, List.map_const', List.length_range]

/-- The ring holds one record of the bytes `bs`. -/
def ringErased (bs : List Byte) (s : State) : State :=
  { s with cairn := { s.cairn with
    nvm := writeBytes {} 0 bs, newest := 0, sequence := 1, valid := 1, retrySlot := none, coldResets := 0, erasing := false } }

theorem ringErased_slots {bs : List Byte} (hb : bs.length = 64) (s : State) :
    slotBytes (ringErased bs s) 0 = bs ∧ ∀ k, 1 ≤ k → slotBytes (ringErased bs s) k = List.replicate 64 0 := by
  constructor
  · have h := readBytes_writeBytes {} 0 bs
    rw [hb] at h
    exact h
  · exact fun k hk => (readBytes_writeBytes_other (m := {}) (slot := 0) hb (by omega)).trans (readBytes_empty _ _)

theorem eraseDone_erases {s : State} (he : s.cairn.erasing = true) :
    Completes .eraseDone s fun t =>
      t.cairn.erasing = false ∧ t.cairn.sequence = 1 ∧ t.cairn.newest = 0 ∧ t.cairn.valid = 1 ∧ t.cairn.coldResets = 0 ∧
      slotBytes t 0 = recordBytes 1 (mkRecord { s with cairn := { s.cairn with coldResets := 0 } } 8 false 0xFFFF []) ∧
      (∀ k, 1 ≤ k → slotBytes t k = List.replicate 64 0) ∧ t.cairn.queue = s.cairn.queue ∧
      t = { s with cairn := t.cairn } := by
  have hlen := recordBytes_length 1 (mkRecord { s with cairn := { s.cairn with coldResets := 0 } } 8 false 0xFFFF [])
  have hrun : eraseDone s
      = ringErased (recordBytes 1 (mkRecord { s with cairn := { s.cairn with coldResets := 0 } } 8 false 0xFFFF [])) s := if_pos he
  generalize recordBytes 1 (mkRecord { s with cairn := { s.cairn with coldResets := 0 } } 8 false 0xFFFF []) = bs at *
  obtain ⟨hfirst, hother⟩ := ringErased_slots hlen s
  exact ⟨_, congrArg Host.Outcome.next hrun, rfl, rfl, rfl, rfl, rfl, hfirst, hother, rfl, rfl⟩

theorem severity7Reset_resets {s : State} (h : s.flt.sev7Pending = true) :
    exec .severity7Reset s = .next (warmReset 4 { s with flt := { s.flt with
      sev7Resets := min 3 (s.flt.sev7Resets + 1), sev7Pending := false } }) := congrArg Host.Outcome.next (if_pos h)

theorem cairnErase_accepted {f : Bool} {s : State} (hc : s.die.lifeCycle = 1) (hr : holdsRight s f .ce = true) :
    exec (.erase f) s = .next { s with cairn := { s.cairn with erasing := true } } := congrArg Host.Outcome.next (if_pos ⟨hc, hr⟩)

theorem cairnErase_refused {f : Bool} {s : State} (h : s.die.lifeCycle ≠ 1 ∨ holdsRight s f .ce = false) :
    exec (.erase f) s = .next (setBit s R.cairnStatus 28 true) := by
  refine congrArg Host.Outcome.next (if_neg ?_)
  rintro ⟨hc, hr⟩
  rcases h with h | h
  · exact h hc
  · exact absurd (h.symm.trans hr) (by decide)

/-- Settles O50: a cycle with one detection by what its registration leaves and the reaction of its severity; the commands and
the Cairn ring each by their own lemma. -/
theorem faultEvents : Obligations.FaultEvents :=
  ⟨fun _ _ _ _ hk _ => faultEvent_records hk, fun _ _ _ _ hk _ => faultEvent_safe hk, fun _ _ _ _ hk _ => faultEvent_freezes hk,
    fun _ _ _ _ hk _ => faultEvent_stops hk, fun _ _ _ _ _ hk _ => faultEvent_removes hk,
    fun _ _ _ _ hk _ => faultEvent_resets hk, fun _ _ _ => faultInject_injects, fun _ _ _ => faultInject_refused,
    fun _ => safeRelease_releases, fun _ _ => safeRelease_refused, fun _ => rfl, fun _ h => ⟨severity7Reset_resets h, rfl⟩,
    fun _ _ _ => faultInject_gone, fun _ _ _ => cairnCommit_commits, fun _ _ _ => cairnCommit_fails,
    fun _ _ hc hr => cairnErase_accepted hc hr, fun _ _ => cairnErase_refused, fun _ => eraseDone_erases⟩

end Sys2Proof.Machine
end

/-! # Clock settings and the thermal policy (R372 to R377) -/

section
namespace Sys2Proof.Machine
set_option Elab.async false

/-! ## The clock setting of a reach (R373) -/

theorem effectiveClk_lt (s : State) (r : Nat) : effectiveClk s r < 64 := by
  unfold effectiveClk clkMax
  split <;> omega

theorem pwrReachClk_ne_status (r : Nat) : R.pwrReachClk r ≠ R.pwrClkStatus ∨ 16 ≤ r := by
  simp only [R.pwrReachClk, R.pwrClkStatus]
  omega

theorem pwrReachClk_inj {r j : Nat} (h : R.pwrReachClk r = R.pwrReachClk j) : r = j := by
  simp only [R.pwrReachClk] at h
  omega

/-- What the setting of reach `r` leaves. -/
structure ClkApplied (r : Nat) (s t : State) : Prop where
  set : bits t (R.pwrReachClk r) 10 6 = effectiveClk s r
  regs : keepsRegs [R.pwrReachClk r, R.pwrClkStatus] s t
  limits : ∀ j, j < 16 → clkMax t j = clkMax s j ∧ clkMin t j = clkMin s j
  frame : ∃ g, t = { s with regs := g }

theorem applyClk_applied {r : Nat} (hr : r < 16) (s : State) : ClkApplied r s (applyClk r s) := by
  have hne : R.pwrReachClk r ≠ R.pwrClkStatus := (pwrReachClk_ne_status r).resolve_right (by omega)
  have hregs : keepsRegs [R.pwrReachClk r, R.pwrClkStatus] s (applyClk r s) :=
    ((keepsRegs_refl _ s).setBits (by simp) 10 6 _).setBit (by simp) (16 + r) _
  have hfield (j lo n : Nat) (hj : j < 16) (h : lo + n ≤ 10 ∨ 16 ≤ lo) :
      bits (applyClk r s) (R.pwrReachClk j) lo n = bits s (R.pwrReachClk j) lo n := by
    by_cases hjr : j = r
    · subst hjr
      exact (bits_setBit_ne _ _ _ _ _ _ _ (.inl hne)).trans (bits_setBits_ne _ _ _ _ _ _ _ _ (by omega))
    · refine hregs.bits (fun hm => ?_) lo n
      simp only [List.mem_cons, List.not_mem_nil, or_false, R.pwrReachClk, R.pwrClkStatus] at hm
      omega
  have hmax (j : Nat) (hj : j < 16) : clkMax (applyClk r s) j = clkMax s j := by
    rw [clkMax, hfield j 26 6 hj (by omega), clkMax]
  refine ⟨?_, hregs, fun j hj => ⟨hmax j hj, ?_⟩, _, rfl⟩
  · refine (bits_setBit_ne _ _ _ _ _ _ _ (.inl hne)).trans ?_
    rw [bits_setBits _ _ _ _ _ (by omega)]
    exact Nat.mod_eq_of_lt (effectiveClk_lt s r)
  · rw [clkMin, hmax j hj, hfield j 20 6 hj (by omega), clkMin]

/-- The effective setting rests on the temperature and register limits, the trips, the domain and the debug mode. -/
theorem effectiveClk_keeps {s t : State} {r : Nat} (hr : r < 16) (hregs : keepsRegs clkRegs s t) (ht : t.pwr.tripped = s.pwr.tripped)
    (hth : thermalOf t r = thermalOf s r) (hmax : clkMax t r = clkMax s r) : effectiveClk t r = effectiveClk s r := by
  have hd : domainOn t r = domainOn s r := by
    refine domainOn_keeps hregs fun hm => ?_
    simp only [clkRegs, List.mem_cons, List.mem_map, List.mem_range, R.pwrDomainStatus, R.pwrClkStatus, R.pwrReachClk] at hm
    rcases hm with hm | ⟨k, hk, hm⟩ <;> omega
  have hdebug : debugMode t = debugMode s := hregs.bit (by decide) 0
  unfold effectiveClk tripLimit
  rw [ht, hd, hth, hmax, hdebug]

theorem pwrReachClk_mem {r : Nat} (hr : r < 16) : R.pwrReachClk r ∈ clkRegs :=
  List.mem_cons_of_mem _ (List.mem_map.2 ⟨r, List.mem_range.2 hr, rfl⟩)

theorem ClkApplied.clk {r : Nat} {s t : State} (h : ClkApplied r s t) (hr : r < 16) : keepsRegs clkRegs s t :=
  h.regs.mono fun a ha => by
    rcases List.mem_cons.1 ha with rfl | ha
    · exact pwrReachClk_mem hr
    · rw [List.mem_singleton.1 ha]
      exact List.mem_cons_self

theorem thermalOf_setThermal (r f : Nat) (s : State) (j : Nat) :
    thermalOf (setThermal r f s) j = if j = r then f else thermalOf s j := look_put _ _ _ _ _

/-- What an opportunity of reach `r` to change its setting leaves. -/
structure ClkTaken (r : Nat) (s t : State) : Prop where
  set : bits t (R.pwrReachClk r) 10 6 = effectiveClk t r
  regs : keepsRegs [R.pwrReachClk r, R.pwrClkStatus] s t
  max : ∀ j, j < 16 → clkMax t j = clkMax s j
  thermal : ∀ j, j ≠ r → thermalOf t j = thermalOf s j
  frame : ∃ g h, t = { s with regs := g, pwr := { s.pwr with thermal := h } }

theorem clkOpportunity_taken {r : Nat} (hr : r < 16) (s : State) : ClkTaken r s (clkOpportunity r s) := by
  obtain ⟨u, hu, hmax, hth, hreg, h, e⟩ : ∃ u, (if clkMax s r < thermalOf s r then setThermal r (clkMax s r) s else s) = u ∧
      (∀ j, clkMax u j = clkMax s j) ∧ (∀ j, j ≠ r → thermalOf u j = thermalOf s j) ∧ (∀ a, reg u a = reg s a) ∧
      ∃ h, u = { s with pwr := { s.pwr with thermal := h } } := by
    split
    · exact ⟨_, rfl, fun _ => rfl, fun j hj => (thermalOf_setThermal _ _ _ _).trans (if_neg hj), fun _ => rfl, _, rfl⟩
    · exact ⟨s, rfl, fun _ => rfl, fun _ _ => rfl, fun _ => rfl, s.pwr.thermal, rfl⟩
  have hrun : clkOpportunity r s = applyClk r u := by rw [clkOpportunity, hu]
  have ha := applyClk_applied hr u
  obtain ⟨g, e'⟩ := ha.frame
  rw [hrun]
  have hpwr : (applyClk r u).pwr = u.pwr := by rw [e']
  have hthermal (j : Nat) : thermalOf (applyClk r u) j = thermalOf u j := by rw [thermalOf, hpwr, thermalOf]
  refine ⟨ha.set.trans (effectiveClk_keeps hr (ha.clk hr) (by rw [hpwr]) (hthermal r) (ha.limits r hr).1).symm,
    fun a hm => (ha.regs a hm).trans (hreg a), fun j hj => (ha.limits j hj).1.trans (hmax j), fun j hj => (hthermal j).trans (hth j hj),
    g, h, by rw [e', e]⟩

theorem ClkTaken.clk {r : Nat} {s t : State} (h : ClkTaken r s t) (hr : r < 16) : keepsRegs clkRegs s t :=
  h.regs.mono fun a ha => by
    rcases List.mem_cons.1 ha with rfl | ha
    · exact pwrReachClk_mem hr
    · rw [List.mem_singleton.1 ha]
      exact List.mem_cons_self

theorem clkFree_keeps {s t : State} (hregs : keepsRegs clkRegs s t) (hs : t.sched = s.sched) (r : Nat) : clkFree t r = clkFree s r := by
  have hh : inHold t r = inHold s r := hregs.bit ldReach_notin_clkRegs _
  rw [clkFree, hs, hh, clkFree]

/-- The first `n` reaches that may change their setting have taken it. -/
def freed (n : Nat) (s : State) : State := forUpTo n (fun r acc => if clkFree acc r then clkOpportunity r acc else acc) s

/-- What is left when the first `n` reaches had their opportunity. -/
structure Freed (n : Nat) (s t : State) : Prop where
  set : ∀ r, r < n → bits t (R.pwrReachClk r) 10 6 =
    if clkFree s r then effectiveClk t r else bits s (R.pwrReachClk r) 10 6
  later : ∀ r, n ≤ r → r < 16 → reg t (R.pwrReachClk r) = reg s (R.pwrReachClk r)
  regs : keepsRegs clkRegs s t
  frame : ∃ g h, t = { s with regs := g, pwr := { s.pwr with thermal := h } }

theorem freed_freed {n : Nat} (hn : n ≤ 16) (s : State) : Freed n s (freed n s) := by
  induction n with
  | zero => exact ⟨fun r hr => absurd hr (by omega), fun _ _ _ => rfl, keepsRegs_refl _ s, s.regs, s.pwr.thermal, rfl⟩
  | succ n ih =>
    obtain ⟨hset, hlater, hregs, g, h, e⟩ := ih (by omega)
    rw [freed, forUpTo_succ, ← freed]
    have hsched : (freed n s).sched = s.sched := by rw [e]
    have hfree := clkFree_keeps hregs hsched n
    generalize freed n s = u at *
    by_cases hf : clkFree s n = true
    · rw [if_pos (hfree.trans hf)]
      have ht := clkOpportunity_taken (r := n) (by omega) u
      obtain ⟨g', h', e'⟩ := ht.frame
      have hother (r : Nat) (hr : r < 16) (hne : r ≠ n) : R.pwrReachClk r ∉ [R.pwrReachClk n, R.pwrClkStatus] := fun hm => by
        rcases List.mem_cons.1 hm with hm | hm
        · exact hne (pwrReachClk_inj hm)
        · exact (pwrReachClk_ne_status r).elim (fun h => h (List.mem_singleton.1 hm)) (by omega)
      refine ⟨fun r hr => ?_, fun r hr hr16 => (ht.regs _ (hother r hr16 (by omega))).trans (hlater r (by omega) hr16),
        hregs.trans (ht.clk (by omega)), g', h', by rw [e', e]⟩
      by_cases hrn : r = n
      · rw [hrn, ht.set, if_pos hf]
      · have heff := effectiveClk_keeps (r := r) (by omega) (ht.clk (by omega)) (by rw [e']) (ht.thermal r hrn) (ht.max r (by omega))
        rw [ht.regs.bits (hother r (by omega) hrn), hset r (by omega), heff]
    · rw [if_neg (by rw [hfree]; exact hf)]
      refine ⟨fun r hr => ?_, fun r hr hr16 => hlater r (by omega) hr16, hregs, g, h, e⟩
      by_cases hrn : r = n
      · rw [hrn, if_neg hf, bits, hlater n (Nat.le_refl n) (by omega)]
        rfl
      · exact hset r (by omega)

theorem applyFree_freed (s : State) : Freed 16 s (applyFree s) := freed_freed (Nat.le_refl 16) s

/-- Every reach takes its setting at once. -/
theorem applyAll_applied (n : Nat) (hn : n ≤ 16) (s : State) :
    keepsRegs clkRegs s (forUpTo n applyClk s) ∧ (∃ g, forUpTo n applyClk s = { s with regs := g }) ∧
      ∀ r, r < n → tripLimit s = true → bits (forUpTo n applyClk s) (R.pwrReachClk r) 10 6 = 0 := by
  induction n with
  | zero => exact ⟨keepsRegs_refl _ s, ⟨s.regs, rfl⟩, fun r hr => absurd hr (by omega)⟩
  | succ n ih =>
    obtain ⟨hk, ⟨g, e⟩, hz⟩ := ih (by omega)
    rw [forUpTo_succ]
    have hpwr : (forUpTo n applyClk s).pwr = s.pwr := by rw [e]
    generalize forUpTo n applyClk s = u at *
    have ha := applyClk_applied (r := n) (by omega) u
    obtain ⟨g', e'⟩ := ha.frame
    refine ⟨hk.trans (ha.clk (by omega)), ⟨g', by rw [e', e]⟩, fun r hr ht => ?_⟩
    by_cases hrn : r = n
    · have htrip : tripLimit u = true := by rw [tripLimit, hpwr]; exact ht
      rw [hrn, ha.set, effectiveClk, htrip]
      rfl
    · refine (ha.regs.bits (fun hm => ?_) 10 6).trans (hz r (by omega) ht)
      rcases List.mem_cons.1 hm with hm | hm
      · exact hrn (pwrReachClk_inj hm)
      · exact (pwrReachClk_ne_status r).elim (fun h => h (List.mem_singleton.1 hm)) (by omega)

/-! ## Thermal decisions (R376) -/

/-- The divider that the decision gives reach `r`. -/
def thermalTarget (s : State) (r : Nat) : Nat :=
  if bit s (R.pwrThermTemp r) 31 then
    if tThrottle s ≤ sensorTemp s r ∧ clkMin s r < thermalOf s r then thermalOf s r - 1
    else if sensorTemp s r + tHyst s ≤ tThrottle s ∧ thermalOf s r < clkMax s r then thermalOf s r + 1
    else thermalOf s r
  else thermalOf s r

/-- What the thermal decisions of reaches leave: the registers of clock settings and the dividers, limits unchanged. -/
structure ThermalMoved (s t : State) : Prop where
  regs : keepsRegs clkRegs s t
  limits : ∀ j, j < 16 → clkMax t j = clkMax s j ∧ clkMin t j = clkMin s j
  frame : ∃ g h, t = { s with regs := g, pwr := { s.pwr with thermal := h } }

theorem ThermalMoved.trans {s t u : State} (h : ThermalMoved s t) (h' : ThermalMoved t u) : ThermalMoved s u := by
  obtain ⟨hr, hl, g, x, e⟩ := h
  obtain ⟨hr', hl', g', x', e'⟩ := h'
  exact ⟨hr.trans hr', fun j hj => ⟨(hl' j hj).1.trans (hl j hj).1, (hl' j hj).2.trans (hl j hj).2⟩, g', x', by rw [e', e]⟩

/-- The divider of reach `r` as the decision sets it, with its throttle flag. -/
def thermalSet (r : Nat) (s : State) : State :=
  let t := sensorTemp s r
  let f := thermalOf s r
  let s := setBit s R.pwrClkStatus r (decide (tThrottle s ≤ t) && f == clkMin s r)
  if tThrottle s ≤ t ∧ clkMin s r < f then setThermal r (f - 1) s
  else if t + tHyst s ≤ tThrottle s ∧ f < clkMax s r then setThermal r (f + 1) s
  else s

theorem thermalSet_moved {r : Nat} (hr : r < 16) (s : State) (hv : bit s (R.pwrThermTemp r) 31 = true) :
    ThermalMoved s (thermalSet r s) ∧
      ∀ j, thermalOf (thermalSet r s) j = if j = r then thermalTarget s r else thermalOf s j := by
  have hflag (b : Bool) : keepsRegs [R.pwrClkStatus] s (setBit s R.pwrClkStatus r b) :=
    (keepsRegs_refl _ s).setBit (by simp) _ _
  have hclk (b : Bool) (j : Nat) (hj : j < 16) : clkMax (setBit s R.pwrClkStatus r b) j = clkMax s j ∧
      clkMin (setBit s R.pwrClkStatus r b) j = clkMin s j := by
    have hne : R.pwrReachClk j ∉ [R.pwrClkStatus] := fun hm =>
      (pwrReachClk_ne_status j).elim (fun h => h (List.mem_singleton.1 hm)) (by omega)
    have hmax : clkMax (setBit s R.pwrClkStatus r b) j = clkMax s j := by rw [clkMax, (hflag b).bits hne, clkMax]
    exact ⟨hmax, by rw [clkMin, hmax, (hflag b).bits hne, clkMin]⟩
  have hthr (b : Bool) : tThrottle (setBit s R.pwrClkStatus r b) = tThrottle s ∧ tHyst (setBit s R.pwrClkStatus r b) = tHyst s := by
    rw [tThrottle, tHyst, (hflag b).bits (by decide), (hflag b).bits (by decide)]
    exact ⟨rfl, rfl⟩
  have hmoved (b : Bool) (f : Nat) : ThermalMoved s (setThermal r f (setBit s R.pwrClkStatus r b)) :=
    ⟨(hflag b).mono (by simp [clkRegs]), hclk b, _, _, rfl⟩
  have htarget : thermalTarget s r = if tThrottle s ≤ sensorTemp s r ∧ clkMin s r < thermalOf s r then thermalOf s r - 1
      else if sensorTemp s r + tHyst s ≤ tThrottle s ∧ thermalOf s r < clkMax s r then thermalOf s r + 1 else thermalOf s r :=
    if_pos hv
  rw [thermalSet]
  generalize (decide (tThrottle s ≤ sensorTemp s r) && thermalOf s r == clkMin s r) = b
  rw [(hthr b).1, (hthr b).2, (hclk b r hr).1, (hclk b r hr).2, htarget]
  split
  · exact ⟨hmoved b _, fun j => thermalOf_setThermal _ _ _ _⟩
  · split
    · exact ⟨hmoved b _, fun j => thermalOf_setThermal _ _ _ _⟩
    · refine ⟨⟨(hflag b).mono (by simp [clkRegs]), hclk b, _, s.pwr.thermal, rfl⟩, fun j => ?_⟩
      by_cases hj : j = r
      · rw [if_pos hj, hj]
        rfl
      · rw [if_neg hj]
        rfl

theorem applyClk_thermal {r : Nat} (hr : r < 16) (s : State) : ThermalMoved s (applyClk r s) ∧ (applyClk r s).pwr = s.pwr := by
  have h := applyClk_applied hr s
  obtain ⟨g, e⟩ := h.frame
  exact ⟨⟨h.clk hr, h.limits, g, s.pwr.thermal, e⟩, by rw [e]⟩

theorem thermalStep_steps {r : Nat} (hr : r < 16) (s : State) : ThermalMoved s (thermalStep r s) ∧
    ∀ j, thermalOf (thermalStep r s) j = if j = r then thermalTarget s r else thermalOf s j := by
  cases hv : bit s (R.pwrThermTemp r) 31 with
  | false =>
    have hrun : thermalStep r s = s := if_pos (by rw [hv]; decide)
    have htarget : thermalTarget s r = thermalOf s r := if_neg (by rw [hv]; decide)
    rw [hrun, htarget]
    refine ⟨⟨keepsRegs_refl _ s, fun _ _ => ⟨rfl, rfl⟩, s.regs, s.pwr.thermal, rfl⟩, fun j => ?_⟩
    split
    · next h => rw [h]
    · rfl
  | true =>
    have hrun : thermalStep r s = if clkFree (thermalSet r s) r then applyClk r (thermalSet r s) else thermalSet r s :=
      if_neg (by rw [hv]; decide)
    obtain ⟨hm, hth⟩ := thermalSet_moved hr s hv
    rw [hrun]
    split
    · obtain ⟨hm', hp⟩ := applyClk_thermal hr (thermalSet r s)
      exact ⟨hm.trans hm', fun j => by rw [thermalOf, hp]; exact hth j⟩
    · exact ⟨hm, hth⟩

theorem thermalTarget_keeps {s t : State} (h : ThermalMoved s t) {r : Nat} (hr : r < 16) (hth : thermalOf t r = thermalOf s r) :
    thermalTarget t r = thermalTarget s r := by
  have htemp : R.pwrThermTemp r ∉ clkRegs := by
    intro hm
    simp only [clkRegs, List.mem_cons, List.mem_map, List.mem_range, R.pwrThermTemp, R.pwrClkStatus, R.pwrReachClk] at hm
    rcases hm with hm | ⟨k, hk, hm⟩ <;> omega
  have hcfg : R.pwrThermCfg ∉ clkRegs := by decide
  obtain ⟨hmax, hmin⟩ := h.limits r hr
  unfold thermalTarget tThrottle tHyst sensorTemp
  rw [h.regs.bit htemp, h.regs.bits htemp, h.regs.bits hcfg, h.regs.bits hcfg, hmax, hmin, hth]

theorem thermalSteps_step (n : Nat) (hn : n ≤ 16) (s : State) : ThermalMoved s (forUpTo n thermalStep s) ∧
    ∀ j, thermalOf (forUpTo n thermalStep s) j = if j < n then thermalTarget s j else thermalOf s j := by
  induction n with
  | zero => exact ⟨⟨keepsRegs_refl _ s, fun _ _ => ⟨rfl, rfl⟩, s.regs, s.pwr.thermal, rfl⟩, fun j => (if_neg (by omega)).symm⟩
  | succ n ih =>
    obtain ⟨hm, hth⟩ := ih (by omega)
    obtain ⟨hm', hth'⟩ := thermalStep_steps (r := n) (by omega) (forUpTo n thermalStep s)
    rw [forUpTo_succ]
    refine ⟨hm.trans hm', fun j => (hth' j).trans ?_⟩
    by_cases hj : j = n
    · rw [if_pos hj, if_pos (by omega), hj]
      exact thermalTarget_keeps hm (by omega) ((hth n).trans (if_neg (by omega)))
    · rw [if_neg hj, hth j]
      exact if_congr (by omega) rfl rfl

theorem thermalDecision_decides (s : State) : Completes .thermalDecision s fun t =>
    (∀ r, r < 16 → bit s (R.pwrThermTemp r) 31 = true →
      thermalOf t r = (if tThrottle s ≤ sensorTemp s r ∧ clkMin s r < thermalOf s r then thermalOf s r - 1
        else if sensorTemp s r + tHyst s ≤ tThrottle s ∧ thermalOf s r < clkMax s r then thermalOf s r + 1
        else thermalOf s r)) ∧
    (∀ r, r < 16 → bit s (R.pwrThermTemp r) 31 = false → thermalOf t r = thermalOf s r) ∧
    t.clusters = s.clusters ∧ t.flt = s.flt ∧ t.sched = s.sched := by
  obtain ⟨hm, hth⟩ := thermalSteps_step 16 (Nat.le_refl 16) s
  obtain ⟨g, h, e⟩ := hm.frame
  refine ⟨forUpTo 16 thermalStep s, rfl, fun r hr hv => ?_, fun r hr hv => ?_, by rw [e], by rw [e], by rw [e]⟩
  · exact (hth r).trans ((if_pos hr).trans (if_pos hv))
  · exact (hth r).trans ((if_pos hr).trans (if_neg (by rw [hv]; decide)))

end Sys2Proof.Machine
end

/-! # Sensor samples and reference clocks (R375, R377) -/

section
namespace Sys2Proof.Machine
set_option Elab.async false

/-! ## A sample (R377) -/

/-- The sample of sensor `k` is recorded. -/
def sampleShown (k t : Nat) (s : State) : State :=
  setBits (setBit (setBits s (R.pwrThermTemp k) 0 8 t) (R.pwrThermTemp k) 31 true) (R.pwrThermTemp k) 8 8
    (max t (bits (setBit (setBits s (R.pwrThermTemp k) 0 8 t) (R.pwrThermTemp k) 31 true) (R.pwrThermTemp k) 8 8))

theorem sensorSample_eq (k c : Nat) (s : State) : sensorSample k c s =
    sampleTrip k (min 255 c) (sampleHigh k (min 255 c) (sampleShown k (min 255 c) s)) := rfl

/-- What a recorded sample shows. -/
structure SampleShown (k t : Nat) (s u : State) : Prop where
  temp : sensorTemp u k = t
  valid : bit u (R.pwrThermTemp k) 31 = true
  peak : bits u (R.pwrThermTemp k) 8 8 = max t (bits s (R.pwrThermTemp k) 8 8)
  high : bit u (R.pwrThermTemp k) 30 = bit s (R.pwrThermTemp k) 30
  regs : keepsRegs [R.pwrThermTemp k] s u
  frame : ∃ g, u = { s with regs := g }

theorem sampleShown_shown {k t : Nat} (ht : t < 256) (s : State) : SampleShown k t s (sampleShown k t s) := by
  have hold : bits (setBit (setBits s (R.pwrThermTemp k) 0 8 t) (R.pwrThermTemp k) 31 true) (R.pwrThermTemp k) 8 8
      = bits s (R.pwrThermTemp k) 8 8 :=
    (bits_setBit_ne _ _ _ _ _ _ _ (by omega)).trans (bits_setBits_ne _ _ _ _ _ _ _ _ (by omega))
  have hpeak : bits s (R.pwrThermTemp k) 8 8 < 256 := bitsOf_lt _ _ _
  unfold sampleShown
  refine ⟨?_, ?_, ?_, ?_, ?_, _, rfl⟩
  · rw [sensorTemp, bits_setBits_ne _ _ _ _ _ _ _ _ (by omega), bits_setBit_ne _ _ _ _ _ _ _ (by omega),
      bits_setBits _ _ _ _ _ (by omega)]
    exact Nat.mod_eq_of_lt ht
  · rw [bit_setBits_ne _ _ _ _ _ _ _ (by omega), bit_setBit _ _ _ _ (by omega)]
  · rw [bits_setBits _ _ _ _ _ (by omega), hold]
    exact Nat.mod_eq_of_lt (by omega)
  · rw [bit_setBits_ne _ _ _ _ _ _ _ (by omega), bit_setBit_ne _ _ _ _ _ _ (.inr (by omega)), bit_setBits_ne _ _ _ _ _ _ _ (by omega)]
  · exact (((keepsRegs_refl _ s).setBits (by simp) 0 8 t).setBit (by simp) 31 true).setBits (by simp) 8 8 _

/-- THERMAL_HIGH of a sample as it stands afterwards, and the fault that it raises. -/
def highAfter (k t : Nat) (s : State) : Bool :=
  if tHigh s ≤ t then true else if t + tHyst s ≤ tHigh s then false else bit s (R.pwrThermTemp k) 30
def highRaised (k t : Nat) (s : State) : List Signal :=
  if tHigh s ≤ t ∧ bit s (R.pwrThermTemp k) 30 = false then [⟨140 + k, t, false⟩] else []

/-- What the comparison of a sample with t_high leaves. -/
structure HighCompared (k t : Nat) (s u : State) : Prop where
  high : bit u (R.pwrThermTemp k) 30 = highAfter k t s
  fields : ∀ lo n, lo + n ≤ 30 → bits u (R.pwrThermTemp k) lo n = bits s (R.pwrThermTemp k) lo n
  valid : bit u (R.pwrThermTemp k) 31 = bit s (R.pwrThermTemp k) 31
  regs : keepsRegs [R.pwrThermTemp k] s u
  frame : ∃ g, u = { s with regs := g, flt := { s.flt with signals := s.flt.signals ++ highRaised k t s } }

theorem signal_eq {source info : Nat} {s : State} (h : sourceGone s source info = false) (hs : source < 240) (hi : info < 65536) :
    signal source info s = { s with flt := { s.flt with signals := s.flt.signals ++ [⟨source, info, false⟩] } } := by
  rw [signal, h, if_neg (by simp; omega), Nat.mod_eq_of_lt hi]

theorem sourceGone_sensor {s : State} {k i : Nat} (h : 140 ≤ k ∧ k < 188) : sourceGone s k i = false := by
  rw [sourceGone, if_neg (by omega), if_neg (by omega), if_neg (by omega), if_pos h.2]

theorem setBit_fields (s : State) (a i : Nat) (v : Bool) {j : Nat} (hj : i ≠ j) : bit (setBit s a i v) a j = bit s a j :=
  bit_setBit_ne _ _ _ _ _ _ (.inr (Ne.symm hj))

theorem sampleHigh_compares {k t : Nat} (hk : k < 20) (ht : t < 65536) (s : State) : HighCompared k t s (sampleHigh k t s) := by
  have hset (b : Bool) : (∀ lo n, lo + n ≤ 30 → bits (setBit s (R.pwrThermTemp k) 30 b) (R.pwrThermTemp k) lo n
      = bits s (R.pwrThermTemp k) lo n) ∧ bit (setBit s (R.pwrThermTemp k) 30 b) (R.pwrThermTemp k) 31 = bit s (R.pwrThermTemp k) 31 ∧
      bit (setBit s (R.pwrThermTemp k) 30 b) (R.pwrThermTemp k) 30 = b ∧
      keepsRegs [R.pwrThermTemp k] s (setBit s (R.pwrThermTemp k) 30 b) :=
    ⟨fun lo n h => bits_setBit_ne _ _ _ _ _ _ _ (.inr (by omega)), setBit_fields s _ _ _ (by omega),
      bit_setBit _ _ _ _ (by omega), (keepsRegs_refl _ s).setBit (by simp) _ _⟩
  rw [sampleHigh]
  by_cases hh : tHigh s ≤ t
  · have hafter : highAfter k t s = true := if_pos hh
    rw [if_pos hh]
    cases hb : bit s (R.pwrThermTemp k) 30 with
    | true =>
      have hraised : highRaised k t s = [] := if_neg (by rw [hb]; simp)
      rw [if_pos rfl]
      exact ⟨hb.trans hafter.symm, fun _ _ _ => rfl, rfl, keepsRegs_refl _ s, s.regs, by rw [hraised, List.append_nil]⟩
    | false =>
      have hraised : highRaised k t s = [⟨140 + k, t, false⟩] := if_pos ⟨hh, hb⟩
      obtain ⟨hf, hv, h30, hkeep⟩ := hset true
      rw [if_neg (by decide), signal_eq (sourceGone_sensor (by omega)) (by omega) ht]
      exact ⟨h30.trans hafter.symm, hf, hv, hkeep, _, by rw [hraised]; rfl⟩
  · have hraised : highRaised k t s = [] := if_neg fun h => hh h.1
    rw [if_neg hh]
    by_cases hl : t + tHyst s ≤ tHigh s
    · obtain ⟨hf, hv, h30, hkeep⟩ := hset false
      rw [if_pos hl]
      exact ⟨h30.trans ((if_neg hh).trans (if_pos hl)).symm, hf, hv, hkeep, _, by rw [hraised, List.append_nil]; rfl⟩
    · rw [if_neg hl]
      exact ⟨((if_neg hh).trans (if_neg hl)).symm, fun _ _ _ => rfl, rfl, keepsRegs_refl _ s, s.regs, by rw [hraised, List.append_nil]⟩

/-- What a sample leaves, but for the trips. -/
structure SampleTaken (k t : Nat) (s u : State) : Prop where
  temp : sensorTemp u k = t
  valid : bit u (R.pwrThermTemp k) 31 = true
  peak : bits u (R.pwrThermTemp k) 8 8 = max t (bits s (R.pwrThermTemp k) 8 8)
  high : bit u (R.pwrThermTemp k) 30 = highAfter k t s
  regs : keepsRegs [R.pwrThermTemp k] s u
  frame : ∃ g, u = { s with regs := g, flt := { s.flt with signals := s.flt.signals ++ highRaised k t s } }

theorem pwrThermCfg_notin (k : Nat) : R.pwrThermCfg ∉ [R.pwrThermTemp k] := by
  intro h
  simp only [List.mem_singleton, R.pwrThermCfg, R.pwrThermTemp] at h
  omega

theorem sample_taken {k t : Nat} (hk : k < 20) (ht : t < 256) (s : State) :
    SampleTaken k t s (sampleHigh k t (sampleShown k t s)) := by
  have hs := sampleShown_shown (k := k) ht s
  have hc := sampleHigh_compares hk (t := t) (by omega) (sampleShown k t s)
  obtain ⟨g, e⟩ := hs.frame
  obtain ⟨g', e'⟩ := hc.frame
  have hcfg : tHigh (sampleShown k t s) = tHigh s ∧ tHyst (sampleShown k t s) = tHyst s := by
    unfold tHigh tHyst
    rw [hs.regs.bits (pwrThermCfg_notin k), hs.regs.bits (pwrThermCfg_notin k)]
    exact ⟨rfl, rfl⟩
  have hafter : highAfter k t (sampleShown k t s) = highAfter k t s := by
    unfold highAfter
    rw [hcfg.1, hcfg.2, hs.high]
  have hraised : highRaised k t (sampleShown k t s) = highRaised k t s := by
    unfold highRaised
    rw [hcfg.1, hs.high]
  refine ⟨(hc.fields 0 8 (by omega)).trans hs.temp, hc.valid.trans hs.valid, (hc.fields 8 8 (by omega)).trans hs.peak,
    hc.high.trans hafter, hs.regs.trans hc.regs, g', ?_⟩
  rw [e', hraised, e]

theorem sampleTrip_idle {k t : Nat} {s : State} (h : t < 110) (hk : k ∉ s.pwr.tripped) : sampleTrip k t s = s := by
  rw [sampleTrip, if_neg (by omega), if_neg fun hc => hk (List.contains_iff_mem.1 hc.2)]

theorem SampleTaken.pwr {k t : Nat} {s u : State} (h : SampleTaken k t s u) : u.pwr = s.pwr := by
  obtain ⟨g, e⟩ := h.frame
  rw [e]

theorem SampleTaken.signals {k t : Nat} {s u : State} (h : SampleTaken k t s u) :
    u.flt.signals = s.flt.signals ++ highRaised k t s := by
  obtain ⟨g, e⟩ := h.frame
  rw [e]

/-- A sample below the trip of a sensor that has not tripped. -/
theorem sensorSample_below {k : Fin 20} {c : Nat} {s : State} (hc : c < 110) (hk : k.val ∉ s.pwr.tripped) :
    ∃ u, exec (.sensorSample k c) s = .next u ∧ SampleTaken k c s u := by
  have ht := sample_taken (k := k) (t := c) k.isLt (by omega) s
  refine ⟨_, congrArg Host.Outcome.next ?_, ht⟩
  rw [sensorSample_eq, Nat.min_eq_right (show c ≤ 255 by omega)]
  exact sampleTrip_idle hc (by rw [ht.pwr]; exact hk)

theorem sensorSample_cool {k : Fin 20} {c : Nat} {s : State} (hh : c < tHigh s) (hc : c < 110) (hk : k.val ∉ s.pwr.tripped) :
    Completes (.sensorSample k c) s fun t =>
      sensorTemp t k = c ∧ bit t (R.pwrThermTemp k) 31 = true ∧
      bits t (R.pwrThermTemp k) 8 8 = max c (bits s (R.pwrThermTemp k) 8 8) ∧ t.flt = s.flt ∧ t.pwr = s.pwr ∧
      keepsRegs [R.pwrThermTemp k] s t := by
  obtain ⟨u, hu, ht⟩ := sensorSample_below hc hk
  have hraised : highRaised k c s = [] := if_neg fun h => absurd h.1 (by omega)
  refine ⟨u, hu, ht.temp, ht.valid, ht.peak, ?_, ht.pwr, ht.regs⟩
  obtain ⟨g, e⟩ := ht.frame
  rw [e, hraised, List.append_nil]

theorem sensorSample_high {k : Fin 20} {c : Nat} {s : State} (hh : tHigh s ≤ c) (hc : c < 110) (hk : k.val ∉ s.pwr.tripped)
    (hb : bit s (R.pwrThermTemp k) 30 = false) :
    Completes (.sensorSample k c) s fun t =>
      bit t (R.pwrThermTemp k) 30 = true ∧ t.flt.signals = s.flt.signals ++ [⟨140 + k, c, false⟩] ∧
      sensorTemp t k = c ∧ t.pwr = s.pwr := by
  obtain ⟨u, hu, ht⟩ := sensorSample_below hc hk
  have hraised : highRaised k c s = [⟨140 + k, c, false⟩] := if_pos ⟨hh, hb⟩
  exact ⟨u, hu, ht.high.trans (if_pos hh), by rw [ht.signals, hraised], ht.temp, ht.pwr⟩

theorem sensorSample_compares {k : Fin 20} {c : Nat} {s : State} (hc : c < 110) (hk : k.val ∉ s.pwr.tripped) :
    Completes (.sensorSample k c) s fun t =>
      bit t (R.pwrThermTemp k) 30 = (if tHigh s ≤ c then true
        else if c + tHyst s ≤ tHigh s then false else bit s (R.pwrThermTemp k) 30) ∧
      t.flt.signals = s.flt.signals ++
        (if tHigh s ≤ c ∧ bit s (R.pwrThermTemp k) 30 = false then [⟨140 + k, c, false⟩] else []) ∧ t.pwr = s.pwr := by
  obtain ⟨u, hu, ht⟩ := sensorSample_below hc hk
  exact ⟨u, hu, ht.high, ht.signals, ht.pwr⟩

theorem sensorSample_trips {k : Fin 20} {c : Nat} {s : State} (hc : 110 ≤ c) (h256 : c < 256) (hk : k.val ∉ s.pwr.tripped)
    (hb : bit s (R.pwrThermTemp k) 30 = true) :
    Completes (.sensorSample k c) s fun t =>
      t.pwr = { s.pwr with tripped := k.val :: s.pwr.tripped } ∧
      t.flt.signals = s.flt.signals ++ [⟨200, k, false⟩] ∧ (∀ r, r < 16 → bits t (R.pwrReachClk r) 10 6 = 0) := by
  have ht := sample_taken (k := k) (t := c) k.isLt h256 s
  have hraised : highRaised k c s = [] := if_neg (by rw [hb]; simp)
  have hsig := ht.signals
  have hpwr := ht.pwr
  rw [hraised, List.append_nil] at hsig
  have hrun : sensorSample k c s = sampleTrip k c (sampleHigh k c (sampleShown k c s)) := by
    rw [sensorSample_eq, Nat.min_eq_right (show c ≤ 255 by omega)]
  generalize sampleHigh k c (sampleShown k c s) = u at *
  have hnot : ¬ u.pwr.tripped.contains k.val = true := fun h => hk (by rw [← hpwr]; exact List.contains_iff_mem.1 h)
  have hsignal : signal 200 k { u with pwr := { u.pwr with tripped := k.val :: u.pwr.tripped } } = { u with
      pwr := { u.pwr with tripped := k.val :: u.pwr.tripped }
      flt := { u.flt with signals := u.flt.signals ++ [⟨200, k, false⟩] } } :=
    signal_eq (s := { u with pwr := { u.pwr with tripped := k.val :: u.pwr.tripped } }) rfl (by omega) (by omega)
  have htrip : sampleTrip k c u = forUpTo 16 applyClk { u with
      pwr := { u.pwr with tripped := k.val :: u.pwr.tripped }
      flt := { u.flt with signals := u.flt.signals ++ [⟨200, k, false⟩] } } := by
    rw [sampleTrip, if_pos hc, if_neg hnot, hsignal]
  obtain ⟨-, ⟨g, e⟩, hz⟩ := applyAll_applied 16 (Nat.le_refl 16) { u with
    pwr := { u.pwr with tripped := k.val :: u.pwr.tripped }
    flt := { u.flt with signals := u.flt.signals ++ [⟨200, k, false⟩] } }
  refine ⟨_, congrArg Host.Outcome.next (hrun.trans htrip), ?_, ?_, fun r hr => hz r hr rfl⟩
  · rw [e]
    dsimp only
    rw [hpwr]
  · rw [e]
    dsimp only
    rw [hsig]

theorem sensorSample_cools {k : Fin 20} {c : Nat} {s : State} (hc : c + tHyst s ≤ 110) (hk : k.val ∈ s.pwr.tripped) :
    Completes (.sensorSample k c) s fun t =>
      t.pwr.tripped = s.pwr.tripped.filter (· ≠ k.val) ∧
      (∀ r, r < 16 → bits t (R.pwrReachClk r) 10 6 =
        if clkFree s r then effectiveClk t r else bits s (R.pwrReachClk r) 10 6) ∧
      (t.pwr.tripped ≠ [] → ∀ r, effectiveClk t r = 0) := by
  have hhyst : 1 ≤ tHyst s := Nat.le_max_left _ _
  have ht := sample_taken (k := k) (t := c) k.isLt (by omega) s
  have hrun : sensorSample k c s = sampleTrip k c (sampleHigh k c (sampleShown k c s)) := by
    rw [sensorSample_eq, Nat.min_eq_right (show c ≤ 255 by omega)]
  have hpwr := ht.pwr
  have hregs := ht.regs
  obtain ⟨g, eu⟩ := ht.frame
  have hsched : (sampleHigh k c (sampleShown k c s)).sched = s.sched := by rw [eu]
  generalize sampleHigh k c (sampleShown k c s) = u at *
  have hhyst' : tHyst u = tHyst s := by rw [tHyst, hregs.bits (pwrThermCfg_notin k), tHyst]
  have htrip : sampleTrip k c u = applyFree { u with pwr := { u.pwr with tripped := u.pwr.tripped.filter (· ≠ k.val) } } := by
    rw [sampleTrip, if_neg (by omega), if_pos ⟨by rw [hhyst']; exact hc, by rw [hpwr]; exact List.contains_iff_mem.2 hk⟩]
  have hf := applyFree_freed { u with pwr := { u.pwr with tripped := u.pwr.tripped.filter (· ≠ k.val) } }
  obtain ⟨g', h', e'⟩ := hf.frame
  have hfree (r : Nat) : clkFree { u with pwr := { u.pwr with tripped := u.pwr.tripped.filter (· ≠ k.val) } } r = clkFree s r := by
    have hin : inHold u r = inHold s r := hregs.bit (fun hm => by
      simp only [List.mem_singleton, R.ldReach, R.pwrThermTemp] at hm
      omega) _
    show clkFree u r = clkFree s r
    rw [clkFree, hsched, hin, clkFree]
  refine ⟨_, congrArg Host.Outcome.next (hrun.trans htrip), ?_, fun r hr => ?_, fun hne r => ?_⟩
  · rw [e']
    dsimp only
    rw [hpwr]
  · have hclk : bits u (R.pwrReachClk r) 10 6 = bits s (R.pwrReachClk r) 10 6 := hregs.bits (fun hm => by
      simp only [List.mem_singleton, R.pwrReachClk, R.pwrThermTemp] at hm
      omega) 10 6
    have hset := hf.set r hr
    rw [hfree r] at hset
    rw [hset, ← hclk]
    rfl
  · have htl : tripLimit (applyFree { u with pwr := { u.pwr with tripped := u.pwr.tripped.filter (· ≠ k.val) } }) = true := by
      rw [tripLimit, Bool.not_eq_true', List.isEmpty_eq_false_iff]
      exact hne
    rw [effectiveClk, htl]
    rfl

theorem sensorSample_stays {k : Fin 20} {c : Nat} {s : State} (hc : 110 < c + tHyst s) (hk : k.val ∈ s.pwr.tripped) :
    Completes (.sensorSample k c) s fun t =>
      t.pwr = s.pwr ∧ (∀ r, r < 16 → reg t (R.pwrReachClk r) = reg s (R.pwrReachClk r)) ∧
      (∀ e ∈ t.flt.signals, e ∈ s.flt.signals ∨ e.source = 140 + k.val) := by
  have ht := sample_taken (k := k) (t := min 255 c) k.isLt (by omega) s
  have hrun := sensorSample_eq k c s
  have hpwr := ht.pwr
  have hregs := ht.regs
  have hsig := ht.signals
  generalize sampleHigh k (min 255 c) (sampleShown k (min 255 c) s) = u at *
  have hhyst' : tHyst u = tHyst s := by rw [tHyst, hregs.bits (pwrThermCfg_notin k), tHyst]
  have htrip : sampleTrip k (min 255 c) u = u := by
    rw [sampleTrip, hpwr, List.contains_iff_mem.2 hk, hhyst']
    split
    · rfl
    · exact if_neg fun h => by omega
  refine ⟨u, congrArg Host.Outcome.next (hrun.trans htrip), hpwr, fun r _ => hregs _ fun hm => ?_, fun e he => ?_⟩
  · simp only [List.mem_singleton, R.pwrReachClk, R.pwrThermTemp] at hm
    omega
  · rw [hsig] at he
    rcases List.mem_append.1 he with he | he
    · exact .inl he
    · unfold highRaised at he
      split at he
      · exact .inr (by rw [List.mem_singleton.1 he])
      · exact absurd he List.not_mem_nil

/-! ## Reference clocks (R375) -/

theorem refclkLoss_known {c : RefClock} {s : State} (h : bit s R.pwrClkCfg (clkBit c) = true) : exec (.refclkLoss c) s = .next s :=
  congrArg Host.Outcome.next (if_pos h)

/-- The loss of a reference clock that serves no lane. -/
theorem refclkLoss_shown {c : RefClock} {s : State} (hc : ∀ k, c ≠ .cw k) (h : bit s R.pwrClkCfg (clkBit c) = false) (h32 : clkBit c < 32)
    (hs : sourceGone (setBit s R.pwrClkCfg (clkBit c) true) (clkSource c) 0 = false) (h240 : clkSource c < 240) :
    Completes (.refclkLoss c) s fun t =>
      bit t R.pwrClkCfg (clkBit c) = true ∧ t.flt.signals = s.flt.signals ++ [⟨clkSource c, 0, false⟩] ∧
      keepsRegs [R.pwrClkCfg] s t ∧ t.cw = s.cw := by
  have hrun : refclkLoss c s = signal (clkSource c) 0 (setBit s R.pwrClkCfg (clkBit c) true) := by
    rw [refclkLoss, if_neg (by rw [h]; decide)]
    cases c with
    | cw k => exact absurd rfl (hc k)
    | sys => rfl
    | pcie => rfl
  refine ⟨_, congrArg Host.Outcome.next (hrun.trans (signal_eq hs h240 (by omega))), bit_setBit _ _ _ _ h32, rfl,
    (keepsRegs_refl _ s).setBit (by simp) _ _, rfl⟩

end Sys2Proof.Machine
end

/-! # The loss of a Causeway clock, and domains that come on or fail (R369, R375) -/

section
namespace Sys2Proof.Machine
set_option Elab.async false

/-! ## The lanes of a lost Causeway clock -/

theorem signal_signals_subset (source info : Nat) (s : State) : s.flt.signals ⊆ (signal source info s).flt.signals := by
  unfold signal
  split
  · exact List.Subset.refl _
  · exact List.subset_append_left _ _

/-- What lane `a` that leaves OPER leaves of the other lanes and of the rest of the device. -/
structure LaneLeft (a : Nat) (s t : State) : Prop where
  gone : laneState t a ≠ laneOper
  lanes : ∀ b, b < 80 → laneState t b = laneState s b ∨ laneState t b ≠ laneOper
  free : ∀ b, b < 80 → b ≠ a → linkOfLane s b = none → laneState t b = laneState s b
  ofLane : ∀ b, linkOfLane t b = linkOfLane s b
  signals : s.flt.signals ⊆ t.flt.signals
  clusters : t.clusters = s.clusters
  banks : t.banks = s.banks
  low : ∀ x, x < 0x300000 → reg t x = reg s x

/-- The mark of a lane that leaves OPER keeps the lanes and their links. -/
theorem laneMarked (a : Nat) (s : State) : keepsRegs [R.cwLaneStatus a] s (setBit s (R.cwLaneStatus a) 25 true) ∧
    ∀ b, laneState (setBit s (R.cwLaneStatus a) 25 true) b = laneState s b :=
  ⟨(keepsRegs_refl _ s).setBit (List.mem_singleton_self _) 25 true, fun b => bits_setBit_ne _ _ _ _ _ _ _ (.inr (by omega))⟩

theorem cwLinkCfg_notin_lane {a l : Nat} (ha : a < 80) : R.cwLinkCfg l ∉ [R.cwLaneStatus a] := by
  simp only [List.mem_singleton, R.cwLaneStatus, R.cwLinkCfg]
  omega

theorem laneState_of_le {s : State} {b v : Nat} (hv : v ≤ laneLock) (h : laneState s b = v) : laneState s b ≠ laneOper := by
  intro h'
  rw [h] at h'
  rw [h'] at hv
  exact absurd hv (by decide)

theorem laneLeaves_left_free {a : Nat} {s : State} (ha : a < 80) (ho : laneState s a = laneOper) (hl : linkOfLane s a = none) :
    LaneLeft a s (laneLeaves a s) := by
  obtain ⟨hgone, hclu, hbanks, -, hlow⟩ := laneLeaves_oper ha ho
  obtain ⟨hk, hst⟩ := laneMarked a s
  have hrun := laneLeaves_free ha ho hl
  have hm := laneToLock_moved a (setBit s (R.cwLaneStatus a) 25 true)
  have hkeep (b : Nat) (hb : b ≠ a) : laneState (laneLeaves a s) b = laneState s b := by
    rw [hrun, laneState_laneToLock_ne hb, hst]
  refine ⟨hgone, fun b _ => ?_, fun b _ hb _ => hkeep b hb, fun b => ?_, ?_, hclu, hbanks, hlow⟩
  · by_cases hb : b = a
    · exact .inr (hb ▸ hgone)
    · exact .inl (hkeep b hb)
  · rw [hrun, linkOfLane_keeps (hk.trans hm.1) fun l _ => cwLinkCfg_notin_lane ha]
  · rw [hrun, hm.2]
    exact List.Subset.refl _

theorem laneLeaves_left_link {a l : Nat} {s : State} (ho : laneState s a = laneOper) (hl : linkOfLane s a = some l) :
    LaneLeft a s (laneLeaves a s) := by
  obtain ⟨hen, hmem⟩ := linkOfLane_mem hl
  have ha := linkLanes_lt hmem
  have hl20 := linkOfLane_lt hl
  obtain ⟨hgone, hclu, hbanks, -, hlow⟩ := laneLeaves_oper ha ho
  obtain ⟨hk, hst⟩ := laneMarked a s
  have hrun := laneLeaves_link ho hl
  have hk' : keepsRegs [R.cwLaneStatus a] s (takeAlong l a (signal (80 + l) a (setBit s (R.cwLaneStatus a) 25 true))) :=
    hk.signal (80 + l) a
  have hst' (b : Nat) : laneState (takeAlong l a (signal (80 + l) a (setBit s (R.cwLaneStatus a) 25 true))) b = laneState s b :=
    (bits_signal _ _ _ _ _ _).trans (hst b)
  have hsig : s.flt.signals ⊆ (takeAlong l a (signal (80 + l) a (setBit s (R.cwLaneStatus a) 25 true))).flt.signals :=
    signal_signals_subset (80 + l) a (setBit s (R.cwLaneStatus a) 25 true)
  rw [hrun] at hgone hclu hbanks hlow ⊢
  generalize takeAlong l a (signal (80 + l) a (setBit s (R.cwLaneStatus a) 25 true)) = u at *
  have hr := linkToLock_retrained hl20 u
  have hm := linkToLock_moved l u
  have hlanes : linkLanes u l = linkLanes s l := linkLanes_keeps hk' (cwLinkCfg_notin_lane ha)
  refine ⟨hgone, fun b hb => ?_, fun b hb80 hb hfree => ?_, fun b => ?_, ?_, hclu, hbanks, hlow⟩
  · rcases hr.lanes b hb with e | e
    · exact .inl (e.trans (hst' b))
    · exact .inr (laneState_of_le (trainsFrom_le u b) e)
  · have hnot : b ∉ linkLanes s l := laneFree_iff.1 (by rw [laneFree, hfree]; rfl) l hl20 hen
    refine (laneState_keeps hm.1 fun hx => ?_).trans (hst' b)
    simp only [linkRegs, List.mem_cons, List.mem_map, hlanes] at hx
    simp only [R.cwLaneStatus, R.cwLinkStatus, R.cwLinkDelay] at hx
    rcases hx with hx | hx | ⟨c, hc, hx⟩
    · omega
    · omega
    · obtain rfl : c = b := by omega
      exact hnot hc
  · rw [linkOfLane_keeps hr.moved.1 fun _ _ => cwLinkCfg_not_mem, linkOfLane_keeps hk' fun _ _ => cwLinkCfg_notin_lane ha]
  · rw [hm.2]
    exact hsig

theorem laneLeaves_left {a : Nat} {s : State} (ha : a < 80) (ho : laneState s a = laneOper) : LaneLeft a s (laneLeaves a s) := by
  cases hl : linkOfLane s a with
  | none => exact laneLeaves_left_free ha ho hl
  | some l => exact laneLeaves_left_link ho hl

/-- The first `n` lanes of a clock group leave OPER. -/
def clockLost (k n : Nat) (s : State) : State := forUpTo n (fun j acc =>
  let a := 20 * k + j
  if laneState acc a = laneOper then laneLeaves a acc else acc) s

/-- What is left when the first `n` lanes of clock group `k` left OPER. -/
structure ClockLost (k n : Nat) (s t : State) : Prop where
  gone : ∀ j, j < n → laneState t (20 * k + j) ≠ laneOper
  free : ∀ b, b < 80 → b / 20 ≠ k → linkOfLane s b = none → laneState t b = laneState s b
  ofLane : ∀ b, linkOfLane t b = linkOfLane s b
  signals : s.flt.signals ⊆ t.flt.signals
  clusters : t.clusters = s.clusters
  banks : t.banks = s.banks
  low : ∀ x, x < 0x300000 → reg t x = reg s x

theorem clockLost_lost {k n : Nat} (hk : k < 4) (hn : n ≤ 20) (s : State) : ClockLost k n s (clockLost k n s) := by
  induction n with
  | zero => exact ⟨fun j hj => absurd hj (by omega), fun _ _ _ _ => rfl, fun _ => rfl, List.Subset.refl _, rfl, rfl, fun _ _ => rfl⟩
  | succ n ih =>
    obtain ⟨hgone, hfree, hof, hsig, hclu, hbanks, hlow⟩ := ih (by omega)
    rw [clockLost, forUpTo_succ, ← clockLost]
    generalize clockLost k n s = u at *
    dsimp only
    by_cases ho : laneState u (20 * k + n) = laneOper
    · rw [if_pos ho]
      have hl := laneLeaves_left (by omega) ho
      refine ⟨fun j hj => ?_, fun b hb hbk hnone => ?_, fun b => (hl.ofLane b).trans (hof b), fun e he => hl.signals (hsig he),
        hl.clusters.trans hclu, hl.banks.trans hbanks, fun x hx => (hl.low x hx).trans (hlow x hx)⟩
      · by_cases hjn : j = n
        · exact hjn ▸ hl.gone
        · rcases hl.lanes (20 * k + j) (by omega) with e | e
          · rw [e]
            exact hgone j (by omega)
          · exact e
      · rw [hl.free b hb (by omega) ((hof b).trans hnone)]
        exact hfree b hb hbk hnone
    · rw [if_neg ho]
      refine ⟨fun j hj => ?_, hfree, hof, hsig, hclu, hbanks, hlow⟩
      by_cases hjn : j = n
      · exact hjn ▸ ho
      · exact hgone j (by omega)

theorem refclkLoss_causeway {k : Fin 4} {s : State} (h : bit s R.pwrClkCfg (26 + k) = false) :
    Completes (.refclkLoss (.cw k)) s fun t =>
      bit t R.pwrClkCfg (26 + k) = true ∧ ⟨196 + k, 0, false⟩ ∈ t.flt.signals ∧
      (∀ a : Nat, a < 80 → a / 20 = k.val → laneState t a ≠ laneOper) ∧
      (∀ a : Nat, a < 80 → a / 20 ≠ k.val → linkOfLane s a = none → laneState t a = laneState s a) ∧
      t.clusters = s.clusters ∧ t.banks = s.banks := by
  have hk := k.isLt
  have hgone : sourceGone (setBit s R.pwrClkCfg (26 + k) true) (196 + k) 0 = false := by
    rw [sourceGone, if_neg (by omega), if_neg (by omega), if_neg (by omega), if_neg (by omega), if_neg (by omega), if_neg (by omega),
      if_neg (by omega), if_neg (by omega), if_neg (by omega), if_neg (by omega)]
  have hsig := signal_eq hgone (by omega) (show 0 < 65536 by omega)
  have hrun : refclkLoss (.cw k) s = clockLost k 20 (signal (196 + k) 0 (setBit s R.pwrClkCfg (26 + k) true)) := by
    rw [refclkLoss, clkBit, if_neg (by rw [h]; decide)]
    rfl
  have hset : keepsRegs [R.pwrClkCfg] s (signal (196 + k) 0 (setBit s R.pwrClkCfg (26 + k) true)) :=
    ((keepsRegs_refl _ s).setBit (List.mem_singleton_self _) _ _).signal _ _
  have hbit : bit (signal (196 + k) 0 (setBit s R.pwrClkCfg (26 + k) true)) R.pwrClkCfg (26 + k) = true := by
    rw [bit_signal, bit_setBit _ _ _ _ (by omega)]
  have hl := clockLost_lost hk (Nat.le_refl 20) (signal (196 + k) 0 (setBit s R.pwrClkCfg (26 + k) true))
  rw [← hrun] at hl
  have hlane (a : Nat) (ha : a < 80) : R.cwLaneStatus a ∉ [R.pwrClkCfg] := by
    simp only [List.mem_singleton, R.cwLaneStatus, R.pwrClkCfg]
    omega
  refine ⟨_, rfl, ?_, hl.signals ?_, fun a ha hak => ?_, fun a ha hak hnone => ?_, ?_, ?_⟩
  · rw [bit, hl.low R.pwrClkCfg (by decide)]
    exact hbit
  · rw [hsig]
    exact List.mem_append_right _ (List.mem_singleton_self _)
  · have hj := hl.gone (a % 20) (Nat.mod_lt _ (by omega))
    rwa [show 20 * k.val + a % 20 = a by omega] at hj
  · rw [hl.free a ha hak ((linkOfLane_keeps hset (fun l hl => ?_) a).trans hnone), laneState_keeps hset (hlane a ha)]
    simp only [List.mem_singleton, R.cwLinkCfg, R.pwrClkCfg]
    omega
  · rw [hl.clusters, signal_clusters]
    rfl
  · rw [hl.banks, signal_banks]
    rfl

end Sys2Proof.Machine
end

/-! # Domains that come on (R369) -/

section
namespace Sys2Proof.Machine
set_option Elab.async false

/-! ## The end of the opening after a reset (R318, R382) -/

/-- Every domain that is to open is open, or has failed. -/
def domainsDone (s : State) : Bool :=
  (List.range 28).all fun d => domainState s d == 2 || domainState s d == 4 || !domainExists s d || !domainWanted s d

theorem reopenDone_moved (s : State) : keepsRegs [R.lhStatus, R.glbIrqCauseHi] s (reopenDone s) ∧
    ∃ g p q, reopenDone s = { s with regs := g, pcie := p, pwr := q } := by
  unfold reopenDone
  split
  · dsimp only
    split
    · obtain ⟨hk, g, p, e⟩ := setLhState_one_moved { s with pwr := { s.pwr with reopening := false } }
      exact ⟨hk, g, p, _, e⟩
    · exact ⟨keepsRegs_refl _ s, s.regs, s.pcie, _, rfl⟩
  · exact ⟨keepsRegs_refl _ s, s.regs, s.pcie, s.pwr, rfl⟩

/-- The end of the opening, as it shows in the flag and in the state of Lighthouse. -/
theorem reopenDone_ends {s : State} (hr : s.pwr.reopening = true) (hb : bistRuns s = false) :
    (reopenDone s).pwr = { s.pwr with reopening := !domainsDone s } ∧
    bits (reopenDone s) R.lhStatus 28 4 =
      (if (!domainsDone s) = false ∧ bits s R.lhStatus 28 4 = 0 then 1 else bits s R.lhStatus 28 4) := by
  cases hd : domainsDone s with
  | false =>
    have hrun : reopenDone s = s := by
      rw [reopenDone, hr, hb, ← domainsDone, hd]
      rfl
    rw [hrun]
    refine ⟨?_, (if_neg fun h => Bool.noConfusion h.1).symm⟩
    rw [Bool.not_false, ← hr]
  | true =>
    have hrun : reopenDone s = if bits s R.lhStatus 28 4 = 0 then setLhState 1 { s with pwr := { s.pwr with reopening := false } }
        else { s with pwr := { s.pwr with reopening := false } } := by
      rw [reopenDone, hr, hb, ← domainsDone, hd]
      rfl
    rw [hrun]
    by_cases h0 : bits s R.lhStatus 28 4 = 0
    · obtain ⟨g, l, e⟩ := raiseCause_frame 35 (setBits { s with pwr := { s.pwr with reopening := false } } R.lhStatus 28 4 1)
      have hk := raiseCause_high (v := 35) (by decide) (setBits { s with pwr := { s.pwr with reopening := false } } R.lhStatus 28 4 1)
      rw [if_pos h0, if_pos ⟨rfl, h0⟩, setLhState_one]
      refine ⟨by rw [e]; rfl, ?_⟩
      rw [hk.bits (by decide), bits_setBits _ _ _ _ _ (by omega)]
      rfl
    · rw [if_neg h0, if_neg fun h => h0 h.2]
      exact ⟨rfl, rfl⟩

/-! ## What a domain that comes on changes (R168, R203, R373) -/

/-- The registers of the upper and the lower map that the opening of a domain keeps. -/
def openKept (a : Nat) : Prop := a < 0x8200 ∨ 0x600000 ≤ a

/-- A step of the opening: registers of clocks, lanes and banks. -/
structure Opens (s t : State) : Prop where
  regs : ∀ a, openKept a → reg t a = reg s a
  pwr : t.pwr = s.pwr

theorem Opens.refl (s : State) : Opens s s := ⟨fun _ _ => rfl, rfl⟩

theorem Opens.trans {s t u : State} (h : Opens s t) (h' : Opens t u) : Opens s u :=
  ⟨fun a ha => (h'.regs a ha).trans (h.regs a ha), h'.pwr.trans h.pwr⟩

theorem Opens.forUpTo {f : Nat → State → State} (n : Nat) (h : ∀ k, k < n → ∀ u, Opens u (f k u)) (s : State) :
    Opens s (forUpTo n f s) := by
  induction n with
  | zero => exact .refl s
  | succ n ih =>
    rw [forUpTo_succ]
    exact (ih fun k hk u => h k (by omega) u).trans (h n (by omega) _)

theorem bankPower_opens {b : Nat} (hb : b < 256) (p : Nat) (s : State) : Opens s (bankPower b p s) := by
  have hset (u : State) : Opens u (setBits u (R.bankCfg b) 28 2 p) := by
    refine ⟨fun a ha => (keepsRegs_refl [R.bankCfg b] u).setBits (by simp) 28 2 p a fun h => ?_, rfl⟩
    simp only [List.mem_singleton, openKept, R.bankCfg] at ha h
    omega
  unfold bankPower
  dsimp only
  split
  · exact Opens.trans (t := loseBank b s) ⟨fun _ _ => rfl, rfl⟩ (hset (loseBank b s))
  · exact hset s

theorem applyClk_opens {r : Nat} (hr : r < 16) (s : State) : Opens s (applyClk r s) := by
  have h := applyClk_applied hr s
  obtain ⟨g, e⟩ := h.frame
  refine ⟨fun a ha => h.regs a fun hm => ?_, by rw [e]⟩
  simp only [List.mem_cons, List.not_mem_nil, or_false, openKept, R.pwrReachClk, R.pwrClkStatus] at hm ha
  omega

theorem laneToLock_opens {a : Nat} (ha : a < 80) (s : State) : Opens s (laneToLock a s) := by
  have h := laneToLock_moved a s
  refine ⟨fun x hx => h.1 x fun hm => ?_, by rw [h.2]⟩
  simp only [List.mem_singleton, openKept, R.cwLaneStatus] at hm hx
  omega

/-- The units of a domain as its clamps release. -/
def domainOpens (d : Nat) (s : State) : State :=
  if d < 16 then raiseBanks d (domainClk d s)
  else if 20 ≤ d ∧ d < 25 then forUpTo 16 (fun j acc => laneToLock (16 * (d - 20) + j) acc) s
  else s

theorem domainOpens_opens (d : Nat) (s : State) : Opens s (domainOpens d s) := by
  unfold domainOpens
  split
  · next hd =>
    rw [domainClk, if_pos hd]
    exact (applyClk_opens hd s).trans (Opens.forUpTo 16 (fun k hk u => bankPower_opens (by omega) _ u) _)
  · split
    · exact Opens.forUpTo 16 (fun j hj u => laneToLock_opens (by omega) u) s
    · exact .refl s

/-- The state of domain `d` as its transition to on ends. -/
def domainShown (d : Nat) (s : State) : State :=
  stampDomain d (setDomainState d 2 { s with pwr := { s.pwr with ready := false } })

theorem pwrDomainStatus_inj {d k : Nat} (h : R.pwrDomainStatus d = R.pwrDomainStatus k) : d = k := by
  simp only [R.pwrDomainStatus] at h
  omega

theorem domainShown_shown (d : Nat) (s : State) :
    keepsRegs [R.pwrDomainStatus d] s (domainShown d s) ∧ (domainShown d s).pwr = { s.pwr with ready := false } ∧
      domainState (domainShown d s) d = 2 := by
  refine ⟨?_, rfl, ?_⟩
  · exact ((keepsRegs_refl [R.pwrDomainStatus d] s).setBits (t := (takeFree 16 { s with pwr := { s.pwr with ready := false } }).2)
      (by simp) 29 3 2).setBits (by simp) 0 16 _
  · refine (bits_setBits_ne _ _ _ _ _ _ _ _ (by omega)).trans ?_
    exact (bits_setBits { s with pwr := { s.pwr with ready := false } } (R.pwrDomainStatus d) 29 3 2 (by omega)).trans (by decide)

/-- The domains that are to open, but for one that is open. -/
theorem domainsDone_keeps {d : Nat} {s t : State} (hd : domainState t d = 2)
    (h : ∀ k, k < 28 → k ≠ d → domainState t k = domainState s k) (hb : bistRuns t = false)
    (hp : ∀ k, k < 28 → domainPresent t k = domainPresent s k) (hw : ∀ k, k < 28 → domainWanted t k = domainWanted s k) :
    (!domainsDone t) = (List.range 28).any fun k => k != d && domainState s k != 2 && domainState s k != 4 &&
      domainPresent s k && domainWanted s k := by
  rw [domainsDone, List.not_all_eq_any_not, Bool.eq_iff_iff, List.any_eq_true, List.any_eq_true]
  refine exists_congr fun k => and_congr_right fun hk => ?_
  have hk := List.mem_range.1 hk
  by_cases hkd : k = d
  · subst hkd
    rw [hd]
    simp
  · rw [h k hk hkd, domainExists, hb, if_neg Bool.false_ne_true, hp k hk, hw k hk]
    simp [hkd, and_assoc]

theorem domainOn_opens {d : Fin 28} {s : State} (h1 : domainState s d = 1) (hready : s.pwr.ready = true)
    (hre : s.pwr.reopening = true) (hb : bistRuns s = false) :
    Completes (.domainOn d) s fun t =>
      domainState t d = 2 ∧ domainOn t d = true ∧ t.pwr.ready = false ∧
      t.pwr.reopening = ((List.range 28).any fun k => k != d.val && domainState s k != 2 && domainState s k != 4 &&
        domainPresent s k && domainWanted s k) ∧
      bits t R.lhStatus 28 4 = (if t.pwr.reopening = false ∧ bits s R.lhStatus 28 4 = 0 then 1 else bits s R.lhStatus 28 4) := by
  have hd := d.isLt
  have hrun : domainOnDone d s = reopenDone (domainOpens d (domainShown d s)) := if_pos ⟨h1, hready⟩
  obtain ⟨hk, hp, hst⟩ := domainShown_shown d s
  have ho := domainOpens_opens d (domainShown d s)
  generalize domainOpens d (domainShown d s) = u at *
  have hreg (a : Nat) (ha : openKept a) (hne : a ≠ R.pwrDomainStatus d) : reg u a = reg s a :=
    (ho.regs a ha).trans (hk a fun hm => hne (List.mem_singleton.1 hm))
  have hbits (a lo n : Nat) (ha : openKept a) (hne : a ≠ R.pwrDomainStatus d) : bits u a lo n = bits s a lo n := by
    rw [bits, hreg a ha hne, bits]
  have hbit (a i : Nat) (ha : openKept a) (hne : a ≠ R.pwrDomainStatus d) : bit u a i = bit s a i := by
    rw [bit, hreg a ha hne, bit]
  have hlow (a : Nat) (h : a < 0x8080) : openKept a ∧ a ≠ R.pwrDomainStatus d := by
    simp only [openKept, R.pwrDomainStatus]
    omega
  have hhigh (a : Nat) (h : 0x600000 ≤ a) : openKept a ∧ a ≠ R.pwrDomainStatus d := by
    simp only [openKept, R.pwrDomainStatus]
    omega
  have hpwr : u.pwr = { s.pwr with ready := false } := ho.pwr.trans hp
  have hud : domainState u d = 2 := by
    rw [domainState, bits, ho.regs _ (by simp only [openKept, R.pwrDomainStatus]; omega)]
    exact hst
  have hbist : bistRuns u = false := by
    rw [bistRuns, hbits R.bistStatus 28 4 (hhigh _ (by decide)).1 (hhigh _ (by decide)).2]
    exact hb
  have hothers (k : Nat) (hk28 : k < 28) (hne : k ≠ d.val) : domainState u k = domainState s k :=
    hbits _ 29 3 (by simp only [openKept, R.pwrDomainStatus]; omega) fun h => hne (pwrDomainStatus_inj h)
  have hpresent (k : Nat) : domainPresent u k = domainPresent s k := by
    have h0 (i : Nat) : bit u R.glbUnitPresent0 i = bit s R.glbUnitPresent0 i := hbit _ i (hlow _ (by decide)).1 (hlow _ (by decide)).2
    have h1 (i : Nat) : bit u R.glbUnitPresent1 i = bit s R.glbUnitPresent1 i := hbit _ i (hlow _ (by decide)).1 (hlow _ (by decide)).2
    simp only [domainPresent, reachPresent, ddrPresent, observationPresent, tracePresent, harbourPresent, h0, h1]
  have hwanted (k : Nat) (hk28 : k < 28) : domainWanted u k = domainWanted s k :=
    hbit _ 31 (hlow _ (by simp only [R.pwrDomainCtrl]; omega)).1 (hlow _ (by simp only [R.pwrDomainCtrl]; omega)).2
  have hdone := domainsDone_keeps hud hothers hbist (fun k _ => hpresent k) hwanted
  obtain ⟨hend, hlh⟩ := reopenDone_ends (by rw [hpwr]; exact hre) hbist
  have hlhs : bits u R.lhStatus 28 4 = bits s R.lhStatus 28 4 := hbits _ 28 4 (hhigh _ (by decide)).1 (hhigh _ (by decide)).2
  have hfinal : domainState (reopenDone u) d = 2 := by
    rw [domainState, (reopenDone_moved u).1.bits]
    · exact hud
    · simp only [List.mem_cons, List.not_mem_nil, or_false, R.pwrDomainStatus, R.lhStatus, R.glbIrqCauseHi]
      omega
  refine ⟨_, congrArg Host.Outcome.next hrun, hfinal, beq_iff_eq.2 hfinal, ?_, ?_, ?_⟩
  · rw [hend, hpwr]
  · rw [hend]
    exact hdone
  · rw [hend, hlh, hlhs]

end Sys2Proof.Machine
end

/-! # Domains that fail (R369) -/

section
namespace Sys2Proof.Machine
set_option Elab.async false

/-! ## What the loss of a domain keeps -/

theorem reg_clearRegs {lo hi a : Nat} (h : a < lo ∨ hi ≤ a) (s : State) : reg (clearRegs lo hi s) a = reg s a :=
  (look_filter (d := resetWord) (m := s.regs) (p := fun a => decide (a < lo ∨ hi ≤ a)) (k := a)).trans (if_pos (decide_eq_true h))

/-- A step of the loss of a domain keeps the state of every domain and the faults signalled. -/
structure PowerKept (s t : State) : Prop where
  status : ∀ a, 0x8080 ≤ a → a < 0x8200 → reg t a = reg s a
  signals : s.flt.signals ⊆ t.flt.signals

namespace PowerKept
variable {s t u : State}

theorem refl (s : State) : PowerKept s s := ⟨fun _ _ _ => rfl, List.Subset.refl _⟩

theorem trans (h : PowerKept s t) (h' : PowerKept t u) : PowerKept s u :=
  ⟨fun a lo hi => (h'.status a lo hi).trans (h.status a lo hi), fun _ he => h'.signals (h.signals he)⟩

theorem of_same (hr : t.regs = s.regs) (hf : t.flt = s.flt) : PowerKept s t :=
  ⟨fun a _ _ => by rw [reg, hr, reg], by rw [hf]; exact List.Subset.refl _⟩

theorem of_regs {L : List Nat} (hk : keepsRegs L s t) (hL : ∀ a ∈ L, a < 0x8080 ∨ 0x8200 ≤ a) (hf : t.flt = s.flt) : PowerKept s t :=
  ⟨fun a lo hi => hk a fun hm => by have := hL a hm; omega, by rw [hf]; exact List.Subset.refl _⟩

theorem setBits (s : State) {a : Nat} (ha : a < 0x8080 ∨ 0x8200 ≤ a) (lo n v : Nat) : PowerKept s (setBits s a lo n v) :=
  of_regs ((keepsRegs_refl [a] s).setBits (List.mem_singleton_self a) lo n v) (by simpa using ha) rfl

theorem setBit (s : State) {a : Nat} (ha : a < 0x8080 ∨ 0x8200 ≤ a) (i : Nat) (b : Bool) : PowerKept s (setBit s a i b) :=
  setBits s ha i 1 _

theorem clearRegs (s : State) {lo : Nat} (h : 0x8200 ≤ lo) (hi : Nat) : PowerKept s (clearRegs lo hi s) :=
  ⟨fun _ _ ha => reg_clearRegs (.inl (by omega)) s, List.Subset.refl _⟩

theorem signal (source info : Nat) (s : State) : PowerKept s (signal source info s) :=
  ⟨fun a _ _ => reg_signal _ _ _ _, signal_signals_subset source info s⟩

theorem foldl {α : Type} {f : State → α → State} (l : List α) (h : ∀ u x, x ∈ l → PowerKept u (f u x)) (s : State) :
    PowerKept s (l.foldl f s) := by
  induction l generalizing s with
  | nil => exact refl s
  | cons x l ih => exact (h s x List.mem_cons_self).trans (ih (fun u y hy => h u y (List.mem_cons_of_mem _ hy)) _)

theorem forUpTo {f : Nat → State → State} (n : Nat) (h : ∀ k, k < n → ∀ u, PowerKept u (f k u)) (s : State) :
    PowerKept s (forUpTo n f s) := by
  induction n with
  | zero => exact refl s
  | succ n ih =>
    rw [forUpTo_succ]
    exact (ih fun k hk u => h k (by omega) u).trans (h n (by omega) _)

theorem of_lanes {L : List Nat} (h : LanesMoved L s t) (hL : ∀ x ∈ L, 0x8200 ≤ x) : PowerKept s t :=
  of_regs h.1 (fun a ha => .inr (hL a ha)) (by rw [h.2])

theorem of_links {L : List Nat} (h : LinksMoved L s t) (hL : ∀ x ∈ L, 0x8200 ≤ x) : PowerKept s t :=
  of_regs h.1 (fun a ha => .inr (hL a ha)) (by rw [h.2])

end PowerKept

/-! ### Reaches and clusters -/

theorem invalidate_powerKept (r : Nat) (s : State) : PowerKept s (invalidate r s) := by
  obtain ⟨hk, g, c, e⟩ := invalidate_moved r s
  exact .of_regs hk (by decide) (by rw [e])

theorem loseCluster_powerKept (n : Nat) (s : State) : PowerKept s (loseCluster n s) :=
  PowerKept.trans (t := setClu s n {}) (.of_same rfl rfl) (.clearRegs (lo := 0x1000000 + 0x20000 * n) _ (by omega) _)

/-! ### Packets of closed endpoints -/

theorem probeSees_powerKept (r port : Nat) (input : Bool) (h : BitVec 256) (p : Nat) (s : State) :
    PowerKept s (probeSees r port input h p s) := by
  have hcount : PowerKept s (bumpBits s (R.wfProbeCnt p) 0 32 1) := .setBits s (by simp only [R.wfProbeCnt]; omega) _ _ _
  have hhold (u : State) : PowerKept u (holdRecord p h u) := by
    unfold holdRecord
    dsimp only
    split
    · exact .refl u
    · split
      · exact .of_same rfl rfl
      · exact .setBits u (.inr (by decide)) _ _ _
  unfold probeSees
  dsimp only
  split
  · split
    · exact .refl s
    · exact hcount
    · split
      · exact hcount
      · exact .refl s
    · split
      · exact hcount.trans (hhold _)
      · exact .refl s
  · exact .refl s

theorem probesSee_powerKept (r port : Nat) (input : Bool) (f : Flit) (s : State) : PowerKept s (probesSee r port input f s) := by
  unfold probesSee
  split
  · exact .foldl _ (fun u p _ => probeSees_powerKept r port input f.data p u) s
  · exact .refl s

theorem headerError_powerKept (r port vc cause : Nat) (s : State) : PowerKept s (headerError r port vc cause s) :=
  .of_regs (keepsRegs.setReg (keepsRegs_refl [R.wfHdrErr] s) (List.mem_singleton_self _) _) (by decide) rfl

theorem arriveAt_powerKept (r port : Nat) (f : Flit) (s : State) : PowerKept s (arriveAt r port f s) := by
  have hp := probesSee_powerKept r port true f s
  have hset (u : State) (n : Net) : PowerKept u { u with net := n } := .of_same rfl rfl
  have herr (source vc cause i : Nat) : PowerKept s
      (headerError r port vc cause (signal source r (setBit (probesSee r port true f s) R.wfStatus i true))) :=
    ((hp.trans (.setBit _ (.inr (by decide)) i true)).trans (.signal source r _)).trans (headerError_powerKept r port vc cause _)
  unfold arriveAt
  dsimp only
  split
  · exact (herr 220 f.vc 2 2).trans (hset _ _)
  · split
    · exact (herr 219 f.vc 1 1).trans (hset _ _)
    · split
      · exact hp.trans (hset _ _)
      · exact hp.trans (.of_same rfl rfl)

theorem inject_powerKept (i : Nat) (p : Packet) (s : State) : PowerKept s (inject i p s) :=
  .foldl _ (fun u f _ => arriveAt_powerKept (routerOfNi s i) 0 f u) s

theorem respond_powerKept (i : Nat) (p : Packet) (kind : Nat) (payload : List DWord) (s : State) :
    PowerKept s (respond i p kind payload s) := inject_powerKept i _ s

theorem receiveClosed_powerKept (i : Nat) (p : Packet) (s : State) : PowerKept s (receiveClosed i p s) := by
  have hni (x : Ni) : PowerKept s (setNi s i x) := .of_same rfl rfl
  unfold receiveClosed
  dsimp only
  split
  · exact respond_powerKept i p 4 [1] s
  · split
    · exact hni _
    · split
      · split
        · exact .setBits s (.inr (by decide)) _ _ _
        · split
          · exact hni _
          · exact hni _
      · split
        · exact respond_powerKept i p 4 [0] s
        · exact .refl s

theorem refuseWaiting_powerKept (d : Nat) (s : State) : PowerKept s (refuseWaiting d s) := by
  unfold refuseWaiting
  refine .foldl _ (fun u i _ => ?_) s
  exact PowerKept.trans (t := setNi u i _) (.of_same rfl rfl) (.foldl _ (fun v p _ => receiveClosed_powerKept i p v) _)

theorem ddrAbandon_powerKept (c : Nat) (s : State) : PowerKept s (ddrAbandon c s) := by
  unfold ddrAbandon
  exact PowerKept.trans (t := setDdr s c _) (.of_same rfl rfl) (.foldl _ (fun u p _ => receiveClosed_powerKept (ddrNi c) p u) _)

/-! ### Lanes and links -/

theorem laneToLock_powerKept (a : Nat) (s : State) : PowerKept s (laneToLock a s) :=
  .of_lanes (laneToLock_moved a s) (by simp only [List.mem_singleton, forall_eq, R.cwLaneStatus]; omega)

theorem linkToLock_powerKept (l : Nat) (s : State) : PowerKept s (linkToLock l s) := by
  refine .of_links (linkToLock_moved l s) fun a ha => ?_
  simp only [linkRegs, List.mem_cons, List.mem_map, R.cwLinkStatus, R.cwLinkDelay, R.cwLaneStatus] at ha
  omega

theorem takeAlong_powerKept (l a : Nat) (s : State) : PowerKept s (takeAlong l a s) := .of_same rfl rfl

theorem notTaken_powerKept (a : Nat) (s : State) : PowerKept s (notTaken a s) := .of_same rfl rfl

theorem laneLeaves_powerKept (a : Nat) (s : State) : PowerKept s (laneLeaves a s) := by
  have hmark : PowerKept s (setBit s (R.cwLaneStatus a) 25 true) := .setBit s (.inr (by simp only [R.cwLaneStatus]; omega)) _ _
  unfold laneLeaves
  dsimp only
  generalize setBit s (R.cwLaneStatus a) 25 true = u at hmark ⊢
  split
  · split
    · next l _ =>
      exact ((hmark.trans (.signal (80 + l) a u)).trans (takeAlong_powerKept l a _)).trans (linkToLock_powerKept l _)
    · exact hmark.trans (laneToLock_powerKept a u)
  · split
    · next l _ =>
      refine PowerKept.trans ?_ (laneToLock_powerKept a _)
      split
      · exact (PowerKept.signal (80 + l) a s).trans (notTaken_powerKept a _)
      · exact .refl s
    · exact laneToLock_powerKept a s

theorem resetLink_powerKept (l : Nat) (s : State) : PowerKept s (resetLink l s) := by
  refine (PowerKept.of_links (linkLeavesUp_moved l s) fun a ha => ?_).trans (.of_same rfl rfl)
  simp only [List.mem_cons, List.not_mem_nil, or_false, R.cwLinkStatus, R.cwLinkDelay] at ha
  omega

theorem checkLoops_powerKept (l : Nat) (s : State) : PowerKept s (checkLoops l s) :=
  .of_lanes (checkLoops_moved l s).1 (by simp only [List.mem_singleton, forall_eq, R.cwLinkStatus]; omega)

theorem laneOff_powerKept (a : Nat) (s : State) : PowerKept s (setLaneState a laneOff (resetLane a s)) :=
  PowerKept.trans (t := resetLane a s) (.of_same rfl rfl)
    (.setBits (a := R.cwLaneStatus a) _ (.inr (by simp only [R.cwLaneStatus]; omega)) 29 3 laneOff)

/-! ### The capture -/

theorem sendTokens_powerKept (hold : Bool) (e : Nat) (s : State) : PowerKept s (sendTokens hold e s) := by
  obtain ⟨c, h⟩ := sendTokens_cw hold e s
  rw [h]
  exact .of_same rfl rfl

theorem resumeRun_powerKept (steps : Option Nat) (s : State) : PowerKept s (resumeRun steps s) := by
  have hset : PowerKept s (running steps s) :=
    ((PowerKept.setBits s (a := R.trgRunStatus) (.inr (by decide)) 0 9 0).trans
      (.setBit _ (a := R.acqStatus) (.inr (by decide)) 25 false)).trans (.of_same rfl rfl)
  have hrun : resumeRun steps s = match (running steps s).sched.held with
      | some e =>
        if (running steps s).sched.phase = .milestone ∧ e + 1 = (running steps s).sched.ec.toNat then
          sendTokens false e { running steps s with sched := { (running steps s).sched with held := none } }
        else running steps s
      | none => running steps s := rfl
  rw [hrun]
  generalize running steps s = u at hset
  split
  · next e _ =>
    split
    · exact (hset.trans (t := u) (u := { u with sched := { u.sched with held := none } }) (.of_same rfl rfl)).trans
        (sendTokens_powerKept false e _)
    · exact hset
  · exact hset

theorem endPause_powerKept (s : State) : PowerKept s (endPause s) := by
  have hset : PowerKept s (setBit s R.acqStatus 25 false) := .setBit s (.inr (by decide)) _ _
  unfold endPause
  dsimp only
  split
  · split
    · exact hset.trans (resumeRun_powerKept none _)
    · exact hset
  · exact .refl s

/-! ## The loss of a domain -/

theorem lanesLost_powerKept {k : Nat} (s : State) :
    PowerKept s (
      let s := forUpTo 16 (fun j acc => laneLeaves (16 * k + j) acc) s
      let s := clearRegs (0x300000 + 0x10000 * k) (0x310000 + 0x10000 * k) s
      let s := ((List.range 20).filter fun l => linkBase s l / 16 == k).foldl (fun acc l => resetLink l acc) s
      let s := forUpTo 20 checkLoops s
      forUpTo 16 (fun j acc => setLaneState (16 * k + j) laneOff (resetLane (16 * k + j) acc)) s) := by
  refine PowerKept.trans (PowerKept.trans (PowerKept.trans (PowerKept.trans
    (.forUpTo 16 (fun j _ u => laneLeaves_powerKept (16 * k + j) u) s) (.clearRegs (lo := 0x300000 + 0x10000 * k) _ (by omega) _))
    (.foldl _ (fun u l _ => resetLink_powerKept l u) _)) (.forUpTo 20 (fun l _ u => checkLoops_powerKept l u) _))
    (.forUpTo 16 (fun j _ u => laneOff_powerKept (16 * k + j) u) _)

theorem hbLost_powerKept (s : State) : PowerKept s (hbLost s) := .of_same rfl rfl

theorem setServiceMem_powerKept (s : State) (k : Nat) (m : Mem) : PowerKept s (setServiceMem s k m) := .of_same rfl rfl

theorem domainLoses_powerKept (d : Nat) (s : State) : PowerKept s (domainLoses d s) := by
  unfold domainLoses
  split
  · refine (invalidate_powerKept d s).trans (.foldl _ (fun u k _ => ?_) _)
    split
    · exact loseCluster_powerKept _ u
    · exact .refl u
  · split
    · exact (((PowerKept.clearRegs (lo := 0x400000 + 0x10000 * (d - 16)) s (by omega) _).trans (ddrAbandon_powerKept (d - 16) _)).trans
        (refuseWaiting_powerKept d _)).trans
        (.setBit (a := R.ddrChStatus (d - 16)) _ (.inr (by simp only [R.ddrChStatus]; omega)) 30 true)
    · split
      · exact lanesLost_powerKept s
      · split
        · have hlost : PowerKept s { traceLost s with acq := {} } := .of_same rfl rfl
          exact (hlost.trans (endPause_powerKept _)).trans (.clearRegs (lo := 0x700020) _ (by omega) _)
        · split
          · exact (((refuseWaiting_powerKept 26 s).trans (hbLost_powerKept _)).trans
              (.foldl _ (fun u k _ => setServiceMem_powerKept u (8 + k) _) _)).trans (.clearRegs (lo := 0x600000) _ (by omega) _)
          · exact .foldl _ (fun u x _ => (invalidate_powerKept _ u).trans (loseCluster_powerKept _ _)) s

theorem domainClk_powerKept (d : Nat) (s : State) : PowerKept s (domainClk d s) := by
  unfold domainClk
  split
  · next hd =>
    have h := applyClk_applied hd s
    obtain ⟨g, e⟩ := h.frame
    refine .of_regs h.regs (fun a ha => ?_) (by rw [e])
    simp only [List.mem_cons, List.not_mem_nil, or_false, R.pwrReachClk, R.pwrClkStatus] at ha
    omega
  · exact .refl s

theorem loseChannel_powerKept (c : Nat) (s : State) : PowerKept s (loseChannel c s) :=
  PowerKept.trans (t := setDdr s c { ddr s c with mem := loseContents (ddr s c).mem }) (.of_same rfl rfl)
    (.setBit (a := R.ddrChStatus c) _ (.inr (by simp only [R.ddrChStatus]; omega)) 30 false)

theorem reopenDone_powerKept (s : State) : PowerKept s (reopenDone s) := by
  obtain ⟨hk, g, p, q, e⟩ := reopenDone_moved s
  exact .of_regs hk (by decide) (by rw [e])

/-- A reach whose domain is lost is not valid. -/
theorem domainLoses_invalid {d : Nat} (hd : d < 16) (s : State) : reachValid (domainLoses d s) d = false := by
  have hfold (l : List Nat) (u : State) : reg (l.foldl (fun acc k =>
      if domainOfCluster acc (8 * d + k) = d then loseCluster (8 * d + k) acc else acc) u) R.ldReach = reg u R.ldReach := by
    induction l generalizing u with
    | nil => rfl
    | cons k l ih =>
      rw [List.foldl_cons, ih]
      split
      · exact (reg_clearRegs (.inl (by simp only [R.ldReach]; omega)) _).trans (reg_setClu _ _ _ _)
      · rfl
  have hrun : domainLoses d s = (List.range 8).foldl (fun acc k =>
      if domainOfCluster acc (8 * d + k) = d then loseCluster (8 * d + k) acc else acc) (invalidate d s) := if_pos hd
  rw [hrun, reachValid, bit, hfold]
  exact bit_setBit _ _ _ _ (by omega)

/-- What the failure of domain `d` shows. -/
theorem domainFails_shown {d : Nat} (hd : d < 28) (s : State) :
    domainState (domainFails d 2 s) d = 4 ∧ bit (domainFails d 2 s) (R.pwrDomainStatus d) 26 = true ∧
      (⟨160 + d, 2, false⟩ : Signal) ∈ (domainFails d 2 s).flt.signals := by
  have hrun := signal_eq (s := setDomainState d 4 (setBit s (R.pwrDomainStatus d) 26 true)) (source := 160 + d) (info := 2)
    (sourceGone_sensor (by omega)) (by omega) (by omega)
  refine ⟨?_, ?_, ?_⟩
  · refine (bits_signal _ _ _ _ _ _).trans ((bits_setBits _ _ _ _ _ (by omega)).trans (by decide))
  · refine (bit_signal _ _ _ _ _).trans ((bit_setBits_ne _ _ _ _ _ _ _ (by omega)).trans (bit_setBit _ _ _ _ (by omega)))
  · rw [domainFails, hrun]
    exact List.mem_append_right _ (List.mem_singleton_self _)

/-- A domain as it is lost without drain, but for the end of an opening. -/
def domainLost (d : Nat) (s : State) : State :=
  let u := domainClk d (domainLoses d (domainFails d 2 s))
  if 16 ≤ d ∧ d < 20 then loseChannel (d - 16) u else u

theorem domainLost_powerKept (d : Nat) (s : State) : PowerKept (domainFails d 2 s) (domainLost d s) := by
  have h := (domainLoses_powerKept d (domainFails d 2 s)).trans (domainClk_powerKept d _)
  unfold domainLost
  dsimp only
  split
  · exact h.trans (loseChannel_powerKept _ _)
  · exact h

theorem domainLost_invalid {d : Nat} (hd : d < 16) (s : State) : reachValid (domainLost d s) d = false := by
  have hrun : domainLost d s = applyClk d (domainLoses d (domainFails d 2 s)) := by
    unfold domainLost
    dsimp only
    rw [if_neg (by omega), domainClk, if_pos hd]
  rw [hrun, reachValid, (applyClk_applied hd _).regs.bit]
  · exact domainLoses_invalid hd _
  · simp only [List.mem_cons, List.not_mem_nil, or_false, R.pwrReachClk, R.pwrClkStatus, R.ldReach]
    omega

theorem railOutOfRange_fails {d : Fin 28} {s : State} (h : domainState s d = 2) :
    Completes (.railOutOfRange d) s fun t =>
      domainState t d = 4 ∧ bit t (R.pwrDomainStatus d) 26 = true ∧ ⟨160 + d, 2, false⟩ ∈ t.flt.signals ∧
      (d.val < 16 → reachValid t d = false) := by
  have hd := d.isLt
  obtain ⟨u, hu⟩ : ∃ u, railOut d s = reopenDone (domainLost d u) := by
    rw [railOut, if_pos h]
    exact ⟨_, rfl⟩
  obtain ⟨hstate, hbit, hsig⟩ := domainFails_shown hd u
  have hkept := (domainLost_powerKept d u).trans (reopenDone_powerKept _)
  have hreg : reg (reopenDone (domainLost d u)) (R.pwrDomainStatus d) = reg (domainFails d 2 u) (R.pwrDomainStatus d) :=
    hkept.status _ (by simp only [R.pwrDomainStatus]; omega) (by simp only [R.pwrDomainStatus]; omega)
  refine ⟨_, congrArg Host.Outcome.next hu, ?_, ?_, hkept.signals hsig, fun h16 => ?_⟩
  · rw [domainState, bits, hreg]
    exact hstate
  · rw [bit, hreg]
    exact hbit
  · rw [reachValid, (reopenDone_moved _).1.bit (by decide)]
    exact domainLost_invalid h16 u

end Sys2Proof.Machine
end

/-! # Clock calibration, thermal control, reference clocks and domain commands out of their place -/

section
namespace Sys2Proof.Machine
set_option Elab.async false

theorem fllCalibrate_counts {i : Fin 144} {s : State} (h : bit s R.pwrClkCfg 30 = false) :
    Completes (.fllCalibrate i) s fun t =>
      look (fun _ => 0) t.pwr.calibrations i = look (fun _ => 0) s.pwr.calibrations i + 1 ∧ t.regs = s.regs := by
  have hrun : fllCalibrate i s = { s with pwr := { s.pwr with
      calibrations := put (fun _ => 0) s.pwr.calibrations i (look (fun _ => 0) s.pwr.calibrations i + 1) } } :=
    if_neg (by rw [h]; decide)
  exact ⟨_, congrArg Host.Outcome.next hrun, (look_put _ _ _ _ _).trans (if_pos rfl), rfl⟩

/-! ## Commands of a power domain out of their place -/

theorem domainRequest_reopening {d : Fin 28} {on : Bool} {s : State} (h : s.pwr.reopening = true) :
    exec (.domainRequest d on) s = .next (setBit s (R.pwrDomainStatus d) 27 true) := by
  refine congrArg Host.Outcome.next ?_
  rw [domainRequest]
  simp [requestRefused, h]

theorem domainClose_idle {d : Fin 28} {s : State} (h : domainNext s d = false ∨ domainState s d ≠ 2) :
    exec (.domainClose d) s = .next s :=
  congrArg Host.Outcome.next (if_neg fun hc => by
    obtain ⟨hn, hs⟩ := Bool.and_eq_true_iff.1 hc
    rcases h with h | h
    · rw [h] at hn
      exact Bool.false_ne_true hn
    · exact h (beq_iff_eq.1 hs))

theorem domainOpen_idle {d : Fin 28} {s : State} (h : domainNext s d = false ∨ domainState s d ≠ 0) :
    exec (.domainOpen d) s = .next s :=
  congrArg Host.Outcome.next (if_neg fun hc => by
    obtain ⟨hn, hs⟩ := Bool.and_eq_true_iff.1 hc
    rcases h with h | h
    · rw [h] at hn
      exact Bool.false_ne_true hn
    · exact h (beq_iff_eq.1 hs))

theorem domainDrainDone_idle {d : Fin 28} {s : State} (h : domainState s d ≠ 3 ∨ s.pwr.ready = true) :
    exec (.domainDrainDone d) s = .next s :=
  congrArg Host.Outcome.next (if_neg fun hc => h.elim (fun h => h hc.1) hc.2)

theorem domainOff_idle {d : Fin 28} {s : State} (h : domainState s d ≠ 3 ∨ s.pwr.ready = false) :
    exec (.domainOff d) s = .next s :=
  congrArg Host.Outcome.next (if_neg fun hc => h.elim (fun h => h hc.1) fun h => Bool.false_ne_true (h.symm.trans hc.2))

theorem railTimeout_idle {d : Fin 28} {s : State} (h : domainState s d ≠ 1 ∨ s.pwr.ready = true) :
    exec (.railTimeout d) s = .next s :=
  congrArg Host.Outcome.next (if_neg fun hc => h.elim (fun h => h hc.1) hc.2)

/-- Settles O55. A sample moves its sensor's register, and a trip or its end the settings of the reaches; the lanes of a
lost clock leave OPER one by one; a domain that comes on or fails keeps the state of every other domain, so that its own
state and fault stand to the end. The lane numbers of the statement's Causeway clause have type `Fin 4`, where 80 is 0, so that it
speaks of no lane; `refclkLoss_causeway` states it of every lane of the device. -/
theorem clocksAndThermal : Obligations.ClocksAndThermal := by
  refine ⟨fun i s => fllCalibrate_counts, thermalDecision_decides, fun k c s hh hc hk _ => sensorSample_cool hh hc hk,
    fun k c s => sensorSample_high, fun k c s hc h256 hk hb _ => sensorSample_trips hc h256 hk hb,
    fun s h => refclkLoss_shown (fun k hk => RefClock.noConfusion hk) h (by decide) rfl (by decide),
    fun c s => rfl, fun s h => refclkLoss_shown (fun k hk => RefClock.noConfusion hk) h (by decide) rfl (by decide), fun k s h => ?_,
    fun c s => refclkLoss_known, fun k c s => sensorSample_compares, fun k c s => sensorSample_cools,
    fun k c s => sensorSample_stays, fun d on s => domainRequest_reopening, fun d s => domainClose_idle,
    fun d s => domainDrainDone_idle, fun d s => domainOff_idle, fun d s => domainOpen_idle,
    fun d s h => congrArg Host.Outcome.next (if_neg h), fun d s => domainOn_opens, fun d s => railTimeout_idle,
    fun d s => railOutOfRange_fails⟩
  obtain ⟨t, ht, hbit, hsig, -, -, hclu, hbanks⟩ := refclkLoss_causeway h
  have hvacuous (a : Fin 4) : ¬ a < 80 := Nat.not_lt_zero a.val
  exact ⟨t, ht, hbit, hsig, fun a ha => absurd ha (hvacuous a), fun a ha => absurd ha (hvacuous a), hclu, hbanks⟩

end Sys2Proof.Machine
end

/-! # A function-level reset that drains a traced channel -/

section
namespace Sys2Proof.Machine
set_option Elab.async false

/-- A write that waits at DDR4 channel 0. -/
def waitingWrite : Packet := mkPacket 1 1 [] 0 148 0 0 0 [0x4000000000000000, 0]

/-- Channel 0 is open with a request accepted, and probe 0 traces every head flit that its NI sends. -/
def tracedChannel : State :=
  { State.reset with
    regs := [(R.pwrDomainStatus 16, 0x40000000), (R.wfPtraceCtrl, 0x80000000),
      (R.wfProbeCfg 0, BitVec.ofNat 32 (0xE000F080 + serviceRouter 4 <<< 16))]
    ddr := [(0, { queue := [waitingWrite] })] }

/-- The answer that the drain sends is held in the trace (R155, R156, R368). -/
theorem tracedChannel_holds : look (fun _ => []) (flr tracedChannel).net.probeHold 0 ≠ [] := by decide +kernel

/-- Refutes O56: before an FLR closes a DDR4 channel, the channel answers the requests that it holds (R215, R368), and a packet
probe that watches its NI holds a record of the answer more than before the reset. -/
theorem not_coldReset : ¬ Obligations.ColdReset := by
  intro h
  obtain ⟨-, -, -, hflr, -⟩ := h
  obtain ⟨t, hexec, -, -, -, -, hnet⟩ := hflr tracedChannel
  have ht : flr tracedChannel = t := Host.Outcome.next.inj hexec
  exact tracedChannel_holds (by rw [ht, hnet]; rfl)

end Sys2Proof.Machine
end

/-! # HOLD for a load (R263, R264) -/

section
namespace Sys2Proof.Machine
set_option Elab.async false

/-- The first `n` reaches have gone to HOLD. -/
structure ReachesHeld (n : Nat) (s t : State) : Prop where
  inHold : ∀ r, r < n → inHold t r = true
  clusters : ∀ j, clu t j = if j / 8 < n then heldCluster (clu s j) else clu s j
  frame : ∃ g c p, t = { s with regs := g, clusters := c, pwr := p }

theorem reachesHeld_held {n : Nat} (hn : n ≤ 16) (s : State) : ReachesHeld n s (forUpTo n enterHold s) := by
  induction n with
  | zero => exact ⟨fun r hr => absurd hr (by omega), fun j => (if_neg (by omega)).symm, s.regs, s.clusters, s.pwr, rfl⟩
  | succ n ih =>
    obtain ⟨hhold, hclu, g, c, p, e⟩ := ih (by omega)
    rw [forUpTo_succ]
    generalize forUpTo n enterHold s = u at *
    have he := enterHold_enters (r := n) (by omega) u
    obtain ⟨g', c', p', e'⟩ := he.frame
    refine ⟨fun r hr => ?_, fun j => ?_, g', c', p', by rw [e', e]⟩
    · by_cases hrn : r = n
      · rw [hrn]
        exact he.inHold (by omega)
      · rw [he.inHold_other (by omega) hrn]
        exact hhold r (by omega)
    · rw [he.clusters, hclu]
      by_cases hj : j / 8 = n
      · rw [if_pos hj, if_neg (by omega), if_pos (by omega)]
      · rw [if_neg hj]
        exact if_congr (by omega) rfl rfl

/-- Every reach in HOLD shows as such in LD_REACH. -/
theorem allHold_of_inHold {s : State} (h : ∀ r, r < 16 → inHold s r = true) : allHold s = true := by
  have hall : bits s R.ldReach 16 16 = 2 ^ 16 - 1 := by
    refine Nat.eq_of_testBit_eq fun i => ?_
    rw [bits, testBit_bitsOf, Nat.testBit_two_pow_sub_one]
    by_cases hi : i < 16
    · rw [decide_eq_true hi, Bool.true_and]
      exact h i hi
    · rw [decide_eq_false hi, Bool.false_and]
  rw [allHold, hall]
  rfl

theorem dropAcq_moved (s : State) : keepsRegs (R.trgStatus :: R.acqStatus :: chStatusRegs) s (dropAcq s) ∧
    ∃ g a, dropAcq s = { s with regs := g, acq := a } := by
  obtain ⟨hk, -, g, e⟩ := resetComparators_reset
    (setAcq {} (setBit (setBit (setBit s R.trgStatus 31 false) R.acqStatus 31 false) R.acqStatus 25 false))
  have hset : keepsRegs (R.trgStatus :: R.acqStatus :: chStatusRegs) s
      (setAcq {} (setBit (setBit (setBit s R.trgStatus 31 false) R.acqStatus 31 false) R.acqStatus 25 false)) :=
    (((keepsRegs_refl _ s).setBit (by simp) 31 false).setBit (by simp) 31 false).setBit (by simp) 25 false
  exact ⟨hset.trans (hk.mono fun a ha => List.mem_cons_of_mem _ (List.mem_cons_of_mem _ ha)), g, {}, e⟩

theorem ldReach_ne_niCtrl {i : Nat} (hi : i < 128) : R.ldReach ≠ R.wfNiCtrl i := by
  simp only [R.wfNiCtrl, R.ldReach]
  omega

/-- The first `n` NIs are quiesced. -/
def nisQuiesced (n : Nat) (s : State) : State := forUpTo n (fun i acc => setBit acc (R.wfNiCtrl i) 0 true) s

theorem nisQuiesced_quiesced {n : Nat} (hn : n ≤ 128) (s : State) :
    (∀ i, i < n → bit (nisQuiesced n s) (R.wfNiCtrl i) 0 = true) ∧ (∀ r, inHold (nisQuiesced n s) r = inHold s r) ∧
      ∃ g, nisQuiesced n s = { s with regs := g } := by
  induction n with
  | zero => exact ⟨fun i hi => absurd hi (by omega), fun _ => rfl, s.regs, rfl⟩
  | succ n ih =>
    obtain ⟨hb, hh, g, e⟩ := ih (by omega)
    rw [nisQuiesced, forUpTo_succ, ← nisQuiesced]
    generalize nisQuiesced n s = u at *
    refine ⟨fun i hi => ?_, fun r => ?_, _, by rw [e]; rfl⟩
    · by_cases hin : i = n
      · rw [hin, bit_setBit _ _ _ _ (by omega)]
      · rw [bit_setBit_ne _ _ _ _ _ _ (.inl (by simp only [R.wfNiCtrl]; omega))]
        exact hb i (by omega)
    · rw [← hh r]
      exact bit_setBit_ne _ _ _ _ _ _ (.inl (ldReach_ne_niCtrl (by omega)))

/-- The run as a load ends it. -/
def runEnded (s : State) : State := { s with
  sched := keptSched s, rl := {}, shore := {}, ld := { s.ld with held := true } }

/-- What the end of the run keeps, once every reach is in HOLD. -/
structure RunQuiet (u t : State) : Prop where
  hold : ∀ r, inHold t r = inHold u r
  quiet : ∀ i, i < 128 → bit t (R.wfNiCtrl i) 0 = true
  frame : ∃ g p a, t = { hbEmpty (runEnded u) with regs := g, pwr := p, acq := a }

/-- The end of the run, up to the quiesced NIs. -/
def runStopped (u : State) : State := hbEmpty (dropAcq (setBits (applyFree (runEnded u)) R.trgRunStatus 0 9 0))

theorem inHold_hbEmpty (s : State) (r : Nat) : inHold (hbEmpty s) r = inHold s r := rfl

theorem inHold_runEnded (s : State) (r : Nat) : inHold (runEnded s) r = inHold s r := rfl

theorem inHold_keeps {L : List Nat} {s t : State} (h : keepsRegs L s t) (hL : R.ldReach ∉ L) (r : Nat) : inHold t r = inHold s r :=
  h.bit hL _

theorem runStopped_stops (u : State) : (∀ r, inHold (runStopped u) r = inHold u r) ∧
    ∃ g p a, runStopped u = { hbEmpty (runEnded u) with regs := g, pwr := p, acq := a } := by
  obtain ⟨hk1, g1, p1, e1⟩ := applyFree_moved (runEnded u)
  have hh1 := inHold_keeps hk1 ldReach_notin_clkRegs
  rw [runStopped]
  generalize applyFree (runEnded u) = v at hh1 e1
  have hset : keepsRegs [R.trgRunStatus] v (setBits v R.trgRunStatus 0 9 0) := (keepsRegs_refl _ v).setBits (by simp) 0 9 0
  have hh2 := inHold_keeps hset (by decide)
  have e2 : setBits v R.trgRunStatus 0 9 0 = { v with regs := (setBits v R.trgRunStatus 0 9 0).regs } := rfl
  generalize setBits v R.trgRunStatus 0 9 0 = w at hh2 e2
  obtain ⟨hk3, g3, a3, e3⟩ := dropAcq_moved w
  have hh3 := inHold_keeps hk3 (by decide)
  generalize dropAcq w = x at hh3 e3
  refine ⟨fun r => ?_, g3, p1, a3, ?_⟩
  · rw [inHold_hbEmpty, hh3, hh2, hh1, inHold_runEnded]
  · rw [e3, e2, e1]
    rfl

theorem runQuiet_quiet (u : State) : RunQuiet u (nisQuiesced 128 (runStopped u)) := by
  obtain ⟨hh, g, p, a, e⟩ := runStopped_stops u
  generalize runStopped u = v at *
  obtain ⟨hq, hh', g', e'⟩ := nisQuiesced_quiesced (Nat.le_refl 128) v
  exact ⟨fun r => (hh' r).trans (hh r), hq, g', p, a, by rw [e', e]⟩

/-- What the HOLD of a load leaves. -/
structure HeldForLoad (s t : State) : Prop where
  hold : allHold t = true
  run : t.sched.run = .notStarted
  held : t.ld.held = true
  rl : t.rl = {}
  quiet : ∀ i, i < 128 → bit t (R.wfNiCtrl i) 0 = true
  hb : t.hb = { s.hb with store := [], ready := [], parked := [], actions := [], notifies := [], delays := t.hb.delays }
  delays : ∀ l, l < 4 → delayList t l = { delayList s l with tasks := [], going := 0 }
  clusters : ∀ n, n < 128 → clu t n = heldCluster (clu s n)

theorem holdAll_holds (s : State) : HeldForLoad s (holdAll s) := by
  have hrun : holdAll s = nisQuiesced 128 (runStopped (forUpTo 16 enterHold s)) := by
    rw [holdAll, nisQuiesced, runStopped, runEnded]
  obtain ⟨hhold, hclu, g, c, p, e⟩ := reachesHeld_held (Nat.le_refl 16) s
  rw [hrun]
  generalize forUpTo 16 enterHold s = u at *
  obtain ⟨hh, hq, g', p', a, e'⟩ := runQuiet_quiet u
  generalize nisQuiesced 128 (runStopped u) = t at *
  have hhb : u.hb = s.hb := by rw [e]
  refine ⟨allHold_of_inHold fun r hr => (hh r).trans (hhold r hr), by rw [e']; rfl, by rw [e']; rfl, by rw [e']; rfl, hq, ?_,
    fun l hl => ?_, fun n hn => ?_⟩
  · rw [e', ← hhb]
    rfl
  · have hd : delayList u l = delayList s l := by rw [delayList, hhb, delayList]
    rw [e', ← hd]
    exact (look_foldl_put _ _ _ _ _).trans (if_pos (List.mem_range.2 hl))
  · rw [e']
    exact (hclu n).trans (if_pos (by omega))

theorem enterHold_atRest {s : State} (h3 : ldState s = 3) (hh : s.ld.held = false) (hr : s.sched.run ≠ .running) :
    enterHoldNow s = holdAll s := by
  have hpoint : atMilestonePoint s = false := by
    rw [atMilestonePoint, beq_eq_false_iff_ne.2 hr]
    rfl
  rw [enterHoldNow, if_pos ⟨h3, by rw [hh]; rfl, .inl hr⟩, hpoint]
  rfl

theorem enterHold_atPoint {s : State} (h3 : ldState s = 3) (hh : s.ld.held = false) (hp : atMilestonePoint s = true) :
    enterHoldNow s = holdAll (raiseHazards s) := by
  rw [enterHoldNow, if_pos ⟨h3, by rw [hh]; rfl, .inr (.inr hp)⟩, if_pos hp]

theorem milestone_holds {s : State} (h3 : ldState s = 3) (hh : s.ld.held = false) (hp : atMilestonePoint s = true) :
    milestone s = holdAll (raiseHazards s) := by
  rw [milestone, hp, if_neg (by decide), if_pos ⟨h3, hh⟩]

theorem raiseHazards_idle {s : State} (h : s.sched.hazardFirst = []) : raiseHazards s = s := by
  rw [raiseHazards, h]

/-- ENTER_HOLD of a device that does not run. -/
theorem enterHold_completes {s : State} (h3 : ldState s = 3) (hh : s.ld.held = false) (hr : s.sched.run ≠ .running) :
    Completes .enterHold s fun t =>
      allHold t = true ∧ t.sched.run = .notStarted ∧ t.ld.held = true ∧ t.rl = {} ∧
      (∀ i, i < 128 → bit t (R.wfNiCtrl i) 0 = true) ∧
      t.hb = { s.hb with store := [], ready := [], parked := [], actions := [], notifies := [], delays := t.hb.delays } ∧
      (∀ l, l < 4 → delayList t l = { delayList s l with tasks := [], going := 0 }) ∧
      (∀ n, n < 128 → clu t n = heldCluster (clu s n)) := by
  have h := holdAll_holds s
  exact ⟨_, congrArg Host.Outcome.next (enterHold_atRest h3 hh hr), h.hold, h.run, h.held, h.rl, h.quiet, h.hb, h.delays, h.clusters⟩

/-- ENTER_HOLD or MILESTONE at the milestone point. -/
theorem milestonePoint_completes {c : Instr} {s : State} (hc : c = .enterHold ∨ c = .milestone) (h3 : ldState s = 3)
    (hh : s.ld.held = false) (hp : atMilestonePoint s = true) :
    Completes c s fun t =>
      allHold t = true ∧ t.sched.run = .notStarted ∧ t.ld.held = true ∧ t.rl = {} ∧
      (∀ i, i < 128 → bit t (R.wfNiCtrl i) 0 = true) ∧
      t.hb.store = [] ∧ t.hb.ready = [] ∧ t.hb.parked = [] ∧ t.hb.actions = [] ∧ t.hb.notifies = [] ∧
      (∀ l, l < 4 → (delayList t l).tasks = [] ∧ (delayList t l).going = 0) ∧
      (s.sched.hazardFirst = [] → ∀ n, n < 128 → clu t n = heldCluster (clu s n)) := by
  have hexec : exec c s = .next (holdAll (raiseHazards s)) := by
    rcases hc with rfl | rfl
    · exact congrArg Host.Outcome.next (enterHold_atPoint h3 hh hp)
    · exact congrArg Host.Outcome.next (milestone_holds h3 hh hp)
  have h := holdAll_holds (raiseHazards s)
  have hb := h.hb
  refine ⟨_, hexec, h.hold, h.run, h.held, h.rl, h.quiet, by rw [hb], by rw [hb], by rw [hb], by rw [hb], by rw [hb],
    fun l hl => ?_, fun hz n hn => ?_⟩
  · rw [h.delays l hl]
    exact ⟨rfl, rfl⟩
  · rw [h.clusters n hn, raiseHazards_idle hz]

end Sys2Proof.Machine
end

/-! # The first write of a load (R263, R264, R429) -/

section
namespace Sys2Proof.Machine
set_option Elab.async false

/-! ## Routes -/

/-- A step that writes route tables: no register outside the network's page changes. -/
structure RoutesMoved (s t : State) : Prop where
  regs : ∀ a, a < 0x200000 ∨ 0x300000 ≤ a → reg t a = reg s a
  frame : ∃ g, t = { s with regs := g }

namespace RoutesMoved
variable {s t u : State}

theorem refl (s : State) : RoutesMoved s s := ⟨fun _ _ => rfl, s.regs, rfl⟩

theorem trans (h : RoutesMoved s t) (h' : RoutesMoved t u) : RoutesMoved s u := by
  obtain ⟨g, e⟩ := h.frame
  obtain ⟨g', e'⟩ := h'.frame
  exact ⟨fun a ha => (h'.regs a ha).trans (h.regs a ha), g', by rw [e', e]⟩

theorem setReg (s : State) {a : Nat} (ha : 0x200000 ≤ a ∧ a < 0x300000) (v : Word) : RoutesMoved s (setReg s a v) :=
  ⟨fun x hx => keepsRegs.setReg (keepsRegs_refl [a] s) (List.mem_singleton_self a) v x fun h => by
    have := List.mem_singleton.1 h
    omega, _, rfl⟩

theorem setBit (s : State) {a : Nat} (ha : 0x200000 ≤ a ∧ a < 0x300000) (i : Nat) (b : Bool) : RoutesMoved s (setBit s a i b) :=
  setReg s ha _

theorem ite {c : Prop} [Decidable c] (ht : RoutesMoved s t) (hu : RoutesMoved s u) : RoutesMoved s (if c then t else u) := by
  split
  · exact ht
  · exact hu

theorem foldl {α : Type} {f : State → α → State} (l : List α) (h : ∀ u x, x ∈ l → RoutesMoved u (f u x)) (s : State) :
    RoutesMoved s (l.foldl f s) := by
  induction l generalizing s with
  | nil => exact refl s
  | cons x l ih => exact (h s x List.mem_cons_self).trans (ih (fun u y hy => h u y (List.mem_cons_of_mem _ hy)) _)

end RoutesMoved

theorem writeRoute_moved {i e : Nat} (hi : i < 136) (he : e < 256) (vc dst tag : Nat) (s : State) :
    RoutesMoved s (writeRoute i e vc dst tag s) := by
  have hstatus (u : State) (b : Nat) (v : Bool) : RoutesMoved u (setBit u (R.wfNiStatus i) b v) :=
    .setBit u (by simp only [R.wfNiStatus]; omega) b v
  have h0 (u : State) (v : Word) : RoutesMoved u (setReg u (R.wfRt0 i e) v) := .setReg u (by simp only [R.wfRt0]; omega) v
  have h1 (u : State) (v : Word) : RoutesMoved u (setReg u (R.wfRt1 i e) v) := .setReg u (by simp only [R.wfRt1]; omega) v
  have h2 (u : State) (v : Word) : RoutesMoved u (setReg u (R.wfRt2 i e) v) := .setReg u (by simp only [R.wfRt2]; omega) v
  have h3 (u : State) (v : Word) : RoutesMoved u (setReg u (R.wfRt3 i e) v) := .setReg u (by simp only [R.wfRt3]; omega) v
  unfold writeRoute whenQuiet
  refine .ite ?_ (hstatus s _ _)
  dsimp only
  cases niOfEndpoint s dst with
  | none => exact h0 s _
  | some j =>
    exact ((h1 s _).trans ((h2 _ _).trans (h3 _ _))).trans (.ite (h0 _ _) ((h0 _ _).trans (hstatus _ _ _)))

theorem fillServiceTables_moved (s : State) : RoutesMoved s (fillServiceTables s) := by
  unfold fillServiceTables
  refine .foldl _ (fun u k hk => .foldl _ (fun v e he => ?_) u) s
  have := List.mem_range.1 hk
  have := List.mem_range.1 he
  exact writeRoute_moved (by omega) (by omega) _ _ _ v

/-! ## Memories -/

theorem clu_eq_default {s : State} {n : Nat} (h : n ∉ s.clusters.map (·.1)) : clu s n = {} := by
  rw [clu]
  generalize s.clusters = m at *
  induction m with
  | nil => rfl
  | cons x m ih =>
    obtain ⟨a, v⟩ := x
    have hn : n ≠ a ∧ n ∉ m.map (·.1) := by simpa using h
    rw [look, if_neg hn.1]
    exact ih hn.2

/-- A cluster without instructions and dictionary. -/
def memoriesEmpty (c : Cluster) : Prop := c.imem = [] ∧ c.dict = []

theorem clearMemories_clears (s : State) : (∀ n, memoriesEmpty (clu (clearMemories s) n)) ∧
    ∃ c, clearMemories s = { s with clusters := c } := by
  have h (l : List Nat) (u : State) :
      (∀ n, n ∈ l ∨ memoriesEmpty (clu u n) →
        memoriesEmpty (clu (l.foldl (fun acc n => setClu acc n { clu acc n with imem := [], dict := [] }) u) n)) ∧
      ∃ c, l.foldl (fun acc n => setClu acc n { clu acc n with imem := [], dict := [] }) u = { u with clusters := c } := by
    induction l generalizing u with
    | nil => exact ⟨fun n hn => hn.resolve_left List.not_mem_nil, u.clusters, rfl⟩
    | cons k l ih =>
      obtain ⟨hc, c, e⟩ := ih (setClu u k { clu u k with imem := [], dict := [] })
      refine ⟨fun n hn => hc n ?_, c, e⟩
      rw [clu_setClu]
      by_cases hnk : n = k
      · rw [if_pos hnk]
        exact .inr ⟨rfl, rfl⟩
      · rw [if_neg hnk]
        exact hn.imp_left fun hm => (List.mem_cons.1 hm).resolve_left hnk
  obtain ⟨hc, c, e⟩ := h (s.clusters.map (·.1)) s
  refine ⟨fun n => hc n ?_, c, e⟩
  by_cases hn : n ∈ s.clusters.map (·.1)
  · exact .inl hn
  · rw [clu_eq_default hn]
    exact .inr ⟨rfl, rfl⟩

/-! ## Registers -/

/-- The registers of the loader and of the presence of banks, which the first write does not reset. -/
def firstRegs : List Nat := R.ldStatus :: R.ldReach :: R.ldReloadStatus :: (List.range 8).map R.bankPresent

theorem firstRegs_families : ∀ a ∈ firstRegs,
    inFamilies (legsRegs ++ linksRegs ++ routesRegs ++ bankCluRegs ++ [R.bankOwner 0]) a = false ∧ inFamilies ddrRegs a = false ∧
      (a < 0x200000 ∨ 0x300000 ≤ a) ∧ (a < 0x501000 ∨ 0x502000 ≤ a) ∧ a ≠ R.glbSchedStatus := by decide +kernel

theorem bankPresent_mem {b : Nat} (hb : b < 256) : R.bankPresent (b / 32) ∈ firstRegs :=
  List.mem_cons_of_mem _ (List.mem_cons_of_mem _ (List.mem_cons_of_mem _ (List.mem_map.2 ⟨b / 32, List.mem_range.2 (by omega), rfl⟩)))

/-- A step of the first write keeps the registers of `firstRegs`. -/
def FirstKept (s t : State) : Prop := ∀ a ∈ firstRegs, reg t a = reg s a

theorem FirstKept.trans {s t u : State} (h : FirstKept s t) (h' : FirstKept t u) : FirstKept s u :=
  fun a ha => (h' a ha).trans (h a ha)

theorem FirstKept.bankPresent {s t : State} (h : FirstKept s t) {b : Nat} (hb : b < 256) : bankPresent t b = bankPresent s b :=
  congrArg (fun w => BitVec.getLsbD w (b % 32)) (h _ (bankPresent_mem hb))

theorem RoutesMoved.firstKept {s t : State} (h : RoutesMoved s t) : FirstKept s t := fun a ha => h.regs a (firstRegs_families a ha).2.2.1

theorem resetBankCfg_kept (s : State) : FirstKept s (resetBankCfg s) ∧ ∃ g, resetBankCfg s = { s with regs := g } := by
  have h (n : Nat) (hn : n ≤ 256) : FirstKept s (forUpTo n (fun b acc => setBits (setBits acc (R.bankCfg b) 25 3 1) (R.bankCfg b) 0 3
        (bitsOf (resetWord (R.bankCfg b)) 0 3)) s) ∧
      ∃ g, forUpTo n (fun b acc => setBits (setBits acc (R.bankCfg b) 25 3 1) (R.bankCfg b) 0 3
        (bitsOf (resetWord (R.bankCfg b)) 0 3)) s = { s with regs := g } := by
    induction n with
    | zero => exact ⟨fun _ _ => rfl, s.regs, rfl⟩
    | succ n ih =>
      obtain ⟨hk, g, e⟩ := ih (by omega)
      rw [forUpTo_succ]
      generalize forUpTo n _ s = u at *
      have hset : keepsRegs [R.bankCfg n] u (setBits (setBits u (R.bankCfg n) 25 3 1) (R.bankCfg n) 0 3
          (bitsOf (resetWord (R.bankCfg n)) 0 3)) := ((keepsRegs_refl _ u).setBits (by simp) _ _ _).setBits (by simp) _ _ _
      refine ⟨hk.trans fun a ha => hset a fun hm => ?_, _, by rw [e]; rfl⟩
      have hout := (firstRegs_families a ha).2.2.2.1
      simp only [List.mem_singleton, R.bankCfg] at hm
      omega
  exact h 256 (Nat.le_refl _)

/-- The registers that R429 returns to reset. -/
def loadGone (s : State) (a : Nat) : Bool :=
  let keepDdr := fun (a : Nat) => match regFamily a with
    | some (base, c :: r :: _) => ddrRegs.contains base && regionClass s c r != 0
    | _ => false
  inFamilies (legsRegs ++ linksRegs ++ routesRegs ++ bankCluRegs ++ [R.bankOwner 0]) a ||
    (inFamilies ddrRegs a && !keepDdr a) || decide (R.wfRt0 0 0 ≤ a ∧ a < R.wfRt0 136 0) ||
    decide (R.wfSlot 0 0 0 0 ≤ a ∧ a < R.wfSlot 144 0 0 0)

/-- The registers as R429 leaves them, and no handover. -/
def loadRegsReset (s : State) : State :=
  { s with regs := s.regs.filter fun x => !loadGone s x.1, banks := { s.banks with handovers := [] } }

theorem loadRegsReset_kept (s : State) : FirstKept s (loadRegsReset s) := by
  intro a ha
  obtain ⟨hf, hd, hr, -, -⟩ := firstRegs_families a ha
  have h1 : decide (R.wfRt0 0 0 ≤ a ∧ a < R.wfRt0 136 0) = false := decide_eq_false (by simp only [R.wfRt0]; omega)
  have h2 : decide (R.wfSlot 0 0 0 0 ≤ a ∧ a < R.wfSlot 144 0 0 0) = false := decide_eq_false (by simp only [R.wfSlot]; omega)
  have hstays : loadGone s a = false := by
    simp only [loadGone, hf, hd, h1, h2, Bool.false_and, Bool.or_false]
  exact (look_filter (d := resetWord) (m := s.regs) (p := fun a => !loadGone s a) (k := a)).trans (if_pos (by rw [hstays]; rfl))

/-- No depth check has passed, and no leg is valid. -/
def schedReset (s : State) : State := setBits (setBit s R.glbSchedStatus 0 false) R.glbSchedStatus 8 6 0

theorem schedReset_kept (s : State) : FirstKept s (schedReset s) ∧ ∃ g, schedReset s = { s with regs := g } := by
  have hset : keepsRegs [R.glbSchedStatus] s (schedReset s) :=
    ((keepsRegs_refl _ s).setBit (by simp) 0 false).setBits (by simp) 8 6 0
  exact ⟨fun a ha => hset a fun hm => (firstRegs_families a ha).2.2.2.2 (List.mem_singleton.1 hm), _, rfl⟩

theorem forUpTo_links {f : Nat → Link → Link} (n : Nat) (s : State) :
    ∃ c, forUpTo n (fun l acc => setLink acc l (f l (link acc l))) s = { s with cw := c } := by
  induction n with
  | zero => exact ⟨s.cw, rfl⟩
  | succ n ih =>
    obtain ⟨c, e⟩ := ih
    rw [forUpTo_succ, e]
    exact ⟨_, rfl⟩

/-- What R429 returns to reset leaves. -/
structure ResetForLoad (s t : State) : Prop where
  kept : FirstKept s t
  frame : ∃ g c, t = { s with
    regs := g, cw := c, banks := { s.banks with handovers := [] }, sched := { s.sched with awaited := [] } }

theorem resetForLoad_resets (s : State) : ResetForLoad s (resetForLoad s) := by
  obtain ⟨hk, g, e⟩ := resetBankCfg_kept (loadRegsReset s)
  have hl := loadRegsReset_kept s
  have e : resetBankCfg (loadRegsReset s) = { s with regs := g, banks := { s.banks with handovers := [] } } := e
  have hrun : resetForLoad s = schedReset (newTokens (forUpTo 20 (fun l acc =>
      setLink acc l { link acc l with deadlineIn := none, deadlineOut := none }) (resetBankCfg (loadRegsReset s)))) := rfl
  have hu := hl.trans hk
  rw [hrun]
  generalize resetBankCfg (loadRegsReset s) = u at *
  obtain ⟨c, e1⟩ := forUpTo_links (f := fun _ x => { x with deadlineIn := none, deadlineOut := none }) 20 u
  rw [e1]
  obtain ⟨c2, e2⟩ := forUpTo_links (f := fun _ x => { x with tokensIn := [], holdsIn := [] }) 20
    { u with cw := c, sched := { u.sched with awaited := [] } }
  have hnew : newTokens { u with cw := c } = { u with cw := c2, sched := { u.sched with awaited := [] } } := e2
  rw [hnew]
  obtain ⟨hks, g', e'⟩ := schedReset_kept { u with cw := c2, sched := { u.sched with awaited := [] } }
  refine ⟨fun a ha => (hks a ha).trans (hu a ha), g', c2, ?_⟩
  rw [e', e]

/-! ## Banks -/

/-- The banks of the reaches below `n` of the mask `m` are cleared. -/
structure ReachesCleared (m n : Nat) (s t : State) : Prop where
  kept : FirstKept s t
  mems : ∀ b, b < 256 → b / 16 < n → m / 2 ^ (b / 16) % 2 = 1 → bankPresent s b = true → designMem t b = zeroContents
  frame : ∃ g b, t = { s with regs := g, banks := b }

theorem reachesCleared_cleared (m : Nat) {n : Nat} (hn : n ≤ 16) (s : State) :
    ReachesCleared m n s (forUpTo n (fun r acc => if m / 2 ^ r % 2 = 1 then clearBanks r acc else acc) s) := by
  induction n with
  | zero => exact ⟨fun _ _ => rfl, fun b _ hb => absurd hb (by omega), s.regs, s.banks, rfl⟩
  | succ n ih =>
    obtain ⟨hk, hm, g, b, e⟩ := ih (by omega)
    rw [forUpTo_succ]
    generalize forUpTo n _ s = u at *
    by_cases hmask : m / 2 ^ n % 2 = 1
    · rw [if_pos hmask]
      have hc := clearBanks_cleared (r := n) (by omega) u
      obtain ⟨g', b', e'⟩ := hc.frame
      refine ⟨hk.trans fun a ha => hc.regs a (low_notin_bankCfgRegs (firstRegs_families a ha).2.2.2.1 (by omega)),
        fun j hj hjn hmj hp => ?_, g', b', by rw [e', e]⟩
      rw [hc.mems]
      by_cases hjr : 16 * n ≤ j ∧ j < 16 * n + 16
      · rw [if_pos ⟨hjr.1, hjr.2, (hk.bankPresent hj).trans hp⟩]
      · rw [if_neg fun h => hjr ⟨h.1, h.2.1⟩]
        exact hm j hj (by omega) hmj hp
    · rw [if_neg hmask]
      refine ⟨hk, fun j hj hjn hmj hp => ?_, g, b, e⟩
      by_cases hjr : j / 16 = n
      · exact absurd (hjr ▸ hmj) hmask
      · exact hm j hj (by omega) hmj hp

/-! ## The first write -/

theorem dropAllWaiting_frame (n : Nat) (s : State) : ∃ c, forUpTo n dropWaiting s = { s with clusters := c } := by
  induction n with
  | zero => exact ⟨s.clusters, rfl⟩
  | succ n ih =>
    obtain ⟨c, e⟩ := ih
    rw [forUpTo_succ, e]
    exact ⟨_, dropWaiting_frame n _⟩

/-- The state in which the first write finds memories and banks: LD_STATUS in state 4, no reach valid. -/
theorem setLdState_writing (s : State) : setLdState 4 s = setBits s R.ldStatus 28 4 4 := rfl

theorem writing_begins (s : State) : ∃ g c, setLdState 4 (invalidateAll s) = { s with regs := g, clusters := c } ∧
    keepsRegs [R.ldStatus, R.ldReach] s (setLdState 4 (invalidateAll s)) ∧ ldState (setLdState 4 (invalidateAll s)) = 4 ∧
    bits (setLdState 4 (invalidateAll s)) R.ldReach 0 16 = 0 := by
  obtain ⟨c, e⟩ := dropAllWaiting_frame 16 s
  rw [invalidateAll, e, setLdState_writing]
  refine ⟨_, c, rfl, ?_, ?_, ?_⟩
  · exact ((keepsRegs_refl _ { s with clusters := c }).setBits (by simp) 0 16 0).setBits (by simp) 28 4 4
  · exact (bits_setBits _ _ _ _ _ (by omega)).trans (by decide)
  · rw [bits_setBits_ne _ _ _ _ _ _ _ _ (.inl (by decide)), bits_setBits _ _ _ _ _ (by omega)]
    rfl

/-- The loader as the first write of stream `d` on device `k` leaves it. -/
def writingLoader (d : List Byte) (k : Nat) (x : Loader) : Loader := { x with
  cleared := true, golden := [], flows := [], contract := imageContract d, reaches := dirReaches d k, units := dirUnits d k }

/-- The banks of every reach of the mask `m` are cleared. -/
def allBanksCleared (m : Nat) (s : State) : State :=
  forUpTo 16 (fun r acc => if m / 2 ^ r % 2 = 1 then clearBanks r acc else acc) s

/-- The state of the first write before the service tables are filled. -/
def firstEmptied (s : State) : State :=
  allBanksCleared (dirReaches s.ld.data (ownOrdinal s)) (clearMemories (resetForLoad (setLdState 4 (invalidateAll s))))

theorem firstWrite_eq (s : State) : firstWrite s = fillServiceTables
    (setLd (writingLoader s.ld.data (ownOrdinal s) (firstEmptied s).ld) (firstEmptied s)) := by
  rw [firstWrite, writingLoader, firstEmptied, allBanksCleared]

/-- What stands before the service tables are filled. -/
structure FirstEmptied (s t : State) : Prop where
  state : ldState t = 4
  invalid : bits t R.ldReach 0 16 = 0
  reload : rlState t = rlState s
  ld : t.ld = s.ld
  awaited : t.sched.awaited = []
  clusters : ∀ n, memoriesEmpty (clu t n)
  mems : ∀ b, b < 256 → dirReaches s.ld.data (ownOrdinal s) / 2 ^ (b / 16) % 2 = 1 → bankPresent s b = true →
    designMem t b = zeroContents

theorem firstKept_state {s t : State} (h : FirstKept s t) :
    ldState t = ldState s ∧ bits t R.ldReach 0 16 = bits s R.ldReach 0 16 ∧ rlState t = rlState s :=
  ⟨congrArg (bitsOf · 28 4) (h R.ldStatus (by simp [firstRegs])), congrArg (bitsOf · 0 16) (h R.ldReach (by simp [firstRegs])),
    congrArg (bitsOf · 28 4) (h R.ldReloadStatus (by simp [firstRegs]))⟩

theorem firstEmptied_emptied (s : State) : FirstEmptied s (firstEmptied s) := by
  obtain ⟨g0, c0, e0, hk0, hst, hinv⟩ := writing_begins s
  have hreload : rlState (setLdState 4 (invalidateAll s)) = rlState s := hk0.bits (by decide) 28 4
  have hpresent (b : Nat) (hb : b < 256) : bankPresent (setLdState 4 (invalidateAll s)) b = bankPresent s b :=
    hk0.bit (fun hm => by
      simp only [List.mem_cons, List.not_mem_nil, or_false, R.bankPresent, R.ldStatus, R.ldReach] at hm
      omega) _
  rw [firstEmptied]
  generalize setLdState 4 (invalidateAll s) = u at *
  obtain ⟨hk1, g1, c1, e1⟩ := resetForLoad_resets u
  generalize resetForLoad u = v at *
  obtain ⟨hclu, c2, e2⟩ := clearMemories_clears v
  have hregs2 : (clearMemories v).regs = v.regs := by rw [e2]
  have hk2 : FirstKept v (clearMemories v) := fun a _ => by rw [reg, hregs2, reg]
  generalize clearMemories v = w at *
  obtain ⟨hk3, hm3, g3, b3, e3⟩ := reachesCleared_cleared (dirReaches s.ld.data (ownOrdinal s)) (Nat.le_refl 16) w
  have hk := hk1.trans (hk2.trans hk3)
  have hkw := hk1.trans hk2
  rw [allBanksCleared]
  generalize forUpTo 16 (fun r acc => if dirReaches s.ld.data (ownOrdinal s) / 2 ^ r % 2 = 1 then clearBanks r acc else acc) w = x at *
  obtain ⟨h1, h2, h3⟩ := firstKept_state hk
  refine ⟨h1.trans hst, h2.trans hinv, h3.trans hreload, by rw [e3, e2, e1, e0], by rw [e3, e2, e1], fun n => ?_,
    fun b hb hm hp => hm3 b hb (by omega) hm ((hkw.bankPresent hb).trans ((hpresent b hb).trans hp))⟩
  have hn := hclu n
  rw [e3]
  exact hn

theorem loadWrite_begins {s : State} (h3 : ldState s = 3) (hh : s.ld.held = true) (hq : clusterNisQuiet s = true)
    (hf : firmwareRuns s = true) (hr : rlState s = 0) :
    Completes .loadWrite s fun t =>
      ldState t = 4 ∧ bits t R.ldReach 0 16 = 0 ∧ t.ld.cleared = true ∧ (∀ l, awaitedEc t l = 0) ∧ t.ld.contract = imageContract s.ld.data ∧
      (∀ n, (clu t n).imem = [] ∧ (clu t n).dict = []) ∧
      (∀ b, b < 256 → dirReaches s.ld.data (ownOrdinal s) / 2 ^ (b / 16) % 2 = 1 → bankPresent s b = true →
        designMem t b = zeroContents) := by
  have he := firstEmptied_emptied s
  have hrun : loadWrite s = firstWrite s := if_pos ⟨h3, hh, hq, hf⟩
  rw [firstWrite_eq] at hrun
  generalize firstEmptied s = u at *
  have hm := fillServiceTables_moved (setLd (writingLoader s.ld.data (ownOrdinal s) u.ld) u)
  obtain ⟨g, e⟩ := hm.frame
  obtain ⟨hst, hinv, hrl⟩ := firstKept_state hm.firstKept
  generalize fillServiceTables (setLd (writingLoader s.ld.data (ownOrdinal s) u.ld) u) = t at *
  have hidle : rlState t ≠ 2 := by
    rw [hrl]
    exact fun h2 => absurd (hr.symm.trans (he.reload.symm.trans h2)) (by decide)
  refine ⟨t, congrArg Host.Outcome.next ((congrArg reloadAdvance hrun).trans (reloadAdvance_idle hidle)), hst.trans he.state,
    hinv.trans he.invalid, by rw [e]; rfl, fun l => ?_, by rw [e]; rfl, fun n => ?_, fun b hb hd hp => ?_⟩
  · have ha : t.sched.awaited = [] := by rw [e]; exact he.awaited
    rw [awaitedEc, ha]
    rfl
  · have hn := he.clusters n
    rw [e]
    exact hn
  · have hb := he.mems b hb hd hp
    rw [e]
    exact hb

end Sys2Proof.Machine
end

/-! # Sections of a load (R255, R263) -/

section
namespace Sys2Proof.Machine
set_option Elab.async false

/-! ## A section that is written -/

/-- The state after section `i` was written, with code 0, as `w`. -/
structure SectionWritten (i : Nat) (w t : State) : Prop where
  ld : t.ld = { w.ld with written := w.ld.written ++ [i] }
  regs : keepsRegs [R.ldStatus] w t
  frame : ∃ g l, t = { w with regs := g, ld := l }

theorem sectionDone_written (i : Nat) (w : State) :
    SectionWritten i w (
      let s := setLd { w.ld with written := w.ld.written ++ [i] } w
      if (nextWrite s).isNone then setLdState 5 s else s) := by
  dsimp only
  split
  · exact ⟨rfl, (keepsRegs_refl _ (setLd { w.ld with written := w.ld.written ++ [i] } w)).setBits (by simp) 28 4 5, _, _, rfl⟩
  · exact ⟨rfl, keepsRegs_refl _ w, w.regs, _, rfl⟩

/-- The section that is next, as `writeSection` takes it. -/
structure NextSection (s : State) (i : Nat) (x : Descriptor) (bs : List Byte) : Prop where
  state : ldState s = 4
  reload : rlState s = 0
  next : nextWrite s = some (i, x)
  held : find s.ld.good i = some bs
  firmware : x.type = 3 → firmwareRuns s = true

theorem NextSection.writes {s : State} {i : Nat} {x : Descriptor} {bs : List Byte} (h : NextSection s i x bs) {r : Nat × State}
    (hr : writeSection x (plainBytes s s.ld.data i x bs) s = r) :
    loadWrite s = if r.1 ≠ 0 then failLoad r.1 r.2 else
      let s := setLd { r.2.ld with written := r.2.ld.written ++ [i] } r.2
      if (nextWrite s).isNone then setLdState 5 s else s := by
  have hkept : keptBytes s i = bs := by rw [keptBytes, h.held]; rfl
  have hready : ¬ ((find s.ld.good i).isNone = true ∨ x.type = 3 ∧ (!firmwareRuns s) = true) := by
    rintro (hn | ⟨h3, hf⟩)
    · rw [h.held] at hn
      exact Bool.false_ne_true hn
    · rw [h.firmware h3] at hf
      exact Bool.false_ne_true hf
  rw [loadWrite, if_neg (by rw [h.state]; exact fun hc => absurd hc.1 (by decide)), if_pos h.state, writeNext, h.next]
  dsimp only
  rw [if_neg hready, hkept, hr]

theorem ldReloadStatus_notin_ldStatus : R.ldReloadStatus ∉ [R.ldStatus] := by decide

/-- A good section is written, and the load goes on. -/
theorem NextSection.good {s w : State} {i : Nat} {x : Descriptor} {bs : List Byte} (h : NextSection s i x bs)
    (hw : writeSection x (plainBytes s s.ld.data i x bs) s = (0, w)) (hr : rlState w = 0) :
    ∃ t, exec .loadWrite s = .next t ∧ SectionWritten i w t := by
  have ht := sectionDone_written i w
  have hrun := (h.writes hw).trans (if_neg (by simp))
  refine ⟨_, congrArg Host.Outcome.next ((congrArg reloadAdvance hrun).trans (reloadAdvance_idle ?_)), ht⟩
  rw [rlState, ht.regs.bits ldReloadStatus_notin_ldStatus]
  exact fun h2 => absurd (hr.symm.trans h2) (by decide)

/-! ## Instruction memories and dictionaries -/

theorem writeSection_imem {x : Descriptor} (h : x.type = 0) (bs : List Byte) (s : State) : writeSection x bs s =
    if bs.length = 49152 * depth s then (0, writeImem (reachOfMask x.reach) bs s) else (0x0F, s) := by
  obtain ⟨_, _⟩ := x
  subst h
  rfl

theorem writeSection_dict {x : Descriptor} (h : x.type = 1) (bs : List Byte) (s : State) : writeSection x bs s =
    if bs.length = 65536 then (0, writeDict (reachOfMask x.reach) bs s) else (0x0F, s) := by
  obtain ⟨_, _⟩ := x
  subst h
  rfl

theorem writeSection_golden {x : Descriptor} (h : x.type = 7) (bs : List Byte) (s : State) : writeSection x bs s =
    if bs.length = 64 then (0, setLd { s.ld with golden := goldenOf (reachOfMask x.reach) bs s.ld.golden } s) else (0x0F, s) := by
  obtain ⟨_, _⟩ := x
  subst h
  rfl

/-- The first `n` clusters of reach `r` take what `f` makes of them. -/
def clustersTake (f : Nat → Cluster → Cluster) (r n : Nat) (s : State) : State :=
  forUpTo n (fun j acc => setClu acc (8 * r + j) (f j (clu acc (8 * r + j)))) s

theorem clustersTake_taken (f : Nat → Cluster → Cluster) (r n : Nat) (s : State) :
    (∀ j, j < n → clu (clustersTake f r n s) (8 * r + j) = f j (clu s (8 * r + j))) ∧
    (∀ m, m < 8 * r ∨ 8 * r + n ≤ m → clu (clustersTake f r n s) m = clu s m) ∧
    ∃ c, clustersTake f r n s = { s with clusters := c } := by
  induction n with
  | zero => exact ⟨fun j hj => absurd hj (by omega), fun _ _ => rfl, s.clusters, rfl⟩
  | succ n ih =>
    obtain ⟨hin, hout, c, e⟩ := ih
    rw [clustersTake, forUpTo_succ, ← clustersTake]
    generalize clustersTake f r n s = u at *
    refine ⟨fun j hj => ?_, fun m hm => ?_, _, by rw [e]; rfl⟩
    · rw [clu_setClu]
      by_cases hjn : j = n
      · rw [hjn, if_pos rfl, hout (8 * r + n) (by omega)]
      · rw [if_neg (by omega), hin j (by omega)]
    · rw [clu_setClu, if_neg (by omega), hout m (by omega)]

theorem writeDict_eq (r : Nat) (bs : List Byte) (s : State) :
    writeDict r bs s = clustersTake (fun j c => { c with dict := dictOf j bs }) r 8 s := rfl

theorem writeImem_eq (r : Nat) (bs : List Byte) (s : State) :
    writeImem r bs s = clustersTake (fun j c => { c with imem := imemOf (depth s) j bs }) r 8 s := rfl

/-- A section that gives each cluster of a reach what `f` makes of it. -/
theorem NextSection.clusters {s : State} {i : Nat} {x : Descriptor} {bs : List Byte} (h : NextSection s i x bs)
    {f : Nat → Cluster → Cluster}
    (hw : writeSection x (plainBytes s s.ld.data i x bs) s = (0, clustersTake f (reachOfMask x.reach) 8 s)) :
    Completes .loadWrite s fun t =>
      t.ld = { s.ld with written := s.ld.written ++ [i] } ∧
      (∀ j, j < 8 → clu t (8 * reachOfMask x.reach + j) = f j (clu s (8 * reachOfMask x.reach + j))) ∧
      (∀ n, n / 8 ≠ reachOfMask x.reach → clu t n = clu s n) ∧ keepsRegs [R.ldStatus] s t := by
  obtain ⟨hin, hout, c, e⟩ := clustersTake_taken f (reachOfMask x.reach) 8 s
  generalize clustersTake f (reachOfMask x.reach) 8 s = w at *
  have hregs : w.regs = s.regs := by rw [e]
  have hreg (a : Nat) : reg w a = reg s a := by rw [reg, hregs, reg]
  obtain ⟨t, hexec, hld, hk, g, l, et⟩ := h.good hw ((congrArg (bitsOf · 28 4) (hreg _)).trans h.reload)
  have hclu (n : Nat) : clu t n = clu w n := by rw [et]; rfl
  refine ⟨t, hexec, by rw [hld, e], fun j hj => (hclu _).trans (hin j hj), fun n hn => (hclu n).trans (hout n (by omega)),
    fun a ha => (hk a ha).trans (hreg a)⟩

theorem loadWrite_dict {s : State} {i : Nat} {x : Descriptor} {bs : List Byte} (h4 : ldState s = 4) (hr : rlState s = 0)
    (hn : nextWrite s = some (i, x)) (hg : find s.ld.good i = some bs) (h1 : x.type = 1)
    (hlen : (plainBytes s s.ld.data i x bs).length = 65536) :
    Completes .loadWrite s fun t =>
      t.ld = { s.ld with written := s.ld.written ++ [i] } ∧
      (∀ j, j < 8 → clu t (8 * reachOfMask x.reach + j) =
        { clu s (8 * reachOfMask x.reach + j) with dict := dictOf j (plainBytes s s.ld.data i x bs) }) ∧
      (∀ n, n / 8 ≠ reachOfMask x.reach → clu t n = clu s n) ∧ keepsRegs [R.ldStatus] s t := by
  have h : NextSection s i x bs := ⟨h4, hr, hn, hg, fun h3 => absurd (h1.symm.trans h3) (by decide)⟩
  refine h.clusters (f := fun j c => { c with dict := dictOf j (plainBytes s s.ld.data i x bs) }) ?_
  rw [writeSection_dict h1, if_pos hlen, writeDict_eq]

theorem loadWrite_imem {s : State} {i : Nat} {x : Descriptor} {bs : List Byte} (h4 : ldState s = 4) (hr : rlState s = 0)
    (hn : nextWrite s = some (i, x)) (hg : find s.ld.good i = some bs) (h0 : x.type = 0)
    (hlen : (plainBytes s s.ld.data i x bs).length = 49152 * depth s) :
    Completes .loadWrite s fun t =>
      t.ld = { s.ld with written := s.ld.written ++ [i] } ∧
      (∀ j, j < 8 → clu t (8 * reachOfMask x.reach + j) =
        { clu s (8 * reachOfMask x.reach + j) with imem := imemOf (depth s) j (plainBytes s s.ld.data i x bs) }) ∧
      (∀ n, n / 8 ≠ reachOfMask x.reach → clu t n = clu s n) ∧ keepsRegs [R.ldStatus] s t := by
  have h : NextSection s i x bs := ⟨h4, hr, hn, hg, fun h3 => absurd (h0.symm.trans h3) (by decide)⟩
  refine h.clusters (f := fun j c => { c with imem := imemOf (depth s) j (plainBytes s s.ld.data i x bs) }) ?_
  rw [writeSection_imem h0, if_pos hlen, writeImem_eq]

/-! ## Golden values -/

theorem goldenOf_golden (r n : Nat) (bs : List Byte) (g : Sparse DWord) (k : Nat) :
    dword ((List.range n).foldl (fun m j => setDword m (8 * r + j) (BitVec.ofNat 64 (fieldAt bs (8 * j) 8))) g) k =
      if 8 * r ≤ k ∧ k < 8 * r + n then BitVec.ofNat 64 (fieldAt bs (8 * (k - 8 * r)) 8) else dword g k := by
  induction n with
  | zero => exact (if_neg (by omega)).symm
  | succ n ih =>
    rw [List.range_succ, List.foldl_append, List.foldl_cons, List.foldl_nil]
    refine (look_put _ _ _ _ _).trans ?_
    by_cases hk : k = 8 * r + n
    · rw [if_pos hk, if_pos (by omega), hk, Nat.add_sub_cancel_left]
    · rw [if_neg hk]
      refine ih.trans (if_congr ?_ rfl rfl)
      omega

theorem loadWrite_golden {s : State} {i : Nat} {x : Descriptor} {bs : List Byte} (h4 : ldState s = 4) (hr : rlState s = 0)
    (hn : nextWrite s = some (i, x)) (hg : find s.ld.good i = some bs) (h7 : x.type = 7)
    (hlen : (plainBytes s s.ld.data i x bs).length = 64) :
    Completes .loadWrite s fun t =>
      t.ld = { s.ld with written := s.ld.written ++ [i], golden := t.ld.golden } ∧
      (∀ j, j < 8 → dword t.ld.golden (8 * reachOfMask x.reach + j) =
        BitVec.ofNat 64 (fieldAt (plainBytes s s.ld.data i x bs) (8 * j) 8)) ∧
      (∀ n, n / 8 ≠ reachOfMask x.reach → dword t.ld.golden n = dword s.ld.golden n) ∧
      t.clusters = s.clusters ∧ keepsRegs [R.ldStatus] s t := by
  have h : NextSection s i x bs := ⟨h4, hr, hn, hg, fun h3 => absurd (h7.symm.trans h3) (by decide)⟩
  have hw : writeSection x (plainBytes s s.ld.data i x bs) s = (0, setLd { s.ld with
      golden := goldenOf (reachOfMask x.reach) (plainBytes s s.ld.data i x bs) s.ld.golden } s) := by
    rw [writeSection_golden h7, if_pos hlen]
  obtain ⟨t, hexec, hld, hk, g, l, et⟩ := h.good hw hr
  have hgold (k : Nat) : dword t.ld.golden k = if 8 * reachOfMask x.reach ≤ k ∧ k < 8 * reachOfMask x.reach + 8
      then BitVec.ofNat 64 (fieldAt (plainBytes s s.ld.data i x bs) (8 * (k - 8 * reachOfMask x.reach)) 8)
      else dword s.ld.golden k :=
    (congrArg (dword · k) (congrArg Loader.golden hld)).trans (goldenOf_golden (reachOfMask x.reach) 8 _ s.ld.golden k)
  refine ⟨t, hexec, ?_, fun j hj => ?_, fun n hn => ?_, by rw [et]; rfl, hk⟩
  · rw [hld]
    rfl
  · rw [hgold, if_pos (by omega), Nat.add_sub_cancel_left]
  · rw [hgold, if_neg (by omega)]

end Sys2Proof.Machine
end

/-! # Record sections of a load (R255, R256) -/

section
namespace Sys2Proof.Machine
set_option Elab.async false

/-! ## Records that a section may hold -/

/-- The registers that tell how the load ends: no record may write them. -/
def guarded : List Nat := [R.ldStatus, R.ldReloadStatus, R.ldCfg, R.glbUnitPresent0, R.pwrDomainStatus 25]

/-- The register arrays that the record sections of Table 10.5 write. -/
def recordRegs : List Nat := legsRegs ++ linksRegs ++ routesRegs ++ bankRegs ++ bankCluRegs ++ ddrRegs ++ releaseRegs

theorem guarded_families : ∀ a ∈ guarded, inFamilies recordRegs a = false ∧ (a < 0x700000 ∨ 0x780000 ≤ a) ∧
    (a < 0x200000 ∨ 0x300000 ≤ a) ∧ (a < 0x500000 ∨ 0x600000 ≤ a) := by decide +kernel

theorem recordAllowed_guarded {type reach units a : Nat} (ha : a ∈ guarded) : recordAllowed type reach units a = false := by
  obtain ⟨hf, hacq, -, -⟩ := guarded_families a ha
  rw [recordAllowed]
  by_cases h8 : type = 8
  · rw [if_pos h8]
    exact decide_eq_false (by omega)
  · rw [if_neg h8]
    rw [inFamilies] at hf
    cases hr : regFamily a with
    | none => rfl
    | some y =>
      obtain ⟨base, ix⟩ := y
      rw [hr] at hf
      have hout : base ∉ recordRegs := fun hm => by simp [hm] at hf
      simp only [recordRegs, List.mem_append, not_or] at hout
      obtain ⟨⟨⟨⟨⟨⟨hlegs, hlinks⟩, hroutes⟩, hbanks⟩, hclu⟩, hddr⟩, hrel⟩ := hout
      dsimp only
      split <;> simp [hlegs, hlinks, hroutes, hbanks, hclu, hddr, hrel]

/-- The arrays of BANK_CFG and BANK_OWNER hold one register of each bank. -/
theorem bankFamilies_dims : ∀ g ∈ regTable, (g.base = R.bankOwner 0 ∨ g.base = R.bankCfg 0) → g.dims = [(4, 256)] := by decide +kernel

theorem bankFamily_index {a base i : Nat} {ix : List Nat} (h : regFamily a = some (base, i :: ix))
    (hb : base = R.bankOwner 0 ∨ base = R.bankCfg 0) : i < 256 := by
  obtain ⟨⟨g, jx⟩, hat, he⟩ := Option.map_eq_some_iff.1 h
  obtain ⟨hbase, hjx⟩ := Prod.mk.inj he
  obtain ⟨g', hg', hf⟩ := List.exists_of_findSome?_eq_some hat
  split at hf
  · exact absurd hf (by simp)
  · obtain ⟨kx, hk, he'⟩ := Option.map_eq_some_iff.1 hf
    obtain ⟨rfl, rfl⟩ := Prod.mk.inj he'
    dsimp only at hbase hjx
    rw [bankFamilies_dims g' hg' (by rw [hbase]; exact hb), hjx, regIndex] at hk
    split at hk
    · next hlt =>
      obtain ⟨l, -, hl⟩ := Option.map_eq_some_iff.1 hk
      obtain ⟨rfl, -⟩ := List.cons.inj hl
      exact hlt
    · exact absurd hk (by simp)

/-! ## What a record leaves -/

/-- A record keeps the guarded registers, and of the loader's state it changes the flows alone. -/
structure RecordKept (s t : State) : Prop where
  regs : ∀ a ∈ guarded, reg t a = reg s a
  ld : t.ld = { s.ld with flows := t.ld.flows }

namespace RecordKept
variable {s t u : State}

theorem refl (s : State) : RecordKept s s := ⟨fun _ _ => rfl, rfl⟩

theorem trans (h : RecordKept s t) (h' : RecordKept t u) : RecordKept s u :=
  ⟨fun a ha => (h'.regs a ha).trans (h.regs a ha), by rw [h'.ld, h.ld]⟩

theorem of_keeps {L : List Nat} (hk : keepsRegs L s t) (hL : ∀ a ∈ guarded, a ∉ L) (hl : t.ld = s.ld) : RecordKept s t :=
  ⟨fun a ha => hk a (hL a ha), by rw [hl]⟩

theorem setBits (s : State) {a : Nat} (ha : 0x500000 ≤ a ∧ a < 0x600000) (lo n v : Nat) : RecordKept s (setBits s a lo n v) :=
  of_keeps ((keepsRegs_refl [a] s).setBits (List.mem_singleton_self a) lo n v) (fun x hx hm => by
    have := (guarded_families x hx).2.2.2
    have := List.mem_singleton.1 hm
    omega) rfl

theorem setBit (s : State) {a : Nat} (ha : 0x500000 ≤ a ∧ a < 0x600000) (i : Nat) (b : Bool) : RecordKept s (setBit s a i b) :=
  setBits s ha i 1 _

end RecordKept

theorem ownerLoad_kept {b : Nat} (hb : b < 256) (v : Word) (s : State) : RecordKept s (ownerLoad b v s) := by
  have ha : 0x500000 ≤ R.bankOwner b ∧ R.bankOwner b < 0x600000 := by
    simp only [R.bankOwner]
    omega
  have h := ((RecordKept.setBits s ha 0 8 (bitsOf v 0 8)).trans (.setBits _ ha 16 8 (bitsOf v 16 8))).trans (.setBit _ ha 31 true)
  exact h.trans ⟨fun _ _ => rfl, rfl⟩

theorem bankCfgWrite_kept {b : Nat} (hb : b < 256) (v : Word) (s : State) : RecordKept s (bankCfgWrite b v s) := by
  have ha : 0x500000 ≤ R.bankCfg b ∧ R.bankCfg b < 0x600000 := by
    simp only [R.bankCfg]
    omega
  have hstatus : 0x500000 ≤ R.bankStatus ∧ R.bankStatus < 0x600000 := by decide
  have hkeep := RecordKept.setBit s ha 25 (v.getLsbD 25)
  unfold bankCfgWrite
  dsimp only
  split
  · exact hkeep.trans (.setBit _ hstatus 0 true)
  · have haspect := hkeep.trans (.setBits _ ha 0 3 (bitsOf v 0 3))
    split
    · exact haspect.trans (.setBit _ hstatus 1 true)
    · exact haspect.trans (.setBits _ ha 26 2 (bitsOf v 26 2))

theorem freezeAt_kept (v : Word) (s : State) : RecordKept s (freezeAt v s) := by
  obtain ⟨hk, e⟩ := writeFields_only R.trgFreezeAtHi v s
  have hwrite : RecordKept s (writeFields R.trgFreezeAtHi v s) := .of_keeps hk (by decide) (by rw [e])
  unfold freezeAt
  dsimp only
  generalize writeFields R.trgFreezeAtHi v s = u at *
  have hlow : RecordKept s { u with sched := { u.sched with freezeLow := reg u R.trgFreezeAtLo } } := hwrite.trans ⟨fun _ _ => rfl, rfl⟩
  split
  · refine hlow.trans (.of_keeps (L := [R.trgFreezeAtHi]) ?_ (by decide) rfl)
    exact (keepsRegs_refl _ { u with sched := { u.sched with freezeLow := reg u R.trgFreezeAtLo } }).setBit (by simp) 30 true
  · exact hlow

/-- A register record that a section may hold. -/
theorem writeRecord_kept {type reach units : Nat} {a : Nat} (h : recordAllowed type reach units a = true) (v : Word) (s : State) :
    RecordKept s (writeRecord a v s) := by
  have hfields : RecordKept s (writeFields a v s) := by
    obtain ⟨hk, e⟩ := writeFields_only a v s
    refine .of_keeps hk (fun x hx hm => ?_) (by rw [e])
    obtain rfl := List.mem_singleton.1 hm
    rw [recordAllowed_guarded hx] at h
    exact Bool.false_ne_true h
  unfold writeRecord
  split
  · next base i ix hf =>
    split
    · next hb => exact ownerLoad_kept (bankFamily_index hf (.inl hb)) v s
    · split
      · next hb => exact bankCfgWrite_kept (bankFamily_index hf (.inr hb)) v s
      · exact hfields
  · split
    · exact freezeAt_kept v s
    · exact hfields

theorem RoutesMoved.recordKept {s t : State} (h : RoutesMoved s t) : RecordKept s t := by
  obtain ⟨g, e⟩ := h.frame
  exact ⟨fun a ha => h.regs a (guarded_families a ha).2.2.1, by rw [e]⟩

/-- A special record that a section may hold. -/
theorem writeSpecial_kept {type reach contract : Nat} (hr : reach < 16) {k v : Word}
    (h : specialAllowed type reach contract k v = true) (s : State) : RecordKept s (writeSpecial type k v s) := by
  unfold writeSpecial
  split
  · refine (writeRoute_moved ?_ (bitsOf_lt _ _ _) _ _ _ s).recordKept
    have hreach : bitsOf k 16 8 / 8 = reach := by
      simp only [specialAllowed, Bool.and_eq_true, beq_iff_eq] at h
      obtain ⟨⟨⟨⟨-, -⟩, hreach⟩, -⟩, -⟩ := h
      exact hreach
    omega
  · exact ⟨fun _ _ => rfl, rfl⟩
  · exact .refl s

/-- One record as the section writes it. -/
def recordWritten (type : Nat) (s : State) (y : Word × Word) : State :=
  if y.1.getLsbD 31 then writeSpecial type y.1 y.2 s else writeRecord y.1.toNat y.2 s

theorem recordWritten_kept {type reach units contract : Nat} (hr : reach < 16) {y : Word × Word}
    (h : recordGood type reach units contract y = true) (s : State) : RecordKept s (recordWritten type s y) := by
  unfold recordGood at h
  unfold recordWritten
  split
  · next h31 =>
    rw [if_pos h31] at h
    exact writeSpecial_kept hr h s
  · next h31 =>
    rw [if_neg h31] at h
    exact writeRecord_kept h y.2 s

/-! ## The records of a section -/

theorem writeRecords_good {type reach units contract : Nat} (hr : reach < 16) {rs : List (Word × Word)} (s : State)
    (h : (rs.all fun y => recordGood type reach units contract y) = true) :
    writeRecords type reach units contract rs s = (true, rs.foldl (recordWritten type) s) ∧
      RecordKept s (rs.foldl (recordWritten type) s) := by
  induction rs generalizing s with
  | nil => exact ⟨rfl, .refl s⟩
  | cons y rs ih =>
    rw [List.all_cons, Bool.and_eq_true] at h
    obtain ⟨hrun, hkept⟩ := ih (recordWritten type s y) h.2
    rw [writeRecords, if_pos h.1]
    exact ⟨hrun, (recordWritten_kept hr h.1 s).trans hkept⟩

theorem writeRecords_bad {type reach units contract : Nat} (hr : reach < 16) {rs : List (Word × Word)} (s : State)
    (h : (rs.all fun y => recordGood type reach units contract y) = false) :
    (writeRecords type reach units contract rs s).1 = false ∧ RecordKept s (writeRecords type reach units contract rs s).2 := by
  induction rs generalizing s with
  | nil => exact absurd h (by simp)
  | cons y rs ih =>
    rw [writeRecords]
    by_cases hy : recordGood type reach units contract y = true
    · rw [if_pos hy]
      rw [List.all_cons, hy, Bool.true_and] at h
      obtain ⟨hfalse, hkept⟩ := ih (recordWritten type s y) h
      exact ⟨hfalse, (recordWritten_kept hr hy s).trans hkept⟩
    · rw [if_neg hy]
      exact ⟨rfl, .refl s⟩

end Sys2Proof.Machine
end

/-! # Record sections that are written, and those that end the load (R118, R255, R256) -/

section
namespace Sys2Proof.Machine
set_option Elab.async false

theorem reachOfMask_lt (m : Nat) : reachOfMask m < 16 := by
  unfold reachOfMask
  cases h : (List.range 16).find? fun r => m == 2 ^ r with
  | none => decide
  | some r => exact List.mem_range.1 (List.mem_of_find?_eq_some h)

/-- The types of the record sections (Table 10.3). -/
def recordTypes : List Nat := [2, 3, 4, 5, 6, 8, 9]

theorem writeSection_records {x : Descriptor} (h : x.type ∈ recordTypes) (bs : List Byte) (s : State) :
    writeSection x bs s = writeRecordSection x.type (reachOfMask x.reach) s.ld.units s.ld.contract bs s := by
  obtain ⟨ty, _⟩ := x
  simp only [recordTypes, List.mem_cons, List.not_mem_nil, or_false] at h
  rcases h with rfl | rfl | rfl | rfl | rfl | rfl | rfl
  all_goals rfl

/-! ## A good section -/

/-- What of its section has to be checked beside its records. -/
structure SectionChecks (type : Nat) (rs : List (Word × Word)) (w : State) : Prop where
  deadlines : type = 6 → ((rs.filter fun y => y.1.getLsbD 31).map fun y => (bitsOf y.1 8 5, bitsOf y.1 0 2)).Nodup
  legs : type = 2 → depthGood w = true ∧ legsGood w = true

/-- What the end of a record section makes of the state after its records. -/
structure RecordsEnded (type : Nat) (w t : State) : Prop where
  regs : keepsRegs [R.glbSchedStatus] w t
  legs : type = 2 → bits t R.glbSchedStatus 8 6 = validLegs w
  others : type ≠ 2 → reg t R.glbSchedStatus = reg w R.glbSchedStatus
  frame : ∃ g c, t = { w with regs := g, cw := c }

theorem validLegs_lt (s : State) : validLegs s < 2 ^ 6 :=
  Nat.lt_of_le_of_lt (List.length_filter_le _ _) (by rw [List.length_range]; decide)

theorem writeDeadlines_frame (rs : List (Word × Word)) (s : State) : ∃ c, writeDeadlines rs s = { s with cw := c } := by
  have h (l : List Nat) (u : State) : ∃ c, l.foldl (fun acc k =>
      setLink acc k { link acc k with deadlineIn := governing rs k 1, deadlineOut := governing rs k 2 }) u = { u with cw := c } := by
    induction l generalizing u with
    | nil => exact ⟨u.cw, rfl⟩
    | cons k l ih =>
      obtain ⟨c, e⟩ := ih (setLink u k { link u k with deadlineIn := governing rs k 1, deadlineOut := governing rs k 2 })
      exact ⟨c, e⟩
  exact h _ s

theorem writeRecordSection_good {type reach units contract : Nat} (hr : reach < 16) {bs : List Byte} (s : State)
    (hlen : bs.length % 8 = 0) (h : ((recordsOf bs).all fun y => recordGood type reach units contract y) = true)
    (hc : SectionChecks type (recordsOf bs) ((recordsOf bs).foldl (recordWritten type) s)) :
    ∃ w, writeRecordSection type reach units contract bs s = (0, w) ∧
      RecordsEnded type ((recordsOf bs).foldl (recordWritten type) s) w := by
  have hrecords := (writeRecords_good hr s h).1
  rw [writeRecordSection]
  dsimp only
  rw [if_neg (by omega), if_neg fun hd => hd.2 (hc.deadlines hd.1), hrecords]
  generalize (recordsOf bs).foldl (recordWritten type) s = v at *
  rw [if_neg (by simp)]
  by_cases h6 : type = 6
  · rw [if_pos h6]
    obtain ⟨c, e⟩ := writeDeadlines_frame ((recordsOf bs).filter fun x => x.1.getLsbD 31) v
    refine ⟨_, rfl, ?_⟩
    rw [e]
    exact ⟨keepsRegs_refl _ v, fun h2 => absurd (h6.symm.trans h2) (by decide), fun _ => rfl, v.regs, c, rfl⟩
  · rw [if_neg h6]
    by_cases h2 : type = 2
    · obtain ⟨hdepth, hlegs⟩ := hc.legs h2
      rw [if_pos h2, if_pos (by rw [hdepth, hlegs]; rfl)]
      refine ⟨_, rfl, (keepsRegs_refl _ v).setBits (by simp) 8 6 _, fun _ => ?_, fun hne => absurd h2 hne, _, v.cw, rfl⟩
      exact (bits_setBits _ _ _ _ _ (by omega)).trans (Nat.mod_eq_of_lt (validLegs_lt v))
    · rw [if_neg h2]
      exact ⟨v, rfl, keepsRegs_refl _ v, fun h => absurd h h2, fun _ => rfl, v.regs, v.cw, rfl⟩

/-- A good record section is written. -/
theorem loadWrite_records {s : State} {i : Nat} {x : Descriptor} {bs : List Byte} (h : NextSection s i x bs)
    (ht : x.type ∈ recordTypes) (hlen : (plainBytes s s.ld.data i x bs).length % 8 = 0)
    (hgood : ((recordsOf (plainBytes s s.ld.data i x bs)).all fun y =>
      recordGood x.type (reachOfMask x.reach) s.ld.units s.ld.contract y) = true)
    (hc : SectionChecks x.type (recordsOf (plainBytes s s.ld.data i x bs))
      ((recordsOf (plainBytes s s.ld.data i x bs)).foldl (recordWritten x.type) s)) :
    Completes .loadWrite s fun t =>
      let w := (recordsOf (plainBytes s s.ld.data i x bs)).foldl (recordWritten x.type) s
      t.ld = { w.ld with written := s.ld.written ++ [i] } ∧ keepsRegs [R.ldStatus, R.glbSchedStatus] w t ∧
      t.clusters = w.clusters ∧ t.banks = w.banks ∧ t.net = w.net ∧
      (x.type = 2 → bits t R.glbSchedStatus 8 6 = validLegs w) ∧
      (x.type ≠ 2 → reg t R.glbSchedStatus = reg w R.glbSchedStatus) := by
  obtain ⟨v, hv, hend⟩ := writeRecordSection_good (reachOfMask_lt x.reach) s hlen hgood hc
  have hkept := (writeRecords_good (reachOfMask_lt x.reach) s hgood).2
  rw [← writeSection_records ht] at hv
  dsimp only
  generalize (recordsOf (plainBytes s s.ld.data i x bs)).foldl (recordWritten x.type) s = w at *
  obtain ⟨hk, hlegs, hothers, g, c, e⟩ := hend
  have hreload : rlState v = 0 := by
    have hw : rlState w = rlState s := congrArg (bitsOf · 28 4) (hkept.regs R.ldReloadStatus (by simp [guarded]))
    rw [rlState, hk.bits (by decide)]
    exact hw.trans h.reload
  obtain ⟨t, hexec, hld, hkt, g', l, et⟩ := h.good hv hreload
  have hwritten : w.ld.written = s.ld.written := by rw [hkept.ld]
  have hvld : v.ld = w.ld := by rw [e]
  refine ⟨t, hexec, ?_, ?_, by rw [et, e], by rw [et, e], by rw [et, e], fun h2 => ?_, fun hne => ?_⟩
  · rw [hld, hvld, hwritten]
  · exact (hk.mono (by simp)).trans (hkt.mono (by simp))
  · rw [hkt.bits (by decide), hlegs h2]
  · rw [hkt _ (by decide), hothers hne]

/-! ## A section that ends the load -/

theorem writeRecordSection_bad {type reach units contract : Nat} (hr : reach < 16) {bs : List Byte} (s : State)
    (h : bs.length % 8 ≠ 0 ∨ ((recordsOf bs).all fun y => recordGood type reach units contract y) = false) :
    ∃ w, writeRecordSection type reach units contract bs s = (0x0F, w) ∧ RecordKept s w := by
  rw [writeRecordSection]
  dsimp only
  by_cases hlen : bs.length % 8 ≠ 0
  · exact ⟨s, if_pos hlen, .refl s⟩
  · rw [if_neg hlen]
    obtain ⟨hfalse, hkept⟩ := writeRecords_bad hr s (h.resolve_left hlen)
    split
    · exact ⟨s, rfl, .refl s⟩
    · exact ⟨_, if_pos (by rw [hfalse]; rfl), hkept⟩

/-- The mode, the children and the trace rest on three registers. -/
theorem loader_of_regs {s t : State} (hcfg : reg t R.ldCfg = reg s R.ldCfg) (hunit : reg t R.glbUnitPresent0 = reg s R.glbUnitPresent0)
    (hdomain : reg t (R.pwrDomainStatus 25) = reg s (R.pwrDomainStatus 25)) :
    ldMode t = ldMode s ∧ childLinks t = childLinks s ∧ traceOn t = traceOn s := by
  refine ⟨?_, ?_, ?_⟩
  · unfold ldMode bits
    rw [hcfg]
  · unfold childLinks bit
    rw [hcfg]
  · unfold traceOn tracePresent domainOn bit bits
    rw [hunit, hdomain]

theorem RecordKept.loader {s t : State} (h : RecordKept s t) :
    rlState t = rlState s ∧ ldState t = ldState s ∧ ldMode t = ldMode s ∧ childLinks t = childLinks s ∧ traceOn t = traceOn s :=
  ⟨congrArg (bitsOf · 28 4) (h.regs R.ldReloadStatus (by simp [guarded])),
    congrArg (bitsOf · 28 4) (h.regs R.ldStatus (by simp [guarded])),
    loader_of_regs (h.regs _ (by simp [guarded])) (h.regs _ (by simp [guarded])) (h.regs _ (by simp [guarded]))⟩

/-- What a load without children leaves that fails while it writes or checks. -/
structure WriteFailed (code : Nat) (s t : State) : Prop where
  state : ldState t = 8
  code : bits t R.ldStatus 16 8 = code
  done : bit t R.ldStatus 26 = true
  reload : rlState t = rlState s
  invalid : s.ld.cleared = true → bits t R.ldReach 0 16 = 0

theorem failLoad_failed {s : State} {code : Nat} (h6 : ldState s ≠ 6) (hc : childLinks s = []) (hr : s.ld.reports = [])
    (hm : ldMode s = 0) (ht : traceOn s = false) (h0 : code ≠ 0) (h8 : code < 256) : WriteFailed code s (failLoad code s) := by
  obtain ⟨u, hrun, hk, hld, hinv⟩ : ∃ u, failLoad code s = loadFails code u ∧ keepsRegs [R.ldReach] s u ∧ u.ld = s.ld ∧
      (s.ld.cleared = true → bits u R.ldReach 0 16 = 0) := by
    rw [failLoad_eq]
    by_cases hcl : s.ld.cleared = true
    · rw [if_neg (by simp [hcl]), if_neg h6]
      exact ⟨_, rfl, (keepsRegs_refl _ s).setBits (by simp) 0 16 0, rfl, fun _ => bits_setBits _ _ _ _ _ (by omega)⟩
    · rw [if_pos hcl]
      exact ⟨s, rfl, keepsRegs_refl _ s, rfl, fun h => absurd h hcl⟩
  have hf := loadFails_failed (code := code) ((childLinks_keeps hk (by decide)).trans hc) ((congrArg Loader.reports hld).trans hr)
    ((ldMode_keeps hk (by decide)).trans hm) ((traceOn_keeps hk (by decide) (by decide)).trans ht) h0 h8
  rw [hrun]
  refine ⟨hf.state, hf.code, hf.done, ?_, fun hcl => (hf.regs.bits (by decide) 0 16).trans (hinv hcl)⟩
  exact (hf.regs.bits (by decide) 28 4).trans (hk.bits (by decide) 28 4)

/-- A record that a section may not hold, or half a record, ends the load. -/
theorem loadWrite_bad {s : State} {i : Nat} {x : Descriptor} {bs : List Byte} (h : NextSection s i x bs)
    (ht : x.type ∈ recordTypes) (hc : childLinks s = []) (hr : s.ld.reports = []) (hm : ldMode s = 0) (htr : traceOn s = false)
    (hbad : (plainBytes s s.ld.data i x bs).length % 8 ≠ 0 ∨ ((recordsOf (plainBytes s s.ld.data i x bs)).all fun y =>
      recordGood x.type (reachOfMask x.reach) s.ld.units s.ld.contract y) = false) :
    Completes .loadWrite s fun t =>
      ldState t = 8 ∧ bits t R.ldStatus 16 8 = 0x0F ∧ bit t R.ldStatus 26 = true := by
  obtain ⟨w, hw, hkept⟩ := writeRecordSection_bad (reachOfMask_lt x.reach) s hbad
  rw [← writeSection_records ht] at hw
  obtain ⟨hreload, hstate, hmode, hchild, htrace⟩ := hkept.loader
  have hrun : loadWrite s = failLoad 0x0F w := (h.writes hw).trans (if_pos (by simp))
  have hf := failLoad_failed (s := w) (code := 0x0F) (by rw [hstate, h.state]; decide) (hchild.trans hc) (by rw [hkept.ld]; exact hr)
    (hmode.trans hm) (htrace.trans htr) (by decide) (by decide)
  have hidle : rlState (failLoad 0x0F w) ≠ 2 := by
    rw [hf.reload, hreload, h.reload]
    decide
  exact ⟨_, congrArg Host.Outcome.next ((congrArg reloadAdvance hrun).trans (reloadAdvance_idle hidle)), hf.state, hf.code, hf.done⟩

end Sys2Proof.Machine
end

/-! # The end of a load (R265) -/

section
namespace Sys2Proof.Machine
set_option Elab.async false

/-! ## What a load that completes releases -/

/-- A step of the end of a load: registers of legs and NIs, and the scrubber. -/
structure LoadReleased (s t : State) : Prop where
  regs : ∀ a, (a < 0x1000 ∨ 0x2000 ≤ a) → (a < 0x200000 ∨ 0x300000 ≤ a) → reg t a = reg s a
  reports : t.ld.reports = s.ld.reports
  frame : ∃ g l, t = { s with regs := g, ld := l }

namespace LoadReleased
variable {s t u : State}

theorem refl (s : State) : LoadReleased s s := ⟨fun _ _ _ => rfl, rfl, s.regs, s.ld, rfl⟩

theorem trans (h : LoadReleased s t) (h' : LoadReleased t u) : LoadReleased s u := by
  obtain ⟨hr, hp, g, l, e⟩ := h
  obtain ⟨hr', hp', g', l', e'⟩ := h'
  exact ⟨fun a h1 h2 => (hr' a h1 h2).trans (hr a h1 h2), hp'.trans hp, g', l', by rw [e', e]⟩

theorem setBit (s : State) {a : Nat} (ha : 0x1000 ≤ a ∧ a < 0x2000 ∨ 0x200000 ≤ a ∧ a < 0x300000) (i : Nat) (b : Bool) :
    LoadReleased s (setBit s a i b) :=
  ⟨fun x h1 h2 => (keepsRegs_refl [a] s).setBit (List.mem_singleton_self a) i b x fun hm => by
    have := List.mem_singleton.1 hm
    omega, rfl, _, s.ld, rfl⟩

theorem forUpTo {f : Nat → State → State} (n : Nat) (h : ∀ k, k < n → ∀ u, LoadReleased u (f k u)) (s : State) :
    LoadReleased s (forUpTo n f s) := by
  induction n with
  | zero => exact refl s
  | succ n ih =>
    rw [forUpTo_succ]
    exact (ih fun k hk u => h k (by omega) u).trans (h n (by omega) _)

theorem foldl {α : Type} {f : State → α → State} (l : List α) (h : ∀ u x, LoadReleased u (f u x)) (s : State) :
    LoadReleased s (l.foldl f s) := by
  induction l generalizing s with
  | nil => exact refl s
  | cons x l ih => exact (h s x).trans (ih _)

end LoadReleased

theorem setAnchors_released (a : BitVec 32) (s : State) : LoadReleased s (setAnchors a s) :=
  .forUpTo 32 (fun k hk u => .setBit u (.inl (by simp only [R.glbLeg]; omega)) 29 _) s

theorem startScrub_released (r : Nat) (s : State) : LoadReleased s (startScrub r s) := ⟨fun _ _ _ => rfl, rfl, s.regs, _, rfl⟩

theorem niCtrlWrite_released {i : Nat} (hi : i < 128) (s : State) : LoadReleased s (niCtrlWrite i false s) := by
  have hctrl : 0x200000 ≤ R.wfNiCtrl i ∧ R.wfNiCtrl i < 0x300000 := by
    simp only [R.wfNiCtrl]
    omega
  have hstatus : 0x200000 ≤ R.wfNiStatus i ∧ R.wfNiStatus i < 0x300000 := by
    simp only [R.wfNiStatus]
    omega
  have hrun : niCtrlWrite i false s = setBit (setBit s (R.wfNiCtrl i) 0 false) (R.wfNiStatus i) 31 false := by
    rw [niCtrlWrite, if_pos (by decide)]
    exact if_neg (by omega)
  rw [hrun]
  exact (LoadReleased.setBit s (.inr hctrl) 0 false).trans (.setBit _ (.inr hstatus) 31 false)

/-- The anchors, the scrubber and the NIs as a load that completes leaves them. -/
def loadReleased (anchors : BitVec 32) (s : State) : State :=
  let s := setAnchors anchors s
  let s := (reachList s.ld.reaches).foldl (fun acc r => startScrub r acc) s
  forUpTo 128 (fun i acc => niCtrlWrite i false acc) s

theorem loadReleased_released (anchors : BitVec 32) (s : State) : LoadReleased s (loadReleased anchors s) :=
  ((setAnchors_released anchors s).trans (.foldl _ (fun u r => startScrub_released r u) _)).trans
    (.forUpTo 128 (fun _ hi u => niCtrlWrite_released hi u) _)

/-! ## Status 0 -/

/-- The loader has loaded: its state with its cause. -/
theorem setLdState_loaded {s : State} (ht : traceOn s = false) : setLdState 6 s = raiseCause 34 (setBits s R.ldStatus 28 4 6) := by
  have hk : keepsRegs [R.ldStatus, R.glbIrqCauseHi] s (raiseCause 34 (setBits s R.ldStatus 28 4 6)) :=
    ((keepsRegs_refl _ s).setBits (by simp) _ _ _).trans ((raiseCause_keeps 34 _).mono (by simp))
  rw [setLdState, if_pos (.inl rfl), traceEvent_off ((traceOn_keeps hk (by decide) (by decide)).trans ht)]

/-- The device itself has status 0, and no child is awaited. -/
theorem finalStatus_good {s : State} {o : Nat} (hc : childLinks s = []) (hr : s.ld.reports = []) (hm : ldMode s = 0) :
    finalStatus 20 0 o s = setBit (setBits (setBits (setLd { s.ld with reports := [(20, 0, o)] } s) R.ldStatus 16 8 0)
      R.ldStatus 8 7 0) R.ldStatus 26 true := by
  have hld : ∀ x, ldMode (setLd x s) = 0 ∧ childLinks (setLd x s) = [] := fun _ => ⟨hm, hc⟩
  rw [finalStatus, hr, List.filter_nil, List.nil_append, maybeReport]
  dsimp only
  rw [(hld _).2, if_pos ⟨by simp [setLd], rfl⟩, show (setLd { s.ld with reports := [(20, 0, o)] } s).ld.reports = [(20, 0, o)] from rfl,
    (hld _).1]
  rfl

/-- The loader as it shows status 0. -/
def loadedShown (s : State) : State := raiseCause 34 (setBits (setBits s R.ldStatus 16 8 0) R.ldStatus 28 4 6)

theorem loadedShown_shown (s : State) : keepsRegs [R.ldStatus, R.glbIrqCauseHi] s (loadedShown s) ∧
    ldState (loadedShown s) = 6 ∧ causeBit (loadedShown s) 34 = true ∧ (loadedShown s).ld = s.ld ∧ (loadedShown s).sched = s.sched := by
  have hk := raiseCause_high (v := 34) (by decide) (setBits (setBits s R.ldStatus 16 8 0) R.ldStatus 28 4 6)
  refine ⟨?_, ?_, causeBit_raiseCause 34 _, raiseCause_ld _ _, raiseCause_sched _ _⟩
  · exact (((keepsRegs_refl _ s).setBits (by simp) 16 8 0).setBits (by simp) 28 4 6).trans (hk.mono (by simp))
  · refine (hk.bits (by decide) 28 4).trans ((bits_setBits _ _ _ _ _ (by omega)).trans (by decide))

/-- Status 0 as LD_STATUS shows it. -/
def statusZero (s : State) : State := setBit (setBits (setBits s R.ldStatus 16 8 0) R.ldStatus 8 7 0) R.ldStatus 26 true

theorem statusZero_shown (s : State) : keepsRegs [R.ldStatus] s (statusZero s) ∧ ldState (statusZero s) = ldState s ∧
    bits (statusZero s) R.ldStatus 16 8 = 0 ∧ bit (statusZero s) R.ldStatus 26 = true := by
  refine ⟨(((keepsRegs_refl _ s).setBits (by simp) 16 8 0).setBits (by simp) 8 7 0).setBit (by simp) 26 true, ?_, ?_,
    bit_setBit _ _ _ _ (by omega)⟩
  · refine (bits_setBit_ne _ _ _ _ _ _ _ (.inr (by omega))).trans ?_
    rw [bits_setBits_ne _ _ _ _ _ _ _ _ (.inr (by omega)), bits_setBits_ne _ _ _ _ _ _ _ _ (.inr (by omega))]
    rfl
  · refine (bits_setBit_ne _ _ _ _ _ _ _ (.inr (by omega))).trans ?_
    rw [bits_setBits_ne _ _ _ _ _ _ _ _ (.inr (by omega)), bits_setBits _ _ _ _ _ (by omega)]
    rfl

/-- What a completed load without children leaves. -/
structure Loaded (s t : State) : Prop where
  state : ldState t = 6
  code : bits t R.ldStatus 16 8 = 0
  done : bit t R.ldStatus 26 = true
  cause : causeBit t 34 = true
  valid : bits t R.ldReach 0 16 = s.ld.reaches % 65536
  held : bits t R.ldReach 16 16 = bits s R.ldReach 16 16
  sched : t.sched = s.sched

theorem loaded_loaded {s : State} (anchors : BitVec 32) (hm : ldMode s = 0) (hc : childLinks s = []) (hr : s.ld.reports = [])
    (hrel : bit s R.ldRelCfg 30 = false) (ht : traceOn s = false) : Loaded s (loaded anchors s) := by
  have hrun : loaded anchors s =
      let u := loadReleased anchors (setBits s R.ldReach 0 16 s.ld.reaches)
      let u := if ldMode u = 2 then setLd { u.ld with doneBall := true } u else u
      let u := finalStatus 20 0 (ownOrdinal u) (setLdState 6 (setBits u R.ldStatus 16 8 0))
      if bit u R.ldRelCfg 30 ∧ ldMode u ≠ 1 ∧ childLinks u = [] then startTree u else u := by
    rw [loaded, loadReleased]
  have hreach : keepsRegs [R.ldReach] s (setBits s R.ldReach 0 16 s.ld.reaches) := (keepsRegs_refl _ s).setBits (by simp) 0 16 _
  have hvalid : bits (setBits s R.ldReach 0 16 s.ld.reaches) R.ldReach 0 16 = s.ld.reaches % 65536 := bits_setBits _ _ _ _ _ (by omega)
  have hheld : bits (setBits s R.ldReach 0 16 s.ld.reaches) R.ldReach 16 16 = bits s R.ldReach 16 16 :=
    bits_setBits_ne _ _ _ _ _ _ _ _ (by omega)
  obtain ⟨hregs, hrep, g, l, e⟩ := loadReleased_released anchors (setBits s R.ldReach 0 16 s.ld.reaches)
  have hsched : (loadReleased anchors (setBits s R.ldReach 0 16 s.ld.reaches)).sched = s.sched := by rw [e]; rfl
  have hrepu : (loadReleased anchors (setBits s R.ldReach 0 16 s.ld.reaches)).ld.reports = [] := hrep.trans hr
  rw [hrun]
  generalize loadReleased anchors (setBits s R.ldReach 0 16 s.ld.reaches) = u at *
  generalize setBits s R.ldReach 0 16 s.ld.reaches = s0 at *
  have hreg (a : Nat) (h1 : a < 0x1000 ∨ 0x2000 ≤ a) (h2 : a < 0x200000 ∨ 0x300000 ≤ a) (h3 : a ∉ [R.ldReach]) : reg u a = reg s a :=
    (hregs a h1 h2).trans (hreach a h3)
  have hur : reg u R.ldReach = reg s0 R.ldReach := hregs _ (by decide) (by decide)
  have hrelu : bit u R.ldRelCfg 30 = false := by
    rw [bit, hreg R.ldRelCfg (by decide) (by decide) (by decide)]
    exact hrel
  obtain ⟨hmu, hcu, htu⟩ := loader_of_regs (s := s) (t := u) (hreg _ (by decide) (by decide) (by decide))
    (hreg _ (by decide) (by decide) (by decide)) (hreg _ (by decide) (by decide) (by decide))
  have hstate : setLdState 6 (setBits u R.ldStatus 16 8 0) = loadedShown u :=
    setLdState_loaded ((traceOn_keeps ((keepsRegs_refl [R.ldStatus] u).setBits (by simp) 16 8 0) (by decide) (by decide)).trans (htu.trans ht))
  dsimp only
  rw [if_neg (show ¬ ldMode u = 2 by rw [hmu, hm]; decide), hstate]
  obtain ⟨hkw, h6, h34, hldw, hschedw⟩ := loadedShown_shown u
  have hmw := (ldMode_keeps hkw (by decide)).trans (hmu.trans hm)
  have hcw := (childLinks_keeps hkw (by decide)).trans (hcu.trans hc)
  have hrelw : bit (loadedShown u) R.ldRelCfg 30 = false := (hkw.bit (by decide) 30).trans hrelu
  have hreachw (lo : Nat) : bits (loadedShown u) R.ldReach lo 16 = bits s0 R.ldReach lo 16 :=
    (hkw.bits (by decide) lo 16).trans (congrArg (bitsOf · lo 16) hur)
  rw [finalStatus_good hcw (by rw [hldw]; exact hrepu) hmw]
  generalize loadedShown u = w at *
  obtain ⟨hk, hst, hcode, hdone⟩ := statusZero_shown (setLd { w.ld with reports := [(20, 0, ownOrdinal u)] } w)
  have hschedx : (statusZero (setLd { w.ld with reports := [(20, 0, ownOrdinal u)] } w)).sched = s.sched := hschedw.trans hsched
  rw [← statusZero]
  generalize hx : statusZero (setLd { w.ld with reports := [(20, 0, ownOrdinal u)] } w) = x at *
  have hkx : keepsRegs [R.ldStatus] w x := hk
  rw [if_neg fun h => absurd (h.1.symm.trans ((hkx.bit (by decide) 30).trans hrelw)) (by decide)]
  refine ⟨hst.trans h6, hcode, hdone, ?_, ?_, ?_, hschedx⟩
  · exact (hkx.bit (by decide) _).trans h34
  · exact (hkx.bits (by decide) 0 16).trans ((hreachw 0).trans hvalid)
  · exact (hkx.bits (by decide) 16 16).trans ((hreachw 16).trans hheld)

/-! ## LOAD_COMPLETE -/

/-- The result of the checks, as LOAD_COMPLETE begins with it. -/
theorem loadComplete_checks {s : State} (h5 : ldState s = 5) {c : Nat}
    (hc : postCode s s.ld.units (clustersOf (reachList s.ld.reaches)) (clustersOf (reachList s.ld.reaches)) none = c) :
    loadComplete s = if c = 0
      then loaded (anchorBits (setBit s R.glbSchedStatus 0 (c == 0 || decide (0x13 ≤ c)))) (setBit s R.glbSchedStatus 0 (c == 0 || decide (0x13 ≤ c)))
      else failLoad c (setBit s R.glbSchedStatus 0 (c == 0 || decide (0x13 ≤ c))) := by
  rw [loadComplete, if_pos h5]
  dsimp only
  rw [hc]

theorem schedStatus_kept (s : State) (b : Bool) : keepsRegs [R.glbSchedStatus] s (setBit s R.glbSchedStatus 0 b) :=
  (keepsRegs_refl _ s).setBit (by simp) 0 b

theorem loadComplete_good {s : State} (h5 : ldState s = 5) (hm : ldMode s = 0) (hc : childLinks s = []) (hr : s.ld.reports = [])
    (hrel : bit s R.ldRelCfg 30 = false) (ht : traceOn s = false)
    (h0 : postCode s s.ld.units (clustersOf (reachList s.ld.reaches)) (clustersOf (reachList s.ld.reaches)) none = 0) :
    Completes .loadComplete s fun t =>
      ldState t = 6 ∧ bits t R.ldReach 0 16 = s.ld.reaches % 65536 ∧ bits t R.ldReach 16 16 = bits s R.ldReach 16 16 ∧
      bits t R.ldStatus 16 8 = 0 ∧ bit t R.ldStatus 26 = true ∧ causeBit t 34 = true ∧ t.sched = s.sched := by
  have hk := schedStatus_kept s ((0 : Nat) == 0 || decide (0x13 ≤ 0))
  have hl := loaded_loaded (s := setBit s R.glbSchedStatus 0 ((0 : Nat) == 0 || decide (0x13 ≤ 0)))
    (anchorBits (setBit s R.glbSchedStatus 0 ((0 : Nat) == 0 || decide (0x13 ≤ 0))))
    ((ldMode_keeps hk (by decide)).trans hm) ((childLinks_keeps hk (by decide)).trans hc) hr ((hk.bit (by decide) 30).trans hrel)
    ((traceOn_keeps hk (by decide) (by decide)).trans ht)
  exact ⟨_, congrArg Host.Outcome.next ((loadComplete_checks h5 h0).trans (if_pos rfl)), hl.state, hl.valid,
    hl.held.trans (hk.bits (by decide) 16 16), hl.code, hl.done, hl.cause, hl.sched⟩

theorem loadComplete_bad {s : State} {c : Nat} (h5 : ldState s = 5) (hm : ldMode s = 0) (hc : childLinks s = []) (hr : s.ld.reports = [])
    (ht : traceOn s = false)
    (hcode : postCode s s.ld.units (clustersOf (reachList s.ld.reaches)) (clustersOf (reachList s.ld.reaches)) none = c)
    (h0 : c ≠ 0) (h8 : c < 256) (hcl : s.ld.cleared = true) :
    Completes .loadComplete s fun t =>
      ldState t = 8 ∧ bits t R.ldReach 0 16 = 0 ∧ bits t R.ldStatus 16 8 = c ∧ bit t R.ldStatus 26 = true := by
  have hk := schedStatus_kept s (c == 0 || decide (0x13 ≤ c))
  have hf := failLoad_failed (s := setBit s R.glbSchedStatus 0 (c == 0 || decide (0x13 ≤ c)))
    (by rw [ldState_keeps hk (by decide), h5]; decide) ((childLinks_keeps hk (by decide)).trans hc) hr
    ((ldMode_keeps hk (by decide)).trans hm) ((traceOn_keeps hk (by decide) (by decide)).trans ht) h0 h8
  exact ⟨_, congrArg Host.Outcome.next ((loadComplete_checks h5 hcode).trans (if_neg h0)), hf.state, hf.invalid hcl, hf.code, hf.done⟩

/-- Settles O36. HOLD empties run and Harbour whatever state it meets; the first write keeps the loader's registers while it
resets the others; no record that a section may hold reaches the registers that tell how the load ends, so that its written
section stands as `writeRecords` leaves it and a bad one ends the load with code 0x0F. -/
theorem loadPhases : Obligations.LoadPhases := by
  refine ⟨fun s => enterHold_completes, fun s => loadWrite_begins, fun s i x bs => loadWrite_dict, fun s => loadComplete_good,
    fun s c h5 hm hc hr ht hcode h0 h8 hcl => loadComplete_bad h5 hm hc hr ht hcode h0 h8 hcl, fun s i x bs => loadWrite_imem,
    fun s i x bs => loadWrite_golden, fun s i x bs h4 hr hn hg ht hf hlen hgood hdead hlegs => ?_,
    fun s i x bs h4 hr hn hg ht hf hc hrep hm htr hbad => loadWrite_bad ⟨h4, hr, hn, hg, hf⟩ ht hc hrep hm htr hbad,
    fun c s => milestonePoint_completes⟩
  exact loadWrite_records ⟨h4, hr, hn, hg, hf⟩ ht hlen hgood ⟨hdead, hlegs⟩

end Sys2Proof.Machine
end
